-- ==== Sys2Proof/Word.lean ====
section
/-!
DEFINITION. The plain types of the DX8: words, lanes of a vector register, masks (spec/00 R4, R11).
-/
namespace Sys2Proof

/-- A byte of memory. -/
abbrev Byte := BitVec 8
/-- A 32-bit word: a scalar register, or the element of one lane (R4, R94). -/
abbrev Word := BitVec 32
/-- A 64-bit word: an address, a ptime, a pair of scalars (R94, R112). -/
abbrev DWord := BitVec 64
/-- One bit for each of the 96 lanes (R97): bit i is lane i. -/
abbrev Mask := BitVec 96
/-- One vector register: a word in each of the 96 lanes (R94). -/
abbrev Lanes := Vector Word 96
/-- An accumulator tile: its 64 columns, each a pool register of 96 rows (R200). -/
abbrev Tile := List Lanes

end Sys2Proof
end

