-- ==== Sys2Proof/Config.lean ====
section
/-!
DEFINITION. What one package or one run fixes and the spec leaves open: free values, constants without a body, so that a
claim about them holds whatever they are. The first argument is State.tick, which every step advances; the second tells
apart the free values of one step.
-/
namespace Sys2Proof.Config

/-- Nanoseconds between one step and the next, beyond the one that always passes (log 2). -/
opaque elapsed : Nat → Nat

/-- Whether a free choice between two allowed values takes the second (log 7: R231, R232, R241, R249, R179, R360). -/
opaque choice : Nat → Nat → Bool

/-- The rank that decides the order and association of a FADDR fold (R333, log 8). -/
opaque rank : Nat → Nat → Nat

/-- %eaddr of a cause whose entry states no address (R169, log 15). -/
opaque openAddress : Nat → DWord

/-- The content of the task-record region of a paint ply's save area (R108, log 9). -/
opaque undefinedByte : Nat → Nat → Byte

/-- The temperature that a vault's sensor gives, by vault, at a reading that nothing forces (R342, log 82). -/
opaque sensorTemp : Nat → Nat → BitVec 16

/-- The device identity public key (R386, log 10): 32 bytes, byte i. -/
opaque deviceKey : Nat → Byte

/-- The Ed25519 signature of a report under the device identity key (R388, log 10): 64 bytes, byte i. -/
opaque signature : List Byte → Nat → Byte

/-- The version of Rook in the mask ROM (R386, R388, log 10). -/
opaque rookVersion : Word

end Sys2Proof.Config
end

