-- ==== Sys2Proof/Syntax.lean ====
section
/-!
DEFINITION. The rows of spec/opcode_table.json: one constructor each. A row with a word carries the fields of its word,
named as the table names them; a row without one (an operation of a unit, or an event from outside) carries the unit it
happens at and, where it comes from outside the package, the data it brings.
-/
namespace Sys2Proof

/-- A message of the fabric as it arrives (spec/21 R404). -/
structure Message where
  tag      : DWord
  source   : Nat
  tenant   : Nat
  sender   : Nat
  job      : Nat
  payload  : List Byte
  deriving DecidableEq, Repr

/-- Where a request comes from: the endpoint and the job of its sender (spec/21 R395). -/
structure Sender where
  endpoint : Nat
  job      : Nat
  deriving DecidableEq, Repr

/-- An instance of a collective that some member has not issued in time: the operation, and the ptime of the first member's issue
(spec/21 R408). -/
structure LateInstance where
  op    : Nat
  first : Nat
  deriving DecidableEq, Repr

/-- The sections that an object may contain, by their names (spec/02 R63), the null section of index 0 and the table of the
section names of ELF64 itself; other is any other name. -/
inductive SectionName where
  | null | text | rodata | data | bss | entries | symtab | strtab | relaText | relaRodata | relaData | shstrtab | other
  deriving DecidableEq, Repr

/-- A section of an object file, with the fields of its header that R63 speaks of (spec/02 R63). -/
structure Section where
  name     : SectionName
  shType   : Nat
  flags    : Nat
  align    : Nat
  size     : Nat
  /-- Its bytes; none in .bss. -/
  data     : List Byte
  deriving DecidableEq, Repr

/-- An ELF64 object: the fields of its header (spec/02 R62), and its sections in the order of their indexes, the null section
first. Symbols, entries and relocations are the bytes of their sections (R63, R64). -/
structure ObjectFile where
  eiClass   : Nat
  eiData    : Nat
  eiVersion : Nat
  osabi     : Nat
  eType     : Nat
  machine   : Nat
  eFlags    : Nat
  sections  : List Section
  deriving DecidableEq, Repr

/-- Where the loader places an allocated section: virtual base and physical base (spec/02 R66, "an address it chooses"). -/
structure Placement where
  va : Nat
  pa : Nat
  deriving DecidableEq, Repr

/-- A service-firmware image in a boot slot (spec/19 R386): whether its signature verifies, its version, its digest. -/
structure BootImage where
  signatureOk : Bool
  version     : Nat
  digest      : List Byte
  deriving DecidableEq, Repr

/-- Where an uncorrectable error strikes (spec/15 R323, spec/16 R351). -/
inductive ErrorSite where
  | dram (pa : Nat)                        -- an 8-byte granule of DRAM
  | vaultCache (pa : Nat)                  -- an 8-byte granule of the vault cache
  | l2Line (cluster line : Nat)            -- a line's data or tag in the L2
  | l2Pending (store : Nat)                -- a pending store's bytes
  | root (cluster number : Nat)            -- a barrier root
  | fifo (tower pair : Nat) (up : Bool)    -- the oldest entry of a vertical FIFO
  | faddd (vault : Nat) (element : Nat)    -- a held contribution of the FADDD table
  | task (index : Nat)                     -- a task in transit by Knight
  | piece (index : Nat)                    -- a piece in the tiler
  | core (core : Nat)                      -- a core's L1, pool or local buffers (R389)
  -- single-bit errors, corrected and logged (R323, R351)
  | singleDram (vault : Nat)
  | singleHome (vault : Nat)
  | singleFifo (tower pair : Nat)
  | singleL2 (cluster : Nat)
  deriving DecidableEq, Repr

/-- What a fabric operation's target answered (spec/21 R399, R401): done with the bytes read, or the reason it failed. -/
inductive FabricAnswer where
  | done (data : List Byte)
  | failed (reason : Nat)
  deriving DecidableEq, Repr

/-- What service firmware asks of the configuration space (spec/19 R381): a store of bytes, or a load of some. -/
inductive ConfigAccess where
  | store (bytes : List Byte)
  | load (bytes : Nat)
  deriving DecidableEq, Repr

/-- What one member brought to an instance of a collective (spec/21 R408): kind, operation, format, unit count, data. -/
structure Contribution where
  kind   : Nat
  op     : Nat
  fmt    : Nat
  count  : Nat
  issuedAt : Nat                           -- ptime at which the member issued it
  data   : List Byte
  deriving DecidableEq, Repr

/-- One constructor for each row of spec/opcode_table.json. -/
inductive Instr where
  /-- SADD (R122). Scalar add modulo 2^32. -/
  | sadd (d : BitVec 6) (a : BitVec 6) (b : BitVec 6)
  /-- SSUB (R122). Scalar subtract modulo 2^32. -/
  | ssub (d : BitVec 6) (a : BitVec 6) (b : BitVec 6)
  /-- SMUL (R122). Scalar multiply, low 32 bits of the product. -/
  | smul (d : BitVec 6) (a : BitVec 6) (b : BitVec 6)
  /-- SMULH (R122). Scalar signed high multiply, bits 63:32 of the product. -/
  | smulh (d : BitVec 6) (a : BitVec 6) (b : BitVec 6)
  /-- SMULHU (R122). Scalar unsigned high multiply. -/
  | smulhu (d : BitVec 6) (a : BitVec 6) (b : BitVec 6)
  /-- SDIV (R122). Scalar signed quotient under R15. -/
  | sdiv (d : BitVec 6) (a : BitVec 6) (b : BitVec 6)
  /-- SDIVU (R122). Scalar unsigned quotient under R15. -/
  | sdivu (d : BitVec 6) (a : BitVec 6) (b : BitVec 6)
  /-- SREM (R122). Scalar signed remainder under R15. -/
  | srem (d : BitVec 6) (a : BitVec 6) (b : BitVec 6)
  /-- SREMU (R122). Scalar unsigned remainder under R15. -/
  | sremu (d : BitVec 6) (a : BitVec 6) (b : BitVec 6)
  /-- SAND (R122). Scalar bitwise AND. -/
  | sand (d : BitVec 6) (a : BitVec 6) (b : BitVec 6)
  /-- SOR (R122). Scalar bitwise OR. -/
  | sor (d : BitVec 6) (a : BitVec 6) (b : BitVec 6)
  /-- SXOR (R122). Scalar bitwise XOR. -/
  | sxor (d : BitVec 6) (a : BitVec 6) (b : BitVec 6)
  /-- SANDN (R122). Scalar a AND NOT b. -/
  | sandn (d : BitVec 6) (a : BitVec 6) (b : BitVec 6)
  /-- SSHL (R122). Scalar shift left by b mod 32. -/
  | sshl (d : BitVec 6) (a : BitVec 6) (b : BitVec 6)
  /-- SSHR (R122). Scalar logical shift right. -/
  | sshr (d : BitVec 6) (a : BitVec 6) (b : BitVec 6)
  /-- SSRA (R122). Scalar arithmetic shift right. -/
  | ssra (d : BitVec 6) (a : BitVec 6) (b : BitVec 6)
  /-- SROL (R122). Scalar rotate toward bit 31. -/
  | srol (d : BitVec 6) (a : BitVec 6) (b : BitVec 6)
  /-- SMIN (R122). Scalar signed minimum. -/
  | smin (d : BitVec 6) (a : BitVec 6) (b : BitVec 6)
  /-- SMAX (R122). Scalar signed maximum. -/
  | smax (d : BitVec 6) (a : BitVec 6) (b : BitVec 6)
  /-- SMINU (R122). Scalar unsigned minimum. -/
  | sminu (d : BitVec 6) (a : BitVec 6) (b : BitVec 6)
  /-- SMAXU (R122). Scalar unsigned maximum. -/
  | smaxu (d : BitVec 6) (a : BitVec 6) (b : BitVec 6)
  /-- SCLZ (R122). Scalar count of leading zeros. -/
  | sclz (d : BitVec 6) (a : BitVec 6)
  /-- SCTZ (R122). Scalar count of trailing zeros. -/
  | sctz (d : BitVec 6) (a : BitVec 6)
  /-- SPOPC (R122). Scalar population count. -/
  | spopc (d : BitVec 6) (a : BitVec 6)
  /-- SBREV (R122). Scalar bit reversal. -/
  | sbrev (d : BitVec 6) (a : BitVec 6)
  /-- SSEXB (R122). Scalar sign extension of the low byte. -/
  | ssexb (d : BitVec 6) (a : BitVec 6)
  /-- SSEXH (R122). Scalar sign extension of the low halfword. -/
  | ssexh (d : BitVec 6) (a : BitVec 6)
  /-- SSEL (R122). Scalar select of a or b by the old value of d. -/
  | ssel (d : BitVec 6) (a : BitVec 6) (b : BitVec 6)
  /-- SCMP_EQ (R122). Scalar compare equal, writing 1 or 0. -/
  | scmpEq (d : BitVec 6) (a : BitVec 6) (b : BitVec 6)
  /-- SCMP_NE (R122). Scalar compare not equal. -/
  | scmpNe (d : BitVec 6) (a : BitVec 6) (b : BitVec 6)
  /-- SCMP_LT (R122). Scalar signed less-than compare. -/
  | scmpLt (d : BitVec 6) (a : BitVec 6) (b : BitVec 6)
  /-- SCMP_LE (R122). Scalar signed less-or-equal compare. -/
  | scmpLe (d : BitVec 6) (a : BitVec 6) (b : BitVec 6)
  /-- SCMP_LTU (R122). Scalar unsigned less-than compare. -/
  | scmpLtu (d : BitVec 6) (a : BitVec 6) (b : BitVec 6)
  /-- SCMP_LEU (R122). Scalar unsigned less-or-equal compare. -/
  | scmpLeu (d : BitVec 6) (a : BitVec 6) (b : BitVec 6)
  /-- SADD64 (R123). 64-bit pair add. -/
  | sadd64 (d : BitVec 6) (a : BitVec 6) (b : BitVec 6)
  /-- SSUB64 (R123). 64-bit pair subtract. -/
  | ssub64 (d : BitVec 6) (a : BitVec 6) (b : BitVec 6)
  /-- SSHL64 (R123). 64-bit pair shift left by S[b] mod 64. -/
  | sshl64 (d : BitVec 6) (a : BitVec 6) (b : BitVec 6)
  /-- SSHR64 (R123). 64-bit pair logical shift right. -/
  | sshr64 (d : BitVec 6) (a : BitVec 6) (b : BitVec 6)
  /-- SMOV64 (R123). 64-bit pair move. -/
  | smov64 (d : BitVec 6) (a : BitVec 6)
  /-- SADDI (R125). Scalar add immediate. -/
  | saddi (d : BitVec 6) (a : BitVec 6) (i : BitVec 11)
  /-- SANDI (R125). Scalar AND immediate. -/
  | sandi (d : BitVec 6) (a : BitVec 6) (i : BitVec 11)
  /-- SORI (R125). Scalar OR immediate. -/
  | sori (d : BitVec 6) (a : BitVec 6) (i : BitVec 11)
  /-- SXORI (R125). Scalar XOR immediate. -/
  | sxori (d : BitVec 6) (a : BitVec 6) (i : BitVec 11)
  /-- SSHLI (R125). Scalar shift left by an immediate count. -/
  | sshli (d : BitVec 6) (a : BitVec 6) (c : BitVec 5)
  /-- SSHRI (R125). Scalar logical shift right by an immediate count. -/
  | sshri (d : BitVec 6) (a : BitVec 6) (c : BitVec 5)
  /-- SSRAI (R125). Scalar arithmetic shift right by an immediate count. -/
  | ssrai (d : BitVec 6) (a : BitVec 6) (c : BitVec 5)
  /-- SLI (R125). Load a scalar immediate. -/
  | sli (d : BitVec 6) (i : BitVec 11)
  /-- SCMPI_EQ (R126). Scalar compare equal against an immediate. -/
  | scmpiEq (d : BitVec 6) (a : BitVec 6) (i : BitVec 11)
  /-- SCMPI_NE (R126). Scalar compare not equal against an immediate. -/
  | scmpiNe (d : BitVec 6) (a : BitVec 6) (i : BitVec 11)
  /-- SCMPI_LT (R126). Scalar signed less-than against an immediate. -/
  | scmpiLt (d : BitVec 6) (a : BitVec 6) (i : BitVec 11)
  /-- SCMPI_LE (R126). Scalar signed less-or-equal against an immediate. -/
  | scmpiLe (d : BitVec 6) (a : BitVec 6) (i : BitVec 11)
  /-- SCMPI_LTU (R126). Scalar unsigned less-than against an immediate. -/
  | scmpiLtu (d : BitVec 6) (a : BitVec 6) (i : BitVec 11)
  /-- SCMPI_LEU (R126). Scalar unsigned less-or-equal against an immediate. -/
  | scmpiLeu (d : BitVec 6) (a : BitVec 6) (i : BitVec 11)
  /-- SCMPI_GT (R126). Scalar signed greater-than against an immediate. -/
  | scmpiGt (d : BitVec 6) (a : BitVec 6) (i : BitVec 11)
  /-- SCMPI_GE (R126). Scalar signed greater-or-equal against an immediate. -/
  | scmpiGe (d : BitVec 6) (a : BitVec 6) (i : BitVec 11)
  /-- VADD (R127). Vector add per active lane. -/
  | vadd (d : BitVec 7) (a : BitVec 7) (b : BitVec 7) (w : BitVec 1)
  /-- VSUB (R127). Vector subtract. -/
  | vsub (d : BitVec 7) (a : BitVec 7) (b : BitVec 7) (w : BitVec 1)
  /-- VMUL (R127). Vector multiply, low 32 bits. -/
  | vmul (d : BitVec 7) (a : BitVec 7) (b : BitVec 7) (w : BitVec 1)
  /-- VMULH (R127). Vector signed high multiply. -/
  | vmulh (d : BitVec 7) (a : BitVec 7) (b : BitVec 7) (w : BitVec 1)
  /-- VMULHU (R127). Vector unsigned high multiply. -/
  | vmulhu (d : BitVec 7) (a : BitVec 7) (b : BitVec 7) (w : BitVec 1)
  /-- VAND (R127). Vector AND. -/
  | vand (d : BitVec 7) (a : BitVec 7) (b : BitVec 7) (w : BitVec 1)
  /-- VOR (R127). Vector OR. -/
  | vor (d : BitVec 7) (a : BitVec 7) (b : BitVec 7) (w : BitVec 1)
  /-- VXOR (R127). Vector XOR. -/
  | vxor (d : BitVec 7) (a : BitVec 7) (b : BitVec 7) (w : BitVec 1)
  /-- VANDN (R127). Vector x AND NOT y. -/
  | vandn (d : BitVec 7) (a : BitVec 7) (b : BitVec 7) (w : BitVec 1)
  /-- VSHL (R127). Vector shift left. -/
  | vshl (d : BitVec 7) (a : BitVec 7) (b : BitVec 7) (w : BitVec 1)
  /-- VSHR (R127). Vector logical shift right. -/
  | vshr (d : BitVec 7) (a : BitVec 7) (b : BitVec 7) (w : BitVec 1)
  /-- VSRA (R127). Vector arithmetic shift right. -/
  | vsra (d : BitVec 7) (a : BitVec 7) (b : BitVec 7) (w : BitVec 1)
  /-- VMIN (R127). Vector signed minimum. -/
  | vmin (d : BitVec 7) (a : BitVec 7) (b : BitVec 7) (w : BitVec 1)
  /-- VMAX (R127). Vector signed maximum. -/
  | vmax (d : BitVec 7) (a : BitVec 7) (b : BitVec 7) (w : BitVec 1)
  /-- VMINU (R127). Vector unsigned minimum. -/
  | vminu (d : BitVec 7) (a : BitVec 7) (b : BitVec 7) (w : BitVec 1)
  /-- VMAXU (R127). Vector unsigned maximum. -/
  | vmaxu (d : BitVec 7) (a : BitVec 7) (b : BitVec 7) (w : BitVec 1)
  /-- VADDS (R127). Vector signed saturating add. -/
  | vadds (d : BitVec 7) (a : BitVec 7) (b : BitVec 7) (w : BitVec 1)
  /-- VSUBS (R127). Vector signed saturating subtract. -/
  | vsubs (d : BitVec 7) (a : BitVec 7) (b : BitVec 7) (w : BitVec 1)
  /-- VADDSU (R127). Vector unsigned saturating add. -/
  | vaddsu (d : BitVec 7) (a : BitVec 7) (b : BitVec 7) (w : BitVec 1)
  /-- VSUBSU (R127). Vector unsigned saturating subtract. -/
  | vsubsu (d : BitVec 7) (a : BitVec 7) (b : BitVec 7) (w : BitVec 1)
  /-- VABSD (R127). Vector absolute difference of signed values. -/
  | vabsd (d : BitVec 7) (a : BitVec 7) (b : BitVec 7) (w : BitVec 1)
  /-- VCLZ (R127). Vector count of leading zeros. -/
  | vclz (d : BitVec 7) (a : BitVec 7) (w : BitVec 1)
  /-- VPOPC (R127). Vector population count. -/
  | vpopc (d : BitVec 7) (a : BitVec 7) (w : BitVec 1)
  /-- VBREV (R127). Vector bit reversal. -/
  | vbrev (d : BitVec 7) (a : BitVec 7) (w : BitVec 1)
  /-- VSEXB (R127). Vector sign extension of the low byte. -/
  | vsexb (d : BitVec 7) (a : BitVec 7) (w : BitVec 1)
  /-- VSEXH (R127). Vector sign extension of the low halfword. -/
  | vsexh (d : BitVec 7) (a : BitVec 7) (w : BitVec 1)
  /-- VPACKB (R128). Pack bytes of two sources, saturating under HSAT. -/
  | vpackb (d : BitVec 7) (a : BitVec 7) (b : BitVec 7) (w : BitVec 1)
  /-- VPACKH (R128). Pack halfwords of two sources, saturating under HSAT. -/
  | vpackh (d : BitVec 7) (a : BitVec 7) (b : BitVec 7) (w : BitVec 1)
  /-- VUNPKB (R128). Unpack two low bytes with sign extension. -/
  | vunpkb (d : BitVec 7) (a : BitVec 7) (w : BitVec 1)
  /-- VUNPKH (R128). Unpack the upper halfword with sign extension. -/
  | vunpkh (d : BitVec 7) (a : BitVec 7) (w : BitVec 1)
  /-- VMOV (R127). Vector move. -/
  | vmov (d : BitVec 7) (a : BitVec 7) (w : BitVec 1)
  /-- VLANE (R127). x plus lane number times y. -/
  | vlane (d : BitVec 7) (a : BitVec 7) (b : BitVec 7) (w : BitVec 1)
  /-- VADDI (R129). Vector add immediate. -/
  | vaddi (d : BitVec 7) (a : BitVec 7) (i : BitVec 12)
  /-- VANDI (R129). Vector AND immediate. -/
  | vandi (d : BitVec 7) (a : BitVec 7) (i : BitVec 12)
  /-- VORI (R129). Vector OR immediate. -/
  | vori (d : BitVec 7) (a : BitVec 7) (i : BitVec 12)
  /-- VXORI (R129). Vector XOR immediate. -/
  | vxori (d : BitVec 7) (a : BitVec 7) (i : BitVec 12)
  /-- VSHI_SHL (R130). Vector shift left by an immediate. -/
  | vshiShl (d : BitVec 7) (a : BitVec 7) (c : BitVec 5)
  /-- VSHI_SHR (R130). Vector logical shift right by an immediate. -/
  | vshiShr (d : BitVec 7) (a : BitVec 7) (c : BitVec 5)
  /-- VSHI_SRA (R130). Vector arithmetic shift right by an immediate. -/
  | vshiSra (d : BitVec 7) (a : BitVec 7) (c : BitVec 5)
  /-- VSHI_ROL (R130). Vector rotate left by an immediate. -/
  | vshiRol (d : BitVec 7) (a : BitVec 7) (c : BitVec 5)
  /-- VLI (R131). Write a sign-extended 19-bit immediate into every active lane. -/
  | vli (d : BitVec 7) (i : BitVec 19)
  /-- VCMP_EQ (R132). Vector compare equal. -/
  | vcmpEq (d : BitVec 7) (a : BitVec 7) (b : BitVec 7) (w : BitVec 1)
  /-- VCMP_NE (R132). Vector compare not equal. -/
  | vcmpNe (d : BitVec 7) (a : BitVec 7) (b : BitVec 7) (w : BitVec 1)
  /-- VCMP_LT (R132). Vector signed less-than. -/
  | vcmpLt (d : BitVec 7) (a : BitVec 7) (b : BitVec 7) (w : BitVec 1)
  /-- VCMP_LE (R132). Vector signed less-or-equal. -/
  | vcmpLe (d : BitVec 7) (a : BitVec 7) (b : BitVec 7) (w : BitVec 1)
  /-- VCMP_LTU (R132). Vector unsigned less-than. -/
  | vcmpLtu (d : BitVec 7) (a : BitVec 7) (b : BitVec 7) (w : BitVec 1)
  /-- VCMP_LEU (R132). Vector unsigned less-or-equal. -/
  | vcmpLeu (d : BitVec 7) (a : BitVec 7) (b : BitVec 7) (w : BitVec 1)
  /-- VCMP_GT (R132). Vector signed greater-than. -/
  | vcmpGt (d : BitVec 7) (a : BitVec 7) (b : BitVec 7) (w : BitVec 1)
  /-- VCMP_GE (R132). Vector signed greater-or-equal. -/
  | vcmpGe (d : BitVec 7) (a : BitVec 7) (b : BitVec 7) (w : BitVec 1)
  /-- VCMP_GTU (R132). Vector unsigned greater-than. -/
  | vcmpGtu (d : BitVec 7) (a : BitVec 7) (b : BitVec 7) (w : BitVec 1)
  /-- VCMP_GEU (R132). Vector unsigned greater-or-equal. -/
  | vcmpGeu (d : BitVec 7) (a : BitVec 7) (b : BitVec 7) (w : BitVec 1)
  /-- VMAD (R133). Vector multiply-add with tied destination. -/
  | vmad (d : BitVec 7) (a : BitVec 7) (b : BitVec 7) (w : BitVec 1)
  /-- VADDMIN (R133). Signed minimum of a wrapped sum and the tied source. -/
  | vaddmin (d : BitVec 7) (a : BitVec 7) (b : BitVec 7) (w : BitVec 1)
  /-- VADDMINU (R133). Unsigned minimum of a wrapped sum and the tied source. -/
  | vaddminu (d : BitVec 7) (a : BitVec 7) (b : BitVec 7) (w : BitVec 1)
  /-- VADDMAX (R133). Signed maximum of a wrapped sum and the tied source. -/
  | vaddmax (d : BitVec 7) (a : BitVec 7) (b : BitVec 7) (w : BitVec 1)
  /-- VSEL (R133). Select x or y by the tied source. -/
  | vsel (d : BitVec 7) (a : BitVec 7) (b : BitVec 7) (w : BitVec 1)
  /-- VDOT4 (R134). Signed 4-byte dot product accumulated into the tied source. -/
  | vdot4 (d : BitVec 7) (a : BitVec 7) (b : BitVec 7) (w : BitVec 1)
  /-- VDOT4U (R134). Unsigned 4-byte dot product accumulated into the tied source. -/
  | vdot4u (d : BitVec 7) (a : BitVec 7) (b : BitVec 7) (w : BitVec 1)
  /-- VBFI (R133). Bit-field insert of x under mask y into the tied source. -/
  | vbfi (d : BitVec 7) (a : BitVec 7) (b : BitVec 7) (w : BitVec 1)
  /-- FADD (R140). fp32 add, rounded once. -/
  | fadd (d : BitVec 7) (a : BitVec 7) (b : BitVec 7) (w : BitVec 1)
  /-- FSUB (R140). fp32 subtract. -/
  | fsub (d : BitVec 7) (a : BitVec 7) (b : BitVec 7) (w : BitVec 1)
  /-- FMUL (R140). fp32 multiply. -/
  | fmul (d : BitVec 7) (a : BitVec 7) (b : BitVec 7) (w : BitVec 1)
  /-- FDIV (R140). fp32 correctly rounded divide. -/
  | fdiv (d : BitVec 7) (a : BitVec 7) (b : BitVec 7) (w : BitVec 1)
  /-- FMIN (R140). IEEE 754-2019 minimum. -/
  | fmin (d : BitVec 7) (a : BitVec 7) (b : BitVec 7) (w : BitVec 1)
  /-- FMAX (R140). IEEE 754-2019 maximum. -/
  | fmax (d : BitVec 7) (a : BitVec 7) (b : BitVec 7) (w : BitVec 1)
  /-- FMINN (R140). minimumNumber. -/
  | fminn (d : BitVec 7) (a : BitVec 7) (b : BitVec 7) (w : BitVec 1)
  /-- FMAXN (R140). maximumNumber. -/
  | fmaxn (d : BitVec 7) (a : BitVec 7) (b : BitVec 7) (w : BitVec 1)
  /-- FCOPYSIGN (R140). Copy the sign bit of y onto x. -/
  | fcopysign (d : BitVec 7) (a : BitVec 7) (b : BitVec 7) (w : BitVec 1)
  /-- FABS (R140). Clear the sign bit. -/
  | fabs (d : BitVec 7) (a : BitVec 7) (w : BitVec 1)
  /-- FNEG (R140). Invert the sign bit. -/
  | fneg (d : BitVec 7) (a : BitVec 7) (w : BitVec 1)
  /-- FFLOOR (R140). Round toward minus infinity to an integral value. -/
  | ffloor (d : BitVec 7) (a : BitVec 7) (w : BitVec 1)
  /-- FCEIL (R140). Round toward plus infinity to an integral value. -/
  | fceil (d : BitVec 7) (a : BitVec 7) (w : BitVec 1)
  /-- FTRUNC (R140). Round toward zero to an integral value. -/
  | ftrunc (d : BitVec 7) (a : BitVec 7) (w : BitVec 1)
  /-- FRINT (R140). Round to an integral value in the selected mode. -/
  | frint (d : BitVec 7) (a : BitVec 7) (w : BitVec 1)
  /-- FSQRT (R140). Correctly rounded square root. -/
  | fsqrt (d : BitVec 7) (a : BitVec 7) (w : BitVec 1)
  /-- FRCP (R141). Correctly rounded reciprocal. -/
  | frcp (d : BitVec 7) (a : BitVec 7) (w : BitVec 1)
  /-- FRSQ (R141). Correctly rounded reciprocal square root. -/
  | frsq (d : BitVec 7) (a : BitVec 7) (w : BitVec 1)
  /-- FEXP2 (R141). Correctly rounded 2^x. -/
  | fexp2 (d : BitVec 7) (a : BitVec 7) (w : BitVec 1)
  /-- FLOG2 (R141). Correctly rounded log2 x. -/
  | flog2 (d : BitVec 7) (a : BitVec 7) (w : BitVec 1)
  /-- FSIN (R141). Correctly rounded sin 2πx. -/
  | fsin (d : BitVec 7) (a : BitVec 7) (w : BitVec 1)
  /-- FCOS (R141). Correctly rounded cos 2πx. -/
  | fcos (d : BitVec 7) (a : BitVec 7) (w : BitVec 1)
  /-- FTANH (R141). Correctly rounded tanh x. -/
  | ftanh (d : BitVec 7) (a : BitVec 7) (w : BitVec 1)
  /-- FSIGM (R141). Correctly rounded logistic sigmoid. -/
  | fsigm (d : BitVec 7) (a : BitVec 7) (w : BitVec 1)
  /-- FCLASS (R141). One-hot class of an fp32 value. -/
  | fclass (d : BitVec 7) (a : BitVec 7) (w : BitVec 1)
  /-- FMA (R142). Fused x*y + t, one rounding. -/
  | fma (d : BitVec 7) (a : BitVec 7) (b : BitVec 7) (w : BitVec 1)
  /-- FMS (R142). Fused x*y - t. -/
  | fms (d : BitVec 7) (a : BitVec 7) (b : BitVec 7) (w : BitVec 1)
  /-- FNMA (R142). Fused t - x*y. -/
  | fnma (d : BitVec 7) (a : BitVec 7) (b : BitVec 7) (w : BitVec 1)
  /-- FADDMIN (R142). minimumNumber of a rounded sum and the tied source. -/
  | faddmin (d : BitVec 7) (a : BitVec 7) (b : BitVec 7) (w : BitVec 1)
  /-- FADDMAX (R142). maximumNumber of a rounded sum and the tied source. -/
  | faddmax (d : BitVec 7) (a : BitVec 7) (b : BitVec 7) (w : BitVec 1)
  /-- FCMP_EQ (R143). Float ordered equal compare. -/
  | fcmpEq (d : BitVec 7) (a : BitVec 7) (b : BitVec 7) (w : BitVec 1)
  /-- FCMP_NE (R143). Float unordered or not equal compare. -/
  | fcmpNe (d : BitVec 7) (a : BitVec 7) (b : BitVec 7) (w : BitVec 1)
  /-- FCMP_LT (R143). Float ordered less-than. -/
  | fcmpLt (d : BitVec 7) (a : BitVec 7) (b : BitVec 7) (w : BitVec 1)
  /-- FCMP_LE (R143). Float ordered less-or-equal. -/
  | fcmpLe (d : BitVec 7) (a : BitVec 7) (b : BitVec 7) (w : BitVec 1)
  /-- FCMP_GT (R143). Float ordered greater-than. -/
  | fcmpGt (d : BitVec 7) (a : BitVec 7) (b : BitVec 7) (w : BitVec 1)
  /-- FCMP_GE (R143). Float ordered greater-or-equal. -/
  | fcmpGe (d : BitVec 7) (a : BitVec 7) (b : BitVec 7) (w : BitVec 1)
  /-- FCMP_UN (R143). Float unordered test. -/
  | fcmpUn (d : BitVec 7) (a : BitVec 7) (b : BitVec 7) (w : BitVec 1)
  /-- FCMP_ORD (R143). Float ordered test. -/
  | fcmpOrd (d : BitVec 7) (a : BitVec 7) (b : BitVec 7) (w : BitVec 1)
  /-- FCVT (R146). Float-to-float conversion by pair index, inserting or widening an element. -/
  | fcvt (d : BitVec 7) (a : BitVec 7) (i : BitVec 5) (s : BitVec 1) (m : BitVec 3) (w : BitVec 1)
  /-- FCVTI (R147). Float-to-integer conversion by pair index. -/
  | fcvti (d : BitVec 7) (a : BitVec 7) (i : BitVec 5) (m : BitVec 3) (w : BitVec 1)
  /-- ICVTF (R147). Integer-to-float conversion by pair index. -/
  | icvtf (d : BitVec 7) (a : BitVec 7) (i : BitVec 5) (m : BitVec 3) (w : BitVec 1)
  /-- HADD2 (R149). Packed fp16 add. -/
  | hadd2 (d : BitVec 7) (a : BitVec 7) (b : BitVec 7) (w : BitVec 1)
  /-- HSUB2 (R149). Packed fp16 subtract. -/
  | hsub2 (d : BitVec 7) (a : BitVec 7) (b : BitVec 7) (w : BitVec 1)
  /-- HMUL2 (R149). Packed fp16 multiply. -/
  | hmul2 (d : BitVec 7) (a : BitVec 7) (b : BitVec 7) (w : BitVec 1)
  /-- HFMA2 (R149). Packed fp16 fused multiply-add. -/
  | hfma2 (d : BitVec 7) (a : BitVec 7) (b : BitVec 7) (w : BitVec 1)
  /-- HMIN2 (R149). Packed fp16 minimum. -/
  | hmin2 (d : BitVec 7) (a : BitVec 7) (b : BitVec 7) (w : BitVec 1)
  /-- HMAX2 (R149). Packed fp16 maximum. -/
  | hmax2 (d : BitVec 7) (a : BitVec 7) (b : BitVec 7) (w : BitVec 1)
  /-- BADD2 (R149). Packed bf16 add. -/
  | badd2 (d : BitVec 7) (a : BitVec 7) (b : BitVec 7) (w : BitVec 1)
  /-- BMUL2 (R149). Packed bf16 multiply. -/
  | bmul2 (d : BitVec 7) (a : BitVec 7) (b : BitVec 7) (w : BitVec 1)
  /-- BFMA2 (R149). Packed bf16 fused multiply-add. -/
  | bfma2 (d : BitVec 7) (a : BitVec 7) (b : BitVec 7) (w : BitVec 1)
  /-- LSHUP (R152). Shift lane values up by n lanes. -/
  | lshup (d : BitVec 7) (a : BitVec 7) (n : BitVec 7) (w : BitVec 1)
  /-- LSHDN (R152). Shift lane values down by n lanes. -/
  | lshdn (d : BitVec 7) (a : BitVec 7) (n : BitVec 7) (w : BitVec 1)
  /-- LROT (R152). Rotate lane values by n lanes. -/
  | lrot (d : BitVec 7) (a : BitVec 7) (n : BitVec 7) (w : BitVec 1)
  /-- LPERM (R152). Permute lanes by per-lane index. -/
  | lperm (d : BitVec 7) (a : BitVec 7) (b : BitVec 7) (w : BitVec 1)
  /-- LBCAST (R152). Broadcast lane n. -/
  | lbcast (d : BitVec 7) (a : BitVec 7) (n : BitVec 7) (w : BitVec 1)
  /-- LQUAD (R152). Swap or broadcast within each quad. -/
  | lquad (d : BitVec 7) (a : BitVec 7) (n : BitVec 7) (w : BitVec 1)
  /-- DERIVX (R153). Fine horizontal derivative within a quad. -/
  | derivx (d : BitVec 7) (a : BitVec 7) (w : BitVec 1)
  /-- DERIVY (R153). Fine vertical derivative within a quad. -/
  | derivy (d : BitVec 7) (a : BitVec 7) (w : BitVec 1)
  /-- DERIVXC (R153). Coarse horizontal derivative within a quad. -/
  | derivxc (d : BitVec 7) (a : BitVec 7) (w : BitVec 1)
  /-- DERIVYC (R153). Coarse vertical derivative within a quad. -/
  | derivyc (d : BitVec 7) (a : BitVec 7) (w : BitVec 1)
  /-- LMATCH (R154). Group active lanes by key, giving rank, count and lowest lane. -/
  | lmatch (d : BitVec 7) (a : BitVec 7) (b : BitVec 7) (w : BitVec 1)
  /-- LRED (R155). Reduce the active lanes in ascending order into every active lane. -/
  | lred (d : BitVec 7) (a : BitVec 7) (o : BitVec 4) (w : BitVec 1)
  /-- LSCAN (R155). Inclusive or exclusive scan over the active lanes. -/
  | lscan (d : BitVec 7) (a : BitVec 7) (e : BitVec 1) (o : BitVec 4) (w : BitVec 1)
  /-- LVOTE (R156). Vote over the active lanes. -/
  | lvote (d : BitVec 7) (a : BitVec 7) (s : BitVec 2) (w : BitVec 1)
  /-- VBCAST (R135). Broadcast a scalar into every active lane. -/
  | vbcast (d : BitVec 7) (a : BitVec 6) (w : BitVec 1)
  /-- VEXTR (R135). Extract one lane into a scalar. -/
  | vextr (d : BitVec 6) (a : BitVec 7) (b : BitVec 6)
  /-- VINS (R135). Insert a scalar into one active lane. -/
  | vins (d : BitVec 7) (a : BitVec 6) (b : BitVec 6) (w : BitVec 1)
  /-- MFROMV (R135). Form a mask triple from non-zero active lanes. -/
  | mfromv (d : BitVec 6) (a : BitVec 7)
  /-- MTOV (R135). Write mask bits into active lanes. -/
  | mtov (d : BitVec 7) (a : BitVec 6) (w : BitVec 1)
  /-- MPOPC (R135). Count the set bits of a mask triple. -/
  | mpopc (d : BitVec 6) (a : BitVec 6)
  /-- MFFS (R135). Find the lowest set bit of a mask triple. -/
  | mffs (d : BitVec 6) (a : BitVec 6)
  /-- MAND (R135). AND of two mask triples. -/
  | mand (d : BitVec 6) (a : BitVec 6) (b : BitVec 6)
  /-- MOR (R135). OR of two mask triples. -/
  | mor (d : BitVec 6) (a : BitVec 6) (b : BitVec 6)
  /-- MXOR (R135). XOR of two mask triples. -/
  | mxor (d : BitVec 6) (a : BitVec 6) (b : BitVec 6)
  /-- MANDN (R135). a AND NOT b of two mask triples. -/
  | mandn (d : BitVec 6) (a : BitVec 6) (b : BitVec 6)
  /-- BR_Z (R159). Branch if a scalar is zero. -/
  | brZ (s : BitVec 6) (o : BitVec 16)
  /-- BR_NZ (R159). Branch if a scalar is non-zero. -/
  | brNz (s : BitVec 6) (o : BitVec 16)
  /-- BR_LTZ (R159). Branch if a scalar is negative. -/
  | brLtz (s : BitVec 6) (o : BitVec 16)
  /-- BR_GEZ (R159). Branch if a scalar is non-negative. -/
  | brGez (s : BitVec 6) (o : BitVec 16)
  /-- BR_GTZ (R159). Branch if a scalar is positive. -/
  | brGtz (s : BitVec 6) (o : BitVec 16)
  /-- BR_LEZ (R159). Branch if a scalar is zero or negative. -/
  | brLez (s : BitVec 6) (o : BitVec 16)
  /-- BRM_ANY (R159). Branch if any active lane has its mask bit set. -/
  | brmAny (s : BitVec 6) (o : BitVec 16)
  /-- BRM_NONE (R159). Branch if no active lane has its mask bit set. -/
  | brmNone (s : BitVec 6) (o : BitVec 16)
  /-- BRM_ALL (R159). Branch if every active lane has its mask bit set. -/
  | brmAll (s : BitVec 6) (o : BitVec 16)
  /-- JMP (R159). Unconditional relative jump. -/
  | jmp (o : BitVec 26)
  /-- CALL (R159). Relative call writing the link into s12:s13. -/
  | call (o : BitVec 26)
  /-- DIVB (R161). Split the issuing path by a mask into two halves under a new join frame. -/
  | divb (m : BitVec 6) (t : BitVec 10) (j : BitVec 10)
  /-- JOIN (R162). Park or merge a half at its join frame. -/
  | join
  /-- JMPR (R159). Jump to the address in a scalar pair. -/
  | jmpr (p : BitVec 6)
  /-- CALLR (R159). Call the address in a scalar pair. -/
  | callr (p : BitVec 6)
  /-- RET (R159). Return to the address in a scalar pair. -/
  | ret (p : BitVec 6)
  /-- NOP (R164). No operation. -/
  | nop
  /-- TRAP (R164). Raise BREAK with a code. -/
  | trap (c : BitVec 12)
  /-- ERET (R167). Return from a trap handler and resume the interrupted unit. -/
  | eret
  /-- LD (R181). Per-lane global load with optional acquire. -/
  | ld (v : BitVec 7) (p : BitVec 6) (x : BitVec 7) (c : BitVec 2) (z : BitVec 3) (q : BitVec 1)
  /-- ST (R181). Per-lane global store with optional release. -/
  | st (v : BitVec 7) (p : BitVec 6) (x : BitVec 7) (c : BitVec 2) (z : BitVec 3) (q : BitVec 1)
  /-- LDX (R184). Per-lane load from a local buffer. -/
  | ldx (v : BitVec 7) (b : BitVec 6) (x : BitVec 7) (c : BitVec 2) (z : BitVec 3)
  /-- STX (R184). Per-lane store into the XBUF window. -/
  | stx (v : BitVec 7) (b : BitVec 6) (x : BitVec 7) (c : BitVec 2) (z : BitVec 3)
  /-- LDS (R186). Scalar load of a word or pair. -/
  | lds (d : BitVec 6) (p : BitVec 6) (q : BitVec 1) (z : BitVec 1) (i : BitVec 11)
  /-- STS (R186). Scalar store of a word or pair. -/
  | sts (d : BitVec 6) (p : BitVec 6) (q : BitVec 1) (z : BitVec 1) (i : BitVec 11)
  /-- TEXL (R192). Read one clamped texel per lane. -/
  | texl (d : BitVec 7) (c : BitVec 7) (s : BitVec 6)
  /-- TEXB (R193). Bilinear filtered texture sample per lane. -/
  | texb (d : BitVec 7) (c : BitVec 7) (s : BitVec 6)
  /-- FENCE (R187). Full fence at the hinted scope. -/
  | fence
  /-- FENCE_REL (R187). Release fence at the hinted scope. -/
  | fenceRel
  /-- FENCE_ACQ (R187). Acquire fence at the hinted scope. -/
  | fenceAcq
  /-- XFENCE (R196). Wait for earlier STX and invalidate overlapping operand-cache entries. -/
  | xfence
  /-- CINV (R195). Invalidate L1 lines overlapping a range. -/
  | cinv (p : BitVec 6) (l : BitVec 6)
  /-- CPREF (R195). Prefetch a range into a cache level. -/
  | cpref (p : BitVec 6) (l : BitVec 6) (v : BitVec 2)
  /-- SPILL (R197). Store vector registers compressed into 512-byte slots. -/
  | spill (v : BitVec 7) (p : BitVec 6) (n : BitVec 3)
  /-- FILL (R198). Load and decode spilled vector registers into active lanes. -/
  | fill (v : BitVec 7) (p : BitVec 6) (n : BitVec 3)
  /-- ATOM_ADD (R332). Atomic add. -/
  | atomAdd (v : BitVec 7) (p : BitVec 6) (x : BitVec 7) (r : BitVec 1)
  /-- ATOM_SUB (R332). Atomic subtract. -/
  | atomSub (v : BitVec 7) (p : BitVec 6) (x : BitVec 7) (r : BitVec 1)
  /-- ATOM_AND (R332). Atomic AND. -/
  | atomAnd (v : BitVec 7) (p : BitVec 6) (x : BitVec 7) (r : BitVec 1)
  /-- ATOM_OR (R332). Atomic OR. -/
  | atomOr (v : BitVec 7) (p : BitVec 6) (x : BitVec 7) (r : BitVec 1)
  /-- ATOM_XOR (R332). Atomic XOR. -/
  | atomXor (v : BitVec 7) (p : BitVec 6) (x : BitVec 7) (r : BitVec 1)
  /-- ATOM_MIN (R332). Atomic signed minimum. -/
  | atomMin (v : BitVec 7) (p : BitVec 6) (x : BitVec 7) (r : BitVec 1)
  /-- ATOM_MAX (R332). Atomic signed maximum. -/
  | atomMax (v : BitVec 7) (p : BitVec 6) (x : BitVec 7) (r : BitVec 1)
  /-- ATOM_MINU (R332). Atomic unsigned minimum. -/
  | atomMinu (v : BitVec 7) (p : BitVec 6) (x : BitVec 7) (r : BitVec 1)
  /-- ATOM_MAXU (R332). Atomic unsigned maximum. -/
  | atomMaxu (v : BitVec 7) (p : BitVec 6) (x : BitVec 7) (r : BitVec 1)
  /-- ATOM_XCHG (R332). Atomic exchange. -/
  | atomXchg (v : BitVec 7) (p : BitVec 6) (x : BitVec 7) (r : BitVec 1)
  /-- ATOM_CAS (R332). Atomic compare-and-swap. -/
  | atomCas (v : BitVec 7) (p : BitVec 6) (x : BitVec 7) (r : BitVec 1)
  /-- ATOM_INCB (R332). Atomic bounded increment. -/
  | atomIncb (v : BitVec 7) (p : BitVec 6) (x : BitVec 7) (r : BitVec 1)
  /-- ATOM_INCW (R332). Atomic wrapping increment. -/
  | atomIncw (v : BitVec 7) (p : BitVec 6) (x : BitVec 7) (r : BitVec 1)
  /-- ATOM_DECZ (R332). Atomic decrement that stops at zero. -/
  | atomDecz (v : BitVec 7) (p : BitVec 6) (x : BitVec 7) (r : BitVec 1)
  /-- ATOM_FADDL (R332). Atomic fp32 add refused beyond a limit. -/
  | atomFaddl (v : BitVec 7) (p : BitVec 6) (x : BitVec 7) (r : BitVec 1)
  /-- ATOM_FADD (R333). Atomic fp32 add in lane order. -/
  | atomFadd (v : BitVec 7) (p : BitVec 6) (x : BitVec 7) (r : BitVec 1)
  /-- ATOM_FADDR (R333). Atomic fp32 add in a hardware-chosen order. -/
  | atomFaddr (v : BitVec 7) (p : BitVec 6) (x : BitVec 7) (r : BitVec 1)
  /-- ATOM_FADDD (R337). Deterministic fp32 contribution held for its barrier window. -/
  | atomFaddd (v : BitVec 7) (p : BitVec 6) (x : BitVec 7)
  /-- ATOM_ADD64 (R332). Atomic 64-bit add. -/
  | atomAdd64 (v : BitVec 7) (p : BitVec 6) (x : BitVec 7) (r : BitVec 1)
  /-- ATOM_MAX64 (R332). Atomic signed 64-bit maximum. -/
  | atomMax64 (v : BitVec 7) (p : BitVec 6) (x : BitVec 7) (r : BitVec 1)
  /-- MMA (R214). Queue a block-scaled matrix multiply-accumulate into a tile. -/
  | mma (t : BitVec 3) (a : BitVec 3) (b : BitVec 3) (g : BitVec 6) (h : BitVec 6) (z : BitVec 1)
  /-- MMABP (R214). Queue a matrix multiply with a bit-plane B operand. -/
  | mmabp (t : BitVec 3) (p : BitVec 3) (g : BitVec 6) (h : BitVec 6) (z : BitVec 1)
  /-- MZERO (R215). Queue zeroing of a tile. -/
  | mzero (t : BitVec 3)
  /-- MRD (R216). Queue a read of an 8-column slice of a tile into vector registers. -/
  | mrd (t : BitVec 3) (g : BitVec 6) (j : BitVec 6)
  /-- MWR (R216). Queue a write of vector registers into an 8-column slice of a tile. -/
  | mwr (t : BitVec 3) (g : BitVec 6) (j : BitVec 6)
  /-- MCVST (R217). Convert a tile and store its occupied rows. -/
  | mcvst (t : BitVec 3) (a : BitVec 3) (b : BitVec 3) (g : BitVec 6) (z : BitVec 1)
  /-- LCP (R224). Queue per-lane copies as one LC operation. -/
  | lcp (d : BitVec 6) (s : BitVec 6) (i : BitVec 7) (z : BitVec 2)
  /-- TCOPY (R225). Queue a shaped bulk copy between two shape records. -/
  | tcopy (g : BitVec 6)
  /-- TCOPYX (R225). Queue a shaped bulk copy with transpose, matrix blocking and scale placement. -/
  | tcopyx (g : BitVec 6)
  /-- SHAPEW (R228). Write a shape record into a slot under a new generation. -/
  | shapew (d : BitVec 6) (a : BitVec 6) (o : BitVec 6)
  /-- SHAPEREL (R228). Release a current shape handle. -/
  | shaperel (a : BitVec 6)
  /-- WAITC (R229). Wait until an outstanding counter is at most k. -/
  | waitc (c : BitVec 2) (k : BitVec 8)
  /-- CNTR (R229). Test an outstanding counter without waiting. -/
  | cntr (d : BitVec 6) (c : BitVec 2) (k : BitVec 8)
  /-- VFPUSH (R348). Push a vector register into the vertical FIFO, waiting for room. -/
  | vfpush (v : BitVec 7)
  /-- VFPOP (R348). Pop the oldest vertical FIFO entry, waiting for data. -/
  | vfpop (v : BitVec 7)
  /-- BARA (R235). Arrive at a leaf barrier for each counted lane. -/
  | bara (d : BitVec 6) (b : BitVec 6)
  /-- BARA_ENR (R235). Enrol each counted lane in a leaf barrier. -/
  | baraEnr (d : BitVec 6) (b : BitVec 6)
  /-- BARW (R235). Wait until a leaf's phase differs from a given phase. -/
  | barw (p : BitVec 6) (b : BitVec 6)
  /-- BARAW (R235). Arrive at a leaf and wait for that phase to end. -/
  | baraw (b : BitVec 6)
  /-- BARX (R235). Add transaction bytes to a leaf. -/
  | barx (n : BitVec 6) (b : BitVec 6)
  /-- BARINIT (R235). Set a leaf's expected count and link. -/
  | barinit (n : BitVec 6) (b : BitVec 6)
  /-- SPAWN (R253). Create one task per counted lane with a common entry and scope. -/
  | spawn (e : BitVec 6) (a : BitVec 7) (c : BitVec 6)
  /-- SPAWNV (R253). Create one task per counted lane with per-lane scope and placement. -/
  | spawnv (e : BitVec 6) (a : BitVec 7)
  /-- SPAWNR (R253). Create tasks from task records in memory. -/
  | spawnr (r : BitVec 6) (n : BitVec 6) (c : BitVec 6)
  /-- CLAIM (R250). Claim more vector registers or tiles from the pool, waiting if needed. -/
  | claim (d : BitVec 6) (n : BitVec 6) (k : BitVec 1)
  /-- GIVE (R250). Return vector registers or tiles to the pool. -/
  | give (d : BitVec 6) (n : BitVec 6) (k : BitVec 1)
  /-- EXIT (R255). End the tasks of the active occupied lanes. -/
  | exit
  /-- SCOPEN (R265). Open a cancel scope from a record. -/
  | scopen (d : BitVec 6) (a : BitVec 6) (p : BitVec 6)
  /-- SCOPCL (R266). Seal a scope. -/
  | scopcl (s : BitVec 6)
  /-- CANCEL (R266). Cancel a scope and its descendants. -/
  | cancel (s : BitVec 6)
  /-- SCPST (R267). Read a scope's state word and live count. -/
  | scpst (d : BitVec 6) (s : BitVec 6)
  /-- SCPST_W (R267). Wait until a scope is closed, quiesced or not live. -/
  | scpstW (d : BitVec 6) (s : BitVec 6)
  /-- PBEGIN (R273). Open a path with its paint parameters. -/
  | pbegin (g : BitVec 6)
  /-- PSEGL (R275). Deposit a line segment in every view. -/
  | psegl (a : BitVec 6)
  /-- PSEGQ (R275). Flatten and deposit a quadratic segment in every view. -/
  | psegq (a : BitVec 6)
  /-- PVIEW (R274). Load a view table for later paths. -/
  | pview (n : BitVec 6) (a : BitVec 6)
  /-- PCLIP (R291). Scan a tile into a new clip plane. -/
  | pclip (t : BitVec 6)
  /-- PUNCLIP (R291). Pop a clip plane at a layer. -/
  | punclip (t : BitVec 6) (l : BitVec 6)
  /-- PEND (R275). Close the path and set state closed. -/
  | pend
  /-- PSCAN (R283). Scan a tile into paint tasks and take a commit entry. -/
  | pscan (t : BitVec 6)
  /-- PCELL (R292). Read accumulated cell sums of a tile row into lanes. -/
  | pcell (d : BitVec 7) (t : BitVec 6) (r : BitVec 6)
  /-- PBLEND (R289). Hand each paint lane's colour to the commit unit. -/
  | pblend (c : BitVec 7)
  /-- MSEND (R398). Send a tagged fabric message. -/
  | msend (g : BitVec 6)
  /-- MARM (R403). Arm a launch on a message tag. -/
  | marm (g : BitVec 6) (d : BitVec 6)
  /-- MDISARM (R403). Disarm a tag's launch. -/
  | mdisarm (t : BitVec 6) (d : BitVec 6)
  /-- RPUT (R399). Remote write into a region of another endpoint. -/
  | rput (g : BitVec 6)
  /-- RGET (R399). Remote read from a region of another endpoint. -/
  | rget (g : BitVec 6)
  /-- COLL_ALL_REDUCE (R408). All-reduce collective over a communicator. -/
  | collAllReduce (g : BitVec 6)
  /-- COLL_ALL_GATHER (R408). All-gather collective over a communicator. -/
  | collAllGather (g : BitVec 6)
  /-- COLL_REDUCE_SCATTER (R408). Reduce-scatter collective over a communicator. -/
  | collReduceScatter (g : BitVec 6)
  /-- COLL_BROADCAST (R408). Broadcast collective from a root rank. -/
  | collBroadcast (g : BitVec 6)
  /-- GETS (R113). Read a special register into scalars. -/
  | gets (d : BitVec 6) (i : BitVec 12)
  /-- SETS (R113). Write a special register from scalars. -/
  | sets (a : BitVec 6) (i : BitVec 12)
  /-- TLBINV (R379). Drop translation entries of one page in the partition. -/
  | tlbinv (p : BitVec 6)
  /-- TLBINV_ALL (R379). Drop every translation entry of the partition. -/
  | tlbinvAll
  /-- CTXSV (R382). Save the ply context to its save area. -/
  | ctxsv
  /-- CTXRS (R382). Restore the ply context from its save area and resume. -/
  | ctxrs
  /-- SMC_ASSIGN_CLUSTER (R383). Ask Rook to assign a cluster to a partition. -/
  | smcAssignCluster (d : BitVec 6) (a : BitVec 6)
  /-- SMC_RELEASE_CLUSTER (R383). Ask Rook to release a cluster. -/
  | smcReleaseCluster (d : BitVec 6) (a : BitVec 6)
  /-- SMC_RESET_PARTITION (R383). Ask Rook to reset a partition. -/
  | smcResetPartition (d : BitVec 6) (a : BitVec 6)
  /-- SMC_SET_ROOT (R383). Ask Rook to set a partition's page-table root. -/
  | smcSetRoot (d : BitVec 6) (a : BitVec 6)
  /-- SMC_SET_REGULATOR (R383). Ask Rook to set a cluster's regulator. -/
  | smcSetRegulator (d : BitVec 6) (a : BitVec 6)
  /-- SMC_SET_SCOPE_SHARE (R383). Ask Rook to set a partition's scope table share. -/
  | smcSetScopeShare (d : BitVec 6) (a : BitVec 6)
  /-- SMC_ATTEST (R388). Ask Rook for a signed attestation report. -/
  | smcAttest (d : BitVec 6) (a : BitVec 6)
  /-- SMC_RETIRE_UNIT (R389). Ask Rook to retire a core, cluster or vault. -/
  | smcRetireUnit (d : BitVec 6) (a : BitVec 6)
  /-- PWRQ_GATE (R350). Request power gating of an upper die. -/
  | pwrqGate (d : BitVec 6) (a : BitVec 6)
  /-- PWRQ_POWER (R350). Request power for an upper die, or withdraw a pending gate. -/
  | pwrqPower (d : BitVec 6) (a : BitVec 6)
  /-- END (R86). Trailer ending a run and naming awaited results. -/
  | endRun (w : BitVec 7) (x : BitVec 7) (y : BitVec 7)
  /-- YIELD (R105). Trailer resetting the yield counter, a kill point and pre-emption point. -/
  | yield (d : BitVec 8) (l : BitVec 7)
  /-- PATH_CHOICE (R246). A pipe chooses an eligible path to start a run. -/
  | pathChoice (core pipe : Nat)
  /-- LONG_LATENCY_RESULT (R103). A pending long-latency result is written and its waiters may proceed. -/
  | longLatencyResult (ply seq : Nat)
  /-- PIPE_WAIT_END (R103). An instruction waiting in the pipe for queue room finds room and issues. -/
  | pipeWaitEnd (ply : Nat)
  /-- WATCHDOG_DEADLINE (R106). The yield allowance is exhausted and the ply's tasks end with DEADLINE. -/
  | watchdogDeadline (ply : Nat)
  /-- BIN_TIMER (R243). A bin's oldest task exceeds %binto and the bin reaches its threshold. -/
  | binTimer (core : Nat)
  /-- PLY_FORMATION (R244). The core forms a ply from the first eligible bin at its threshold. -/
  | plyFormation (core : Nat)
  /-- GANG_FORMATION (R245). A gang forms on one core once every member's resources are free. -/
  | gangFormation (core launch : Nat)
  /-- TASK_ARRIVAL (R242). A task arrives at a core's task store and joins a bin or the overflow list. -/
  | taskArrival (index : Nat)
  /-- PLY_RESTORE (R346). A pre-empted ply is restored on an admitting core of its cluster. -/
  | plyRestore (core index : Nat)
  /-- CLAIM_GRANT (R250). A waiting claim is granted when the pool has room. -/
  | claimGrant (ply : Nat)
  /-- CLAIM_FAILURE (R251). The core fails the youngest waiting claim when no ply can proceed. -/
  | claimFailure (core : Nat)
  /-- MTX_ENGINE_EXECUTE (R207). The matrix engine takes the next queued MTX instruction and executes it. -/
  | mtxEngineExecute (core : Nat)
  /-- COPY_ENGINE_OPERATION (R226). The copy engine performs a queued copy operation. -/
  | copyEngineOperation (core seq : Nat)
  /-- RETIREMENT (R220). A complete operation retires in issue order and its counter falls. -/
  | retirement (ply cls : Nat)
  /-- WAITC_RETURN (R229). A waiting WAITC finds its counter at most k and returns. -/
  | waitcReturn (ply : Nat)
  /-- BARRIER_ARRIVAL (R310). Arrivals count at a leaf after their release wait and accepted FADDDs. -/
  | barrierArrival (core seq : Nat)
  /-- ROOT_REPORT (R308). A linked leaf's completion reaches its root, which flips when all report. -/
  | rootReport (core leaf : Nat)
  /-- ROOT_FLIP_ARRIVAL (R308). A root flip reaches a linked leaf, which advances and releases waiters. -/
  | rootFlipArrival (core leaf : Nat)
  /-- RELEASE_WAVE (R311). The next wave of released paths becomes eligible after the gap. -/
  | releaseWave (cluster : Nat)
  /-- VFIFO_PUSH_RESUME (R348). A waiting VFPUSH finds a free entry and appends. -/
  | vfifoPushResume (ply : Nat)
  /-- VFIFO_POP_RESUME (R348). A waiting VFPOP finds an entry and pops it. -/
  | vfifoPopResume (ply : Nat)
  /-- SCPST_W_RETURN (R267). A waiting SCPST.W returns once its scope is closed, quiesced or not live. -/
  | scpstWReturn (ply : Nat)
  /-- CANCEL_BROADCAST (R259). A cancel or fault broadcast reaches a core or Knight unit. -/
  | cancelBroadcast (core index : Nat)
  /-- SCOPE_DRAINED (R258). A scope drains and becomes CLOSED or QUIESCED. -/
  | scopeDrained (tenant scope : Nat)
  /-- PATH_UNIT_SCAN (R283). The path unit scans and clears a TAB and forms paint tasks. -/
  | pathUnitScan (core : Nat)
  /-- TILER_DEPOSIT (R317). A piece carried by the tiler is deposited at its owner core. -/
  | tilerDeposit (index : Nat)
  /-- COMMIT_PERFORM (R289). The commit unit performs a commit after its wait set retires. -/
  | commitPerform (core index : Nat)
  /-- STORE_AT_HOME (R326). A store reaches its home and receives its completion time. -/
  | storeAtHome (ply seq : Nat)
  /-- COMPLETION_TIME (R326). At the completion time the home merges the store and acknowledges it. -/
  | completionTime (store : Nat)
  /-- CLUSTER_COMPLETION_TIME (R303). A store pending in the L2 becomes visible at cluster scope. -/
  | clusterCompletionTime (store : Nat)
  /-- ATOM_PERFORM (R333). An atomic request is performed indivisibly at its unit. -/
  | atomPerform (ply seq : Nat)
  /-- FADDD_ACCEPT (R338). A FADDD contribution is accepted into the home's table. -/
  | fadddAccept (ply seq : Nat)
  /-- WINDOW_CLOSE (R339). A FADDD window closes and each element's result is written. -/
  | windowClose (core leaf phase : Nat)
  /-- SENSOR_READING (R342). A vault sensor is read every 32,000 ns and updates temperature. -/
  | sensorReading (vault : Nat) (temp : BitVec 16)
  /-- KNIGHT_PROBE (R314). Knight probes a victim core and steals tasks. -/
  | knightProbe (core : Nat)
  /-- QUIESCE_POINT (R320). A cluster reaches a quiesce point and changes step or voltage. -/
  | quiescePoint (cluster : Nat)
  /-- TAIL_WRITE_REPORT (R360). A write to a tail or qdead line is reported to the hub. -/
  | tailWriteReport (tenant queue : Nat)
  /-- LAUNCH_FIRE (R364). The hub fires the next launch record of an enabled queue. -/
  | launchFire (tenant queue : Nat)
  /-- CLOCK_MARK (R371). Clock marks higher-class plies for pre-emption to make room. -/
  | clockMark (core launch : Nat)
  /-- QUEUE_DESCRIPTOR_WRITE (R361). Service firmware rewrites a launch queue descriptor, resuming it. -/
  | queueDescriptorWrite (tenant queue : Nat) (bytes : List Byte)
  /-- CCR_WRITE (R322). A write to a cluster control register. -/
  | ccrWrite (cluster : Nat) (value : Word)
  /-- PARTITION_WRITE (R374). Rook moves a cluster into or out of a partition. -/
  | partitionWrite (value : Word)
  /-- REGSEL_WRITE (R374). Rook changes a cluster's regulator. -/
  | regselWrite (value : Word)
  /-- CONFIGURATION_WRITE (R381). A store to a configuration field with no row of its own, or a load of one. -/
  | configurationWrite (offset : Nat) (access : ConfigAccess)
  /-- LOAD_REQUEST (R66). The loader places, relocates and publishes an object or rejects it. -/
  | loadRequest (tenant : Nat) (object : ObjectFile) (places : List Placement) (tables areas : List Nat)
  /-- UNLOAD_REQUEST (R70). The loader removes a loaded image or refuses with BUSY. -/
  | unloadRequest (tenant base : Nat)
  /-- PACKAGE_POWER_ON (R386). Package power starts Rook, ptime and the firmware chain. -/
  | packagePowerOn (slotA slotB : Option BootImage) (rollback : Nat)
  /-- UNIT_RETIREMENT (R389). Rook retires a unit whose error counter reaches its threshold. -/
  | unitRetirement (kind number : Nat)
  /-- DIE_GATED (R350). Every ply of a die being gated is saved and the die is gated. -/
  | dieGated (tower : Nat)
  /-- POWER_RETURN (R350). Power returns to a gated die and its saved plies are restored. -/
  | powerReturn (tower : Nat)
  /-- MESSAGE_ARRIVAL (R404). A message lands in a slot and fires its armed launch, or is discarded. -/
  | messageArrival (message : Message)
  /-- REMOTE_PUT_ARRIVAL (R399). An RPUT request is performed at the target. -/
  | remotePutArrival (tenant : Nat) (source : Sender) (region offset : Nat) (data : List Byte)
  /-- REMOTE_GET_ARRIVAL (R399). An RGET request is served at the target. -/
  | remoteGetArrival (tenant : Nat) (source : Sender) (region offset length : Nat)
  /-- FABRIC_RETIRE (R399). A fabric operation completes at system scope and retires. -/
  | fabricRetire (op : Nat) (answer : FabricAnswer)
  /-- TIMEOUT (R401). A fabric operation not completed within fabto fails. -/
  | timeout (op : Nat)
  /-- COLL_INSTANCE_COMPLETE (R408). A collective instance completes and writes every destination. -/
  | collInstanceComplete (op : Nat) (members : List Contribution)
  /-- COLL_TIMEOUT (R408). A collective instance fails when a member misses colto. -/
  | collTimeout (op : LateInstance)
  /-- SLACK_CONTROL (R409). After 16 instances slack control may change the clock step; it brings what the hub has measured
over them, the sum of the member's slacks and the time from the first completion to the last. -/
  | slackControl (tenant slack interval : Nat)
  /-- TLBINV_DROP_COMPLETE (R379). The TLB drop completes and the waiting path becomes eligible. -/
  | tlbinvDropComplete (ply : Nat)
  /-- ILLEGAL_WORD (R93). A word with an unallocated major, function, sub, op or hint kind issues and raises ILLEGAL. -/
  | illegalWord (sub pos : Nat) (word other : Word)
  /-- FETCH_FAULT (R72). An instruction fetch from an unmapped or non-executable page raises XLATE or PROT. -/
  | fetchFault (code sub : Nat) (address : DWord)
  /-- PATH_UNIT_DEPOSIT (R279). The path unit takes a queued PSEGL, PSEGQ or PEND of a ply and makes its deposits into the TAB. -/
  | pathUnitDeposit (core : Nat)
  /-- UNCORRECTABLE_ERROR (R351). A granule of DRAM, a cache, a pending table, a root or a FIFO develops an uncorrectable error. -/
  | uncorrectableError (site : ErrorSite)
  /-- VAULT_CACHE_FLUSH (R328). Service firmware flushes a vault cache, writing its dirty lines to DRAM and charging the writebacks. -/
  | vaultCacheFlush (vault : Nat)
  /-- RECOVERY_IMAGE (R386). Rook receives and checks a signed recovery image on its one Ultra Ethernet port when neither boot slot verifies. -/
  | recoveryImage (image : BootImage)
  deriving DecidableEq, Repr

end Sys2Proof
end

