-- ==== Sys2Proof/Machine/State.lean ====
section
/-!
DEFINITION. The state of one DX8 package: every register, memory, queue and table the spec names, as plain data.
The ply that issues stands in State.ply; the other resident plies stand in State.plies. Units that exist in hundreds
(cores, clusters, vaults, FIFO pairs) stand in tables that list only those that differ from their reset record.
-/
namespace Sys2Proof.Machine

/-- A table that lists the units, by number, that differ from the unit's reset record. -/
abbrev Table (α : Type) := List (Nat × α)

/-- A sparse memory: strictly rising addresses, no byte equal to what an unlisted address reads as (zero, log 5). -/
abbrev Memory := List Host.Cell

/-- What a path waits for in the middle of its run (spec/04 R101, spec/09 R208, spec/11 R253, spec/19 R379). -/
inductive Wait where
  | none
  /-- BARW: until the leaf's phase differs (R235); its memory scope as fixed at issue (R310). -/
  | barw (core leaf : Nat) (phase : BitVec 16) (scope : Nat)
  /-- BARAW whose arrivals counted in the phase after this one, which is complete but not over (R234, R308). -/
  | barawNext (core leaf : Nat) (phase : BitVec 16) (scope : Nat)
  /-- BARAW whose arrivals, issue number seq, are not yet added (R235, R310). -/
  | baraw (core leaf seq : Nat)
  /-- WAITC (R229). -/
  | waitc (cls k : Nat)
  /-- CLAIM of n registers, or of n tiles (R250). -/
  | claim (d : BitVec 6) (tiles : Bool) (n : Nat)
  | vfpush (v : BitVec 7)
  | vfpop (v : BitVec 7)
  /-- SCPST.W (R267). -/
  | scpst (d : BitVec 6) (scope : BitVec 24)
  /-- MMA or MMABP with a global operand, until its last page is translated (R208). -/
  | engine (seq : Nat)
  /-- TLBINV, until the drop completes: kind and page address (R379). -/
  | tlbinv (all : Bool) (address : DWord)
  /-- SPAWNR, until its records have been read (R253). -/
  | spawnr (r n c : BitVec 6)
  /-- Released from a barrier of this name: its memory scope, the release and its wave in it (R310, R311). -/
  | released (core leaf scope release wave : Nat)
  deriving DecidableEq, Repr

/-- What a decided control transfer does when its trailer issues (spec/07 R158, R161, R162). -/
inductive Transfer where
  | none
  | goto (target : DWord)
  /-- DIVB: the taken lanes, their target, the join address (R161). -/
  | split (taken : Mask) (target join : DWord)
  | join
  deriving DecidableEq, Repr

/-- One path slot (R94, R98, R101). A slot with empty membership is free. -/
structure Path where
  pc        : DWord
  member    : Mask
  active    : Mask
  /-- Index of the join frame, or none (R160). -/
  frame     : Option Nat
  /-- Issue numbers of the results that its last trailer awaits (R86, R104). -/
  awaited   : List Nat
  wait      : Wait
  /-- Words of the unit that waits, and the class that its HPRIO asks for. -/
  waitWords : Nat
  waitPrio  : Option (BitVec 2)
  /-- The class that HPRIO gives its next run (R170). -/
  hprio     : Option (BitVec 2)
  /-- The class of its open run. -/
  runClass  : Option (BitVec 2)
  transfer  : Transfer
  /-- ptime since which it is eligible without issuing (R246). -/
  since     : Nat
  deriving DecidableEq, Repr

/-- A divergence record as pushed: the base of the save area at the push and its 48 bytes as twelve words (R102). -/
structure DivRecord where
  base  : DWord
  words : List Word
  deriving DecidableEq, Repr

/-- A join frame (R160). -/
structure Frame where
  index  : Nat
  join   : DWord
  lanes  : Mask
  parked : Bool
  parkedMember : Mask
  parkedActive : Mask
  outer  : Option Nat
  deriving DecidableEq, Repr

/-- An entry header (R240). -/
structure Header where
  regs  : Nat
  tiles : Nat
  quad  : Bool
  mma   : Bool
  yield : Nat
  xbuf  : Nat
  deriving DecidableEq, Repr

/-- A commit tag (R285): the core whose commit unit holds its entry, its entry, its pixel 16 py + px, and the cov18 delivered to
its lane. -/
structure Tag where
  core  : Nat
  entry : Nat
  pixel : Nat
  cov   : Nat
  deriving DecidableEq, Repr

/-- A task record (R239) with the class, deadline and arrival that the task store keeps, whether it may be stolen
(R314), the stores it follows (R254), and for a pixel of a path its commit tag and quad place (R284, R285). -/
structure Task where
  entry    : DWord
  args     : Vector Word 4
  scope    : BitVec 24
  demand   : BitVec 16
  heat     : BitVec 2
  cls      : Nat
  deadline : DWord
  arrival  : Nat
  fixed    : Bool
  tenant   : Nat
  /-- The spawning ply and the issue number of its SPAWN (R254): the task forms when no older store of it is pending. -/
  after    : Option (Nat × Nat)
  /-- The commit tag of a paint task (R285); a helper pixel has none. -/
  commit   : Option Tag
  /-- A paint task's or a helper's unit of four (R284): the units of one quad share a number. -/
  quad     : Option Nat
  helper   : Bool
  /-- Its share of the charge at which Knight accepted it for the core (R345). -/
  held     : Option Nat
  deriving DecidableEq, Repr

/-- What the core keeps of one lane of a ply: its task's scope, the leaf it is enrolled in, its arrivals by leaf (core,
leaf, phase, number), its commit tag (R108, R234, R285). -/
structure LaneInfo where
  scope    : BitVec 24
  leaf     : Option (Nat × Nat)
  arrivals : List (Nat × Nat × BitVec 16 × Nat)
  commit   : Option Tag
  /-- Demand and heat class of its task (R239, R345); zero in a launched ply. -/
  demand   : Nat
  heat     : Nat
  deriving DecidableEq, Repr

/-- One lane's part of a memory access: the observer (lanes 0 to 95, 96 the scalar unit, 97 SPILL and FILL, 98 an
engine), its virtual and physical address. A local access has its core-absolute address in pa. -/
structure LaneAddr where
  lane : Nat
  va   : DWord
  pa   : Nat
  deriving DecidableEq, Repr

/-- One lane's store: where and what. -/
structure LaneStore where
  lane : Nat
  va   : DWord
  pa   : Nat
  data : List Byte
  deriving DecidableEq, Repr

/-- The three local spaces (R171). -/
inductive Space where
  | xbuf | wbuf | sbuf
  deriving DecidableEq, Repr

/-- How a texture instruction turns the texels it reads into registers (R192, R193). -/
inductive TexKind where
  | nearest
  | bilinear
  deriving DecidableEq, Repr

/-- One lane of a texture read: the places of its texels (one for TEXL, four for TEXB) and the two fractions in 1/256. -/
structure TexLane where
  lane  : Nat
  at'   : List LaneAddr
  fx    : Nat
  fy    : Nat
  deriving DecidableEq, Repr

/-- One lane's operands of an ATOM (R332). -/
structure AtomLane where
  lane : Nat
  va   : DWord
  pa   : Nat
  a    : Word
  b    : Word
  /-- The lane ended at a kill point after the issue: its return is discarded (R336). -/
  discard : Bool
  deriving DecidableEq, Repr

/-- An entry of a ply's load-store queue (R189). -/
inductive MemKind where
  /-- LD: destination, size code (R182), cache policy. -/
  | load (v : BitVec 7) (size : Nat) (lanes : List LaneAddr) (policy : Nat)
  /-- LDX: destination, size code, space of each address. -/
  | loadX (v : BitVec 7) (size : Nat) (lanes : List (Space × LaneAddr))
  /-- A global store: ST, STS, SPILL, rows of MCVST; the allocation policy (R178). -/
  | store (lanes : List LaneStore) (policy : Nat)
  /-- STX, or XBUF rows of MCVST (byMcvst). -/
  | storeX (lanes : List LaneStore) (byMcvst : Bool)
  /-- LDS of one or two words. -/
  | lds (d : BitVec 6) (wide : Bool) (src : LaneAddr) (policy : Nat)
  /-- TEXL, TEXB: destination, format, channels, whether local. -/
  | tex (kind : TexKind) (d : BitVec 7) (fmt chan : Nat) (loc : Bool) (lanes : List TexLane) (policy : Nat)
  /-- FILL: first register, its slots, the active lanes at issue, the bytes that it took from the slots, the slot whose bytes
  failed (R351). -/
  | fill (v : Nat) (slots : List LaneAddr) (active : Mask) (taken : List (List Byte)) (bad : Option LaneAddr)
  /-- ATOM: op, ret, data register, scope, lanes, cache policy. -/
  | atom (op : Nat) (ret : Bool) (v : BitVec 7) (scope : Nat) (lanes : List AtomLane) (policy : Nat)
  /-- ATOM FADDD: each lane with its window (core, leaf, phase). -/
  | faddd (lanes : List (AtomLane × Nat × Nat × BitVec 16))
  /-- FENCE, or the fence of an ordered access (R187, R188). -/
  | fence (rel acq : Bool) (scope : Nat)
  /-- XFENCE (R196). -/
  | xfence
  deriving DecidableEq, Repr

/-- A queued memory access: issue number, issuing slot, address of its unit. -/
structure MemOp where
  seq  : Nat
  slot : Nat
  pc   : DWord
  kind : MemKind
  deriving DecidableEq, Repr

/-- A scope, shape, launch or system request of a ply, or a slow scalar read, that a unit or the hub answers (R103, R264). -/
inductive HubKind where
  | ptime (d : BitVec 6)
  | shapew (d : BitVec 6) (shape : Nat) (record : Nat)
  | shaperel (handle : Word)
  /-- SCOPEN: status register, record address, parent; nowhere: the parent operand names no scope. -/
  | scopen (d : BitVec 6) (address : DWord) (parent : BitVec 24) (nowhere : Bool)
  | scopcl (scope : BitVec 24)
  | cancel (scope : BitVec 24)
  | scpst (d : BitVec 6) (scope : BitVec 24)
  | spawn (tasks : List (Nat × Task))
  | marm (d : BitVec 6) (group : List Word)
  | mdisarm (d : BitVec 6) (tag : DWord)
  /-- SMC: the address of its request block. -/
  | smc (d : BitVec 6) (address : DWord)
  /-- PWRQ: gate or power, tower; a held gate request waits for its die (R350). -/
  | pwrq (d : BitVec 6) (gate : Bool) (tower : Nat) (held : Bool)
  /-- BARA: its arrivals stand in State.arrivals under the same issue number. -/
  | bara (d : BitVec 6)
  deriving DecidableEq, Repr

structure HubOp where
  seq  : Nat
  slot : Nat
  kind : HubKind
  deriving DecidableEq, Repr

/-- A failed engine operation that no WAITC or CNTR has found (R229, R401): class, %ecause detail, %eaddr. -/
structure Failure where
  cls    : Nat
  detail : BitVec 16
  addr   : DWord
  deriving DecidableEq, Repr

/-- State of the path context (R269). -/
inductive PathState where
  | none | opened | closed
  deriving DecidableEq, Repr

/-- One view (R274, R276). -/
structure View where
  ma : Int
  mb : Int
  c  : Int
  md : Int
  me : Int
  f  : Int
  ox : Int
  oy : Int
  deriving DecidableEq, Repr

/-- The parameters of a PBEGIN (R272). tab and pblk are offsets in the window. -/
structure PathParams where
  entry : DWord
  parg  : Word
  solid : Bool
  blend : BitVec 2
  rule  : BitVec 2
  layer : BitVec 16
  tab   : Nat
  pblk  : Nat
  tw    : Nat
  th    : Nat
  pidx  : BitVec 16
  deriving DecidableEq, Repr

/-- The path context of a ply (R269): state, parameters, the views of the open path, the views the next PBEGIN takes,
first and current point of each view. -/
structure PathCtx where
  state  : PathState
  params : PathParams
  views  : List View
  nextViews : List View
  first  : List (Int × Int)
  current : List (Int × Int)
  started : Bool
  deriving DecidableEq, Repr

/-- MODEL of R231: an aligned 4-byte word of a core's local space as it was before a write that some reader may not see yet:
one by STX, which the engines see after an XFENCE, or one by an engine, which LDX sees after a WAITC or CNTR (log 39). -/
structure OldWord where
  space  : Space
  word   : Nat
  before : List Byte
  /-- Issue number of the access or operation that wrote it, and its ply. -/
  seq    : Nat
  uid    : Nat
  /-- The class of the engine's operation (R220); none for an STX. -/
  cls    : Option Nat
  /-- The last issue number given when it was written. -/
  issued : Nat
  /-- The first later XFENCE of the ply that has been satisfied. -/
  fence  : Option Nat
  /-- The leaf that its operation credits (R236). -/
  leaf   : Option (Nat × Nat)
  /-- Written with the other word of its aligned 8 bytes as one access (R288). -/
  pair   : Bool
  /-- The write generation of its space when it was written (R211). -/
  gen    : BitVec 16
  deriving DecidableEq, Repr

/-- A ply (R94, R111, R249). -/
structure Ply where
  /-- MODEL: the model's name of the ply; 0 where no ply is resident. -/
  uid       : Nat
  core      : Nat
  pipe      : Nat
  /-- Formation or restore order (R246). -/
  age       : Nat
  plyid     : BitVec 25
  tenant    : Nat
  role      : BitVec 16
  gangsize  : BitVec 5
  gang      : Nat
  /-- A ply of a management core (R383). -/
  management : Bool
  header    : Header
  entry     : DWord
  paint     : Bool
  cls       : Nat
  deadline  : DWord
  charge    : Nat
  /-- Demand and heat class of a launched ply (R368). -/
  demand    : Nat
  heat      : Nat
  /-- Marked for pre-emption (R346, R371): by the firing that waits for room, 0 for a rotation. -/
  marked    : Option Nat
  /-- The fired record that it belongs to, if any (R364). -/
  firing    : Option Nat
  /-- Where a level of scope 1 or 2 keeps it (R366): on its core, or in its cluster. -/
  fixedCore : Bool
  /-- Cluster of the path group that it is a member of, with ccr.sw as read (R315, R316). -/
  group     : Option (Nat × Nat)
  sregs     : Vector Word 64
  vregs     : List Lanes
  tiles     : List Tile
  latches   : List Lanes
  path0     : Path
  path1     : Path
  /-- The path slot of the open or last run (R101). -/
  slot      : Nat
  running   : Bool
  /-- Its open run has waited, and goes on when its pipe chooses it again (R246). -/
  resumes   : Bool
  /-- The unit at its PC waits in the pipe (R103). -/
  stalled   : Bool
  /-- Position in the run (R88). -/
  pos       : Nat
  /-- ptime at which the open run began to issue (R73). -/
  runSince  : Nat
  dstack    : List DivRecord
  frames    : List Frame
  supervisor : Bool
  savedLatches : List Lanes
  /-- The path whose trap is being handled, and where and with which decided transfer it stood (R158, R165). -/
  trapSlot  : Nat
  trapEpc   : DWord
  trapErun  : BitVec 5
  trapTransfer : Transfer
  occ       : Mask
  fflags    : BitVec 6
  frnd      : BitVec 3
  yc        : BitVec 14
  ydl       : BitVec 8
  scope     : BitVec 24
  rpr       : Word
  pgw       : DWord
  cnt       : Vector (BitVec 16) 4
  flattol   : BitVec 16
  epc       : DWord
  ecause    : Word
  eaddr     : DWord
  elane     : BitVec 7
  erun      : BitVec 5
  tvec      : DWord
  ssave     : DWord
  lanes     : Vector LaneInfo 96
  windowBase : Nat
  windowSize : Nat
  lsq       : List MemOp
  hubq      : List HubOp
  failures  : List Failure
  ctx       : PathCtx
  /-- MODEL of R231: words stored by STX that some engine operation may still see as they were, newest first. -/
  stxOld    : List OldWord
  /-- The latest cluster completion time acknowledged (R303). -/
  cgw       : Nat
  deriving DecidableEq, Repr

/-- A store between its arrival and its completion time (R303, R326). -/
structure PendingStore where
  seq      : Nat
  uid      : Nat
  /-- Issue number of its store, atomic or write in the ply (R254). -/
  issued   : Nat
  core     : Nat
  cluster  : Nat
  tenant   : Nat
  pa       : Nat
  data     : List Byte
  /-- ptime at which it is performed at cluster scope, and at package scope. -/
  ctime    : Nat
  time     : Nat
  clusterDone : Bool
  policy   : Nat
  /-- Made by the memory-side atomic unit of its home, which sees it at once (R334). -/
  byUnit   : Bool
  /-- Scopes of the lanes that issued it (R323). -/
  scopes   : List (BitVec 24)
  deriving DecidableEq, Repr

/-- A lease: the unit that holds it (a core's L1, a cluster's L2, or the home), its line, its expiry (R175, R302, R325). -/
structure Lease where
  unit  : Nat
  line  : Nat
  until' : Nat
  deriving DecidableEq, Repr

/-- A line in a vault cache (R328, R329). -/
structure CacheLine where
  line   : Nat
  dirty  : Bool
  owner  : Nat
  /-- Tenant whose fill brought it (R329). -/
  filler : Nat
  deriving DecidableEq, Repr

/-- A translation that a TLB of the partition may hold: tenant, page, page-size level, page address, permissions (R179). -/
structure TlbEntry where
  tenant : Nat
  page   : Nat
  level  : Nat
  base   : Nat
  perms  : BitVec 3
  deriving DecidableEq, Repr

/-- An MTX operand as read at issue (R202): address (an offset from base, modulo 2^21, where local), stride, scale group. -/
structure Operand where
  loc    : Bool
  base   : Nat
  addr   : DWord
  stride : Int
  scales : Option Nat
  deriving DecidableEq, Repr

/-- A queued MTX instruction (R201). -/
inductive MtxKind where
  /-- MMA, MMABP: plane count of MMABP, formats, .Z, whether issued at user privilege, row group and block to start at. -/
  | mma (planes : Option Nat) (fa fb : Nat) (z : Bool) (a b : Operand) (user : Bool) (start : Nat × Nat)
  | mzero
  | mrd (v : Nat) (slice : Nat) (active : Mask)
  /-- MWR: the slice, the eight registers as read at issue, the active lanes. -/
  | mwr (slice : Nat) (cols : List Lanes) (active : Mask)
  /-- MCVST: format, i32 source, .SAT. Its rows stand in the ply's load-store queue under the same issue number. -/
  | mcvst (fmt : Nat) (i32 sat : Bool)
  deriving DecidableEq, Repr

structure MtxOp where
  seq   : Nat
  uid   : Nat
  slot  : Nat
  pc    : DWord
  pos   : Nat
  tile  : Nat
  kind  : MtxKind
  /-- ptime at which it issued (R213). -/
  issuedAt : Nat
  deriving DecidableEq, Repr

/-- A shape record (R221). -/
structure Shape where
  base    : DWord
  ext     : List Nat
  stride  : List Int
  pad     : Word
  scale   : Word
  byte61  : Byte
  ctl     : BitVec 16
  deriving DecidableEq, Repr

/-- A bulk copy's walk as taken at issue (R225, R226). -/
structure Walk where
  loc    : Option Space
  /-- Local: core-absolute address of the space's or window's offset 0. -/
  origin : Nat
  /-- Global: the tenant's virtual base. Local: the offset, modulo 2^32. -/
  base   : DWord
  ext    : List Nat
  stride : List Int
  deriving DecidableEq, Repr

/-- Where a unit of a copy lies: a virtual address, or a core-absolute address of a local space. -/
inductive Place where
  | glob (va : DWord)
  | loc (space : Space) (at' : Nat)
  deriving DecidableEq, Repr

/-- One lane of an LCP: destination and source, with their physical addresses where they are global. -/
structure LaneCopy where
  lane : Nat
  dst  : Place
  src  : Place
  dpa  : Nat
  spa  : Nat
  deriving DecidableEq, Repr

/-- What a queued copy operation does. -/
inductive CopyKind where
  /-- LCP: bytes of an element, each lane with its destination and source, the cache policy. -/
  | lcp (n : Nat) (lanes : List LaneCopy) (policy : Nat)
  /-- TCOPY, TCOPYX: unit size, walks, transpose, pad unit, scale walk with its pad unit, SBUF offset and rows, barrier. -/
  | tcopy (unit : Nat) (src dst : Walk) (tr : Bool) (pad : List Byte)
      (scales : Option (Walk × List Byte × Nat × Nat)) (credit : Option (Nat × Nat))
  deriving DecidableEq, Repr

/-- A queued copy operation (R219): owner lane, progress. -/
structure CopyOp where
  seq    : Nat
  uid    : Nat
  pc     : DWord
  tenant : Nat
  lane   : Nat
  scope  : BitVec 24
  kind   : CopyKind
  cancelled : Bool
  /-- The engine has begun it (R237). -/
  begun  : Bool
  /-- ptime by which its writes are performed, once it has made them, or at which it was dropped. -/
  due    : Option Nat
  /-- Sizes of the units that it left unwritten, credited when it retires (R229, R237). -/
  unwritten : List Nat
  /-- The global units that it has written and not yet credited: ptime of their performance, size (R230, R236). -/
  owed   : List (Nat × Nat)
  deriving DecidableEq, Repr

/-- A counted operation of a class, for retirement in issue order (R220). -/
structure Counted where
  seq  : Nat
  uid  : Nat
  cls  : Nat
  complete : Bool
  failure  : Option Failure
  scopes   : List (BitVec 24)
  tenant   : Nat
  deriving DecidableEq, Repr

/-- A queued PATH instruction (R269). -/
inductive PathKind where
  | line (p0 p1 : Int × Int)
  | quad (p0 p1 p2 : Int × Int) (tol : Nat)
  | pend
  /-- PSCAN or PCLIP: the tile index, its commit entry, the scope, whether tasks are formed. -/
  | scan (view ty tx : Nat) (entry : Nat) (clip : Bool) (scope : BitVec 24) (tasks : Bool) (solid : Option (List Byte))
  | pcell (d : BitVec 7) (view ty tx : Nat) (row : Nat) (active : Mask)
  deriving DecidableEq, Repr

structure PathOp where
  seq    : Nat
  uid    : Nat
  tenant : Nat
  kind   : PathKind
  ctx    : PathCtx
  cls    : Nat
  deadline : DWord
  group  : Option (Nat × Nat)
  gang   : Nat
  /-- The path slot that issued it. -/
  slot   : Nat
  deriving DecidableEq, Repr

/-- Kind of a commit entry (R288). -/
inductive EntryKind where
  | scan | clip | unclip
  deriving DecidableEq, Repr

/-- A commit entry of the paint commit unit (R288). -/
structure CommitEntry where
  id      : Nat
  seq     : Nat
  uid     : Nat
  gang    : Nat
  block   : Nat
  layer   : BitVec 16
  kind    : EntryKind
  blend   : BitVec 2
  /-- The TAB is scanned and cleared. -/
  scanned : Bool
  /-- Its tasks still live, queued or running. -/
  live    : Nat
  /-- A clip's coverage, 256 words (R291). -/
  plane   : List Nat
  scope   : BitVec 24
  tenant  : Nat
  deriving DecidableEq, Repr

/-- A commit waiting in the unit (R289): entry, pixel, cov18, colour R, G, B, A. -/
structure Commit where
  entry  : Nat
  pixel  : Nat
  cov    : Nat
  colour : List (BitVec 16)
  deriving DecidableEq, Repr

/-- A leaf barrier (R233). -/
structure Leaf where
  phase    : BitVec 16
  expected : BitVec 16
  arrived  : BitVec 16
  bytes    : Word
  root     : Option Nat
  /-- Its phase has met its condition (R234): later arrivals count in the next one. -/
  done     : Bool
  reported : Bool
  /-- A linked leaf whose root has flipped, the flip on its way (R308). -/
  flip     : Bool
  /-- Arrivals in a phase that is done, which count toward the next one (R308) (log 97). -/
  next     : BitVec 16
  /-- The ptime by which the results of its closing FADDD windows are performed (R340). -/
  closing  : Option Nat
  /-- It resets by departure once its windows are closed (R234, R340). -/
  resetting : Bool
  deriving DecidableEq, Repr

/-- A bin of tasks (R242). -/
structure Bin where
  number : Nat
  tenant : Nat
  entry  : DWord
  /-- Its oldest task has waited longer than %binto (R243). -/
  due    : Bool
  tasks  : List Task
  deriving DecidableEq, Repr

/-- An XBUF window: its owner gang (a single ply is a gang of its own), base and size (R173). -/
structure Window where
  gang : Nat
  base : Nat
  size : Nat
  deriving DecidableEq, Repr

structure Core where
  binto    : BitVec 20
  taskBase : DWord
  taskCap  : Word
  overflow : List Task
  commitBase : DWord
  commitCap : Word
  bins     : List Bin
  formSeq  : BitVec 16
  mtxq     : List MtxOp
  copyq    : List CopyOp
  pathq    : List PathOp
  entries  : List CommitEntry
  commits  : List Commit
  leaves   : Table Leaf
  xbuf     : Memory
  wbuf     : Memory
  sbuf     : Memory
  xgen     : BitVec 16
  wgen     : BitVec 16
  windows  : List Window
  /-- MODEL of R231: words that engines wrote and LDX may still see as they were, newest first. -/
  unseen   : List OldWord
  /-- Scopes (tenant, id) whose cancel or fault broadcast has arrived (R259). -/
  heard    : List (Nat × BitVec 24)
  probeX   : BitVec 16
  probeN   : Nat
  probeAt  : Nat
  retired  : Bool
  retiring : Bool
  errors   : Nat
  deriving DecidableEq, Repr

/-- A barrier root (R307). -/
structure Root where
  phase    : BitVec 16
  linked   : Nat
  reported : Nat
  /-- Its last flip: the release's number, the paths of a wave (0: all at once), the plies that waited, in their order (R311). -/
  release  : Nat
  width    : Nat
  order    : List Nat
  deriving DecidableEq, Repr

structure Cluster where
  knight   : Bool
  sw       : BitVec 3
  step     : BitVec 3
  l2lease  : BitVec 16
  lease    : BitVec 16
  gap      : BitVec 8
  count    : BitVec 8
  /-- The step the cluster runs at, and a request that waits for a quiesce point (R319, R320, R322). -/
  running  : BitVec 3
  pending  : Option (BitVec 3)
  /-- Steps that slack control has moved it below ccr.step (R409), and when. -/
  slackStep : Nat
  slackAt  : Nat
  roots    : Table Root
  part     : Option (BitVec 4)
  regulator : BitVec 2
  pendingReg : Option (BitVec 2)
  /-- A change of its domain's voltage waits for a quiesce point (R319, R320). -/
  volt     : Bool
  retired  : Bool
  retiring : Bool
  errors   : Nat
  /-- Single-bit errors corrected in its L2 (R323). -/
  corrected : Nat
  deriving DecidableEq, Repr

/-- A FADDD contribution (R337): issuer index and value, the lane that made it. -/
structure Contrib where
  issuer : Word
  value  : Word
  uid    : Nat
  lane   : Nat
  deriving DecidableEq, Repr

/-- The exact accumulator of R338: a fixed-point sum in units of 2^-149, and the three flags; whether every value was -0. -/
structure Exact where
  sum    : Int
  nan    : Bool
  posInf : Bool
  negInf : Bool
  negZero : Bool
  deriving DecidableEq, Repr

/-- An element of an open FADDD window (R338). -/
structure FElement where
  core    : Nat
  leaf    : Nat
  phase   : BitVec 16
  pa      : Nat
  va      : DWord
  tenant  : Nat
  list    : List Contrib
  exact   : Option Exact
  makers  : List (Nat × Nat)
  /-- A contribution that it holds has an uncorrectable error (R351). -/
  failed  : Bool
  deriving DecidableEq, Repr

structure Vault where
  /-- The last multiple of 32,000 ns at which the sensor was read, as its number (R342). -/
  readings : Nat
  sensor   : BitVec 16
  vtemp    : BitVec 16
  rstep    : BitVec 2
  testEn   : Bool
  testTemp : BitVec 16
  vchl     : BitVec 7
  elements : List FElement
  fadddBase : DWord
  fadddCap : Word
  cache    : List CacheLine
  /-- Per tenant: fills, shared, writebacks (R329). -/
  counts   : Table (DWord × DWord × DWord)
  failGranules : Nat
  corrected : Nat
  /-- The home's own errors, in its vault cache and its FADDD table: uncorrectable and corrected (R352). -/
  homeErrors : Nat
  homeCorrected : Nat
  retired  : Bool
  retiring : Bool
  deriving DecidableEq, Repr

/-- The two FIFOs of a vertical pair (R347), oldest first; failing oldest entries (R351). -/
structure Fifos where
  up      : List (Lanes × Bool)
  down    : List (Lanes × Bool)
  errors  : Nat
  /-- Single-bit errors corrected (R351, R352). -/
  corrected : Nat
  deriving DecidableEq, Repr

/-- A launch queue (R359): its 64-byte descriptor fields, and head and tail as the hub holds them. -/
structure Queue where
  ring    : DWord
  tailAt  : DWord
  qdead   : DWord
  log2    : BitVec 8
  cls     : BitVec 8
  ctl     : BitVec 8
  missed  : DWord
  head    : Word
  tail    : Word
  deadline : DWord
  /-- The firing that is still forming (R360). -/
  busy    : Option Nat
  deriving DecidableEq, Repr

/-- A level of a launch record (R363). -/
structure Level where
  ex     : Nat
  ey     : Nat
  order  : Nat
  scope  : Nat
  domain : Nat
  sw     : Nat
  deriving DecidableEq, Repr

/-- A launch record (R362). -/
structure Record where
  entry    : DWord
  args     : DWord
  arg      : Vector Word 4
  scope    : BitVec 24
  demand   : BitVec 16
  heat     : BitVec 2
  deadline : DWord
  lanes    : Nat
  levels   : List Level
  deriving DecidableEq, Repr

/-- A fired record whose plies still form or run (R364 to R369). -/
structure Firing where
  id       : Nat
  tenant   : Nat
  record   : Record
  cls      : Nat
  firedAt  : Nat
  /-- Next linear position of a ply, or of a gang's first member, to form. -/
  next     : Nat
  total    : Nat
  /-- Plies formed and not yet retired. -/
  running  : Nat
  queue    : Option Nat
  /-- Landing slot of a message's firing: its address (R404). -/
  landing  : Option DWord
  args     : DWord
  /-- What is fixed for an index of a level, by level and index of the plies up to it: the core or cluster of a level of
  scope 1 or 2 (R366). -/
  homes    : List (Nat × Nat × Nat)
  /-- ccr.sw as read for the path groups begun: group, sw (R316, R322). -/
  widths   : List (Nat × Nat)
  deriving DecidableEq, Repr

/-- An armed launch (R403, R404). -/
structure Armed where
  tag    : DWord
  record : Record
  ring   : DWord
  log2   : BitVec 4
  once   : Bool
  cls    : Nat
  next   : Nat
  deriving DecidableEq, Repr

/-- A message that has landed and has not fired yet (R404): its tenant, the slot, the ptime at which the writes of the slot are
performed, and of the launch that was armed for its tag a copy of the record, the class, the tag, whether it was armed once. -/
structure Landing where
  tenant : Nat
  slot   : DWord
  due    : Nat
  record : Record
  cls    : Nat
  tag    : DWord
  once   : Bool
  deriving DecidableEq, Repr

/-- A loaded image (R66 to R70): base, the pages it maps (virtual, physical, permissions), its exports, the symbols it
imports from other images, its entries. -/
structure Image where
  base    : Nat
  pages   : List (Nat × Nat × BitVec 3)
  exports : List (List Byte × Nat)
  uses    : List (List Byte)
  entries : List Nat
  deriving DecidableEq, Repr

/-- A request to the loader that has not been answered yet (R69): the image that it loads, if it does, with the report and
the ptime at or after which both go out. -/
structure Loading where
  tenant : Nat
  image  : Option Image
  report : List Byte
  due    : Nat
  deriving DecidableEq, Repr

/-- A region of the fabric table (R396). -/
structure Region where
  base   : DWord
  length : Nat
  read   : Bool
  write  : Bool
  matchBits : BitVec 20
  mask   : BitVec 20
  deriving DecidableEq, Repr

/-- A communicator (R407). -/
structure Comm where
  members : List Nat
  radices : List Nat
  rod     : Bool
  deriving DecidableEq, Repr

structure Tenant where
  ptroot  : DWord
  queues  : Table Queue
  trapVec : DWord
  qdl     : Word
  ringBase : DWord
  ringTail : DWord
  ringLog2 : BitVec 8
  dropped : Word
  /-- Shape slots: generation, and the record while it is current (R223). -/
  shapes  : Table (BitVec 20 × Option Shape)
  share   : Nat
  armed   : List Armed
  /-- Busy landing slots, each with the firing that keeps it (R404). -/
  busySlots : List (DWord × Nat)
  images  : List Image
  job     : Nat
  regions : Table Region
  comms   : Table Comm
  notify  : Nat × Nat
  fabto   : Nat
  colto   : Nat
  slack   : Bool
  /-- Collective instances that this device has issued on each communicator (R408). -/
  issued  : Table Nat
  /-- Completed instances since the last decision of slack control, oldest first: the slack of this member, and the ptime of the
  completion (R409). -/
  window  : List (Nat × Nat)
  deriving DecidableEq, Repr

/-- State of a scope (R256). -/
inductive ScopeState where
  | opened | cancelling | quiesced | closed | faulted
  deriving DecidableEq, Repr

/-- A scope of the hub's table (R256, R257). -/
structure Scope where
  tenant  : Nat
  id      : BitVec 24
  parent  : BitVec 24
  state   : ScopeState
  sealed' : Bool
  live    : Nat
  ended   : Nat
  tcancel : DWord
  tquiet  : DWord
  cause   : Word
  cont    : DWord
  carg    : DWord
  notify  : Nat
  /-- Address of the record, and the core that issued the SCOPEN (R263, R265). -/
  address : DWord
  opener  : Nat
  /-- The ptime at which its final record is written: it leaves the table then (R258). -/
  due     : Option Nat
  deriving DecidableEq, Repr

/-- A task on its way to a core (R253, R314). -/
structure Transit where
  core  : Nat
  task  : Task
  stolen : Bool
  deriving DecidableEq, Repr

/-- A chord's pieces carried by the tiler to one owner core (R317). -/
structure Piece where
  owner  : Nat
  gang   : Nat
  uid    : Nat
  seq    : Nat
  tenant : Nat
  /-- The additions: offset in the owner's window, width in bytes, value. -/
  adds   : List (Nat × Nat × Int)
  /-- Scope of the task that owns the path (R323). -/
  scope  : BitVec 24
  deriving DecidableEq, Repr

/-- Arrivals of a BARA or BARAW that wait (R310, R340). -/
structure Arrival where
  seq    : Nat
  uid    : Nat
  core   : Nat
  leaf   : Nat
  lanes  : List Nat
  scope  : Nat
  waits  : Bool
  deriving DecidableEq, Repr

/-- A departure that waits for the task's FADDDs to be accepted (R340). -/
structure Departure where
  uid   : Nat
  lane  : Nat
  core  : Nat
  leaf  : Nat
  /-- Its arrivals at the leaf by phase. -/
  arrivals : List (BitVec 16 × Nat)
  deriving DecidableEq, Repr

/-- A pre-empted or gated ply in its save area (R248, R350). -/
structure Saved where
  ply    : Ply
  /-- The regions as written into the save area: offset and bytes. -/
  image  : List (Nat × List Byte)
  /-- Saved at a wait by a gate request (R350): its restore resumes as ERET does. -/
  atWait : Bool
  /-- Saved for a gate request: it is restored on its own core. -/
  gated  : Bool
  /-- MODEL: the last issue number given when it was saved. -/
  issued : Nat
  deriving DecidableEq, Repr

/-- Where a fabric operation goes (R398): endpoint, tenant there, delivery mode. -/
structure Target where
  endpoint : Nat
  tenant   : Nat
  mode     : Nat
  deriving DecidableEq, Repr

/-- The local range of a fabric operation as checked at issue (R398): its address, its core-absolute place in XBUF or its
physical pieces, its length. -/
structure LocalRange where
  address : DWord
  loc     : Option Nat
  pieces  : List (Nat × Nat)
  length  : Nat
  deriving DecidableEq, Repr

/-- What a fabric operation does, as issued (R399). -/
inductive FabricKind where
  | rput (dest : Target) (region offset : Nat) (src : LocalRange)
  | rget (dest : Target) (region offset : Nat) (dst : LocalRange) (credit : Option (Nat × Nat))
  | msend (dest : Target) (tag : DWord) (src : LocalRange)
  /-- The hub's MSEND of a notify of kind 2 (R405). -/
  | notify (dest : Target) (tag : DWord) (record : List Byte)
  /-- COLL: kind, operation, communicator, root, walks, format, source units, instance. -/
  | coll (kind op comm root : Nat) (src dst : Walk) (fmt units inst : Nat)
  deriving DecidableEq, Repr

structure FabricOp where
  seq    : Nat
  uid    : Nat
  tenant : Nat
  core   : Nat
  lane   : Nat
  scope  : BitVec 24
  issuedAt : Nat
  cancelled : Bool
  kind   : FabricKind
  /-- What its target answered, and the ptime by which it is performed. -/
  answer : Option FabricAnswer
  due    : Nat
  /-- The bytes that an RGET has written and not yet credited: ptime of their performance, size; and those that it left unwritten,
  credited when it retires (R236, R399). -/
  owed   : List (Nat × Nat)
  unwritten : Nat
  deriving DecidableEq, Repr

/-- MODEL: what has left the device for an endpoint: 0 a put, 1 a message, 2 the answer to a get, 3 a load report (R68); its region and offset, or
its tag; its data. 4 is the answer to a load from the configuration space (R381), which service firmware takes. -/
structure Outgoing where
  endpoint : Nat
  tenant   : Nat
  kind     : Nat
  head     : DWord
  data     : List Byte
  deriving DecidableEq, Repr

/-- A broadcast of a cancel or fault that a core or Knight unit has not yet heard (R259). -/
structure Broadcast where
  tenant : Nat
  scope  : BitVec 24
  cores  : List Nat
  deriving DecidableEq, Repr

/-- The trap registers as they stood at a fault of a ply in its trap handler, which the report of the fault carries (R166)
(log 98). -/
structure TrapReport where
  tenant : Nat
  plyid  : BitVec 25
  time   : DWord
  epc    : DWord
  ecause : Word
  eaddr  : DWord
  elane  : BitVec 7
  erun   : BitVec 5
  deriving DecidableEq, Repr

/-- The power state of an upper die (R350). -/
inductive DiePower where
  | powered
  /-- A gate request of a ply, by its uid and issue number, is pending. -/
  | gating (uid seq : Nat)
  | gated
  deriving DecidableEq, Repr

/-- Rook and the service firmware (R386 to R389). -/
structure Firmware where
  running   : Bool
  recovery  : Bool
  digest    : List Byte
  version   : Nat
  /-- The fused rollback counter (R386). -/
  rollback  : Nat
  replace   : Bool
  deriving DecidableEq, Repr

/-- The unit that issues (R89, R92): the address of its first word, its words, the instruction word, the hint payloads. -/
structure Issue where
  first : DWord
  words : Nat
  word  : Word
  himm  : Option (BitVec 22)
  hrnd  : Option (BitVec 22)
  hsat  : Option (BitVec 22)
  hcache : Option (BitVec 22)
  hord  : Option (BitVec 22)
  hlong : Option (BitVec 22)
  hprio : Option (BitVec 22)
  deriving DecidableEq, Repr

/-- The machine. -/
structure State where
  ply       : Ply
  plies     : List Ply
  /-- MODEL: retired plies whose stores, requests or engine operations are still on their way (R247). -/
  ghosts    : List Ply
  issue     : Issue
  mem       : Memory
  stores    : List PendingStore
  homeLeases : List Lease
  l2Leases  : List Lease
  l1Leases  : List Lease
  /-- Bytes that a store changed at its completion time while some run was open, newest first: time, address, the byte
  before. A fetch of a run that began earlier may still return it (R73). -/
  recent    : List (Nat × Nat × Byte)
  /-- Failing 8-byte granules, by their physical addresses (R351). -/
  failing   : List Nat
  tlb       : List TlbEntry
  /-- Held entry headers: core, entry, header (R241). -/
  headers   : List (Nat × DWord × Header)
  cores     : Table Core
  clusters  : Table Cluster
  vaults    : Table Vault
  fifos     : Table Fifos
  dies      : Table DiePower
  tenants   : Table Tenant
  /-- Launch queues, by tenant and number, whose tail or deadline line a home has written, not yet reported (R360). -/
  reports   : List (Nat × Nat)
  scopes    : List Scope
  /-- State words of released scopes, for SCPST.W (R267). -/
  released  : List (Nat × BitVec 24 × Word)
  counted   : List Counted
  arrivals  : List Arrival
  departures : List Departure
  broadcasts : List Broadcast
  transit   : List Transit
  pieces    : List Piece
  firings   : List Firing
  saved     : List Saved
  fabric    : List FabricOp
  /-- What has left the device for other endpoints (log 92). -/
  outgoing  : List Outgoing
  firmware  : Firmware
  /-- %partition.part and .cluster, %regsel.cluster as last written (R374). -/
  selPart   : BitVec 4
  selCluster : BitVec 6
  selReg    : BitVec 6
  endpoint  : Nat
  /-- One ptime for the whole package: the cores' skew of up to 2 ns (R3, R326) is 0, the model's choice (log 2). -/
  ptime     : DWord
  /-- Save areas that service firmware has set aside for plies to form, in the order it assigns them (R249, log 11). -/
  saveAreas : List DWord
  /-- MODEL: scheduled events; what moves next (log 3). -/
  agenda    : List Instr
  /-- Requests to the loader in progress, oldest first (R69). -/
  loads     : List Loading
  /-- Messages that have landed and not yet fired, oldest first (R404). -/
  landings  : List Landing
  /-- What reports of supervisor faults carry beside their records, newest first (R166). -/
  trapReports : List TrapReport
  /-- MODEL: free values taken so far (log 2). -/
  tick      : Nat
  /-- MODEL: issue numbers given so far. -/
  seq       : Nat
  deriving DecidableEq, Repr

/-! The machine right after package power-on (R386, R387): no ply is formed, every tower held in reset. -/

def Path.free : Path :=
  { pc := 0, member := 0, active := 0, frame := none, awaited := [], wait := .none, waitWords := 0, waitPrio := none, hprio := none,
    runClass := none, transfer := .none, since := 0 }

def View.identity : View := ⟨65536, 0, 0, 0, 65536, 0, 0, 0⟩

def PathCtx.start : PathCtx :=
  { state := .none, params := ⟨0, 0, false, 0, 0, 0, 0, 0, 0, 0, 0⟩, views := [View.identity],
    nextViews := [View.identity], first := [], current := [], started := false }

def Header.zero : Header := ⟨0, 0, false, false, 0, 0⟩

def LaneInfo.empty : LaneInfo := ⟨0, .none, [], .none, 0, 0⟩

/-- No ply: both slots free, every register at its reset value (R108, R111, R168) (log 4). -/
def Ply.vacant : Ply :=
  { uid := 0, core := 0, pipe := 0, age := 0, plyid := 0, tenant := 0, role := 0, gangsize := 0, gang := 0,
    management := false, header := Header.zero, entry := 0, paint := false, cls := 0, deadline := 0, charge := 0,
    demand := 0, heat := 0, marked := .none, firing := .none, fixedCore := false, group := .none, sregs := Vector.replicate 64 0, vregs := [], tiles := [],
    latches := [], path0 := Path.free, path1 := Path.free, slot := 0, running := false, resumes := false, stalled := false, pos := 0, runSince := 0, dstack := [],
    frames := [], supervisor := false, savedLatches := [], trapSlot := 0, trapEpc := 0, trapErun := 0, trapTransfer := .none, occ := 0, fflags := 0, frnd := 0, yc := 0,
    ydl := 0, scope := 0, rpr := 0, pgw := 0, cnt := Vector.replicate 4 0, flattol := 16, epc := 0, ecause := 0,
    eaddr := 0, elane := 127, erun := 0, tvec := 0, ssave := 0, lanes := Vector.replicate 96 LaneInfo.empty,
    windowBase := 0, windowSize := 0, lsq := [], hubq := [], failures := [], ctx := PathCtx.start, stxOld := [],
    cgw := 0 }

def Leaf.idle : Leaf := ⟨0, 0, 0, 0, none, false, false, false, 0, none, false⟩

def Root.idle : Root := ⟨0, 0, 0, 0, 0, []⟩

/-- Core k at reset: its probe register is seeded with k + 1 (R313), its bin timer with 2,000 (R243). -/
def Core.reset (k : Nat) : Core :=
  { binto := 2000, taskBase := 0, taskCap := 0, overflow := [], commitBase := 0, commitCap := 0, bins := [],
    formSeq := 0, mtxq := [], copyq := [], pathq := [], entries := [], commits := [], leaves := [],
    xbuf := [], wbuf := [], sbuf := [], xgen := 0, wgen := 0, windows := [], unseen := [], heard := [],
    probeX := BitVec.ofNat 16 (k + 1), probeN := 0, probeAt := 0, retired := false, retiring := false, errors := 0 }

/-- A cluster at reset (R177, R311, R321) (log 6). -/
def Cluster.reset : Cluster :=
  { knight := true, sw := 0, step := 0, l2lease := 1024, lease := 256, gap := 16, count := 8, running := 0,
    pending := none, slackStep := 0, slackAt := 0, roots := [], part := none, regulator := 0, pendingReg := none,
    volt := false, retired := false, retiring := false, errors := 0, corrected := 0 }

/-- A vault at reset (R342, R344). -/
def Vault.reset : Vault :=
  { readings := 0, sensor := 0, vtemp := 0, rstep := 0, testEn := false, testTemp := 0, vchl := 90, elements := [], fadddBase := 0,
    fadddCap := 0, cache := [], counts := [], failGranules := 0, corrected := 0, homeErrors := 0, homeCorrected := 0, retired := false, retiring := false }

def Fifos.empty : Fifos := ⟨[], [], 0, 0⟩

def Queue.reset : Queue := ⟨0, 0, 0, 0, 0, 0, 0, 0, 0, 0, none⟩

/-- A tenant at reset (R223, R370, R374, R381, R396). -/
def Tenant.reset : Tenant :=
  { ptroot := 0, queues := [], trapVec := 0, qdl := 0, ringBase := 0, ringTail := 0, ringLog2 := 0, dropped := 0,
    shapes := [], share := 4096, armed := [], busySlots := [], images := [], job := 0, regions := [], comms := [], notify := (0, 0),
    fabto := 50000, colto := 1000000, slack := false, issued := [], window := [] }

def Issue.empty : Issue := ⟨0, 0, 0, .none, .none, .none, .none, .none, .none, .none⟩

def State.reset : State :=
  { ply := Ply.vacant, plies := [], ghosts := [], issue := Issue.empty, mem := [], stores := [], homeLeases := [], l2Leases := [],
    l1Leases := [], recent := [], failing := [], tlb := [], headers := [], cores := [], clusters := [], vaults := [], fifos := [],
    dies := [], tenants := [], reports := [], scopes := [], released := [], counted := [], arrivals := [], departures := [],
    broadcasts := [], transit := [], pieces := [], firings := [], saved := [], fabric := [], outgoing := [],
    firmware := { running := false, recovery := false, digest := [], version := 0, rollback := 0, replace := false },
    selPart := 0, selCluster := 0, selReg := 0, endpoint := 0, ptime := 0, saveAreas := [], agenda := [], loads := [], landings := [], trapReports := [], tick := 0, seq := 0 }

/-- Why the machine stops with a fault. -/
inductive Fault where
  /-- A store by service firmware into an offset of the configuration space that R381's table gives no content, or of a
  size or alignment it does not take: raised by execConfigurationWrite. Safe: the hardware's answer is not stated. -/
  | configurationHole (offset : Nat)
  deriving DecidableEq, Repr

/-- Why the model gives no meaning. -/
inductive Refusal where
  /-- An instruction whose meaning is not written: raised by an arm of Dispatch.lean. Safe: the model stops. -/
  | notModelled (mnemonic : String)
  deriving DecidableEq, Repr

end Sys2Proof.Machine
end

