-- ==== Sys2Proof/Machine/Basics.lean ====
section
/-!
DEFINITION. Masks, lanes, tables and the named reads and updates of the units that State holds.
-/
namespace Sys2Proof

/-! ## Masks and lanes -/

/-- The sum of 2^i over the i below n that p holds of. -/
def bitsBelow (p : Nat → Bool) : Nat → Nat
  | 0 => 0
  | n + 1 => bitsBelow p n + if p n then 2 ^ n else 0

/-- The mask of the lanes that p holds of (R97). -/
def maskOf (p : Nat → Bool) : Mask := BitVec.ofNat 96 (bitsBelow p 96)
/-- Whether lane i is in the mask. -/
def Mask.has (m : Mask) (i : Nat) : Bool := m.getLsbD i
/-- The lanes of a mask in ascending order. -/
def Mask.lanes (m : Mask) : List Nat := (List.range 96).filter (Mask.has m)
def Mask.full : Mask := BitVec.allOnes 96
/-- Word k of a mask: lane i stands in bit i mod 32 of word i / 32 (R97). -/
def Mask.word (m : Mask) (k : Nat) : Word := BitVec.ofNat 32 (m.toNat / 2 ^ (32 * k))
/-- The mask of three words (R97). -/
def Mask.ofWords (a b c : Word) : Mask := BitVec.ofNat 96 (a.toNat + b.toNat * 2 ^ 32 + c.toNat * 2 ^ 64)

/-- The register whose lane i holds f i. -/
def Lanes.gen (f : Nat → Word) : Lanes := Vector.ofFn fun i : Fin 96 => f i.val
/-- Lane i of a register. -/
def Lanes.at (v : Lanes) (i : Nat) : Word := if h : i < 96 then v[i] else 0
def Lanes.zero : Lanes := Vector.replicate 96 0
def Lanes.splat (w : Word) : Lanes := Vector.replicate 96 w
/-- v with lane i replaced. -/
def Lanes.put (v : Lanes) (i : Nat) (w : Word) : Lanes := if h : i < 96 then v.set i w else v

end Sys2Proof

namespace Sys2Proof.Machine

/-! ## Tables -/

/-- The entry of unit k, or its reset record d. -/
def tget {α : Type} (d : α) (k : Nat) : Table α → α
  | [] => d
  | (j, x) :: t => if j == k then x else tget d k t

/-- The table with unit k's entry replaced, keys rising. -/
def tset {α : Type} (k : Nat) (x : α) : Table α → Table α
  | [] => [(k, x)]
  | (j, y) :: t => if j == k then (k, x) :: t else if k < j then (k, x) :: (j, y) :: t else (j, y) :: tset k x t

/-- List update at an index. -/
def listSet {α : Type} (l : List α) (n : Nat) (x : α) : List α := l.set n x

def State.core (s : State) (k : Nat) : Core := tget (Core.reset k) k s.cores
def State.setCore (s : State) (k : Nat) (c : Core) : State := { s with cores := tset k c s.cores }
def State.modCore (s : State) (k : Nat) (f : Core → Core) : State := s.setCore k (f (s.core k))
def State.cluster (s : State) (k : Nat) : Cluster := tget Cluster.reset k s.clusters
def State.setCluster (s : State) (k : Nat) (c : Cluster) : State := { s with clusters := tset k c s.clusters }
def State.modCluster (s : State) (k : Nat) (f : Cluster → Cluster) : State := s.setCluster k (f (s.cluster k))
def State.vault (s : State) (k : Nat) : Vault := tget Vault.reset k s.vaults
def State.setVault (s : State) (k : Nat) (v : Vault) : State := { s with vaults := tset k v s.vaults }
def State.modVault (s : State) (k : Nat) (f : Vault → Vault) : State := s.setVault k (f (s.vault k))
def State.tenant (s : State) (k : Nat) : Tenant := tget Tenant.reset k s.tenants
def State.setTenant (s : State) (k : Nat) (t : Tenant) : State := { s with tenants := tset k t s.tenants }
def State.modTenant (s : State) (k : Nat) (f : Tenant → Tenant) : State := s.setTenant k (f (s.tenant k))
def State.fifo (s : State) (k : Nat) : Fifos := tget Fifos.empty k s.fifos
def State.setFifo (s : State) (k : Nat) (f : Fifos) : State := { s with fifos := tset k f s.fifos }
def State.die (s : State) (k : Nat) : DiePower := tget .powered k s.dies
def State.setDie (s : State) (k : Nat) (d : DiePower) : State := { s with dies := tset k d s.dies }

/-! ## Numbering of the units (R6) -/

/-- The cluster, as a package number die × 8 + cluster, of a core. -/
def clusterOf (core : Nat) : Nat := core / 8
/-- The die of a core. -/
def dieOf (core : Nat) : Nat := core / 64
/-- The package number of a core's own vault. -/
def vaultOf (core : Nat) : Nat := core / 128 * 64 + core % 64
/-- The upper and the lower core below a vault. -/
def upperCore (vault : Nat) : Nat := (vault / 64 * 2 + 1) * 64 + vault % 64
def lowerCore (vault : Nat) : Nat := vault / 64 * 2 * 64 + vault % 64
/-- Whether a core lies on an upper die. -/
def isUpper (core : Nat) : Bool := dieOf core % 2 == 1
/-- The eight cores of a cluster. -/
def coresOf (cluster : Nat) : List Nat := (List.range 8).map (cluster * 8 + ·)
/-- The partition of a core, if its cluster belongs to one (R373). -/
def State.partOf (s : State) (core : Nat) : Option Nat := ((s.cluster (clusterOf core)).part).map (·.toNat)
/-- Whether a core belongs to the tenant's partition. -/
def State.inPart (s : State) (tenant core : Nat) : Bool := core < 512 && s.partOf core == some tenant
/-- The clusters of a partition, by ascending number. -/
def State.partClusters (s : State) (tenant : Nat) : List Nat :=
  (List.range 64).filter fun c => (s.cluster c).part.map (·.toNat) == some tenant
/-- The cores of a partition, by ascending number. -/
def State.partCores (s : State) (tenant : Nat) : List Nat := (s.partClusters tenant).flatMap coresOf

/-! ## Plies -/

def Ply.path (p : Ply) (k : Nat) : Path := if k == 0 then p.path0 else p.path1
def Ply.setPath (p : Ply) (k : Nat) (q : Path) : Ply := if k == 0 then { p with path0 := q } else { p with path1 := q }
/-- The path that issues. -/
def Ply.cur (p : Ply) : Path := p.path p.slot
def Ply.setCur (p : Ply) (q : Path) : Ply := p.setPath p.slot q
def Path.isFree (q : Path) : Bool := q.member == 0
def Ply.resident (p : Ply) : Bool := p.uid != 0
/-- Every resident ply. -/
def State.all (s : State) : List Ply := (if s.ply.resident then [s.ply] else []) ++ s.plies
/-- The resident plies of a core. -/
def State.onCore (s : State) (core : Nat) : List Ply := s.all.filter fun p => p.core == core && !p.management
/-- The resident ply of that name. -/
def State.find (s : State) (uid : Nat) : Option Ply := s.all.find? fun p => p.uid == uid
/-- The resident ply of that name, or no ply. -/
def State.plyOf (s : State) (uid : Nat) : Ply := (s.find uid).getD Ply.vacant
/-- Changes the resident ply of that name. -/
def State.modPly (s : State) (uid : Nat) (f : Ply → Ply) : State :=
  if s.ply.uid == uid then { s with ply := f s.ply }
  else { s with plies := s.plies.map fun p => if p.uid == uid then f p else p }
/-- Changes a ply wherever it stands: resident, saved, or retired with work still on its way. -/
def State.modAny (s : State) (uid : Nat) (f : Ply → Ply) : State :=
  let s := s.modPly uid f
  { s with
    saved := s.saved.map fun v => if v.ply.uid == uid then { v with ply := f v.ply } else v
    ghosts := s.ghosts.map fun p => if p.uid == uid then f p else p }
/-- Every ply: resident, saved, or retired with work still on its way. -/
def State.everyPly (s : State) : List Ply := s.all ++ s.saved.map (·.ply) ++ s.ghosts
/-- A ply wherever it stands. -/
def State.anyPly (s : State) (uid : Nat) : Option Ply := s.everyPly.find? fun p => p.uid == uid
def Ply.setCnt (p : Ply) (c : Nat) (x : BitVec 16) : Ply := { p with cnt := p.cnt.setIfInBounds c x }

/-- Gives the next issue number. -/
def State.fresh (s : State) : Nat × State := (s.seq + 1, { s with seq := s.seq + 1 })
/-- ptime as a number. -/
def State.now (s : State) : Nat := s.ptime.toNat
/-- The n-th free choice of this step. -/
def State.choose (s : State) (n : Nat) : Bool := Config.choice s.tick n

/-! ## Numbers and bytes -/

/-- Sign-extension of a field to an integer. -/
def sx {w : Nat} (x : BitVec w) : Int := x.toInt
/-- An integer modulo 2^64. -/
def dword (n : Int) : DWord := BitVec.ofInt 64 n
/-- An integer modulo 2^32. -/
def word (n : Int) : Word := BitVec.ofInt 32 n
/-- Two words as a 64-bit value, low word first (R112). -/
def pair (lo hi : Word) : DWord := hi ++ lo
def loWord (x : DWord) : Word := x.truncate 32
def hiWord (x : DWord) : Word := (x >>> 32).truncate 32
/-- A little-endian list of bytes as a number (R7). -/
def leNat : List Byte → Nat
  | [] => 0
  | b :: bs => b.toNat + 256 * leNat bs
/-- A number as n little-endian bytes. -/
def leBytes : Nat → Nat → List Byte
  | 0, _ => []
  | n + 1, x => BitVec.ofNat 8 x :: leBytes n (x / 256)
def wordBytes (w : Word) : List Byte := leBytes 4 w.toNat
def dwordBytes (w : DWord) : List Byte := leBytes 8 w.toNat
def bytesWord (l : List Byte) : Word := BitVec.ofNat 32 (leNat l)
def maskBytes (m : Mask) : List Byte := leBytes 12 m.toNat
/-- n bytes of l from offset o. -/
def slice (l : List Byte) (o n : Nat) : List Byte := (l.drop o).take n
/-- The number in n bytes of l from offset o. -/
def num (l : List Byte) (o n : Nat) : Nat := leNat (slice l o n)
/-- A PC is a 60-bit address of a word (R72) (log 28). -/
def pc60 (x : DWord) : DWord := x &&& 0x0FFFFFFFFFFFFFFC
/-- Bits [hi:lo] of a number. -/
def bits (x hi lo : Nat) : Nat := x / 2 ^ lo % 2 ^ (hi + 1 - lo)
/-- n zero bytes. -/
def zeros (n : Nat) : List Byte := List.replicate n 0

end Sys2Proof.Machine
end

