-- ==== Sys2Proof/Machine/Memory.lean ====
section
/-!
DEFINITION. Memory: bytes, translation (spec/19 R376), leases and pending stores (spec/08 R175, spec/15 R302 to R304,
spec/16 R325 to R329), what an observer reads (R115, R176), local buffers, failing granules (R351).
-/
namespace Sys2Proof.Machine

/-- A cause as it is raised: code, sub-code, detail, %eaddr, lane (R169). -/
structure Cause where
  code   : Nat
  sub    : Nat
  detail : Nat
  addr   : DWord
  lane   : Nat
  /-- Whether the cause's entry states an address; otherwise %eaddr takes a free value (log 15). -/
  given  : Bool
  deriving DecidableEq, Repr

/-- %ecause of a cause (R165). -/
def Cause.word (c : Cause) : Word := BitVec.ofNat 32 (c.detail * 65536 + c.sub * 256 + c.code)

def cause (code sub : Nat) (addr : DWord) (lane : Nat := 127) : Cause := ⟨code, sub, 0, addr, lane, true⟩
def align (addr : DWord) (lane : Nat := 127) : Cause := cause 0x08 0 addr lane
def noncanon (addr : DWord) (lane : Nat := 127) : Cause := cause 0x09 0 addr lane
def localRange (sub : Nat) (addr : DWord) (lane : Nat := 127) : Cause := cause 0x0C sub addr lane
/-- ENGINE: some entries state no address. -/
def engine (sub : Nat) (addr : Option DWord := none) (lane : Nat := 127) : Cause :=
  ⟨0x0E, sub, 0, addr.getD 0, lane, addr.isSome⟩

/-! ## Bytes in canonical form -/

/-- The canonical form: addresses strictly rising from lo, and no byte equal to zero, what an unlisted address reads as. -/
def Memory.wfFrom : Nat → Memory → Bool
  | _, [] => true
  | lo, (a, b) :: m => decide (lo ≤ a) && b != 0 && wfFrom (a + 1) m
def Memory.wf (m : Memory) : Bool := Memory.wfFrom 0 m

/-- What address a reads as; an unlisted address reads as zero (log 5). -/
def Memory.read : Memory → Nat → Byte
  | [], _ => 0
  | (k, b) :: m, a => if k == a then b else if a < k then 0 else Memory.read m a

/-- Writes one byte, keeping the canonical form. -/
def Memory.write : Memory → Nat → Byte → Memory
  | [], a, b => if b == 0 then [] else [(a, b)]
  | (k, c) :: m, a, b =>
    if k == a then (if b == 0 then m else (a, b) :: m)
    else if a < k then (if b == 0 then (k, c) :: m else (a, b) :: (k, c) :: m)
    else (k, c) :: Memory.write m a b

/-- The part of a memory from address a on. -/
def Memory.above : Memory → Nat → Memory
  | [], _ => []
  | (k, b) :: m, a => if k < a then Memory.above m a else (k, b) :: m

/-- n bytes from address a, of a memory that begins at or after a. -/
def Memory.front : Memory → Nat → Nat → List Byte
  | _, _, 0 => []
  | [], a, n + 1 => 0 :: Memory.front [] (a + 1) n
  | (k, b) :: m, a, n + 1 => if k == a then b :: Memory.front m (a + 1) n else 0 :: Memory.front ((k, b) :: m) (a + 1) n
/-- n bytes from address a. -/
def Memory.readN (m : Memory) (a n : Nat) : List Byte := (m.above a).front a n

/-- Lays bytes from address a over a memory that begins at or after a. -/
def Memory.lay : List Byte → Nat → Memory → Memory
  | [], _, m => m
  | b :: bs, a, m =>
    let rest := Memory.lay bs (a + 1) (m.above (a + 1))
    if b == 0 then rest else (a, b) :: rest
/-- Writes a list of bytes from address a, keeping the canonical form. -/
def Memory.writeN : Memory → Nat → List Byte → Memory
  | [], a, bs => Memory.lay bs a []
  | (k, c) :: m, a, bs => if k < a then (k, c) :: Memory.writeN m a bs else Memory.lay bs a ((k, c) :: m)

/-! ## Physical memory as its observers see it -/

def lineOf (pa : Nat) : Nat := pa / 128
/-- The package vault of a physical address (R324). -/
def vaultOfPa (pa : Nat) : Nat := pa / 0x60000000
/-- Physical addresses end here (R376). -/
def paEnd : Nat := 0x6000000000
/-- No core: the hub, a walker, a home. -/
def noCore : Nat := 512

/-- Whether a pending store is performed as a core sees it: its own core's stores at once (R176), its cluster's from the
cluster completion time (R303), every store from its completion time (R326). -/
def PendingStore.visible (p : PendingStore) (core now : Nat) : Bool :=
  p.core == core && core != noCore || decide (p.time ≤ now) || (p.cluster == clusterOf core && decide (p.ctime ≤ now))

/-- The byte that a store supplies for address pa, or the value d below it. -/
def overlay (base : Nat) (data : List Byte) (pa : Nat) (d : Byte) : Byte :=
  if base ≤ pa then (data[pa - base]?).getD d else d

/-- The byte that a core reads at physical address pa: DRAM with the stores performed for it laid over in home order. -/
def State.seen (s : State) (core pa : Nat) : Byte :=
  s.stores.foldl (fun b p => if p.visible core s.now then overlay p.pa p.data pa b else b) (s.mem.read pa)

/-- The byte that the home's atomic unit takes (R334, R335): of the stores on their way, those that are performed there and its
own, which it sees at once. -/
def State.atHome (s : State) (pa : Nat) : Byte :=
  s.stores.foldl (fun b p => if p.byUnit || decide (p.time ≤ s.now) then overlay p.pa p.data pa b else b) (s.mem.read pa)
/-- The stores that arrived behind those of before are of the home's atomic unit. -/
def State.fromUnit (s before : State) : State :=
  let n := before.stores.length
  { s with stores := s.stores.take n ++ (s.stores.drop n).map fun (q : PendingStore) => { q with byUnit := true } }

/-- n bytes as a core sees them. -/
def State.seenN (s : State) (core pa n : Nat) : List Byte :=
  let past := s.stores.filter fun p => p.visible core s.now && decide (p.pa < pa + n) && decide (pa < p.pa + p.data.length)
  let base := s.mem.readN pa n
  if past.isEmpty then base
  else base.zipIdx.map fun (b, i) => past.foldl (fun b p => overlay p.pa p.data (pa + i) b) b
/-- n bytes at package scope, as the hub and the walkers read them. -/
def State.phys (s : State) (pa n : Nat) : List Byte := s.seenN noCore pa n

/-- Whether an access of n bytes meets a failing granule (R351) or the range of a retired vault (R389). -/
def State.bad (s : State) (pa n : Nat) : Bool :=
  (!s.failing.isEmpty && s.failing.any fun g => decide (g < pa + n) && decide (pa < g + 8)) ||
  (s.vault (vaultOfPa pa)).retired
/-- The lowest failing granule of an access, or the access's own first granule. -/
def State.granule (s : State) (pa n : Nat) : Nat :=
  match s.failing.filter fun g => decide (g < pa + n) && decide (pa < g + 8) with
  | [] => pa / 8 * 8
  | g :: l => l.foldl min g

/-! ## Leases -/

def leaseEnd (l : List Lease) (unit line : Nat) : Nat :=
  match l.find? fun e => e.unit == unit && e.line == line with
  | some e => e.until'
  | none => 0
def setLease (l : List Lease) (unit line until' : Nat) : List Lease :=
  ⟨unit, line, until'⟩ :: l.filter fun e => !(e.unit == unit && e.line == line)
/-- The latest L1 lease on a line granted in a cluster, as the L2 keeps it (R302, R303): under the unit 512 + cluster. -/
def latestL1 (l : List Lease) (cluster line : Nat) : Nat := leaseEnd l (512 + cluster) line

/-- Counts in the vault of a line what a read or store of the tenant costs (R328, R329). -/
def Vault.count (v : Vault) (tenant : Nat) (f s w : Nat) : Vault :=
  let (a, b, c) := tget (0, 0, 0) tenant v.counts
  { v with counts := tset tenant (a + BitVec.ofNat 64 f, b + BitVec.ofNat 64 s, c + BitVec.ofNat 64 w) v.counts }
/-- The line of a vault cache, if it is there. -/
def Vault.cached (v : Vault) (line : Nat) : Option CacheLine := v.cache.find? fun c => c.line == line

/-! ## The vault cache (R328, R329) -/

/-- The 16 ways of each of the 1,024 sets of the 2 MiB vault cache: the set of a line (R3, R328) (log 36). -/
def setOf (line : Nat) : Nat := line % 1024
/-- The lease summary of a line (R325): exact where its vault cache holds it, else the horizon of its 4 KiB. -/
def State.summary (s : State) (line : Nat) : Nat :=
  if ((s.vault (vaultOfPa (line * 128))).cached line).isSome then leaseEnd s.homeLeases 0 line
  else leaseEnd s.homeLeases 1 (line / 32)
/-- A line leaves its vault cache: a dirty one is written to DRAM and charged to the tenant that turned it dirty (R329); what was
granted on it enters the horizon of its 4 KiB (R325). -/
def State.evictLine (s : State) (c : CacheLine) : State :=
  let h := max (leaseEnd s.homeLeases 0 c.line) (leaseEnd s.homeLeases 1 (c.line / 32))
  let s := s.modVault (vaultOfPa (c.line * 128)) fun v =>
    let v := { v with cache := v.cache.filter fun d => d.line != c.line }
    if c.dirty then v.count c.owner 0 0 1 else v
  { s with homeLeases := setLease s.homeLeases 1 (c.line / 32) h }
/-- Room for a line in its set: where the 16 ways are full, a line that a free value takes leaves. -/
def State.makeRoom (s : State) (line : Nat) : State :=
  let set := (s.vault (vaultOfPa (line * 128))).cache.filter fun c => setOf c.line == setOf line
  if set.length < 16 then s
  else
    match set[Config.rank s.tick (500 + line) % set.length]? with
    | some c => s.evictLine c
    | none => s
/-- A line is read from DRAM on a tenant's request, and allocated where its access allocates (R328, R329). -/
def State.fillLine (s : State) (tenant line : Nat) (allocate : Bool) : State :=
  let v := vaultOfPa (line * 128)
  if allocate then
    (s.makeRoom line).modVault v fun u =>
      let u := u.count tenant 1 0 0
      { u with cache := { line := line, dirty := false, owner := tenant, filler := tenant } :: u.cache }
  else s.modVault v fun u => u.count tenant 1 0 0
/-- A hit is counted where another tenant was charged for the line's fill (R329). -/
def State.hitLine (s : State) (tenant : Nat) (c : CacheLine) : State :=
  if c.filler == tenant then s else s.modVault (vaultOfPa (c.line * 128)) fun u => u.count tenant 0 1 0

/-- A read served by the home through its vault cache (R328): policy 2 does not allocate. -/
def State.homeRead (s : State) (tenant line policy : Nat) : State :=
  match (s.vault (vaultOfPa (line * 128))).cached line with
  | some c => s.hitLine tenant c
  | none => s.fillLine tenant line (policy != 2)
/-- A line that is present is dirty from a tenant's store on (R328, R329). -/
def State.dirtyLine (s : State) (tenant line : Nat) : State :=
  s.modVault (vaultOfPa (line * 128)) fun v =>
    { v with cache := v.cache.map fun c => if c.line == line && !c.dirty then { c with dirty := true, owner := tenant } else c }
/-- A store performed by the home through its vault cache (R328): policies 1 and 2 do not allocate. -/
def State.homeStore (s : State) (tenant line policy : Nat) : State :=
  match (s.vault (vaultOfPa (line * 128))).cached line with
  | some c => (s.hitLine tenant c).dirtyLine tenant line
  | none => if policy == 1 || policy == 2 then s else (s.fillLine tenant line true).dirtyLine tenant line
/-- An atomic performed by the home: one access, which reads the line and then writes it (R328, R335). -/
def State.homeAtomic (s : State) (tenant line policy : Nat) : State :=
  (s.homeRead tenant line policy).dirtyLine tenant line

/-! ## Leases that are granted (R175, R302, R325) -/

/-- The L2 of a cluster takes a lease on a line from the home, where it holds none: the smaller of its request and 4,096 ns, cut
where a store to the line waits (R302, R325). -/
def State.takeL2 (s : State) (tenant cluster policy line : Nat) : State :=
  if s.now < leaseEnd s.l2Leases cluster line then s
  else
    let due := s.stores.foldl (fun m p => if lineOf p.pa == line && decide (s.now < p.time) then min m p.time else m) (s.now + 4096)
    let e := min due (s.now + min (s.cluster cluster).l2lease.toNat 4096)
    let s := s.homeRead tenant line policy
    { s with
      l2Leases := setLease s.l2Leases cluster line e
      homeLeases := setLease s.homeLeases 0 line (max e (leaseEnd s.homeLeases 0 line)) }
/-- The leases that a read of a line by a core takes, under its cache policy (R178). -/
def State.takeLease (s : State) (tenant core policy line : Nat) : State :=
  let cl := clusterOf core
  if policy == 2 then s.homeRead tenant line policy
  else if s.now < leaseEnd s.l1Leases core line then s
  else
    let s := s.takeL2 tenant cl policy line
    if policy == 1 then s
    else
      let due := s.stores.foldl (fun m p =>
        if lineOf p.pa == line && p.cluster == cl && decide (s.now < p.ctime) then min m p.ctime else m) (leaseEnd s.l2Leases cl line)
      let e := min due (s.now + (s.cluster cl).lease.toNat)
      { s with l1Leases := setLease (setLease s.l1Leases core line e) (512 + cl) line (max e (latestL1 s.l1Leases cl line)) }

/-- The leases of a read of several addresses. -/
def State.takeLeases (s : State) (tenant core policy : Nat) (pas : List Nat) : State :=
  ((pas.map lineOf).eraseDups).foldl (fun s l => s.takeLease tenant core policy l) s

/-! ## Stores on their way to completion -/

/-- A store of at most one line reaches its home (R303, R326, R327): its completion time is never before that of an
earlier store of the line, nor before floor. core sees it at once and cluster at its cluster completion time: noCore and
64 for a store that is made at the home. A store that misses in the L2 requests a fill of the line, under policies 0 and 3 (R301)
(log 36). -/
def State.arriveAs (s : State) (uid core cluster tenant policy floor : Nat) (scopes : List (BitVec 24)) (pa : Nat)
    (data : List Byte) (charged : Bool := true) : State :=
  let line := lineOf pa
  let last := s.stores.foldl (fun m p => if lineOf p.pa == line then max m p.time else m) 0
  let c := max (max (max s.now floor) (s.summary line) + 4) last
  let ct := if cluster == 64 then c else min c (max (max s.now floor) (latestL1 s.l1Leases cluster line) + 4)
  let (n, s) := s.fresh
  let s := if charged then s.homeStore tenant line policy else s
  let p : PendingStore := ⟨n, uid, n, core, cluster, tenant, pa, data, ct, c, false, policy, false, scopes⟩
  let s := { s with stores := s.stores ++ [p] }
  let s := if cluster < 64 && (policy == 0 || policy == 3) then s.takeL2 tenant cluster policy line else s
  if uid == 0 then s
  else s.modAny uid fun p => { p with pgw := BitVec.ofNat 64 (max p.pgw.toNat c), cgw := max p.cgw ct }
/-- The stores that arrived since the issue number of before carry the issue number of their instruction (R254). -/
def State.stamp (s before : State) (seq : Nat) : State :=
  { s with stores := s.stores.map fun (q : PendingStore) => if before.seq < q.seq then { q with issued := seq } else q }
/-- A store of a core reaches its home. -/
def State.arrive (s : State) (uid core tenant policy floor : Nat) (scopes : List (BitVec 24)) (pa : Nat)
    (data : List Byte) : State := s.arriveAs uid core (clusterOf core) tenant policy floor scopes pa data

/-- Cuts bytes at line boundaries. -/
def cutLines (fuel pa : Nat) (data : List Byte) : List (Nat × List Byte) :=
  match fuel with
  | 0 => []
  | n + 1 =>
    let k := 128 - pa % 128
    if data.isEmpty then [] else if data.length ≤ k then [(pa, data)] else (pa, data.take k) :: cutLines n (pa + k) (data.drop k)

/-- A store of any length reaches its homes. -/
def State.arriveN (s : State) (uid core tenant policy floor : Nat) (scopes : List (BitVec 24)) (pa : Nat)
    (data : List Byte) : State :=
  (cutLines (data.length + 1) pa data).foldl (fun s (a, d) => s.arrive uid core tenant policy floor scopes a d) s

/-- A store that writes all 8 bytes of a failing granule clears it (R351). -/
def clearFailing (failing : List Nat) (pa n : Nat) : List Nat :=
  failing.filter fun g => !(decide (pa ≤ g) && decide (g + 8 ≤ pa + n))

/-- The bytes that a merge changes, for the fetches of runs that are open (R73) and the MMAs that have not executed (R213). -/
def State.changed (s : State) (p : PendingStore) : List (Nat × Nat × Byte) :=
  let since := (s.all.filter (·.running)).map (·.runSince) ++
    s.cores.flatMap fun (_, (c : Core)) => c.mtxq.map (·.issuedAt)
  if since.isEmpty then []
  else
    let first := since.foldl min s.now
    let new := (List.range p.data.length).filterMap fun i =>
      let old := s.mem.read (p.pa + i)
      if p.data[i]? == some old then none else some (p.time, p.pa + i, old)
    new ++ s.recent.filter fun (t, _, _) => decide (first < t)
/-- The latest completion time of the stores made since an issue number. -/
def State.latestSince (s : State) (seq : Nat) : Nat := s.stores.foldl (fun m p => if seq < p.seq then max m p.time else m) s.now
/-- A pending store is merged at its completion time (R326). -/
def State.merge (s : State) (p : PendingStore) : State :=
  { s with
    recent := s.changed p
    mem := s.mem.writeN p.pa p.data
    failing := clearFailing s.failing p.pa p.data.length
    stores := s.stores.filter fun q => q.seq != p.seq }

/-- Lays a byte over the word at a physical address. -/
def putByteAt (pa : Nat) (w : Word) (a : Nat) (b : Byte) : Word :=
  let sh := 8 * (a - pa)
  (w &&& ~~~((0xFF : Word) <<< sh)) ||| ((b.zeroExtend 32 : Word) <<< sh)
/-- The word that an open run fetches at a physical address (R73): as the stores performed when the run began have left it, or
as it is after any of those whose completion times come later, a store that is still on its way among them. A failing granule is read as it stands (log 37). -/
def State.fetchWord (s : State) (pa : Nat) : Word :=
  let w := bytesWord (s.phys pa 4)
  let late := s.recent.filter fun (t, a, _) => decide (s.ply.runSince < t) && decide (pa ≤ a) && decide (a < pa + 4)
  let times := (late.map (·.1)).eraseDups
  let coming := s.stores.filter fun p => decide (s.now < p.time) && decide (p.pa < pa + 4) && decide (pa < p.pa + p.data.length)
  let k := Config.rank s.tick 200 % (times.length + coming.length + 1)
  -- the common case, which evaluates without the free value
  if late.isEmpty && coming.isEmpty then w
  else if k < times.length then
    (late.filter fun (t, _, _) => (times.take (k + 1)).contains t).foldl (fun w (_, a, b) => putByteAt pa w a b) w
  else
    (coming.take (k - times.length)).foldl (fun w p => (List.range 4).foldl (fun w i =>
      if p.pa ≤ pa + i then (match p.data[pa + i - p.pa]? with
        | some b => putByteAt pa w (pa + i) b
        | none => w) else w) w) w

/-- Whether a ply's stores are all performed at package scope and ptime has reached their completion times. -/
def State.storesDone (s : State) (uid : Nat) : Bool := s.stores.all fun p => p.uid != uid || decide (p.time ≤ s.now)

/-! ## Translation -/

/-- Page size by the level of its leaf (R376). -/
def pageSize (level : Nat) : Nat := if level == 1 then 2 ^ 38 else if level == 2 then 2 ^ 27 else 2 ^ 16
/-- Index into the table of a level (R376). -/
def walkIndex (va level : Nat) : Nat := va / 2 ^ (49 - 11 * level) % 2048

/-- A walk from a table of a level (R376): the leaf's level, page address and permissions (x, w, r from bit 2), or the
level at which it stops; 4 says that it met the range of a retired vault (R389). -/
def State.walk (s : State) (va : Nat) : (fuel level table : Nat) → Except Nat TlbEntry
  | 0, level, _ => .error level
  | fuel + 1, level, table =>
    let at' := table + 8 * walkIndex va level
    if at' + 8 > paEnd then .error level
    else
      if (s.vault (vaultOfPa at')).retired then .error 4
      else
      let e := leNat (s.phys at' 8)
      let addr := bits e 51 14 * 2 ^ 14
      let leaf := bits e 2 2 == 1
      let perms := bits e 5 3
      if bits e 0 0 == 0 || bits e 63 52 != 0 || bits e 13 6 != 0 || bits e 1 1 != 0 then .error level
      else if leaf then
        if level == 0 || addr % pageSize level != 0 || decide (paEnd ≤ addr + va % pageSize level) then .error level
        else .ok ⟨0, va / pageSize level, level, addr, BitVec.ofNat 3 perms⟩
      else if level == 3 || perms != 0 || decide (paEnd ≤ addr) then .error level
      else State.walk s va fuel (level + 1) addr

/-- The lines of the entries that a walk reads. -/
def State.walkLines (s : State) (va : Nat) : (fuel level table : Nat) → List Nat
  | 0, _, _ => []
  | fuel + 1, level, table =>
    let at' := table + 8 * walkIndex va level
    if at' + 8 > paEnd then []
    else
      let e := leNat (s.phys at' 8)
      if level == 3 || bits e 0 0 == 0 || bits e 2 2 == 1 then [lineOf at']
      else lineOf at' :: State.walkLines s va fuel (level + 1) (bits e 51 14 * 2 ^ 14)

/-- The walk of a tenant's tables for a virtual address. -/
def State.walkTenant (s : State) (tenant va : Nat) : Except Nat TlbEntry :=
  match s.walk va 4 0 (s.tenant tenant).ptroot.toNat with
  | .ok e => .ok { e with tenant := tenant }
  | .error l => .error l

/-- The translation that a TLB of the partition holds for an address, if any (R179). -/
def State.held (s : State) (tenant va : Nat) : Option TlbEntry :=
  s.tlb.find? fun e => e.tenant == tenant && va / pageSize e.level == e.page

/-- The leaf that translates an address: the tables' own, or a held older one, freely, where they differ (R179). -/
def State.leafOf (s : State) (tenant va : Nat) : Except Nat TlbEntry :=
  match s.held tenant va with
  | none => s.walkTenant tenant va
  | some h =>
    match s.walkTenant tenant va with
    | .ok e => if e = h then .ok h else if s.choose 100 then .ok e else .ok h
    | .error l => if s.choose 100 then .error l else .ok h

/-- Read, write or execute: the permission bit and the sub-code of PROT (R179). -/
inductive Access where
  | read | write | execute
  deriving DecidableEq, Repr

def Access.code : Access → Nat
  | .read => 0
  | .write => 1
  | .execute => 2

/-- The physical base of a 64 KiB page, or code and sub-code of XLATE or PROT (R179), or of MEMERR (R389). -/
def State.page (s : State) (tenant : Nat) (acc : Access) (page : Nat) : Except (Nat × Nat) Nat :=
  match s.leafOf tenant (page * 65536) with
  | .error l => .error (if l < 4 then (0x0A, l) else (0x21, 0))
  | .ok e => if e.perms.getLsbD acc.code then .ok (e.base + page * 65536 % pageSize e.level) else .error (0x0B, acc.code)
/-- What translates an address: one page, or the pages of a set of addresses. -/
abbrev Pages := List (Nat × Except (Nat × Nat) Nat)
def State.pages (s : State) (tenant : Nat) (acc : Access) (vas : List DWord) : Pages :=
  ((vas.map fun a => a.toNat / 65536).eraseDups).map fun g => (g, s.page tenant acc g)

/-- The physical address of a canonical virtual address, or XLATE or PROT (R179) (log 90). -/
def Pages.translate (m : Pages) (va : DWord) (lane : Nat) : Except Cause Nat :=
  match m.lookup (va.toNat / 65536) with
  | some (.ok b) => .ok (b + va.toNat % 65536)
  | some (.error (c, u)) => .error (cause c u va lane)
  | none => .error (cause 0x0A 0 va lane)
def State.translate (s : State) (tenant : Nat) (acc : Access) (va : DWord) (lane : Nat := 127) : Except Cause Nat :=
  Pages.translate (s.pages tenant acc [va]) va lane

/-- The checks of one naturally aligned global access (R181): NONCANON, ALIGN, XLATE, PROT. -/
def Pages.check (m : Pages) (n : Nat) (va : DWord) (lane : Nat) : Except Cause Nat :=
  if va.toNat / 2 ^ 60 != 0 then .error (noncanon va lane)
  else if va.toNat % n != 0 then .error (align va lane)
  else m.translate va lane
def State.checkGlobal (s : State) (tenant : Nat) (acc : Access) (n : Nat) (va : DWord) (lane : Nat) : Except Cause Nat :=
  Pages.check (s.pages tenant acc [va]) n va lane

/-- A walk for an address that no TLB holds reads its entries through the vault cache, on the tenant's request (R329, R377). -/
def State.chargeWalk (s : State) (tenant va : Nat) : State :=
  (s.walkLines va 4 0 (s.tenant tenant).ptroot.toNat).foldl (fun s l => s.homeRead tenant l 0) s
/-- Keeps in the TLBs the translations that a set of addresses used (R179), and charges the walks, one for each page. -/
def State.fillTlb (s : State) (tenant : Nat) (vas : List DWord) : State :=
  ((vas.map fun va => va.toNat / 65536 * 65536).eraseDups).foldl (fun s va =>
    match s.held tenant va with
    | some _ => s
    | none =>
      match s.walkTenant tenant va with
      | .ok e => s.chargeWalk tenant va |> fun s => { s with tlb := e :: s.tlb }
      | .error _ => s.chargeWalk tenant va) s

/-- Cuts a range at 64 KiB boundaries: the pieces' addresses and lengths. -/
def cutPages (fuel : Nat) (va : DWord) (n : Nat) : List (DWord × Nat) :=
  match fuel with
  | 0 => []
  | f + 1 =>
    let k := 65536 - va.toNat % 65536
    if n == 0 then [] else if n ≤ k then [(va, n)] else (va, k) :: cutPages f (va + BitVec.ofNat 64 k) (n - k)

/-- The physical pieces of a virtual range, or the first fault in address order. -/
def State.range (s : State) (tenant : Nat) (acc : Access) (va : DWord) (n : Nat) (lane : Nat := 127) :
    Except Cause (List (Nat × Nat)) :=
  (cutPages (n / 65536 + 2) va n).foldl (fun r (a, k) =>
    match r with
    | .error c => .error c
    | .ok l =>
      if a.toNat / 2 ^ 60 != 0 then .error (noncanon a lane)
      else
        match s.translate tenant acc a lane with
        | .error c => .error c
        | .ok pa => .ok (l ++ [(pa, k)])) (.ok [])

/-- Bytes of a virtual range as a core sees them, or the first fault. -/
def State.readVirt (s : State) (core tenant : Nat) (va : DWord) (n : Nat) : Except Cause (List Byte) :=
  match s.range tenant .read va n with
  | .error c => .error c
  | .ok l => .ok (l.flatMap fun (pa, k) => s.seenN core pa k)

/-- The hub's read of a virtual range goes through the vault caches of its lines, on the tenant's request (R328, R329). -/
def State.hubReads (s : State) (tenant : Nat) (va : DWord) (n : Nat) : State :=
  match s.range tenant .read va n with
  | .error _ => s
  | .ok l =>
    ((l.flatMap fun (pa, k) => (List.range ((pa + k - 1) / 128 - pa / 128 + 1)).map (pa / 128 + ·)).eraseDups).foldl
      (fun s i => s.homeRead tenant i 0) s

/-- A store into a virtual range by a unit (hub or core) on its own behalf; a range that is not mapped writable takes
nothing (log 12). -/
def State.writeVirt (s : State) (uid core tenant : Nat) (va : DWord) (data : List Byte) : State :=
  match s.range tenant .write va data.length with
  | .error _ => s
  | .ok l =>
    (l.foldl (fun (s, d) (pa, k) => (s.arriveN uid core tenant 0 0 [] pa (d.take k), d.drop k)) (s, data)).1

/-! ## Local buffers -/

def spaceSize : Space → Nat
  | .xbuf => 0x200000
  | .wbuf => 0x200000
  | .sbuf => 0x20000
def Core.space (c : Core) : Space → Memory
  | .xbuf => c.xbuf
  | .wbuf => c.wbuf
  | .sbuf => c.sbuf
def Core.setSpace (c : Core) (sp : Space) (m : Memory) : Core :=
  match sp with
  | .xbuf => { c with xbuf := m }
  | .wbuf => { c with wbuf := m }
  | .sbuf => { c with sbuf := m }
/-- Bytes of a core's local space, as LDX sees them. -/
def State.localRead (s : State) (core : Nat) (sp : Space) (a n : Nat) : List Byte := ((s.core core).space sp).readN a n
/-- A write into a local space. -/
def State.localWrite (s : State) (core : Nat) (sp : Space) (a : Nat) (d : List Byte) : State :=
  s.modCore core fun c => c.setSpace sp ((c.space sp).writeN a d)

/-! ## Words that a reader may not see yet (R231, R232) -/

/-- Who reads or writes a local space beside the lanes of plies: an operation of an engine, by its issue number, its ply and its
class (R220), and the leaf that it credits. -/
structure EngineOp where
  seq  : Nat
  uid  : Nat
  cls  : Option Nat
  leaf : Option (Nat × Nat)
  deriving DecidableEq, Repr

/-- Whether the operation is a copy, or writes as copies do (R230, R399). -/
def EngineOp.copies (o : EngineOp) : Bool := o.cls == some 0 || o.cls == some 1 || o.cls == some 2

/-- The number of a free choice about a word: of what kind, after which write. -/
def wordKey (kind seq word : Nat) : Nat := (seq * 8 + kind + 1) * 2 ^ 64 + word

/-- The words of a core that some reader may still see as they were. -/
def State.stale (s : State) (core : Nat) : List OldWord := (s.onCore core).flatMap (·.stxOld) ++ (s.core core).unseen

/-- Whether an STX is hidden from nothing that follows its XFENCE in issue order, as an operation of that issue number does
(R196, R231). -/
def OldWord.fenced (w : OldWord) (seq : Nat) : Bool :=
  match w.fence with
  | some f => decide (f < seq)
  | none => false
/-- The write generation of a space (R211); SBUF is not cached. -/
def Core.generation (c : Core) : Space → BitVec 16
  | .xbuf => c.xgen
  | .wbuf => c.wgen
  | .sbuf => 0
/-- Whether the operand cache may still hold an old word for the matrix engine (R211, R212): of an STX without an XFENCE
between, of a copy until it retires; the writes of the path units and of commits invalidate it at once, SBUF is not cached, and no
entry of an older generation hits. A write made after the MMA issued may be missed in any case (R213). -/
def State.cachedOld (s : State) (core : Nat) (o : EngineOp) (w : OldWord) : Bool :=
  decide (o.seq ≤ w.issued) ||
    (w.gen == (s.core core).generation w.space &&
      match w.cls with
      | none => true
      | some 3 => false
      | some _ => w.space != .sbuf && s.counted.any fun c => c.seq == w.seq)
/-- Whether an operation of an engine may read the word as it was: the matrix engine, which has no class, by its operand cache;
the others where an STX has no XFENCE between (R231), or a write of another operation no WAITC that has found it, but for the path
units' own, which are made in their order (R293). -/
def State.hides (s : State) (core : Nat) (o : EngineOp) (w : OldWord) : Bool :=
  !w.fenced o.seq &&
    match o.cls, w.cls with
    | none, _ => s.cachedOld core o w
    | some _, none => true
    | some c, some 3 => c != 3
    | some _, some _ => w.seq != o.seq
/-- Whether the last value of the word is open when an operation writes it: an STX performed after the copy issued (R231), or
another ply's copy that has not retired (R232). -/
def State.contests (s : State) (o : EngineOp) (w : OldWord) : Bool :=
  o.copies && match w.cls with
    | none => decide (o.seq < w.issued) && !w.fenced o.seq
    | some c => decide (c < 2) && o.cls != some 2 && w.uid != o.uid && s.counted.any fun x => x.seq == w.seq
/-- Whether the last value of the word is open when an STX writes it: a copy that no WAITC has found wrote it (R231). -/
def OldWord.contestsStx (w : OldWord) : Bool := w.cls == some 0 || w.cls == some 1 || w.cls == some 2

/-- Of the records of a word, each write's oldest: what the word was before all of it. -/
def firstRecords (l : List OldWord) : List OldWord :=
  l.foldr (fun w r => if r.any fun x => x.seq == w.seq then r else w :: r) []

/-- Bytes of a local space as a reader sees them: each aligned word, or pair of words that one access wrote, is, independently, as
it is or as it was before some write that the reader may not see. -/
def State.mixWords (s : State) (kind : Nat) (sp : Space) (a : Nat) (now : List Byte) (old : List OldWord) : List Byte :=
  if old.isEmpty then now
  else now.zipIdx.map fun (b, i) =>
    let k := (a + i) / 4
    match (firstRecords (old.filter fun w => w.space == sp && w.word == k)).find? fun w =>
        s.choose (wordKey kind w.seq (if w.pair then k / 2 * 2 else k)) with
    | some w => (w.before[(a + i) % 4]?).getD b
    | none => b

/-- Bytes of a local space as an operation of an engine reads them (R212, R231). -/
def State.engineRead (s : State) (o : EngineOp) (core : Nat) (sp : Space) (a n : Nat) : List Byte :=
  s.mixWords 0 sp a (s.localRead core sp a n) ((s.stale core).filter (s.hides core o))
/-- Bytes of a local space as LDX sees them: a write of an engine that no WAITC has found is seen word by word or not
(R231). -/
def State.localSeen (s : State) (core : Nat) (sp : Space) (a n : Nat) : List Byte :=
  s.mixWords 1 sp a (s.localRead core sp a n) (s.core core).unseen

/-- The words that n bytes from a lie in. -/
def wordsOf (a n : Nat) : List Nat := if n == 0 then [] else (List.range ((a + n - 1) / 4 - a / 4 + 1)).map (a / 4 + ·)
/-- A record of a word after bytes d were written at a for every reader. -/
def OldWord.patch (w : OldWord) (sp : Space) (a : Nat) (d : List Byte) : OldWord :=
  if w.space == sp && (wordsOf a d.length).contains w.word then
    { w with before := w.before.zipIdx.map fun (b, i) =>
        let k := 4 * w.word + i
        if a ≤ k then (d[k - a]?).getD b else b }
  else w
/-- Writes bytes into a local space but for the words that are lost. -/
def State.writeKept (s : State) (core : Nat) (sp : Space) (a : Nat) (d : List Byte) (lost : Nat → Bool) : State :=
  if (wordsOf a d.length).any lost then
    d.zipIdx.foldl (fun s (b, i) => if lost ((a + i) / 4) then s else s.localWrite core sp (a + i) [b]) s
  else s.localWrite core sp a d
/-- The records that a write makes of the words it is about to change; pair says that it writes 8 bytes as one access. -/
def State.recordsOf (s : State) (o : EngineOp) (core : Nat) (sp : Space) (a n : Nat) (pair : Bool := false) : List OldWord :=
  (wordsOf a n).map fun k => ⟨sp, k, s.localRead core sp (4 * k) 4, o.seq, o.uid, o.cls, s.seq, none, o.leaf, pair,
    (s.core core).generation sp⟩

/-- The records of the STX of a core's plies after bytes were written there for every reader. -/
def State.patchStx (s : State) (core : Nat) (sp : Space) (a : Nat) (d : List Byte) : State :=
  let f := fun (p : Ply) => if p.core == core then { p with stxOld := p.stxOld.map fun w => w.patch sp a d } else p
  { s with ply := f s.ply, plies := s.plies.map f }

/-- An operation of an engine writes a local space: the other engines see it (R212); LDX, where WAITC awaits it, may not yet
(R231); a word whose last value is open is freely written or not. -/
def State.engineWrite (s : State) (o : EngineOp) (core : Nat) (sp : Space) (a : Nat) (d : List Byte) (pair : Bool := false) : State :=
  let old := s.stale core
  let lost (k : Nat) : Bool := old.any fun w => w.space == sp && w.word == k && s.contests o w && s.choose (wordKey 2 o.seq k)
  let t := s.writeKept core sp a d lost
  let t := if old.isEmpty then t else t.patchStx core sp a d
  if o.cls.isSome then t.modCore core fun c => { c with unseen := s.recordsOf o core sp a d.length pair ++ c.unseen } else t

/-- An STX of a ply writes the XBUF (R185): the engines may see the words as they were; a word that a copy wrote which no WAITC
has found is freely written or not (R231). -/
def State.stxWrite (s : State) (uid seq core a : Nat) (d : List Byte) : State :=
  let un := (s.core core).unseen
  let lost (k : Nat) : Bool := un.any fun w => w.space == .xbuf && w.word == k && w.contestsStx && s.choose (wordKey 3 seq k)
  let old := s.recordsOf ⟨seq, uid, none, none⟩ core .xbuf a d.length
  let t := s.writeKept core .xbuf a d lost
  let t := if un.isEmpty then t else t.modCore core fun c => { c with unseen := c.unseen.map fun w => w.patch .xbuf a d }
  t.modAny uid fun p => { p with stxOld := old ++ p.stxOld }

/-- A WAITC or CNTR of a ply has found the operations of a class retired: LDX sees their writes; those of the path unit with
their wait sets, so those of every other ply's entry that has left the commit unit (R229, R293). -/
def State.seeWrites (s : State) (uid core cls : Nat) : State :=
  let seen (w : OldWord) : Bool := w.cls == some cls &&
    (if w.uid == uid then !s.counted.any fun c => c.seq == w.seq
    else cls == 3 && !(s.core core).entries.any fun e => e.seq == w.seq)
  if (s.core core).unseen.any seen then s.modCore core fun c => { c with unseen := c.unseen.filter fun w => !seen w } else s

/-- A phase of a leaf is complete: the paths that it releases see the writes that were credited to it (R236). A local write is
credited as it is made. -/
def State.seeCredited (s : State) (core leaf : Nat) : State :=
  let seen (w : OldWord) : Bool := w.leaf == some (core, leaf)
  if s.cores.any fun (_, c) => c.unseen.any seen then
    { s with cores := s.cores.map fun (k, c) => (k, { c with unseen := c.unseen.filter fun w => !seen w }) }
  else s

/-- Whether an engine of the core still has an operation to begin that issued before that number. -/
def State.engineOwes (s : State) (core seq : Nat) : Bool :=
  let c := s.core core
  c.mtxq.any (fun o => decide (o.seq < seq)) || c.copyq.any (fun o => decide (o.seq < seq) && o.due.isNone) ||
    c.pathq.any (fun o => decide (o.seq < seq)) || c.entries.any (fun o => decide (o.seq < seq)) ||
    s.pieces.any (fun o => decide (o.seq < seq)) ||
    s.fabric.any fun o => o.core == core && decide (o.seq < seq) && o.answer.isNone
/-- The XFENCEs of a ply that are satisfied: the words stored before them are seen by every later operation of an engine
(R196). -/
def State.fenceWords (s : State) (core : Nat) (fences : List Nat) (l : List OldWord) : List OldWord :=
  fences.foldl (fun l f =>
    (l.map fun w => if w.fence.isNone && decide (w.seq < f) then { w with fence := some f } else w).filter fun w =>
      match w.fence with
      | some g => s.engineOwes core g
      | none => true) l

/-- An XFENCE of a ply is satisfied: of the words that its STX stored before it, no later operation of an engine reads what another
ply's STX or an engine's write hid before them (R196). -/
def State.fenceOthers (s : State) (p : Ply) (f : Nat) : State :=
  let mine := p.stxOld.filter fun w => decide (w.seq < f)
  if mine.isEmpty then s
  else
    let g := fun (w : OldWord) =>
      if w.fence.isNone && mine.any fun m => m.space == w.space && m.word == w.word && decide (w.issued ≤ m.issued) then
        { w with fence := some f }
      else w
    let h := fun (q : Ply) => if q.core == p.core && q.uid != p.uid then { q with stxOld := q.stxOld.map g } else q
    State.modCore { s with ply := h s.ply, plies := s.plies.map h } p.core fun c => { c with unseen := c.unseen.map g }

/-- The space code of a local address (R172). -/
def spaceOf : Nat → Option Space
  | 0 => some .xbuf
  | 1 => some .wbuf
  | 2 => some .sbuf
  | _ => none
/-- The size of a space as a ply may address it: its window for XBUF (R172, R173). -/
def Ply.spaceLimit (p : Ply) : Space → Nat
  | .xbuf => p.windowSize
  | sp => spaceSize sp
/-- The core-absolute address of an offset (R173). -/
def Ply.absolute (p : Ply) (sp : Space) (off : Nat) : Nat :=
  match sp with
  | .xbuf => p.windowBase + off
  | _ => off

/-- The checks of one access by a 32-bit local address (R184): space 3, a store into WBUF or SBUF, alignment, range (log 25). -/
def Ply.checkLocal (p : Ply) (store : Bool) (n : Nat) (a : Word) (lane : Nat) (limit : Nat := n) :
    Except Cause (Space × Nat) :=
  let va : DWord := a.zeroExtend 64
  match spaceOf (a.toNat / 2 ^ 30) with
  | none => .error (localRange 2 va lane)
  | some sp =>
    let off := a.toNat % 2 ^ 30
    if store && sp != .xbuf then .error (localRange 1 va lane)
    else if off % n != 0 then .error (align va lane)
    else if off + limit > p.spaceLimit sp then .error (localRange 0 va lane)
    else .ok (sp, p.absolute sp off)

/-- Whether a 64-bit operand is a local address in the form of R202. -/
def isLocal (x : DWord) : Bool := x.getLsbD 63
/-- The space and offset of a 64-bit local address; none where it is malformed or names space 3 (R172). -/
def local64 (x : DWord) : Option (Space × Nat) :=
  if bits x.toNat 60 21 != 0 then none else (spaceOf (bits x.toNat 62 61)).map fun sp => (sp, bits x.toNat 20 0)

end Sys2Proof.Machine
end

