-- ==== Sys2Proof/Machine/Barriers.lean ====
section
/-!
DEFINITION. Leaf barriers and roots: completion, reset, departure, release in waves (spec/10 R233 to R236, spec/15 R307 to
R311, spec/16 R337, R340, spec/20 R392).
-/
namespace Sys2Proof.Machine

/-- Insertion into a list sorted by a strict order. -/
def insertBy {α : Type} (lt : α → α → Bool) (x : α) : List α → List α
  | [] => [x]
  | y :: l => if lt x y then x :: y :: l else y :: insertBy lt x l
/-- A stable sort. -/
def sortBy {α : Type} (lt : α → α → Bool) (l : List α) : List α := l.foldl (fun r x => insertBy lt x r) []

def State.leaf (s : State) (core leaf : Nat) : Leaf := tget Leaf.idle leaf (s.core core).leaves
def State.setLeaf (s : State) (core leaf : Nat) (l : Leaf) : State :=
  s.modCore core fun c => { c with leaves := tset leaf l c.leaves }
def State.root (s : State) (cluster root : Nat) : Root := tget Root.idle root (s.cluster cluster).roots
def State.setRoot (s : State) (cluster root : Nat) (r : Root) : State :=
  s.modCluster cluster fun c => { c with roots := tset root r c.roots }

/-- The class that ranks a ply's path among eligible paths: HPRIO raises it for the run it would begin, or for the run that it
goes on with (R170, R246). -/
def Ply.pathClass (p : Ply) (q : Path) : Nat :=
  match if p.running then q.runClass else q.hprio with
  | some c => min p.cls c.toNat
  | none => p.cls

/-- The unit that waits has ended: the path goes on with the next unit of its run, once its pipe chooses it (R101, R246). -/
def Ply.finishWait (p : Ply) (now : Nat) : Ply :=
  let q := p.cur
  let n := q.waitWords
  { p.setCur { q with
      wait := .none, waitWords := 0, waitPrio := none, pc := pc60 (q.pc + BitVec.ofNat 64 (4 * n)), since := now
      hprio := q.waitPrio.or q.hprio } with
    resumes := true
    pos := p.pos + n
    yc := p.yc + BitVec.ofNat 14 n }

/-- The memory scope of a leaf for a core (R310). -/
def State.leafScope (s : State) (mine core leaf : Nat) : Nat :=
  if core == mine && (s.leaf core leaf).root.isNone then 1 else 2

/-- Appends an entry to a ply's load-store queue under the next issue number (R189). -/
def State.enqueue (s : State) (uid slot : Nat) (pc : DWord) (k : MemKind) : State :=
  let (n, s) := s.fresh
  s.modPly uid fun p => { p with lsq := p.lsq ++ [⟨n, slot, pc, k⟩] }

/-- A BARW or BARAW returns: it acts as FENCE.ACQ at its scope (R310). -/
def State.returnFromLeaf (s : State) (uid scope : Nat) : State :=
  let p := s.plyOf uid
  let s := s.enqueue uid p.slot p.cur.pc (.fence false true scope)
  s.modPly uid fun p => p.finishWait s.now

/-- The memory scope of a wait at a leaf that is over in this phase (R235), or by a reset, which releases every waiter (R234). -/
def Wait.overAt (w : Wait) (core leaf : Nat) (phase : BitVec 16) (reset : Bool) : Option Nat :=
  match w with
  | .barw c l p scope => if c == core && l == leaf && (reset || p != phase) then some scope else .none
  | .barawNext c l p scope => if c == core && l == leaf && (reset || (p != phase && p + 1 != phase)) then some scope else .none
  | _ => .none

/-- The order of release (R311): highest class first, then longest-waiting first. HPRIO ranks no waiter (R170). -/
def Ply.releasedBefore (a b : Ply) : Bool := decide (a.cls < b.cls) || (a.cls == b.cls && decide (a.cur.since < b.cur.since))

/-- The plies whose waits at a leaf are over in a phase, in the order of release, each with its memory scope. -/
def State.waitersAt (s : State) (core leaf : Nat) (phase : BitVec 16) (reset : Bool) : List (Ply × Nat) :=
  sortBy (fun a b => a.1.releasedBefore b.1) (s.all.filterMap fun p =>
    if p.running then (p.cur.wait.overAt core leaf phase reset).map fun scope => (p, scope) else none)

/-- Paths in each wave of a release that a cluster makes now; 0: all at once (R311). -/
def Cluster.waveWidth (c : Cluster) : Nat := if c.gap == 0 then 0 else c.count.toNat

/-- Waiters of a leaf become eligible in the waves of one release (R311): the first wave at once, the others when RELEASE_WAVE
takes them. order says which waiters the release takes before which; those it does not name come after them. -/
def State.releaseTo (s : State) (core leaf release width : Nat) (order : List Nat) (due : List (Ply × Nat)) : State :=
  let order := order ++ (due.map (·.1.uid)).filter fun u => !order.contains u
  due.foldl (fun s (p, scope) =>
    let wave := if width == 0 then 0 else order.idxOf p.uid / width
    if wave == 0 then s.returnFromLeaf p.uid scope
    else s.modPly p.uid fun p => p.setCur { p.cur with wait := .released core leaf scope release wave }) s

/-- The waiters of one leaf are released on their own: at its completion where it is unlinked, or at its reset (R234). -/
def State.releaseWaiters (s : State) (core leaf : Nat) (reset : Bool) : State :=
  let due := s.waitersAt core leaf (s.leaf core leaf).phase reset
  let (n, s) := s.fresh
  s.releaseTo core leaf n (s.cluster (clusterOf core)).waveWidth (due.map (·.1.uid)) due

/-- Whether a leaf meets its completion condition (R234). -/
def Leaf.ready (l : Leaf) : Bool := l.expected.toNat ≤ l.arrived.toNat && l.arrived != 0 && l.bytes == 0

/-- Whether a home's element belongs to a window of the leaf. -/
def FElement.isOf (e : FElement) (core leaf : Nat) : Bool := e.core == core && e.leaf == leaf
/-- Whether some home holds contributions of the window (R338). -/
def State.hasWindow (s : State) (core leaf : Nat) (phase : BitVec 16) : Bool :=
  s.vaults.any fun (_, v) => v.elements.any fun e => e.isOf core leaf && e.phase == phase
/-- Whether some home holds contributions of any window of the leaf. -/
def State.hasWindows (s : State) (core leaf : Nat) : Bool := s.vaults.any fun (_, v) => v.elements.any fun e => e.isOf core leaf

/-- The arrivals of a lane at a leaf in a phase. -/
def LaneInfo.arrivalsIn (i : LaneInfo) (core leaf : Nat) (phase : BitVec 16) : Nat :=
  i.arrivals.foldl (fun n (c, l, p, k) => if c == core && l == leaf && p == phase then n + k else n) 0

/-- A phase of a leaf is over: no lane's arrivals count in it any more. -/
def State.forgetArrivals (s : State) (core leaf : Nat) (phase : BitVec 16) : State :=
  let f := fun (p : Ply) =>
    if (List.range 96).any fun i => ((p.lanes[i]?).getD LaneInfo.empty).arrivalsIn core leaf phase != 0 then
      { p with lanes := Vector.ofFn fun (i : Fin 96) =>
          let x := p.lanes[i]
          { x with arrivals := x.arrivals.filter fun (c, l, q, _) => !(c == core && l == leaf && q == phase) } }
    else p
  { s with
    ply := f s.ply
    plies := s.plies.map f
    saved := s.saved.map fun v => { v with ply := f v.ply }
    ghosts := s.ghosts.map f }

/-- The phase ends: arrivals start again, with those that came since it was done, and the waiters are released (R234): in the
waves of its root's flip where the leaf is linked (R308, R311). -/
def State.advanceLeaf (s : State) (core leaf : Nat) : State :=
  let l := s.leaf core leaf
  let s := ((s.seeCredited core leaf).forgetArrivals core leaf l.phase).setLeaf core leaf
    { l with phase := l.phase + 1, arrived := l.next, next := 0, done := false, reported := false, flip := false, closing := none }
  match l.root with
  | none => s.releaseWaiters core leaf false
  | some n =>
    let r := s.root (clusterOf core) n
    let due := s.waitersAt core leaf (l.phase + 1) false
    s.releaseTo core leaf r.release r.width r.order due

/-- The leaves of a cluster that are linked to a root. -/
def State.linkedTo (s : State) (cluster root : Nat) : List (Nat × Nat × Leaf) :=
  (coresOf cluster).flatMap fun c => ((s.core c).leaves.filter fun x => x.2.root == some root).map fun x => (c, x)

/-- The flip of a root goes to every linked leaf (R308); the release that it makes is settled here (R311). -/
def State.flipRoot (s : State) (cluster root : Nat) : State :=
  let r := s.root cluster root
  let due := (s.linkedTo cluster root).flatMap fun (c, n, l) => (s.waitersAt c n (l.phase + 1) false).map (·.1)
  let (n, s) := s.fresh
  let s := s.setRoot cluster root { r with
    phase := r.phase + 1, reported := 0, release := n, width := (s.cluster cluster).waveWidth
    order := (sortBy Ply.releasedBefore due).map (·.uid) }
  (coresOf cluster).foldl (fun s c =>
    s.modCore c fun k =>
      { k with leaves := k.leaves.map fun (n, l) => if l.root == some root then (n, { l with flip := true }) else (n, l) }) s

/-- A leaf is unlinked from its root (R309): its report counts in the root's phase until the flip that ends it. -/
def State.unlink (s : State) (core leaf : Nat) : State :=
  let l := s.leaf core leaf
  match l.root with
  | none => s
  | some n =>
    let cl := clusterOf core
    let r := s.root cl n
    let r' := { r with linked := r.linked - 1, reported := if l.reported && !l.flip then r.reported - 1 else r.reported }
    let s := s.setLeaf core leaf { l with root := none, reported := false, flip := false }
    if r'.linked == 0 then s.setRoot cl n { Root.idle with phase := r.phase, release := r.release }
    else
      let s := s.setRoot cl n r'
      if r'.reported == r'.linked then s.flipRoot cl n else s

/-- A leaf resets by departure (R234, R309): every waiter is released. -/
def State.resetLeaf (s : State) (core leaf : Nat) : State :=
  let s := s.unlink core leaf
  let l := s.leaf core leaf
  let s := ((s.forgetArrivals core leaf l.phase).forgetArrivals core leaf (l.phase + 1)).setLeaf core leaf
    { l with phase := l.phase + 1, arrived := 0, next := 0, bytes := 0, done := false, closing := none, resetting := false }
  s.releaseWaiters core leaf true
/-- A leaf resets at once, or once its windows are closed (R340). -/
def State.beginReset (s : State) (core leaf : Nat) : State :=
  let l := s.leaf core leaf
  if l.closing.isSome || s.hasWindows core leaf then s.setLeaf core leaf { l with resetting := true } else s.resetLeaf core leaf

/-- Tests a leaf after an arrival, a BARX, a byte credit or a departure (R234). A phase that has met its condition stays done. A
leaf with open windows then waits for WINDOW_CLOSE (R340), a linked leaf for ROOT_REPORT (R308). -/
def State.settleLeaf (s : State) (core leaf : Nat) : State :=
  let l := s.leaf core leaf
  if l.done || l.resetting || !l.ready then s
  else
    let s := s.setLeaf core leaf { l with done := true }
    if l.root.isNone && !s.hasWindow core leaf l.phase then s.advanceLeaf core leaf else s

/-- Credits bytes to a leaf (R236), or adds them where n is negative (BARX, R235). -/
def State.creditLeaf (s : State) (core leaf : Nat) (n : Int) : State :=
  let l := s.leaf core leaf
  (s.setLeaf core leaf { l with bytes := l.bytes - word n }).settleLeaf core leaf

/-- The departure of an enrolled task takes effect (R234). -/
def State.applyDeparture (s : State) (d : Departure) : State :=
  let l := s.leaf d.core d.leaf
  let k (phase : BitVec 16) : BitVec 16 := BitVec.ofNat 16 ((d.arrivals.lookup phase).getD 0)
  let s := s.setLeaf d.core d.leaf { l with
    expected := if l.expected == 0 then 0 else l.expected - 1
    arrived := l.arrived - k l.phase }
  if l.expected == 1 then s.beginReset d.core d.leaf else s.settleLeaf d.core d.leaf

/-- Whether a lane's FADDDs are all accepted (R340). -/
def Ply.fadddsAccepted (p : Ply) (lane : Nat) (before : Nat) : Bool :=
  p.lsq.all fun e =>
    match e.kind with
    | .faddd ls => decide (before ≤ e.seq) || !ls.any fun (a, _) => a.lane == lane
    | _ => true

/-- Departures whose waits are over take effect. -/
def State.runDepartures (s : State) : State :=
  s.departures.foldl (fun s d =>
    let free := match s.anyPly d.uid with
      | some p => p.fadddsAccepted d.lane (s.seq + 1)
      | none => true
    let l := s.leaf d.core d.leaf
    if free && !l.resetting then
      { s with departures := s.departures.erase d }.applyDeparture d
    else s) s

/-- Removes an answered request of a ply (log 58). -/
def Ply.dropHub (p : Ply) (seq : Nat) : Ply := { p with hubq := p.hubq.filter fun h => h.seq != seq }

/-- Writes a scalar of a path: s0 discards, s60 to s62 write its activity within its membership (R75, R98). -/
def Ply.putS (p : Ply) (slot : Nat) (d : BitVec 6) (w : Word) : Ply :=
  if d == 0 then p
  else if 60 ≤ d.toNat && d.toNat ≤ 62 then
    let q := p.path slot
    let k := d.toNat - 60
    let keep (j : Nat) : Word := if j == k then w &&& Mask.word q.member j else Mask.word q.active j
    p.setPath slot { q with active := Mask.ofWords (keep 0) (keep 1) (keep 2) }
  else { p with sregs := p.sregs.setIfInBounds d.toNat w }

/-- Reads a scalar of a path (R75, R98). -/
def Ply.getS (p : Ply) (slot : Nat) (a : BitVec 6) : Word :=
  if a == 0 then 0
  else if 60 ≤ a.toNat && a.toNat ≤ 62 then Mask.word (p.path slot).active (a.toNat - 60)
  else (p.sregs[a.toNat]?).getD 0

/-- The request of a ply with that issue number. -/
def State.request (s : State) (uid seq : Nat) : Option HubOp :=
  (s.anyPly uid).bind fun p => p.hubq.find? fun h => h.seq == seq

/-- A unit or the hub answers a request: scalars of the issuing path are written and the request is over (R103). -/
def State.answer (s : State) (uid : Nat) (h : HubOp) (ws : List (BitVec 6 × Word)) : State :=
  s.modAny uid fun p => ((ws.foldl (fun p (d, w) => p.putS h.slot d w) p)).dropHub h.seq

/-- A BARA's scalar receives the phase (R235). -/
def State.answerBara (s : State) (uid seq : Nat) (phase : BitVec 16) : State :=
  match s.request uid seq with
  | none => s
  | some h =>
    match h.kind with
    | .bara d => s.answer uid h [(d, phase.zeroExtend 32)]
    | _ => s

/-- Waiting arrivals of a lane are withdrawn (R392). A BARA or BARAW that counts no lane any more acts as one without a counted
lane: it gives the phase, or waits for its end (R235). -/
def State.withdraw (s : State) (uid lane : Nat) : State :=
  let gone := s.arrivals.filter fun a => a.uid == uid && a.lanes == [lane]
  let left := s.arrivals.map fun (a : Arrival) => if a.uid == uid then { a with lanes := a.lanes.erase lane } else a
  let s := { s with arrivals := left.filter fun a => !a.lanes.isEmpty }
  gone.foldl (fun (s : State) (a : Arrival) =>
    let phase := (s.leaf a.core a.leaf).phase
    if a.waits then s.modAny uid fun p => p.setCur { p.cur with wait := .barw a.core a.leaf phase a.scope }
    else s.answerBara uid a.seq phase) s

/-- A lane's task ends: where it is enrolled, its waiting arrivals are withdrawn (R392) and it departs its leaf, once its FADDDs
are accepted (R234, R340). The arrivals of a task that is enrolled in no leaf still count. -/
def State.departLane (s : State) (uid lane : Nat) : State :=
  match s.anyPly uid with
  | none => s
  | some p =>
    let i := (p.lanes[lane]?).getD LaneInfo.empty
    match i.leaf with
    | none => s
    | some (core, leaf) =>
      let s := (s.withdraw uid lane).modAny uid fun p => { p with lanes := p.lanes.setIfInBounds lane { i with leaf := none } }
      let mine := (i.arrivals.filter fun (c, l, _) => c == core && l == leaf).map fun (_, _, p, _) => p
      let d : Departure := ⟨uid, lane, core, leaf, mine.eraseDups.map fun p => (p, i.arrivalsIn core leaf p)⟩
      State.runDepartures { s with departures := s.departures ++ [d] }

/-- The phase in which an arrival counts now: the next one where the leaf's phase is done (R234, R308). -/
def Leaf.counting (l : Leaf) : BitVec 16 := if l.done then l.phase + 1 else l.phase

/-- The arrivals of one BARA or BARAW are added in one step (R235, R308): a BARA's scalar receives the phase, a BARAW's
path waits for the end of the phase in which they counted. -/
def State.countArrival (s : State) (a : Arrival) : State :=
  let l := s.leaf a.core a.leaf
  let n := BitVec.ofNat 16 a.lanes.length
  let s := { s with arrivals := s.arrivals.filter fun b => b.seq != a.seq }
  let s := s.setLeaf a.core a.leaf (if l.done then { l with next := l.next + n } else { l with arrived := l.arrived + n })
  let s := s.modAny a.uid fun p =>
    { p with lanes := a.lanes.foldl (fun ls i =>
        let x := (ls[i]?).getD LaneInfo.empty
        ls.setIfInBounds i { x with
          arrivals := (a.core, a.leaf, l.counting, x.arrivalsIn a.core a.leaf l.counting + 1) ::
            x.arrivals.filter fun (c, l', q, _) => !(c == a.core && l' == a.leaf && q == l.counting) }) p.lanes }
  let s :=
    if a.waits then
      s.modAny a.uid fun p => p.setCur { p.cur with
        wait := if l.done then .barawNext a.core a.leaf l.phase a.scope else .barw a.core a.leaf l.phase a.scope }
    else s.answerBara a.uid a.seq l.phase
  s.settleLeaf a.core a.leaf

end Sys2Proof.Machine
end

