-- ==== Sys2Proof/Machine/Walks.lean ====
section
/-!
DEFINITION. The walks of bulk copies and the units that they move (spec/10 R222, R226, R227).
-/
namespace Sys2Proof.Machine

/-- The index tuples of a list of extents, the first index fastest. -/
def tuples : List Nat → List (List Nat)
  | [] => [[]]
  | e :: es => (tuples es).flatMap fun t => (List.range e).map fun i => i :: t

/-- The byte distance of an index tuple. -/
def Walk.distance (w : Walk) (t : List Nat) : Int := ((t.zip w.stride).map fun (i, d) => (i : Int) * d).foldl (· + ·) 0
/-- The offset of a local unit in its space or window (R222). -/
def Walk.offset (w : Walk) (t : List Nat) : Nat := (dword ((w.base.toNat : Int) + w.distance t)).toNat % 2 ^ 32
/-- The place of a unit. -/
def Walk.place (w : Walk) (t : List Nat) : Place :=
  match w.loc with
  | none => .glob (w.base + dword (w.distance t))
  | some sp => .loc sp (w.origin + w.offset t)

/-- One unit of a copy: its destination, its source or none for a pad, the pad, its size. -/
structure CopyUnit where
  dst : Place
  src : Option Place
  pad : List Byte
  n   : Nat
  deriving DecidableEq, Repr

/-- i0 and i1 exchanged. -/
def exchange : List Nat → List Nat
  | a :: b :: t => b :: a :: t
  | t => t

/-- Whether every index lies below its extent. -/
def within (t ext : List Nat) : Bool := (t.zip ext).all fun (i, e) => decide (i < e)

/-- The source of a unit: its place in the walk, or none beyond the extents. -/
def Walk.source (w : Walk) (t : List Nat) : Option Place := if within t w.ext then some (w.place t) else none

/-- The units of a bulk copy in walk order (R226), then its scales (R227). -/
def CopyKind.units : CopyKind → List CopyUnit
  | .lcp n ls _ => ls.map fun l => ⟨l.dst, some l.src, [], n⟩
  | .tcopy u src dst tr pad scales _ =>
    (tuples dst.ext).map (fun t => ⟨dst.place t, src.source (if tr then exchange t else t), pad, u⟩) ++
    match scales with
    | none => []
    | some (w, p, soff, rows) =>
      (tuples [8, rows]).map fun t =>
        ⟨.loc .sbuf (soff + 16 * t.getD 1 0 + 2 * t.getD 0 0), w.source (t ++ [0, 0, 0, 0]), p, 2⟩

/-- The leaf that a bulk copy credits (R236). -/
def CopyKind.credits : CopyKind → Option (Nat × Nat)
  | .tcopy _ _ _ _ _ _ credit => credit
  | .lcp _ _ _ => none

end Sys2Proof.Machine
end

