-- ==== Sys2Proof/Machine/Scopes.lean ====
section
/-!
DEFINITION. Cancel scopes, the endings of tasks and plies, the tenant fault queue (spec/11 R247, R253 to R263, spec/10
R237, spec/19 R380, spec/20 R392).
-/
namespace Sys2Proof.Machine

/-! ## The scope table (R256 to R258) -/

def ScopeState.code : ScopeState → Nat
  | .opened => 1
  | .cancelling => 2
  | .quiesced => 3
  | .closed => 4
  | .faulted => 5

def State.scopeOf (s : State) (tenant : Nat) (id : BitVec 24) : Option Scope :=
  s.scopes.find? fun c => c.tenant == tenant && c.id == id
def State.modScope (s : State) (tenant : Nat) (id : BitVec 24) (f : Scope → Scope) : State :=
  { s with scopes := s.scopes.map fun c => if c.tenant == tenant && c.id == id then f c else c }

/-- Bytes 0 to 3 of a scope record: id, sealed, state (R256). -/
def Scope.stateWord (c : Scope) : Word :=
  BitVec.ofNat 32 (c.id.toNat * 256 + (if c.sealed' then 16 else 0) + c.state.code)

/-- The record of a scope (R256). -/
def Scope.record (c : Scope) : List Byte :=
  wordBytes c.stateWord ++ leBytes 4 c.parent.toNat ++ leBytes 4 c.live ++ leBytes 4 c.ended ++ dwordBytes c.tcancel ++
    dwordBytes c.tquiet ++ dwordBytes c.cont ++ dwordBytes c.carg ++ wordBytes c.cause ++ leBytes 4 c.notify ++ zeros 8

/-- The hub writes bytes 0 to 31 and 48 to 51 of the record (R257). -/
def State.writeScope (s : State) (tenant : Nat) (id : BitVec 24) : State :=
  match s.scopeOf tenant id with
  | none => s
  | some c =>
    (s.writeVirt 0 noCore tenant c.address (c.record.take 32)).writeVirt 0 noCore tenant (c.address + 48) (wordBytes c.cause)

/-- Whether a scope is anc or lies below it; the tenant root is below nothing. -/
def State.isUnder (s : State) (tenant : Nat) (anc : BitVec 24) : (fuel : Nat) → BitVec 24 → Bool
  | 0, _ => false
  | fuel + 1, id =>
    id != 0 && (id == anc ||
      match s.scopeOf tenant id with
      | some c => State.isUnder s tenant anc fuel c.parent
      | none => false)
def State.under (s : State) (tenant : Nat) (anc id : BitVec 24) : Bool := s.isUnder tenant anc (s.scopes.length + 1) id

/-- Every open scope below id becomes CANCELLING (R258). -/
def State.cancelBelow (s : State) (tenant : Nat) (id : BitVec 24) : State :=
  let hit := s.scopes.filter fun c => c.tenant == tenant && c.id != id && c.state == .opened && s.under tenant id c.id
  hit.foldl (fun s c =>
    (s.modScope tenant c.id fun c => { c with state := .cancelling, tcancel := s.ptime }).writeScope tenant c.id) s

/-- The hub broadcasts a cancel or fault to every core and Knight unit of the partition (R259). -/
def State.broadcast (s : State) (tenant : Nat) (id : BitVec 24) : State :=
  { s with broadcasts := s.broadcasts ++ [⟨tenant, id, s.partCores tenant⟩] }

/-- CANCEL of a scope, performed at the hub (R258, R259, R266). -/
def State.cancelScope (s : State) (tenant : Nat) (id : BitVec 24) : State :=
  match s.scopeOf tenant id with
  | none => s
  | some c =>
    if c.state = .opened then
      let s := s.modScope tenant id fun c => { c with state := .cancelling, tcancel := s.ptime }
      ((s.writeScope tenant id).cancelBelow tenant id).broadcast tenant id
    else s

/-- A task of the scope ends by fault (R258, R262). -/
def State.faultScope (s : State) (tenant : Nat) (id : BitVec 24) (causeWord : Word) : State :=
  match s.scopeOf tenant id with
  | none => s
  | some c =>
    if c.state = .opened then
      let s := s.modScope tenant id fun c => { c with state := .faulted, tcancel := s.ptime, cause := causeWord }
      ((s.writeScope tenant id).cancelBelow tenant id).broadcast tenant id
    else if c.state = .cancelling ∨ c.state = .faulted then
      let s := s.modScope tenant id fun c => { c with cause := if c.cause == 0 then causeWord else c.cause }
      (s.writeScope tenant id).cancelBelow tenant id
    else s

/-- A task counted in the scope has ended: ended += 1, live −= 1 (R261). -/
def State.countEnd (s : State) (tenant : Nat) (id : BitVec 24) : State :=
  s.modScope tenant id fun c => { c with live := c.live - 1, ended := c.ended + 1 }

/-- Whether tasks may still be added to a scope: it is live, open or cancelling, and not sealed (R253). The root always. -/
def State.accepts (s : State) (tenant : Nat) (id : BitVec 24) : Bool :=
  id == 0 ||
    match s.scopeOf tenant id with
    | some c => !c.sealed' && c.state != .closed && c.state != .quiesced
    | none => false

/-- Whether a core holds a broadcast under which the scope or an ancestor is cancelled (R259). -/
def State.heardCancel (s : State) (core tenant : Nat) (id : BitVec 24) : Bool :=
  (s.core core).heard.any fun (t, c) => t == tenant && s.under tenant c id

/-! ## The tenant fault queue (R380) -/

/-- One record of the fault ring. -/
structure FaultRecord where
  cause  : Word
  scope  : BitVec 24
  plyid  : Word
  core   : Nat
  pc     : DWord
  va     : DWord
  pa     : Nat
  lanes  : Mask
  deriving DecidableEq, Repr

def FaultRecord.bytes (f : FaultRecord) (now : DWord) (dropped : Word) : List Byte :=
  dwordBytes now ++ wordBytes f.cause ++ leBytes 4 f.scope.toNat ++ wordBytes f.plyid ++ leBytes 4 (f.core % 512) ++
    dwordBytes f.pc ++ dwordBytes f.va ++ leBytes 8 f.pa ++ maskBytes f.lanes ++ wordBytes dropped

/-- A range as the hub itself sees it: memory at package scope with the hub's own stores that are still on their way. -/
def State.hubBytes (s : State) (pieces : List (Nat × Nat)) : List Byte :=
  let own := s.stores.filter fun q => q.uid == 0 && q.core == noCore
  pieces.flatMap fun (pa, k) => (s.phys pa k).zipIdx.map fun (b, i) => own.foldl (fun b q => overlay q.pa q.data (pa + i) b) b

/-- The hub writes a fault record, or counts it as dropped where the ring is full or cannot be reached (R380) (log 64). The hub is
the producer: it counts on from the tail that it wrote last. -/
def State.faultRecord (s : State) (tenant : Nat) (f : FaultRecord) : State :=
  let t := s.tenant tenant
  let drop := s.modTenant tenant fun t => { t with dropped := t.dropped + 1 }
  match s.range tenant .read t.ringTail 8 with
  | .error _ => drop
  | .ok ps =>
    let b := s.hubBytes ps
    let s := s.hubReads tenant t.ringTail 8
    let tail := BitVec.ofNat 32 (num b 0 4)
    let used := tail - BitVec.ofNat 32 (num b 4 4)
    let size := 2 ^ (t.ringLog2.toNat % 16)
    if used.toNat ≥ size then drop
    else
      let s := s.writeVirt 0 noCore tenant (t.ringBase + BitVec.ofNat 64 (64 * (tail.toNat % size))) (f.bytes s.ptime t.dropped)
      let s := s.writeVirt 0 noCore tenant t.ringTail (wordBytes (tail + 1))
      s.modTenant tenant fun t => { t with dropped := 0 }

/-- A unit discards work of a scope's tasks: the scope faults, and a record says so (R262, R380). -/
def State.faultWork (s : State) (tenant : Nat) (scope : BitVec 24) (causeWord : Word) (core : Nat) (pc : DWord) : State :=
  (s.faultScope tenant scope causeWord).faultRecord tenant ⟨causeWord, scope, 0xFFFFFFFF, core, pc, 0, 0, 0⟩

/-! ## Commit entries and counted operations as tasks end (R220, R290) -/

/-- Operation seq of a ply is complete (R220). -/
def State.complete (s : State) (seq : Nat) : State :=
  { s with counted := s.counted.map fun c => if c.seq == seq then { c with complete := true } else c }
/-- Operation seq of a ply has failed (R229, R401). -/
def State.failOp (s : State) (seq : Nat) (f : Failure) : State :=
  { s with counted := s.counted.map fun c => if c.seq == seq then { c with complete := true, failure := some f } else c }

/-- An entry of kind SCAN whose TAB is cleared and whose tasks have all committed or ended retires (R290). -/
def State.settleEntries (s : State) (core : Nat) : State :=
  let c := s.core core
  let past := c.entries.filter fun e =>
    e.kind == .scan && e.scanned && e.live == 0 && !c.commits.any fun m => m.entry == e.id
  let s := s.modCore core fun c => { c with entries := c.entries.filter fun e => !past.any fun o => o.id == e.id }
  past.foldl (fun s e => s.complete e.seq) s

/-- A paint task of an entry ends, or is discarded, or hands over its commit (R290) (log 71): on the core of its scan, wherever
its ply stands. -/
def State.paintTaskOver (s : State) (tag : Option Tag) : State :=
  match tag with
  | none => s
  | some t =>
    (s.modCore t.core fun c =>
      { c with entries := c.entries.map fun e => if e.id == t.entry then { e with live := e.live - 1 } else e }).settleEntries t.core

/-! ## Lanes and plies that end -/

/-- A bulk copy that was dropped before it began (R237). -/
def CopyOp.dropped (o : CopyOp) : Bool := o.cancelled && !o.begun
/-- A bulk copy whose owner has ended at a kill point: one that has begun is to stop; one that has not is dropped, all its units
unwritten (R237). One that has made its writes goes on as it is. -/
def CopyOp.cancel (o : CopyOp) (now : Nat) : CopyOp :=
  if o.due.isSome then o
  else if o.begun then { o with cancelled := true }
  else { o with cancelled := true, due := some now, unwritten := o.kind.units.map (·.n) }
/-- A queued copy whose owner ended at a kill point stops, or is dropped and with that complete (R237, R402); lane copies
complete. -/
def State.cancelCopies (s : State) (uid lane : Nat) : State :=
  let mine := fun (o : CopyOp) => o.uid == uid && o.lane == lane
  let f := fun (o : CopyOp) => if mine o then o.cancel s.now else o
  let drop := s.cores.flatMap fun (_, (c : Core)) => c.copyq.filter fun (o : CopyOp) => mine o && o.due.isNone && !o.begun
  let g := fun (x : Nat × Core) => (x.1, { x.2 with copyq := x.2.copyq.map f })
  let s := { s with cores := s.cores.map g }
  let s := drop.foldl (fun s (o : CopyOp) => s.complete o.seq) s
  { s with fabric := s.fabric.map fun (o : FabricOp) => if o.uid == uid && o.lane == lane then { o with cancelled := true } else o }

/-- A lane's task ends (R255, R261, R262): it becomes vacant, counts in its scope, departs its leaf; killed says that it
ends at a kill point, where its copies are cancelled and the returns of its issued atomics discarded (R261, R336). -/
def State.endLane (s : State) (uid lane : Nat) (killed : Bool) : State :=
  match s.anyPly uid with
  | none => s
  | some p =>
    if p.occ.has lane then
      let i := (p.lanes[lane]?).getD LaneInfo.empty
      let drop := fun (e : MemOp) =>
        match e.kind with
        | .atom op r v sc ls c =>
          { e with kind := MemKind.atom op r v sc (ls.map fun (a : AtomLane) => if a.lane == lane then { a with discard := true } else a) c }
        | _ => e
      let s := s.modAny uid fun p =>
        { p with
          occ := p.occ &&& ~~~(BitVec.ofNat 96 (2 ^ lane))
          lanes := p.lanes.setIfInBounds lane { i with commit := none }
          lsq := if killed then p.lsq.map drop else p.lsq }
      let s := s.countEnd p.tenant i.scope
      let s := if killed then s.cancelCopies uid lane else s
      let s := s.paintTaskOver i.commit
      s.departLane uid lane
    else s

def MemKind.isStoreX : MemKind → Bool
  | .storeX _ _ => true
  | _ => false

/-- The XBUF windows of gangs with no member left on the core, no STX of one on its way and no PATH operation unretired are
released (R173, R211, R247, R290, R317). -/
def State.releaseWindows (s : State) (core : Nat) : State :=
  let c := s.core core
  let used := fun (g : Nat) =>
    ((s.onCore core).any fun p => p.gang == g) ||
      (s.ghosts.any fun p => p.gang == g && p.core == core && p.lsq.any fun e => e.kind.isStoreX) || (c.entries.any fun e => e.gang == g) || (s.pieces.any fun p => p.gang == g) ||
      ((coresOf (clusterOf core)).any fun k => (s.core k).pathq.any fun o => o.gang == g) ||
      s.everyPly.any fun p => p.gang == g && s.counted.any fun o => o.uid == p.uid && o.cls == 3
  let keep := c.windows.filter fun w => used w.gang
  if keep.length == c.windows.length then s
  else s.modCore core fun c => { c with windows := keep, xgen := c.xgen + 1 }

/-- The windows that the operations of a ply kept are released with the last of them (R173, R290, R317). -/
def State.releaseFor (s : State) (uid : Nat) : State :=
  match s.anyPly uid with
  | none => s
  | some p => (coresOf (clusterOf p.core)).foldl (fun s k => s.releaseWindows k) s

def MemKind.isFence : MemKind → Bool
  | .fence _ _ _ | .xfence => true
  | _ => false
/-- Whether a retired ply still has stores, requests or engine operations on their way. -/
def State.busyGhost (s : State) (p : Ply) : Bool :=
  (p.lsq.any fun e => !e.kind.isFence) || !p.hubq.isEmpty || (s.core p.core).mtxq.any (fun o => o.uid == p.uid) ||
    s.counted.any (fun c => c.uid == p.uid) || s.arrivals.any fun a => a.uid == p.uid
/-- Retired plies with nothing left on its way are forgotten. -/
def State.reap (s : State) : State := { s with ghosts := s.ghosts.filter s.busyGhost }

/-- A landing slot is free once every ply of its firing has retired or been discarded (R404). -/
def State.settleFiring (s : State) (id : Nat) : State :=
  match s.firings.find? fun f => f.id == id with
  | none => s
  | some f =>
    if f.next == f.total && f.running == 0 then
      let s := { s with firings := s.firings.filter fun g => g.id != id }
      match f.landing with
      | none => s
      | some _ =>
        s.modTenant f.tenant fun t =>
          { t with busySlots := t.busySlots.filter fun b => b.2 != id }
    else s

/-- The loads of a retired ply are discarded (R247). -/
def MemKind.isDiscarded : MemKind → Bool
  | .load _ _ _ _ | .loadX _ _ _ | .lds _ _ _ _ | .tex _ _ _ _ _ _ _ | .fill _ _ _ _ _ => true
  | _ => false

/-- A ply with no occupied lane retires (R247): no later word of it issues, its registers return, its window with the last
member of its gang; failures that nothing found go to the fault queue (R229). -/
def State.retire (s : State) (uid : Nat) : State :=
  match s.find uid with
  | none => s
  | some p =>
    let s := p.failures.foldl (fun s f =>
      s.faultRecord p.tenant ⟨(Cause.mk 0x0E 13 f.detail.toNat f.addr 127 true).word, p.scope, p.plyid.zeroExtend 32, p.core,
        p.cur.pc, f.addr, 0, 0⟩) s
    let ghost := { p with
      running := false
      path0 := { p.path0 with member := 0, active := 0, wait := .none }
      path1 := { p.path1 with member := 0, active := 0, wait := .none }
      failures := []
      lsq := p.lsq.filter fun e => !e.kind.isDiscarded }
    let s :=
      if s.ply.uid == uid then { s with ply := Ply.vacant } else { s with plies := s.plies.filter fun q => q.uid != uid }
    let s := { s with ghosts := s.ghosts ++ [ghost], saveAreas := s.saveAreas ++ [p.ssave] }
    let s :=
      match p.firing with
      | none => s
      | some id =>
        let g := fun (f : Firing) => if f.id == id then { f with running := f.running - 1 } else f
        State.settleFiring { s with firings := s.firings.map g } id
    (s.releaseWindows p.core).reap

/-- Retires the ply if it holds no occupied lane. -/
def State.retireIfEmpty (s : State) (uid : Nat) : State :=
  match s.find uid with
  | some p => if p.occ == 0 then s.retire uid else s
  | none => s

/-- Lanes of one ply end by one fault (R262): their scopes fault, one fault record is written (R380). -/
def State.endByFault (s : State) (uid : Nat) (lanes : Mask) (causeWord : Word) (pc va : DWord) (pa : Nat) : State :=
  match s.anyPly uid with
  | none => s
  | some p =>
    let hit := lanes &&& p.occ
    if hit == 0 then s
    else
      let scopes := (hit.lanes.map fun i => ((p.lanes[i]?).getD LaneInfo.empty).scope).eraseDups
      let s := hit.lanes.foldl (fun s i => s.endLane uid i false) s
      let s := scopes.foldl (fun s c => s.faultScope p.tenant c causeWord) s
      let s := s.faultRecord p.tenant
        ⟨causeWord, scopes.headD 0, p.plyid.zeroExtend 32, p.core, pc, va, pa, hit⟩
      s.retireIfEmpty uid

/-- MEMERR as %ecause (R262): where it was found, who consumed it. -/
def memerr (found consumer : Nat) : Word := BitVec.ofNat 32 (consumer * 65536 + found * 256 + 0x21)

/-- The lanes of a ply that are cancelled on its core (R259). -/
def State.cancelledLanes (s : State) (p : Ply) : Mask :=
  if (s.core p.core).heard.isEmpty then 0
  else p.occ &&& maskOf fun i => p.occ.has i && s.heardCancel p.core p.tenant ((p.lanes[i]?).getD LaneInfo.empty).scope

/-- A kill point for the lanes given (R260, R261): the cancelled ones end. -/
def State.kill (s : State) (uid : Nat) (lanes : Mask) : State :=
  match s.anyPly uid with
  | none => s
  | some p => (s.cancelledLanes p &&& lanes).lanes.foldl (fun s i => s.endLane uid i true) s

/-! ## Tasks on their way -/

/-- A task is sent to a core's task store (R253). -/
def State.sendTask (s : State) (core : Nat) (t : Task) (stolen : Bool) : State :=
  { s with transit := s.transit ++ [⟨core, t, stolen⟩] }

/-- A task that is discarded after it was counted (R253). -/
def State.discardTask (s : State) (t : Task) : State := (s.countEnd t.tenant t.scope).paintTaskOver t.commit

/-- Whether a task's scope or an ancestor is CANCELLING or FAULTED at the hub (R253, R263). -/
def State.scopeCancelled (s : State) (tenant : Nat) (id : BitVec 24) : Bool :=
  s.scopes.any fun c => c.tenant == tenant && (c.state == .cancelling || c.state == .faulted) && s.under tenant c.id id

end Sys2Proof.Machine
end

