-- ==== Sys2Proof/Machine/Ops.lean ====
section
/-!
DEFINITION. The operations that the meanings share: scalars, pairs and triples (spec/03 R75, spec/04 R98), immediates with
their hints (R90), the end of a unit, taking a trap and returning from one (spec/07 R165 to R169, spec/19 R378).
-/
namespace Sys2Proof.Machine

/-- The outcome of a meaning. -/
abbrev Outcome := Host.Outcome State Fault Refusal
/-- The meaning answers this state. -/
def State.ok (s : State) : Outcome := .next s

/-! ## Scalars of the issuing path -/

/-- S[a] (R75, R98). -/
def State.S (s : State) (a : BitVec 6) : Word := s.ply.getS s.ply.slot a
/-- S[a] := w (R75, R98). -/
def State.setS (s : State) (a : BitVec 6) (w : Word) : State := { s with ply := s.ply.putS s.ply.slot a w }
/-- The pair S[a+1] : S[a]. -/
def State.S64 (s : State) (a : BitVec 6) : DWord := pair (s.S a) (s.S (a + 1))
/-- The pair S[a+1] : S[a] := x. -/
def State.setS64 (s : State) (a : BitVec 6) (x : DWord) : State := (s.setS a (loWord x)).setS (a + 1) (hiWord x)
/-- The mask in the triple of base m (R97). -/
def State.triple (s : State) (m : BitVec 6) : Mask := Mask.ofWords (s.S m) (s.S (m + 1)) (s.S (m + 2))
/-- Writes a mask into the triple of base m (R97, R98). -/
def State.setTriple (s : State) (m : BitVec 6) (x : Mask) : State :=
  ((s.setS m (Mask.word x 0)).setS (m + 1) (Mask.word x 1)).setS (m + 2) (Mask.word x 2)

/-- The issuing path. -/
def State.path (s : State) : Path := s.ply.cur
/-- The active lanes of the issuing path (R4). -/
def State.active (s : State) : Mask := s.path.active
/-- The active occupied lanes of the issuing path: the counted lanes (R100). -/
def State.counted' (s : State) : Mask := s.path.active &&& s.ply.occ
/-- %vcount and %actiles (R95, R112). -/
def Ply.vcount (p : Ply) : Nat := p.vregs.length
def Ply.actiles (p : Ply) : Nat := p.tiles.length

/-! ## Immediates (R74, R90) -/

/-- The value of a 12-bit immediate: sign-extended, or with HIMM its lower 12 bits below payload [19:0]. -/
def State.imm12 (s : State) (i : BitVec 12) : Word :=
  match s.issue.himm with
  | none => i.signExtend 32
  | some h => (h.truncate 20 : BitVec 20) ++ i
/-- The value of an 11-bit immediate: sign-extended, or with HIMM its lower 11 bits below payload [20:0]. -/
def State.imm11 (s : State) (i : BitVec 11) : Word :=
  match s.issue.himm with
  | none => i.signExtend 32
  | some h => (h.truncate 21 : BitVec 21) ++ i
/-- The displacement that HIMM gives a memory access: payload [19:0] sign-extended. -/
def State.disp (s : State) : DWord :=
  match s.issue.himm with
  | none => 0
  | some h => (h.truncate 20 : BitVec 20).signExtend 64
/-- The scope of HORD, package without one (R170, R187). -/
def State.hord (s : State) : Nat :=
  match s.issue.hord with
  | none => 3
  | some h => h.toNat % 8
/-- The cache policy of HCACHE (R178). -/
def State.policy (s : State) : Nat :=
  match s.issue.hcache with
  | none => 0
  | some h => h.toNat % 4
/-- Whether HSAT asks for saturation (R89) (log 30). -/
def State.hsat (s : State) : Bool :=
  match s.issue.hsat with
  | none => false
  | some h => h.getLsbD 0

/-! ## The end of a unit -/

/-- The unit has issued: PC, run position and %yc advance by its words (R88, R105); HPRIO is kept for the path's next run,
unless its class is not above the ply's own (R89, R170). -/
def Ply.advance (p : Ply) (i : Issue) : Ply :=
  let q := p.cur
  let pr := match i.hprio with
    | some h => some (BitVec.ofNat 2 h.toNat)
    | none => q.hprio
  { p.setCur { q with pc := pc60 (i.first + BitVec.ofNat 64 (4 * i.words)), hprio := pr } with
    pos := p.pos + i.words
    yc := p.yc + BitVec.ofNat 14 i.words }
/-- The issuing unit completes. -/
def State.done (s : State) : State := { s with ply := s.ply.advance s.issue }

/-- The issuing path begins a wait at this unit (R101): its PC stays there until the unit returns. -/
def State.wait (s : State) (w : Wait) : State :=
  let q := s.path
  { s with ply := s.ply.setCur { q with
      wait := w, waitWords := s.issue.words, waitPrio := s.issue.hprio.map fun h => BitVec.ofNat 2 h.toNat
      pc := s.issue.first, since := s.now } }

/-! ## Traps (R165 to R169) -/

/-- Writes the batch record of an XLATE or PROT: the faulting 64 KiB pages, lowest 15 ascending (R378). -/
def batchRecord (faults : List Cause) : List Byte :=
  let pages := faults.map fun c => (c.addr.toNat / 65536, c.code, c.sub)
  let pages := pages.foldl (fun l x => if l.any fun y => y.1 == x.1 then l else l ++ [x]) []
  let pages := sortBy (fun a b => decide (a.1 < b.1)) pages
  let low := (pages.take 15).flatMap fun (a, c, u) => leBytes 8 (a * 65536 + c * 256 + u)
  leBytes 4 pages.length ++ zeros 4 ++ low ++ zeros (120 - low.length)

/-- A deliverable cause is delivered: the trap registers are written, the latches saved, privilege becomes supervisor and
the path's PC the trap vector, where a run begins with empty latches (R165). BREAK records the word after the TRAP (log 23). A
class that HPRIO gave the path's next run stays for a run after it (log 94). -/
def Ply.deliver (p : Ply) (first : DWord) (words : Nat) (c : Cause) : Ply :=
  let brk := c.code == 0x06
  let q := p.cur
  let epc := pc60 (if brk then first + BitVec.ofNat 64 (4 * words) else first)
  let erun := BitVec.ofNat 5 (if brk then p.pos + words else p.pos)
  { p.setCur { q with pc := p.tvec, wait := .none, waitWords := 0, waitPrio := none, transfer := .none } with
    epc := epc
    erun := erun
    ecause := c.word
    eaddr := c.addr
    elane := BitVec.ofNat 7 c.lane
    savedLatches := p.latches
    trapSlot := p.slot
    trapEpc := epc
    trapErun := erun
    trapTransfer := q.transfer
    supervisor := true
    running := true
    pos := 0
    latches := [] }

/-- The causes that come with a batch record: XLATE and PROT (R378). -/
def Cause.isPage (c : Cause) : Bool := c.code == 0x0A || c.code == 0x0B
/-- The virtual address of a fault record: of the causes that carry an address (R169, R380). -/
def Cause.va (c : Cause) : DWord := if 0x08 ≤ c.code && c.code ≤ 0x0B then c.addr else 0

/-- A unit of a ply raises a cause. At user privilege it is delivered (R165); at supervisor privilege every task of the ply
ends with it, and the report carries the trap registers as they stood (R166). faults are the XLATEs and PROTs of the unit's lanes,
whose walks read their entries (R377). A MEMERR is never delivered: it ends the lane whose access met a retired vault, or every
lane (R262, R389) (log 101). -/
def State.raiseAt (s : State) (p : Ply) (put : State → Ply → State) (first : DWord) (words : Nat) (c : Cause)
    (faults : List Cause) : State :=
  let c := if c.given then c else { c with addr := Config.openAddress s.tick }
  let s := if c.isPage then
      ((faults.map fun f => f.addr.toNat / 65536 * 65536).eraseDups).foldl (fun s a => s.chargeWalk p.tenant a) s
    else s
  if c.code == 0x21 then
    s.endByFault p.uid (if c.lane < 96 then BitVec.ofNat 96 (2 ^ c.lane) else Mask.full) c.word first c.addr 0
  else if p.supervisor then
    let r : TrapReport := ⟨p.tenant, p.plyid, s.ptime, p.epc, p.ecause, p.eaddr, p.elane, p.erun⟩
    State.endByFault { s with trapReports := r :: s.trapReports } p.uid Mask.full c.word first c.va 0
  else
    let s := put s { p.deliver first words c with runSince := s.now }
    if c.isPage then s.writeVirt 0 p.core p.tenant (p.ssave + 0x300) (batchRecord faults) else s

/-- The issuing unit raises a cause and takes no effect. -/
def State.raise (s : State) (c : Cause) (faults : List Cause := [c]) : State :=
  s.raiseAt s.ply (fun s p => { s with ply := p }) s.issue.first s.issue.words c faults

/-- The unit at which a path of another ply waits raises a cause (R208, R229). -/
def State.raiseWaiting (s : State) (uid : Nat) (c : Cause) (faults : List Cause := [c]) : State :=
  match s.find uid with
  | none => s
  | some p => s.raiseAt p (fun s q => s.modPly uid fun _ => { q with resumes := true }) p.cur.pc p.cur.waitWords c faults

/-- The instruction word as %eaddr (R169). -/
def State.theWord (s : State) : DWord := s.issue.word.zeroExtend 64
def State.raisePriv (s : State) (sub : Nat := 0) : State := s.raise (cause 0x02 sub s.theWord)
def State.raiseConverge (s : State) : State := s.raise (cause 0x05 0 s.theWord)
def State.raiseRegrange (s : State) : State := s.raise (cause 0x07 0 s.theWord)
def State.raiseLatch (s : State) : State := s.raise (cause 0x04 0 s.theWord)

/-- ERET: the faulting path resumes at %epc, position %erun, with the saved latches (R167); a decided transfer survives a
fault of its trailer where the handler left %epc and %erun as they were (R158). -/
def Ply.eret (p : Ply) : Ply :=
  let q := p.cur
  let same := p.epc == p.trapEpc && p.erun == p.trapErun
  { p.setCur { q with pc := p.epc, transfer := if same then p.trapTransfer else .none } with
    supervisor := false
    running := true
    pos := p.erun.toNat
    latches := p.savedLatches }

end Sys2Proof.Machine
end

