-- ==== Sys2Proof/Machine/Operands.lean ====
section
/-!
DEFINITION. Vector operands (spec/03 R76, R77, spec/04 R95, R96, R99): what a 7-bit code reads, the checks on it, and how a
result enters its register and the latches.
-/
namespace Sys2Proof.Machine

/-- What a vector field reads (R76): a register, a latch, zero, or the occupancy. -/
def Ply.getV (p : Ply) (c : BitVec 7) : Lanes :=
  let n := c.toNat
  if n ≤ 119 then (p.vregs[n]?).getD Lanes.zero
  else if n ≤ 123 then (p.latches[n - 120]?).getD Lanes.zero
  else if n == 126 then Lanes.gen fun i => if p.occ.has i then 1 else 0
  else Lanes.zero
def State.V (s : State) (c : BitVec 7) : Lanes := s.ply.getV c

/-- Writes a whole vector register; vz discards (R76). -/
def Ply.putV (p : Ply) (c : BitVec 7) (v : Lanes) : Ply :=
  if c.toNat ≤ 119 then { p with vregs := listSet p.vregs c.toNat v } else p
/-- Writes the lanes of a register in a mask. -/
def Ply.putVLanes (p : Ply) (c : BitVec 7) (m : Mask) (f : Nat → Word) : Ply :=
  p.putV c (Lanes.gen fun i => if m.has i then f i else (p.getV c).at i)

/-- A register code at or above the boundary (R76, R95). -/
def Ply.outOfRange (p : Ply) (c : BitVec 7) : Bool := c.toNat ≤ 119 && p.vcount ≤ c.toNat
/-- A latch that is empty (R88, R96). -/
def Ply.emptyLatch (p : Ply) (c : BitVec 7) : Bool := 120 ≤ c.toNat && c.toNat ≤ 123 && p.latches.length ≤ c.toNat - 120

/-- Steps 4 and 5 of R92 for the vector fields named: REGRANGE, then LATCH; otherwise k. -/
def State.checkV (s : State) (codes : List (BitVec 7)) (k : State) : State :=
  if codes.any s.ply.outOfRange then s.raiseRegrange
  else if codes.any s.ply.emptyLatch then s.raiseLatch
  else k
/-- REGRANGE for n registers from v on, unless v is vz (R76). -/
def State.checkRun (s : State) (v : BitVec 7) (n : Nat) (k : State) : State :=
  if v.toNat ≤ 119 && s.ply.vcount < v.toNat + n then s.raiseRegrange else k
/-- REGRANGE for a tile (R95, R200). -/
def State.checkTile (s : State) (t : Nat) (k : State) : State := if s.ply.actiles ≤ t then s.raiseRegrange else k

/-- The value that a latch and a register take: f in active lanes, the destination's old value elsewhere (R96, R99). -/
def State.merged (s : State) (d : BitVec 7) (f : Nat → Word) : Lanes :=
  let old := s.V d
  Lanes.gen fun i => if s.active.has i then f i else old.at i

/-- A latch-producing instruction's result (R77, R96): it shifts into b0, and into d unless nw is 1. -/
def Ply.produce (p : Ply) (d : BitVec 7) (nw : BitVec 1) (v : Lanes) : Ply :=
  let p := { p with latches := (v :: p.latches).take 4 }
  if nw == 1 then p else p.putV d v

/-- Writes the result f of a latch-producing instruction and completes it. -/
def State.vresult (s : State) (d : BitVec 7) (nw : BitVec 1) (f : Nat → Word) : State :=
  { s with ply := s.ply.produce d nw (s.merged d f) }.done

/-- A lane-wise instruction of one source. -/
def State.vmap1 (s : State) (d a : BitVec 7) (nw : BitVec 1) (f : Word → Word) : State :=
  s.checkV [d, a] (let x := s.V a; s.vresult d nw fun i => f (x.at i))
/-- A lane-wise instruction of two sources. -/
def State.vmap2 (s : State) (d a b : BitVec 7) (nw : BitVec 1) (f : Word → Word → Word) : State :=
  s.checkV [d, a, b] (let x := s.V a; let y := s.V b; s.vresult d nw fun i => f (x.at i) (y.at i))
/-- A lane-wise instruction of two sources and the old destination (T format). -/
def State.vmap3 (s : State) (d a b : BitVec 7) (nw : BitVec 1) (f : Word → Word → Word → Word) : State :=
  s.checkV [d, a, b]
    (let x := s.V a; let y := s.V b; let z := s.V d; s.vresult d nw fun i => f (x.at i) (y.at i) (z.at i))

/-- A scalar instruction writes S[d] and completes. -/
def State.sresult (s : State) (d : BitVec 6) (w : Word) : State := (s.setS d w).done
/-- A scalar instruction writes a pair and completes. -/
def State.sresult64 (s : State) (d : BitVec 6) (x : DWord) : State := (s.setS64 d x).done

end Sys2Proof.Machine
end

