-- ==== Sys2Proof/Machine/Arith.lean ====
section
/-!
DEFINITION. Integer arithmetic on words and pairs (spec/01 R13 to R18): what the scalar and the vector integer instructions
compute.
-/
namespace Sys2Proof.Machine

/-- 1 where the condition holds, else 0. -/
def ofBool (b : Bool) : Word := if b then 1 else 0
/-- i clamped to lo and hi (R17). -/
def clamp (lo hi i : Int) : Int := if i < lo then lo else if hi < i then hi else i

/-- High multiply, signed and unsigned (R16). -/
def mulHigh (a b : Word) : Word := BitVec.ofInt 32 (a.toInt * b.toInt / 2 ^ 32)
def mulHighU (a b : Word) : Word := BitVec.ofNat 32 (a.toNat * b.toNat / 2 ^ 32)
/-- Quotients and remainders (R15). -/
def divSigned (a b : Word) : Word := if b == 0 then BitVec.allOnes 32 else BitVec.ofInt 32 (a.toInt.tdiv b.toInt)
def divUnsigned (a b : Word) : Word := if b == 0 then BitVec.allOnes 32 else BitVec.ofNat 32 (a.toNat / b.toNat)
def remSigned (a b : Word) : Word := if b == 0 then a else BitVec.ofInt 32 (a.toInt.tmod b.toInt)
def remUnsigned (a b : Word) : Word := if b == 0 then a else BitVec.ofNat 32 (a.toNat % b.toNat)

/-- Shifts and rotates by the count modulo 32 (R14). -/
def count32 (b : Word) : Nat := b.toNat % 32
def shl (a : Word) (c : Nat) : Word := a <<< c
def shr (a : Word) (c : Nat) : Word := a >>> c
def sra (a : Word) (c : Nat) : Word := a.sshiftRight c
def rol (a : Word) (c : Nat) : Word := if c == 0 then a else (a <<< c) ||| (a >>> (32 - c))

def slt (a b : Word) : Bool := decide (a.toInt < b.toInt)
def sle (a b : Word) : Bool := decide (a.toInt ≤ b.toInt)
def ult (a b : Word) : Bool := decide (a.toNat < b.toNat)
def ule (a b : Word) : Bool := decide (a.toNat ≤ b.toNat)
def minS (a b : Word) : Word := if slt b a then b else a
def maxS (a b : Word) : Word := if slt a b then b else a
def minU (a b : Word) : Word := if ult b a then b else a
def maxU (a b : Word) : Word := if ult a b then b else a

/-- Number of set bits among the lowest n. -/
def popBelow {w : Nat} (x : BitVec w) : Nat → Nat
  | 0 => 0
  | n + 1 => popBelow x n + if x.getLsbD n then 1 else 0
def popcount (a : Word) : Word := BitVec.ofNat 32 (popBelow a 32)
/-- Zero bits from bit n − 1 down to the first set one. -/
def leadingFrom (a : Word) : Nat → Nat
  | 0 => 0
  | n + 1 => if a.getLsbD n then 0 else 1 + leadingFrom a n
def clz (a : Word) : Word := BitVec.ofNat 32 (leadingFrom a 32)
/-- The lowest set bit at or above 32 − n, or 32. -/
def trailingFrom (a : Word) : Nat → Nat
  | 0 => 32
  | n + 1 => if a.getLsbD (31 - n) then 31 - n else trailingFrom a n
def ctz (a : Word) : Word := BitVec.ofNat 32 (trailingFrom a 32)
/-- Bit j of the result is bit 31 − j of a. -/
def bitReverse (a : Word) : Word := BitVec.ofNat 32 (bitsBelow (fun j => a.getLsbD (31 - j)) 32)
def sexByte (a : Word) : Word := (a.truncate 8 : BitVec 8).signExtend 32
def sexHalf (a : Word) : Word := (a.truncate 16 : BitVec 16).signExtend 32

/-- Element j of width w of a word (R18). -/
def elem (w j : Nat) (a : Word) : BitVec w := BitVec.ofNat w (a.toNat / 2 ^ (w * j))

/-- Saturating sums and differences (R17). -/
def addSat (a b : Word) : Word := word (clamp (-2 ^ 31) (2 ^ 31 - 1) (a.toInt + b.toInt))
def subSat (a b : Word) : Word := word (clamp (-2 ^ 31) (2 ^ 31 - 1) (a.toInt - b.toInt))
def addSatU (a b : Word) : Word := word (clamp 0 (2 ^ 32 - 1) (a.toNat + b.toNat))
def subSatU (a b : Word) : Word := word (clamp 0 (2 ^ 32 - 1) ((a.toNat : Int) - b.toNat))
def absDiff (a b : Word) : Word := word ((a.toInt - b.toInt).natAbs)

/-- Packs and unpacks (R128). -/
def packBytes (sat : Bool) (x y : Word) : Word :=
  let h (v : Word) (j : Nat) : BitVec 8 :=
    if sat then BitVec.ofInt 8 (clamp (-128) 127 (elem 16 j v).toInt) else (elem 16 j v).truncate 8
  h y 1 ++ h y 0 ++ h x 1 ++ h x 0
def packHalves (sat : Bool) (x y : Word) : Word :=
  let h (v : Word) : BitVec 16 := if sat then BitVec.ofInt 16 (clamp (-32768) 32767 v.toInt) else v.truncate 16
  h y ++ h x
def unpackBytes (x : Word) : Word := (elem 8 1 x).signExtend 16 ++ (elem 8 0 x).signExtend 16
def unpackHalf (x : Word) : Word := (elem 16 1 x).signExtend 32

/-- t plus the four byte products (R134). -/
def dot4 (sat : Bool) (x y t : Word) : Word :=
  let p (j : Nat) : Int := (elem 8 j x).toInt * (elem 8 j y).toInt
  let r := t.toInt + p 0 + p 1 + p 2 + p 3
  word (if sat then clamp (-2 ^ 31) (2 ^ 31 - 1) r else r)
def dot4U (sat : Bool) (x y t : Word) : Word :=
  let p (j : Nat) : Nat := (elem 8 j x).toNat * (elem 8 j y).toNat
  let r : Int := (t.toNat + p 0 + p 1 + p 2 + p 3 : Nat)
  word (if sat then clamp 0 (2 ^ 32 - 1) r else r)

end Sys2Proof.Machine
end

