-- ==== Sys2Proof/Machine/Flags.lean ====
section
/-!
DEFINITION. Binary floating point: formats, exact values, the one rounding of R24 with its flags, the flag bits of %fflags
and the rounding mode of an instruction (spec/01 R19 to R31).
-/
namespace Sys2Proof.Machine

/-! ## Flags (R26) -/

def flagNX : BitVec 6 := 1
def flagUF : BitVec 6 := 2
def flagOF : BitVec 6 := 4
def flagDZ : BitVec 6 := 8
def flagNV : BitVec 6 := 16
def flagDERV : BitVec 6 := 32
/-- f where b holds. -/
def flagIf (b : Bool) (f : BitVec 6) : BitVec 6 := if b then f else 0

/-- The flags that an instruction raises are ORed into %fflags (R26). -/
def State.raiseFlags (s : State) (f : BitVec 6) : State := { s with ply := { s.ply with fflags := s.ply.fflags ||| f } }

/-! ## Formats (R19, R29) -/

/-- How a format spends its top exponent: infinity and NaNs of both kinds, infinity and quiet NaNs, one quiet NaN, none. -/
inductive Specials where
  | ieee | quiet | nanOnly | none
  deriving DecidableEq, Repr

structure Fmt where
  width : Nat
  ebits : Nat
  frac  : Nat
  bias  : Nat
  /-- Code of the largest finite magnitude. -/
  top   : Nat
  /-- The canonical NaN (R20). -/
  nan   : Nat
  specials : Specials
  deriving DecidableEq, Repr

def fp32 : Fmt := ⟨32, 8, 23, 127, 0x7F7FFFFF, 0x7FC00000, .ieee⟩
def fp16 : Fmt := ⟨16, 5, 10, 15, 0x7BFF, 0x7E00, .ieee⟩
def bf16 : Fmt := ⟨16, 8, 7, 127, 0x7F7F, 0x7FC0, .ieee⟩
def e4m3 : Fmt := ⟨8, 4, 3, 7, 0x7E, 0x7F, .nanOnly⟩
def e5m2 : Fmt := ⟨8, 5, 2, 15, 0x7B, 0x7E, .quiet⟩
def e2m1 : Fmt := ⟨4, 2, 1, 1, 0x7, 0x0, .none⟩

/-- An exact value: a NaN, a signed infinity, or ± m × 2^e; a zero keeps its sign. -/
inductive Value where
  | nan (signalling : Bool)
  | inf (neg : Bool)
  | fin (neg : Bool) (m : Nat) (e : Int)
  deriving DecidableEq, Repr

/-- Exponent of the last place of a subnormal. -/
def Fmt.low (f : Fmt) : Int := 1 - (f.bias : Int) - (f.frac : Int)

/-- The exact value of a code. -/
def Fmt.value (f : Fmt) (code : Nat) : Value :=
  let neg := code / 2 ^ (f.width - 1) % 2 == 1
  let ex := code / 2 ^ f.frac % 2 ^ f.ebits
  let fr := code % 2 ^ f.frac
  let topEx := ex == 2 ^ f.ebits - 1
  let finite : Value := if ex == 0 then .fin neg fr f.low else .fin neg (2 ^ f.frac + fr) (f.low + (ex - 1 : Nat))
  match f.specials with
  | .ieee => if topEx then (if fr == 0 then .inf neg else .nan (decide (fr < 2 ^ (f.frac - 1)))) else finite
  | .quiet => if topEx then (if fr == 0 then .inf neg else .nan false) else finite
  | .nanOnly => if topEx && fr == 2 ^ f.frac - 1 then .nan false else finite
  | .none => finite

/-- The code of a magnitude with a sign. -/
def Fmt.signed (f : Fmt) (neg : Bool) (mag : Nat) : Nat := (if neg then 2 ^ (f.width - 1) else 0) + mag
/-- The code of a signed infinity, in the formats that have one. -/
def Fmt.inf (f : Fmt) (neg : Bool) : Nat := f.signed neg ((2 ^ f.ebits - 1) * 2 ^ f.frac)

/-! ## Rounding (R21, R24) -/

/-- A rounding mode: 0 RNE, 1 RTZ, 2 RUP, 3 RDN, 4 RNA (R21). -/
abbrev Mode := Nat

/-- m / 2^k as an integer rounded in the mode, for a value of that sign; whether it was inexact. -/
def roundShift (mode : Mode) (neg : Bool) (m k : Nat) : Nat × Bool :=
  let q := m / 2 ^ k
  let r := m % 2 ^ k
  let up :=
    match mode with
    | 0 => decide (2 ^ k < 2 * r) || (2 * r == 2 ^ k && q % 2 == 1)
    | 1 => false
    | 2 => r != 0 && !neg
    | 3 => r != 0 && neg
    | _ => decide (2 ^ k ≤ 2 * r)
  (if up then q + 1 else q, r != 0)

/-- m × 2^e rounded to a multiple of 2^q. -/
def roundAt (mode : Mode) (neg : Bool) (m : Nat) (e q : Int) : Nat × Bool :=
  if q ≤ e then (m * 2 ^ (e - q).toNat, false) else roundShift mode neg m (q - e).toNat

/-- What an overflow gives (R24): whether infinity, or else the largest finite value. -/
def overflowsToInf (mode : Mode) (neg : Bool) : Bool :=
  match mode with
  | 0 => true
  | 1 => false
  | 2 => !neg
  | 3 => neg
  | _ => true

/-- A non-zero exact ± m × 2^e rounded once into the format (R24, R30): the code and its flags. sat is .SAT. -/
def Fmt.roundFin (f : Fmt) (mode : Mode) (sat neg : Bool) (m : Nat) (e : Int) : Nat × BitVec 6 :=
  if m == 0 then (f.signed neg 0, 0)
  else
    let q := e + (Nat.log2 m : Int) - (f.frac : Int)
    let (n, x) := roundAt mode neg m e q
    let (n, q) := if n == 2 ^ (f.frac + 1) then (2 ^ f.frac, q + 1) else (n, q)
    if q < f.low then
      let (n, x) := roundAt mode neg m e f.low
      (f.signed neg n, flagIf x (flagUF ||| flagNX))
    else
      let code := (q - f.low).toNat * 2 ^ f.frac + n
      if f.top < code then
        let mag :=
          match f.specials with
          | .none => f.top
          | .nanOnly => if sat || !overflowsToInf mode neg then f.top else f.nan
          | .quiet => if sat || !overflowsToInf mode neg then f.top else (2 ^ f.ebits - 1) * 2 ^ f.frac
          | .ieee => if !overflowsToInf mode neg then f.top else (2 ^ f.ebits - 1) * 2 ^ f.frac
        (if mag == f.nan && f.specials = .nanOnly then f.nan else f.signed neg mag, flagOF ||| flagNX)
      else (f.signed neg code, flagIf x flagNX)

/-- A NaN operand or an invalid operation gives the canonical NaN (R20). -/
def Fmt.invalid (f : Fmt) (nv : Bool) : Nat × BitVec 6 := (f.nan, flagIf nv flagNV)

/-- A value converted into the format (R24, R30). -/
def Fmt.convert (f : Fmt) (mode : Mode) (sat : Bool) (v : Value) : Nat × BitVec 6 :=
  match v with
  | .nan sg => match f.specials with
    | .none => (0, flagNV)
    | _ => f.invalid sg
  | .inf neg =>
    match f.specials with
    | .none => (f.signed neg f.top, flagOF)
    | .nanOnly => if sat then (f.signed neg f.top, flagOF) else f.invalid true
    | .quiet => if sat then (f.signed neg f.top, flagOF) else (f.inf neg, 0)
    | .ieee => (f.inf neg, 0)
  | .fin neg m e => f.roundFin mode sat neg m e

/-! ## The mode of an instruction (R22) -/

/-- The mode: the HRND hint, else a mode of its own bits, else %frnd. -/
def State.mode (s : State) (own : Option Nat := none) : Mode :=
  match s.issue.hrnd with
  | some h => h.toNat % 8
  | none => own.getD s.ply.frnd.toNat
/-- The mode of FADDMIN and FADDMAX: RNE without an HRND hint (R22, R25). -/
def State.modeRne (s : State) : Mode :=
  match s.issue.hrnd with
  | some h => h.toNat % 8
  | none => 0

end Sys2Proof.Machine
end

