-- ==== Sys2Proof/Machine/Float.lean ====
section
/-!
DEFINITION. The floating-point operations: sums, products, fused forms, quotients, roots, minima, comparisons, integral
values, conversions (spec/01 R24 to R31, spec/06 R140 to R149).
-/
namespace Sys2Proof.Machine

def Value.isNan : Value → Bool
  | .nan _ => true
  | _ => false
def Value.isSnan : Value → Bool
  | .nan s => s
  | _ => false
def Value.neg' : Value → Value
  | .nan s => .nan s
  | .inf n => .inf !n
  | .fin n m e => .fin (!n) m e
def Value.sign : Value → Bool
  | .nan _ => false
  | .inf n => n
  | .fin n _ _ => n

/-- ± m as an integer. -/
def signed (neg : Bool) (m : Nat) : Int := if neg then -(m : Int) else m

/-- The exact sum of two finite values as an integer times 2^e. -/
def addExact (n1 : Bool) (m1 : Nat) (e1 : Int) (n2 : Bool) (m2 : Nat) (e2 : Int) : Int × Int :=
  let e := min e1 e2
  (signed n1 (m1 * 2 ^ (e1 - e).toNat) + signed n2 (m2 * 2 ^ (e2 - e).toNat), e)

/-- A finite sum rounded, with the sign of an exact zero (R24). -/
def Fmt.sumFin (f : Fmt) (mode : Mode) (n1 : Bool) (m1 : Nat) (e1 : Int) (n2 : Bool) (m2 : Nat) (e2 : Int) :
    Nat × BitVec 6 :=
  let (t, e) := addExact n1 m1 e1 n2 m2 e2
  if t == 0 then
    let neg := if m1 == 0 && m2 == 0 && n1 == n2 then n1 else mode == 3
    (f.signed neg 0, 0)
  else f.roundFin mode false (decide (t < 0)) t.natAbs e

def Fmt.addV (f : Fmt) (mode : Mode) (x y : Value) : Nat × BitVec 6 :=
  match x, y with
  | .nan s, v => f.invalid (s || v.isSnan)
  | _, .nan s => f.invalid s
  | .inf a, .inf b => if a == b then (f.inf a, 0) else f.invalid true
  | .inf a, .fin _ _ _ => (f.inf a, 0)
  | .fin _ _ _, .inf b => (f.inf b, 0)
  | .fin n1 m1 e1, .fin n2 m2 e2 => f.sumFin mode n1 m1 e1 n2 m2 e2

def Fmt.mulV (f : Fmt) (mode : Mode) (x y : Value) : Nat × BitVec 6 :=
  match x, y with
  | .nan s, v => f.invalid (s || v.isSnan)
  | _, .nan s => f.invalid s
  | .inf a, .inf b => (f.inf (a != b), 0)
  | .inf a, .fin b m _ => if m == 0 then f.invalid true else (f.inf (a != b), 0)
  | .fin a m _, .inf b => if m == 0 then f.invalid true else (f.inf (a != b), 0)
  | .fin n1 m1 e1, .fin n2 m2 e2 => f.roundFin mode false (n1 != n2) (m1 * m2) (e1 + e2)

/-- x × y + t rounded once (R142). -/
def Fmt.fmaV (f : Fmt) (mode : Mode) (x y t : Value) : Nat × BitVec 6 :=
  let zeroInf :=
    match x, y with
    | .inf _, .fin _ m _ => m == 0
    | .fin _ m _, .inf _ => m == 0
    | _, _ => false
  if zeroInf then f.invalid true
  else if x.isNan || y.isNan || t.isNan then f.invalid (x.isSnan || y.isSnan || t.isSnan)
  else
    match x, y with
    | .fin n1 m1 e1, .fin n2 m2 e2 =>
      match t with
      | .fin n3 m3 e3 => f.sumFin mode (n1 != n2) (m1 * m2) (e1 + e2) n3 m3 e3
      | .inf n3 => (f.inf n3, 0)
      | .nan s => f.invalid s
    | _, _ =>
      let neg := x.sign != y.sign
      match t with
      | .inf n3 => if n3 == neg then (f.inf neg, 0) else f.invalid true
      | _ => (f.inf neg, 0)

/-- A quotient of positive integers a / b × 2^e, to n bits below the integer quotient: its odd last bit says inexact. -/
def quotient (a b n : Nat) : Nat := 2 * (a * 2 ^ n / b) + if a * 2 ^ n % b == 0 then 0 else 1

def Fmt.divV (f : Fmt) (mode : Mode) (x y : Value) : Nat × BitVec 6 :=
  match x, y with
  | .nan s, v => f.invalid (s || v.isSnan)
  | _, .nan s => f.invalid s
  | .inf _, .inf _ => f.invalid true
  | .inf a, .fin b _ _ => (f.inf (a != b), 0)
  | .fin a _ _, .inf b => (f.signed (a != b) 0, 0)
  | .fin n1 m1 e1, .fin n2 m2 e2 =>
    let neg := n1 != n2
    if m2 == 0 then (if m1 == 0 then f.invalid true else (f.inf neg, flagDZ))
    else if m1 == 0 then (f.signed neg 0, 0)
    else
      let n := Nat.log2 m2 + f.frac + 4
      f.roundFin mode false neg (quotient m1 m2 n) (e1 - e2 - (n : Int) - 1)

/-- The integer square root, bit by bit from bit n. -/
def isqrt (m : Nat) : Nat → Nat → Nat
  | 0, r => if (r + 1) * (r + 1) ≤ m then r + 1 else r
  | n + 1, r => isqrt m n (if (r + 2 ^ (n + 1)) * (r + 2 ^ (n + 1)) ≤ m then r + 2 ^ (n + 1) else r)
/-- The integer square root with an odd last bit where it is inexact. -/
def sqrtJam (m : Nat) : Nat :=
  let r := isqrt m (Nat.log2 m / 2 + 1) 0
  2 * r + if r * r == m then 0 else 1

def Fmt.sqrtV (f : Fmt) (mode : Mode) (x : Value) : Nat × BitVec 6 :=
  match x with
  | .nan s => f.invalid s
  | .inf neg => if neg then f.invalid true else (f.inf false, 0)
  | .fin neg m e =>
    if m == 0 then (f.signed neg 0, 0)
    else if neg then f.invalid true
    else
      let k : Int := 2 * f.frac + 8
      let e' := e - k
      let e' := if e' % 2 == 0 then e' else e' - 1
      f.roundFin mode false false (sqrtJam (m * 2 ^ (e - e').toNat)) (e' / 2 - 1)

/-! ## Order (R25, R143) -/

/-- x < y for values that are no NaN; the zeros are equal. -/
def Value.lt (x y : Value) : Bool :=
  match x, y with
  | .nan _, _ => false
  | _, .nan _ => false
  | .inf a, .inf b => a && !b
  | .inf a, .fin _ _ _ => a
  | .fin _ _ _, .inf b => !b
  | .fin n1 m1 e1, .fin n2 m2 e2 =>
    let e := min e1 e2
    decide (signed n1 (m1 * 2 ^ (e1 - e).toNat) < signed n2 (m2 * 2 ^ (e2 - e).toNat))
def Value.eq (x y : Value) : Bool := !x.isNan && !y.isNan && !x.lt y && !y.lt x
/-- x below y with −0 below +0. -/
def Value.below (x y : Value) : Bool := x.lt y || (x.eq y && x.sign && !y.sign)

/-- Minimum or maximum of two codes (R25): number says minimumNumber or maximumNumber. -/
def Fmt.minmax (f : Fmt) (max number : Bool) (a b : Nat) : Nat × BitVec 6 :=
  let x := f.value a
  let y := f.value b
  let fl := flagIf (x.isSnan || y.isSnan) flagNV
  if x.isNan && y.isNan then (f.nan, fl)
  else if x.isNan then (if number then b else f.nan, fl)
  else if y.isNan then (if number then a else f.nan, fl)
  else if max then (if x.below y then b else a, fl)
  else (if y.below x then b else a, fl)

/-- An fp compare (R143): 0 EQ, 1 NE, 2 LT, 3 LE, 4 GT, 5 GE, 6 UN, 7 ORD. -/
def Fmt.compare (f : Fmt) (k a b : Nat) : Bool × BitVec 6 :=
  let x := f.value a
  let y := f.value b
  let un := x.isNan || y.isNan
  let sn := flagIf (x.isSnan || y.isSnan) flagNV
  let qn := flagIf un flagNV
  match k with
  | 0 => (!un && x.eq y, sn)
  | 1 => (un || !x.eq y, sn)
  | 2 => (!un && x.lt y, qn)
  | 3 => (!un && (x.lt y || x.eq y), qn)
  | 4 => (!un && y.lt x, qn)
  | 5 => (!un && (y.lt x || x.eq y), qn)
  | 6 => (un, sn)
  | _ => (!un, sn)

/-! ## Integral values and conversions -/

/-- x rounded to an integral value in the mode (R140); nx says whether an inexact rounding raises NX. -/
def Fmt.integral (f : Fmt) (mode : Mode) (nx : Bool) (code : Nat) : Nat × BitVec 6 :=
  match f.value code with
  | .nan s => f.invalid s
  | .inf _ => (code, 0)
  | .fin neg m e =>
    let (n, x) := roundAt mode neg m e 0
    if x then ((f.roundFin 0 false neg n 0).1, flagIf nx flagNX) else (code, 0)

/-- A value rounded to an integer and clamped to lo and hi (R31). -/
def toInteger (mode : Mode) (lo hi : Int) (v : Value) : Int × BitVec 6 :=
  match v with
  | .nan _ => (0, flagNV)
  | .inf neg => (if neg then lo else hi, flagNV)
  | .fin neg m e =>
    let (n, x) := roundAt mode neg m e 0
    let i := signed neg n
    if i < lo then (lo, flagNV) else if hi < i then (hi, flagNV) else (i, flagIf x flagNX)

/-- An integer rounded into the format (R31). -/
def Fmt.ofInt (f : Fmt) (mode : Mode) (i : Int) : Nat × BitVec 6 := f.roundFin mode false (decide (i < 0)) i.natAbs 0

/-! ## The operations on codes -/

def Fmt.add (f : Fmt) (mode : Mode) (a b : Nat) : Nat × BitVec 6 := f.addV mode (f.value a) (f.value b)
def Fmt.sub (f : Fmt) (mode : Mode) (a b : Nat) : Nat × BitVec 6 := f.addV mode (f.value a) (f.value b).neg'
def Fmt.mul (f : Fmt) (mode : Mode) (a b : Nat) : Nat × BitVec 6 := f.mulV mode (f.value a) (f.value b)
def Fmt.div (f : Fmt) (mode : Mode) (a b : Nat) : Nat × BitVec 6 := f.divV mode (f.value a) (f.value b)
def Fmt.sqrt (f : Fmt) (mode : Mode) (a : Nat) : Nat × BitVec 6 := f.sqrtV mode (f.value a)
def Fmt.fma (f : Fmt) (mode : Mode) (a b c : Nat) : Nat × BitVec 6 := f.fmaV mode (f.value a) (f.value b) (f.value c)

/-- The one-hot class of an fp32 value (R141). -/
def fclass (code : Nat) : Nat :=
  match fp32.value code with
  | .nan true => 2 ^ 8
  | .nan false => 2 ^ 9
  | .inf neg => if neg then 1 else 2 ^ 7
  | .fin neg m _ =>
    if m == 0 then (if neg then 2 ^ 3 else 2 ^ 4)
    else if m < 2 ^ 23 then (if neg then 2 ^ 2 else 2 ^ 5)
    else (if neg then 2 else 2 ^ 6)

end Sys2Proof.Machine
end

