-- ==== Sys2Proof/Machine/LoadStore.lean ====
section
/-!
DEFINITION. The core's load-store unit: address formation and checks, LD, ST, LDX, STX, LDS, STS, TEXL, TEXB, fences,
XFENCE, CINV, CPREF, SPILL and FILL at issue (spec/08 R180 to R198), and what each queued access does when it is performed
(spec/04 R115, R116, spec/08 R176, R187, R189).
-/
namespace Sys2Proof.Machine

/-! ## Addresses of the lanes (R181, R184) -/

/-- The active lanes, and the active occupied ones (R100). -/
def State.loadLanes (s : State) : List Nat := s.active.lanes
def State.storeLanes (s : State) : List Nat := s.counted'.lanes

/-- One access of n bytes for each lane, checked in ascending lane order: the addresses, or the lowest lane's cause with
the XLATEs and PROTs of all of them (R181, R378). -/
def State.globalLanes (s : State) (acc : Access) (n : Nat) (lanes : List Nat) (ea : Nat → DWord) :
    Except (Cause × List Cause) (List LaneAddr) :=
  let m := s.pages s.ply.tenant acc (lanes.map ea)
  let rs := lanes.map fun i => (i, Pages.check m n (ea i) i)
  let bad := rs.filterMap fun (_, r) => match r with
    | .error c => some c
    | .ok _ => none
  match bad with
  | c :: _ => .error (c, bad.filter Cause.isPage)
  | [] => .ok (rs.filterMap fun (i, r) => match r with
    | .ok pa => some ⟨i, ea i, pa⟩
    | .error _ => none)

/-- The local accesses of the lanes, checked in ascending lane order (R184). -/
def State.localLanes (s : State) (store : Bool) (n : Nat) (lanes : List Nat) (ea : Nat → Word) :
    Except Cause (List (Space × LaneAddr)) :=
  lanes.foldl (fun r i =>
    match r with
    | .error c => .error c
    | .ok l =>
      match s.ply.checkLocal store n (ea i) i with
      | .error c => .error c
      | .ok (sp, a) => .ok (l ++ [(sp, ⟨i, (ea i).zeroExtend 64, a⟩)])) (.ok [])

/-- The index of a lane (R181): none for vz. -/
def State.index (s : State) (x : BitVec 7) (i : Nat) : Word := (s.V x).at i
/-- A scale code (R83). -/
def scaleOf (c : BitVec 2) : Nat :=
  match c.toNat with
  | 0 => 1
  | 1 => 2
  | 2 => 4
  | _ => 16
/-- The bytes of a size code (R182). -/
def sizeOf' (z : Nat) : Nat :=
  match z with
  | 0 | 1 => 1
  | 2 | 3 => 2
  | 4 => 4
  | _ => 16
/-- Registers that a size code takes. -/
def sizeRegs (z : Nat) : Nat := if z == 5 then 4 else 1

/-- The global address of a lane (R181). -/
def State.ea (s : State) (p : BitVec 6) (x : BitVec 7) (c : BitVec 2) (i : Nat) : DWord :=
  s.S64 p + BitVec.ofNat 64 (scaleOf c) * (s.index x i).signExtend 64 + s.disp
/-- The local address of a lane (R184). -/
def State.eaX (s : State) (b : BitVec 6) (x : BitVec 7) (c : BitVec 2) (i : Nat) : Word :=
  s.S b + BitVec.ofNat 32 (scaleOf c) * s.index x i + loWord s.disp

/-- The bytes that a lane stores (R182); vz supplies zeros. -/
def State.laneData (s : State) (v : BitVec 7) (z i : Nat) : List Byte :=
  let r (k : Nat) : Lanes := s.V (if v.toNat ≤ 119 then v + BitVec.ofNat 7 k else v)
  if z == 5 then (List.range 4).flatMap fun k => wordBytes ((r k).at i)
  else (wordBytes ((r 0).at i)).take (sizeOf' z)

/-- Queues an access of the issuing path (R189). -/
def State.queueMem (s : State) (k : MemKind) : State := s.enqueue s.ply.uid s.ply.slot s.issue.first k

/-! ## What a queued access reads and writes -/

/-- One observer's part of an access: the observer, whether it is in XBUF, the address, the bytes (R115). -/
structure Touch where
  lane : Nat
  loc  : Bool
  at'  : Nat
  n    : Nat
  deriving DecidableEq, Repr

def Touch.meets (a b : Touch) : Bool := a.loc == b.loc && decide (a.at' < b.at' + b.n) && decide (b.at' < a.at' + a.n)

/-- Bytes of a texel (R190), and of the slot of a spilled register (R197). -/
def fmtBits (f : Nat) : Nat :=
  match f with
  | 0 | 9 | 12 | 15 => 32
  | 1 | 2 | 8 | 11 | 13 => 16
  | 5 | 7 => 4
  | _ => 8
def channels (chan : Nat) : Nat :=
  match chan with
  | 0 => 1
  | 1 => 2
  | _ => 4
def texelBits (fmt chan : Nat) : Nat := fmtBits fmt * channels chan
def texelBytes (fmt chan : Nat) : Nat := (texelBits fmt chan + 7) / 8

def MemKind.reads : MemKind → List Touch
  | .load _ z ls _ => ls.map fun l => ⟨l.lane, false, l.pa, sizeOf' z⟩
  | .loadX _ z ls => ls.filterMap fun (sp, l) => if sp = .xbuf then some ⟨l.lane, true, l.pa, sizeOf' z⟩ else none
  | .lds _ wide l _ => [⟨l.lane, false, l.pa, if wide then 8 else 4⟩]
  | .tex _ _ f c loc ls _ => ls.flatMap fun t => t.at'.map fun l => ⟨l.lane, loc, l.pa, texelBytes f c⟩
  | .fill _ ls _ _ _ => ls.map fun l => ⟨l.lane, false, l.pa, 392⟩
  | .atom op _ _ _ ls _ => ls.map fun l => ⟨l.lane, false, l.pa, if op == 14 || op == 18 || op == 19 then 8 else 4⟩
  | _ => []

def MemKind.writes : MemKind → List Touch
  | .store ls _ => ls.map fun l => ⟨l.lane, false, l.pa, l.data.length⟩
  | .storeX ls _ => ls.map fun l => ⟨l.lane, true, l.pa, l.data.length⟩
  | .atom op _ _ _ ls _ => ls.map fun l => ⟨l.lane, false, l.pa, if op == 14 || op == 18 || op == 19 then 8 else 4⟩
  | _ => []

/-- An access that takes a value (R187): load, ATOM with ret, TEXL, TEXB, FILL. -/
def MemKind.takesValue : MemKind → Bool
  | .load _ _ _ _ | .loadX _ _ _ | .lds _ _ _ _ | .tex _ _ _ _ _ _ _ | .fill _ _ _ _ _ => true
  | .atom _ ret _ _ _ _ => ret
  | _ => false
/-- A store, ATOM or SPILL (R187). -/
def MemKind.isStore : MemKind → Bool
  | .store _ _ | .storeX _ _ | .atom _ _ _ _ _ _ | .faddd _ => true
  | _ => false
def MemKind.isAtom : MemKind → Bool
  | .atom _ _ _ _ _ _ | .faddd _ => true
  | _ => false

/-! ## Fences (R187, R196) -/

/-- The entries of a ply older than an issue number. -/
def Ply.older (p : Ply) (seq : Nat) : List MemOp := p.lsq.filter fun e => decide (e.seq < seq)

/-- Whether the release half of a fence at a scope, at an issue number, is satisfied. -/
def State.released' (s : State) (p : Ply) (seq scope : Nat) : Bool :=
  let early := p.older seq
  let atoms := s.stores.all fun q => q.uid != p.uid || q.core != noCore || decide (q.ctime ≤ s.now)
  if scope == 0 then !early.any (fun e => e.kind.isAtom) && atoms
  else
    !early.any (fun e => e.kind.isStore) && atoms && (scope < 2 || decide (p.cgw ≤ s.now)) &&
      (scope < 3 || decide (p.pgw.toNat ≤ s.now)) &&
      (scope < 4 || !s.fabric.any fun o => o.uid == p.uid && decide (o.seq < seq) &&
        match o.kind with
        | .rput _ _ _ _ | .msend _ _ _ => true
        | _ => false)

/-- Whether a fence of the queue is satisfied. -/
def State.fenceMet (s : State) (p : Ply) (e : MemOp) : Bool :=
  match e.kind with
  | .fence rel acq scope =>
    (!rel || s.released' p e.seq scope) && (!acq || !(p.older e.seq).any fun o => o.kind.takesValue)
  | .xfence => !(p.older e.seq).any fun o => o.kind.isStoreX
  | _ => true

/-- Whether a queued access may be performed: its fences are satisfied, and what it must follow has been performed. The
rows of an MCVST wait for the engine to convert them (R217) (log 40). -/
def State.performable (s : State) (p : Ply) (e : MemOp) : Bool :=
  let early := p.older e.seq
  let rd := e.kind.reads
  let wr := e.kind.writes
  let same (a b : Touch) : Bool := a.lane == b.lane && a.meets b
  let line (a b : Touch) : Bool := a.loc == b.loc && decide (lineOf a.at' ≤ lineOf (b.at' + b.n - 1)) &&
    decide (lineOf b.at' ≤ lineOf (a.at' + a.n - 1))
  let empty (o : MemOp) : Bool := (s.core p.core).mtxq.any fun m => m.seq == o.seq
  !empty e && !early.any (fun o => empty o && o.kind.writes.any fun a => (rd ++ wr).any a.meets) &&
  early.all (fun f => match f.kind with
    | .fence _ _ _ => s.fenceMet p f
    | _ => true) &&
  -- a lane's load follows its own atomics; one made at a shared unit supplies the value from its completion
  !early.any (fun o => o.kind.isAtom && o.kind.writes.any fun a => rd.any (same a)) &&
  !(s.stores.any fun q => q.uid == p.uid && q.core == noCore && decide (s.now < q.ctime) &&
    rd.any fun a => !a.loc && decide (q.pa < a.at' + a.n) && decide (a.at' < q.pa + q.data.length)) &&
  -- an atomic takes its ply's own earlier stores, once its unit holds them (R115, R335)
  (match e.kind with
    | .atom _ _ _ scope _ _ => !(s.stores.any fun q => q.uid == p.uid && !q.byUnit &&
        decide (s.now < if 3 ≤ scope then q.time else if scope == 2 && q.core != noCore then q.ctime else 0) &&
        wr.any fun a => decide (q.pa < a.at' + a.n) && decide (a.at' < q.pa + q.data.length))
    | _ => true) &&
  -- stores of one line keep their order (R327), and none passes a load of its own lane
  (wr.isEmpty || (
    !early.any (fun o => o.kind.writes.any fun a => wr.any (line a)) &&
    !early.any (fun o => o.kind.reads.any fun a => wr.any (same a)) &&
    !(e.kind.isStoreX && early.any fun o => o.kind.isStoreX)))

/-- Fences that are satisfied at the head of the queue leave it, and satisfied XFENCEs wherever they stand: with one, the
engines see every STX (R196). -/
def State.dropFences (s : State) (p : Ply) : (fuel : Nat) → List MemOp → List MemOp
  | 0, l => l
  | n + 1, e :: l =>
    match e.kind with
    | .fence _ _ _ => if s.fenceMet p e then State.dropFences s p n l else e :: l
    | _ => e :: l
  | _, [] => []
def State.settleLsq (s : State) (uid : Nat) : State :=
  match s.anyPly uid with
  | none => s
  | some p =>
    let met := p.lsq.filterMap fun e => match e.kind with
      | .xfence => if s.fenceMet p e then some e.seq else none
      | _ => none
    let keep := p.lsq.filter fun e => match e.kind with
      | .xfence => !s.fenceMet p e
      | _ => true
    let keep := s.dropFences { p with lsq := keep } (keep.length + 1) keep
    if keep.length == p.lsq.length then s
    else
      let t := met.foldl (fun t f => t.fenceOthers p f) s
      t.modAny uid fun q => { q with lsq := keep, stxOld := s.fenceWords p.core met q.stxOld }

/-- An access is over. -/
def State.removeMem (s : State) (uid seq : Nat) : State :=
  (s.modAny uid fun p => { p with lsq := p.lsq.filter fun e => e.seq != seq }).settleLsq uid

/-! ## The value that a load takes (R115, R116, R176) -/

/-- The byte that a queued store has for an observer at an address: the highest lane's, among those that pass. -/
def MemKind.byteFor (k : MemKind) (all : Bool) (lane : Nat) (loc : Bool) (a : Nat) : Option Byte :=
  let pick (ls : List LaneStore) : Option Byte :=
    ls.foldl (fun r l =>
      if (all || l.lane == lane) && decide (l.pa ≤ a) && decide (a < l.pa + l.data.length) then l.data[a - l.pa]? else r) none
  match k with
  | .store ls _ => if loc then none else pick ls
  | .storeX ls _ => if loc then pick ls else none
  | _ => none

/-- The byte forwarded to an observer from its own queued stores, and from every lane's before a release fence. -/
def Ply.forward (p : Ply) (seq lane : Nat) (loc : Bool) (a : Nat) : Option Byte :=
  let early := p.older seq
  let cut := early.foldl (fun m e => match e.kind with
    | .fence true _ _ => e.seq
    | _ => m) 0
  early.foldl (fun r e =>
    match e.kind.byteFor (decide (e.seq < cut)) lane loc a with
    | some b => some b
    | none => r) none

/-- Bytes of global memory as an observer of a ply reads them. -/
def State.bytesFor (s : State) (p : Ply) (seq lane pa n : Nat) : List Byte :=
  (s.seenN p.core pa n).zipIdx.map fun (b, i) => (p.forward seq lane false (pa + i)).getD b
/-- Bytes of a local space as an observer of a ply reads them. -/
def State.bytesX (s : State) (p : Ply) (seq lane : Nat) (sp : Space) (a n : Nat) : List Byte :=
  let now := s.localSeen p.core sp a n
  if sp = .xbuf then now.zipIdx.map fun (b, i) => (p.forward seq lane true (a + i)).getD b else now

/-- Whether some byte of an access comes from a failing granule or a retired vault (R351, R389). -/
def State.consumesBad (s : State) (p : Ply) (seq lane pa n : Nat) : Bool :=
  s.bad pa n &&
    ((s.vault (vaultOfPa pa)).retired ||
      (List.range n).any fun i =>
        (p.forward seq lane false (pa + i)).isNone &&
          !(s.stores.any fun q => q.visible p.core s.now && decide (q.pa ≤ pa + i) && decide (pa + i < q.pa + q.data.length)) &&
          s.failing.any fun g => decide (g ≤ pa + i) && decide (pa + i < g + 8))

/-- Where an uncorrectable error was found (R262): 0 DRAM, or, freely where the vault cache may hold the line, 1 (log 7). -/
def State.foundIn (s : State) (pa : Nat) : Nat :=
  if (s.vault (vaultOfPa pa)).cache.any (fun c => c.line == lineOf pa) && s.choose 102 then 1 else 0

/-- Lanes whose reads met bad granules end with MEMERR, sharing one record (R351, R380). -/
def State.memerrLanes (s : State) (uid : Nat) (pc : DWord) (consumer n : Nat) (bad : List LaneAddr) (whole : Bool) : State :=
  match bad with
  | [] => s
  | l :: _ =>
    let m := if whole then Mask.full else maskOf fun i => bad.any fun b => b.lane == i
    s.endByFault uid m (memerr (s.foundIn l.pa) consumer) pc l.va (s.granule l.pa n)

/-- Lanes whose stores meet a retired vault end with MEMERR (R389) (log 101). -/
def State.storesLost (s : State) (p : Ply) (e : MemOp) (lost : List LaneAddr) : State :=
  s.memerrLanes p.uid e.pc 6 1 lost (lost.any fun l => decide (96 ≤ l.lane))

/-! ## Performing a load -/

/-- A loaded element as a register word (R182). -/
def extendLoad (z : Nat) (b : List Byte) : Word :=
  match z with
  | 1 => (BitVec.ofNat 8 (leNat b)).signExtend 32
  | 3 => (BitVec.ofNat 16 (leNat b)).signExtend 32
  | _ => bytesWord b

/-- Writes words into the lanes of consecutive registers from v on; vz discards. -/
def Ply.putWords (p : Ply) (v : BitVec 7) (vals : List (Nat × List Word)) : Ply :=
  if 120 ≤ v.toNat then p
  else
    let n := vals.foldl (fun m x => max m x.2.length) 0
    (List.range n).foldl (fun p k =>
      p.putVLanes (v + BitVec.ofNat 7 k) (maskOf fun i => vals.any fun x => x.1 == i && decide (k < x.2.length)) fun i =>
        (((vals.lookup i).getD [])[k]?).getD 0) p

/-- Words of a loaded element. -/
def loadWords (z : Nat) (b : List Byte) : List Word :=
  if z == 5 then (List.range 4).map fun k => bytesWord (slice b (4 * k) 4) else [extendLoad z b]

/-- Splits accesses into those that meet a bad granule and the others. -/
def State.sound (s : State) (p : Ply) (seq n : Nat) (ls : List LaneAddr) : List LaneAddr × List LaneAddr :=
  (ls.filter fun l => s.consumesBad p seq l.lane l.pa n, ls.filter fun l => !s.consumesBad p seq l.lane l.pa n)

def State.performLoad (s : State) (p : Ply) (e : MemOp) (v : BitVec 7) (z : Nat) (ls : List LaneAddr) (policy : Nat) : State :=
  let n := sizeOf' z
  let (bad, good) := s.sound p e.seq n ls
  let vals := good.map fun l => (l.lane, loadWords z (s.bytesFor p e.seq l.lane l.pa n))
  let s := s.takeLeases p.tenant p.core policy (ls.map (·.pa))
  let s := (s.modAny p.uid fun p => p.putWords v vals).removeMem p.uid e.seq
  s.memerrLanes p.uid e.pc 0 n bad false

def State.performLoadX (s : State) (p : Ply) (e : MemOp) (v : BitVec 7) (z : Nat) (ls : List (Space × LaneAddr)) : State :=
  let n := sizeOf' z
  let vals := ls.map fun (sp, l) => (l.lane, loadWords z (s.bytesX p e.seq l.lane sp l.pa n))
  (s.modAny p.uid fun p => p.putWords v vals).removeMem p.uid e.seq

def State.performLds (s : State) (p : Ply) (e : MemOp) (d : BitVec 6) (wide : Bool) (l : LaneAddr) (policy : Nat) : State :=
  let n := if wide then 8 else 4
  let b := s.bytesFor p e.seq l.lane l.pa n
  let bad := s.consumesBad p e.seq l.lane l.pa n
  let s := s.takeLeases p.tenant p.core policy [l.pa]
  let s := if bad then s else s.modAny p.uid fun p =>
    let p := p.putS e.slot d (bytesWord (b.take 4))
    if wide then p.putS e.slot (d + 1) (bytesWord (b.drop 4)) else p
  let s := s.removeMem p.uid e.seq
  if bad then s.memerrLanes p.uid e.pc 0 n [l] true else s

/-- The 96 words that a slot holds (R198). -/
def unspill (b : List Byte) : Lanes :=
  let base := bytesWord (slice b 8 4)
  match num b 0 1 with
  | 4 => Lanes.zero
  | 1 => Lanes.splat base
  | 2 => Lanes.gen fun i => base + (BitVec.ofNat 8 (num b (12 + i) 1)).signExtend 32
  | 3 => Lanes.gen fun i => base + (BitVec.ofNat 16 (num b (12 + 2 * i) 2)).signExtend 32
  | _ => Lanes.gen fun i => bytesWord (slice b (8 + 4 * i) 4)

/-- The payload bytes of a spill format (R198). -/
def spillBytes (f : Nat) : Nat :=
  match f with
  | 4 => 0
  | 1 => 4
  | 2 => 100
  | 3 => 196
  | _ => 384

/-- FILL writes what it took into the lanes that were active at its issue (R198). -/
def State.performFill (s : State) (p : Ply) (e : MemOp) (v : Nat) (active : Mask) (taken : List (List Byte)) (bad : Option LaneAddr) :
    State :=
  match bad with
  | none =>
    (s.modAny p.uid fun p =>
      (taken.foldl (fun (p, k) b => (p.putVLanes (BitVec.ofNat 7 k) active (unspill b).at, k + 1)) (p, v)).1).removeMem p.uid e.seq
  | some l => (s.removeMem p.uid e.seq).endByFault p.uid active (memerr (s.foundIn l.pa) 0) e.pc l.va (s.granule l.pa 392)

/-! ## Texels (R190 to R193) -/

/-- A texel value for filtering: its exact value over a denominator (R193). -/
def texValue (fmt : Nat) (x : Nat) : Value × Nat :=
  match fmt with
  | 0 => (fp32.value x, 1)
  | 1 => (fp16.value x, 1)
  | 2 => (bf16.value x, 1)
  | 3 => (e4m3.value x, 1)
  | 10 => (.fin false x 0, 255)
  | _ => (.fin false x 0, 65535)

/-- The weighted sum of four values, weights in 1/65536, rounded to fp16 (R193): NaN for a NaN or an invalid sum. -/
def texFilter (vs : List (Nat × Value)) (den : Nat) : Nat :=
  let nan := vs.any fun (w, v) => match v with
    | .nan _ => true
    | .inf _ => w == 0
    | _ => false
  let pos := vs.any fun (_, v) => v = .inf false
  let neg := vs.any fun (_, v) => v = .inf true
  if nan || (pos && neg) then 0x7E00
  else if pos || neg then fp16.inf neg
  else
    let low := vs.foldl (fun m (_, v) => match v with
      | .fin _ _ e => min m e
      | _ => m) (0 : Int)
    let sum := vs.foldl (fun t (w, v) => match v with
      | .fin n m e => t + signed n (w * m * 2 ^ (e - low).toNat)
      | _ => t) (0 : Int)
    if sum == 0 then 0
    else (fp16.roundFin 0 false (decide (sum < 0)) (quotient sum.natAbs den 40) (low - 16 - 41)).1

/-- The registers that a texture lane writes (R192, R193), from the bytes of its texels. -/
def texResult (kind : TexKind) (fmt chan : Nat) (t : TexLane) (bs : List (List Byte)) : List Word :=
  match kind with
  | .nearest =>
    let b := bs.headD []
    if texelBits fmt chan < 8 then [BitVec.ofNat 32 (leNat b / 2 ^ t.fx % 16)]
    else (List.range ((b.length + 3) / 4)).map fun k => bytesWord (slice b (4 * k) 4)
  | .bilinear =>
    let w := [(256 - t.fx) * (256 - t.fy), t.fx * (256 - t.fy), (256 - t.fx) * t.fy, t.fx * t.fy]
    let k := fmtBits fmt / 8
    let e (c : Nat) : Nat :=
      if c < channels chan then
        let xs := bs.map fun b => texValue fmt (num b (k * c) k)
        texFilter (w.zip (xs.map (·.1))) ((xs.map (·.2)).headD 1)
      else if c == 3 then 0x3C00 else 0
    [BitVec.ofNat 32 (e 1 * 65536 + e 0), BitVec.ofNat 32 (e 3 * 65536 + e 2)]

def State.performTex (s : State) (p : Ply) (e : MemOp) (kind : TexKind) (d : BitVec 7) (fmt chan : Nat) (loc : Bool)
    (ls : List TexLane) (policy : Nat) : State :=
  let n := texelBytes fmt chan
  let get (l : LaneAddr) : List Byte :=
    if loc then s.bytesX p e.seq l.lane .xbuf l.pa n else s.bytesFor p e.seq l.lane l.pa n
  let isBad (t : TexLane) : Bool := !loc && t.at'.any fun l => s.consumesBad p e.seq l.lane l.pa n
  let vals := (ls.filter fun t => !isBad t).map fun t => (t.lane, texResult kind fmt chan t (t.at'.map get))
  let bad := (ls.filter isBad).flatMap fun t => t.at'.filter fun l => s.consumesBad p e.seq l.lane l.pa n
  let s := if loc then s else s.takeLeases p.tenant p.core policy (ls.flatMap fun t => t.at'.map (·.pa))
  let s := (s.modAny p.uid fun p => p.putWords d vals).removeMem p.uid e.seq
  s.memerrLanes p.uid e.pc 0 n bad false

/-- The access of a ply with that issue number takes its value (R187, R103). -/
def State.performRead (s : State) (p : Ply) (e : MemOp) : State :=
  match e.kind with
  | .load v z ls c => s.performLoad p e v z ls c
  | .loadX v z ls => s.performLoadX p e v z ls
  | .lds d w l c => s.performLds p e d w l c
  | .tex k d f c loc ls pol => s.performTex p e k d f c loc ls pol
  | .fill v _ m b l => s.performFill p e v m b l
  | _ => s

/-! ## Performing a store -/

/-- The scope of each lane that stores (R258); the ply's default scope for the scalar unit and SPILL. -/
def Ply.scopesOf (p : Ply) (lanes : List Nat) : List (BitVec 24) :=
  (lanes.map fun i => if i < 96 then ((p.lanes[i]?).getD LaneInfo.empty).scope else p.scope).eraseDups

/-- A store leaves the queue for its homes, lanes in ascending order (R116, R326): it enters the L1 write path, reaches the L2 and
its homes, and is acknowledged, in one step (log 104). A lane's store into the range of a retired vault is lost, and its task ends;
the ply's own, for SPILL and STS, ends every occupied lane (R389) (log 101). -/
def State.performStore (s : State) (p : Ply) (e : MemOp) (ls : List LaneStore) (policy : Nat) : State :=
  let gone := fun (l : LaneStore) => (s.vault (vaultOfPa l.pa)).retired
  let s1 := (ls.filter fun l => !gone l).foldl (fun s l =>
    s.arriveN p.uid p.core p.tenant policy 0 (p.scopesOf [l.lane]) l.pa l.data) s
  let s2 := (s1.stamp s e.seq).removeMem p.uid e.seq
  let lost := ls.filter gone
  s2.storesLost p e (lost.map fun l => ⟨l.lane, l.va, l.pa⟩)

/-- An STX writes the XBUF (R185); an engine may see the old words until the ply's next XFENCE (R231). -/
def State.performStoreX (s : State) (p : Ply) (e : MemOp) (ls : List LaneStore) (byMcvst : Bool) : State :=
  let s := ls.foldl (fun s l =>
    if byMcvst then s.engineWrite ⟨e.seq, p.uid, none, none⟩ p.core .xbuf l.pa l.data
    else s.stxWrite p.uid e.seq p.core l.pa l.data) s
  let s := s.removeMem p.uid e.seq
  if s.ghosts.any fun q => q.uid == p.uid then s.releaseFor p.uid else s

/-- STORE_AT_HOME (R326): a queued store of a ply leaves its queue. -/
def execStoreAtHome (ply seq : Nat) (s : State) : Outcome :=
  (match s.anyPly ply with
  | none => s
  | some p =>
    match p.lsq.find? fun (e : MemOp) => e.seq == seq with
    | none => s
    | some e =>
      if s.performable p e then
        match e.kind with
        | .store ls c => (s.performStore p e ls c).reap
        | .storeX ls m => (s.performStoreX p e ls m).reap
        | _ => s
      else s).ok

/-- The launch queues whose tail or deadline word lies in a line: each write to the line that its home performs is reported
to the hub (R360). -/
def State.reportsOf (s : State) (line : Nat) : List (Nat × Nat) :=
  let at' (t : Nat) (va : DWord) : Bool :=
    match s.translate t .read va with
    | .ok pa => lineOf pa == line
    | .error _ => false
  s.tenants.flatMap fun (t, x) =>
    (x.queues.filter fun (_, q) => at' t q.tailAt || q.qdead != 0 && at' t q.qdead).map fun (k, _) => (t, k)

/-- A request to the loader ends: its image's exports become visible, and its report goes to the requester (R68, R69). -/
def State.answerLoad (s : State) (l : Loading) : State :=
  let s := { s with outgoing := s.outgoing ++ [⟨0, l.tenant, 3, 0, l.report⟩] }
  match l.image with
  | some i => s.modTenant l.tenant fun t => { t with images := t.images ++ [i] }
  | none => s
/-- The requests to the loader that end, each once its writes are performed and the tenant's earlier ones have ended (R69). -/
def State.answerLoads (s : State) : State :=
  s.loads.foldl (fun s l =>
    if s.loads.any (fun k => k.tenant == l.tenant) || s.now < l.due then { s with loads := s.loads ++ [l] } else s.answerLoad l)
    { s with loads := [] }

/-- CLUSTER_COMPLETION_TIME (R303): the store is visible in its cluster from then on. -/
def execClusterCompletionTime (store : Nat) (s : State) : Outcome :=
  ({ s with
    stores := s.stores.map fun (p : PendingStore) => if p.seq == store && decide (p.ctime ≤ s.now) then { p with clusterDone := true } else p } :
    State).ok

/-! ## Issue: LD, ST, LDX, STX (R180 to R185) -/

/-- LD (R181, R182). With .ACQ and no active lane only its fence is left (R188). -/
def execLd (v : BitVec 7) (p : BitVec 6) (x : BitVec 7) (c : BitVec 2) (z : BitVec 3) (q : BitVec 1) (s : State) : Outcome :=
  (s.checkRun v (sizeRegs z.toNat) <| s.checkV [x] <|
    let lanes := s.loadLanes
    if lanes.isEmpty then (if q == 1 then s.queueMem (.fence false true s.hord) else s).done
    else
      match s.globalLanes .read (sizeOf' z.toNat) lanes (s.ea p x c) with
      | .error (e, all) => s.raise e all
      | .ok ls =>
        let s := (s.fillTlb s.ply.tenant (ls.map (·.va))).queueMem (.load v z.toNat ls s.policy)
        (if q == 1 then s.queueMem (.fence false true s.hord) else s).done).ok

/-- ST (R181, R182). Vacant lanes suppress the stores alone: with .REL its fence is left (R100, R188). -/
def execSt (v : BitVec 7) (p : BitVec 6) (x : BitVec 7) (c : BitVec 2) (z : BitVec 3) (q : BitVec 1) (s : State) : Outcome :=
  (s.checkRun v (sizeRegs z.toNat) <| s.checkV [x] <|
    let lanes := s.storeLanes
    if lanes.isEmpty then (if q == 1 then s.queueMem (.fence true false s.hord) else s).done
    else
      match s.globalLanes .write (sizeOf' z.toNat) lanes (s.ea p x c) with
      | .error (e, all) => s.raise e all
      | .ok ls =>
        let data := ls.map fun l => (⟨l.lane, l.va, l.pa, s.laneData v z.toNat l.lane⟩ : LaneStore)
        let s := s.fillTlb s.ply.tenant (ls.map (·.va))
        let s := if q == 1 then s.queueMem (.fence true false s.hord) else s
        (s.queueMem (.store data s.policy)).done).ok

/-- LDX (R184). -/
def execLdx (v : BitVec 7) (b : BitVec 6) (x : BitVec 7) (c : BitVec 2) (z : BitVec 3) (s : State) : Outcome :=
  (s.checkRun v (sizeRegs z.toNat) <| s.checkV [x] <|
    let lanes := s.loadLanes
    if lanes.isEmpty then s.done
    else
      match s.localLanes false (sizeOf' z.toNat) lanes (s.eaX b x c) with
      | .error e => s.raise e
      | .ok ls => (s.queueMem (.loadX v z.toNat ls)).done).ok

/-- STX (R184). -/
def execStx (v : BitVec 7) (b : BitVec 6) (x : BitVec 7) (c : BitVec 2) (z : BitVec 3) (s : State) : Outcome :=
  (s.checkRun v (sizeRegs z.toNat) <| s.checkV [x] <|
    let lanes := s.storeLanes
    if lanes.isEmpty then s.done
    else
      match s.localLanes true (sizeOf' z.toNat) lanes (s.eaX b x c) with
      | .error e => s.raise e
      | .ok ls =>
        (s.queueMem (.storeX (ls.map fun (_, l) => ⟨l.lane, l.va, l.pa, s.laneData v z.toNat l.lane⟩) false)).done).ok

/-! ## LDS and STS (R186) -/

/-- The address of an LDS or STS. -/
def State.eaS (s : State) (p : BitVec 6) (i : BitVec 11) : DWord := s.S64 p + (s.imm11 i).signExtend 64

/-- LDS (R186). -/
def execLds (d p : BitVec 6) (q z : BitVec 1) (i : BitVec 11) (s : State) : Outcome :=
  let va := s.eaS p i
  (match s.checkGlobal s.ply.tenant .read (if z == 1 then 8 else 4) va 127 with
  | .error e => s.raise e
  | .ok pa =>
    let s := (s.fillTlb s.ply.tenant [va]).queueMem (.lds d (z == 1) ⟨96, va, pa⟩ s.policy)
    (if q == 1 then s.queueMem (.fence false true s.hord) else s).done).ok

/-- STS (R186) (log 41). -/
def execSts (d p : BitVec 6) (q z : BitVec 1) (i : BitVec 11) (s : State) : Outcome :=
  let va := s.eaS p i
  (match s.checkGlobal s.ply.tenant .write (if z == 1 then 8 else 4) va 127 with
  | .error e => s.raise e
  | .ok pa =>
    let data := if z == 1 then dwordBytes (s.S64 d) else wordBytes (s.S d)
    let s := s.fillTlb s.ply.tenant [va]
    let s := if q == 1 then s.queueMem (.fence true false s.hord) else s
    (s.queueMem (.store [⟨96, va, pa, data⟩] s.policy)).done).ok

/-! ## Fences (R187, R196) -/

/-- FENCE (R187). -/
def execFence (s : State) : Outcome := (State.settleLsq (s.queueMem (.fence true true s.hord)).done s.ply.uid).ok
/-- FENCE.REL (R187). -/
def execFenceRel (s : State) : Outcome := (State.settleLsq (s.queueMem (.fence true false s.hord)).done s.ply.uid).ok
/-- FENCE.ACQ (R187). -/
def execFenceAcq (s : State) : Outcome := (State.settleLsq (s.queueMem (.fence false true s.hord)).done s.ply.uid).ok
/-- XFENCE (R196). -/
def execXfence (s : State) : Outcome := (State.settleLsq (s.queueMem .xfence).done s.ply.uid).ok

/-! ## Cache control (R195) -/

/-- The lines of a range that translate for reading; a page that does not is skipped. -/
def State.readableLines (s : State) (base : DWord) (n : Nat) : List Nat :=
  (cutPages (n / 65536 + 2) base n).flatMap fun (a, k) =>
    match s.checkGlobal s.ply.tenant .read 1 a 127 with
    | .error _ => []
    | .ok pa => (List.range ((pa + k - 1) / 128 - pa / 128 + 1)).map (pa / 128 + ·)

/-- CINV (R195): the lines leave the core's L1. -/
def execCinv (p l : BitVec 6) (s : State) : Outcome :=
  let n := (s.S l).toNat
  let lines := if n == 0 then [] else s.readableLines (s.S64 p) n
  (State.done { s with l1Leases := s.l1Leases.filter fun e => !(e.unit == s.ply.core && lines.contains e.line) }).ok

/-- CPREF (R195): the first 64 KiB of the range are requested into the level, under its cache policy (R170, R178). -/
def execCpref (p l : BitVec 6) (v : BitVec 2) (s : State) : Outcome :=
  let n := min (s.S l).toNat 65536
  let lines := if n == 0 then [] else s.readableLines (s.S64 p) n
  let t := s.ply.tenant
  let pol := s.policy
  (lines.foldl (fun s i =>
    if v == 2 || pol == 2 then s.homeRead t i pol
    else s.takeLease t s.ply.core (if v == 1 || pol == 1 then 1 else 0) i) s).done.ok

/-! ## TEXL and TEXB (R190 to R194) -/

/-- The offset of a texel in bits (R190) (log 38). -/
def texelOffset (bits pitch layout wm1 x y : Nat) : Nat :=
  if layout == 0 then y * 128 * pitch + x * bits
  else
    let m := (List.range 4).foldl (fun m k => m + (x / 2 ^ k % 2) * 4 ^ k + (y / 2 ^ k % 2) * 2 * 4 ^ k) 0
    ((y / 16 * (wm1 / 16 + 1) + x / 16) * 256 + m) * bits

/-- An integer coordinate clamped to 0 and the last (R192). -/
def texClamp (i : Int) (last : Nat) : Nat := (clamp 0 last i).toNat

/-- floor(x − 1/2) and the fraction rounded to 1/256 (R193); the floor is taken at the image's edges beyond them. -/
def texCoord (x : Nat) : Int × Nat :=
  match fp32.value x with
  | .nan _ => (-1, 128)
  | .inf n => (if n then -2 ^ 31 else 2 ^ 31, 0)
  | .fin n m e =>
    let low := min e (-1)
    let p : Int := signed n (m * 2 ^ (e - low).toNat) - 2 ^ (-1 - low).toNat
    let k := (-low).toNat
    (p / 2 ^ k, (roundShift 0 false ((p % 2 ^ k).toNat * 256) k).1)

/-- The texel addresses of one lane: one for TEXL, four for TEXB, and the fractions (for a 4-bit texel its bit). -/
def texPlaces (kind : TexKind) (bits pitch layout wm1 hm1 : Nat) (x y : Word) : List Nat × Nat × Nat :=
  match kind with
  | .nearest =>
    let o := texelOffset bits pitch layout wm1 (texClamp x.toInt wm1) (texClamp y.toInt hm1)
    ([o / 8], o % 8, 0)
  | .bilinear =>
    let (x0, fx) := texCoord x.toNat
    let (y0, fy) := texCoord y.toNat
    let at' (dx dy : Int) : Nat := texelOffset bits pitch layout wm1 (texClamp (x0 + dx) wm1) (texClamp (y0 + dy) hm1) / 8
    ([at' 0 0, at' 1 0, at' 0 1, at' 1 1], fx, fy)

/-- Whether an image's layout, chan and fmt are accepted (R190, R192, R193). -/
def texAccepts (kind : TexKind) (fmt chan layout : Nat) : Bool :=
  layout < 2 && chan != 3 &&
    match kind with
    | .nearest => fmt != 14
    | .bilinear => [0, 1, 2, 3, 10, 11].contains fmt

/-- The checks of one texel read at a byte offset of an image (R191). -/
def State.texCheck (s : State) (base : DWord) (off n lane : Nat) : Except Cause LaneAddr :=
  if isLocal base then
    match local64 base with
    | none => .error (localRange 2 base lane)
    | some (sp, o) =>
      let a := o + off
      let va : DWord := BitVec.ofNat 64 (a % 2 ^ 30)
      if sp != .xbuf then .error (localRange 3 base lane)
      else if s.ply.windowSize < a + n then .error (localRange 0 va lane)
      else .ok ⟨lane, va, s.ply.absolute .xbuf a⟩
  else
    let va := base + BitVec.ofNat 64 off
    match s.checkGlobal s.ply.tenant .read 1 va lane with
    | .error c => .error c
    | .ok pa => .ok ⟨lane, va, pa⟩

/-- TEXL and TEXB at issue (R191). ENGINE 1 reports the image base as its address, which R169 does not state (log 15). -/
def State.texIssue (s : State) (kind : TexKind) (d c : BitVec 7) (b : BitVec 6) : State :=
  let base := s.S64 b
  let dim := s.S (b + 2)
  let w := (s.S (b + 3)).toNat
  let fmt := w % 16
  let chan := bits w 5 4
  let layout := bits w 7 6
  let pitch := w / 256
  let wm1 := dim.toNat % 65536
  let hm1 := dim.toNat / 65536
  let ok := texAccepts kind fmt chan layout
  let regs := match kind with
    | .nearest => if chan == 3 || fmt == 14 then 1 else (texelBytes fmt chan + 3) / 4
    | .bilinear => 2
  let bits := texelBits fmt chan
  let n := texelBytes fmt chan
  s.checkRun d regs <| s.checkRun c 2 <|
    if !ok then s.raise (engine 1 base)
    else if base.toNat % 16 != 0 then s.raise (align base)
    else
      let y := s.V (if c.toNat ≤ 119 then c + 1 else c)
      let xs := s.V c
      let rs : List (Except Cause TexLane) := s.loadLanes.flatMap fun i =>
        let (offs, fx, fy) := texPlaces kind bits pitch layout wm1 hm1 (xs.at i) (y.at i)
        let ps := offs.map fun o => s.texCheck base o n i
        let bad := ps.filterMap fun r => match r with
          | .error e => some e
          | .ok _ => none
        if bad.isEmpty then
          [.ok ⟨i, ps.filterMap (fun r => match r with
            | .ok a => some a
            | .error _ => none), fx, fy⟩]
        else bad.map .error
      let bad := rs.filterMap fun r => match r with
        | .error e => some e
        | .ok _ => none
      match bad with
      | e :: _ => s.raise e (bad.filter Cause.isPage)
      | [] =>
        let ls := rs.filterMap fun r => match r with
          | .ok t => some t
          | .error _ => none
        if ls.isEmpty then s.done
        else
          let s := if isLocal base then s else s.fillTlb s.ply.tenant (ls.flatMap fun t => t.at'.map (·.va))
          (s.queueMem (.tex kind d fmt chan (isLocal base) ls s.policy)).done

/-- TEXL (R192). -/
def execTexl (d c : BitVec 7) (b : BitVec 6) (s : State) : Outcome := (s.texIssue .nearest d c b).ok
/-- TEXB (R193). -/
def execTexb (d c : BitVec 7) (b : BitVec 6) (s : State) : Outcome := (s.texIssue .bilinear d c b).ok

/-! ## SPILL and FILL (R197, R198) -/

/-- The format of a register and its payload (R198). -/
def spillFormat (v : Lanes) : Nat × List Byte :=
  let w := (List.range 96).map v.at
  let b := v.at 0
  let d := w.map fun x => (x - b).toInt
  if w.all (· == 0) then (4, [])
  else if w.all (· == b) then (1, wordBytes b)
  else if d.all fun x => decide (-128 ≤ x) && decide (x ≤ 127) then
    (2, wordBytes b ++ d.map fun x => BitVec.ofInt 8 x)
  else if d.all fun x => decide (-32768 ≤ x) && decide (x ≤ 32767) then
    (3, wordBytes b ++ d.flatMap fun x => leBytes 2 (BitVec.ofInt 16 x).toNat)
  else (0, w.flatMap wordBytes)

/-- Checks the slots of a SPILL or FILL (R197). -/
def State.slots (s : State) (acc : Access) (base : DWord) (n : Nat) : Except (Cause × List Cause) (List LaneAddr) :=
  if base.toNat % 512 != 0 then .error (align base, [])
  else
    let rs := (List.range n).map fun j =>
      let va := base + BitVec.ofNat 64 (512 * j)
      (va, s.checkGlobal s.ply.tenant acc 1 va 127)
    let bad := rs.filterMap fun (_, r) => match r with
      | .error c => some c
      | .ok _ => none
    match bad with
    | c :: _ => .error (c, bad.filter Cause.isPage)
    | [] => .ok (rs.filterMap fun (va, r) => match r with
      | .ok pa => some ⟨97, va, pa⟩
      | .error _ => none)

/-- SPILL (R197, R198): a store of the ply, whatever is active (log 42). -/
def execSpill (v : BitVec 7) (p : BitVec 6) (n : BitVec 3) (s : State) : Outcome :=
  let k := n.toNat + 1
  (s.checkRun v k <|
    match s.slots .write (s.S64 p) k with
    | .error (e, all) => s.raise e all
    | .ok ls =>
      let data := (ls.zip (List.range k)).map fun (l, j) =>
        let f := spillFormat (s.V (v + BitVec.ofNat 7 j))
        (⟨97, l.va, l.pa, [BitVec.ofNat 8 f.1] ++ zeros 7 ++ f.2⟩ : LaneStore)
      ((s.fillTlb s.ply.tenant (ls.map (·.va))).queueMem (.store data 0)).done).ok

/-- FILL (R197, R198): it takes the bytes of its slots as it issues, once the fences before it are satisfied (log 14); a slot with no
format raises ENGINE 2 and nothing is filled. -/
def execFill (v : BitVec 7) (p : BitVec 6) (n : BitVec 3) (s : State) : Outcome :=
  let k := n.toNat + 1
  (s.checkRun v k <|
    match s.slots .read (s.S64 p) k with
    | .error (e, all) => s.raise e all
    | .ok ls =>
      let taken := ls.map fun l => s.bytesFor s.ply (s.seq + 1) 97 l.pa 392
      let bad := (ls.zip taken).find? fun (l, b) => s.consumesBad s.ply (s.seq + 1) 97 l.pa (8 + spillBytes (num b 0 1))
      match (ls.zip taken).find? fun (_, b) => decide (4 < num b 0 1) with
      | some (l, _) => s.raise (engine 2 l.va)
      | none =>
        let t := (s.fillTlb s.ply.tenant (ls.map (·.va))).takeLeases s.ply.tenant s.ply.core 0 (ls.map (·.pa))
        (t.queueMem (.fill v.toNat ls s.active taken (bad.map (·.1)))).done).ok

end Sys2Proof.Machine
end

