-- ==== Sys2Proof/Machine/Atomics.lean ====
section
/-!
DEFINITION. ATOM: its issue, the units that perform it, FADDR's free order, FADDD windows and their close (spec/16 R330 to
R341).
-/
namespace Sys2Proof.Machine

/-! ## The operations (R332) -/

/-- Element bytes of an op (R331). -/
def atomBytes (op : Nat) : Nat := if op == 14 || op == 18 || op == 19 then 8 else 4
/-- Ops that read or write v + 1 (R330). -/
def atomPair (op : Nat) : Bool := op == 10 || op == 14 || op == 18 || op == 19

/-- r ≤ L, an ordered compare of fp32 codes. -/
def fle (r l : Nat) : Bool := (fp32.compare 3 r l).1

/-- One lane's operation on the element's value m: the new value and the words returned (R332). -/
def atomStep (op m : Nat) (a b : Word) : Nat × Word × Word :=
  let w := BitVec.ofNat 32 m
  let one (x : Word) : Nat × Word × Word := (x.toNat, w, 0)
  match op with
  | 0 => one (w + a)
  | 1 => one (w - a)
  | 2 => one (w &&& a)
  | 3 => one (w ||| a)
  | 4 => one (w ^^^ a)
  | 5 => one (minS w a)
  | 6 => one (maxS w a)
  | 7 => one (minU w a)
  | 8 => one (maxU w a)
  | 9 => one a
  | 10 => one (if a == w then b else w)
  | 11 => one (if ult w a then w + 1 else w)
  | 12 => one (if ule a w then 0 else w + 1)
  | 13 => one (if w != 0 then w - 1 else w)
  | 14 =>
    let r := (fp32.add 0 (m % 2 ^ 32) a.toNat).1
    if fle r (m / 2 ^ 32) then (m / 2 ^ 32 * 2 ^ 32 + r, w, 0) else (m, w, 1)
  | 18 => ((m + (pair a b).toNat) % 2 ^ 64, w, BitVec.ofNat 32 (m / 2 ^ 32))
  | 19 =>
    let x := BitVec.ofNat 64 m
    let y := pair a b
    ((if x.toInt < y.toInt then y else x).toNat, w, BitVec.ofNat 32 (m / 2 ^ 32))
  | _ => one (BitVec.ofNat 32 (fp32.add 0 m a.toNat).1)

/-- The lanes of one element one after another, in ascending order (R333): the value left and each lane's return. -/
def atomLanes (op : Nat) : Nat → List AtomLane → Nat × List (AtomLane × Word × Word)
  | m, [] => (m, [])
  | m, l :: ls =>
    let (m', r, t) := atomStep op m l.a l.b
    let (n, rs) := atomLanes op m' ls
    (n, (l, r, t) :: rs)

/-- The RNE fold of fp32 codes in ascending order. -/
def foldRne : List Nat → Nat
  | [] => 0
  | x :: l => l.foldl (fun s y => (fp32.add 0 s y).1) x

/-- FADD (R333): the operands are folded first. -/
def faddLanes (m : Nat) (ls : List AtomLane) : Nat × List (AtomLane × Word × Word) :=
  let at' (k : Nat) : Nat := if k == 0 then m else (fp32.add 0 m (foldRne ((ls.take k).map (·.a.toNat)))).1
  (at' ls.length, (ls.zip (List.range ls.length)).map fun (l, k) => (l, BitVec.ofNat 32 (at' k), 0))

/-- The fold of a list under an association that free ranks choose: adjacent pairs are joined one at a time. -/
def foldFree (t : Nat) : (fuel seed : Nat) → List Nat → Nat
  | 0, _, l => foldRne l
  | n + 1, seed, l =>
    match l with
    | [] => 0
    | [x] => x
    | _ =>
      let k := Config.rank t (1000 + seed) % (l.length - 1)
      foldFree t n (seed + 1) (l.take k ++ [(fp32.add 0 (l.getD k 0) (l.getD (k + 1) 0)).1] ++ l.drop (k + 2))

/-- FADDR (R333): an order of the lanes and associations that free ranks choose (log 8). -/
def faddrLanes (t m : Nat) (ls : List AtomLane) : Nat × List (AtomLane × Word × Word) :=
  let order := sortBy (fun a b => decide (Config.rank t a.lane < Config.rank t b.lane)) ls
  let at' (k : Nat) : Nat :=
    if k == 0 then m
    else (fp32.add 0 m (foldFree t 96 (2000 * k) ((order.take k).map (·.a.toNat)))).1
  (at' order.length, (order.zip (List.range order.length)).map fun (l, k) => (l, BitVec.ofNat 32 (at' k), 0))

/-! ## Performing an ATOM (R334, R335) -/

/-- The byte that the unit of a scope holds for a ply: the core's L1, the cluster's L2, the home. -/
def State.atUnit (s : State) (p : Ply) (scope pa : Nat) : Byte :=
  if scope < 2 then s.seen p.core pa
  else if scope == 2 then
    s.stores.foldl (fun b q =>
      if q.cluster == clusterOf p.core && (q.core == noCore || decide (q.ctime ≤ s.now)) || decide (q.time ≤ s.now) then overlay q.pa q.data pa b else b) (s.mem.read pa)
  else s.atHome pa

/-- Writes an atomic's new value from its unit: seen at the unit at once, and written through to the home. -/
def State.atomWrite (s : State) (p : Ply) (scope policy : Nat) (scopes : List (BitVec 24)) (pa : Nat) (d : List Byte) : State :=
  if scope < 2 then s.arriveAs p.uid p.core (clusterOf p.core) p.tenant policy 0 scopes pa d
  else if scope == 2 then s.arriveAs p.uid noCore (clusterOf p.core) p.tenant policy 0 scopes pa d
  else ((s.homeAtomic p.tenant (lineOf pa) policy).arriveAs p.uid noCore 64 p.tenant policy 0 scopes pa d false).fromUnit s

/-- The groups of lanes that name one element, in the order of their lowest lanes (R333). -/
def groups (ls : List AtomLane) : List (Nat × List AtomLane) :=
  ((ls.map (·.pa)).eraseDups).map fun a => (a, ls.filter fun l => l.pa == a)

/-- One request at its unit: the lanes of one element (R333). -/
def State.atomRequest (s : State) (p : Ply) (op scope policy pa : Nat) (ls : List AtomLane) :
    State × List (AtomLane × Word × Word) :=
  let n := atomBytes op
  let m := leNat ((List.range n).map fun i => s.atUnit p scope (pa + i))
  let (m', rs) :=
    if op == 15 then faddLanes m ls
    else if op == 16 then faddrLanes s.tick m ls
    else atomLanes op m ls
  let w := if op == 14 then 4 else n
  let written := op != 14 || rs.any fun r => r.2.2 == 0
  (if written then s.atomWrite p scope policy (p.scopesOf (ls.map (·.lane))) pa (leBytes w m') else s, rs)

/-- Writes the returns of the lanes that keep them (R331, R336). -/
def Ply.putReturns (p : Ply) (op : Nat) (v : BitVec 7) (rs : List (AtomLane × Word × Word)) : Ply :=
  let two := op == 14 || op == 18 || op == 19
  p.putWords v ((rs.filter fun r => !r.1.discard).map fun (l, x, y) => (l.lane, if two then [x, y] else [x]))

def State.performAtom (s : State) (p : Ply) (e : MemOp) (op : Nat) (ret : Bool) (v : BitVec 7) (scope : Nat)
    (ls : List AtomLane) (policy : Nat) : State :=
  let n := atomBytes op
  let bad := ls.filter fun l => s.consumesBad p e.seq l.lane l.pa n
  let good := ls.filter fun l => !s.consumesBad p e.seq l.lane l.pa n
  let s := if scope < 3 then s.takeLeases p.tenant p.core policy (good.map (·.pa)) else s
  let s0 := s
  let (s, rs) := (groups good).foldl (fun (s, rs) (pa, g) =>
    let (s, r) := s.atomRequest p op scope policy pa g
    (s, rs ++ r)) (s, [])
  let s := s.stamp s0 e.seq
  let s := if ret then s.modAny p.uid fun p => p.putReturns op v rs else s
  let s := s.removeMem p.uid e.seq
  s.memerrLanes p.uid e.pc 1 n (bad.map fun l => ⟨l.lane, l.va, l.pa⟩) false

/-! ## FADDD (R337, R338) -/

/-- The phase that a contribution of a lane belongs to (R337): the one in which its task's next arrival counts. -/
def State.windowPhase (s : State) (i : LaneInfo) (core leaf : Nat) : BitVec 16 :=
  let q := (s.leaf core leaf).counting
  if 0 < i.arrivalsIn core leaf q then q + 1 else q
/-- The window of a contribution as it is accepted: no contribution belongs to a phase that is done or over (R340), but goes to
the next one that its task's arrival or departure counts in (R337) (log 97). -/
def State.acceptedPhase (s : State) (i : LaneInfo) (core leaf : Nat) (phase : BitVec 16) : BitVec 16 :=
  let q := (s.leaf core leaf).counting
  if phase == q || phase == q + 1 then phase else s.windowPhase i core leaf

/-- A contribution in the order of R337. -/
def Contrib.before (a b : Contrib) : Bool :=
  decide (a.issuer.toNat < b.issuer.toNat) || (a.issuer == b.issuer && decide (a.value.toNat < b.value.toNat))

/-- An fp32 code added to an exact accumulator (R338): units of 2^-149. -/
def Exact.add (x : Exact) (code : Nat) : Exact :=
  match fp32.value code with
  | .nan _ => { x with nan := true, negZero := false }
  | .inf n => if n then { x with negInf := true, negZero := false } else { x with posInf := true, negZero := false }
  | .fin n m e => { x with sum := x.sum + signed n (m * 2 ^ (e + 149).toNat), negZero := x.negZero && n && m == 0 }
def Exact.zero : Exact := ⟨0, false, false, false, true⟩

/-- A contribution enters an element: the list up to 16, the accumulator from the 17th on (R338). -/
def FElement.take (f : FElement) (c : Contrib) : FElement :=
  let f := { f with makers := f.makers ++ [(c.uid, c.lane)] }
  match f.exact with
  | some x => { f with exact := some (x.add c.value.toNat) }
  | none =>
    if f.list.length < 16 then { f with list := insertBy Contrib.before c f.list }
    else { f with list := [], exact := some ((f.list ++ [c]).foldl (fun x c => x.add c.value.toNat) Exact.zero) }

/-- One lane's contribution is accepted at its home, or discarded where table and overflow area are full (R338) (log 63). -/
def State.acceptFaddd (s : State) (p : Ply) (l : AtomLane) (core leaf : Nat) (phase : BitVec 16) : State :=
  let v := vaultOfPa l.pa
  let u := s.vault v
  let c : Contrib := ⟨BitVec.ofNat 32 (p.plyid.toNat * 96 + l.lane), l.a, p.uid, l.lane⟩
  let phase := s.acceptedPhase ((p.lanes[l.lane]?).getD LaneInfo.empty) core leaf phase
  let hit (f : FElement) : Bool := f.isOf core leaf && f.phase == phase && f.pa == l.pa
  if u.elements.any hit then
    s.setVault v { u with elements := u.elements.map fun f => if hit f then f.take c else f }
  else if u.elements.length < 4096 + u.fadddCap.toNat then
    let f : FElement := ⟨core, leaf, phase, l.pa, l.va, p.tenant, [], none, [], false⟩
    s.setVault v { u with elements := u.elements ++ [f.take c] }
  else
    s.faultWork p.tenant ((p.lanes[l.lane]?).getD LaneInfo.empty).scope (engine 24).word p.core 0

/-- The contributions of a queued FADDD are accepted; waiting departures go on (R338, R340). -/
def State.runFaddd (s : State) (ply seq : Nat) : State :=
  match s.anyPly ply with
  | none => s
  | some p =>
    match p.lsq.find? fun (e : MemOp) => e.seq == seq with
    | none => s
    | some e =>
      if s.performable p e then
        match e.kind with
        | .faddd ls =>
          let s := ls.foldl (fun s (l, core, leaf, phase) => s.acceptFaddd p l core leaf phase) s
          ((s.removeMem p.uid e.seq).runDepartures).reap
        | _ => s
      else s
/-- FADDD_ACCEPT (R338). -/
def execFadddAccept (ply seq : Nat) (s : State) : Outcome := (s.runFaddd ply seq).ok

/-! ## The close of a window (R339, R340) -/

/-- The result of an element whose value is m (R339). -/
def FElement.result (f : FElement) (m : Nat) : Nat :=
  match f.exact with
  | none => f.list.foldl (fun r c => (fp32.add 0 r c.value.toNat).1) m
  | some x =>
    let y := x.add m
    if y.nan || (y.posInf && y.negInf) then fp32.nan
    else if y.posInf then fp32.inf false
    else if y.negInf then fp32.inf true
    else if y.sum == 0 then fp32.signed y.negZero 0
    else (fp32.roundFin 0 false (decide (y.sum < 0)) y.sum.natAbs (-149)).1

/-- Tasks that contributed to an element and are still live end with MEMERR (R351): one record for each ply. -/
def State.endMakers (s : State) (f : FElement) (word : Word) : State :=
  ((f.makers.map (·.1)).eraseDups).foldl (fun s uid =>
    s.endByFault uid (maskOf fun i => f.makers.contains (uid, i)) word ((s.anyPly uid).getD Ply.vacant).cur.pc f.va
      (f.pa / 8 * 8)) s

/-- One element of a closing window: its result is written as a store at its home. -/
def State.closeElement (s : State) (f : FElement) : State :=
  if f.failed || s.bad f.pa 4 && !(s.stores.any fun q => decide (q.pa ≤ f.pa) && decide (f.pa + 4 ≤ q.pa + q.data.length)) then
    s.endMakers f (memerr (if f.failed then 3 else s.foundIn f.pa) 4)
  else
    let m := leNat ((List.range 4).map fun i => s.atHome (f.pa + i))
    ((s.homeAtomic f.tenant (lineOf f.pa) 0).arriveAs 0 noCore 64 f.tenant 0 0 [] f.pa (leBytes 4 (f.result m)) false).fromUnit s

/-- The elements of a leaf's windows that close: those of its phase, or where it resets all of them, earlier phases first. -/
def State.closing (s : State) (core leaf : Nat) (l : Leaf) : List FElement :=
  let all := (s.vaults.flatMap fun (_, v) => v.elements).filter fun f => f.isOf core leaf && (l.resetting || f.phase == l.phase)
  sortBy (fun a b => decide ((a.phase - l.phase).toNat < (b.phase - l.phase).toNat)) all

/-- The homes write the results of a phase that is done, or of every window of a leaf that resets; when ptime has reached their
completion times the windows are closed, and the leaf completes, resets, or may report to its root. -/
def State.windowClose (s : State) (core leaf phase : Nat) : State :=
  let l := s.leaf core leaf
  match l.closing with
  | none =>
    let fs := s.closing core leaf l
    if (l.done || l.resetting) && l.phase.toNat == phase && !fs.isEmpty then
      let s0 := { s with vaults := s.vaults.map fun (k, v) => (k, { v with
        elements := v.elements.filter fun f => !(f.isOf core leaf && (l.resetting || f.phase == l.phase)) }) }
      let s1 := fs.foldl State.closeElement s0
      let t := s1.stores.foldl (fun t q => if s.seq < q.seq then max t q.time else t) s.now
      s1.setLeaf core leaf { s1.leaf core leaf with closing := some t }
    else s
  | some t =>
    if t ≤ s.now then
      let s := s.setLeaf core leaf { l with closing := none }
      let s :=
        if l.resetting then s.beginReset core leaf
        else if l.root.isNone && l.done then (s.advanceLeaf core leaf).settleLeaf core leaf
        else s
      s.runDepartures
    else s
/-- WINDOW_CLOSE (R339, R340). -/
def execWindowClose (core leaf phase : Nat) (s : State) : Outcome := (s.windowClose core leaf phase).ok

/-! ## ATOM at issue (R330, R331) -/

/-- The address of a lane (R331): the index has no scale. -/
def State.eaA (s : State) (p : BitVec 6) (x : BitVec 7) (i : Nat) : DWord :=
  s.S64 p + (s.index x i).signExtend 64 + s.disp

/-- The lanes of an ATOM with their operands. -/
def State.atomOperands (s : State) (op : Nat) (v : BitVec 7) (ls : List LaneAddr) : List AtomLane :=
  let a := s.V v
  let b := if atomPair op then s.V (v + 1) else Lanes.zero
  ls.map fun l => ⟨l.lane, l.va, l.pa, a.at l.lane, b.at l.lane, false⟩

/-- ATOM at issue (R330, R331, R334): an HORD before it gives its scope and its order. -/
def State.atomIssue (s : State) (op : Nat) (v : BitVec 7) (p : BitVec 6) (x : BitVec 7) (r : BitVec 1) : State :=
  s.checkRun v (if atomPair op then 2 else 1) <| s.checkV [x] <|
    let lanes := s.storeLanes
    if lanes.isEmpty then s.done
    else
      match s.globalLanes .write (atomBytes op) lanes (s.eaA p x) with
      | .error (e, all) => s.raise e all
      | .ok ls =>
        let s := s.fillTlb s.ply.tenant (ls.map (·.va))
        let ordered := s.issue.hord.isSome
        let s := if ordered then s.queueMem (.fence true false s.hord) else s
        let s := s.queueMem (.atom op (r == 1) v s.hord (s.atomOperands op v ls) s.policy)
        (if ordered && r == 1 then s.queueMem (.fence false true s.hord) else s).done

/-- FADDD at issue (R337): after the address checks of all lanes, each must be enrolled. HORD is ignored (R334, R341). -/
def State.fadddIssue (s : State) (v : BitVec 7) (p : BitVec 6) (x : BitVec 7) : State :=
  s.checkRun v 1 <| s.checkV [x] <|
    let lanes := s.storeLanes
    if lanes.isEmpty then s.done
    else
      match s.globalLanes .write 4 lanes (s.eaA p x) with
      | .error (e, all) => s.raise e all
      | .ok ls =>
        let info (i : Nat) : LaneInfo := (s.ply.lanes[i]?).getD LaneInfo.empty
        match ls.find? fun l => (info l.lane).leaf.isNone with
        | some l => s.raise (engine 23 none l.lane)
        | none =>
          let s := s.fillTlb s.ply.tenant (ls.map (·.va))
          let parts := (s.atomOperands 17 v ls).map fun (a : AtomLane) =>
            match (info a.lane).leaf with
            | some (core, leaf) => (a, core, leaf, s.windowPhase (info a.lane) core leaf)
            | none => (a, 0, 0, 0)
          (s.queueMem (.faddd parts)).done

/-- ATOM.ADD (R332). -/
def execAtomAdd (v : BitVec 7) (p : BitVec 6) (x : BitVec 7) (r : BitVec 1) (s : State) : Outcome := (s.atomIssue 0 v p x r).ok
/-- ATOM.SUB (R332). -/
def execAtomSub (v : BitVec 7) (p : BitVec 6) (x : BitVec 7) (r : BitVec 1) (s : State) : Outcome := (s.atomIssue 1 v p x r).ok
/-- ATOM.AND (R332). -/
def execAtomAnd (v : BitVec 7) (p : BitVec 6) (x : BitVec 7) (r : BitVec 1) (s : State) : Outcome := (s.atomIssue 2 v p x r).ok
/-- ATOM.OR (R332). -/
def execAtomOr (v : BitVec 7) (p : BitVec 6) (x : BitVec 7) (r : BitVec 1) (s : State) : Outcome := (s.atomIssue 3 v p x r).ok
/-- ATOM.XOR (R332). -/
def execAtomXor (v : BitVec 7) (p : BitVec 6) (x : BitVec 7) (r : BitVec 1) (s : State) : Outcome := (s.atomIssue 4 v p x r).ok
/-- ATOM.MIN (R332). -/
def execAtomMin (v : BitVec 7) (p : BitVec 6) (x : BitVec 7) (r : BitVec 1) (s : State) : Outcome := (s.atomIssue 5 v p x r).ok
/-- ATOM.MAX (R332). -/
def execAtomMax (v : BitVec 7) (p : BitVec 6) (x : BitVec 7) (r : BitVec 1) (s : State) : Outcome := (s.atomIssue 6 v p x r).ok
/-- ATOM.MINU (R332). -/
def execAtomMinu (v : BitVec 7) (p : BitVec 6) (x : BitVec 7) (r : BitVec 1) (s : State) : Outcome := (s.atomIssue 7 v p x r).ok
/-- ATOM.MAXU (R332). -/
def execAtomMaxu (v : BitVec 7) (p : BitVec 6) (x : BitVec 7) (r : BitVec 1) (s : State) : Outcome := (s.atomIssue 8 v p x r).ok
/-- ATOM.XCHG (R332). -/
def execAtomXchg (v : BitVec 7) (p : BitVec 6) (x : BitVec 7) (r : BitVec 1) (s : State) : Outcome := (s.atomIssue 9 v p x r).ok
/-- ATOM.CAS (R332). -/
def execAtomCas (v : BitVec 7) (p : BitVec 6) (x : BitVec 7) (r : BitVec 1) (s : State) : Outcome := (s.atomIssue 10 v p x r).ok
/-- ATOM.INCB (R332). -/
def execAtomIncb (v : BitVec 7) (p : BitVec 6) (x : BitVec 7) (r : BitVec 1) (s : State) : Outcome := (s.atomIssue 11 v p x r).ok
/-- ATOM.INCW (R332). -/
def execAtomIncw (v : BitVec 7) (p : BitVec 6) (x : BitVec 7) (r : BitVec 1) (s : State) : Outcome := (s.atomIssue 12 v p x r).ok
/-- ATOM.DECZ (R332). -/
def execAtomDecz (v : BitVec 7) (p : BitVec 6) (x : BitVec 7) (r : BitVec 1) (s : State) : Outcome := (s.atomIssue 13 v p x r).ok
/-- ATOM.FADDL (R332). -/
def execAtomFaddl (v : BitVec 7) (p : BitVec 6) (x : BitVec 7) (r : BitVec 1) (s : State) : Outcome := (s.atomIssue 14 v p x r).ok
/-- ATOM.FADD (R333). -/
def execAtomFadd (v : BitVec 7) (p : BitVec 6) (x : BitVec 7) (r : BitVec 1) (s : State) : Outcome := (s.atomIssue 15 v p x r).ok
/-- ATOM.FADDR (R333). -/
def execAtomFaddr (v : BitVec 7) (p : BitVec 6) (x : BitVec 7) (r : BitVec 1) (s : State) : Outcome := (s.atomIssue 16 v p x r).ok
/-- ATOM.ADD64 (R332). -/
def execAtomAdd64 (v : BitVec 7) (p : BitVec 6) (x : BitVec 7) (r : BitVec 1) (s : State) : Outcome := (s.atomIssue 18 v p x r).ok
/-- ATOM.MAX64 (R332). -/
def execAtomMax64 (v : BitVec 7) (p : BitVec 6) (x : BitVec 7) (r : BitVec 1) (s : State) : Outcome := (s.atomIssue 19 v p x r).ok
/-- ATOM.FADDD (R337). -/
def execAtomFaddd (v : BitVec 7) (p : BitVec 6) (x : BitVec 7) (s : State) : Outcome := (s.fadddIssue v p x).ok

end Sys2Proof.Machine
end

