-- ==== Sys2Proof/Machine/Pending.lean ====
section
/-!
DEFINITION. Long-latency results that are pending (spec/04 R103), and those that a trailer awaits (spec/03 R86, spec/04 R104).
-/
namespace Sys2Proof.Machine

/-- n registers from a field on; a code above v119 is none. -/
def regRun (v : BitVec 7) (n : Nat) : List Nat := if v.toNat ≤ 119 then (List.range n).map (v.toNat + ·) else []
/-- n scalars from a field on. -/
def scalRun (a : BitVec 6) (n : Nat) : List Nat := (List.range n).map (a.toNat + ·)

/-- Registers that a queued access will write. -/
def MemKind.dests : MemKind → List Nat
  | .load v z _ _ => regRun v (sizeRegs z)
  | .loadX v z _ => regRun v (sizeRegs z)
  | .tex .nearest d f c _ _ _ => regRun d ((texelBytes f c + 3) / 4)
  | .tex .bilinear d _ _ _ _ _ => regRun d 2
  | .fill v slots _ _ _ => (List.range slots.length).map (v + ·)
  | .atom op ret v _ _ _ => if ret then regRun v (if atomPair op then 2 else 1) else []
  | _ => []
/-- Scalars that a queued access will write. -/
def MemKind.scalars : MemKind → List Nat
  | .lds d w _ _ => scalRun d (if w then 2 else 1)
  | _ => []
/-- Scalars that a request will write. -/
def HubKind.dests : HubKind → List Nat
  | .ptime d => scalRun d 2
  | .scpst d _ => scalRun d 2
  | .shapew d _ _ | .scopen d _ _ _ | .marm d _ | .mdisarm d _ | .smc d _ | .pwrq d _ _ _ | .bara d => [d.toNat]
  | _ => []
/-- Registers that a queued MTX instruction will write. -/
def MtxKind.dests : MtxKind → List Nat
  | .mrd v _ _ => (List.range 8).map (v + ·)
  | _ => []
/-- Whether a queued MTX instruction will write its tile. -/
def MtxKind.writesTile : MtxKind → Bool
  | .mma _ _ _ _ _ _ _ _ | .mzero | .mwr _ _ _ => true
  | _ => false
/-- Registers that a queued PATH instruction will write. -/
def PathKind.dests : PathKind → List Nat
  | .pcell d _ _ _ _ _ => regRun d 2
  | _ => []

/-- A pending result: its issue number, the slot of the path that issued it, the registers, scalars and tiles that it writes; a
write of s0 is none. -/
structure Pending where
  seq     : Nat
  slot    : Nat
  vectors : List Nat
  scalars : List Nat
  tiles   : List Nat
  deriving DecidableEq, Repr

/-- The queued MTX instructions of a ply. -/
def State.mtxOf (s : State) (p : Ply) : List MtxOp := (s.core p.core).mtxq.filter fun o => o.uid == p.uid
/-- The queued PATH instructions of a ply. -/
def State.pathOf (s : State) (p : Ply) : List PathOp := (s.core p.core).pathq.filter fun o => o.uid == p.uid

/-- The pending results of a ply. -/
def State.pending (s : State) (p : Ply) : List Pending :=
  (p.lsq.map fun e => ⟨e.seq, e.slot, e.kind.dests, e.kind.scalars.filter (· != 0), []⟩) ++
    (p.hubq.map fun h => ⟨h.seq, h.slot, [], h.kind.dests.filter (· != 0), []⟩) ++
    ((s.mtxOf p).map fun o => ⟨o.seq, o.slot, o.kind.dests, [], if o.kind.writesTile then [o.tile] else []⟩) ++
    (s.pathOf p).map fun o => ⟨o.seq, o.slot, o.kind.dests, [], []⟩

/-- Vector registers of a ply with a pending result. -/
def State.pendingV (s : State) (p : Ply) : List Nat := (s.pending p).flatMap (·.vectors)
/-- Scalars of a ply with a pending result, each with the slot of the path that issued it. -/
def State.pendingS (s : State) (p : Ply) : List (Nat × Nat) := (s.pending p).flatMap fun r => r.scalars.map fun k => (r.slot, k)

/-- Whether a code of a trailer names a result (R86): a tile pair beyond %actiles is not awaited. -/
def Pending.named (r : Pending) (tiles : Nat) (code : BitVec 7) : Bool :=
  let n := code.toNat
  if n ≤ 119 then r.vectors.contains n
  else if n ≤ 123 then r.tiles.any fun t => decide (t < tiles) && t / 2 == n - 120
  else n == 126 && !r.scalars.isEmpty

/-- The pending results that the codes of the issuing path's trailer name (R104): a code without one is satisfied at once, and a
result of the other path is no matter of them, but that code 126 names the scalar results of the ply (R86) (log 95). -/
def State.awaitedNow (s : State) (codes : List (BitVec 7)) : List Nat :=
  (s.pending s.ply).filterMap fun r =>
    if codes.any fun c => (r.slot == s.ply.slot || c == 126) && r.named s.ply.tiles.length c then some r.seq else none
/-- Whether the results that a path awaits have been written. -/
def State.ready (s : State) (p : Ply) (awaited : List Nat) : Bool :=
  awaited.all fun n => !(s.pending p).any fun r => r.seq == n
/-- Paths that no longer await anything have become eligible (R101, R246). -/
def State.awake (s : State) : State :=
  let path (p : Ply) (q : Path) : Path := if !q.awaited.isEmpty && s.ready p q.awaited then { q with awaited := [], since := s.now } else q
  let f (p : Ply) : Ply := { p with path0 := path p p.path0, path1 := path p p.path1 }
  { s with ply := f s.ply, plies := s.plies.map f }

end Sys2Proof.Machine
end

