-- ==== Sys2Proof/Machine/Control.lean ====
section
/-!
DEFINITION. Control flow: branches, jumps, calls, DIVB, JOIN, the pop of a divergence record, NOP, TRAP, ERET and the
effect of a trailer on the paths (spec/07 R158 to R167, spec/03 R86, spec/04 R102, R104).
-/
namespace Sys2Proof.Machine

/-! ## Branches, jumps and calls (R158, R159) -/

/-- The address of the instruction word of the issuing unit: its last word. -/
def Issue.at' (i : Issue) : DWord := pc60 (i.first + BitVec.ofNat 64 (4 * (i.words - 1)))

/-- The transfer is taken to a target, unless the target raises NONCANON or, from a register, ALIGN (R72, R158); before
is what else the transfer does (log 24). -/
def State.goto' (s : State) (target : DWord) (reg : Bool) (before : State → State := id) : State :=
  if target.toNat / 2 ^ 60 != 0 then s.raise (noncanon target)
  else if reg && target.toNat % 4 != 0 then s.raise (align target)
  else
    let s := before s
    State.done { s with ply := s.ply.setCur { s.path with transfer := .goto target } }

/-- The transfer is not taken: the path goes on after the trailer. -/
def State.fallThrough (s : State) : State :=
  State.done { s with ply := s.ply.setCur { s.path with transfer := .none } }

/-- The target of a relative transfer: 4 × the offset from the instruction word, HLONG above the field (R91). -/
def State.relative {w : Nat} (s : State) (o : BitVec w) : DWord :=
  let off : DWord :=
    match s.issue.hlong with
    | none => o.signExtend 64
    | some h => (h ++ o).signExtend 64
  s.issue.at' + 4 * off

def State.branch (s : State) (o : BitVec 16) (taken : Bool) : State :=
  if taken then s.goto' (s.relative o) false else s.fallThrough

/-- Writes the link, the word after the trailer, into s12:s13 (R159). -/
def State.link (s : State) : State := s.setS64 12 (pc60 (s.issue.at' + 8))

/-- BR.Z (R159). -/
def execBrZ (a : BitVec 6) (o : BitVec 16) (s : State) : Outcome := (s.branch o (s.S a == 0)).ok
/-- BR.NZ (R159). -/
def execBrNz (a : BitVec 6) (o : BitVec 16) (s : State) : Outcome := (s.branch o (s.S a != 0)).ok
/-- BR.LTZ (R159). -/
def execBrLtz (a : BitVec 6) (o : BitVec 16) (s : State) : Outcome := (s.branch o (slt (s.S a) 0)).ok
/-- BR.GEZ (R159). -/
def execBrGez (a : BitVec 6) (o : BitVec 16) (s : State) : Outcome := (s.branch o (sle 0 (s.S a))).ok
/-- BR.GTZ (R159). -/
def execBrGtz (a : BitVec 6) (o : BitVec 16) (s : State) : Outcome := (s.branch o (slt 0 (s.S a))).ok
/-- BR.LEZ (R159). -/
def execBrLez (a : BitVec 6) (o : BitVec 16) (s : State) : Outcome := (s.branch o (sle (s.S a) 0)).ok
/-- BRM.ANY (R159): over the active lanes. -/
def execBrmAny (m : BitVec 6) (o : BitVec 16) (s : State) : Outcome := (s.branch o (s.triple m &&& s.active != 0)).ok
/-- BRM.NONE (R159). -/
def execBrmNone (m : BitVec 6) (o : BitVec 16) (s : State) : Outcome := (s.branch o (s.triple m &&& s.active == 0)).ok
/-- BRM.ALL (R159). -/
def execBrmAll (m : BitVec 6) (o : BitVec 16) (s : State) : Outcome :=
  (s.branch o (s.triple m &&& s.active == s.active)).ok
/-- JMP (R159). -/
def execJmp (o : BitVec 26) (s : State) : Outcome := (s.goto' (s.relative o) false).ok
/-- CALL (R159). -/
def execCall (o : BitVec 26) (s : State) : Outcome := (s.goto' (s.relative o) false State.link).ok
/-- JMPR (R159). -/
def execJmpr (p : BitVec 6) (s : State) : Outcome := (s.goto' (s.S64 p) true).ok
/-- CALLR (R159): the target is read before the link is written. -/
def execCallr (p : BitVec 6) (s : State) : Outcome := (s.goto' (s.S64 p) true State.link).ok
/-- RET (R159): as JMPR. -/
def execRet (p : BitVec 6) (s : State) : Outcome := (s.goto' (s.S64 p) true).ok

/-! ## DIVB and JOIN (R160 to R163) -/

/-- The lowest index from n on that no live frame has (R160). -/
def freeFrame (l : List Frame) : (fuel n : Nat) → Nat
  | 0, n => n
  | f + 1, n => if l.any fun x => x.index == n then freeFrame l f (n + 1) else n

def Ply.other (p : Ply) : Nat := 1 - p.slot

/-- DIVB (R161): the taken set is read at issue. A target that is not canonical comes before DSTACK, and a join address keeps its
low 60 bits (log 28). -/
def execDivb (m : BitVec 6) (t j : BitVec 10) (s : State) : Outcome :=
  let q := s.path
  let tkn := s.triple m &&& q.active
  let ft := q.member &&& ~~~tkn
  let target := s.issue.at' + 4 * t.signExtend 64
  let join := s.issue.at' + 4 * j.signExtend 64
  (if tkn == 0 then s.fallThrough
  else if target.toNat / 2 ^ 60 != 0 then s.raise (noncanon target)
  else if ft == 0 then s.goto' target false
  else if !(s.ply.path s.ply.other).isFree && s.ply.dstack.length == 64 then s.raise (cause 0x10 0 s.theWord)
  else State.done { s with ply := s.ply.setCur { q with transfer := .split tkn target (pc60 join) } }).ok

/-- JOIN (R162): it takes effect with its trailer. -/
def execJoin (s : State) : Outcome := (State.done { s with ply := s.ply.setCur { s.path with transfer := .join } }).ok

/-- The words of a divergence record (R102). -/
def recordWords (pc join : DWord) (member active : Mask) (frame : Option Nat) : List Word :=
  [loWord pc, hiWord pc, loWord join, hiWord join, Mask.word member 0, Mask.word member 1, Mask.word member 2,
    Mask.word active 0, Mask.word active 1, Mask.word active 2, BitVec.ofNat 32 (frame.getD 0xFF), 0]

/-- The address of a divergence record (R249). -/
def recordAt (base : DWord) (depth : Nat) : DWord := base + 0x400 + BitVec.ofNat 64 (48 * depth)

/-- Pushes a record: into the save area, and beside it the words as pushed (R102). -/
def State.pushRecord (s : State) (ws : List Word) : State :=
  let p := s.ply
  let s := s.writeVirt 0 p.core p.tenant (recordAt p.ssave p.dstack.length) (ws.flatMap wordBytes)
  { s with ply := { s.ply with dstack := s.ply.dstack ++ [⟨p.ssave, ws⟩] } }

/-- The words that a pop of the newest record reads (R102, R249): memory at the current save area. A word that a program
stored over in the live save area is the old or the new one. -/
def State.recordRead (s : State) (r : DivRecord) : List Word :=
  let p := s.ply
  match s.readVirt p.core p.tenant (recordAt p.ssave (p.dstack.length - 1)) 48 with
  | .error _ => r.words
  | .ok b =>
    (List.range 12).map fun k =>
      let new := bytesWord (slice b (4 * k) 4)
      let old := r.words.getD k 0
      if r.base != p.ssave then new else if new == old then new else if s.choose (300 + k) then new else old

/-- Pops the newest record into slot k (R163) (log 32). -/
def State.popRecord (s : State) (k : Nat) : State :=
  match s.ply.dstack.getLast? with
  | none => s
  | some r =>
    let w := s.recordRead r
    let g (n : Nat) : Word := w.getD n 0
    let fr := (g 10).toNat % 256
    let q : Path := { Path.free with
      pc := pc60 (pair (g 0) (g 1))
      member := Mask.ofWords (g 4) (g 5) (g 6)
      active := Mask.ofWords (g 7) (g 8) (g 9)
      frame := if fr == 0xFF then none else some fr
      since := s.now }
    { s with ply := { s.ply.setPath k q with dstack := s.ply.dstack.dropLast } }

/-- After a trailer, records are popped into the free slots (R163). -/
def State.popRecords (s : State) : State :=
  let s := if s.ply.path0.isFree then s.popRecord 0 else s
  if s.ply.path1.isFree then s.popRecord 1 else s

/-- The split of DIVB takes effect: fall-through half in the slot, taken half in the other slot or on the stack (R161). -/
def State.split (s : State) (tkn : Mask) (target join : DWord) (awaited : List Nat) : State :=
  let p := s.ply
  let q := p.cur
  let n := freeFrame p.frames 95 0
  let f : Frame := ⟨n, join, q.member, false, 0, 0, q.frame⟩
  let left : Path := { q with member := q.member &&& ~~~tkn, active := q.active &&& ~~~tkn, frame := some n }
  let taken : Path := { Path.free with
    pc := target, member := tkn, active := tkn, frame := some n, awaited := awaited, since := s.now }
  let s : State := { s with ply := { p.setCur left with frames := p.frames ++ [f] } }
  if (p.path p.other).isFree then { s with ply := s.ply.setPath p.other taken }
  else s.pushRecord (recordWords target join tkn tkn (some n))

/-- JOIN takes effect: the half is parked, or merges with the parked one (R162). -/
def Ply.join (p : Ply) : Ply :=
  let q := p.cur
  match q.frame with
  | none => p
  | some n =>
    match p.frames.find? fun f => f.index == n with
    | none => p
    | some f =>
      if f.parked then
        { p.setCur { q with
            pc := f.join, member := q.member ||| f.parkedMember, active := q.active ||| f.parkedActive, frame := f.outer } with
          frames := p.frames.filter fun g => g.index != n }
      else
        { p.setCur Path.free with
          frames := p.frames.map fun g =>
            if g.index == n then { g with parked := true, parkedMember := q.member, parkedActive := q.active } else g }

/-- A trailer ends the run (R88, R158, R163): the decided transfer takes effect, the results that its codes name are awaited,
the latches empty and records are popped. -/
def State.endOfRun (s : State) (codes : List (BitVec 7)) : State :=
  let q := s.path
  let awaited := s.awaitedNow codes
  let q' := { q with awaited := awaited, transfer := .none, since := s.now, runClass := none }
  let s : State := { s with ply := s.ply.setCur q' }
  let s : State :=
    match q.transfer with
    | .none => s
    | .goto a => { s with ply := s.ply.setCur { q' with pc := a } }
    | .split t a j => s.split t a j awaited
    | .join => { s with ply := s.ply.join }
  State.popRecords { s with ply := { s.ply with running := false, pos := 0, latches := [] } }

/-- END (R86): its register codes are checked, its words count, its run ends. -/
def execEndRun (w x y : BitVec 7) (s : State) : Outcome :=
  (if [w, x, y].any s.ply.outOfRange then s.raiseRegrange else s.done.endOfRun [w, x, y]).ok

/-! ## NOP, TRAP, ERET (R164 to R167) -/

/-- NOP (R164). -/
def execNop (s : State) : Outcome := s.done.ok
/-- TRAP (R164) (log 22). -/
def execTrap (c : BitVec 12) (s : State) : Outcome := (s.raise ⟨0x06, 0, c.toNat, s.issue.at', 127, true⟩).ok
/-- ERET (R164, R167). -/
def execEret (s : State) : Outcome :=
  (if s.ply.supervisor then
    let p := (s.ply.advance s.issue).eret
    ({ s with ply := { p with runSince := s.now } } : State)
  else s.raisePriv).ok

end Sys2Proof.Machine
end

