-- ==== Sys2Proof/Machine/Special.lean ====
section
/-!
DEFINITION. The special registers (spec/04 R111 to R113): what GETS reads and SETS writes, with the layouts of their own
rules; the heat and charge figures that some of them show (spec/16 R342 to R345).
-/
namespace Sys2Proof.Machine

/-! ## Heat and charge (R343, R344) -/

/-- The vault's budget at a refresh step (R343). -/
def vabOf (step : Nat) : Nat :=
  match step with
  | 0 => 3100
  | 1 => 3000
  | 2 => 2800
  | _ => 1600
/-- The threshold θk in 1/16 °C (R343). -/
def theta (k : Nat) : Int :=
  match k with
  | 1 => 1360
  | 2 => 1520
  | _ => 1680
/-- The charge of the stolen tasks among a list (R345). -/
def heldCharge (l : List Task) : Nat := l.foldl (fun n t => n + t.held.getD 0) 0
/-- The admitted charge of a core: of its resident plies (R344), and of the stolen tasks that it has accepted and that have not
formed yet (R345) (log 60). -/
def State.coreCharge (s : State) (core : Nat) : Nat :=
  let c := s.core core
  (s.onCore core).foldl (fun n p => n + p.charge) 0 + heldCharge c.overflow + (c.bins.foldl (fun n b => n + heldCharge b.tasks) 0) +
    heldCharge (s.transit.filterMap fun t => if t.core == core then some t.task else none)
/-- The admitted charge of a vault: of the two cores below it. -/
def State.vaultCharge (s : State) (vault : Nat) : Nat := s.coreCharge (lowerCore vault) + s.coreCharge (upperCore vault)
/-- %tar of a core with an admitted charge (R344). -/
def Vault.allowance (v : Vault) (charge : Nat) : Int :=
  let t := v.vtemp.toInt
  let top := if v.rstep == 3 then t else theta (v.rstep.toNat + 1)
  clamp (-32768) 32767 (top - t - (charge / 16 : Nat))
def State.tar (s : State) (core : Nat) : Int := (s.vault (vaultOf core)).allowance (s.coreCharge core)
/-- The limit of a vault's admitted charge (R344). -/
def Vault.limit (v : Vault) : Nat := vabOf v.rstep.toNat * v.vchl.toNat / 100

/-! ## The vertical FIFOs as a core sees them (R347) -/

/-- The FIFO that a core pushes into, oldest entry first. -/
def State.pushFifo (s : State) (core : Nat) : List (Lanes × Bool) :=
  let f := s.fifo (vaultOf core)
  if isUpper core then f.down else f.up
/-- The FIFO that a core pops from. -/
def State.popFifo (s : State) (core : Nat) : List (Lanes × Bool) :=
  let f := s.fifo (vaultOf core)
  if isUpper core then f.up else f.down

/-! ## Reading (R111 to R113) -/

/-- The base indices of pairs. -/
def isPair (i : Nat) : Bool := [0x000, 0x016, 0x100, 0x104, 0x108, 0x10A, 0x200].contains i

/-- The value of a special register of the issuing ply, unallocated bits zero. -/
def State.special (s : State) (i : Nat) : DWord :=
  let p := s.ply
  let n (x : Nat) : DWord := BitVec.ofNat 64 x
  let vault := s.vault (vaultOf p.core)
  let cl := s.cluster (clusterOf p.core)
  match i with
  | 0x000 => s.ptime
  | 0x002 => p.plyid.zeroExtend 64
  | 0x003 => n p.core
  | 0x004 => n (clusterOf p.core % 8)
  | 0x005 => n (dieOf p.core)
  | 0x006 => n p.tenant
  | 0x007 => p.role.zeroExtend 64
  | 0x008 => p.gangsize.zeroExtend 64
  | 0x009 => n p.vcount
  | 0x00A => n p.actiles
  | 0x00B => (Mask.word p.occ 0).zeroExtend 64
  | 0x00C => (Mask.word p.occ 1).zeroExtend 64
  | 0x00D => (Mask.word p.occ 2).zeroExtend 64
  | 0x00E => n p.slot
  | 0x00F => n p.dstack.length
  | 0x010 => p.fflags.zeroExtend 64
  | 0x011 => p.frnd.zeroExtend 64
  | 0x012 => p.yc.zeroExtend 64
  | 0x013 => p.ydl.zeroExtend 64
  | 0x014 => p.scope.zeroExtend 64
  | 0x015 => p.rpr.zeroExtend 64
  | 0x016 => p.pgw
  | 0x018 => cl.lease.zeroExtend 64
  | 0x019 => (BitVec.ofInt 16 (s.tar p.core)).zeroExtend 64
  | 0x01A => n (vabOf vault.rstep.toNat)
  | 0x01B => vault.vtemp.zeroExtend 64
  | 0x01C => vault.rstep.zeroExtend 64
  | 0x01D => n (16 - (s.pushFifo p.core).length)
  | 0x01E => n (s.popFifo p.core).length
  | 0x020 => (p.cnt[0]).zeroExtend 64
  | 0x021 => (p.cnt[1]).zeroExtend 64
  | 0x022 => (p.cnt[2]).zeroExtend 64
  | 0x023 => (p.cnt[3]).zeroExtend 64
  | 0x024 => p.flattol.zeroExtend 64
  | 0x025 => (s.core p.core).binto.zeroExtend 64
  | 0x100 => p.epc
  | 0x102 => p.ecause.zeroExtend 64
  | 0x104 => p.eaddr
  | 0x106 => p.elane.zeroExtend 64
  | 0x107 => p.erun.zeroExtend 64
  | 0x108 => p.tvec
  | 0x10A => p.ssave
  | 0x10C => n ((if vault.testEn then 2 ^ 31 else 0) + vault.testTemp.toNat)
  | 0x10D => n (cl.gap.toNat * 256 + cl.count.toNat)
  | 0x10E => vault.vchl.zeroExtend 64
  | 0x10F => (s.tenant p.tenant).qdl.zeroExtend 64
  | _ => 0

/-! ## Writing -/

/-- Bits [hi:lo] of a value. -/
def field' (v : DWord) (hi lo : Nat) : Nat := bits v.toNat hi lo

/-- %rpr after a write (R209): a rows value that is no multiple of 8 or above 88 leaves the field. -/
def writeRpr (old : Word) (v : DWord) : Word :=
  let rows := field' v 15 8
  let rows := if rows % 8 != 0 || decide (88 < rows) then bits old.toNat 15 8 else rows
  BitVec.ofNat 32 (field' v 31 31 * 2 ^ 31 + field' v 18 16 * 2 ^ 16 + rows * 256 + field' v 7 4 * 16)

/-- Writes the RW fields of a special register (R113); every other register is unchanged (log 29). -/
def State.setSpecial (s : State) (i : Nat) (v : DWord) : State :=
  let p := s.ply
  let vault := vaultOf p.core
  match i with
  | 0x007 => { s with ply := { p with role := v.truncate 16 } }
  | 0x010 => { s with ply := { p with fflags := v.truncate 6 } }
  | 0x011 => if field' v 2 0 < 5 then { s with ply := { p with frnd := v.truncate 3 } } else s
  | 0x014 => { s with ply := { p with scope := v.truncate 24 } }
  | 0x015 => { s with ply := { p with rpr := writeRpr p.rpr v } }
  | 0x024 => if field' v 15 0 == 0 then s else { s with ply := { p with flattol := v.truncate 16 } }
  | 0x100 => { s with ply := { p with epc := v &&& 0x0FFFFFFFFFFFFFFC } }
  | 0x102 => { s with ply := { p with ecause := v.truncate 32 } }
  | 0x104 => { s with ply := { p with eaddr := v } }
  | 0x106 => { s with ply := { p with elane := v.truncate 7 } }
  | 0x107 => if field' v 4 0 ≤ 24 then { s with ply := { p with erun := v.truncate 5 } } else s
  | 0x108 => { s with ply := { p with tvec := v &&& 0x0FFFFFFFFFFFFFC0 } }
  | 0x10A => { s with ply := { p with ssave := v &&& 0x0FFFFFFFFFFFF000 } }
  | 0x10C => s.modVault vault fun u => { u with testEn := v.getLsbD 31, testTemp := v.truncate 16 }
  | 0x10D =>
    s.modCluster (clusterOf p.core) fun c =>
      { c with gap := BitVec.ofNat 8 (field' v 15 8), count := if field' v 7 0 == 0 then c.count else v.truncate 8 }
  | 0x10E =>
    let pct := field' v 6 0
    if pct == 0 || decide (100 < pct) then s else s.modVault vault fun u => { u with vchl := v.truncate 7 }
  | 0x10F => s.modTenant p.tenant fun t => { t with qdl := v.truncate 32 }
  | _ => s

/-- The privilege rule of GETS and SETS (R113), for %qdl too (log 100). -/
def State.mayReach (s : State) (i : Nat) : Bool := i < 0x100 || (i < 0x200 && s.ply.supervisor)

/-- Adds a request to the ply's hub requests, in issue order (R264). -/
def State.pushHub (s : State) (k : HubKind) : State :=
  let (n, s) := s.fresh
  { s with ply := { s.ply with hubq := s.ply.hubq ++ [⟨n, s.ply.slot, k⟩] } }

/-- GETS (R113): into s0 it reads nothing and discards the result. %ptime is a long-latency result (R103). -/
def execGets (d : BitVec 6) (i : BitVec 12) (s : State) : Outcome :=
  let n := i.toNat
  (if !s.mayReach n then s.raisePriv
  else if d == 0 then s.done
  else if n == 0 then (s.pushHub (.ptime d)).done
  else if isPair n then s.sresult64 d (s.special n)
  else s.sresult d (loWord (s.special n))).ok

/-- SETS (R113). -/
def execSets (a : BitVec 6) (i : BitVec 12) (s : State) : Outcome :=
  let n := i.toNat
  (if !s.mayReach n then s.raisePriv
  else (s.setSpecial n (if isPair n then s.S64 a else (s.S a).zeroExtend 64)).done).ok

end Sys2Proof.Machine
end

