-- ==== Sys2Proof/Machine/Context.lean ====
section
/-!
DEFINITION. The save area of a ply (spec/11 R249): what a save writes, what a restore takes from it; pre-emption (R248), the
saves of a gate request (spec/16 R350), CTXSV and CTXRS (spec/19 R382).
-/
namespace Sys2Proof.Machine

/-! ## The regions (R249) -/

def pad' (l : List Byte) (n : Nat) : List Byte := l ++ zeros (n - l.length)
def lanesBytes (v : Lanes) : List Byte := (List.range 96).flatMap fun i => wordBytes (v.at i)
/-- A vector register from its 384 bytes. -/
def Lanes.ofBytes (b : List Byte) : Lanes := Lanes.gen fun i => bytesWord (slice b (4 * i) 4)

/-- A path slot: PC, membership, activity, frame index, free flag, ma view. -/
def Path.bytes (q : Path) : List Byte :=
  pad' (dwordBytes q.pc ++ maskBytes q.member ++ maskBytes q.active ++
    [BitVec.ofNat 8 (q.frame.getD 0xFF), if q.isFree then 1 else 0] ++ maskBytes q.active) 64
/-- A path slot as a restore takes it; a PC is a word address and the activity lies within the membership (R72, R98). -/
def Path.load (q : Path) (b : List Byte) : Path :=
  let m := BitVec.ofNat 96 (num b 8 12)
  let fr := num b 32 1
  if num b 33 1 != 0 || m == 0 then Path.free
  else
    { q with
      pc := BitVec.ofNat 64 (num b 0 8) &&& 0x0FFFFFFFFFFFFFFC
      member := m
      active := BitVec.ofNat 96 (num b 20 12) &&& m
      frame := if fr == 0xFF then none else some fr }

/-- Join frame n (R160). -/
def Frame.bytes (f : Frame) : List Byte :=
  dwordBytes f.join ++ maskBytes f.lanes ++ maskBytes f.parkedMember ++ maskBytes f.parkedActive ++
    [if f.parked then 3 else 2, BitVec.ofNat 8 (f.outer.getD 0xFF)] ++ zeros 2
def Frame.load (n : Nat) (b : List Byte) : Option Frame :=
  let o := num b 45 1
  let flags := num b 44 1
  if bits flags 1 1 == 0 then none
  else some ⟨n, pc60 (BitVec.ofNat 64 (num b 0 8)), BitVec.ofNat 96 (num b 8 12), bits flags 0 0 == 1, BitVec.ofNat 96 (num b 20 12),
    BitVec.ofNat 96 (num b 32 12), if o == 0xFF then none else some o⟩
def Ply.frameBytes (p : Ply) : List Byte :=
  (List.range 95).flatMap fun n =>
    match p.frames.find? fun f => f.index == n with
    | some f => f.bytes
    | none => zeros 48

/-- Special registers and ply state, 0x180 to 0x1FF. -/
def Ply.stateBytes (p : Ply) (latches : Nat) : List Byte :=
  let w {n : Nat} (x : BitVec n) : List Byte := leBytes 4 x.toNat
  pad' (w p.fflags ++ w p.frnd ++ w p.yc ++ w p.ydl ++ w p.scope ++ w p.rpr ++ dwordBytes p.pgw ++
    (List.range 4).flatMap (fun c => w ((p.cnt[c]?).getD 0)) ++ w p.role ++ w p.flattol ++ dwordBytes p.tvec ++
    dwordBytes p.epc ++ w p.ecause ++ w p.elane ++ dwordBytes p.eaddr ++ w p.erun ++ leBytes 4 p.vcount ++
    leBytes 4 p.actiles ++ leBytes 4 p.dstack.length ++ leBytes 4 latches) 128

/-- What a save writes, for registers below live: with the latches where it is a save at a wait or a CTXSV (log 46). -/
def Ply.regions (p : Ply) (live : Nat) (latch : Bool) : List (Nat × List Byte) :=
  [(0, (List.range 64).flatMap fun i => wordBytes (p.getS 0 (BitVec.ofNat 6 i))),
    (0x100, p.path0.bytes ++ p.path1.bytes),
    (0x1000, p.frameBytes)] ++
  (if latch then [(0x2200, pad' (p.savedLatches.flatMap lanesBytes) 1536)] else []) ++
  [(0x180, p.stateBytes (if latch then p.savedLatches.length else 0))] ++
  (p.vregs.take live).zipIdx.map (fun (v, i) => (0x4000 + 384 * i, lanesBytes v)) ++
  p.tiles.zipIdx.map fun (t, i) => (0xF400 + 24576 * i, (t.flatMap lanesBytes))

/-! ## Loading regions -/

/-- One word of the ply state is loaded (R249): rw loads only the registers that SETS may write (R113). -/
def Ply.loadState (p : Ply) (rw : Bool) (off : Nat) (b : List Byte) : Ply :=
  let w := num b off 4
  let d := BitVec.ofNat 64 (num b (off / 8 * 8) 8)
  match off with
  | 0x00 => { p with fflags := BitVec.ofNat 6 w }
  | 0x04 => if w % 8 < 5 then { p with frnd := BitVec.ofNat 3 w } else p
  | 0x08 => if rw then p else { p with yc := BitVec.ofNat 14 w }
  | 0x0C => if rw then p else { p with ydl := BitVec.ofNat 8 w }
  | 0x10 => { p with scope := BitVec.ofNat 24 w }
  | 0x14 => { p with rpr := writeRpr p.rpr (BitVec.ofNat 64 w) }
  | 0x18 | 0x1C => if rw then p else { p with pgw := d }
  | 0x20 => if rw then p else p.setCnt 0 (BitVec.ofNat 16 w)
  | 0x24 => if rw then p else p.setCnt 1 (BitVec.ofNat 16 w)
  | 0x28 => if rw then p else p.setCnt 2 (BitVec.ofNat 16 w)
  | 0x2C => if rw then p else p.setCnt 3 (BitVec.ofNat 16 w)
  | 0x30 => { p with role := BitVec.ofNat 16 w }
  | 0x34 => if w % 2 ^ 16 == 0 then p else { p with flattol := BitVec.ofNat 16 w }
  | 0x38 | 0x3C => { p with tvec := d &&& 0x0FFFFFFFFFFFFFC0 }
  | 0x40 | 0x44 => { p with epc := d &&& 0x0FFFFFFFFFFFFFFC }
  | 0x48 => { p with ecause := BitVec.ofNat 32 w }
  | 0x4C => { p with elane := BitVec.ofNat 7 w }
  | 0x50 | 0x54 => { p with eaddr := d }
  | 0x58 => if w % 32 ≤ 24 then { p with erun := BitVec.ofNat 5 w } else p
  | 0x68 => { p with savedLatches := p.savedLatches.take w }
  | _ => p

/-- The scalars of path 0's view; the activity of a path is loaded with its slot. -/
def Ply.loadScalars (p : Ply) (b : List Byte) : Ply :=
  { p with sregs := Vector.ofFn fun (i : Fin 64) =>
      if i.val == 0 || (60 ≤ i.val && i.val ≤ 62) then p.sregs[i] else bytesWord (slice b (4 * i.val) 4) }

/-- A region's bytes are loaded; of the ply state the words that differ from old. -/
def Ply.loadRegion (p : Ply) (rw : Bool) (off : Nat) (old new : List Byte) : Ply :=
  if off == 0 then p.loadScalars new
  else if off == 0x100 then { p with path0 := p.path0.load (new.take 64), path1 := p.path1.load (new.drop 64) }
  else if off == 0x180 then
    (List.range 27).foldl (fun p k =>
      if slice old (4 * k) 4 == slice new (4 * k) 4 then p else p.loadState rw (4 * k) new) p
  else if off == 0x1000 then
    { p with frames := (List.range 95).filterMap fun n => Frame.load n (slice new (48 * n) 48) }
  else if off == 0x2200 then { p with savedLatches := (List.range 4).map fun k => Lanes.ofBytes (slice new (384 * k) 384) }
  else if off < 0xF400 then { p with vregs := listSet p.vregs ((off - 0x4000) / 384) (Lanes.ofBytes new) }
  else if off < 0x40000 then
    let t : Tile := (List.range 64).map fun n => Lanes.ofBytes (slice new (384 * n) 384)
    { p with tiles := listSet p.tiles ((off - 0xF400) / 24576) t }
  else p

/-! ## Saving (R248, R350) -/

/-- The bytes of a ply's XBUF window. -/
def State.windowBytes (s : State) (p : Ply) : List Byte := s.localRead p.core .xbuf p.windowBase p.windowSize

/-- The content of the path context region, whose layout is not given (R270, log 9). -/
def State.contextBytes (s : State) : List Byte := (List.range 128).map (Config.undefinedByte s.tick)

/-- The context of the issuing ply is written into its save area and the ply leaves its core: live registers are kept, the
others read 0 after the restore (R107). -/
def State.savePly (s : State) (p : Ply) (live : Nat) (atWait gated : Bool) : State :=
  let q := { p with
    vregs := p.vregs.take live ++ List.replicate (p.vcount - live) Lanes.zero
    running := atWait
    marked := none
    charge := 0 }
  let image := p.regions live atWait ++ [(0x40000, s.windowBytes p)]
  let s := (image ++ [(0x200, s.contextBytes)]).foldl (fun (s : State) (o, b) =>
    s.writeVirt 0 p.core p.tenant (p.ssave + BitVec.ofNat 64 o) b) s
  let s := { s with ply := Ply.vacant, saved := s.saved ++ [(⟨q, image, atWait, gated, s.seq⟩ : Saved)] }
  s.releaseWindows p.core

/-- Whether a gate request on the ply's die is pending (R350). -/
def State.gating (s : State) (core : Nat) : Bool :=
  match s.die (dieOf core) with
  | .gating _ _ => isUpper core
  | _ => false

/-- Whether a ply may be saved at all now (R270). -/
def Ply.savable (p : Ply) : Bool := p.gangsize == 1 && p.ctx.state != .opened && p.cnt[3] == 0

/-- Whether the start of a wait of the issuing ply is a gating point at which it is saved. -/
def State.gatesHere (s : State) : Bool := s.gating s.ply.core && s.ply.savable

/-- The save at the start of a wait (R350): the latches and the run position are kept as a delivery keeps them (log 65). -/
def State.saveAtWait (s : State) : State :=
  let p := s.ply
  let q := p.setCur { p.cur with pc := s.issue.first }
  let q := { q with epc := s.issue.first, erun := BitVec.ofNat 5 p.pos, savedLatches := p.latches }
  s.savePly q q.vcount true true

/-- A wait that is a gating point begins, or the ply is saved before it. -/
def State.beginWait (s : State) (w : Wait) (before : State → State := id) : State :=
  if s.gatesHere then s.saveAtWait else (before s).wait w

/-! ## Restoring (R248, R249, R350) -/

/-- A region as a restore finds it: each word that a program stored over is the old or the new one. -/
def State.mixRegion (s : State) (o : Nat) (old new : List Byte) : List Byte :=
  if old == new then old
  else (List.range (old.length / 4)).flatMap fun k =>
    let a := slice old (4 * k) 4
    let b := slice new (4 * k) 4
    if a == b then a else if s.choose (6000000 + o / 4 + k) then b else a

/-- The regions of a saved ply as its restore takes them. -/
def State.restoredRegions (s : State) (v : Saved) : List (Nat × List Byte × List Byte) :=
  v.image.map fun (o, old) =>
    match s.readVirt v.ply.core v.ply.tenant (v.ply.ssave + BitVec.ofNat 64 o) old.length with
    | .ok new => (o, old, s.mixRegion o old new)
    | .error _ => (o, old, old)

/-- A saved ply as it is restored on a core, in a pipe, with an age and an XBUF window (log 67). -/
def State.restoredPly (s : State) (v : Saved) (core pipe age base charge : Nat) : Ply :=
  let p := (s.restoredRegions v).foldl (fun (p : Ply) (o, old, new) => if old == new then p else p.loadRegion false o old new) v.ply
  let p := { p with core := core, pipe := pipe, age := age, windowBase := base, charge := charge, stxOld := [] }
  if v.atWait then
    { p.setCur { p.cur with pc := p.epc, since := s.now } with
      running := true, resumes := true, pos := p.erun.toNat, latches := p.savedLatches, runSince := s.now }
  else { p.setPath 0 { p.path0 with since := s.now } with path1 := { p.path1 with since := s.now } }

/-- The window bytes that a restore loads. -/
def State.restoredWindow (s : State) (v : Saved) : List Byte :=
  ((s.restoredRegions v).filter fun r => r.1 == 0x40000).flatMap fun r => r.2.2

/-! ## CTXSV and CTXRS (R382) -/

/-- The context that CTXSV writes: the interrupted path's PC is %epc. -/
def Ply.interrupted (p : Ply) : Ply := p.setPath p.trapSlot { p.path p.trapSlot with pc := p.epc }

/-- The physical pieces of regions, or the first fault. -/
def State.regionStores (s : State) (rs : List (Nat × List Byte)) : Except Cause (List LaneStore) :=
  let p := s.ply
  rs.foldl (fun r (o, b) =>
    match r with
    | .error c => .error c
    | .ok l =>
      let va := p.ssave + BitVec.ofNat 64 o
      match s.range p.tenant .write va b.length with
      | .error c => .error c
      | .ok ps => .ok (l ++ (ps.foldl (fun (l, va, b) (pa, k) =>
          (l ++ [(⟨96, va, pa, b.take k⟩ : LaneStore)], va + BitVec.ofNat 64 k, b.drop k)) (([] : List LaneStore), va, b)).1)) (.ok [])

/-- CTXSV (R382): its writes are stores of the scalar unit. -/
def execCtxsv (s : State) : Outcome :=
  (if s.ply.supervisor then
    match s.regionStores ((s.ply.interrupted).regions s.ply.vcount true) with
    | .error c => s.raise c
    | .ok ls => (s.enqueue s.ply.uid s.ply.slot s.issue.first (.store ls 0)).done
  else s.raisePriv).ok

/-- The divergence stack of a depth that CTXRS loads: the records stand in memory. -/
def State.loadStack (s : State) (n : Nat) : List DivRecord :=
  let p := s.ply
  (List.range n).map fun i =>
    match s.readVirt p.core p.tenant (recordAt p.ssave i) 48 with
    | .ok b => ⟨p.ssave, (List.range 12).map fun k => bytesWord (slice b (4 * k) 4)⟩
    | .error _ => ⟨p.ssave, (List.range 12).map fun _ => 0⟩

/-- CTXRS after its region is read (R382). -/
def State.loadContext (s : State) (rs : List (Nat × List Byte)) : State :=
  let st := (rs.lookup 0x180).getD []
  let p := s.ply
  if num st 0x5C 4 != p.vcount || num st 0x60 4 != p.actiles then s.raise (engine 3)
  else
    let depth := min (num st 0x64 4) 64
    let p' := (rs.foldl (fun (p : Ply) (o, b) => p.loadRegion true o [] b) (p.advance s.issue))
    let p' := { p' with dstack := s.loadStack depth }
    { s with ply := { p'.eret with runSince := s.now } }

/-- CTXRS (R382): every region is read, as lanes may have stored into it (R249). -/
def execCtxrs (s : State) : Outcome :=
  (if s.ply.supervisor then
    let p := s.ply
    let rs : Except Cause (List (Nat × List Byte)) := ((p.regions p.vcount true).map fun (o, b) => (o, b.length)).foldl
      (fun (r : Except Cause (List (Nat × List Byte))) (o, n) =>
        match r with
        | .error c => .error c
        | .ok l =>
          match s.readVirt p.core p.tenant (p.ssave + BitVec.ofNat 64 o) n with
          | .error c => .error c
          | .ok b => .ok (l ++ [(o, b)])) (.ok [])
    match rs with
    | .error c => s.raise c
    | .ok l => s.loadContext l
  else s.raisePriv).ok

end Sys2Proof.Machine
end

