-- ==== Sys2Proof/Machine/Matrix.lean ====
section
/-!
DEFINITION. The matrix engine: descriptors, block values, MMA and MMABP with their stop and resume, MZERO, MRD, MWR, MCVST
(spec/01 R32 to R37, spec/09 R200 to R217).
-/
namespace Sys2Proof.Machine

/-! ## Elements and scales (R32, R34, R37, R205) -/

/-- Bytes of a block of a row or column, by format code (R205). -/
def blockBytes (f : Nat) : Nat :=
  match f with
  | 0 | 1 => 256
  | 4 | 6 => 64
  | _ => 128
/-- Blocks in the 512 bytes of a row or column (R37). -/
def blockCount (f : Nat) : Nat := 512 / blockBytes f

/-- An integer as a value. -/
def intValue (i : Int) : Value := .fin (decide (i < 0)) i.natAbs 0
/-- The two 4-bit elements of each byte, low half first (R205). -/
def nibbles (b : List Byte) : List Nat := b.flatMap fun x => [x.toNat % 16, x.toNat / 16]
/-- The 16-bit elements. -/
def halves : List Byte → List Nat
  | x :: y :: l => (x.toNat + 256 * y.toNat) :: halves l
  | _ => []

/-- The elements of one block by format code (R37, R205). -/
def elements (f : Nat) (b : List Byte) : List Value :=
  match f with
  | 0 => (halves b).map bf16.value
  | 1 => (halves b).map fp16.value
  | 2 => b.map fun x => e4m3.value x.toNat
  | 3 => b.map fun x => e5m2.value x.toNat
  | 4 => (nibbles b).map e2m1.value
  | 5 => b.map fun x => intValue x.toInt
  | _ => (nibbles b).map fun x => intValue (BitVec.ofNat 4 x).toInt

/-- The 128 values of a bit-plane block of which the first p planes are read (R34). -/
def planeValues (p : Nat) (b : List Byte) : List Value :=
  (List.range 128).map fun j =>
    let top := bitsBelow (fun q => ((b[16 * (p - 1 - q) + j / 8]?).getD 0).getLsbD (j % 8)) p
    let t : Int := if 2 ^ (p - 1) ≤ top then (top : Int) - 2 ^ p else top
    intValue (t * 2 ^ (8 - p) + if p < 8 then 2 ^ (7 - p) else 0)

/-- A ue8m8 scale (R32). -/
def scaleValue (x : Nat) : Value :=
  let e := x / 256 % 256
  if x == 0 then .fin false 0 0
  else if e == 255 then .nan false
  else .fin false (256 + x % 256) ((e : Int) - 135)

/-! ## The value of a block (R35, R36) -/

/-- What the products of a block come to: a NaN seen, infinite products by sign, and the exact sum in units of 2^unit. -/
structure BlockSum where
  nan  : Bool
  pos  : Bool
  neg  : Bool
  sum  : Int
  deriving DecidableEq, Repr

/-- One product added (R35). Every finite element is a multiple of 2^(unit / 2). -/
def BlockSum.add (unit : Nat) (t : BlockSum) (x y : Value) : BlockSum :=
  match x, y with
  | .nan _, _ => { t with nan := true }
  | _, .nan _ => { t with nan := true }
  | .fin a m e, .fin b n f => { t with sum := t.sum + signed (a != b) (m * n * 2 ^ (e + f + unit).toNat) }
  | .inf a, .fin b n _ => if n == 0 then { t with nan := true } else if a != b then { t with neg := true } else { t with pos := true }
  | .fin a m _, .inf b => if m == 0 then { t with nan := true } else if a != b then { t with neg := true } else { t with pos := true }
  | .inf a, .inf b => if a != b then { t with neg := true } else { t with pos := true }

/-- The exact products of a block summed; the unit is 2^-300, below every product of two elements. -/
def blockSum (as bs : List Value) : BlockSum :=
  (as.zip bs).foldl (fun t (x, y) => t.add 300 x y) ⟨false, false, false, 0⟩

/-- The fp32 value of a block (R35). -/
def blockValue (as bs : List Value) (sa sb : Value) : Nat :=
  let t := blockSum as bs
  let zero (v : Value) : Bool := match v with
    | .fin _ m _ => m == 0
    | _ => false
  if t.nan || sa.isNan || sb.isNan || (t.pos && t.neg) then fp32.nan
  else if t.pos || t.neg then (if zero sa || zero sb then fp32.nan else fp32.inf t.neg)
  else
    match sa, sb with
    | .fin _ m e, .fin _ n f =>
      let p := t.sum * (m * n : Nat)
      if p == 0 then 0 else (fp32.roundFin 0 false (decide (p < 0)) p.natAbs (e + f - 300)).1
    | _, _ => fp32.nan

/-- The exact sum of a block of integers (R36): the unit cancels. -/
def blockInt (as bs : List Value) : Int := (blockSum as bs).sum / 2 ^ 300

/-! ## Descriptors (R202 to R204) -/

/-- A descriptor group of the issuing ply, checked in the order of R204: rows of 512 bytes in the space given. -/
def State.descriptor (s : State) (g : BitVec 6) (rows : Nat) (sp : Space) : Except Cause Operand :=
  let addr := s.S64 g
  let stride := (s.S (g + 2)).toInt
  let w := s.S (g + 3)
  let en := w.getLsbD 31
  let soff := bits w.toNat 16 0
  let loc := isLocal addr
  let start (m : Nat) : DWord := addr + dword (m * stride)
  let outside := if loc then none else (List.range rows).find? fun m => (start m).toNat / 2 ^ 60 != 0
  let limit := s.ply.spaceLimit sp
  let offs := (List.range rows).map fun m => (start m).toNat % 2 ^ 21
  let past := if loc then offs.filter fun o => decide (limit < o + 512) else []
  match outside with
  | some m => .error (noncanon (start m))
  | none =>
    if addr.toNat % 16 != 0 || stride % 16 != 0 then .error (align addr)
    else if loc && (local64 addr).isNone then .error (localRange 2 addr)
    else if loc && (local64 addr).map (·.1) != some sp then .error (localRange 3 addr)
    else
      match past with
      | o :: os => .error (localRange 0 (BitVec.ofNat 64 (os.foldl (fun a b => min a (max b limit)) (max o limit))))
      | [] =>
        if en && bits w.toNat 30 17 != 0 then .error (engine 5 (w.zeroExtend 64))
        else if en && soff % 16 != 0 then .error (align (BitVec.ofNat 64 soff))
        else if en && 131072 < soff + 16 * rows then .error (localRange 0 (BitVec.ofNat 64 soff))
        else .ok ⟨loc, s.ply.absolute sp 0, addr, stride, if en then some soff else none⟩

/-! ## Reading operands (R208, R212, R213) -/

/-- What a block read gives: its rows' bytes, the faults met, the failing addresses met, the physical addresses touched. -/
structure BlockRead where
  rows   : List (List Byte)
  faults : List Cause
  bad    : List (DWord × Nat)
  pas    : List Nat
  deriving DecidableEq, Repr

/-- Bytes of global memory as the matrix engine takes them (R213): each aligned word that a store performed since the instruction
issued has changed is, freely, as it was. -/
def State.operandBytes (s : State) (p : Ply) (seq since pa n : Nat) : List Byte :=
  let now := s.bytesFor p seq 98 pa n
  let meets (q : PendingStore) : Bool := q.visible p.core s.now && decide (q.pa < pa + n) && decide (pa < q.pa + q.data.length)
  let gone := s.recent.filter fun (t, a, _) => decide (since < t) && decide (pa ≤ a) && decide (a < pa + n)
  if gone.isEmpty && !s.stores.any fun q => meets q && decide (seq < q.seq) then now
  else
    let past := s.stores.filter fun q => meets q && decide (q.seq ≤ seq)
    now.zipIdx.map fun (b, i) =>
      if s.choose (wordKey 5 seq ((pa + i) / 4)) then
        let base := match (gone.filter fun x => x.2.1 == pa + i).getLast? with
          | some x => x.2.2
          | none => s.mem.read (pa + i)
        past.foldl (fun b q => overlay q.pa q.data (pa + i) b) base
      else b

/-- The addresses whose translations an operand uses. -/
def Operand.pageAddresses (o : Operand) (rows : Nat) : List DWord :=
  if o.loc then []
  else (List.range rows).flatMap fun (m : Nat) =>
    let va := o.addr + dword (m * o.stride)
    [va, va + 511]
/-- The pages of an operand of a number of rows of at most 512 bytes; none where it is local. -/
def State.operandPages (s : State) (tenant : Nat) (o : Operand) (rows : Nat) : Pages :=
  s.pages tenant .read (o.pageAddresses rows)
/-- n bytes of one row of an operand from byte off on. -/
def State.operandRow (s : State) (p : Ply) (seq since : Nat) (sp : Space) (o : Operand) (pg : Pages) (row off n : Nat) : BlockRead :=
  let va := o.addr + dword (row * o.stride)
  if o.loc then ⟨[s.engineRead ⟨seq, p.uid, none, none⟩ p.core sp (o.base + va.toNat % 2 ^ 21 + off) n], [], [], []⟩
  else
    (cutPages 2 (va + BitVec.ofNat 64 off) n).foldl (fun r (a, k) =>
      match Pages.check pg 1 a 127 with
      | .error c => { r with faults := r.faults ++ [c] }
      | .ok pa =>
        { r with
          rows := [(r.rows.headD []) ++ s.operandBytes p seq since pa k]
          bad := if s.consumesBad p seq 98 pa k then r.bad ++ [(a, pa)] else r.bad
          pas := r.pas ++ (List.range ((pa + k - 1) / 128 - pa / 128 + 1)).map fun i => (pa / 128 + i) * 128 }) ⟨[], [], [], []⟩

/-- The block of several rows. -/
def State.operandBlock (s : State) (p : Ply) (seq since : Nat) (sp : Space) (o : Operand) (pg : Pages) (rows : List Nat) (off n : Nat) :
    BlockRead :=
  rows.foldl (fun r m =>
    let x := s.operandRow p seq since sp o pg m off n
    ⟨r.rows ++ x.rows, r.faults ++ x.faults, r.bad ++ x.bad, r.pas ++ x.pas⟩) ⟨[], [], [], []⟩

/-- The scale of a row or column in a block (R203). -/
def State.operandScale (s : State) (p : Ply) (seq : Nat) (o : Operand) (row k : Nat) : Value :=
  match o.scales with
  | none => .fin false 1 0
  | some soff => scaleValue (leNat (s.engineRead ⟨seq, p.uid, none, none⟩ p.core .sbuf (soff + 16 * row + 2 * k) 2))

/-! ## MMA and MMABP (R207 to R209) -/

/-- Where an MMA stands: the tile, where it stopped and why, the failing addresses consumed, the lines read. -/
structure MmaRun where
  tile  : Tile
  stop  : Option (Nat × Nat × Cause × List Cause)
  bad   : Option (DWord × Nat)
  pas   : List Nat
  deriving DecidableEq, Repr

/-- The rows and columns of a tile that a group takes. -/
def mmaGroup (tile : Tile) (g : Nat) (f : Nat → Nat → Word → Word) : Tile :=
  (tile.zip (List.range tile.length)).map fun (col, n) =>
    Lanes.gen fun m => if 8 * g ≤ m && m < 8 * g + 8 then f m n (col.at m) else col.at m

/-- Whether an MMA reads its tile as i32 (R206, R36). -/
def MtxKind.integer : MtxKind → Bool
  | .mma none fa _ _ a b _ _ => (fa == 5 || fa == 6) && a.scales.isNone && b.scales.isNone
  | _ => false

/-- One block of one row group (R207, R208). -/
def State.mmaBlock (s : State) (p : Ply) (seq since : Nat) (planes : Option Nat) (fa fb : Nat) (z int : Bool) (a b : Operand)
    (pa pb : Pages) (r : MmaRun) (g k : Nat) : MmaRun :=
  if r.stop.isSome || r.bad.isSome then r
  else
    let na := blockBytes fa
    let nb := match planes with
      | some n => 16 * n
      | none => blockBytes fb
    let rows := (List.range 8).map (8 * g + ·)
    let x := s.operandBlock p seq since .xbuf a pa rows (k * na) na
    let y := s.operandBlock p seq since .wbuf b pb (List.range 64) (k * (if planes.isSome then 128 else nb)) nb
    let faults := if x.faults.isEmpty then y.faults else x.faults
    match faults with
    | c :: cs =>
      { r with
        stop := some (g, k, cs.foldl (fun u v => if v.addr.toNat < u.addr.toNat then v else u) c, x.faults ++ y.faults)
        pas := r.pas ++ x.pas ++ y.pas }
    | [] =>
      match x.bad ++ y.bad with
      | e :: _ => { r with bad := some e, pas := r.pas ++ x.pas ++ y.pas }
      | [] =>
        let av := x.rows.map (elements fa)
        let bv := y.rows.map fun l => match planes with
          | some n => planeValues n l
          | none => elements fb l
        let sa := rows.map fun m => s.operandScale p seq a m k
        let sb := (List.range 64).map fun n => s.operandScale p seq b n k
        let step (m n : Nat) (old : Word) : Word :=
          let base := if z && k == 0 then 0 else old
          let u := av.getD (m - 8 * g) []
          let v := bv.getD n []
          if int then base + word (blockInt u v)
          else
            BitVec.ofNat 32 (fp32.add 0 base.toNat
              (blockValue u v (sa.getD (m - 8 * g) (.fin false 1 0)) (sb.getD n (.fin false 1 0)))).1
        { r with tile := mmaGroup r.tile g step, pas := r.pas ++ x.pas ++ y.pas }

/-- The row groups and blocks that an MMA takes from a starting point, in order (R207, R209). -/
def mmaSteps (nb : Nat) (start : Nat × Nat) : List (Nat × Nat) :=
  (List.range 12).flatMap fun g =>
    if g < start.1 then []
    else ((List.range nb).filter fun k => g != start.1 || decide (start.2 ≤ k)).map fun k => (g, k)

/-- %rpr of a stop (R209). -/
def rprOf (tile g k : Nat) : Word := BitVec.ofNat 32 (2 ^ 31 + tile * 2 ^ 16 + 8 * g * 256 + k * 16)

/-- The engine is done with an instruction. -/
def State.leaveMtx (s : State) (core seq : Nat) : State :=
  s.modCore core fun c => { c with mtxq := c.mtxq.filter fun o => o.seq != seq }

/-- The engine executes an MMA or MMABP to its end or to its stop (log 33). -/
def State.runMma (s : State) (p : Ply) (o : MtxOp) (planes : Option Nat) (fa fb : Nat) (z int : Bool) (a b : Operand)
    (user : Bool) (start : Nat × Nat) : State :=
  let r0 : MmaRun := ⟨(p.tiles[o.tile]?).getD [], .none, .none, []⟩
  let nb := blockCount fa
  let pa := s.operandPages p.tenant a 96
  let pb := s.operandPages p.tenant b 64
  let r := (mmaSteps nb start).foldl (fun r (g, k) => s.mmaBlock p o.seq o.issuedAt planes fa fb z int a b pa pb r g k) r0
  let s := (s.fillTlb p.tenant (a.pageAddresses 96 ++ b.pageAddresses 64)).takeLeases p.tenant p.core 0 r.pas
  let s := s.leaveMtx p.core o.seq
  let rpr := match r.stop with
    | some (g, k, _, _) => rprOf o.tile g k
    | none => 0
  let s := s.modAny p.uid fun q =>
    { q with tiles := listSet q.tiles o.tile r.tile, rpr := if user && r.bad.isNone then rpr else q.rpr }
  let waits := p.cur.wait = .engine o.seq
  match r.stop, r.bad with
  | some (_, _, c, all), _ => if waits then s.raiseWaiting p.uid c all else s
  | _, some (va, pa) => s.endByFault p.uid Mask.full (memerr (s.foundIn pa) 3) o.pc va (s.granule pa 128)
  | _, _ => if waits then s.modPly p.uid fun q => q.finishWait s.now else s

/-! ## MRD, MWR, MCVST (R216, R217) -/

/-- MRD: a slice of the tile enters eight registers in the active lanes. -/
def Ply.readSlice (p : Ply) (tile v j : Nat) (active : Mask) : Ply :=
  (List.range 8).foldl (fun q c =>
    let col := (((p.tiles[tile]?).getD [])[8 * j + c]?).getD Lanes.zero
    q.putVLanes (BitVec.ofNat 7 (v + c)) active col.at) p

/-- MWR: eight registers enter a slice of the tile in the active lanes. -/
def Ply.writeSlice (p : Ply) (tile j : Nat) (cols : List Lanes) (active : Mask) : Ply :=
  let t := (p.tiles[tile]?).getD []
  let t := (List.range 8).foldl (fun t c =>
    let old := (t[8 * j + c]?).getD Lanes.zero
    let new := (cols[c]?).getD Lanes.zero
    listSet t (8 * j + c) (Lanes.gen fun i => if active.has i then new.at i else old.at i)) t
  { p with tiles := listSet p.tiles tile t }

/-- Bytes of an element that MCVST stores. -/
def mcvstBytes (fmt : Nat) : Nat := if fmt == 0 then 2 else 1

/-- One word of a tile as MCVST stores it (R217, R30). -/
def mcvstElement (fmt : Nat) (i32 sat : Bool) (w : Word) : List Byte :=
  let v := if i32 then intValue w.toInt else fp32.value w.toNat
  leBytes (mcvstBytes fmt) ((if fmt == 0 then bf16 else e4m3).convert 0 sat v).1

/-- The bytes of row m of a tile. -/
def tileRow (t : Tile) (fmt : Nat) (i32 sat : Bool) (m : Nat) : List Byte :=
  t.flatMap fun col => mcvstElement fmt i32 sat (col.at m)

/-- The rows of an MCVST receive their bytes: each piece takes what lies at its distance from its row's first piece. -/
def fillRows (t : Tile) (fmt : Nat) (i32 sat : Bool) (ls : List LaneStore) : List LaneStore :=
  ls.map fun l =>
    let first := ((ls.find? fun x => x.lane == l.lane).getD l).va
    { l with data := slice (tileRow t fmt i32 sat l.lane) (l.va - first).toNat l.data.length }

/-- The engine converts the rows of an MCVST, whose stores may then leave the ply's queue. -/
def Ply.convertRows (p : Ply) (o : MtxOp) (fmt : Nat) (i32 sat : Bool) : Ply :=
  let t := (p.tiles[o.tile]?).getD []
  { p with lsq := p.lsq.map fun (e : MemOp) =>
      if e.seq == o.seq then
        match e.kind with
        | .store ls c => { e with kind := .store (fillRows t fmt i32 sat ls) c }
        | .storeX ls m => { e with kind := .storeX (fillRows t fmt i32 sat ls) m }
        | _ => e
      else e }

/-! ## The engine (R201) -/

/-- Whether the fences that an engine operation of a ply must follow are satisfied: the XFENCEs before it (R196) and, for
an operation that reads global memory, the fences before it (R213) (log 34). -/
def State.engineReady (s : State) (p : Ply) (seq : Nat) (global : Bool) : Bool :=
  (p.older seq).all fun e =>
    match e.kind with
    | .xfence => s.fenceMet p e
    | .fence _ _ _ => !global || s.fenceMet p e
    | _ => true

/-- Whether an MTX instruction reads global memory (R208). -/
def MtxKind.global : MtxKind → Bool
  | .mma _ _ _ _ a b _ _ => !a.loc || !b.loc
  | _ => false

/-- The head of a core's MTX queue executes (R201, R207). -/
def State.runMtx (s : State) (core : Nat) : State :=
  match (s.core core).mtxq with
  | [] => s
  | o :: _ =>
    match s.anyPly o.uid with
    | none => s.leaveMtx core o.seq
    | some p =>
      if s.engineReady p o.seq o.kind.global then
        match o.kind with
        | .mma planes fa fb z a b user start => s.runMma p o planes fa fb z o.kind.integer a b user start
        | .mzero =>
          (s.modAny p.uid fun q => { q with tiles := listSet q.tiles o.tile (List.replicate 64 Lanes.zero) }).leaveMtx core o.seq
        | .mrd v j m => (s.modAny p.uid fun q => q.readSlice o.tile v j m).leaveMtx core o.seq
        | .mwr j cols m => (s.modAny p.uid fun q => q.writeSlice o.tile j cols m).leaveMtx core o.seq
        | .mcvst fmt i32 sat => (s.modAny p.uid fun q => q.convertRows o fmt i32 sat).leaveMtx core o.seq
      else s

/-- MTX_ENGINE_EXECUTE (R201, R207). -/
def execMtxEngineExecute (core : Nat) (s : State) : Outcome := (s.runMtx core).reap.awake.ok

/-! ## Issue (R210, R214 to R217) -/

/-- An MTX instruction enters its core's queue under issue number n. -/
def State.queueMtx (s : State) (n tile : Nat) (k : MtxKind) : State :=
  let o : MtxOp := ⟨n, s.ply.uid, s.ply.slot, s.issue.first, s.ply.pos, tile, k, s.now⟩
  s.modCore s.ply.core fun c => { c with mtxq := c.mtxq ++ [o] }

/-- REGRANGE, then ENGINE 4 for an entry without mma (R210). -/
def State.checkMma (s : State) (tile : Nat) (k : State) : State :=
  s.checkTile tile (if s.ply.header.mma then k else s.raise (engine 4))

/-- Where an MMA of a tile starts (R209): an earlier MMA of the ply that is still queued clears %rpr as it completes
(log 45). -/
def State.mmaStart (s : State) (tile : Nat) : Nat × Nat :=
  let r := s.ply.rpr.toNat
  let queued := (s.core s.ply.core).mtxq.any fun o => o.uid == s.ply.uid && match o.kind with
    | .mma _ _ _ _ _ _ user _ => user
    | _ => false
  if s.ply.supervisor || queued || bits r 31 31 == 0 || bits r 18 16 != tile then (0, 0)
  else (bits r 15 8 / 8, bits r 7 4)

/-- MMA and MMABP at issue (R210, R204, R208): with a global operand the path waits for the engine. -/
def State.mmaIssue (s : State) (t : BitVec 3) (planes : Option Nat) (fa fb : Nat) (g h : BitVec 6) (z : BitVec 1) : State :=
  s.checkMma t.toNat <|
    if s.path.member != Mask.full || s.path.active != Mask.full then s.raiseConverge
    else
      match s.descriptor g 96 .xbuf with
      | .error c => s.raise c
      | .ok a =>
        match s.descriptor h 64 .wbuf with
        | .error c => s.raise c
        | .ok b =>
          let start := s.mmaStart t.toNat
          let (n, s) := s.fresh
          let s := s.queueMtx n t.toNat (.mma planes fa fb (z == 1) a b (!s.ply.supervisor) start)
          if a.loc && b.loc then s.done else s.wait (.engine n)

/-- MMA (R214). -/
def execMma (t a b : BitVec 3) (g h : BitVec 6) (z : BitVec 1) (s : State) : Outcome :=
  (s.mmaIssue t none a.toNat b.toNat g h z).ok
/-- MMABP (R214): the plane count is the field + 2. -/
def execMmabp (t p : BitVec 3) (g h : BitVec 6) (z : BitVec 1) (s : State) : Outcome :=
  (s.mmaIssue t (some (p.toNat + 2)) 5 0 g h z).ok

/-- A queued instruction without operands of memory. -/
def State.mtxIssue (s : State) (t : BitVec 3) (k : MtxKind) : State :=
  let (n, s) := s.fresh
  (s.queueMtx n t.toNat k).done

/-- MZERO (R215). -/
def execMzero (t : BitVec 3) (s : State) : Outcome := (s.checkMma t.toNat (s.mtxIssue t .mzero)).ok
/-- REGRANGE of MRD and MWR comes before ENGINE 4 (R92, R210). -/
def State.checkSlice (s : State) (t : BitVec 3) (v : Nat) (k : State) : State :=
  if s.ply.vcount < v + 8 then s.raiseRegrange else s.checkMma t.toNat k
/-- MRD (R216): the field g names register v(2g), the field j slice j / 4. -/
def execMrd (t : BitVec 3) (g j : BitVec 6) (s : State) : Outcome :=
  (s.checkSlice t (2 * g.toNat) (s.mtxIssue t (.mrd (2 * g.toNat) (j.toNat / 4) s.active))).ok
/-- MWR (R216): its registers are read at issue. -/
def execMwr (t : BitVec 3) (g j : BitVec 6) (s : State) : Outcome :=
  (s.checkSlice t (2 * g.toNat)
    (s.mtxIssue t (.mwr (j.toNat / 4) ((List.range 8).map fun c => s.V (BitVec.ofNat 7 (2 * g.toNat + c))) s.active))).ok

/-- The rows of an MCVST as stores of their lanes, still empty (R217): a global row is cut at page boundaries (log 44). -/
def State.mcvstRow (s : State) (addr : DWord) (stride : Int) (n m : Nat) : Except (Cause × List Cause) (List LaneStore) :=
  let va := addr + dword (m * stride)
  if isLocal addr then
    let off := va.toNat % 2 ^ 21
    let at' : DWord := BitVec.ofNat 64 (addr.toNat / 2 ^ 21 * 2 ^ 21 + off)
    if s.ply.windowSize < off + n then .error (localRange 0 at' m, []) else .ok [⟨m, at', s.ply.absolute .xbuf off, zeros n⟩]
  else
    let rs := (cutPages 2 va n).map fun (a, k) => (a, k, s.checkGlobal s.ply.tenant .write 1 a m)
    let bad := rs.filterMap fun (_, _, r) => match r with
      | .error c => some c
      | .ok _ => none
    match bad with
    | c :: _ => .error ({ c with addr := va }, bad.filter Cause.isPage)
    | [] => .ok (rs.filterMap fun (a, k, r) => match r with
      | .ok pa => some ⟨m, a, pa, zeros k⟩
      | .error _ => none)

/-- MCVST at issue (R217). -/
def State.mcvstIssue (s : State) (t : BitVec 3) (fmt : Nat) (i32 sat : Bool) (g : BitVec 6) : State :=
  s.checkMma t.toNat <|
    let addr := s.S64 g
    let w := s.S (g + 2)
    let loc := isLocal addr
    let n := 64 * mcvstBytes fmt
    if loc && (local64 addr).isNone then s.raise (localRange 2 addr)
    else if loc && (local64 addr).map (·.1) != some .xbuf then s.raise (localRange 1 addr)
    else if addr.toNat % 16 != 0 then s.raise (align addr)
    else if w.toNat % 16 != 0 then s.raise (align (w.zeroExtend 64))
    else
      let rs := s.storeLanes.map (s.mcvstRow addr w.toInt n)
      let bad := rs.filterMap fun r => match r with
        | .error c => some c
        | .ok _ => none
      match bad with
      | (c, _) :: _ => s.raise c (bad.flatMap (·.2))
      | [] =>
        let ls := rs.flatMap fun r => match r with
          | .ok l => l
          | .error _ => []
        if ls.isEmpty then s.done
        else
          let s := if loc then s else s.fillTlb s.ply.tenant (ls.map (·.va))
          let s := s.queueMem (if loc then .storeX ls true else .store ls 0)
          (s.queueMtx s.seq t.toNat (.mcvst fmt i32 sat)).done

/-- MCVST (R217). -/
def execMcvst (t a b : BitVec 3) (g : BitVec 6) (z : BitVec 1) (s : State) : Outcome :=
  (s.mcvstIssue t a.toNat (b == 1) (z == 1) g).ok

end Sys2Proof.Machine
end

