-- ==== Sys2Proof/Machine/Waits.lean ====
section
/-!
DEFINITION. What the waiting instructions share: the kill point at their issue (spec/11 R260, R412), the outstanding
counters with their retirement and failures (spec/10 R220, R229).
-/
namespace Sys2Proof.Machine

/-- The kill point of an instruction at its issue, for its path's lanes (R260): lost is what it does where its path keeps no
occupied lane while the ply does (R412), k what it does otherwise. -/
def State.killHere (s : State) (lost k : State → State) : State :=
  let u := s.ply.uid
  let dead := s.cancelledLanes s.ply &&& s.path.member
  if dead == 0 then k s
  else
    let s := s.kill u dead
    if s.ply.occ == 0 then s.retire u
    else if s.path.member &&& s.ply.occ == 0 then lost s
    else k s

/-! ## Counted operations (R220) -/

/-- An operation of a class issues: its issue number, and the counter one higher. -/
def State.countOp (s : State) (cls : Nat) (scopes : List (BitVec 24)) : Nat × State :=
  let (n, s) := s.fresh
  let c : Counted := ⟨n, s.ply.uid, cls, false, none, scopes, s.ply.tenant⟩
  let p := s.ply
  (n, { s with counted := s.counted ++ [c], ply := p.setCnt cls ((p.cnt[cls]?).getD 0 + 1) })

/-- Whether an operation is complete. One of class PT is when its commit entry has retired and no PATH instruction of the ply
up to it, nor a piece of one, is still on its way (R290, R317). -/
def State.opDone (s : State) (c : Counted) : Bool :=
  c.complete || (c.cls == 3 &&
    !(s.cores.any fun (_, (k : Core)) =>
      (k.entries.any fun e => e.seq == c.seq) || k.pathq.any fun o => o.uid == c.uid && decide (o.seq ≤ c.seq)) &&
    !s.pieces.any fun o => o.uid == c.uid && decide (o.seq ≤ c.seq))

/-- The bytes that a failed or stopped copy left unwritten are credited to its barrier (R229, R237). -/
def State.creditUnwritten (s : State) (o : CopyOp) : State :=
  match o.kind with
  | .tcopy _ _ _ _ _ _ (some (core, leaf)) =>
    o.unwritten.foldl (fun (s : State) (n : Nat) => s.creditLeaf core leaf (n : Int)) s
  | _ => s

/-- The bytes of an RGET that are not credited when it retires (R229, R236, R399). -/
def State.creditRest (s : State) (o : FabricOp) : State :=
  match o.kind with
  | .rget _ _ _ _ (some (core, leaf)) =>
    (o.owed.map (·.2) ++ [o.unwritten]).foldl (fun (s : State) (n : Nat) => if n == 0 then s else s.creditLeaf core leaf (n : Int)) s
  | _ => s

/-- The oldest operation of a class of a ply retires where it is complete (R220): a failure waits for a WAITC or CNTR, or is
reported at once for a ply that has retired (R229). -/
def State.retireOp (s : State) (uid cls : Nat) : State :=
  match s.counted.find? fun (c : Counted) => c.uid == uid && c.cls == cls with
  | none => s
  | some c =>
    if s.opDone c then
      let left := s.cores.flatMap fun (_, (x : Core)) => x.copyq.filter fun (o : CopyOp) => o.seq == c.seq && !o.unwritten.isEmpty
      let gets := s.fabric.filter fun (o : FabricOp) => o.seq == c.seq
      let s := { s with
        counted := s.counted.filter fun (x : Counted) => x.seq != c.seq
        fabric := s.fabric.filter fun (o : FabricOp) => o.seq != c.seq
        cores := s.cores.map fun (k, (x : Core)) => (k, { x with copyq := x.copyq.filter fun (o : CopyOp) => o.seq != c.seq }) }
      let s := s.modAny uid fun p =>
        let p := p.setCnt cls ((p.cnt[cls]?).getD 0 - 1)
        match c.failure with
        | some f => if p.occ == 0 then p else { p with failures := p.failures ++ [f] }
        | none => p
      let s := gets.foldl State.creditRest (left.foldl State.creditUnwritten s)
      match c.failure, s.ghosts.find? (fun (p : Ply) => p.uid == uid) with
      | some f, some p =>
        s.faultRecord p.tenant ⟨(Cause.mk 0x0E 13 f.detail.toNat f.addr 127 true).word, p.scope, p.plyid.zeroExtend 32, p.core,
          p.cur.pc, f.addr, 0, 0⟩
      | _, _ => s
    else s

/-- RETIREMENT (R220). -/
def execRetirement (ply cls : Nat) (s : State) : Outcome :=
  (let t := s.retireOp ply cls
  let t := if cls == 3 then t.releaseFor ply else t
  t.reap).ok

/-- The first failure of a class that no WAITC or CNTR has found (R229). -/
def Ply.failure (p : Ply) (cls : Nat) : Option Failure := p.failures.find? fun f => f.cls == cls
/-- The failure as WAITC or CNTR raises it: ENGINE 13 (R229). -/
def Failure.cause (f : Failure) : Cause := ⟨0x0E, 13, f.detail.toNat, f.addr, 127, true⟩
/-- The ply without that failure: each is reported once. -/
def Ply.dropFailure (p : Ply) (f : Failure) : Ply := { p with failures := p.failures.erase f }

/-- The condition of a WAITC or CNTR: its counter is at most k. -/
def Ply.counterAtMost (p : Ply) (cls k : Nat) : Bool := decide (((p.cnt[cls]?).getD 0).toNat ≤ k)

/-- WAITC or CNTR has found its counter at most k: a failure is raised, or k goes on. -/
def State.foundCounter (s : State) (cls : Nat) (k : State → State) : State :=
  match s.ply.failure cls with
  | some f => State.raise { s with ply := s.ply.dropFailure f } f.cause
  | none => k (s.seeWrites s.ply.uid s.ply.core cls)

/-- WAITC (R229). -/
def execWaitc (c : BitVec 2) (k : BitVec 8) (s : State) : Outcome :=
  (s.killHere State.done fun s =>
    if s.ply.counterAtMost c.toNat k.toNat then s.foundCounter c.toNat State.done
    else s.beginWait (.waitc c.toNat k.toNat)).ok

/-- CNTR (R229). -/
def execCntr (d : BitVec 6) (c : BitVec 2) (k : BitVec 8) (s : State) : Outcome :=
  (if s.ply.counterAtMost c.toNat k.toNat then s.foundCounter c.toNat fun s => s.sresult d 1 else s.sresult d 0).ok

/-- WAITC_RETURN (R229): a waiting WAITC whose counter has fallen returns, or raises the failure it finds. -/
def State.returnWaitc (s : State) (uid : Nat) : State :=
  match s.find uid with
  | none => s
  | some p =>
    match p.cur.wait with
    | .waitc c k =>
      if p.counterAtMost c k then
        match p.failure c with
        | some f => (s.modPly uid fun p => p.dropFailure f).raiseWaiting uid f.cause
        | none => (s.seeWrites uid p.core c).modPly uid fun p => p.finishWait s.now
      else s
    | _ => s
def execWaitcReturn (ply : Nat) (s : State) : Outcome := (s.returnWaitc ply).ok

end Sys2Proof.Machine
end

