-- ==== Sys2Proof/Machine/Copies.lean ====
section
/-!
DEFINITION. Shape records and handles, LCP, TCOPY, TCOPYX and the copy engine that performs them (spec/10 R219 to R232,
R236, R237).
-/
namespace Sys2Proof.Machine

/-! ## Shape records (R221 to R223) -/

/-- A signed field of n bytes. -/
def signedNum (l : List Byte) (o n : Nat) : Int :=
  let x := num l o n
  if 2 ^ (8 * n - 1) ≤ x then (x : Int) - 2 ^ (8 * n) else x

/-- The fields of the 64 bytes of a record (R221): with aux, counter 5 has extent 1. -/
def Shape.parse (b : List Byte) : Shape :=
  let ctl := BitVec.ofNat 16 (num b 62 2)
  let aux := ctl.getLsbD 15
  { base := BitVec.ofNat 64 (num b 0 8)
    ext := (List.range 5).map (fun k => num b (8 + 4 * k) 4) ++ [if aux then 1 else num b 53 4]
    stride := (List.range 5).map (fun k => signedNum b (28 + 5 * k) 5) ++ [if aux then 0 else signedNum b 57 5]
    pad := if aux then BitVec.ofNat 32 (num b 53 4) else 0
    scale := if aux then BitVec.ofNat 32 (num b 57 4) else 0
    byte61 := if aux then BitVec.ofNat 8 (num b 61 1) else 0
    ctl := ctl }

def Shape.fmt (r : Shape) : Nat := bits r.base.toNat 63 60
def Shape.addr (r : Shape) : Nat := bits r.base.toNat 59 0
/-- The local offset of a record's base, as LOCALRANGE reports it (R169). -/
def Shape.offset (r : Shape) : DWord := BitVec.ofNat 64 (bits r.addr 29 0)
def Shape.loc (r : Shape) : Bool := r.ctl.getLsbD 14
def Shape.tr (r : Shape) : Bool := r.ctl.getLsbD 13
def Shape.blk (r : Shape) : Nat := bits r.ctl.toNat 12 11
def Shape.scl (r : Shape) : Bool := r.ctl.getLsbD 10

/-- Bytes of a unit (R222). -/
def unitSize (fmt : Nat) : Nat :=
  match fmt with
  | 5 | 7 => 1
  | 14 => 16
  | f => fmtBits f / 8
/-- The pad unit (R222). -/
def Shape.padUnit (r : Shape) (u : Nat) : List Byte :=
  let b := wordBytes r.pad
  (b ++ b ++ b ++ b).take u

/-- The record of a handle that is current (R223). -/
def State.shapeOf (s : State) (tenant : Nat) (h : Word) : Option Shape :=
  let (gen, r) := tget (0, none) (h.toNat / 2 ^ 20) (s.tenant tenant).shapes
  if gen != 0 && gen.toNat == h.toNat % 2 ^ 20 then r else none

/-- The generation after g: it never becomes 0 (R223). -/
def nextGen (g : BitVec 20) : BitVec 20 := if g == BitVec.allOnes 20 then 1 else g + 1

/-- The hub writes a record into a slot under a new generation: the handle (R223). -/
def State.writeShape (s : State) (tenant slot : Nat) (r : Shape) : Word × State :=
  let g := nextGen (tget (0, none) slot (s.tenant tenant).shapes).1
  (BitVec.ofNat 32 (slot * 2 ^ 20 + g.toNat), s.modTenant tenant fun t => { t with shapes := tset slot (g, some r) t.shapes })

/-- The hub releases a current handle; a stale one has no effect (R228). -/
def State.releaseShape (s : State) (tenant : Nat) (h : Word) : State :=
  match s.shapeOf tenant h with
  | none => s
  | some _ =>
    s.modTenant tenant fun t =>
      { t with shapes := tset (h.toNat / 2 ^ 20) (nextGen (BitVec.ofNat 20 h.toNat), none) t.shapes }

/-! ## SHAPEW and SHAPEREL (R228) -/

/-- The checks of an XBUF record of n bytes named by a 32-bit local address, aligned to a. -/
def Ply.recordAt (p : Ply) (a : Word) (al n : Nat) : Except Cause Nat :=
  let off := a.toNat % 2 ^ 30
  let at' : DWord := BitVec.ofNat 64 off
  match spaceOf (a.toNat / 2 ^ 30) with
  | none => .error (localRange 2 at')
  | some .xbuf =>
    if off % al != 0 then .error (align (a.zeroExtend 64))
    else if p.windowSize < off + n then .error (localRange 0 at')
    else .ok (p.absolute .xbuf off)
  | some _ => .error (localRange 3 at')

/-- SHAPEW (R228): its handle is a pending result (log 52). -/
def execShapew (d a o : BitVec 6) (s : State) : Outcome :=
  (if 4096 ≤ (s.S a).toNat then s.raise (engine 10)
  else
    match s.ply.recordAt (s.S o) 64 64 with
    | .error c => s.raise c
    | .ok at' => (s.pushHub (.shapew d (s.S a).toNat at')).done).ok

/-- SHAPEREL (R228). -/
def execShaperel (a : BitVec 6) (s : State) : Outcome := (s.pushHub (.shaperel (s.S a))).done.ok

/-! ## The engine (R219, R226, R229 to R232) -/

/-- A place as a number of a space and an address. -/
def Place.key : Place → Nat × Nat
  | .glob va => (3, va.toNat)
  | .loc .xbuf a => (0, a)
  | .loc .wbuf a => (1, a)
  | .loc .sbuf a => (2, a)
/-- The 64-byte aligned block of a place. -/
def Place.block (p : Place) : Nat × Nat := (p.key.1, p.key.2 / 64)

def Place.isGlobal : Place → Bool
  | .glob _ => true
  | .loc _ _ => false
/-- The virtual addresses among places. -/
def globals (l : List Place) : List DWord :=
  l.filterMap fun p => match p with
    | .glob va => some va
    | .loc _ _ => none

/-- The destination units of an operation, global ones by their physical addresses: space, address, bytes. -/
def State.copyTargets (s : State) (o : CopyOp) : List (Nat × Nat × Nat) :=
  match o.kind with
  | .lcp n ls _ => ls.map fun l => (l.dst.key.1, l.dpa, n)
  | k =>
    let us := k.units
    let m := s.pages o.tenant .write (globals (us.map (·.dst)))
    us.filterMap fun u =>
      match u.dst with
      | .glob va =>
        match Pages.check m 1 va 127 with
        | .ok pa => some (3, pa, u.n)
        | .error _ => none
      | p => some (p.key.1, p.key.2, u.n)
/-- The 128-byte destination lines of an operation. -/
def State.copyLines (s : State) (o : CopyOp) : List (Nat × Nat) :=
  ((s.copyTargets o).map fun (k, a, _) => (k, a / 128)).eraseDups
/-- The operation as it reads and writes local spaces. -/
def CopyOp.engine (o : CopyOp) : EngineOp :=
  match o.kind with
  | .lcp _ _ _ => ⟨o.seq, o.uid, some 0, none⟩
  | .tcopy _ _ _ _ _ _ credit => ⟨o.seq, o.uid, some 1, credit⟩

/-- Whether an earlier operation of the ply, not yet performed, writes a line that this one writes (R232) (log 51). -/
def State.copyHeld (s : State) (core : Nat) (o : CopyOp) : Bool :=
  let early := (s.core core).copyq.filter fun q => q.uid == o.uid && decide (q.seq < o.seq) && q.due.isNone
  !early.isEmpty &&
    let mine := s.copyLines o
    early.any fun q => (s.copyLines q).any fun l => mine.contains l

/-- One unit as the engine finds it: its bytes, its fault, its failing address (R229, R351); the physical destination. -/
structure UnitRead where
  unit  : CopyUnit
  data  : List Byte
  dpa   : Nat
  spa   : Option Nat
  fault : Option Cause
  bad   : Option (DWord × Nat)
  deriving DecidableEq, Repr

/-- Reads the source of a unit and translates its destination, by the pages of the sources and of the destinations. -/
def State.readUnit (s : State) (p : Ply) (seq : Nat) (from' dest : Pages) (u : CopyUnit) : UnitRead :=
  let r : UnitRead := ⟨u, u.pad, 0, none, none, none⟩
  let r :=
    match u.src with
    | none => r
    | some (.loc sp a) => { r with data := s.engineRead ⟨seq, p.uid, some 1, none⟩ p.core sp a u.n }
    | some (.glob va) =>
      match Pages.check from' u.n va 127 with
      | .error c => if c.code == 0x21 then { r with bad := some (va, 0) } else { r with fault := some c }
      | .ok pa =>
        { r with
          data := s.bytesFor p seq 98 pa u.n
          spa := some pa
          bad := if s.consumesBad p seq 98 pa u.n then some (va, pa) else none }
  match u.dst with
  | .loc _ a => { r with dpa := a }
  | .glob va =>
    match Pages.check dest u.n va 127 with
    | .error c => if c.code == 0x21 then { r with bad := some (va, 0) } else { r with fault := some (r.fault.getD c) }
    | .ok pa => { r with dpa := pa, bad := if (s.vault (vaultOfPa pa)).retired then some (r.bad.getD (va, pa)) else r.bad }

def State.readUnits (s : State) (p : Ply) (seq : Nat) (us : List CopyUnit) : List UnitRead :=
  us.map (s.readUnit p seq (s.pages p.tenant .read (globals (us.filterMap (·.src)))) (s.pages p.tenant .write (globals (us.map (·.dst)))))

/-- The byte that units already written left at a place, newest first. -/
def writtenAt (made : List UnitRead) (k : Nat × Nat) : Option Byte :=
  match made with
  | [] => none
  | m :: ms =>
    let d := m.unit.dst.key
    if d.1 == k.1 && decide (d.2 ≤ k.2) && decide (k.2 < d.2 + m.data.length) then m.data[k.2 - d.2]? else writtenAt ms k

/-- Whether some destination of a copy may overlap a source of it: the intervals they span meet. -/
def overlapping (us : List CopyUnit) : Bool :=
  let span (l : List (Nat × Nat)) (sp : Nat) : Nat × Nat :=
    (l.filter (·.1 == sp)).foldl (fun (a, b) k => (min a k.2, max b (k.2 + 16))) (2 ^ 64, 0)
  [0, 1, 2, 3].any fun sp =>
    let d := span (us.map fun u => u.dst.key) sp
    let r := span (us.filterMap fun u => u.src.map Place.key) sp
    decide (d.1 < r.2) && decide (r.1 < d.2)

/-- Where source and destination overlap, each unit takes the source before the copy or what an earlier unit wrote (R232)
(log 50). -/
def State.mixUnits (s : State) (us : List UnitRead) : List UnitRead :=
  (us.foldl (fun (made, n) r =>
    match r.unit.src with
    | some sp =>
      if s.choose (2000000 + n) then
        let d := (r.data.zip (List.range r.data.length)).map fun (b, i) => (writtenAt made (sp.key.1, sp.key.2 + i)).getD b
        ({ r with data := d } :: made, n + 1)
      else (r :: made, n + 1)
    | none => (r :: made, n + 1)) (([] : List UnitRead), 0)).1.reverse

/-- Adjoining global writes of one line join, in order (R224). -/
def coalesce : List (Nat × List Byte) → List (Nat × List Byte)
  | [] => []
  | (a, d) :: l =>
    match coalesce l with
    | (b, e) :: r => if a + d.length == b && lineOf a == lineOf b then (a, d ++ e) :: r else (a, d) :: (b, e) :: r
    | [] => [(a, d)]

/-- The global destinations of other plies' copies that are written and have not retired: each word of them ends with either
value (R232). -/
def State.rivals (s : State) (o : EngineOp) : List (Nat × Nat × Nat) :=
  if o.copies && o.cls != some 2 then
    (s.cores.flatMap fun (_, (c : Core)) =>
      (c.copyq.filter fun q => q.uid != o.uid && q.due.isSome && !q.dropped).flatMap s.copyTargets).filter fun (k, _, _) => k == 3
  else []
/-- The bytes of a global unit that its operation leaves written. -/
def State.keptGlobal (s : State) (o : EngineOp) (rivals : List (Nat × Nat × Nat)) (pa : Nat) (d : List Byte) :
    List (Nat × List Byte) :=
  let lost (k : Nat) : Bool := rivals.any (fun (_, a, n) => (wordsOf a n).contains k) && s.choose (wordKey 4 o.seq k)
  if (wordsOf pa d.length).any lost then
    d.zipIdx.filterMap fun (b, i) => if lost ((pa + i) / 4) then none else some (pa + i, [b])
  else [(pa, d)]

/-- The engine writes units: local ones at once, each credited as it is written (R236), global ones as stores of no ply (R230);
the ptime by which all are performed (log 35). -/
def State.writeUnits (s : State) (o : EngineOp) (core tenant policy : Nat) (scope : List (BitVec 24)) (us : List UnitRead) :
    Nat × State :=
  let s0 := us.foldl (fun s r =>
    match r.unit.dst with
    | .loc sp a =>
      let s := s.engineWrite o core sp a r.data
      match o.leaf with
      | some (k, leaf) => s.creditLeaf k leaf (r.data.length : Int)
      | none => s
    | .glob _ => s) s
  let rivals := s.rivals o
  let gl := us.flatMap fun r => match r.unit.dst with
    | .glob _ => s.keptGlobal o rivals r.dpa r.data
    | .loc _ _ => []
  let s1 := (coalesce gl).foldl (fun s (a, d) => s.arriveN 0 core tenant policy 0 scope a d) s0
  (s1.stores.foldl (fun t q => if s.seq < q.seq then max t q.time else t) s.now, s1)
/-- The global units that an operation has written, each with the ptime at which it is performed (R230), among the stores made
since an issue number. -/
def State.owedFor (s : State) (since : Nat) (us : List UnitRead) : List (Nat × Nat) :=
  us.filterMap fun r =>
    match r.unit.dst with
    | .loc _ _ => none
    | .glob _ =>
      some (s.stores.foldl (fun t q =>
        if since < q.seq && decide (q.pa < r.dpa + r.data.length) && decide (r.dpa < q.pa + q.data.length) then max t q.time
        else t) s.now, r.data.length)

/-- An operation of a core's queue is changed. -/
def State.modCopy (s : State) (core seq : Nat) (f : CopyOp → CopyOp) : State :=
  s.modCore core fun c => { c with copyq := c.copyq.map fun (o : CopyOp) => if o.seq == seq then f o else o }

/-- LCP at the engine: every lane is read, then every lane is written; a lane whose source fails ends (R224, R351). -/
def State.runLcp (s : State) (p : Ply) (o : CopyOp) (n : Nat) (ls : List LaneCopy) (policy : Nat) : State :=
  let rs := ls.map fun l =>
    match l.src with
    | .loc sp a => (l, s.engineRead o.engine p.core sp a n, l.dst.isGlobal && (s.vault (vaultOfPa l.dpa)).retired)
    | .glob _ => (l, s.bytesFor p o.seq 98 l.spa n,
      s.consumesBad p o.seq 98 l.spa n || l.dst.isGlobal && (s.vault (vaultOfPa l.dpa)).retired)
  let good := rs.filter fun r => !r.2.2
  let bad := rs.filter fun r => r.2.2
  let us := good.map fun (l, d, _) => (⟨⟨l.dst, some l.src, [], n⟩, d, l.dpa, none, none, none⟩ : UnitRead)
  let s := s.takeLeases p.tenant p.core policy (ls.filterMap fun l => match l.src with
    | .glob _ => some l.spa
    | .loc _ _ => none)
  let (t, s) := s.writeUnits o.engine p.core p.tenant policy (p.scopesOf (good.map (·.1.lane))) us
  let s := s.modCopy p.core o.seq fun o => { o with due := some t }
  match bad with
  | [] => s
  | (l, _, _) :: _ =>
    let va := match l.src with
      | .glob va => va
      | .loc _ _ => 0
    s.endByFault p.uid (maskOf fun i => bad.any fun b => b.1.lane == i) (memerr (s.foundIn l.spa) 2) o.pc va (s.granule l.spa n)

/-- An operation will retire as failed (R229). -/
def State.noteFailure (s : State) (seq : Nat) (f : Failure) : State :=
  { s with counted := s.counted.map fun (x : Counted) => if x.seq == seq then { x with failure := some f } else x }

/-- A bulk copy at the engine (R226, R229, R237): where it stops, each block is wholly written or untouched, freely, and a
block with a unit that faulted or failed is untouched. -/
def State.runTcopy (s : State) (p : Ply) (o : CopyOp) : State :=
  let us := o.kind.units
  let rs := s.readUnits p o.seq us
  let rs := if overlapping us then s.mixUnits rs else rs
  let stuck := (rs.filter fun r => r.fault.isSome || r.bad.isSome).map fun r => r.unit.dst.block
  let fault := rs.findSome? fun r => r.fault
  let bad := rs.findSome? fun r => r.bad
  let whole := fault.isNone && bad.isNone && !o.cancelled
  let keep (r : UnitRead) : Bool :=
    let b := r.unit.dst.block
    whole || (!stuck.contains b && s.choose (4000000 + 4 * b.2 + b.1))
  let kept := rs.filter keep
  let s := s.fillTlb p.tenant (globals (us.map (·.dst) ++ us.filterMap (·.src)))
  let s := s.takeLeases p.tenant p.core 0 (rs.filterMap (·.spa))
  let since := s.seq
  let (t, s) := s.writeUnits o.engine p.core p.tenant 0 [o.scope] kept
  let owed := if o.kind.credits.isSome then s.owedFor since kept else []
  let s := s.modCopy p.core o.seq fun o =>
    { o with due := some t, unwritten := (rs.filter fun r => !keep r).map (fun r => r.unit.n), owed := owed }
  match bad, fault with
  | some (va, pa), _ =>
    s.endByFault p.uid (BitVec.ofNat 96 (2 ^ o.lane)) (memerr (s.foundIn pa) 2) o.pc va (s.granule pa 16)
  | none, some c => if o.cancelled then s else s.noteFailure o.seq ⟨1, BitVec.ofNat 16 c.code, c.addr⟩
  | none, none => s

/-- The global units of an operation that are performed now are credited to its leaf (R230, R236). -/
def State.payOwed (s : State) (core : Nat) (o : CopyOp) : State :=
  match o.kind.credits with
  | none => s
  | some (k, leaf) =>
    let s := s.modCopy core o.seq fun o => { o with owed := o.owed.filter fun w => decide (s.now < w.1) }
    (o.owed.filter fun w => decide (w.1 ≤ s.now)).foldl (fun (s : State) w => s.creditLeaf k leaf (w.2 : Int)) s
/-- Whether an operation that has made its writes has something to do now: a unit to credit, or to be complete. -/
def State.copyDue (s : State) (o : CopyOp) (t : Nat) : Bool :=
  o.owed.any (fun w => decide (w.1 ≤ s.now)) ||
    (decide (t ≤ s.now) && s.counted.any fun (c : Counted) => c.seq == o.seq && !c.complete)

/-- The copy engine takes an operation, in any order that R232 allows: a bulk copy it first begins (R237), then performs;
units that it left are credited when it retires (R229). When ptime has reached the completion times of its writes it is
complete. -/
def State.runCopy (s : State) (core seq : Nat) : State :=
  match (s.core core).copyq.find? fun (o : CopyOp) => o.seq == seq with
  | none => s
  | some o =>
    match s.anyPly o.uid with
    | none => s.complete seq
    | some p =>
      match o.due with
      | some t =>
        if s.copyDue o t then
          let s' := s.payOwed core o
          if t ≤ s.now then s'.complete seq else s'
        else s
      | none =>
        if s.copyHeld core o || !s.engineReady p seq true then s
        else
          match o.kind with
          | .lcp n ls c => s.runLcp p o n ls c
          | _ => if o.begun then s.runTcopy p o else s.modCopy core seq fun o => { o with begun := true }

/-- COPY_ENGINE_OPERATION (R219, R226). -/
def execCopyEngineOperation (core seq : Nat) (s : State) : Outcome := (s.runCopy core seq).ok

/-! ## LCP (R224) -/

/-- One end of a lane's copy: checked as a load or as an engine's store. -/
def State.copyEnd (s : State) (base : DWord) (off : Word) (dest : Bool) (n lane : Nat) : Except Cause (Place × Nat) :=
  let addr := base + off.signExtend 64
  if isLocal base then
    match local64 addr with
    | none => .error (localRange 2 addr lane)
    | some (sp, o) =>
      if !dest && sp != .xbuf then .error (localRange 3 addr lane)
      else if o % n != 0 then .error (align addr lane)
      else if s.ply.spaceLimit sp < o + n then .error (localRange 0 addr lane)
      else .ok (.loc sp (s.ply.absolute sp o), s.ply.absolute sp o)
  else
    match s.checkGlobal s.ply.tenant (if dest then .write else .read) n addr lane with
    | .error c => .error c
    | .ok pa => .ok (.glob addr, pa)

/-- One lane of an LCP: the source is checked before the destination. -/
def State.copyLane (s : State) (dst src : DWord) (i : BitVec 7) (n lane : Nat) : Except Cause LaneCopy :=
  match s.copyEnd src ((s.V (i + 1)).at lane) false n lane with
  | .error c => .error c
  | .ok (sp, spa) =>
    match s.copyEnd dst ((s.V i).at lane) true n lane with
    | .error c => .error c
    | .ok (dp, dpa) => .ok ⟨lane, dp, sp, dpa, spa⟩

/-- A copy operation enters its core's queue. -/
def State.queueCopy (s : State) (cls lane : Nat) (scope : BitVec 24) (scopes : List (BitVec 24)) (k : CopyKind) : State :=
  let (n, s) := s.countOp cls scopes
  let o : CopyOp := ⟨n, s.ply.uid, s.issue.first, s.ply.tenant, lane, scope, k, false, false, none, [], []⟩
  s.modCore s.ply.core fun c => { c with copyq := c.copyq ++ [o] }

/-- LCP (R224). -/
def execLcp (d r : BitVec 6) (i : BitVec 7) (z : BitVec 2) (s : State) : Outcome :=
  (s.checkRun i 2 <|
    let n := 4 * 2 ^ z.toNat
    let rs := s.storeLanes.map (s.copyLane (s.S64 d) (s.S64 r) i n)
    let bad := rs.filterMap fun r => match r with
      | .error c => some c
      | .ok _ => none
    match bad with
    | c :: _ => s.raise c (bad.filter Cause.isPage)
    | [] =>
      let ls := rs.filterMap fun r => match r with
        | .ok l => some l
        | .error _ => none
      if ls.isEmpty then s.done
      else
        let s := s.fillTlb s.ply.tenant (globals (ls.flatMap fun l => [l.src, l.dst]))
        (s.queueCopy 0 127 0 (s.ply.scopesOf (ls.map (·.lane))) (.lcp n ls s.policy)).done).ok

/-! ## TCOPY and TCOPYX (R225 to R227) -/

/-- A record that a copy reads, with its extents and strides in effect and its unit. -/
structure ShapeUse where
  shape  : Shape
  ext    : List Nat
  stride : List Int
  unit   : Nat
  deriving DecidableEq, Repr

/-- The walk of a record of the issuing ply (R173). -/
def Ply.walkOf (p : Ply) (r : ShapeUse) : Walk :=
  let sp := if r.shape.loc then spaceOf (bits r.shape.addr 31 30) else none
  { loc := sp
    origin := match sp with
      | some x => p.absolute x 0
      | none => 0
    base := BitVec.ofNat 64 (if r.shape.loc then bits r.shape.addr 29 0 else r.shape.addr)
    ext := r.ext
    stride := r.stride }

/-- The destination of a copy: counters 0 and 1 of a blocked layout replace the record's (R226). -/
def Shape.asDestination (r : Shape) : ShapeUse :=
  let u := unitSize r.fmt
  let rows := if r.blk == 1 then 96 else 64
  if r.blk == 1 || r.blk == 2 then ⟨r, (512 / u) :: rows :: r.ext.drop 2, (u : Int) :: 512 :: r.stride.drop 2, u⟩
  else ⟨r, r.ext, r.stride, u⟩

/-- Order 2 for one record. -/
def ShapeUse.malformed (r : ShapeUse) : Bool :=
  r.ext.any (· == 0) || r.shape.ctl.toNat % 2 ^ 10 != 0 || r.shape.byte61 != 0 ||
    (r.shape.loc && bits r.shape.addr 59 32 != 0)
/-- Order 4 for one record. -/
def ShapeUse.misaligned (r : ShapeUse) : Bool :=
  r.shape.addr % r.unit != 0 || (r.ext.zip r.stride).any fun (e, d) => decide (1 < e) && d % (r.unit : Int) != 0

/-- The offsets, at or beyond the end of its space or window, of the bytes of a local walk's units. -/
def Ply.beyond (p : Ply) (w : Walk) (n : Nat) (ts : List (List Nat)) : List Nat :=
  match w.loc with
  | none => []
  | some sp =>
    ts.filterMap fun t =>
      let o := w.offset t
      if p.spaceLimit sp < o + n then some (max o (p.spaceLimit sp)) else none

/-- What a bulk copy does, as checked at issue in the order of R225 (log 47). -/
def State.tcopyCheck (s : State) (g : BitVec 6) (x : Bool) : Except Cause CopyKind :=
  let p := s.ply
  let hs := s.S g
  let hd := s.S (g + 1)
  let soff := (s.S (g + 2)).toNat
  let bar := (s.S (g + 3)).toNat
  let shape (h : Word) : Cause := cause 0x0D 0 (h.zeroExtend 64)
  match s.shapeOf p.tenant hs, s.shapeOf p.tenant hd with
  | none, _ => .error (shape hs)
  | _, none => .error (shape hd)
  | some a, some b =>
    let scl := x && b.scl
    let sc := if scl && a.scale != 0 then s.shapeOf p.tenant a.scale else none
    if scl && a.scale != 0 && sc.isNone then .error (shape a.scale)
    else
      let src : ShapeUse := ⟨a, a.ext, a.stride, unitSize a.fmt⟩
      let dst := b.asDestination
      let scs : List ShapeUse := (sc.toList).map fun r => ⟨r, r.ext.take 2, r.stride.take 2, 2⟩
      let plain (r : Shape) : Bool := !r.tr && r.blk == 0 && !r.scl
      let rows := if b.blk == 1 then 96 else 64
      if a.fmt != b.fmt || (src :: dst :: scs).any ShapeUse.malformed || b.blk == 3 || !plain a || (!x && !plain b) ||
          scs.any (fun r => !plain r.shape) || (scl && (b.blk == 0 || sc.map Shape.fmt != some 13)) then .error (engine 8)
      else
        let space (r : Shape) : Nat := if r.loc then bits r.addr 31 30 else 0
        match (src :: dst :: scs).find? fun r => space r.shape == 3 with
        | some r => .error (localRange 2 r.shape.offset)
        | none =>
          match (src :: scs).find? fun r => space r.shape != 0 with
          | some r => .error (localRange 3 r.shape.offset)
          | none =>
            match (src :: dst :: scs).find? ShapeUse.misaligned with
            | some r => .error (align (BitVec.ofNat 64 r.shape.addr))
            | none =>
              if scl && soff % 16 != 0 then .error (align (BitVec.ofNat 64 soff))
              else
                let ws := p.walkOf src
                let wd := p.walkOf dst
                let td := tuples dst.ext
                let far := p.beyond wd dst.unit td ++ p.beyond ws src.unit (tuples src.ext) ++ scs.flatMap fun r =>
                  p.beyond (p.walkOf r) 2 ((tuples [8, rows]).filter fun t => within t r.ext)
                match far with
                | o :: os => .error (localRange 0 (BitVec.ofNat 64 (os.foldl min o)))
                | [] =>
                  if scl && decide (131072 < soff + 16 * rows) then .error (localRange 0 (BitVec.ofNat 64 soff))
                  else if bits bar 31 31 == 1 && (bits bar 30 15 != 0 || clusterOf (bits bar 14 5) != clusterOf p.core) then
                    .error (engine 11)
                  else .ok (.tcopy dst.unit ws wd b.tr (a.padUnit src.unit)
                    (scs.head?.map fun r => (p.walkOf r, r.shape.padUnit 2, soff, rows))
                    (if bits bar 31 31 == 1 then some (bits bar 14 5, bits bar 4 0) else none))

/-- TCOPY and TCOPYX at issue (R225): suppressed where no lane counts, owned by the lowest counted lane. -/
def State.tcopyIssue (s : State) (g : BitVec 6) (x : Bool) : State :=
  match s.storeLanes with
  | [] => s.done
  | l :: _ =>
    match s.tcopyCheck g x with
    | .error c => s.raise c
    | .ok k =>
      let scope := ((s.ply.lanes[l]?).getD LaneInfo.empty).scope
      (s.queueCopy 1 l scope [scope] k).done

/-- TCOPY (R225). -/
def execTcopy (g : BitVec 6) (s : State) : Outcome := (s.tcopyIssue g false).ok
/-- TCOPYX (R225, R227). -/
def execTcopyx (g : BitVec 6) (s : State) : Outcome := (s.tcopyIssue g true).ok

end Sys2Proof.Machine
end

