-- ==== Sys2Proof/Machine/Heat.lean ====
section
/-!
DEFINITION. Sensors, refresh steps, charges and rotation (spec/16 R342 to R346), the clock steps and quiesce points of
clusters (spec/15 R319 to R322), vault-cache flushes (spec/16 R328, R329) and uncorrectable errors (spec/15 R323, spec/16
R351).
-/
namespace Sys2Proof.Machine

/-! ## Clock steps (R319, R322, R343, R409) -/

/-- The step a cluster should run at: its ccr.step as slack control has moved it, at least 3 above a vault at step 3. -/
def State.wantedStep (s : State) (cluster : Nat) : BitVec 3 :=
  let c := s.cluster cluster
  let base := min 4 (c.step.toNat + c.slackStep)
  let hot := (coresOf cluster).any fun k => (s.vault (vaultOf k)).rstep == 3
  BitVec.ofNat 3 (if hot then max base 3 else base)

/-- The step and the regulator of a cluster once its waiting change is made. -/
def Cluster.nextStep (c : Cluster) : BitVec 3 := c.pending.getD c.running
def Cluster.nextReg (c : Cluster) : BitVec 2 := c.pendingReg.getD c.regulator
/-- The fastest step of the voltage domain of a regulator, now or once the waiting changes are made: its voltage is the one that this
step needs (R319); 5 where it has no cluster. -/
def State.domainStep (s : State) (reg : BitVec 2) (next : Bool) : Nat :=
  (List.range 64).foldl (fun m k =>
    let c := s.cluster k
    if (if next then c.nextReg else c.regulator) == reg then min m (if next then c.nextStep else c.running).toNat else m) 5
/-- Where the voltage of a domain is to change, it changes for every cluster on its regulator, now or next, at a quiesce point
(R319, R320). -/
def State.requestVoltage (s : State) : State :=
  let moving := [(0 : BitVec 2), 1, 2, 3].filter fun r => s.domainStep r false != s.domainStep r true
  let hit := (List.range 64).filter fun k =>
    let c := s.cluster k
    !c.volt && (moving.contains c.regulator || moving.contains c.nextReg)
  hit.foldl (fun s k => s.modCluster k fun c => { c with volt := true }) s
/-- The step requested of a cluster takes effect at its next quiesce point (R322). -/
def State.requestStep (s : State) (cluster : Nat) : State :=
  let w := s.wantedStep cluster
  (s.modCluster cluster fun c => { c with pending := if w == c.running then none else some w }).requestVoltage

/-- Whether a copy or fabric operation of a cluster's cores is in flight (R320). -/
def State.inFlight (s : State) (cluster : Nat) : Bool :=
  (coresOf cluster).any fun k =>
    (s.core k).copyq.any (fun o => s.counted.any fun c => c.seq == o.seq && !c.complete) ||
      s.fabric.any fun o => o.core == k && s.counted.any fun c => c.seq == o.seq && !c.complete
/-- Whether a change of step, regulator or voltage waits for a cluster's quiesce point (R320). -/
def Cluster.changing (c : Cluster) : Bool := c.pending.isSome || c.pendingReg.isSome || c.volt
/-- Whether a cluster accepts no copy or fabric operation: a change waits for its quiesce point (R320). -/
def State.held' (s : State) (cluster : Nat) : Bool := (s.cluster cluster).changing
/-- The clusters that change together with one: those of its voltage domains, where a voltage changes. -/
def State.changeGroup (s : State) (cluster : Nat) : List Nat :=
  let c := s.cluster cluster
  if c.volt then
    (List.range 64).filter fun k =>
      let d := s.cluster k
      d.volt && ([d.regulator, d.nextReg].any fun r => r == c.regulator || r == c.nextReg)
  else [cluster]

/-- QUIESCE_POINT (R320): the step, the regulator and the voltage change. -/
def execQuiescePoint (cluster : Nat) (s : State) : Outcome :=
  (let group := s.changeGroup cluster
  if group.any s.inFlight then s
  else group.foldl (fun s k => s.modCluster k fun c =>
    { c with running := c.nextStep, pending := none, regulator := c.nextReg, pendingReg := none, volt := false }) s).ok

/-! ## Readings (R342, R343, R346) -/

/-- The refresh step after a reading (R343). -/
def stepAfter (step : Nat) (t : Int) : Nat :=
  let u := ([1, 2, 3].filter fun k => decide (theta k ≤ t)).length
  if step < u then u
  else (List.range step).foldl (fun st _ => if 0 < st && decide (t < theta st - 32) then st - 1 else st) step

/-- Clock marks the batch plies below a hot vault for pre-emption, oldest first, until its admitted charge without them is at
or below its limit (R346). -/
def State.rotate (s : State) (vault : Nat) : State :=
  let here := s.all.filter fun p => p.core < 512 && vaultOf p.core == vault && !p.management
  let batch := sortBy (fun a b => decide (a.age < b.age)) (here.filter fun p => p.cls == 2 && p.gangsize == 1 && p.marked.isNone)
  let left := (here.filter fun p => p.marked.isNone).foldl (fun n p => n + p.charge) 0
  let limit := (s.vault vault).limit
  (batch.foldl (fun ((s : State), n) p =>
    if limit < n then (s.modPly p.uid fun p => { p with marked := some 0 }, n - p.charge) else (s, n)) (s, left)).1

/-- A reading (R342, R343): the forced one where %vaulttest asks for it. -/
def State.readSensor (s : State) (vault : Nat) (temp : BitVec 16) : State :=
  let v := s.vault vault
  let t := if v.testEn then v.testTemp else temp
  let step := stepAfter v.rstep.toNat t.toInt
  let s := s.setVault vault { v with readings := s.now / 32000, sensor := temp, vtemp := t, rstep := BitVec.ofNat 2 step }
  let s := (s.requestStep (clusterOf (lowerCore vault))).requestStep (clusterOf (upperCore vault))
  if v.rstep.toNat < step && 2 ≤ step then s.rotate vault else s
/-- SENSOR_READING (R342): one reading for each multiple of 32,000 ns that ptime has reached. -/
def execSensorReading (vault : Nat) (temp : BitVec 16) (s : State) : Outcome :=
  (if (s.vault vault).readings < s.now / 32000 then s.readSensor vault temp else s).ok

/-! ## Charges (R344, R345) -/

/-- The charge of a placement on a core whose plies have an admitted charge (R345). -/
def Vault.chargeFor (v : Vault) (coreCharge dsum heat : Nat) : Nat :=
  let margin : Int := match heat with
    | 0 => 0
    | 1 => 32
    | 2 => 64
    | _ => 128
  let inc := vabOf v.rstep.toNat - vabOf (v.rstep.toNat + 1)
  if v.allowance coreCharge < margin then dsum + inc else dsum
/-- Whether a vault with an admitted charge admits a placement. -/
def Vault.admits (v : Vault) (admitted charge : Nat) : Bool :=
  (charge == 0) || (admitted == 0) || decide (admitted + charge ≤ v.limit)
/-- Demand and heat class over the tasks of a ply that are left (R345, R368). -/
def Ply.placed (p : Ply) : Nat × Nat :=
  p.occ.lanes.foldl (fun (d, h) i =>
    let x := (p.lanes[i]?).getD LaneInfo.empty
    (d + x.demand, max h x.heat)) (p.demand, p.heat)
/-- The charge of a placement of tasks on a core, if its vault admits it. -/
def State.charge (s : State) (core dsum heat : Nat) : Option Nat :=
  let v := s.vault (vaultOf core)
  let c := v.chargeFor (s.coreCharge core) dsum heat
  if v.admits (s.vaultCharge (vaultOf core)) c then some c else none

/-! ## Vault-cache flush (R328, R329) -/

/-- VAULT_CACHE_FLUSH: every dirty line is written to DRAM and charged to the tenant whose store turned it. -/
def execVaultCacheFlush (vault : Nat) (s : State) : Outcome :=
  (s.modVault vault fun v =>
    let dirty := v.cache.filter (·.dirty)
    dirty.foldl (fun v c => v.count c.owner 0 0 1)
      { v with cache := v.cache.map fun c => { c with dirty := false } }).ok

/-! ## Uncorrectable errors (R323, R351) -/

/-- Scopes fault with one cause; the tenant root only reports (R257, R262). -/
def State.faultScopes (s : State) (tenant : Nat) (scopes : List (BitVec 24)) (w : Word) : State :=
  scopes.eraseDups.foldl (fun s c => s.faultScope tenant c w) s

/-- A lane of a leaf leaves its enrolled set. -/
def LaneInfo.leave (x : LaneInfo) (core leaf : Nat) : LaneInfo :=
  match x.leaf with
  | some (c, l) => if c == core && l == leaf then { x with leaf := none } else x
  | none => x

/-- A leaf resets as under a departure of all its tasks (R323). -/
def State.dropLeaf (s : State) (core leaf : Nat) : State :=
  let f (p : Ply) : Ply := { p with lanes := Vector.ofFn fun (i : Fin 96) => (p.lanes[i]).leave core leaf }
  let s := { s with
    ply := f s.ply
    plies := s.plies.map f
    saved := s.saved.map fun (v : Saved) => { v with ply := f v.ply } }
  (s.setLeaf core leaf { s.leaf core leaf with expected := 0 }).beginReset core leaf

/-- An error strikes (R323, R351, R352): an uncorrectable one with its effects, a single-bit one corrected and logged in its unit's
counter. One in a core's L1, pool or local buffers only counts (R389) (log 103). -/
def State.strike (s : State) (site : ErrorSite) : State :=
  match site with
  | .dram pa =>
    let g := pa / 8 * 8
    if s.failing.contains g then s
    else (State.modVault { s with failing := g :: s.failing } (vaultOfPa pa) fun v => { v with failGranules := v.failGranules + 1 })
  | .vaultCache pa =>
    let g := pa / 8 * 8
    let s := s.modVault (vaultOfPa pa) fun v => { v with homeErrors := v.homeErrors + 1 }
    if s.failing.contains g then s
    else (State.modVault { s with failing := g :: s.failing } (vaultOfPa pa) fun v => { v with failGranules := v.failGranules + 1 })
  | .l2Line cluster line =>
    { s with l2Leases := s.l2Leases.filter fun e => !(e.unit == cluster && e.line == line) }
  | .l2Pending store =>
    match s.stores.find? fun (p : PendingStore) => p.seq == store with
    | none => s
    | some p =>
      let s := { s with stores := s.stores.filter fun (q : PendingStore) => q.seq != store }
      let s := s.modCluster p.cluster fun c => { c with errors := c.errors + 1 }
      let s := s.faultScopes p.tenant p.scopes (memerr 2 6)
      s.faultRecord p.tenant ⟨memerr 2 6, p.scopes.headD 0, 0xFFFFFFFF, p.core, 0, 0, p.pa / 8 * 8, 0⟩
  | .root cluster number =>
    let linked := (coresOf cluster).flatMap fun k =>
      ((s.core k).leaves.filter fun (_, l) => l.root == some number).map fun (n, _) => (k, n)
    let s := linked.foldl (fun s (k, n) => s.dropLeaf k n) s
    s.modCluster cluster fun c => { c with errors := c.errors + 1 }
  | .fifo tower pair up =>
    let v := tower * 64 + pair
    let f := s.fifo v
    let spoil (l : List (Lanes × Bool)) : List (Lanes × Bool) := match l with
      | [] => []
      | (x, _) :: r => (x, true) :: r
    s.setFifo v (if up then { f with up := spoil f.up, errors := f.errors + 1 }
      else { f with down := spoil f.down, errors := f.errors + 1 })
  | .faddd vault element =>
    match (s.vault vault).elements[element]? with
    | none => s
    | some f => s.modVault vault fun v =>
        { v with elements := v.elements.set element { f with failed := true }, homeErrors := v.homeErrors + 1 }
  | .task index =>
    match s.transit[index]? with
    | none => s
    | some t =>
      let s := { s with transit := s.transit.eraseIdx index }
      let s := (s.faultScope t.task.tenant t.task.scope (memerr 5 7)).discardTask t.task
      s.faultRecord t.task.tenant ⟨memerr 5 7, t.task.scope, 0xFFFFFFFF, t.core, t.task.entry, 0, 0, 0⟩
  | .piece index =>
    match s.pieces[index]? with
    | none => s
    | some p =>
      let s := { s with pieces := s.pieces.eraseIdx index }
      let s := s.faultScope p.tenant p.scope (memerr 5 7)
      s.faultRecord p.tenant ⟨memerr 5 7, p.scope, 0xFFFFFFFF, p.owner, 0, 0, 0, 0⟩
  | .core core => s.modCore core fun c => { c with errors := c.errors + 1 }
  | .singleDram vault => s.modVault vault fun v => { v with corrected := v.corrected + 1 }
  | .singleHome vault => s.modVault vault fun v => { v with homeCorrected := v.homeCorrected + 1 }
  | .singleFifo tower pair =>
    let v := tower * 64 + pair
    s.setFifo v { s.fifo v with corrected := (s.fifo v).corrected + 1 }
  | .singleL2 cluster => s.modCluster cluster fun c => { c with corrected := c.corrected + 1 }

/-- UNCORRECTABLE_ERROR (R323, R351) (log 82). -/
def execUncorrectableError (site : ErrorSite) (s : State) : Outcome := (s.strike site).ok

end Sys2Proof.Machine
end

