-- ==== Sys2Proof/Machine/Formation.lean ====
section
/-!
DEFINITION. The task store of a core and the formation of plies from its bins: entry headers, bins, resources, ply start
(spec/11 R239 to R247, R253, R254, spec/04 R108, R109, spec/12 R284, R285).
-/
namespace Sys2Proof.Machine

/-! ## Records and headers (R239, R240, R241) -/

/-- A task record. -/
def Task.record (t : Task) : List Byte :=
  dwordBytes t.entry ++ t.args.toList.flatMap wordBytes ++ leBytes 4 t.scope.toNat ++ leBytes 2 t.demand.toNat ++
    [t.heat.zeroExtend 8, 0]

/-- An entry address: [63:60] and [5:0] zero. -/
def isEntry (x : DWord) : Bool := x.toNat / 2 ^ 60 == 0 && x.toNat % 64 == 0

/-- The checks of an entry address, %elane 127 (R253, R273). -/
def State.checkEntry (s : State) (entry : DWord) (k : State) : State :=
  if entry.toNat / 2 ^ 60 != 0 then s.raise (noncanon entry)
  else if entry.toNat % 64 != 0 then s.raise (align entry)
  else k

/-- The header in 64 bytes, if every field is in its range. -/
def Header.parse (b : List Byte) : Option Header :=
  let regs := num b 0 1
  let tiles := num b 1 1
  let flags := num b 2 1
  let y := num b 3 1
  let x := num b 4 4
  if regs < 8 || 120 < regs || regs % 8 != 0 || 8 < tiles || 3 < flags || y == 0 || 2097152 < x ||
      (b.drop 8).any (· != 0) then none
  else some ⟨regs, tiles, bits flags 0 0 == 1, bits flags 1 1 == 1, y, x⟩

/-- The header as stored, or the cause of a formation fault. -/
def State.storedHeader (s : State) (core tenant : Nat) (entry : DWord) : Except Word Header :=
  match s.readVirt core tenant (entry - 64) 64 with
  | .error c => .error c.word
  | .ok b =>
    match Header.parse b with
    | none => .error (engine 15).word
    | some h => .ok h

/-- The header that a formation uses: the held one, or freely the stored one (R241). -/
def State.headerFor (s : State) (core tenant : Nat) (entry : DWord) : Except Word Header :=
  match s.headers.find? fun (c, e, _) => c == core && e == entry with
  | none => s.storedHeader core tenant entry
  | some (_, _, h) => if s.choose 101 then s.storedHeader core tenant entry else .ok h
/-- The core keeps a header. -/
def State.keepHeader (s : State) (core : Nat) (entry : DWord) (h : Header) : State :=
  { s with headers := (core, entry, h) :: s.headers.filter fun (c, e, _) => !(c == core && e == entry) }

/-! ## Resources (R244, R245) -/

/-- Free pool registers of a core: 2,048 less those of its resident plies. -/
def State.freeRegs (s : State) (core : Nat) : Nat :=
  2048 - (s.onCore core).foldl (fun n p => n + p.vcount + 64 * p.actiles) 0

/-- Resident plies of a pipe. -/
def State.pipeLoad (s : State) (core pipe : Nat) : Nat := ((s.onCore core).filter fun p => p.pipe == pipe).length
/-- The pipe of a new ply: the fewest resident plies, the lowest number on a tie; none where all four hold four. -/
def State.pipeFor (s : State) (core : Nat) : Option Nat :=
  let best := (List.range 4).foldl (fun b k => if s.pipeLoad core k < s.pipeLoad core b then k else b) 0
  if s.pipeLoad core best < 4 then some best else none
/-- Free resident slots of a core. -/
def State.freeSlots (s : State) (core : Nat) : Nat := 16 - (s.onCore core).length

/-- The base of a free XBUF window of a size: the lowest that fits (log 16). -/
def Core.windowFor (c : Core) (size : Nat) : Option Nat :=
  if size == 0 then some 0
  else
    let ok (b : Nat) : Bool :=
      decide (b + size ≤ 0x200000) && c.windows.all fun w => decide (b + size ≤ w.base) || decide (w.base + w.size ≤ b)
    ((0 :: c.windows.map fun w => w.base + w.size).filter ok).foldl (fun (r : Option Nat) b => some (min b (r.getD b))) none

/-- A window is assigned and reads 0 (R173, R211). -/
def Core.assignWindow (c : Core) (gang base size : Nat) : Core :=
  if size == 0 then c
  else
    { c with
      windows := c.windows ++ [⟨gang, base, size⟩]
      xgen := c.xgen + 1
      xbuf := c.xbuf.filter fun (a, _) => !(decide (base ≤ a) && decide (a < base + size))
      unseen := c.unseen.filter fun w => !(w.space == .xbuf && decide (base ≤ 4 * w.word) && decide (4 * w.word < base + size)) }

/-- Whether a path of a core waits in CLAIM: no ply forms meanwhile (R244). -/
def State.claimWaits (s : State) (core : Nat) : Bool :=
  (s.onCore core).any fun p => match p.cur.wait with
    | .claim _ _ _ => true
    | _ => false

/-- Whether a core takes new placements (R389, R373): it belongs to a partition and is neither retired nor retiring, nor is
its cluster or its vault. -/
def State.open' (s : State) (core : Nat) : Bool :=
  let c := s.core core
  let k := s.cluster (clusterOf core)
  let v := s.vault (vaultOf core)
  (s.partOf core).isSome && !c.retired && !c.retiring && !k.retired && !k.retiring && !v.retired && !v.retiring

/-- Whether the die of a core is powered and not being gated (R350). -/
def State.powered (s : State) (core : Nat) : Bool := s.die (dieOf core) = .powered
/-- Whether the die of a core is gated. -/
def State.isGated (s : State) (core : Nat) : Bool := s.die (dieOf core) = .gated

/-! ## Ply start (R108, R109) -/

/-- One lane of a new ply: its arguments, its v4, its record, whether it is occupied. -/
structure LaneStart where
  lane     : Nat
  args     : Vector Word 4
  scope    : BitVec 24
  occupied : Bool
  info     : LaneInfo
  deriving DecidableEq, Repr

/-- What a formation fixes for one ply. -/
structure Start where
  core     : Nat
  pipe     : Nat
  tenant   : Nat
  plyid    : BitVec 25
  entry    : DWord
  header   : Header
  gang     : Option Nat
  gangsize : Nat
  role     : Nat
  cls      : Nat
  deadline : DWord
  charge   : Nat
  /-- Demand and heat class of a launched ply. -/
  demand   : Nat
  heat     : Nat
  paint    : Bool
  lanes    : List LaneStart
  firing   : Option Nat
  group    : Option (Nat × Nat)
  fixedCore : Bool
  /-- s2:s3, or none for the address of the ply's own task-record block. -/
  pointer  : Option DWord
  base     : Nat
  deriving DecidableEq, Repr

/-- The registers that a ply starts with. -/
def Start.vregs (t : Start) : List Lanes :=
  let at' (f : LaneStart → Word) : Lanes := Lanes.gen fun i =>
    match t.lanes.find? fun l => l.lane == i with
    | some l => f l
    | none => 0
  (List.range t.header.regs).map fun k =>
    if k < 4 then at' fun l => (l.args[k]?).getD 0
    else if k == 4 then at' fun l => if l.occupied then l.scope.zeroExtend 32 else 0
    else Lanes.zero

/-- The ply of a formation (R108). -/
def Start.ply (t : Start) (s : State) (uid : Nat) (ssave : DWord) : Ply :=
  let occ := maskOf fun i => t.lanes.any fun l => l.lane == i && l.occupied
  let p := t.pointer.getD (ssave + 0x2800)
  let low := (t.lanes.find? (·.occupied)).map (·.scope)
  { Ply.vacant with
    uid := uid
    core := t.core
    pipe := t.pipe
    age := uid
    plyid := t.plyid
    tenant := t.tenant
    role := BitVec.ofNat 16 t.role
    gangsize := BitVec.ofNat 5 t.gangsize
    gang := t.gang.getD uid
    header := t.header
    entry := t.entry
    paint := t.paint
    cls := t.cls
    deadline := t.deadline
    charge := t.charge
    demand := t.demand
    heat := t.heat
    firing := t.firing
    group := t.group
    fixedCore := t.fixedCore
    sregs := Vector.ofFn fun (i : Fin 64) =>
      if i.val == 2 then loWord p else if i.val == 3 then hiWord p
      else if 56 ≤ i.val && i.val ≤ 58 then Mask.word occ (i.val - 56) else 0
    vregs := t.vregs
    tiles := List.replicate t.header.tiles (List.replicate 64 Lanes.zero)
    path0 := { Path.free with pc := t.entry, member := Mask.full, active := Mask.full, since := s.now }
    occ := occ
    ydl := BitVec.ofNat 8 t.header.yield
    scope := low.getD 0
    tvec := (s.tenant t.tenant).trapVec
    ssave := ssave
    lanes := Vector.ofFn fun (i : Fin 96) =>
      match t.lanes.find? fun l => l.lane == i.val && l.occupied with
      | some l => l.info
      | none => LaneInfo.empty
    windowBase := t.base
    windowSize := t.header.xbuf }

/-- The bytes of a save area that R249 does not name, which are zero: offset and length. -/
def unnamedBytes (window : Nat) : List (Nat × Nat) :=
  [(0x280, 0x80), (0x380, 0x80), (0x21D0, 0x30), (0x3400, 0xC00), (0x3F400, 0xC00), (0x40000 + window, (4096 - window % 4096) % 4096)]

/-- A ply forms: it takes the next save area (R249, log 11), and a task-record block is written for it where it has one. -/
def State.formPly (s : State) (t : Start) (block : Option (List Byte)) : Nat × State :=
  let (uid, s) := s.fresh
  let ssave := s.saveAreas.headD 0
  let p := t.ply s uid ssave
  let s := { s with plies := s.plies ++ [p], saveAreas := s.saveAreas.drop 1 }
  let s := (unnamedBytes t.header.xbuf).foldl (fun s (o, n) => s.writeVirt 0 t.core t.tenant (ssave + BitVec.ofNat 64 o) (zeros n)) s
  match block with
  | none => (uid, s)
  | some b => (uid, s.writeVirt 0 t.core t.tenant (ssave + 0x2800) b)

/-! ## Bins (R242, R243) -/

/-- Tasks that a core's bins hold. -/
def Core.stored (c : Core) : Nat := c.bins.foldl (fun n b => n + b.tasks.length) 0
/-- The lowest free bin number. -/
def Core.freeBin (c : Core) : Option Nat := (List.range 64).find? fun n => !c.bins.any fun b => b.number == n

/-- Tasks of one entry join those of a bin, which keeps the order of their arrival at the core (R242). -/
def joinBin (l ts : List Task) : List Task :=
  let at' := (ts.head?.map (·.arrival)).getD 0
  (l.filter fun t => decide (t.arrival ≤ at')) ++ ts ++ l.filter fun t => decide (at' < t.arrival)

/-- A task, or the tasks and helper lanes of a unit of four, enter their bin together, or open one; none where there is no room
for all of them (R242, R284). -/
def Core.binUnit (c : Core) (ts : List Task) : Option Core :=
  match ts with
  | [] => some c
  | t :: _ =>
    if 8192 < c.stored + ts.length then none
    else if c.bins.any fun b => b.entry == t.entry && b.tenant == t.tenant then
      some { c with bins := c.bins.map fun b =>
        if b.entry == t.entry && b.tenant == t.tenant then { b with tasks := joinBin b.tasks ts } else b }
    else c.freeBin.map fun n => { c with bins := c.bins ++ [⟨n, t.tenant, t.entry, false, ts⟩] }

/-- A task is discarded with its scope faulted (R242). -/
def State.refuseTask (s : State) (core : Nat) (t : Task) : State :=
  (s.discardTask t).faultWork t.tenant t.scope (engine 16).word core t.entry

/-- Tasks are appended to the overflow list in the tenant's memory, as records one after another (R242) (log 57). -/
def State.overflowUnit (s : State) (core : Nat) (ts : List Task) : State :=
  let c := s.core core
  let at' := c.taskBase + BitVec.ofNat 64 (32 * c.overflow.length)
  (s.setCore core { c with overflow := c.overflow ++ ts }).writeVirt 0 core ((ts.head?.map (·.tenant)).getD 0) at'
    (ts.flatMap Task.record)

/-- The tasks and helper lanes of a unit are placed in a core's task store, or in its overflow list, or discarded where both are
full (R242, R284). -/
def State.storeUnit (s : State) (core : Nat) (ts : List Task) : State :=
  let ts := ts.map fun t => { t with arrival := s.now }
  let c := s.core core
  match c.binUnit ts with
  | some d => s.setCore core d
  | none =>
    if c.overflow.length + ts.length ≤ c.taskCap.toNat then s.overflowUnit core ts
    else (ts.filter fun t => !t.helper).foldl (fun s t => s.refuseTask core t) s
/-- A task is placed in a core's task store (R242) (log 57). -/
def State.storeTask (s : State) (core : Nat) (t : Task) : State := s.storeUnit core [t]

/-- The unit at the head of a list of tasks: one task, or the four of a quad (R284). -/
def unitHead (l : List Task) : List Task :=
  match l with
  | [] => []
  | t :: _ => if t.quad.isNone then [t] else l.takeWhile fun u => u.quad == t.quad

/-- Tasks move from the overflow list back into the bins in the order they arrived (R242). -/
def Core.refill (c : Core) : Nat → Core
  | 0 => c
  | n + 1 =>
    let u := unitHead c.overflow
    if u.isEmpty then c
    else
      match c.binUnit u with
      | some d => Core.refill { d with overflow := c.overflow.drop u.length } n
      | none => c

/-- Empty bins close, and the overflow list refills the store. -/
def State.tidyBins (s : State) (core : Nat) : State :=
  s.modCore core fun c =>
    let c := { c with bins := c.bins.filter fun b => !b.tasks.isEmpty }
    c.refill (c.overflow.length + 1)

/-- Whether a bin's oldest task has waited longer than %binto (R243). -/
def State.overdue (s : State) (core : Nat) (b : Bin) : Bool :=
  match b.tasks with
  | [] => false
  | t :: _ => decide ((s.core core).binto.toNat < s.now - t.arrival)

/-- BIN_TIMER (R243). -/
def execBinTimer (core : Nat) (s : State) : Outcome :=
  (s.modCore core fun c => { c with bins := c.bins.map fun b => if s.overdue core b then { b with due := true } else b }).ok

/-- A bin at its formation threshold (R243). -/
def Bin.atThreshold (b : Bin) : Bool := decide (96 ≤ b.tasks.length) || (b.due && !b.tasks.isEmpty)

/-- Class, deadline and head arrival of a bin (R244): no deadline counts as latest (R369) (log 55). -/
def Bin.cls (b : Bin) : Nat := b.tasks.foldl (fun m t => min m t.cls) 3
def deadlineKey (d : DWord) : Nat := if d == 0 then 2 ^ 64 else d.toNat
def Bin.deadline (b : Bin) : Nat := b.tasks.foldl (fun m t => min m (deadlineKey t.deadline)) (2 ^ 64)
def Bin.head (b : Bin) : Nat := (b.tasks.head?.map (·.arrival)).getD 0

/-- Whether a task on its way may arrive: stolen tasks keep their order (R314). -/
def State.mayArrive (s : State) (index : Nat) (t : Transit) : Bool :=
  !t.stolen || !(s.transit.take index).any fun u => u.stolen && u.core == t.core
/-- TASK_ARRIVAL (R242, R253): a task whose scope is cancelled on the core is discarded. -/
def State.arriveTask (s : State) (index : Nat) : State :=
  match s.transit[index]? with
  | none => s
  | some t =>
    if s.mayArrive index t then
      let s := { s with transit := s.transit.eraseIdx index }
      if s.heardCancel t.core t.task.tenant t.task.scope then s.discardTask t.task else s.storeTask t.core t.task
    else s
def execTaskArrival (index : Nat) (s : State) : Outcome := (s.arriveTask index).ok

/-! ## Formation from a bin (R244, R284) -/

/-- Whether every store that a task follows is performed at package scope (R254). -/
def State.taskReady (s : State) (t : Task) : Bool :=
  match t.after with
  | none => true
  | some (uid, seq) =>
    (match s.anyPly uid with
      | some p => !(p.older seq).any fun e => e.kind.isStore
      | none => true) &&
      s.stores.all fun q => q.uid != uid || decide (seq < q.issued) || decide (q.time ≤ s.now)

/-- A pixel whose task is discarded leaves a helper lane (R284). -/
def Task.asHelper (t : Task) : Task :=
  { t with helper := true, commit := none, args := t.args.setIfInBounds 1 0, scope := 0 }

/-- The tasks of a bin as a formation finds them: those of cancelled scopes are discarded (R244), and one of a unit of four leaves
its lane as a helper lane (R284). Units before the first task that is left form no lane. -/
def State.liveTasks (s : State) (core : Nat) (b : Bin) : List Task :=
  let dead (t : Task) : Bool := !t.helper && s.heardCancel core t.tenant t.scope
  let l := b.tasks.filterMap fun t =>
    if dead t then (if t.quad.isSome then some t.asHelper else none) else some t
  l.dropWhile fun t => t.helper && !l.any fun u => u.quad == t.quad && !u.helper

/-- The tasks of a bin that a formation discards. -/
def State.deadTasks (s : State) (core : Nat) (b : Bin) : List Task :=
  b.tasks.filter fun t => !t.helper && s.heardCancel core t.tenant t.scope

/-- The lanes of the oldest tasks: one after another, a unit of four from a multiple of four on and never split (R244, R284)
(log 99). unit is the unit of the task before. -/
def layTasks : (lane : Nat) → (unit : Option Nat) → List Task → List (Nat × Task)
  | _, _, [] => []
  | lane, unit, t :: ts =>
    let starts := t.quad.isSome && t.quad != unit
    let at' := if starts then (lane + 3) / 4 * 4 else lane
    if 96 < at' + (if starts then 4 else 1) then [] else (at', t) :: layTasks (at' + 1) t.quad ts

/-- The lanes of a ply that forms from tasks. -/
def laneStarts (ts : List (Nat × Task)) : List LaneStart :=
  ts.map fun (i, t) =>
    { lane := i, args := t.args, scope := t.scope, occupied := !t.helper,
      info := { LaneInfo.empty with
        scope := t.scope, commit := t.commit, demand := if t.helper then 0 else t.demand.toNat,
        heat := if t.helper then 0 else t.heat.toNat } }

/-- The task-record block (R108): 96 records in lane order, 32 zero bytes for a vacant lane. -/
def recordBlock (ts : List (Nat × Task)) : List Byte :=
  (List.range 96).flatMap fun i => match ts.lookup i with
    | some t => t.record
    | none => zeros 32

/-- A bin keeps the tasks given. -/
def State.setBin (s : State) (core : Nat) (b : Bin) (ts : List Task) : State :=
  s.modCore core fun c =>
    { c with bins := c.bins.map fun x =>
        if x.number == b.number then { b with tasks := ts, due := s.overdue core { b with tasks := ts } } else x }

/-- Tasks that end by a formation fault (R241, R262). -/
def State.formationFault (s : State) (core tenant : Nat) (entry : DWord) (ts : List Task) (w : Word) : State :=
  let ts := ts.filter fun t => !t.helper
  let s := ts.foldl (fun s t => s.discardTask t) s
  let scopes := (ts.map (·.scope)).eraseDups
  let s := s.faultScopes tenant scopes w
  s.faultRecord tenant ⟨w, scopes.headD 0, 0xFFFFFFFF, core, entry, 0, 0, maskOf fun i => decide (i < ts.length)⟩

/-- The charge of a placement of tasks on a core, if its vault admits it: stolen tasks bring the charge at which they were accepted
(R345). -/
def State.chargeTasks (s : State) (core : Nat) (ts : List Task) : Option Nat :=
  let new := ts.filter fun t => t.held.isNone
  if new.isEmpty then some (heldCharge ts)
  else (s.charge core (new.foldl (fun n t => n + t.demand.toNat) 0) (new.foldl (fun n t => max n t.heat.toNat) 0)).map (· + heldCharge ts)

/-- What a bin comes to at a formation: none where it is passed over, otherwise the state after it (R244). -/
def State.tryBin (s : State) (core : Nat) (b : Bin) : Option State :=
  let live := s.liveTasks core b
  let dead := s.deadTasks core b
  let placed := layTasks 0 none live
  let ts := placed.map (·.2)
  let rest := live.drop ts.length
  let drop (s : State) : State := dead.foldl (fun s t => s.discardTask t) s
  if !ts.all s.taskReady then none
  else if ts.isEmpty then some ((drop (s.setBin core b [])).tidyBins core)
  else
    match s.headerFor core b.tenant b.entry with
    | .error w => some (((drop (s.setBin core b rest)).formationFault core b.tenant b.entry ts w).tidyBins core)
    | .ok h =>
      match s.chargeTasks core ts, s.pipeFor core, (s.core core).windowFor h.xbuf with
      | some ch, some pipe, some base =>
        if s.freeRegs core < h.regs + 64 * h.tiles || s.saveAreas.isEmpty then none
        else
          let s := (drop (s.setBin core b rest)).keepHeader core b.entry h
          let c := s.core core
          let paint := ts.any fun t => t.commit.isSome || t.helper
          let bt := { b with tasks := ts }
          let d := bt.deadline
          let t : Start :=
            { core := core, pipe := pipe, tenant := b.tenant
              plyid := BitVec.ofNat 25 (core * 65536 + c.formSeq.toNat)
              entry := b.entry, header := h, gang := none, gangsize := 1, role := 0, cls := bt.cls
              deadline := if d == 2 ^ 64 then 0 else BitVec.ofNat 64 d
              charge := ch, demand := 0, heat := 0, paint := paint, lanes := laneStarts placed, firing := none, group := none
              fixedCore := false, pointer := if paint then some 0 else none, base := base }
          let (uid, s) := s.formPly t (if paint then none else some (recordBlock placed))
          let s := s.modCore core fun c => { c with formSeq := c.formSeq + 1 }.assignWindow uid base h.xbuf
          some (s.tidyBins core)
      | _, _, _ => none

/-- The bins of a core at their threshold, in the order of R244. -/
def Core.ripeBins (c : Core) : List Bin :=
  sortBy (fun a b =>
    decide (a.cls < b.cls) || (a.cls == b.cls && (decide (a.deadline < b.deadline) ||
      (a.deadline == b.deadline && decide (a.head < b.head))))) (c.bins.filter Bin.atThreshold)

/-- Whether a bin of a core may form now at all (R244, R350, R389). -/
def State.mayForm (s : State) (core : Nat) (b : Bin) : Bool :=
  s.open' core && !s.isGated core && !s.claimWaits core &&
    (s.powered core || b.tasks.any fun t => t.commit.isSome || t.helper)

end Sys2Proof.Machine
end

