-- ==== Sys2Proof/Machine/Tasks.lean ====
section
/-!
DEFINITION. Tasks and scopes as instructions reach them: SPAWN, SPAWNV, SPAWNR, CLAIM, GIVE, EXIT, the YIELD trailer, the
scope instructions, and the events of cancellation, draining and Knight (spec/11 R248, R250 to R267, R412, spec/04 R105,
spec/15 R312 to R314).
-/
namespace Sys2Proof.Machine

/-! ## Spawning (R252, R253) -/

/-- The scope that an operand names: 0 means %scope; a word with a bit above [23:0] names no scope (log 62). -/
def State.scopeName (s : State) (w : Word) : Option (BitVec 24) :=
  if w == 0 then some s.ply.scope else if w.toNat / 2 ^ 24 != 0 then none else some (w.truncate 24)

/-- Whether a placement word is refused: a reserved bit, or a core outside the partition (R253). -/
def State.placeBad (s : State) (w : Word) : Bool :=
  w.getLsbD 30 || bits w.toNat 27 25 != 0 || (w.getLsbD 31 && !s.inPart s.ply.tenant (bits w.toNat 24 16))
/-- The core that a placement names. -/
def State.placeCore (s : State) (w : Word) : Nat := if w.getLsbD 31 then bits w.toNat 24 16 else s.ply.core

/-- A task that the issuing ply creates with the next issue number: it inherits class and deadline (R239), and follows the
ply's earlier stores (R254). -/
def State.newTask (s : State) (entry : DWord) (args : Vector Word 4) (scope : BitVec 24) (demand : BitVec 16)
    (heat : BitVec 2) (fixed : Bool) : Task :=
  { entry := entry, args := args, scope := scope, demand := demand, heat := heat, cls := s.ply.cls
    deadline := s.ply.deadline, arrival := 0, fixed := fixed, tenant := s.ply.tenant
    after := some (s.ply.uid, s.seq + 1), commit := none, quad := none, helper := false, held := none }

/-- The kill point of a spawn (R253): cancelled counted lanes end; k goes on where a counted lane remains. -/
def State.spawnLanes (s : State) (k : State → State) : State :=
  let dead := s.cancelledLanes s.ply &&& s.counted'
  let t := if dead == 0 then s else s.kill s.ply.uid dead
  if t.ply.occ == 0 then t.retire t.ply.uid
  else if t.counted' == 0 then t.done
  else k t

/-- One task per counted lane, checked placements and named scopes first: a task whose operand names no scope is
discarded. -/
def State.spawnEach (s : State) (entry : DWord) (a : BitVec 7) (scope place : Nat → Word) : State :=
  let lanes := s.storeLanes
  s.checkEntry entry <|
    if lanes.any fun i => s.placeBad (place i) then s.raise (engine 14)
    else
      let arg (k i : Nat) : Word := (s.V (a + BitVec.ofNat 7 k)).at i
      let tasks := lanes.filterMap fun i =>
        (s.scopeName (scope i)).map fun c =>
          (s.placeCore (place i),
            s.newTask entry #v[arg 0 i, arg 1 i, arg 2 i, arg 3 i] c ((place i).truncate 16)
              (BitVec.ofNat 2 (bits (place i).toNat 29 28)) ((place i).getLsbD 31))
      (s.pushHub (.spawn tasks)).done

/-- SPAWN (R252, R253). -/
def execSpawn (e : BitVec 6) (a : BitVec 7) (c : BitVec 6) (s : State) : Outcome :=
  (s.checkRun a 4 <| s.spawnLanes fun s => s.spawnEach (s.S64 e) a (fun _ => s.S c) fun _ => s.S (c + 1)).ok

/-- SPAWNV (R252, R253). -/
def execSpawnv (e : BitVec 6) (a : BitVec 7) (s : State) : Outcome :=
  (s.checkRun a 6 <| s.spawnLanes fun s => s.spawnEach (s.S64 e) a (s.V (a + 4)).at (s.V (a + 5)).at).ok

/-- SPAWNR (R252, R253): its path waits until the records have been read. -/
def execSpawnr (r n c : BitVec 6) (s : State) : Outcome :=
  (s.spawnLanes fun s =>
    let k := (s.S n).toNat
    let at' := s.S64 r
    if 256 < k then s.raise (engine 14)
    else if k == 0 then s.done
    else if at'.toNat % 32 != 0 then s.raise (align at')
    else s.wait (.spawnr r n c)).ok

/-- One record read by SPAWNR as a task (R239, R253): none where a field is out of its range. -/
def State.recordTask (s : State) (b : List Byte) (fixed : Bool) : Option Task :=
  let entry := BitVec.ofNat 64 (num b 0 8)
  if !isEntry entry || num b 27 1 != 0 || 3 < num b 30 1 || num b 31 1 != 0 then none
  else
    let arg (k : Nat) : Word := bytesWord (slice b (8 + 4 * k) 4)
    some (s.newTask entry #v[arg 0, arg 1, arg 2, arg 3] (BitVec.ofNat 24 (num b 24 3)) (BitVec.ofNat 16 (num b 28 2))
      (BitVec.ofNat 2 (num b 30 1)) fixed)

/-- What SPAWNR's reading comes to. -/
inductive Records where
  | tasks (l : List Task)
  | fails (c : Cause)
  /-- A record in a failing granule: its virtual and physical address. -/
  | error (va : DWord) (pa : Nat)
  deriving DecidableEq, Repr

/-- Reads n records, record by record (R253). -/
def State.readRecords (s : State) (tenant core : Nat) (fixed : Bool) (va : DWord) : Nat → Records
  | 0 => .tasks []
  | n + 1 =>
    if va.toNat / 2 ^ 60 != 0 then .fails (noncanon va)
    else
      match s.translate tenant .read va with
      | .error c => .fails c
      | .ok pa =>
        if s.bad pa 32 then .error va pa
        else
          match s.recordTask (s.seenN core pa 32) fixed with
          | none => .fails (engine 14 (some va))
          | some t =>
            match State.readRecords s tenant core fixed (va + 32) n with
            | .tasks l => .tasks (t :: l)
            | r => r

/-- The records of a waiting SPAWNR are read (R253). The state passed is one in which the ply issues. -/
def State.returnSpawnr (s : State) (uid : Nat) : State :=
  match s.find uid with
  | none => s
  | some p =>
    match p.cur.wait with
    | .spawnr r n c =>
      let w (x : BitVec 6) : Word := p.getS p.slot x
      let place := w c
      let v := { s with ply := p }
      if (p.lsq.any fun e => match e.kind with
          | .store _ _ | .storeX _ _ => true
          | _ => false) then s
      else
        match v.readRecords p.tenant p.core (place.getLsbD 31) (pair (w r) (w (r + 1))) (w n).toNat with
        | .fails c => s.raiseWaiting uid c
        | .error va pa =>
          let lanes := (p.cur.active &&& p.occ).lanes
          let s := s.endByFault uid (maskOf fun i => lanes.head? == some i) (memerr (s.foundIn pa) 0) p.cur.pc va (s.granule pa 32)
          s.modPly uid fun p => p.finishWait s.now
        | .tasks l =>
          if v.placeBad place then s.raiseWaiting uid (engine 14)
          else
            let (m, s) := s.fresh
            s.modPly uid fun p =>
              ({ p with hubq := p.hubq ++ [⟨m, p.slot, .spawn (l.map fun t => (v.placeCore place, t))⟩] } : Ply).finishWait s.now
    | _ => s

/-- The hub registers the tasks of a spawn in order (R253): each is counted and sent, or discarded with no count. -/
def State.registerTasks (s : State) (tasks : List (Nat × Task)) : State :=
  tasks.foldl (fun (s : State) (core, t) =>
    if s.accepts t.tenant t.scope then
      (s.modScope t.tenant t.scope fun c => { c with live := c.live + 1 }).sendTask core t false
    else s) s

/-! ## CLAIM and GIVE (R250, R251) -/

/-- The current count of registers or tiles. -/
def Ply.count (p : Ply) (tiles : Bool) : Nat := if tiles then p.actiles else p.vcount
/-- Pool registers that a claim takes. -/
def claimCost (tiles : Bool) (n : Nat) : Nat := if tiles then 64 * n else n
/-- The claim of a path: its count becomes c, the new registers or tiles read 0, S[d] receives c (R250). -/
def Ply.grant (p : Ply) (d : BitVec 6) (tiles : Bool) (n : Nat) : Ply :=
  let p := if tiles then { p with tiles := p.tiles ++ List.replicate n (List.replicate 64 Lanes.zero) }
    else { p with vregs := p.vregs ++ List.replicate n Lanes.zero }
  p.putS p.slot d (BitVec.ofNat 32 (p.count tiles))

/-- The waiting claims of a core that fit, in order of class and then age. -/
def State.fittingClaims (s : State) (core : Nat) : List Ply :=
  let fits (p : Ply) : Bool := match p.cur.wait with
    | .claim _ t n => decide (claimCost t n ≤ s.freeRegs core)
    | _ => false
  sortBy (fun a b => decide (a.cls < b.cls) || (a.cls == b.cls && decide (a.age < b.age))) ((s.onCore core).filter fits)

/-- CLAIM (R250, R412) (log 56). -/
def execClaim (d n : BitVec 6) (k : BitVec 1) (s : State) : Outcome :=
  let m := (s.S n).toNat
  let t := k == 1
  (s.killHere (fun s => s.sresult d 0) fun s =>
    let cur := s.ply.count t
    if m == 0 then s.sresult d (BitVec.ofNat 32 cur)
    else if (!t && m % 8 != 0) || (if t then 8 else 120) < cur + m then s.sresult d 0
    else if claimCost t m ≤ s.freeRegs s.ply.core && (s.fittingClaims s.ply.core).isEmpty then
      State.done { s with ply := s.ply.grant d t m }
    else s.beginWait (.claim d t m)).ok

/-- GIVE (R250): it changes nothing where the count would fall too low. -/
def execGive (d n : BitVec 6) (k : BitVec 1) (s : State) : Outcome :=
  let m := (s.S n).toNat
  let t := k == 1
  let cur := s.ply.count t
  (if (!t && m % 8 != 0) || cur < m + (if t then 0 else 8) then s.sresult d 0
  else
    let p := if t then { s.ply with tiles := s.ply.tiles.take (cur - m) } else { s.ply with vregs := s.ply.vregs.take (cur - m) }
    State.sresult { s with ply := p } d (BitVec.ofNat 32 (cur - m))).ok

/-- CLAIM_GRANT (R250): the first fitting claim of the core in order is granted. -/
def State.grantClaim (s : State) (uid : Nat) : State :=
  match s.find uid with
  | none => s
  | some p =>
    match p.cur.wait, s.fittingClaims p.core with
    | .claim d t n, q :: _ =>
      if q.uid == uid then s.modPly uid fun p => (p.grant d t n).finishWait s.now else s
    | _, _ => s
def execClaimGrant (ply : Nat) (s : State) : Outcome := (s.grantClaim ply).ok

/-- Whether a ply's open run waits in CLAIM. -/
def Ply.claims (p : Ply) : Bool := match p.cur.wait with
  | .claim _ _ _ => true
  | _ => false

/-- Whether a core must fail a claim (R251): every resident ply waits in CLAIM and none can be granted. -/
def State.claimStuck (s : State) (core : Nat) : Bool :=
  !(s.onCore core).isEmpty && (s.onCore core).all Ply.claims && (s.fittingClaims core).isEmpty

/-- CLAIM_FAILURE (R251): the claim of the youngest waiting ply fails. -/
def State.failClaim (s : State) (core : Nat) : State :=
  if s.claimStuck core then
    match (sortBy (fun a b => decide (b.age < a.age)) (s.onCore core)).head? with
    | none => s
    | some p =>
      match p.cur.wait with
      | .claim d _ _ => s.modPly p.uid fun p => (p.putS p.slot d 0).finishWait s.now
      | _ => s
  else s
def execClaimFailure (core : Nat) (s : State) : Outcome := (s.failClaim core).ok

/-! ## EXIT and YIELD (R105, R248, R255) -/

/-- EXIT (R255, R260): without an occupied active lane it has no effect (R268). -/
def execExit (s : State) : Outcome :=
  (if s.counted' == 0 then s.done
  else
    let u := s.ply.uid
    let s := s.kill u s.path.member
    let s := s.counted'.lanes.foldl (fun s i => s.endLane u i false) s
    if s.ply.occ == 0 then s.retire u else s.done).ok

/-- Whether a rotation that has marked the ply is over: its vault's admitted charge is at or below its limit (R346). -/
def State.rotated (s : State) : Bool :=
  s.ply.marked == some 0 && decide (s.vaultCharge (vaultOf s.ply.core) ≤ (s.vault (vaultOf s.ply.core)).limit)
/-- Whether the YIELD of the issuing ply is where Clock takes it: marked, or on a die being gated (R248, R350). -/
def State.takenAtYield (s : State) : Bool :=
  ((s.ply.marked.isSome && !s.rotated) || s.gating s.ply.core) && !s.ply.supervisor && s.ply.savable

/-- The YIELD has issued: PC and run position advance; its word does not count in %yc (R105). -/
def State.yielded (s : State) (deadline : BitVec 8) : State :=
  let s := s.done.endOfRun []
  { s with ply := { s.ply with ydl := deadline, yc := 0 } }

/-- YIELD (R105, R107, R248, R260). -/
def execYield (d : BitVec 8) (l : BitVec 7) (s : State) : Outcome :=
  let u := s.ply.uid
  (if s.ply.vcount < l.toNat then s.raiseRegrange
  else
    let s := s.yielded d
    let s := s.kill u Mask.full
    if s.ply.occ == 0 then s.retire u
    else if s.takenAtYield then s.savePly s.ply l.toNat false (s.gating s.ply.core)
    else if s.rotated then { s with ply := { s.ply with marked := none } }
    else s).ok

/-! ## The scope instructions (R264 to R267) -/

/-- A request that the hub performs in the ply's issue order (R264): at once where no earlier one is outstanding. -/
def State.atHub (s : State) (k : HubKind) (now : State → State) : State :=
  if s.ply.hubq.isEmpty then now s else s.pushHub k

/-- SCOPEN (R265): a request to the hub; an operand of 0 means %scope. -/
def execScopen (d a p : BitVec 6) (s : State) : Outcome :=
  let parent := s.scopeName (s.S p)
  -- a parent word that names no scope is not live: an identifier that no live scope has stands for it
  (match parent with
  | some c => (s.pushHub (.scopen d (s.S64 a) c false)).done
  | none => (s.pushHub (.scopen d (s.S64 a) 0 true)).done).ok

/-- CANCEL (R266). -/
def execCancel (a : BitVec 6) (s : State) : Outcome :=
  (match s.scopeName (s.S a) with
  | none => s.done
  | some c => (s.atHub (.cancel c) fun s => s.cancelScope s.ply.tenant c).done).ok

/-- What SCPST reads (R267): the state word and live, or 0 and 0. -/
def State.scopeStatus (s : State) (tenant : Nat) (id : BitVec 24) : Word × Word :=
  if id == 0 then (0, 0)
  else
    match s.scopeOf tenant id with
    | some c => (c.stateWord, BitVec.ofNat 32 c.live)
    | none => (0, 0)

/-- SCPST (R267): a pending scalar pair. -/
def execScpst (d a : BitVec 6) (s : State) : Outcome :=
  (match s.scopeName (s.S a) with
  | none => (s.pushHub (.scpst d 0)).done
  | some c => (s.pushHub (.scpst d c)).done).ok

/-- A path waiting in SCPST.W returns once its earlier requests are answered and its scope is released or not live
(R267) (log 61). -/
def State.returnScpst (s : State) (uid : Nat) : State :=
  match s.find uid with
  | none => s
  | some p =>
    match p.cur.wait with
    | .scpst d id =>
      let finish (a b : Word) : State :=
        s.modPly uid fun p => ((p.putS p.slot d a).putS p.slot (d + 1) b).finishWait s.now
      if !p.hubq.isEmpty then s
      else
        match s.released.find? fun (t, c, _) => t == p.tenant && c == id with
        | some (_, _, w) => finish w 0
        | none => if id != 0 && (s.scopeOf p.tenant id).isSome then s else finish 0 0
    | _ => s
def execScpstWReturn (ply : Nat) (s : State) : Outcome := (s.returnScpst ply).ok

/-- Before an identifier lives or is waited for again, its earlier life's waiters return. -/
def State.flushReleased (s : State) (tenant : Nat) (id : BitVec 24) : State :=
  if s.released.any fun (t, c, _) => t == tenant && c == id then
    let s := s.all.foldl (fun s p => match p.cur.wait with
      | .scpst _ c => if p.tenant == tenant && c == id then s.returnScpst p.uid else s
      | _ => s) s
    { s with released := s.released.filter fun (t, c, _) => !(t == tenant && c == id) }
  else s

/-- SCPST.W (R267, R412). -/
def execScpstW (d a : BitVec 6) (s : State) : Outcome :=
  let id := (s.scopeName (s.S a)).getD 0
  let now (s : State) : State :=
    let (x, y) := s.scopeStatus s.ply.tenant id
    ((s.setS d x).setS (d + 1) y).done
  (s.killHere now fun s =>
    let live := id != 0 && (s.scopeOf s.ply.tenant id).isSome
    if s.ply.hubq.isEmpty && !live then now s
    else (s.flushReleased s.ply.tenant id).wait (.scpst d id)).ok

/-! ## The hub's answers (R264, R265) -/

/-- The record that SCOPEN reads, if it is one (R265, status 4). -/
def Scope.parse (tenant opener : Nat) (parent : BitVec 24) (address : DWord) (b : List Byte) : Option Scope :=
  let w := num b 0 4
  let notify := num b 52 4
  if w % 256 != 1 || 2 < notify || (b.drop 56).any (· != 0) || w / 256 == 0 then none
  else
    some { tenant := tenant, id := BitVec.ofNat 24 (w / 256), parent := parent, state := .opened, sealed' := false
           live := 0, ended := 0, tcancel := 0, tquiet := 0, cause := 0, cont := BitVec.ofNat 64 (num b 32 8)
           carg := BitVec.ofNat 64 (num b 40 8), notify := notify, address := address, opener := opener, due := none }

/-- SCOPEN at the hub: its status, and the table after it (R265). -/
def State.openScope (s : State) (tenant core : Nat) (address : DWord) (parent : BitVec 24) (nowhere : Bool) : Nat × State :=
  let reach := if address.toNat % 64 != 0 then none
    else
      match s.range tenant .write address 64 with
      | .error _ => none
      | .ok ps => some (ps.flatMap fun (pa, k) => s.phys pa k)
  match reach with
  | none => (5, s)
  | some b =>
    let s := s.hubReads tenant address 64
    match Scope.parse tenant core parent address b with
    | none => (4, s)
    | some c =>
      let ok := !nowhere && (parent == 0 || match s.scopeOf tenant parent with
        | some q => q.state = .opened && !q.sealed'
        | none => false)
      if (s.scopeOf tenant c.id).isSome then (1, s)
      else if !ok then (2, s)
      else if (s.tenant tenant).share ≤ (s.scopes.filter fun q => q.tenant == tenant).length then (3, s)
      else
        let s := s.flushReleased tenant c.id
        (0, State.writeScope { s with scopes := s.scopes ++ [c] } tenant c.id)

/-! ## Cancellation as it reaches a core (R259 to R261, R412) -/

/-- Whether a wait is a kill point throughout (R260). -/
def Wait.isKillPoint (w : Wait) : Bool :=
  match w with
  | .barw _ _ _ _ | .barawNext _ _ _ _ | .baraw _ _ _ | .released _ _ _ _ _ | .waitc _ _ | .claim _ _ _ | .vfpush _ | .vfpop _
  | .scpst _ _ => true
  | _ => false

/-- A path that keeps no occupied lane stops waiting (R412). -/
def State.loseWait (s : State) (p : Ply) : State :=
  let put (d : BitVec 6) (l : List Word) (q : Ply) : Ply :=
    (l.zipIdx.foldl (fun (q : Ply) (w, i) => q.putS q.slot (d + BitVec.ofNat 6 i) w) q)
  match p.cur.wait with
  | .claim d _ _ => s.modPly p.uid fun q => (put d [0] q).finishWait s.now
  | .scpst d id =>
    let (x, y) := s.scopeStatus p.tenant id
    s.modPly p.uid fun q => (put d [x, y] q).finishWait s.now
  | _ => s.modPly p.uid fun q => q.finishWait s.now

/-- The cancelled lanes of a waiting path end (R260). -/
def State.killWaiting (s : State) (uid : Nat) : State :=
  match s.find uid with
  | none => s
  | some p =>
    if p.running && p.cur.wait.isKillPoint then
      let dead := s.cancelledLanes p &&& p.cur.member
      if dead == 0 then s
      else
        let s := s.kill uid dead
        match s.find uid with
        | none => s
        | some q =>
          if q.occ == 0 then s.retire uid
          else if q.cur.member &&& q.occ == 0 then s.loseWait q
          else s
    else s

/-- CANCEL_BROADCAST (R259): a core comes to hold a broadcast. -/
def State.hear (s : State) (core index : Nat) : State :=
  match s.broadcasts[index]? with
  | none => s
  | some b =>
    if b.cores.contains core then
      let b' : Broadcast := { b with cores := b.cores.erase core }
      let bs := s.broadcasts.set index b'
      let s : State := { s with broadcasts := bs.filter fun (x : Broadcast) => !x.cores.isEmpty }
      let s := s.modCore core fun c =>
        { c with heard := if c.heard.contains (b.tenant, b.scope) then c.heard else c.heard ++ [(b.tenant, b.scope)] }
      (s.onCore core).foldl (fun s p => s.killWaiting p.uid) s
    else s
def execCancelBroadcast (core index : Nat) (s : State) : Outcome := (s.hear core index).ok

/-! ## Draining (R258, R263) -/

/-- Whether stores of a scope's tasks have still to be performed at package scope. -/
def State.scopeStores (s : State) (tenant : Nat) (id : BitVec 24) : Bool :=
  (s.stores.any fun q => q.tenant == tenant && q.scopes.contains id) ||
    s.everyPly.any fun p => p.tenant == tenant && p.lsq.any fun e =>
      (match e.kind with
        | .atom _ _ _ _ ls _ => (p.scopesOf (ls.map (·.lane))).contains id
        | .faddd ls => (p.scopesOf (ls.map fun (a, _) => a.lane)).contains id
        | k => (p.scopesOf (k.writes.map (·.lane))).contains id)
/-- Whether engine operations of a scope's tasks have still to retire. -/
def State.scopeEngines (s : State) (tenant : Nat) (id : BitVec 24) : Bool :=
  (s.counted.any fun c => c.tenant == tenant && c.scopes.contains id) ||
    (s.fabric.any fun o => o.tenant == tenant && o.scope == id) ||
    s.pieces.any fun o => o.tenant == tenant && o.scope == id

/-- Whether a scope is CLOSED or QUIESCED. -/
def Scope.over (c : Scope) : Bool := c.state == .closed || c.state == .quiesced
/-- Whether a scope is drained (R258). -/
def State.drained (s : State) (c : Scope) : Bool :=
  c.live == 0 && !(s.scopes.any fun q => q.tenant == c.tenant && q.parent == c.id && !q.over) &&
    !s.scopeEngines c.tenant c.id && !s.scopeStores c.tenant c.id

/-- The state that a drained scope takes, if any. -/
def Scope.final (c : Scope) : Option ScopeState :=
  match c.state with
  | .opened => if c.sealed' then some .closed else none
  | .cancelling | .faulted => some .quiesced
  | _ => none

/-- The continuation of a scope (R263): arg3 is the cause, CANCELLED for a QUIESCED scope with none (R262) (log 54). -/
def Scope.continuation (c : Scope) (quiesced : Bool) (seq : Nat) : Task :=
  let why := if c.cause == 0 && quiesced then 0x22 else c.cause
  { entry := c.cont, args := #v[loWord c.carg, hiWord c.carg, c.id.zeroExtend 32, why], scope := c.parent
    demand := 0, heat := 0, cls := 2, deadline := 0, arrival := 0, fixed := false, tenant := c.tenant
    after := some (0, seq), commit := none, quad := none, helper := false, held := none }

/-- A scope leaves the table; its state word stays for the paths that wait for it (R258, R267). -/
def State.releaseScope (s : State) (c : Scope) (w : Word) : State :=
  { s with
    scopes := s.scopes.filter fun q => !(q.tenant == c.tenant && q.id == c.id)
    released := (c.tenant, c.id, w) :: s.released.filter fun (t, i, _) => !(t == c.tenant && i == c.id)
    broadcasts := s.broadcasts.filter fun b => !(b.tenant == c.tenant && b.scope == c.id)
    cores := s.cores.map fun (k, (x : Core)) => (k, { x with heard := x.heard.filter fun h => h != (c.tenant, c.id) }) }

/-- The notify of a scope that has closed (R263, R405). -/
def State.notifyScope (s : State) (c : Scope) : State :=
  if c.notify == 1 && c.cont != 0 then
    let t := c.continuation (c.state == .quiesced) s.seq
    let s := s.modScope c.tenant c.parent fun q => { q with live := q.live + 1 }
    if s.scopeCancelled c.tenant c.parent then s.countEnd c.tenant c.parent else s.sendTask c.opener t false
  else if c.notify == 2 then
    let (endpoint, dest) := (s.tenant c.tenant).notify
    let (n, s) := s.fresh
    { s with fabric := s.fabric ++ [⟨n, 0, c.tenant, noCore, 0, 0, s.now, false, .notify ⟨endpoint, dest, 1⟩ c.carg c.record, none, 0, [], 0⟩] }
  else s

/-- The scopes whose final records are written leave the table (R258). -/
def State.releaseWritten (s : State) : State :=
  (s.scopes.filter fun c => match c.due with
    | some t => decide (t ≤ s.now)
    | none => false).foldl (fun s c => s.releaseScope c c.stateWord) s
/-- SCOPE_DRAINED (R258, R263): the final state, the record, the notify; the scope leaves the table once its record is written. -/
def State.drainScope (s : State) (tenant : Nat) (id : BitVec 24) : State :=
  match s.scopeOf tenant id with
  | none => s
  | some c =>
    match c.final with
    | none => s
    | some st =>
      if s.drained c then
        let c := { c with state := st, tquiet := s.ptime }
        let t := (s.modScope tenant id fun _ => c).writeScope tenant id
        ((t.modScope tenant id fun c => { c with due := some (t.latestSince s.seq) }).notifyScope c).releaseWritten
      else s
def execScopeDrained (tenant scope : Nat) (s : State) : Outcome := (s.drainScope tenant (BitVec.ofNat 24 scope)).ok

/-- SCOPCL at the hub (R258, R266): an OPEN scope that is drained is CLOSED at once. -/
def State.sealScope (s : State) (tenant : Nat) (id : BitVec 24) : State :=
  if id == 0 then s
  else
    match s.scopeOf tenant id with
    | none => s
    | some c =>
      if c.sealed' || c.over then s
      else
        let t := (s.modScope tenant id fun c => { c with sealed' := true }).writeScope tenant id
        if c.state = .opened then t.drainScope tenant id else t
/-- SCOPCL (R266). -/
def execScopcl (a : BitVec 6) (s : State) : Outcome :=
  (match s.scopeName (s.S a) with
  | none => s.done
  | some c => (s.atHub (.scopcl c) fun s => s.sealScope s.ply.tenant c).done).ok

/-! ## Knight (R312 to R314) -/

/-- Whether a bin at its threshold is refused by the vault charge. -/
def State.refused (s : State) (core : Nat) (b : Bin) : Bool :=
  (s.chargeTasks core ((layTasks 0 none (s.liveTasks core b)).map (·.2))).isNone

/-- 256 clk at a clock step, in ns (R312, R319) (log 59). -/
def probeGap (step : Nat) : Nat :=
  match step with
  | 0 => 171
  | 1 => 205
  | 2 => 256
  | 3 => 342
  | _ => 512

/-- Whether Knight may probe for a core now (R312, R350). -/
def State.mayProbe (s : State) (core : Nat) : Bool :=
  let c := s.core core
  let k := s.cluster (clusterOf core)
  k.knight && (c.probeN == 0 || decide (c.probeAt + probeGap k.running.toNat ≤ s.now)) && s.open' core && s.powered core &&
    decide (0 < s.freeSlots core) && c.ripeBins.all (s.refused core) && decide (c.stored + 48 ≤ 8192)

/-- A task that may be stolen. -/
def Task.stealable (t : Task) : Bool := !t.fixed && t.commit.isNone && !t.helper

/-- The victim of a probe with probe register x (R313). -/
def State.victim (s : State) (core : Nat) (x : BitVec 16) (n : Nat) : Nat :=
  if n % 4 == 3 then
    dieOf core * 64 + (core / 8 % 8 + 1 + x.toNat / 8 % 7) % 8 * 8 + x.toNat / 64 % 8
  else
    let hot := (coresOf (clusterOf core)).find? fun k =>
      k != core && ((s.core k).ripeBins.any fun b => s.refused k b) &&
        (s.core k).bins.any fun b => b.tasks.any Task.stealable
    hot.getD (clusterOf core * 8 + (core % 8 + 1 + x.toNat % 7) % 8)

/-- The longest prefix that the thief's vault admits (R314). -/
def State.admitted (s : State) (core : Nat) (ts : List Task) : List Task :=
  (ts.foldl (fun (l, stop) t =>
    if stop then (l, true)
    else
      let l' := l ++ [t]
      if (s.charge core (l'.foldl (fun n t => n + t.demand.toNat) 0) (l'.foldl (fun n t => max n t.heat.toNat) 0)).isSome then (l', false)
      else (l, true)) (([] : List Task), false)).1

/-- The largest bin of a core, the lowest number on a tie. -/
def Core.largestBin (c : Core) : Option Bin :=
  (sortBy (fun a b => decide (b.tasks.length < a.tasks.length) ||
    (a.tasks.length == b.tasks.length && decide (a.number < b.number))) c.bins).head?

/-- Tasks as a thief has accepted them at a charge: each brings its demand, and the first what the charge adds to the sum of the
demands (R345) (log 60). -/
def acceptTasks (charge : Nat) (ts : List Task) : List Task :=
  let sum := ts.foldl (fun n t => n + t.demand.toNat) 0
  ts.zipIdx.map fun (t, i) => { t with held := some (t.demand.toNat + if i == 0 then charge - sum else 0) }

/-- A thief takes tasks from a victim (R314) and is charged for them (R345). -/
def State.steal (s : State) (thief victim : Nat) : State :=
  match (s.core victim).largestBin with
  | none => s
  | some b =>
    let free := b.tasks.filter Task.stealable
    let got := s.admitted thief (free.take ((free.length + 1) / 2))
    if got.isEmpty then s
    else
      -- the tasks taken are the first stealable ones of the bin
      let keep := (b.tasks.foldl (fun (l, n) t =>
        if t.stealable && decide (0 < n) then (l, n - 1) else (l ++ [t], n)) (([] : List Task), got.length)).1
      let charge := (s.charge thief (got.foldl (fun n t => n + t.demand.toNat) 0) (got.foldl (fun n t => max n t.heat.toNat) 0)).getD 0
      let s := (s.setBin victim b keep).tidyBins victim
      (acceptTasks charge got).foldl (fun s t => s.sendTask thief t true) s

/-- KNIGHT_PROBE (R312 to R314). -/
def State.probe (s : State) (core : Nat) : State :=
  if s.mayProbe core then
    let c := s.core core
    let x := (c.probeX >>> 1) ^^^ (if c.probeX.getLsbD 0 then 0xB400 else 0)
    let v := s.victim core x c.probeN
    let s := s.setCore core { c with probeX := x, probeN := c.probeN + 1, probeAt := s.now }
    match s.partOf core with
    | none => s
    | some t => if v != core && s.inPart t v then s.steal core v else s
  else s
def execKnightProbe (core : Nat) (s : State) : Outcome := (s.probe core).ok

end Sys2Proof.Machine
end

