-- ==== Sys2Proof/Machine/Launch.lean ====
section
/-!
DEFINITION. Launch queues and records, the order of formation on a core, restores and Clock's marks (spec/19 R359 to R372,
spec/11 R244, R245, R248, spec/15 R315, spec/16 R345, R346).
-/
namespace Sys2Proof.Machine

/-! ## Launch records (R362 to R364) -/

/-- Level k of a record. -/
def Level.parse (b : List Byte) : Level :=
  ⟨num b 0 2, num b 2 2, bits (num b 4 1) 7 6, bits (num b 4 1) 5 3, bits (num b 4 1) 2 0, bits (num b 5 1) 2 0⟩
/-- The smallest memory scope of a level's domain (R364). -/
def Level.minScope (l : Level) : Nat := min l.domain 3
/-- Points of a level. -/
def Level.size (l : Level) : Nat := l.ex * l.ey

/-- Whether a core level stands directly inside a cluster level: its gangs form path groups (R315, R366). -/
def Record.grouped (r : Record) : Bool :=
  (r.levels.zip (r.levels.drop 1)).any fun (a, b) => a.domain == 2 && b.domain == 1
/-- Plies of a gang: those of a core level, else one (R366). -/
def Record.gang (r : Record) : Nat :=
  match r.levels.getLast? with
  | some l => if l.domain == 1 then l.size else 1
  | none => 1
/-- Plies of a record (R367). -/
def Record.plies (r : Record) : Nat := r.levels.foldl (fun n l => n * l.size) (if r.grouped then 8 else 1)

/-- The bytes that a record keeps zero (R362, R363). -/
def recordReserved (b : List Byte) : Bool :=
  let n := num b 39 1
  num b 35 1 != 0 || 3 < num b 38 1 || 7 < n || (slice b 49 15).any (· != 0) || (slice b 124 4).any (· != 0) ||
    (List.range 6).any fun k =>
      let l := slice b (64 + 10 * k) 10
      if k < n then 7 < num l 5 1 || (slice l 6 4).any (· != 0) else l.any (· != 0)

/-- A launch record from its 128 bytes, or the detail of the first check of R364 that fails, 1 to 6. -/
def Record.parse (b : List Byte) : Except Nat Record :=
  let entry := BitVec.ofNat 64 (num b 0 8)
  let args := BitVec.ofNat 64 (num b 8 8)
  let n := num b 39 1
  let lanes := num b 48 1
  let ls := (List.range n).map fun k => Level.parse (slice b (64 + 10 * k) 10)
  let arg (k : Nat) : Word := bytesWord (slice b (16 + 4 * k) 4)
  let r : Record :=
    { entry := entry, args := args, arg := #v[arg 0, arg 1, arg 2, arg 3], scope := BitVec.ofNat 24 (num b 32 3)
      demand := BitVec.ofNat 16 (num b 36 2), heat := BitVec.ofNat 2 (num b 38 1), deadline := BitVec.ofNat 64 (num b 40 8)
      lanes := lanes, levels := ls }
  let inward := ls.zip (ls.drop 1)
  if !isEntry entry || args.toNat / 2 ^ 60 != 0 then .error 1
  else if recordReserved b || n < 1 || 6 < n || lanes < 1 || 96 < lanes then .error 2
  else if ls.any fun l => l.ex == 0 || l.ey == 0 || 4 < l.domain || (2 ≤ l.order && l.sw != 0) then .error 3
  else if inward.any (fun (a, b) => a.domain < b.domain || a.domain == 1) || (ls.getLast?.map fun l => decide (1 < l.domain)) == some true
  then .error 4
  else if ls.any fun l => 4 < l.scope || l.scope < l.minScope then .error 5
  else if (ls.any fun l => l.domain == 1 && 16 < l.size) || 2 ^ 25 < r.plies then .error 6
  else .ok r

/-- The seventh check of R364: the scope is live, OPEN and not sealed. -/
def State.scopeTakes (s : State) (tenant : Nat) (scope : BitVec 24) : Bool :=
  scope == 0 || match s.scopeOf tenant scope with
    | some c => c.state = .opened && !c.sealed'
    | none => false

/-! ## The order of a level (R365) -/

/-- Point d of the Morton curve, from k bits of each coordinate. -/
def morton : (k d : Nat) → Nat × Nat
  | 0, _ => (0, 0)
  | k + 1, d => let (x, y) := morton k (d / 4); (2 * x + d % 2, 2 * y + d / 2 % 2)

/-- The steps of the Hilbert walk of R365 from side s on. -/
def hilbertFrom : (fuel s x y t : Nat) → Nat × Nat
  | 0, _, x, y, _ => (x, y)
  | n + 1, s, x, y, t =>
    let rx := t / 2 % 2
    let ry := (t % 2 + rx) % 2
    let (x, y) := if ry == 0 then (if rx == 1 then (s - 1 - y, s - 1 - x) else (y, x)) else (x, y)
    hilbertFrom n (2 * s) (x + s * rx) (y + s * ry) (t / 4)
/-- Point d of the Hilbert curve of side 2^k. -/
def hilbert (k d : Nat) : Nat × Nat := hilbertFrom k 1 0 0 d

/-- The smallest k with n ≤ 2^k, from k on. -/
def log2Up (n : Nat) : (fuel k : Nat) → Nat
  | 0, k => k
  | f + 1, k => if n ≤ 2 ^ k then k else log2Up n f (k + 1)

/-- The points of strips of 2^sw rows, in row-major order. -/
def stripOrder (ex ey sw : Nat) : List (Nat × Nat) :=
  let h := 2 ^ sw
  (List.range ((ey + h - 1) / h)).flatMap fun k => (List.range ex).flatMap fun x =>
    ((List.range h).filter fun j => decide (k * h + j < ey)).map fun j => (x, k * h + j)

/-- The points of a level in the order of their positions. -/
def Level.points (l : Level) : List (Nat × Nat) :=
  let k := log2Up (max l.ex l.ey) 17 0
  let inside := fun (p : Nat × Nat) => decide (p.1 < l.ex) && decide (p.2 < l.ey)
  match l.order with
  | 0 => stripOrder l.ex l.ey l.sw
  | 1 => (stripOrder l.ey l.ex l.sw).map fun (a, b) => (b, a)
  | 2 => ((List.range (4 ^ k)).map (morton k)).filter inside
  | _ => ((List.range (4 ^ k)).map (hilbert k)).filter inside

/-! ## Placement (R366, R367) -/

/-- The radices of the digits of %plyid after level k: a path group's core index is a digit of its own before the core
level's (R367). -/
def Record.radixAfter (r : Record) (k : Nat) : Nat :=
  let inner := r.levels.drop (k + 1)
  let g := if r.grouped && k + 1 < r.levels.length then 8 else 1
  inner.foldl (fun n l => n * l.size) g
/-- The position at level k of ply n. -/
def Record.position (r : Record) (k n : Nat) : Nat := n / r.radixAfter k % ((r.levels[k]?).map Level.size |>.getD 1)
/-- The core index of a ply of a path group. -/
def Record.groupCore (r : Record) (n : Nat) : Nat := n / r.gang % 8

/-- Whether a cluster takes new placements (R389). -/
def State.clusterOpen (s : State) (c : Nat) : Bool := !(s.cluster c).retired && !(s.cluster c).retiring
/-- Whether a cluster may form a path group: no core of it is retired (R315). -/
def State.clusterWhole (s : State) (c : Nat) : Bool := (coresOf c).all fun k => !(s.core k).retired && !(s.core k).retiring

/-- The clusters that the levels from k on leave to ply n. -/
def State.unitsFrom (s : State) (r : Record) (n : Nat) : (fuel k : Nat) → List Nat → List Nat
  | 0, _, cs => cs
  | f + 1, k, cs =>
    match r.levels[k]? with
    | none => cs
    | some l =>
      let p := r.position k n
      let next :=
        match l.domain with
        | 3 =>
          let ds := (cs.map (· / 8)).eraseDups
          if ds.isEmpty then [] else cs.filter fun c => some (c / 8) == ds[p % ds.length]?
        | 2 =>
          let cs := if (r.levels[k + 1]?).any fun m => m.domain == 1 then cs.filter s.clusterWhole else cs
          if cs.isEmpty then [] else (cs[p % cs.length]?).toList
        | _ => cs
      State.unitsFrom s r n f (k + 1) next

/-- The cores on which ply n of a firing, with its gang, may form (R366). -/
def State.allowed (s : State) (f : Firing) : List Nat :=
  let r := f.record
  let n := f.next
  let cs := s.unitsFrom r n r.levels.length 0 ((s.partClusters f.tenant).filter s.clusterOpen)
  let cores := if r.grouped then cs.map fun c => c * 8 + r.groupCore n else cs.flatMap coresOf
  cores.filter fun core =>
    s.open' core && (List.range r.levels.length).all fun k =>
      f.homes.all fun (j, i, unit) =>
        if j == k && i == n / r.radixAfter k then
          (if ((r.levels[k]?).map (·.scope)) == some 1 then core == unit else clusterOf core == unit)
        else true

/-- The charges of a gang's members on a core, in order, if every one is admitted (R345, R368). -/
def Vault.gangCharges (v : Vault) (demand heat : Nat) : (n coreCharge vaultCharge : Nat) → Option (List Nat)
  | 0, _, _ => some []
  | n + 1, c, a =>
    let x := v.chargeFor c demand heat
    if v.admits a x then (Vault.gangCharges v demand heat n (c + x) (a + x)).map (x :: ·) else none

/-- What a gang of n plies takes on a core, if all of it is free: its charges and the base of its window (R244, R245). -/
def State.hosts (s : State) (core n : Nat) (h : Header) (demand heat : Nat) : Option (List Nat × Nat) :=
  if s.claimWaits core || !s.powered core || s.freeSlots core < n || s.freeRegs core < n * (h.regs + 64 * h.tiles) ||
      s.saveAreas.length < n then none
  else
    match (s.vault (vaultOf core)).gangCharges demand heat n (s.coreCharge core) (s.vaultCharge (vaultOf core)),
      (s.core core).windowFor h.xbuf with
    | some cs, some b => some (cs, b)
    | _, _ => none

/-- The first of a list that passes, by fewest resident plies (at most 16), then by order. -/
def State.emptiest (s : State) (cores : List Nat) (pass : Nat → Bool) : Option Nat :=
  let cs := cores.map fun k => (k, (s.onCore k).length)
  (List.range 17).findSome? fun n => (cs.find? fun c => c.2 == n && pass c.1).map (·.1)

/-- The core on which the next gang of a firing forms now, if any (R366): one whose header read fails takes it to its fault
(R241). -/
def State.launchCore (s : State) (f : Firing) : Option Nat :=
  let r := f.record
  s.emptiest (s.allowed f) fun core =>
    match s.headerFor core f.tenant r.entry with
    | .error _ => true
    | .ok h => (s.hosts core r.gang h r.demand.toNat r.heat.toNat).isSome

/-- The effective deadline of a firing's record (R369) (log 73). -/
def State.effective (s : State) (f : Firing) : DWord :=
  if f.record.deadline != 0 then f.record.deadline
  else
    match f.queue with
    | some q => (tget Queue.reset q (s.tenant f.tenant).queues).deadline
    | none => 0
/-- Whether a firing is raised (R369). -/
def State.raised (s : State) (f : Firing) : Bool :=
  let d := (s.effective f).toNat
  d != 0 && decide (d ≤ s.now + (s.tenant f.tenant).qdl.toNat)
/-- The class that its next ply carries. -/
def State.launchClass (s : State) (f : Firing) : Nat := if s.raised f then 0 else f.cls

/-! ## Formation (R244, R245, R367, R368) -/

/-- Plies of a firing from its next one on have formed, or have been discarded: its queue may fire again (R360), a missed
deadline is counted (R369), a landing slot is freed (R404). -/
def State.advanceFiring (s : State) (id n running : Nat) : State :=
  match s.firings.find? fun f => f.id == id with
  | none => s
  | some f =>
    let f' : Firing := { f with next := f.next + n, running := f.running + running }
    let s := { s with firings := s.firings.map fun (g : Firing) => if g.id == id then f' else g }
    let late := (s.effective f).toNat != 0 && decide ((s.effective f).toNat < s.now)
    let s :=
      match f.queue with
      | some q =>
        if f'.next == f'.total then
          s.modTenant f.tenant fun t =>
            let x := tget Queue.reset q t.queues
            { t with queues := tset q { x with busy := none, missed := if late && running != 0 then x.missed + 1 else x.missed } t.queues }
        else s
      | none => s
    s.settleFiring id

/-- Launched plies that have not formed end with their scope (R368). -/
def State.dropFiring (s : State) (f : Firing) : State :=
  let n := f.total - f.next
  let s := s.modScope f.tenant f.record.scope fun c =>
    { c with live := c.live - n * f.record.lanes, ended := c.ended + n * f.record.lanes }
  s.advanceFiring f.id n 0

/-- The plies of a gang whose header read fails end (R241) (log 75). -/
def State.faultLaunch (s : State) (f : Firing) (core : Nat) (w : Word) : State :=
  let r := f.record
  let n := r.gang
  let s := s.modScope f.tenant r.scope fun c => { c with live := c.live - n * r.lanes, ended := c.ended + n * r.lanes }
  let s := s.faultScopes f.tenant [r.scope] w
  let s := s.faultRecord f.tenant ⟨w, r.scope, 0xFFFFFFFF, core, r.entry, 0, 0, maskOf fun i => decide (i < r.lanes)⟩
  s.advanceFiring f.id n 0

/-- The homes that forming ply n on a core fixes (R366). -/
def Firing.fix (f : Firing) (core : Nat) : Firing :=
  let r := f.record
  let new := (List.range r.levels.length).filterMap fun k =>
    let i := f.next / r.radixAfter k
    let scope := ((r.levels[k]?).map (·.scope)).getD 0
    if (scope == 1 || scope == 2) && !f.homes.any fun (j, m, _) => j == k && m == i then
      some (k, i, if scope == 1 then core else clusterOf core)
    else none
  { f with homes := f.homes ++ new }

/-- The index of the path group of a firing's next gang. -/
def Firing.groupIndex (f : Firing) : Nat := f.next / (8 * f.record.gang)

/-- One member of a gang of a firing forms. -/
def State.formMember (s : State) (f : Firing) (core : Nat) (h : Header) (base sw charge m : Nat) : State :=
  let r := f.record
  let core' := r.gang != 1 || r.levels.getLast?.any fun l => l.domain == 1
  let d := s.effective f
  let gang := f.id * 2 ^ 32 + (if r.grouped then f.groupIndex else f.next / r.gang)
  match s.pipeFor core with
  | none => s
  | some pipe =>
    let t : Start :=
      { core := core, pipe := pipe, tenant := f.tenant, plyid := BitVec.ofNat 25 (f.next + m), entry := r.entry, header := h
        gang := if core' then some gang else none, gangsize := r.gang, role := if core' then m else 0, cls := s.launchClass f
        deadline := d, charge := charge, demand := r.demand.toNat, heat := r.heat.toNat, paint := false
        lanes := (List.range r.lanes).map fun i => ⟨i, r.arg, r.scope, true, { LaneInfo.empty with scope := r.scope }⟩
        firing := some f.id, group := if r.grouped then some (clusterOf core, sw) else none
        fixedCore := r.levels.any fun l => l.scope == 1, pointer := some f.args, base := base }
    let (uid, s) := s.formPly t none
    if m == 0 then s.modCore core fun c => c.assignWindow (t.gang.getD uid) base h.xbuf else s

/-- The marks made for a firing are withdrawn (R371). -/
def State.unmark (s : State) (id : Nat) : State :=
  let f := fun (p : Ply) => if p.marked == some id then { p with marked := none } else p
  { s with ply := f s.ply, plies := s.plies.map f }

/-- The next gang of a firing forms on a core. -/
def State.formLaunch (s : State) (f : Firing) (core : Nat) : State :=
  let r := f.record
  match s.headerFor core f.tenant r.entry with
  | .error w => s.faultLaunch f core w
  | .ok h =>
    match s.hosts core r.gang h r.demand.toNat r.heat.toNat with
    | none => s
    | some (charges, base) =>
      let s := (s.keepHeader core r.entry h).unmark f.id
      let g := f.groupIndex
      let sw := (f.widths.lookup g).getD (s.cluster (clusterOf core)).sw.toNat
      let f' := { f.fix core with widths := if r.grouped then (g, sw) :: f.widths.filter fun x => x.1 != g else f.widths }
      let s := { s with firings := s.firings.map fun (x : Firing) => if x.id == f.id then f' else x }
      let s := charges.zipIdx.foldl (fun s (c, m) => s.formMember f core h base sw c m) s
      s.advanceFiring f.id r.gang r.gang

/-! ## Restores (R248, R345, R346, R366) -/

/-- What a saved ply takes on a core, if it is free: pipe, window base, charge. -/
def State.restoreNeeds (s : State) (v : Saved) (core : Nat) (checked : Bool) : Option (Nat × Nat × Nat) :=
  let p := v.ply
  let u := s.vault (vaultOf core)
  let (d, h) := p.placed
  let c := u.chargeFor (s.coreCharge core) d h
  if s.freeRegs core < p.vcount + 64 * p.actiles || (checked && !u.admits (s.vaultCharge (vaultOf core)) c) then none
  else
    match s.pipeFor core, (s.core core).windowFor p.windowSize with
    | some pipe, some base => some (pipe, base, c)
    | _, _ => none

/-- Whether what a saved ply or its core stored there is visible in the cluster: a restore on another core, whose lanes read
their own latest stores, waits for it (R108, R115) (log 67). -/
def State.storesSpread (s : State) (v : Saved) : Bool :=
  s.stores.all fun q => q.core != v.ply.core || (q.uid != v.ply.uid && decide (v.issued < q.seq)) || decide (q.ctime ≤ s.now)
/-- The core on which a pre-empted ply is restored (R346): highest %tar, then lowest index. -/
def State.restoreCore (s : State) (v : Saved) : Option Nat :=
  let cores := if v.ply.fixedCore then [v.ply.core] else coresOf (clusterOf v.ply.core)
  let cores := cores.filter fun k => k == v.ply.core || s.storesSpread v
  let cores := cores.filter fun k =>
    s.open' k && s.powered k && s.inPart v.ply.tenant k && (s.restoreNeeds v k true).isSome
  (sortBy (fun a b => decide (s.tar b < s.tar a)) cores).head?

/-- A saved ply is restored on a core. -/
def State.restore (s : State) (v : Saved) (core : Nat) (checked : Bool) : State :=
  match s.restoreNeeds v core checked with
  | none => s
  | some (pipe, base, charge) =>
    let (age, s) := s.fresh
    let p := s.restoredPly v core pipe age base charge
    let bytes := s.restoredWindow v
    let s := { s with saved := s.saved.filter fun (w : Saved) => w.ply.uid != v.ply.uid, plies := s.plies ++ [p] }
    let s := s.modCore core fun c => c.assignWindow p.gang base p.windowSize
    s.localWrite core .xbuf base bytes

/-! ## The order on a core (R244, R346, R369) -/

/-- What may take place on a core next. -/
inductive Placing where
  | restore (index : Nat)
  | bin (number : Nat)
  | launch (id : Nat)
  deriving DecidableEq, Repr

/-- A candidate with its rank: class, restores first, deadline, age. -/
structure Candidate where
  cls  : Nat
  late : Nat
  deadline : Nat
  age  : Nat
  what : Placing
  deriving DecidableEq, Repr

def Candidate.before (a b : Candidate) : Bool :=
  decide (a.cls < b.cls) || (a.cls == b.cls && (decide (a.late < b.late) || (a.late == b.late &&
    (decide (a.deadline < b.deadline) || (a.deadline == b.deadline && decide (a.age < b.age))))))

/-- The candidates of a core that can take place now, in the order of their ranks. -/
def State.candidates (s : State) (core : Nat) : List Candidate :=
  let rs := s.saved.zipIdx.filterMap fun (v, i) =>
    if !v.gated && s.restoreCore v == some core then
      some (⟨v.ply.cls, 0, deadlineKey v.ply.deadline, v.ply.age, .restore i⟩ : Candidate)
    else none
  let bs := (s.core core).ripeBins.filterMap fun b =>
    if s.mayForm core b && (s.tryBin core b).isSome then
      some (⟨b.cls, 1, b.deadline, b.head, .bin b.number⟩ : Candidate)
    else none
  let fs := s.firings.filterMap fun f =>
    if f.next < f.total && decide (f.firedAt ≤ s.now) && s.launchCore f == some core then
      some (⟨s.launchClass f, 1, deadlineKey (s.effective f), f.firedAt, .launch f.id⟩ : Candidate)
    else none
  sortBy Candidate.before (rs ++ bs ++ fs)

/-- What takes place next on a core. -/
def State.nextPlacing (s : State) (core : Nat) : Option Placing := ((s.candidates core).head?).map (·.what)

/-- PLY_FORMATION (R244): the core forms a ply from the first bin that can, where no placement of the core ranks above. -/
def State.formBin (s : State) (core : Nat) : State :=
  match s.nextPlacing core with
  | some (.bin n) =>
    match (s.core core).ripeBins.find? fun b => b.number == n with
    | some b => (s.tryBin core b).getD s
    | none => s
  | _ => s
def execPlyFormation (core : Nat) (s : State) : Outcome := (s.formBin core).ok

/-- GANG_FORMATION (R245, R368): the next gang, or ply, of a firing forms on a core, or its plies end with its scope. -/
def State.formGang (s : State) (core id : Nat) : State :=
  match s.firings.find? fun f => f.id == id with
  | none => s
  | some f =>
    if f.total ≤ f.next then s
    else if s.scopeCancelled f.tenant f.record.scope then s.dropFiring f
    else if s.nextPlacing core == some (.launch id) then s.formLaunch f core
    else s
def execGangFormation (core launch : Nat) (s : State) : Outcome := (s.formGang core launch).ok

/-- PLY_RESTORE (R248, R346). -/
def State.restoreNext (s : State) (core index : Nat) : State :=
  if s.nextPlacing core == some (.restore index) then
    match s.saved[index]? with
    | some v => s.restore v core true
    | none => s
  else s
def execPlyRestore (core index : Nat) (s : State) : Outcome := (s.restoreNext core index).ok

/-! ## Marks (R371) -/

/-- Whether a core would have room for a gang of n once some of its plies are gone. -/
def State.roomWithout (s : State) (core n : Nat) (h : Header) (gone : List Ply) : Bool :=
  let c := s.core core
  let c' : Core := { c with windows := c.windows.filter fun w => !gone.any fun p => p.gang == w.gang }
  decide (n ≤ s.freeSlots core + gone.length) &&
    decide (n * (h.regs + 64 * h.tiles) ≤ s.freeRegs core + gone.foldl (fun m p => m + p.vcount + 64 * p.actiles) 0) &&
    (c'.windowFor h.xbuf).isSome

/-- The shortest beginning of a list of plies whose release makes room, if any. -/
def State.enough (s : State) (core n : Nat) (h : Header) : (gone rest : List Ply) → Option (List Ply)
  | gone, [] => if s.roomWithout core n h gone then some gone else none
  | gone, p :: l => if s.roomWithout core n h gone then some gone else State.enough s core n h (gone ++ [p]) l

/-- The plies that Clock marks on an allowed core for a firing that can form nowhere (R371): highest class first, youngest
first. -/
def State.toMark (s : State) (f : Firing) (core : Nat) : Option (List Ply) :=
  let r := f.record
  if f.total ≤ f.next || !s.powered core || s.all.any fun p => p.marked == some f.id then none
  else
    match s.headerFor core f.tenant r.entry with
    | .error _ => none
    | .ok h =>
      let c := s.launchClass f
      let ps := sortBy (fun a b => decide (b.cls < a.cls) || (a.cls == b.cls && decide (b.age < a.age)))
        ((s.onCore core).filter fun p => decide (c < p.cls) && p.gangsize == 1 && p.marked.isNone)
      match s.enough core r.gang h [] ps with
      | some [] => none
      | x => x

/-- CLOCK_MARK (R371). -/
def State.mark (s : State) (core id : Nat) : State :=
  match s.firings.find? fun f => f.id == id with
  | none => s
  | some f =>
    match (if (s.launchCore f).isSome || !(s.allowed f).contains core then none else s.toMark f core) with
    | none => s
    | some ps => ps.foldl (fun s p => s.modPly p.uid fun q => { q with marked := some id }) s
def execClockMark (core launch : Nat) (s : State) : Outcome := (s.mark core launch).ok

/-! ## Queues (R359 to R361, R364) -/

def Tenant.queue (t : Tenant) (k : Nat) : Queue := tget Queue.reset k t.queues
def State.modQueue (s : State) (tenant k : Nat) (f : Queue → Queue) : State :=
  s.modTenant tenant fun t => { t with queues := tset k (f (t.queue k)) t.queues }
def Queue.enabled (q : Queue) : Bool := q.ctl.getLsbD 0
def Queue.stopped (q : Queue) : Bool := q.ctl.getLsbD 1
/-- The ring address of the queue's next record. -/
def Queue.at' (q : Queue) : DWord := q.ring + BitVec.ofNat 64 (128 * (q.head.toNat % 2 ^ (q.log2.toNat % 16)))

/-- A word of a tenant's memory as the hub reads it at package scope (log 72). -/
def State.hubRead (s : State) (tenant : Nat) (va : DWord) (n : Nat) : Option Nat :=
  match s.readVirt noCore tenant va n with
  | .ok b => some (leNat b)
  | .error _ => none

/-- A discarded record, or an overrun queue, is reported: ENGINE 25 with its detail (R361, R364). -/
def State.launchFault (s : State) (tenant detail : Nat) (pc : DWord) : State :=
  s.faultRecord tenant ⟨(Cause.mk 0x0E 25 detail 0 127 true).word, 0, 0xFFFFFFFF, 0, pc, 0, 0, 0⟩

/-- A queue whose tail runs ahead of its head by more than the ring stops (R361). -/
def State.checkOverrun (s : State) (tenant k : Nat) : State :=
  let q := (s.tenant tenant).queue k
  if 2 ^ (q.log2.toNat % 16) < (q.tail - q.head).toNat && !q.stopped then
    (s.modQueue tenant k fun q => { q with ctl := q.ctl ||| 2 }).launchFault tenant 8 q.at'
  else s

/-- TAIL_WRITE_REPORT (R360): the hub reads the tail word and the queue deadline word (log 76). -/
def State.report (s : State) (tenant k : Nat) : State :=
  let q := (s.tenant tenant).queue k
  let tail := match s.hubRead tenant q.tailAt 4 with
    | some w => BitVec.ofNat 32 w
    | none => q.tail
  let d := if q.qdead == 0 then 0 else match s.hubRead tenant q.qdead 8 with
    | some x => BitVec.ofNat 64 x
    | none => q.deadline
  let s := { s with reports := s.reports.filter fun (x : Nat × Nat) => x != (tenant, k) }
  let s := s.hubReads tenant q.tailAt 4
  let s := if q.qdead == 0 then s else s.hubReads tenant q.qdead 8
  (s.modQueue tenant k fun q => { q with tail := tail, deadline := d }).checkOverrun tenant k
def execTailWriteReport (tenant queue : Nat) (s : State) : Outcome := (s.report tenant queue).ok

/-- A checked record fires (R364): its plies count in its scope, and wait to form from a ptime on (R372). -/
def State.fire (s : State) (tenant : Nat) (r : Record) (cls : Nat) (queue : Option Nat) (landing : Option DWord)
    (args : DWord) (time : Nat) : State :=
  let (id, s) := s.fresh
  let f : Firing :=
    { id := id, tenant := tenant, record := r, cls := cls, firedAt := time, next := 0, total := r.plies, running := 0
      queue := queue, landing := landing, args := args, homes := [], widths := [] }
  let s := s.modScope tenant r.scope fun c => { c with live := c.live + r.lanes * r.plies }
  { s with firings := s.firings ++ [f] }

/-- Whether a queue may fire its next record (R360). -/
def Queue.ready (q : Queue) : Bool := q.enabled && !q.stopped && q.busy.isNone && q.head != q.tail

/-- LAUNCH_FIRE (R360, R364): the record is checked and fired or discarded, and the head moves on. A record that cannot be
read reads as zeros. -/
def State.fireNext (s : State) (tenant k : Nat) : State :=
  let q := (s.tenant tenant).queue k
  if q.ready then
    let b := match s.readVirt noCore tenant q.at' 128 with
      | .ok b => b
      | .error _ => zeros 128
    let s := s.hubReads tenant q.at' 128
    let s :=
      match Record.parse b with
      | .error d => s.launchFault tenant d q.at'
      | .ok r =>
        if s.scopeTakes tenant r.scope then
          let id := s.seq + 1
          (s.fire tenant r (q.cls.toNat % 4) (some k) none r.args s.now).modQueue tenant k fun q => { q with busy := some id }
        else s.launchFault tenant 7 q.at'
    (s.modQueue tenant k fun q => { q with head := q.head + 1 }).writeVirt 0 noCore tenant (q.tailAt + 4) (wordBytes (q.head + 1))
  else s
def execLaunchFire (tenant queue : Nat) (s : State) : Outcome := (s.fireNext tenant queue).ok

/-- The RW fields of a queue descriptor from its 64 bytes (R359) (log 74). -/
def Queue.load (q : Queue) (b : List Byte) : Queue :=
  { q with
    ring := BitVec.ofNat 64 (num b 0 8)
    tailAt := BitVec.ofNat 64 (num b 8 8)
    qdead := BitVec.ofNat 64 (num b 16 8)
    log2 := BitVec.ofNat 8 (num b 24 1)
    cls := BitVec.ofNat 8 (num b 25 1)
    ctl := BitVec.ofNat 8 (num b 26 1 % 2) }

/-- QUEUE_DESCRIPTOR_WRITE (R359, R361): the queue resumes, with its head from byte 4 of the tail word; it fires from the
next report on. -/
def State.rewriteQueue (s : State) (tenant queue : Nat) (bytes : List Byte) : State :=
  let s := s.modQueue tenant queue fun q => q.load bytes
  let q := (s.tenant tenant).queue queue
  let head := match s.hubRead tenant (q.tailAt + 4) 4 with
    | some w => BitVec.ofNat 32 w
    | none => q.head
  (s.hubReads tenant (q.tailAt + 4) 4).modQueue tenant queue fun q => { q with head := head, tail := head }
def execQueueDescriptorWrite (tenant queue : Nat) (bytes : List Byte) (s : State) : Outcome :=
  (s.rewriteQueue tenant queue bytes).ok

end Sys2Proof.Machine
end

