-- ==== Sys2Proof/Machine/Fabric.lean ====
section
/-!
DEFINITION. The fabric: messages, armed launches, remote puts and gets, collectives, slack control (spec/21 R394 to R409).
What other devices do arrives as events; what goes to the device's own endpoint is performed by the device itself.
-/
namespace Sys2Proof.Machine

/-! ## Issue (R397, R398) -/

/-- The words of a group. -/
def State.group (s : State) (g : BitVec 6) : List Word := (List.range 8).map fun i => s.S (g + BitVec.ofNat 6 i)
def groupWord (l : List Word) (k : Nat) : Nat := ((l[k]?).getD 0).toNat
def groupPair (l : List Word) (k : Nat) : DWord := pair ((l[k]?).getD 0) ((l[k + 1]?).getD 0)
/-- The target in S[G] (R398). -/
def targetOf (w : Nat) : Target := ⟨bits w 19 0, bits w 23 20, bits w 25 24⟩
/-- The first check of R398, but for the fields of the single instruction. -/
def targetBad (w : Nat) (rudi : Bool) : Bool :=
  let m := bits w 25 24
  m == 3 || (m == 2 && !rudi) || bits w 19 0 == 0xFFFFF || bits w 31 26 != 0

/-- The second check of R398: a global range, or one of the ply's XBUF window (R181, R184). -/
def State.localRangeOf (s : State) (va : DWord) (n al : Nat) (store : Bool) : Except Cause LocalRange :=
  let p := s.ply
  if n == 0 then .ok ⟨va, none, [], 0⟩
  else if isLocal va then
    match local64 va with
    | none => .error (localRange 2 va)
    | some (sp, o) =>
      if sp != .xbuf then .error (localRange (if store then 1 else 3) va)
      else if o % al != 0 then .error (align va)
      else if p.windowSize < o + n then .error (localRange 0 (va + BitVec.ofNat 64 (max o p.windowSize - o)))
      else .ok ⟨va, some (p.windowBase + o), [], n⟩
  else if va.toNat / 2 ^ 60 != 0 then .error (noncanon va)
  else if va.toNat % al != 0 then .error (align va)
  else
    match s.range p.tenant (if store then .write else .read) va n with
    | .error c => .error c
    | .ok ps => .ok ⟨va, none, ps, n⟩

/-- A fabric operation enters the engine: one FX operation of the lowest active occupied lane (R398). -/
def State.queueFabric (s : State) (lane : Nat) (k : FabricKind) : State :=
  let scope := ((s.ply.lanes[lane]?).getD LaneInfo.empty).scope
  let (n, s) := s.countOp 2 [scope]
  { s with fabric := s.fabric ++ [⟨n, s.ply.uid, s.ply.tenant, s.ply.core, lane, scope, s.now, false, k, none, 0, [], 0⟩] }

/-- The XLATEs and PROTs of every page of a global range (R378). -/
def State.rangeFaults (s : State) (va : DWord) (n : Nat) (store : Bool) : List Cause :=
  (cutPages (n / 65536 + 2) va n).filterMap fun (a, _) =>
    match s.translate s.ply.tenant (if store then .write else .read) a 127 with
    | .error c => if c.isPage then some c else none
    | .ok _ => none
/-- A checked operation of a group issues, or is suppressed where the path has no active occupied lane. A fault of its local range
comes with every page of it that faults (R378). -/
def State.fabricIssue (s : State) (g : BitVec 6) (store : Bool) (check : Except Cause FabricKind) : State :=
  match s.storeLanes with
  | [] => s.done
  | l :: _ =>
    match check with
    | .error c => s.raise c (if c.isPage then s.rangeFaults (groupPair (s.group g) 4) (groupWord (s.group g) 1) store else [c])
    | .ok k => (s.queueFabric l k).done

/-- MSEND (R398) (log 83). -/
def State.msendCheck (s : State) (g : BitVec 6) : Except Cause FabricKind :=
  let w := s.group g
  let n := groupWord w 1
  if targetBad (groupWord w 0) false || groupWord w 6 != 0 || groupWord w 7 != 0 || decide (4032 < n) then .error (engine 26)
  else
    match s.localRangeOf (groupPair w 4) n 1 false with
    | .error c => .error c
    | .ok r => .ok (.msend (targetOf (groupWord w 0)) (groupPair w 2) r)
def execMsend (g : BitVec 6) (s : State) : Outcome := (s.fabricIssue g false (s.msendCheck g)).ok

/-- What RPUT and RGET share of the first check (R398). -/
def transferBad (w : List Word) : Bool :=
  let n := groupWord w 1
  targetBad (groupWord w 0) true || 256 ≤ groupWord w 2 || groupWord w 7 != 0 || n % 4 != 0 || n == 0 || decide (2 ^ 24 < n) ||
    groupWord w 3 % 4 != 0

/-- RPUT (R398). -/
def State.rputCheck (s : State) (g : BitVec 6) : Except Cause FabricKind :=
  let w := s.group g
  if transferBad w || groupWord w 6 != 0 then .error (engine 26)
  else
    match s.localRangeOf (groupPair w 4) (groupWord w 1) 4 false with
    | .error c => .error c
    | .ok r => .ok (.rput (targetOf (groupWord w 0)) (groupWord w 2) (groupWord w 3) r)
def execRput (g : BitVec 6) (s : State) : Outcome := (s.fabricIssue g false (s.rputCheck g)).ok

/-- RGET (R398): bits [30:0] of its barrier word are read only when [31] is set. -/
def State.rgetCheck (s : State) (g : BitVec 6) : Except Cause FabricKind :=
  let w := s.group g
  let b := groupWord w 6
  if transferBad w then .error (engine 26)
  else
    match s.localRangeOf (groupPair w 4) (groupWord w 1) 4 true with
    | .error c => .error c
    | .ok r =>
      if bits b 31 31 == 1 && (bits b 30 15 != 0 || clusterOf (bits b 14 5) != clusterOf s.ply.core) then .error (engine 11)
      else .ok (.rget (targetOf (groupWord w 0)) (groupWord w 2) (groupWord w 3) r
        (if bits b 31 31 == 1 then some (bits b 14 5, bits b 4 0) else none))
def execRget (g : BitVec 6) (s : State) : Outcome := (s.fabricIssue g true (s.rgetCheck g)).ok

/-! ## The engine's local side (R399 to R402) -/

/-- Bytes that an engine observer of a ply reads at physical pieces. -/
def State.readPieces (s : State) (p : Ply) (seq : Nat) (ps : List (Nat × Nat)) : List Byte :=
  ps.flatMap fun (pa, n) => s.bytesFor p seq 98 pa n
/-- The local data of an operation, as its engine reads it. -/
def State.localData (s : State) (p : Ply) (seq : Nat) (r : LocalRange) : List Byte :=
  match r.loc with
  | some a => s.engineRead ⟨seq, p.uid, some 2, none⟩ p.core .xbuf a r.length
  | none => s.readPieces p seq r.pieces
/-- The 64-byte blocks of a local range, for an RGET that stops: each is wholly written or untouched (R401, R402). -/
def State.keptBlocks (s : State) (a : Nat) (d : List Byte) : (fuel : Nat) → List (Nat × List Byte)
  | 0 => []
  | f + 1 =>
    let k := 64 - a % 64
    if d.isEmpty then []
    else
      let rest := State.keptBlocks s (a + k) (d.drop k) f
      if s.choose (9000000 + a / 64) then (a, d.take k) :: rest else rest

/-- The operation as it writes local spaces (R399). -/
def FabricOp.engine (o : FabricOp) : EngineOp :=
  ⟨o.seq, o.uid, some 2, match o.kind with
    | .rget _ _ _ _ credit => credit
    | _ => none⟩

def State.modFabric (s : State) (seq : Nat) (f : FabricOp → FabricOp) : State :=
  { s with fabric := s.fabric.map fun (o : FabricOp) => if o.seq == seq then f o else o }

/-- Writes the data of an RGET (R399): all of it, or, where its owner ended, whole blocks; the ptime of its performance. XBUF bytes
are credited as they are written, global ones when they are performed; what is left, when it retires (R236). -/
def State.writeLocal (s : State) (o : FabricOp) (r : LocalRange) (d : List Byte) : Nat × State :=
  let cut (a : Nat) (d : List Byte) : List (Nat × List Byte) :=
    if o.cancelled then s.keptBlocks a d (d.length / 64 + 2) else [(a, d)]
  let size (l : List (Nat × List Byte)) : Nat := l.foldl (fun n x => n + x.2.length) 0
  match r.loc with
  | some a =>
    let parts := cut a d
    let t := parts.foldl (fun s (a, b) =>
      let s := s.engineWrite o.engine o.core .xbuf a b
      match o.engine.leaf with
      | some (k, leaf) => s.creditLeaf k leaf (b.length : Int)
      | none => s) s
    (s.now, t.modFabric o.seq fun q => { q with unwritten := r.length - size parts })
  | none =>
    let parts := (r.pieces.foldl (fun (l, d) (pa, n) => (l ++ cut pa (d.take n), d.drop n)) (([] : List (Nat × List Byte)), d)).1
    let (owed, t) := parts.foldl (fun ((l : List (Nat × Nat)), (s : State)) (a, b) =>
      let t := s.arriveN 0 o.core o.tenant 0 0 [o.scope] a b
      (l ++ [(t.latestSince s.seq, b.length)], t)) ([], s)
    (t.latestSince s.seq, t.modFabric o.seq fun q => { q with
      owed := if o.engine.leaf.isSome then owed else []
      unwritten := r.length - size parts })

/-- The target of an operation but a collective. -/
def FabricKind.target : FabricKind → Option Target
  | .rput t _ _ _ | .rget t _ _ _ _ | .msend t _ _ | .notify t _ _ => some t
  | .coll _ _ _ _ _ _ _ _ _ => none
/-- The local address of an operation (R401). -/
def FabricKind.address : FabricKind → DWord
  | .rput _ _ _ r | .rget _ _ _ r _ | .msend _ _ r => r.address
  | .notify _ _ _ => 0
  | .coll _ _ _ _ src _ _ _ _ => src.base

/-- Whether an earlier operation of the same ROD flow is still to be answered (R394, R400). -/
def State.rodHeld (s : State) (o : FabricOp) : Bool :=
  match o.kind.target with
  | some t => t.mode == 1 && s.fabric.any fun q =>
      q.uid == o.uid && decide (q.seq < o.seq) && q.kind.target == some t && (q.answer.isNone || decide (s.now < q.due))
  | none => false
/-- Whether the engine may begin an operation: fences before it are satisfied and its flow is free. -/
def State.mayBegin (s : State) (o : FabricOp) : Bool :=
  !s.rodHeld o && match s.anyPly o.uid with
    | some p => s.engineReady p o.seq true
    | none => true

/-- The failure of an operation for a reason (R401). -/
def fabricFailure (reason : Nat) (addr : DWord) : Failure := ⟨2, BitVec.ofNat 16 (reason * 256 + 0x0E), addr⟩

/-- The reason for which a region refuses a request, if it does (R401): a job identifier that is not the tenant's among them
(R395). -/
def State.refusal (s : State) (tenant source job region offset n : Nat) (write : Bool) : Option Nat :=
  let r := tget (⟨0, 0, false, false, 0, 0⟩ : Region) region (s.tenant tenant).regions
  if job != (s.tenant tenant).job || r.length == 0 || (BitVec.ofNat 20 source ^^^ r.matchBits) &&& r.mask != 0 then some 3
  else if r.length < offset + n then some 4
  else if !(if write then r.write else r.read) then some 5
  else none
/-- The virtual address of an offset in a region. -/
def State.regionAddress (s : State) (tenant region offset : Nat) : DWord :=
  (tget (⟨0, 0, false, false, 0, 0⟩ : Region) region (s.tenant tenant).regions).base + BitVec.ofNat 64 offset

/-- The device performs a store into a tenant's memory: the ptime of its performance. A range that is not mapped writable
takes nothing (log 12) (log 43). -/
def State.hubStore (s : State) (tenant : Nat) (va : DWord) (d : List Byte) : Nat × State :=
  let t := s.writeVirt 0 noCore tenant va d
  (t.latestSince s.seq, t)

/-- The bytes of a region as the target gives them to an RGET, up to the first that fails (R351, R401). -/
def State.targetData (s : State) (tenant region offset n : Nat) : List Byte :=
  match s.range tenant .read (s.regionAddress tenant region offset) n with
  | .error _ => []
  | .ok ps =>
    let bytes := ps.flatMap fun (pa, k) => (s.phys pa k).zipIdx.map fun (b, i) => (b, s.bad (pa + i) 1)
    (bytes.takeWhile fun x => !x.2).map (·.1)

/-- What an RGET or RPUT that fails for reason 1 or 9 has moved (R401): each 64-byte block of its destination is wholly written
or untouched, freely; a block that the target's failing bytes would fill is untouched. The bytes of the written blocks of an RGET from
another device are free (log 85). A put to another device leaves this one as it is. -/
def State.failedMoves (s : State) (o : FabricOp) (reason : Nat) : State :=
  if reason == 1 || reason == 9 then
    match o.kind with
    | .rget t region off r _ =>
      let d :=
        if t.endpoint == s.endpoint then s.targetData t.tenant region off r.length
        else (List.range r.length).map (Config.undefinedByte s.tick)
      let d := if d.length == r.length then d else d.take (d.length - min d.length ((r.address.toNat + d.length) % 64))
      (s.writeLocal { o with cancelled := true } r d).2
    | .rput t region off r =>
      if t.endpoint == s.endpoint && (s.refusal t.tenant s.endpoint (s.tenant o.tenant).job region off r.length true).isNone then
        match s.anyPly o.uid with
        | some p =>
          (s.keptBlocks (s.regionAddress t.tenant region off).toNat (s.localData p o.seq r) (r.length / 64 + 2)).foldl
            (fun s (a, d) => (s.hubStore t.tenant (BitVec.ofNat 64 a) d).2) s
        | none => s
      else s
    | _ => s
  else
    match o.kind with
    | .rget _ _ _ r _ => s.modFabric o.seq fun q => { q with unwritten := r.length }
    | _ => s

/-- An operation fails; the hub's own only goes to the fault queue (R405). -/
def State.failFabric (s : State) (o : FabricOp) (f : Failure) : State :=
  let s := (s.failedMoves o (f.detail.toNat / 256)).modFabric o.seq fun o =>
    { o with answer := some (.failed (f.detail.toNat / 256)), due := s.now }
  if o.uid == 0 then
    (State.faultRecord { s with fabric := s.fabric.filter fun (q : FabricOp) => q.seq != o.seq } o.tenant
      ⟨(Cause.mk 0x0E 13 f.detail.toNat f.addr 127 true).word, 0, 0xFFFFFFFF, 0, 0, f.addr, 0, 0⟩)
  else s.failOp o.seq f

/-- What leaves the device for another endpoint. -/
def State.send (s : State) (o : FabricOp) : State :=
  let own := s.endpoint
  let data (r : LocalRange) : List Byte := match s.anyPly o.uid with
    | some p => s.localData p o.seq r
    | none => []
  let out (m : Outgoing) : State := if m.endpoint == own then s else { s with outgoing := s.outgoing ++ [m] }
  match o.kind with
  | .rput t region off r => out ⟨t.endpoint, t.tenant, 0, BitVec.ofNat 64 (region * 2 ^ 32 + off), data r⟩
  | .msend t tag r => out ⟨t.endpoint, t.tenant, 1, tag, data r⟩
  | .notify t tag d => out ⟨t.endpoint, t.tenant, 1, tag, d⟩
  | _ => s

/-- An operation has been answered: done is written and sent, or it fails. -/
def State.answerFabric (s : State) (o : FabricOp) (a : FabricAnswer) : State :=
  match a with
  | .failed r => s.failFabric o (fabricFailure r o.kind.address)
  | .done d =>
    match o.kind with
    | .rget _ _ _ r _ =>
      let (t, s) := s.writeLocal o r d
      s.modFabric o.seq fun o => { o with answer := some a, due := t }
    | _ => (if o.cancelled then s else s.send o).modFabric o.seq fun o => { o with answer := some a, due := max o.due s.now }

/-- A performed operation is complete (R399). -/
def State.endFabric (s : State) (o : FabricOp) : State :=
  if o.uid == 0 then { s with fabric := s.fabric.filter fun (q : FabricOp) => q.seq != o.seq } else s.complete o.seq
/-- The global bytes of an RGET that are performed now are credited to its leaf (R236, R399). -/
def State.payFabric (s : State) (o : FabricOp) : State :=
  match o.engine.leaf with
  | none => s
  | some (core, leaf) =>
    let s := s.modFabric o.seq fun q => { q with owed := q.owed.filter fun w => decide (s.now < w.1) }
    (o.owed.filter fun w => decide (w.1 ≤ s.now)).foldl (fun (s : State) w => s.creditLeaf core leaf (w.2 : Int)) s
/-- Whether an answered operation is open: the hub's own, or one that is not complete. -/
def State.fabricOpen (s : State) (o : FabricOp) : Bool :=
  o.uid == 0 || s.counted.any fun (c : Counted) => c.seq == o.seq && !c.complete
/-- Whether an operation that is done has something to do now: bytes to credit, or to be complete. -/
def State.fabricDue (s : State) (o : FabricOp) : Bool :=
  o.owed.any (fun w => decide (w.1 ≤ s.now)) || (decide (o.due ≤ s.now) && s.fabricOpen o)

/-- Whether an answer fits the operation: a collective has its own; the data of a get has its length. -/
def FabricOp.takes (o : FabricOp) (a : FabricAnswer) : Bool :=
  match o.kind, a with
  | .coll _ _ _ _ _ _ _ _ _, _ => false
  | .rget _ _ _ r _, .done d => d.length == r.length || o.cancelled
  | _, _ => true

/-- FABRIC_RETIRE (R399): the target's answer reaches the operation; once it is performed it is complete, to retire in its
order. -/
def State.retireFabric (s : State) (seq : Nat) (a : FabricAnswer) : State :=
  let settle (s : State) : State :=
    match s.fabric.find? fun (o : FabricOp) => o.seq == seq with
    | some o =>
      match o.answer with
      | some (.done _) =>
        if s.fabricDue o then
          let t := s.payFabric o
          if o.due ≤ s.now then t.endFabric o else t
        else s
      | some (.failed _) => s.payFabric o
      | none => s
    | none => s
  match s.fabric.find? fun (o : FabricOp) => o.seq == seq with
  | none => s
  | some o =>
    match o.answer with
    | some _ => settle s
    | none => if o.takes a && (o.cancelled || s.mayBegin o) then settle (s.answerFabric o a) else s
def execFabricRetire (op : Nat) (answer : FabricAnswer) (s : State) : Outcome := (s.retireFabric op answer).ok

/-- TIMEOUT (R401): the transport has not completed an operation within fabto. -/
def State.timeoutFabric (s : State) (seq : Nat) : State :=
  match s.fabric.find? fun (o : FabricOp) => o.seq == seq with
  | none => s
  | some o =>
    if o.answer.isNone && o.kind.target.isSome && o.issuedAt + 1000 * (s.tenant o.tenant).fabto ≤ s.now then
      s.failFabric o (fabricFailure 1 o.kind.address)
    else s
def execTimeout (op : Nat) (s : State) : Outcome := (s.timeoutFabric op).ok

/-! ## The target's side (R396, R399, R401) -/

/-- The first unanswered operation of the device itself that a predicate picks takes its answer. -/
def State.answerLoop (s : State) (pick : FabricOp → Bool) (a : FabricAnswer) (due : Nat) : State :=
  match s.fabric.find? fun (o : FabricOp) => o.answer.isNone && pick o with
  | none => s
  | some o =>
    match a with
    | .failed r => s.failFabric o (fabricFailure r o.kind.address)
    | .done _ => s.answerFabric { o with due := due } a |>.modFabric o.seq fun q => { q with due := max q.due due }

/-- A refused request is also reported to the target tenant. -/
def State.reportRefusal (s : State) (tenant source : Nat) : State :=
  s.faultRecord tenant ⟨(engine 26).word, 0, 0xFFFFFFFF, 0, 0, BitVec.ofNat 64 source, 0, 0⟩
/-- A put of the device itself in mode RUDI that is done and still outstanding: a packet of it may be retried (R400). -/
def State.retriable (s : State) (o : FabricOp) : Bool :=
  match o.kind, o.answer with
  | .rput t _ _ _, some (.done _) => t.mode == 2 && t.endpoint == s.endpoint && s.fabricOpen o
  | _, _ => false
/-- REMOTE_PUT_ARRIVAL (R399). A put of the device itself whose owner has ended stops between 64-byte blocks (R402). One that has been
performed and arrives again is a retry of its packets: each aligned word is, freely, written again (R400). -/
def State.remotePut (s : State) (tenant source job region offset : Nat) (data : List Byte) : State :=
  let mine (o : FabricOp) : Bool := source == s.endpoint && match o.kind with
    | .rput t g f r => t.endpoint == s.endpoint && t.tenant == tenant && g == region && f == offset && r.length == data.length
    | _ => false
  match s.refusal tenant source job region offset data.length true with
  | some r => (s.reportRefusal tenant source).answerLoop mine (.failed r) 0
  | none =>
    let va := s.regionAddress tenant region offset
    let again := if s.fabric.any fun o => o.answer.isNone && mine o then none else s.fabric.find? fun o => mine o && s.retriable o
    let parts := if again.isSome then
        ((List.range (data.length / 4)).filter s.choose).map fun i => (va + BitVec.ofNat 64 (4 * i), slice data (4 * i) 4)
      else if s.fabric.any fun o => o.answer.isNone && mine o && o.cancelled then
        (s.keptBlocks va.toNat data (data.length / 64 + 2)).map fun (a, d) => (BitVec.ofNat 64 a, d)
      else [(va, data)]
    let (t, s) := parts.foldl (fun (t, (s : State)) (a, d) =>
      let (u, s) := s.hubStore tenant a d
      (max t u, s)) (s.now, s)
    match again with
    | some o => s.modFabric o.seq fun q => { q with due := max q.due t }
    | none => s.answerLoop mine (.done data) t
def execRemotePutArrival (tenant : Nat) (source : Sender) (region offset : Nat) (data : List Byte) (s : State) : Outcome :=
  (s.remotePut tenant source.endpoint source.job region offset data).ok

/-- REMOTE_GET_ARRIVAL (R399): the bytes as they are at package scope go back to the source. -/
def State.remoteGet (s : State) (tenant source job region offset length : Nat) : State :=
  let mine (o : FabricOp) : Bool := source == s.endpoint && match o.kind with
    | .rget t g f r _ => t.endpoint == s.endpoint && t.tenant == tenant && g == region && f == offset && r.length == length
    | _ => false
  let fail (r : Nat) : State := (s.reportRefusal tenant source).answerLoop mine (.failed r) 0
  match s.refusal tenant source job region offset length false with
  | some r => fail r
  | none =>
    match s.range tenant .read (s.regionAddress tenant region offset) length with
    | .error _ => fail 3
    | .ok ps =>
      if ps.any fun (pa, n) => s.bad pa n then fail 9
      else
        let d := ps.flatMap fun (pa, n) => s.phys pa n
        let s := s.hubReads tenant (s.regionAddress tenant region offset) length
        if source == s.endpoint then s.answerLoop mine (.done d) s.now
        else { s with outgoing := s.outgoing ++ [⟨source, tenant, 2, BitVec.ofNat 64 (region * 2 ^ 32 + offset), d⟩] }
def execRemoteGetArrival (tenant : Nat) (source : Sender) (region offset length : Nat) (s : State) : Outcome :=
  (s.remoteGet tenant source.endpoint source.job region offset length).ok

/-! ## Messages and armed launches (R403, R404) -/

/-- MARM and MDISARM are answered by the hub, in the ply's issue order (R403). -/
def execMarm (g d : BitVec 6) (s : State) : Outcome := ((s.pushHub (.marm d (s.group g))).done).ok
def execMdisarm (t d : BitVec 6) (s : State) : Outcome := ((s.pushHub (.mdisarm d (s.S64 t))).done).ok

/-- MARM at the hub: its status, in the order of R403's table, and the table after it (log 84). -/
def State.arm (s : State) (tenant : Nat) (w : List Word) : Nat × State :=
  let tag := groupPair w 0
  let ring := groupPair w 4
  let log2 := groupWord w 6
  let flags := groupWord w 7
  let t := s.tenant tenant
  if t.armed.any fun a => a.tag == tag then (1, s)
  else if 1024 ≤ t.armed.length then (2, s)
  else
    let r := match s.readVirt noCore tenant (groupPair w 2) 128 with
      | .ok b => Record.parse b
      | .error _ => .error 2
    let writable := match s.range tenant .write ring (4096 * 2 ^ log2) with
      | .ok _ => true
      | .error _ => false
    if 8 < log2 || 8 ≤ flags || bits flags 2 1 == 3 || ring.toNat % 4096 != 0 || !writable then (3, s)
    else
      match r with
      | .error _ => (3, s)
      | .ok r =>
        if bits tag.toNat 63 56 == 0xFF then (4, s)
        else
          let a : Armed := ⟨tag, r, ring, BitVec.ofNat 4 log2, bits flags 0 0 == 1, bits flags 2 1, 0⟩
          (0, (s.hubReads tenant (groupPair w 2) 128).modTenant tenant fun t => { t with armed := t.armed ++ [a] })
/-- MDISARM at the hub. -/
def State.disarm (s : State) (tenant : Nat) (tag : DWord) : Nat × State :=
  if (s.tenant tenant).armed.any fun a => a.tag == tag then
    (0, s.modTenant tenant fun t => { t with armed := t.armed.filter fun a => a.tag != tag })
  else (1, s)

/-- A landing slot as the hub writes it (R404). -/
def landingBytes (m : Message) (stamp : DWord) : List Byte :=
  dwordBytes m.tag ++ leBytes 4 m.payload.length ++ leBytes 4 (m.source % 2 ^ 20 + m.sender % 16 * 2 ^ 20) ++ dwordBytes stamp ++
    zeros 40 ++ m.payload

/-- A message that has landed fires the copied record (R404, R364): the plies of the firing form as the hub's order takes them, or
the record is discarded. A once launch is disarmed. -/
def State.fireLanding (s : State) (l : Landing) : State :=
  let id := s.seq + 1
  let fires := s.scopeTakes l.tenant l.record.scope
  let s := if fires then s.fire l.tenant l.record l.cls none (some l.slot) l.slot l.due else s.launchFault l.tenant 7 l.slot
  s.modTenant l.tenant fun t =>
    { t with
      armed := if l.once then t.armed.filter fun a => a.tag != l.tag else t.armed
      busySlots := if fires then t.busySlots ++ [(l.slot, id)] else t.busySlots }
/-- The messages whose slots are performed fire, in the order of their arrival (R404) (log 102). -/
def State.fireLanded (s : State) : State :=
  s.landings.foldl (fun s l => if s.now < l.due then { s with landings := s.landings ++ [l] } else s.fireLanding l)
    { s with landings := [] }

/-- MESSAGE_ARRIVAL (R404): the message lands in the next slot, to fire the armed launch once the slot is performed, or is
discarded. One of another job is dropped (R395). -/
def State.land (s : State) (m : Message) : State :=
  let mine (o : FabricOp) : Bool := m.source == s.endpoint && o.tenant == m.sender && match o.kind with
    | .msend t tag r => t.endpoint == s.endpoint && t.tenant == m.tenant && tag == m.tag && r.length == m.payload.length
    | .notify t tag d => t.endpoint == s.endpoint && t.tenant == m.tenant && tag == m.tag && d.length == m.payload.length
    | _ => false
  if m.job != (s.tenant m.tenant).job then (s.reportRefusal m.tenant m.source).answerLoop mine (.failed 3) 0
  else
    match (s.tenant m.tenant).armed.find? fun (a : Armed) => a.tag == m.tag with
    | none => s.answerLoop mine (.failed 6) 0
    | some a =>
      let at' := a.ring + BitVec.ofNat 64 (4096 * (a.next % 2 ^ a.log2.toNat))
      if (s.tenant m.tenant).busySlots.any fun b => b.1 == at' then s.answerLoop mine (.failed 7) 0
      else
        let (t, s) := s.hubStore m.tenant at' (landingBytes m s.ptime)
        let s := s.modTenant m.tenant fun t =>
          { t with armed := t.armed.map fun (x : Armed) => if x.tag == a.tag then { x with next := x.next + 1 } else x }
        let s := { s with landings := s.landings ++ [(⟨m.tenant, at', t, a.record, a.cls, a.tag, a.once⟩ : Landing)] }
        (s.answerLoop mine (.done []) t).fireLanded
def execMessageArrival (message : Message) (s : State) : Outcome := (s.land message).ok

/-! ## Collectives (R407, R408) -/

def Comm.none : Comm := ⟨[], [], false⟩
def State.comm (s : State) (tenant c : Nat) : Comm := tget Comm.none c (s.tenant tenant).comms
/-- The rank of an endpoint. -/
def Comm.rank (c : Comm) (endpoint : Nat) : Option Nat :=
  (c.members.zipIdx.find? fun x => x.1 == endpoint).map (·.2)
/-- Units of a walk. -/
def Walk.count (w : Walk) : Nat := w.ext.foldl (· * ·) 1

/-- COLL at issue (R407), in the order of its list; a local walk stays within its space or window (log 17) (log 86). -/
def State.collCheck (s : State) (g : BitVec 6) : Except Cause FabricKind :=
  let p := s.ply
  let w := s.group g
  let kind := bits (groupWord w 0) 1 0
  let op := bits (groupWord w 0) 5 2
  let comm := bits (groupWord w 1) 5 0
  let root := groupWord w 4
  let h (k : Nat) : Word := (w[k]?).getD 0
  let shape (h : Word) : Cause := cause 0x0D 0 (h.zeroExtend 64)
  match s.shapeOf p.tenant (h 2), s.shapeOf p.tenant (h 3) with
  | none, _ => .error (shape (h 2))
  | _, none => .error (shape (h 3))
  | some a, some b =>
    let src : ShapeUse := ⟨a, a.ext, a.stride, unitSize a.fmt⟩
    let dst : ShapeUse := ⟨b, b.ext, b.stride, unitSize b.fmt⟩
    let ws := p.walkOf src
    let wd := p.walkOf dst
    let e := ws.count
    let c := s.comm p.tenant comm
    let n := c.members.length
    let reduces := kind == 0 || kind == 2
    let counts := match kind with
      | 1 => wd.count == n * e
      | 2 => n != 0 && e % n == 0 && wd.count == e / n
      | _ => wd.count == e
    if a.fmt != b.fmt || (reduces && !([0, 1, 2, 9].contains a.fmt)) || (n != 0 && !counts) then .error (engine 8)
    else if n == 0 || (c.rank s.endpoint).isNone || (kind == 3 && n ≤ root) || (kind != 3 && root != 0) || 2 < op ||
        groupWord w 0 / 64 != 0 || groupWord w 1 / 64 != 0 || groupWord w 5 != 0 || groupWord w 6 != 0 || groupWord w 7 != 0 then
      .error (engine 26)
    else
      match p.beyond wd dst.unit (tuples wd.ext) ++ p.beyond ws src.unit (tuples ws.ext) with
      | o :: os => .error (localRange 0 (BitVec.ofNat 64 (os.foldl min o)))
      | [] => .ok (.coll kind op comm root ws wd a.fmt e (tget 0 comm (s.tenant p.tenant).issued))

/-- COLL issues: the next instance of its communicator on this device (R408). -/
def State.collIssue (s : State) (g : BitVec 6) : State :=
  if s.path.member != Mask.full || s.active != Mask.full then s.raiseConverge
  else
    match s.collCheck g with
    | .error c => s.raise c
    | .ok k =>
      match s.storeLanes, k with
      | l :: _, .coll _ _ comm _ _ _ _ _ i =>
        ((s.modTenant s.ply.tenant fun t => { t with issued := tset comm (i + 1) t.issued }).queueFabric l k).done
      | _, _ => s.done

/-- COLL all-reduce (R407). -/
def execCollAllReduce (g : BitVec 6) (s : State) : Outcome := (s.collIssue g).ok
/-- COLL all-gather (R407). -/
def execCollAllGather (g : BitVec 6) (s : State) : Outcome := (s.collIssue g).ok
/-- COLL reduce-scatter (R407). -/
def execCollReduceScatter (g : BitVec 6) (s : State) : Outcome := (s.collIssue g).ok
/-- COLL broadcast (R407). -/
def execCollBroadcast (g : BitVec 6) (s : State) : Outcome := (s.collIssue g).ok

/-- One step of a fold (R408): operation 0 ADD, 1 MIN, 2 MAX, on elements of a format. -/
def collStep (fmt op a b : Nat) : Nat :=
  let fl (f : Fmt) : Nat := if op == 0 then (f.add 0 a b).1 else (f.minmax (op == 2) false a b).1
  match fmt with
  | 0 => fl fp32
  | 1 => fl fp16
  | 2 => fl bf16
  | _ =>
    let x : Word := BitVec.ofNat 32 a
    let y : Word := BitVec.ofNat 32 b
    if op == 0 then (x + y).toNat else if (decide (x.toInt ≤ y.toInt)) == (op == 1) then a else b

/-- One level of a fold: groups of q consecutive values, each folded in order. -/
def foldGroups (f : Nat → Nat → Nat) (q : Nat) : (fuel : Nat) → List Nat → List Nat
  | 0, _ => []
  | n + 1, l =>
    match l.take q with
    | [] => []
    | x :: xs => xs.foldl f x :: foldGroups f q n (l.drop q)
/-- The fold of one element over the ranks (R408). -/
def foldRanks (fmt op : Nat) (radices : List Nat) (l : List Nat) : Nat :=
  (radices.foldl (fun l q => foldGroups (collStep fmt op) q (l.length + 1) l) l).headD 0

/-- Unit k of a contribution. -/
def unitAt (u : Nat) (d : List Byte) (k : Nat) : List Byte := slice d (u * k) u

/-- The units of a member's destination (R408). -/
def collResult (kind op root fmt units rank : Nat) (radices : List Nat) (all : List (List Byte)) : List (List Byte) :=
  let u := unitSize fmt
  let n := all.length
  let reduced (k : Nat) : List Byte := leBytes u (foldRanks fmt op radices (all.map fun d => leNat (unitAt u d k)))
  match kind with
  | 0 => (List.range units).map reduced
  | 1 => all.flatMap fun d => (List.range units).map (unitAt u d)
  | 2 => (List.range (units / n)).map fun k => reduced (rank * (units / n) + k)
  | _ => (List.range units).map (unitAt u ((all[root]?).getD []))

/-- The units of a walk that is read, in its order; what is read goes nowhere yet. -/
def Walk.unitsFrom (w : Walk) (n : Nat) : List CopyUnit := (tuples w.ext).map fun t => ⟨.loc .sbuf 0, some (w.place t), [], n⟩
/-- The units of a walk that is written, in its order. -/
def Walk.unitsTo (w : Walk) (n : Nat) : List CopyUnit := (tuples w.ext).map fun t => ⟨w.place t, none, [], n⟩

/-- COLL_INSTANCE_COMPLETE (R408): what every member brought, by rank; this device brings its own source. -/
def State.endColl (s : State) (seq : Nat) (members : List Contribution) : State :=
  match s.fabric.find? fun (o : FabricOp) => o.seq == seq with
  | none => s
  | some o =>
    match o.kind, s.anyPly o.uid, o.answer with
    | .coll kind op comm root src dst fmt units _, some p, none =>
      let c := s.comm o.tenant comm
      match c.rank s.endpoint with
      | none => s
      | some rank =>
        if members.length != c.members.length || !s.engineReady p seq true then s
        else
          let u := unitSize fmt
          let own := s.readUnits { p with tenant := o.tenant } seq (src.unitsFrom u)
          let others := members.zipIdx.filter fun x => x.2 != rank
          let times := o.issuedAt :: others.map fun (m, _) => m.issuedAt
          let first := times.foldl min o.issuedAt
          let last := times.foldl max o.issuedAt
          let agree := others.all fun (m, _) => m.kind == kind && m.op == op && m.fmt == fmt && m.count == units
          let dsts := s.readUnits { p with tenant := o.tenant } seq (dst.unitsTo u)
          match (own ++ dsts).findSome? fun r => r.fault with
          | some f => s.failFabric o ⟨2, BitVec.ofNat 16 f.code, f.addr⟩
          | none =>
            if !agree then s.failFabric o (fabricFailure 8 o.kind.address)
            else if first + 1000 * (s.tenant o.tenant).colto < last then s.failFabric o (fabricFailure 1 o.kind.address)
            else
              let all := members.zipIdx.map fun (m, i) => if i == rank then own.flatMap (·.data) else m.data
              let data := collResult kind op root fmt units rank c.radices all
              let (t, s) := s.writeUnits o.engine o.core o.tenant 0 [o.scope] ((dsts.zip data).map fun (r, d) => { r with data := d })
              let s := s.modFabric seq fun o => { o with answer := some (.done []), due := t }
              s.modTenant o.tenant fun x => { x with window := x.window ++ [(last - o.issuedAt, t)] }
    | .coll _ _ _ _ _ _ _ _ _, _, some (.done _) =>
      if o.due ≤ s.now && s.counted.any (fun c => c.seq == seq && !c.complete) then s.complete seq else s
    | _, _, _ => s
def execCollInstanceComplete (op : Nat) (members : List Contribution) (s : State) : Outcome := (s.endColl op members).ok

/-- COLL_TIMEOUT (R408): some member has not issued the instance within colto of the first member's issue, which is this member's own
or an earlier one that the event tells. -/
def State.timeoutColl (s : State) (seq first : Nat) : State :=
  match s.fabric.find? fun (o : FabricOp) => o.seq == seq with
  | none => s
  | some o =>
    if o.answer.isNone && o.kind.target.isNone && min first o.issuedAt + 1000 * (s.tenant o.tenant).colto ≤ s.now then
      s.failFabric o (fabricFailure 1 o.kind.address)
    else s
def execCollTimeout (op : LateInstance) (s : State) : Outcome := (s.timeoutColl op.op op.first).ok

/-! ## Slack control (R409) -/

/-- The slacks of a window of instances, added up, and the time from its first completion to its last (R409). -/
def slackSum (l : List (Nat × Nat)) : Nat := l.foldl (fun n x => n + x.1) 0
def slackSpan (l : List (Nat × Nat)) : Nat := ((l.getLast?.map (·.2)).getD 0) - ((l.head?.map (·.2)).getD 0)
/-- What slack control decides over a window of 16 instances (R409) (log 87): slower where the mean slack of the member is above a
tenth of the mean interval between completions, faster where it is 0 in all of them. -/
def slackVerdict (sum span : Nat) : Int :=
  -- sum / 16 against (span / 15) / 10
  if 16 * span < 150 * sum then 1 else if sum == 0 then -1 else 0
/-- SLACK_CONTROL: after 16 instances the clusters of the tenant's partition move by a step, within their limits, where their last
move is 2 ms old (R409). Measures that are not those of the window are of no instance, and change nothing. -/
def State.controlSlack (s : State) (tenant sum span : Nat) : State :=
  let t := s.tenant tenant
  let w := t.window.take 16
  if !t.slack || t.window.length < 16 || sum != slackSum w || span != slackSpan w then s
  else
    let v := slackVerdict sum span
    let s := s.modTenant tenant fun t => { t with window := t.window.drop 16 }
    (s.partClusters tenant).foldl (fun s c =>
      let x := s.cluster c
      let n := if v == 1 then (if x.step.toNat + x.slackStep < 4 then x.slackStep + 1 else x.slackStep)
        else if v == -1 then x.slackStep - 1 else x.slackStep
      if n == x.slackStep || (x.slackAt != 0 && s.now < x.slackAt + 2000000) then s
      else (s.setCluster c { x with slackStep := n, slackAt := s.now }).requestStep c) s
def execSlackControl (tenant slack interval : Nat) (s : State) : Outcome := (s.controlSlack tenant slack interval).ok

end Sys2Proof.Machine
end

