-- ==== Sys2Proof/Machine/Fifo.lean ====
section
/-!
DEFINITION. The vertical register FIFOs: VFPUSH, VFPOP and their resumption (spec/16 R347 to R349, R351).
-/
namespace Sys2Proof.Machine

/-- The other core of a vertical pair (R6, R347). -/
def partner (core : Nat) : Nat := if isUpper core then core - 64 else core + 64

/-- Whether the partner core is retired or lies in another partition (R348). -/
def State.partnerAbsent (s : State) (core : Nat) : Bool :=
  (s.core (partner core)).retired || s.partOf (partner core) != s.partOf core

/-- The FIFO that a core pushes into, or pops from, is replaced. -/
def State.setPushFifo (s : State) (core : Nat) (l : List (Lanes × Bool)) : State :=
  let f := s.fifo (vaultOf core)
  s.setFifo (vaultOf core) (if isUpper core then { f with down := l } else { f with up := l })
def State.setPopFifo (s : State) (core : Nat) (l : List (Lanes × Bool)) : State :=
  let f := s.fifo (vaultOf core)
  s.setFifo (vaultOf core) (if isUpper core then { f with up := l } else { f with down := l })

/-- Appends an entry (R348). -/
def State.pushEntry (s : State) (core : Nat) (v : Lanes) : State := s.setPushFifo core (s.pushFifo core ++ [(v, false)])

/-- Whether another ply of a core waits to push: pushes enter in issue order (R347). -/
def State.pushersWait (s : State) (core : Nat) : Bool :=
  (s.onCore core).any fun p => match p.cur.wait with
    | .vfpush _ => true
    | _ => false

/-- The oldest entry enters the active lanes of a ply's path; a failing one ends the path's occupied lanes (R348, R351). -/
def State.popEntry (s : State) (p : Ply) (v : BitVec 7) (pc : DWord) (put : State → (Ply → Ply) → State) : State :=
  match s.popFifo p.core with
  | [] => s
  | (x, bad) :: l =>
    let s := s.setPopFifo p.core l
    if bad then s.endByFault p.uid p.cur.member (memerr 4 5) pc 0 0
    else put s fun q => q.putVLanes v p.cur.active x.at

/-- VFPUSH (R348). -/
def execVfpush (v : BitVec 7) (s : State) : Outcome :=
  (s.checkV [v] <|
    let core := s.ply.core
    if s.partnerAbsent core then s.raise (cause 0x11 0 s.theWord)
    else s.killHere State.done fun s =>
      if 16 ≤ (s.pushFifo core).length || s.pushersWait core then s.beginWait (.vfpush v)
      else (s.pushEntry core (s.V v)).done).ok

/-- VFPOP (R348). -/
def execVfpop (v : BitVec 7) (s : State) : Outcome :=
  (s.checkV [v] <|
    let core := s.ply.core
    if s.partnerAbsent core then s.raise (cause 0x11 1 s.theWord)
    else s.killHere State.done fun s =>
      if (s.popFifo core).isEmpty then s.beginWait (.vfpop v)
      else
        let u := s.ply.uid
        let s := s.popEntry s.ply v s.issue.first fun s f => { s with ply := f s.ply }
        if s.ply.uid == u then s.done else s).ok

/-- Whether a waiting VFPUSH of a ply is the longest-waiting one of its core. -/
def State.firstPusher (s : State) (p : Ply) : Bool :=
  (s.onCore p.core).all fun q => match q.cur.wait with
    | .vfpush _ => decide (p.cur.since ≤ q.cur.since)
    | _ => true

/-- A waiting push finds room, or a waiting pop an entry. -/
def State.resumeFifo (s : State) (uid : Nat) : State :=
  match s.find uid with
  | none => s
  | some p =>
    match p.cur.wait with
    | .vfpush v =>
      if (s.pushFifo p.core).length < 16 && s.firstPusher p then
        (s.pushEntry p.core (p.getV v)).modPly uid fun q => q.finishWait s.now
      else s
    | .vfpop v =>
      if (s.popFifo p.core).isEmpty then s
      else (s.popEntry p v p.cur.pc fun s f => s.modPly uid f).modPly uid fun q => q.finishWait s.now
    | _ => s

/-- VFIFO_PUSH_RESUME (R348). -/
def execVfifoPushResume (ply : Nat) (s : State) : Outcome :=
  (match (s.plyOf ply).cur.wait with
  | .vfpush _ => s.resumeFifo ply
  | _ => s).ok
/-- VFIFO_POP_RESUME (R348). -/
def execVfifoPopResume (ply : Nat) (s : State) : Outcome :=
  (match (s.plyOf ply).cur.wait with
  | .vfpop _ => s.resumeFifo ply
  | _ => s).ok

end Sys2Proof.Machine
end

