-- ==== Sys2Proof/Machine/Paths.lean ====
section
/-!
DEFINITION. The path unit, the tiler and the paint commit unit: PBEGIN, PVIEW, PSEGL, PSEGQ, PEND, PSCAN, PCLIP, PUNCLIP,
PCELL, PBLEND, deposits, scans and commits (spec/12 R269 to R293, spec/01 R39, R40, spec/15 R315 to R318).
-/
namespace Sys2Proof.Machine

/-! ## Views and flattening (R276, R277) -/

/-- n / d rounded to an integer, ties to even. -/
def rneDiv (n : Int) (d : Nat) : Int :=
  let q := n / d
  let r := n % d
  if 2 * r > d || (2 * r == d && q % 2 == 1) then q + 1 else q

/-- A transformed point (R276). -/
def View.map (v : View) (p : Int × Int) : Int × Int :=
  let i32 (x : Int) : Int := clamp (-2 ^ 31) (2 ^ 31 - 1) x
  (i32 (rneDiv (v.ma * p.1 + v.mb * p.2) 65536 + v.c), i32 (rneDiv (v.md * p.1 + v.me * p.2) 65536 + v.f))

/-- The smallest k from a count on with dd ≤ 8 T 4^k, at most 10 (R277). -/
def flatK (dd : Nat) (t : Nat) : (fuel k : Nat) → Nat
  | 0, k => k
  | n + 1, k => if dd ≤ 8 * t * 4 ^ k then k else flatK dd t n (k + 1)

/-- The chords of a flattened quadratic (R277). -/
def flatten (p0 p1 p2 : Int × Int) (t : Nat) : List ((Int × Int) × (Int × Int)) :=
  let dd := max (p0.1 - 2 * p1.1 + p2.1).natAbs (p0.2 - 2 * p1.2 + p2.2).natAbs
  let n : Nat := 2 ^ flatK dd t 10 0
  let coord (a b c : Int) (j : Nat) : Int :=
    rneDiv ((n - j : Int) * (n - j) * a + 2 * j * (n - j) * b + (j : Int) * j * c) (n * n)
  let at' (j : Nat) : Int × Int := (coord p0.1 p1.1 p2.1 j, coord p0.2 p1.2 p2.2 j)
  (List.range n).map fun j => (at' j, at' (j + 1))

/-! ## Pieces and deposits (R278, R279) -/

/-- A cell on the deposit grid. -/
def gridUnit : Nat := 65536

/-- A break point with its parameter along the chord, num / den. -/
structure Break where
  num : Nat
  den : Nat
  x   : Int
  y   : Int
  onX : Bool
  deriving DecidableEq, Repr

/-- The crossings of the boundaries of one axis strictly between the ends a0 and a1, in chord order; b0, b1 are the ends on
the other axis (R278). -/
def crossings (onX : Bool) (a0 a1 b0 b1 : Int) : List Break :=
  let lo := min a0 a1
  let hi := max a0 a1
  let first := lo / gridUnit + 1
  let count := ((hi + gridUnit - 1) / gridUnit - first).toNat
  let up := (List.range count).map fun (i : Nat) => (first + (i : Int)) * (gridUnit : Int)
  (if a0 < a1 then up else up.reverse).map fun a =>
    let n := (a - a0).natAbs
    let d := (a1 - a0).natAbs
    let b := rneDiv (b0 * d + n * (b1 - b0)) d
    ⟨n, d, if onX then a else b, if onX then b else a, onX⟩

/-- Merges the crossings of both axes in the order of their exact parameters; two with one parameter are one point. -/
def mergeBreaks : (fuel : Nat) → List Break → List Break → List (Int × Int)
  | 0, _, _ => []
  | _ + 1, [], l => l.map fun b => (b.x, b.y)
  | _ + 1, l, [] => l.map fun b => (b.x, b.y)
  | n + 1, a :: l, b :: m =>
    if a.num * b.den < b.num * a.den then (a.x, a.y) :: mergeBreaks n l (b :: m)
    else if b.num * a.den < a.num * b.den then (b.x, b.y) :: mergeBreaks n (a :: l) m
    else (a.x, b.y) :: mergeBreaks n l m

/-- The pieces of a chord of p24.8 points, on the deposit grid. -/
def pieces (a b : Int × Int) : List ((Int × Int) × (Int × Int)) :=
  let p := (a.1 * 256, a.2 * 256)
  let q := (b.1 * 256, b.2 * 256)
  let xs := crossings true p.1 q.1 p.2 q.2
  let ys := crossings false p.2 q.2 p.1 q.1
  let pts := p :: mergeBreaks (xs.length + ys.length + 1) xs ys ++ [q]
  pts.zip (pts.drop 1)

/-- The number of a tile in its arrays (R272). -/
def PathParams.tile (q : PathParams) (w ty tx : Nat) : Nat := (w * q.th + ty) * q.tw + tx

/-- One addition to the TABs: the tile's column and row, the offset in the window, the width, the value. -/
structure TabAdd where
  tx    : Nat
  ty    : Nat
  off   : Nat
  width : Nat
  value : Int
  deriving DecidableEq, Repr

/-- The additions of one piece in view w (R279). -/
def pieceAdds (q : PathParams) (w : Nat) (v : View) (piece : (Int × Int) × (Int × Int)) : List TabAdd :=
  let ((xs, ys), (xe, ye)) := piece
  let dy := ye - ys
  if dy == 0 then []
  else
    let col := (xs + xe) / (2 * gridUnit)
    let row := (ys + ye) / (2 * gridUnit)
    let tc := col / 16 - v.ox
    let tr := row / 16 - v.oy
    let x := (col % 16).toNat
    let y := (row % 16).toNat
    if tr < 0 || q.th ≤ tr || q.tw ≤ tc then []
    else
      let ty := tr.toNat
      let tab (tx : Nat) : Nat := q.tab + 4160 * q.tile w ty tx
      let from' : Nat := if tc < 0 then 0 else tc.toNat + 1
      let cell : List TabAdd :=
        if tc < 0 then []
        else
          let c := tab tc.toNat + 16 * (16 * y + x)
          [⟨tc.toNat, ty, c, 8, dy * (131072 - (xs - col * gridUnit) - (xe - col * gridUnit))⟩, ⟨tc.toNat, ty, c + 8, 4, dy⟩]
      cell ++ ((List.range (q.tw - from')).map fun i => ⟨from' + i, ty, tab (from' + i) + 4096 + 4 * y, 4, dy⟩)

/-- The additions of one chord. -/
def chordAdds (q : PathParams) (w : Nat) (v : View) (chord : (Int × Int) × (Int × Int)) : List TabAdd :=
  (pieces chord.1 chord.2).flatMap (pieceAdds q w v)

/-- An operation of the path unit or the commit unit as it reads and writes XBUF: WAITC awaits it in class PT (R293). -/
def pathEngine (seq uid : Nat) : EngineOp := ⟨seq, uid, some 3, none⟩

/-- One addition is performed at an absolute XBUF address, modulo 2^64 or 2^32 (R279). -/
def State.addTab (s : State) (o : EngineOp) (core at' width : Nat) (value : Int) : State :=
  let old := leNat (s.engineRead o core .xbuf at' width)
  s.engineWrite { o with cls := none } core .xbuf at' (leBytes width (BitVec.ofInt 64 ((old : Int) + value)).toNat)

/-- The base of the window of a gang on a core. -/
def State.windowOf (s : State) (core gang : Nat) : Option Nat :=
  ((s.core core).windows.find? fun w => w.gang == gang).map (·.base)

/-- The owner of a tile among the cores of a cluster: three bits of the interleaving count modulo 8 (R316). -/
def tileOwner (sw w ty tx : Nat) : Nat :=
  let a := tx / 2 ^ sw
  let b := ty / 2 ^ sw
  (a % 2 + 2 * (b % 2) + 4 * (a / 2 % 2) + w) % 8

/-- The additions of a chord are made: at once for a ply of its own, carried to the owners for a member of a path group
(R316, R317). -/
def State.deposit (s : State) (core : Nat) (o : PathOp) (scope : BitVec 24) (w : Nat) (adds : List TabAdd) : State :=
  match o.group with
  | none =>
    match s.windowOf core o.gang with
    | none => s
    | some base => adds.foldl (fun s a => s.addTab (pathEngine o.seq o.uid) core (base + a.off) a.width a.value) s
  | some (cluster, sw) =>
    (List.range 8).foldl (fun (s : State) k =>
      let mine := adds.filter fun a => tileOwner sw w a.ty a.tx == k
      if mine.isEmpty then s
      else
        let p : Piece := { owner := cluster * 8 + k, gang := o.gang, uid := o.uid, seq := o.seq, tenant := o.tenant
                           adds := mine.map fun a => (a.off, a.width, a.value), scope := scope }
        { s with pieces := s.pieces ++ [p] }) s

/-- The chords that a queued instruction deposits in one view (R275). -/
def PathOp.chords (o : PathOp) (w : Nat) (v : View) : List ((Int × Int) × (Int × Int)) :=
  match o.kind with
  | .line a b => [(v.map a, v.map b)]
  | .quad a b c t => flatten (v.map a) (v.map b) (v.map c) t
  | .pend =>
    match o.ctx.current[w]?, o.ctx.first[w]? with
    | some c, some f => if o.ctx.started && c != f then [(c, f)] else []
    | _, _ => []
  | _ => []

/-- The scope of the task that owns a ply's deposits (R323): that of its lowest occupied lane, or %scope. -/
def Ply.ownScope (p : Ply) : BitVec 24 :=
  match p.occ.lanes with
  | i :: _ => ((p.lanes[i]?).getD LaneInfo.empty).scope
  | [] => p.scope

/-- PATH_UNIT_DEPOSIT (R279): the instruction at the head of the queue deposits in every view. -/
def State.runDeposit (s : State) (core : Nat) : State :=
  match (s.core core).pathq with
  | [] => s
  | o :: l =>
    let go : Bool := match o.kind with
      | .line _ _ | .quad _ _ _ _ | .pend => true
      | _ => false
    if go then
      let scope := ((s.anyPly o.uid).map Ply.ownScope).getD 0
      let s := s.modCore core fun c => { c with pathq := l }
      let s := o.ctx.views.zipIdx.foldl (fun (s : State) (v, w) =>
        (o.chords w v).foldl (fun s c => s.deposit core o scope w (chordAdds o.ctx.params w v c)) s) s
      (s.releaseWindows core).reap
    else s
def execPathUnitDeposit (core : Nat) (s : State) : Outcome := (s.runDeposit core).ok

/-- TILER_DEPOSIT (R317): a piece is deposited into the window of its group's gang on the owner core; pieces of one member
between two cores keep their order. A gang not formed yet makes it wait. -/
def State.runPiece (s : State) (index : Nat) : State :=
  match s.pieces[index]? with
  | none => s
  | some p =>
    if (s.pieces.take index).any fun q => q.uid == p.uid && q.owner == p.owner then s
    else
      match s.windowOf p.owner p.gang with
      | some base =>
        let s := { s with pieces := s.pieces.eraseIdx index }
        (p.adds.foldl (fun (s : State) (o, n, v) => s.addTab (pathEngine p.seq p.uid) p.owner (base + o) n v) s).releaseWindows p.owner
      | none =>
        if s.firings.any fun f => decide (f.next < f.total) && f.id == p.gang / 2 ^ 32 then s
        else { s with pieces := s.pieces.eraseIdx index }
def execTilerDeposit (index : Nat) (s : State) : Outcome := (s.runPiece index).ok

/-! ## Scan and coverage (R281, R40) -/

/-- S of the 16 pixels of a row of a TAB. -/
def tabRow (tab : List Byte) (y : Nat) : List Int :=
  ((List.range 16).foldl (fun ((l : List Int), (w : Int)) x =>
    let o := 16 * (16 * y + x)
    let a := (BitVec.ofNat 64 (num tab o 8)).toInt
    let c := (BitVec.ofNat 32 (num tab (o + 8) 4)).toInt
    (l ++ [(BitVec.ofInt 64 (131072 * w + a)).toInt], w + c))
    (([] : List Int), (BitVec.ofNat 32 (num tab (4096 + 4 * y) 4)).toInt)).1

/-- The fill-rule value in units of 2^−33. -/
def fillRule (rule : BitVec 2) (v : Int) : Int :=
  let full : Int := 2 ^ 33
  match rule.toNat with
  | 0 => min (v.natAbs : Int) full
  | 1 => let t := (v.natAbs : Int) % (2 * full); if t ≤ full then t else 2 * full - t
  | 2 => clamp 0 full v
  | _ => clamp 0 full (-v)

/-- cov18 of the pixels of a TAB, pixel 16 py + px. -/
def coverage (rule : BitVec 2) (tab : List Byte) : List Nat :=
  (List.range 16).flatMap fun y => (tabRow tab y).map fun v => (rneDiv (fillRule rule v) 65536).toNat

/-! ## The instructions that build a path (R272 to R275) -/

/-- The XBUF as the ply's scalar unit reads it after every earlier STX of the ply (R228). -/
def State.scalarXbuf (s : State) (a n : Nat) : List Byte :=
  (List.range n).map fun i =>
    let own := s.ply.lsq.foldl (fun (r : Option Byte) e =>
      match e.kind with
      | .storeX _ false =>
        match e.kind.byteFor true 0 true (a + i) with
        | some b => some b
        | none => r
      | _ => r) none
    own.getD ((s.core s.ply.core).xbuf.read (a + i))

/-- A queued PATH instruction of the issuing ply. -/
def State.queuePath (s : State) (seq : Nat) (k : PathKind) : State :=
  let p := s.ply
  let o : PathOp := { seq := seq, uid := p.uid, tenant := p.tenant, kind := k, ctx := p.ctx, cls := p.cls, deadline := p.deadline
                      group := p.group, gang := p.gang, slot := p.slot }
  s.modCore p.core fun c => { c with pathq := c.pathq ++ [o] }

/-- The first of a list of addresses that a test holds of. -/
def firstBad (t : Nat → Bool) (l : List Word) : Option DWord := (l.find? fun a => t a.toNat).map (·.zeroExtend 64)

/-- PBEGIN (R272, R273). -/
def execPbegin (g : BitVec 6) (s : State) : Outcome :=
  let r (k : Nat) : Word := s.S (g + BitVec.ofNat 6 k)
  let x := s.ply.ctx
  let entry := s.S64 g
  let w3 := (r 3).toNat
  let w5 := (r 5).toNat
  let th := bits w5 23 12
  let tw := bits w5 11 0
  let tab := (r 4).toNat
  let pblk := (r 6).toNat
  let n := x.nextViews.length * th * tw
  let arrays := [r 4, r 6]
  let beyond : Option DWord :=
    if s.ply.windowSize < tab + 4160 * n then some ((r 4).zeroExtend 64)
    else if s.ply.windowSize < pblk + 10304 * n then some ((r 6).zeroExtend 64) else none
  (if x.state = .opened then s.raise (engine 17)
  else s.checkEntry entry <|
    if bits w3 31 21 != 0 || bits w5 31 24 != 0 || bits (r 7).toNat 31 16 != 0 || tw == 0 || th == 0 then s.raise (engine 19)
    else
      match firstBad (fun a => a / 2 ^ 30 == 3) arrays, firstBad (fun a => a / 2 ^ 30 != 0) arrays,
          firstBad (fun a => a % 64 != 0) arrays, beyond with
      | some a, _, _, _ => s.raise (localRange 2 a)
      | none, some a, _, _ => s.raise (localRange 3 a)
      | none, none, some a, _ => s.raise (align a)
      | none, none, none, some a => s.raise (localRange 0 a)
      | none, none, none, none =>
        let q : PathParams :=
          { entry := entry, parg := r 2, solid := bits w3 20 20 == 1, blend := BitVec.ofNat 2 (bits w3 19 18)
            rule := BitVec.ofNat 2 (bits w3 17 16), layer := BitVec.ofNat 16 w3, tab := tab, pblk := pblk, tw := tw, th := th
            pidx := (r 7).truncate 16 }
        let c : PathCtx := { state := .opened, params := q, views := x.nextViews, nextViews := x.nextViews, first := []
                             current := [], started := false }
        State.done { s with ply := { s.ply with ctx := c } }).ok

/-- A view from 32 bytes; none where a reserved byte is set (R274). -/
def View.parse (b : List Byte) : Option View :=
  if (b.drop 28).any (· != 0) then none
  else
    let i (k : Nat) : Int := (BitVec.ofNat 32 (num b (4 * k) 4)).toInt
    let h (k : Nat) : Int := (BitVec.ofNat 16 (num b k 2)).toInt
    some ⟨i 0, i 1, i 2, i 3, i 4, i 5, h 24, h 26⟩

/-- PVIEW (R274). -/
def execPview (n a : BitVec 6) (s : State) : Outcome :=
  let k := (s.S n).toNat
  let w := s.S a
  let va : DWord := w.zeroExtend 64
  let off : DWord := BitVec.ofNat 64 (w.toNat % 2 ^ 30)
  let x := s.ply.ctx
  (if x.state = .opened then s.raise (engine 17)
  else if k == 0 || 128 < k then s.raise (engine 19)
  else if w.toNat / 2 ^ 30 == 3 then s.raise (localRange 2 off)
  else if w.toNat / 2 ^ 30 != 0 then s.raise (localRange 3 off)
  else if w.toNat % 32 != 0 then s.raise (align va)
  else if s.ply.windowSize < w.toNat + 32 * k then s.raise (localRange 0 va)
  else
    let b := s.scalarXbuf (s.ply.windowBase + w.toNat) (32 * k)
    let vs := (List.range k).map fun i => View.parse (slice b (32 * i) 32)
    if vs.any Option.isNone then s.raise (engine 19)
    else State.done { s with ply := { s.ply with ctx := { x with nextViews := vs.filterMap id } } }).ok

/-- A segment instruction issues: the context's points move on, the segment is queued (R275). -/
def State.segment (s : State) (k : PathKind) (start final : Int × Int) : State :=
  let x := s.ply.ctx
  if x.state = .opened then
    let s := s.queuePath (s.seq + 1) k
    let x := { x with
      first := if x.started then x.first else x.views.map fun v => v.map start
      current := x.views.map fun v => v.map final
      started := true }
    State.done { s with ply := { s.ply with ctx := x }, seq := s.seq + 1 }
  else s.raise (engine 17)

/-- The point in a pair of scalars, as i32 coordinates. -/
def State.point (s : State) (a : BitVec 6) : Int × Int := ((s.S a).toInt, (s.S (a + 1)).toInt)

/-- PSEGL (R275). -/
def execPsegl (a : BitVec 6) (s : State) : Outcome :=
  (s.segment (.line (s.point a) (s.point (a + 2))) (s.point a) (s.point (a + 2))).ok
/-- PSEGQ (R275): %flattol is read at issue (R271). -/
def execPsegq (a : BitVec 6) (s : State) : Outcome :=
  (s.segment (.quad (s.point a) (s.point (a + 2)) (s.point (a + 4)) s.ply.flattol.toNat) (s.point a) (s.point (a + 4))).ok

/-- The scopes of the tasks that a PATH operation belongs to: of the path's counted lanes, and %scope (R258, R283). -/
def State.pathScopes (s : State) : List (BitVec 24) :=
  (((s.counted').lanes.map fun i => ((s.ply.lanes[i]?).getD LaneInfo.empty).scope) ++ [s.ply.scope]).eraseDups

/-- PEND (R275); for a member of a path group it counts in class PT (R317). -/
def execPend (s : State) : Outcome :=
  let x := s.ply.ctx
  (if x.state = .opened then
    let (n, s) := if s.ply.group.isSome then s.countOp 3 s.pathScopes else s.fresh
    let s := s.queuePath n .pend
    State.done { s with ply := { s.ply with ctx := { x with state := .closed } } }
  else s.raise (engine 17)).ok

/-! ## Tiles, paint blocks and commit entries (R283, R287, R288) -/

/-- The commit unit's use of its overflow list: an entry beyond the 256 it holds, or a commit of one, takes one record. -/
def Core.commitOverflow (c : Core) : Nat :=
  let past := c.entries.drop 256
  past.length + (c.commits.filter fun m => past.any fun e => e.id == m.entry).length
/-- Whether an entry stands in the overflow list. -/
def Core.inOverflow (c : Core) (id : Nat) : Bool := (c.entries.drop 256).any fun e => e.id == id

/-- A commit is handed to the commit unit, or discarded for want of room with a scope faulted (R288). -/
def State.pushCommit (s : State) (core tenant : Nat) (scope : BitVec 24) (m : Commit) : State :=
  let c := s.core core
  if c.inOverflow m.entry && decide (c.commitCap.toNat ≤ c.commitOverflow) then s.faultWork tenant scope (engine 21).word core 0
  else s.setCore core { c with commits := c.commits ++ [m] }

/-- A paint block's header (R287): issued depth, committed depth, top layer; none where it is malformed. -/
def parseHeader (b : List Byte) : Option (Nat × Nat × Nat) :=
  let top := num b 8 4
  if 8 < num b 0 4 || 8 < num b 4 4 || bits top 31 17 != 0 || (bits top 16 16 == 0 && bits top 15 0 != 0) ||
      (b.drop 12).any (· != 0) then none
  else some (num b 0 4, num b 4 4, bits top 15 0)

/-- What an instruction on a tile works with: view, row, column, its number, its paint block (absolute) and issued depth. -/
structure TileRef where
  w     : Nat
  ty    : Nat
  tx    : Nat
  index : Nat
  block : Nat
  depth : Nat
  deriving DecidableEq, Repr

/-- The tile index of a scalar is in range and, in a path group, owned by this core (R283, R317). -/
def State.withTile (s : State) (t : Word) (k : Nat → Nat → Nat → State) : State :=
  let q := s.ply.ctx.params
  let w := bits t.toNat 31 24
  let ty := bits t.toNat 23 12
  let tx := bits t.toNat 11 0
  let elsewhere := match s.ply.group with
    | some (_, sw) => tileOwner sw w ty tx != s.ply.core % 8
    | none => false
  if s.ply.ctx.views.length ≤ w || q.th ≤ ty || q.tw ≤ tx then s.raise (engine 18)
  else if elsewhere then s.raise (engine 22 (some (t.zeroExtend 64)))
  else k w ty tx

/-- The checks of PSCAN, PCLIP and PUNCLIP up to the layer (R283, R287, R291). -/
def State.withBlock (s : State) (t : Word) (layer : BitVec 16) (k : TileRef → State) : State :=
  if s.ply.ctx.state = .closed then
    s.withTile t fun w ty tx =>
      let q := s.ply.ctx.params
      let j := q.tile w ty tx
      let off := q.pblk + 10304 * j
      let block := s.ply.windowBase + off
      match parseHeader (s.engineRead (pathEngine (s.seq + 1) s.ply.uid) s.ply.core .xbuf (block + 2048) 64) with
      | none => s.raise (engine 27 (some (BitVec.ofNat 64 off)))
      | some (issued, _, top) => if layer.toNat < top then s.raise (engine 20) else k ⟨w, ty, tx, j, block, issued⟩
  else s.raise (engine 17)

/-- The check of a solid colour's address (R283) (log 68). -/
def State.withSolid (s : State) (k : State) : State :=
  let q := s.ply.ctx.params
  let a := q.parg.toNat
  let va : DWord := q.parg.zeroExtend 64
  let off : DWord := BitVec.ofNat 64 (a % 2 ^ 30)
  if !q.solid then k
  else if a / 2 ^ 30 == 3 then s.raise (localRange 2 off)
  else if a / 2 ^ 30 != 0 then s.raise (localRange 3 off)
  else if a % 8 != 0 then s.raise (align va)
  else if s.ply.windowSize < a + 8 then s.raise (localRange 0 va)
  else k

/-- PATHDEPTH (R291): the tile's view-space origin. -/
def State.raisePathDepth (s : State) (t : TileRef) : State :=
  let v := (s.ply.ctx.views[t.w]?).getD View.identity
  s.raise (cause 0x0F 0 (pair (word (16 * (v.ox + t.tx))) (word (16 * (v.oy + t.ty)))))

/-- The header words that an instruction writes at issue: the issued depth, and the top layer with valid set (R287). -/
def State.writeHeader (s : State) (t : TileRef) (depth : Nat) (layer : BitVec 16) : State :=
  let o := { pathEngine (s.seq + 1) s.ply.uid with cls := none }
  let s := if depth == t.depth then s else s.engineWrite o s.ply.core .xbuf (t.block + 2048) (leBytes 4 depth)
  s.engineWrite o s.ply.core .xbuf (t.block + 2056) (leBytes 4 (65536 + layer.toNat))

/-- A PATH operation is counted and takes a commit entry, whose number is its issue number, with the header written; one that
finds no room is discarded, writes nothing, and its scope faults (R288). k goes on with an entry taken. -/
def State.takeEntry (s : State) (t : TileRef) (kind : EntryKind) (depth : Nat) (layer : BitVec 16) (k : State → Nat → State) : State :=
  let p := s.ply
  let c := s.core p.core
  if 256 ≤ c.entries.length && c.commitCap.toNat ≤ c.commitOverflow then
    let (n, s) := s.countOp 3 s.pathScopes
    ((s.complete n).faultWork p.tenant p.scope (engine 21).word p.core s.issue.first).done
  else
    let (n, s) := (s.writeHeader t depth layer).countOp 3 s.pathScopes
    let c := s.core p.core
    let e : CommitEntry :=
      { id := n, seq := n, uid := p.uid, gang := p.gang, block := t.block, layer := layer, kind := kind, blend := p.ctx.params.blend
        scanned := kind = .unclip, live := 0, plane := [], scope := p.scope, tenant := p.tenant }
    k (s.setCore p.core { c with entries := c.entries ++ [e] }) n

/-- PSCAN (R283) (log 69). -/
def execPscan (t : BitVec 6) (s : State) : Outcome :=
  let q := s.ply.ctx.params
  (s.withBlock (s.S t) q.layer fun r => s.withSolid <|
    let forms := !s.storeLanes.isEmpty
    let colour := if q.solid && forms then some (s.scalarXbuf (s.ply.windowBase + q.parg.toNat) 8) else none
    s.takeEntry r .scan r.depth q.layer fun s n =>
      (s.queuePath n (.scan r.w r.ty r.tx n false s.ply.scope forms colour)).done).ok

/-- PCLIP (R291). -/
def execPclip (t : BitVec 6) (s : State) : Outcome :=
  let q := s.ply.ctx.params
  (s.withBlock (s.S t) q.layer fun r => s.withSolid <|
    if r.depth == 8 then s.raisePathDepth r
    else s.takeEntry r .clip (r.depth + 1) q.layer fun s n =>
      (s.queuePath n (.scan r.w r.ty r.tx n true s.ply.scope false none)).done).ok

/-- PUNCLIP (R291). -/
def execPunclip (t l : BitVec 6) (s : State) : Outcome :=
  let layer : BitVec 16 := (s.S l).truncate 16
  (s.withBlock (s.S t) layer fun r =>
    if r.depth == 0 then s.raisePathDepth r
    else s.takeEntry r .unclip (r.depth - 1) layer fun s _ => s.done).ok

/-- PCELL (R292). -/
def execPcell (d : BitVec 7) (t r : BitVec 6) (s : State) : Outcome :=
  (s.checkRun d 2 <|
    if s.ply.ctx.state = .none then s.raise (engine 17)
    else s.withTile (s.S t) fun w ty tx =>
      let s := s.queuePath (s.seq + 1) (.pcell d w ty tx (s.S r).toNat s.active)
      State.done { s with seq := s.seq + 1 }).ok

/-- PBLEND (R289): each counted lane with an unused tag hands one commit to the commit unit that holds its entry. -/
def execPblend (c : BitVec 7) (s : State) : Outcome :=
  (s.checkRun c 2 <|
    if !s.ply.paint then s.raise (engine 17)
    else
      let a := s.V c
      let b := s.V (c + 1)
      let half (w : Word) : List (BitVec 16) := [w.truncate 16, (w >>> 16).truncate 16]
      let tenant := s.ply.tenant
      (s.storeLanes.foldl (fun (s : State) i =>
        let x := (s.ply.lanes[i]?).getD LaneInfo.empty
        match x.commit with
        | none => s
        | some g =>
          let s := { s with ply := { s.ply with lanes := s.ply.lanes.setIfInBounds i { x with commit := none } } }
          let s := s.pushCommit g.core tenant x.scope ⟨g.entry, g.pixel, g.cov, half (a.at i) ++ half (b.at i)⟩
          s.paintTaskOver (some g)) s).done).ok

/-! ## The scan (R283 to R286) -/

/-- One pixel of a tile as a task, or as a helper lane of its quad (R285). -/
def PathOp.pixel (o : PathOp) (v : View) (core ty tx entry : Nat) (scope : BitVec 24) (quad : Option Nat) (i cov : Nat) : Task :=
  let q := o.ctx.params
  let x : BitVec 16 := BitVec.ofInt 16 (16 * (v.ox + tx) + (i % 16 : Nat))
  let y : BitVec 16 := BitVec.ofInt 16 (16 * (v.oy + ty) + (i / 16 : Nat))
  let helper := cov == 0
  { entry := q.entry, args := #v[y ++ x, BitVec.ofNat 32 cov, q.pidx ++ q.layer, q.parg], scope := if helper then 0 else scope
    demand := 0, heat := 0, cls := o.cls, deadline := o.deadline, arrival := 0, fixed := true, tenant := o.tenant
    after := none, commit := if helper then none else some ⟨core, entry, i, cov⟩, quad := quad, helper := helper, held := none }

/-- The pixels of quad q of a tile in the order of R151. -/
def quadPixels (q : Nat) : List Nat :=
  let b := 32 * (q / 8) + 2 * (q % 8)
  [b, b + 1, b + 16, b + 17]

/-- The units that a tile's coverage forms (R284): the solid quads, and the units of tasks and helper lanes. -/
def PathOp.units (o : PathOp) (v : View) (core ty tx entry : Nat) (scope : BitVec 24) (quad solid : Bool) (cov : List Nat) :
    List Nat × List (List Task) :=
  let c (i : Nat) : Nat := (cov[i]?).getD 0
  if quad then
    let painted := (List.range 64).filter fun q => (quadPixels q).any fun i => c i != 0
    let full := painted.filter fun q => solid && (quadPixels q).all fun i => c i == 131072
    (full, (painted.filter fun q => !full.contains q).map fun q =>
      (quadPixels q).map fun i => o.pixel v core ty tx entry scope (some (64 * entry + q)) i (c i))
  else ([], ((List.range 256).filter fun i => c i != 0).map fun i => [o.pixel v core ty tx entry scope none i (c i)])

/-- The tasks of a scan enter the bin of the paint entry (R283): they count in their scope, and are discarded where it takes
no task or is cancelled. -/
def State.storePaint (s : State) (core tenant entry : Nat) (scope : BitVec 24) (units : List (List Task)) : State :=
  let n := (units.flatMap id).foldl (fun n t => if t.helper then n else n + 1) 0
  if !s.accepts tenant scope then s
  else
    let s := s.modScope tenant scope fun c => { c with live := c.live + n }
    if s.heardCancel core tenant scope then s.modScope tenant scope fun c => { c with live := c.live - n, ended := c.ended + n }
    else
      let s := s.modCore core fun c =>
        { c with entries := c.entries.map fun e => if e.id == entry then { e with live := n } else e }
      units.foldl (fun s u => s.storeUnit core u) s

/-- The TAB of an entry is scanned: its plane is kept and it is marked (R290, R291). -/
def State.markScanned (s : State) (core entry : Nat) (plane : List Nat) : State :=
  (s.modCore core fun c =>
    { c with entries := c.entries.map fun e => if e.id == entry then { e with scanned := true, plane := plane } else e }).settleEntries core

/-- PATH_UNIT_SCAN (R283): the scan at the head of the queue. -/
def State.runScan (s : State) (core : Nat) : State :=
  match (s.core core).pathq with
  | [] => s
  | o :: l =>
    match o.kind with
    | .scan w ty tx entry clip scope forms colour =>
      let s := s.modCore core fun c => { c with pathq := l }
      match s.windowOf core o.gang with
      | none => s
      | some base =>
        let q := o.ctx.params
        let at' := base + q.tab + 4160 * q.tile w ty tx
        let cov := coverage q.rule (s.engineRead (pathEngine o.seq o.uid) core .xbuf at' 4160)
        let s := s.engineWrite (pathEngine o.seq o.uid) core .xbuf at' (zeros 4160)
        let v := (o.ctx.views[w]?).getD View.identity
        let s :=
          if forms then
            let quad := match s.headerFor core o.tenant q.entry with
              | .ok h => h.quad
              | .error _ => false
            let (full, units) := o.units v core ty tx entry scope quad q.solid cov
            let c16 (k : Nat) : BitVec 16 := BitVec.ofNat 16 (num (colour.getD []) (2 * k) 2)
            let s := (full.flatMap quadPixels).foldl (fun s i =>
              s.pushCommit core o.tenant scope ⟨entry, i, 131072, [c16 0, c16 1, c16 2, c16 3]⟩) s
            s.storePaint core o.tenant entry scope units
          else s
        ((s.markScanned core entry (if clip then cov else [])).releaseWindows core).reap
    | _ => s
def execPathUnitScan (core : Nat) (s : State) : Outcome := (s.runScan core).ok

/-- The additions of the queued deposits of other plies of a gang to its window on a core, and of the pieces on their way there,
each with the issue number of its instruction (R292, R317). -/
def State.comingAdds (s : State) (core : Nat) (o : PathOp) : List (Nat × Nat × Nat × Int) :=
  let mine (q : PathOp) (w : Nat) (a : TabAdd) : Bool := match q.group with
    | none => true
    | some (cluster, sw) => cluster * 8 + tileOwner sw w a.ty a.tx == core
  ((coresOf (clusterOf core)).flatMap fun k => ((s.core k).pathq.filter fun q =>
      q.gang == o.gang && q.uid != o.uid && (q.group.isSome || k == core)).flatMap fun q =>
    q.ctx.views.zipIdx.flatMap fun (v, w) => (q.chords w v).flatMap fun c =>
      ((chordAdds q.ctx.params w v c).filter (mine q w)).map fun a => (q.seq, a.off, a.width, a.value)) ++
  (s.pieces.filter fun p => p.owner == core && p.gang == o.gang && p.uid != o.uid).flatMap fun p =>
    p.adds.map fun (off, width, v) => (p.seq, off, width, v)

/-- Replaces bytes of a list from an offset on. -/
def putBytesAt (d : List Byte) (o : Nat) (b : List Byte) : List Byte := d.take o ++ b ++ d.drop (o + b.length)

/-- A TAB with a coming addition present or absent in each of its words (R292). -/
def State.withAdd (s : State) (base : Nat) (tab : List Byte) (index : Nat) (a : Nat × Nat × Nat × Int) : List Byte :=
  let (seq, off, width, value) := a
  if off < base || base + tab.length < off + width then tab
  else
    let old := slice tab (off - base) width
    let new := leBytes width (BitVec.ofInt 64 ((leNat old : Int) + value)).toNat
    let mix := new.zipIdx.map fun (b, i) =>
      if s.choose (wordKey 4 seq (index * 2 ^ 32 + (off + i) / 4)) then b else (old[i]?).getD b
    putBytesAt tab (off - base) mix

/-- A PCELL at the head of the queue writes its registers (R292). -/
def State.runCell (s : State) (core : Nat) : State :=
  match (s.core core).pathq with
  | [] => s
  | o :: l =>
    match o.kind with
    | .pcell d w ty tx row active =>
      let t := s.modCore core fun c => { c with pathq := l }
      match t.windowOf core o.gang with
      | none => t
      | some base =>
        let q := o.ctx.params
        let off := q.tab + 4160 * q.tile w ty tx
        let tab := t.engineRead (pathEngine o.seq o.uid) core .xbuf (base + off) 4160
        let tab := (s.comingAdds core o).zipIdx.foldl (fun tab (a, i) => s.withAdd off tab i a) tab
        let rows := (List.range 16).map (tabRow tab)
        let cell (i : Nat) : DWord :=
          let r := row + i / 16
          if 15 < r then 0 else dword ((((rows[r]?).getD [])[i % 16]?).getD 0)
        ((t.modAny o.uid fun p =>
          (p.putVLanes d active fun i => loWord (cell i)).putVLanes (d + 1) active fun i => hiWord (cell i)).releaseWindows core).reap
    | _ => s

/-! ## The commit unit (R288 to R291) -/

/-- Whether an entry waits for an earlier one of its block. -/
def Core.entryWaits (c : Core) (e : CommitEntry) : Bool :=
  (c.entries.takeWhile fun f => f.id != e.id).any fun f =>
    f.block == e.block && (decide (f.layer.toNat < e.layer.toNat) || (f.kind != .scan && decide (f.layer.toNat ≤ e.layer.toNat)) ||
      e.kind != .scan)

/-- Real numbers as exact values; a zero has no sign. -/
def realOf (v : Value) : Value :=
  match v with
  | .fin _ 0 _ => .fin false 0 0
  | v => v
def realAdd (x y : Value) : Value :=
  match x, y with
  | .fin n1 m1 e1, .fin n2 m2 e2 =>
    let (t, e) := addExact n1 m1 e1 n2 m2 e2
    .fin (decide (t < 0)) t.natAbs e
  | .nan _, _ => .nan false
  | _, .nan _ => .nan false
  | .inf a, .inf b => if a == b then .inf a else .nan false
  | .inf a, _ => .inf a
  | _, .inf b => .inf b
def realMul (x y : Value) : Value :=
  match x, y with
  | .fin n1 m1 e1, .fin n2 m2 e2 => realOf (.fin (n1 != n2) (m1 * m2) (e1 + e2))
  | .nan _, _ => .nan false
  | _, .nan _ => .nan false
  | .inf a, .inf b => .inf (a != b)
  | .inf a, .fin n m _ => if m == 0 then .nan false else .inf (a != n)
  | .fin n m _, .inf b => if m == 0 then .nan false else .inf (n != b)
def realOne : Value := .fin false 1 0
def realRest (x : Value) : Value := realAdd realOne (realOf x.neg')
/-- A real rounded into a format: a NaN gives its canonical NaN. -/
def Fmt.ofReal (f : Fmt) (v : Value) : Nat :=
  match v with
  | .nan _ => f.nan
  | .inf n => f.inf n
  | .fin n m e => if m == 0 then 0 else (f.roundFin 0 false n m e).1

/-- The blend of one pixel (R289): the old colour, the colour committed, cov18 and the clip. -/
def blendPixel (mode : BitVec 2) (old new : List Nat) (cov clip : Nat) : List Nat :=
  let g : Value := realOf (.fin false (cov * clip) (-34))
  let s := new.map fun c => realOf (fp32.value (fp32.ofReal (realMul (realOf (fp16.value c)) g)))
  let d := old.map fun c => realOf (fp16.value c)
  let at' (l : List Value) (k : Nat) : Value := (l[k]?).getD (.fin false 0 0)
  let sa := at' s 3
  let da := at' d 3
  (List.range 4).map fun k =>
    let sk := at' s k
    let dk := at' d k
    let r := match mode.toNat with
      | 0 => realAdd sk (realMul dk (realRest sa))
      | 1 => realAdd sk dk
      | 2 => realAdd (realAdd (realMul sk dk) (realMul sk (realRest da))) (realMul dk (realRest sa))
      | _ => realAdd sk (realMul dk (realRest g))
    fp16.ofReal (realOf (fp32.value (fp32.ofReal r)))

/-- The committed depth of a block, above 8 taken as 8 (R287). -/
def State.depthOf (s : State) (o : EngineOp) (core block : Nat) : Nat := min 8 (leNat (s.engineRead o core .xbuf (block + 2052) 4))
/-- Word i of clip plane k, above 131,072 taken as 131,072; full coverage at depth 0 (R289). -/
def State.planeAt (s : State) (o : EngineOp) (core block k i : Nat) : Nat :=
  if k == 0 then 131072 else min 131072 (leNat (s.engineRead o core .xbuf (block + 2112 + 1024 * (k - 1) + 4 * i) 4))

/-- A commit is performed: one write of 8 bytes, single-copy atomic (R288, R289). -/
def State.performCommit (s : State) (core : Nat) (e : CommitEntry) (m : Commit) : State :=
  let at' := e.block + 8 * m.pixel
  let o := pathEngine e.seq e.uid
  let clip := s.planeAt o core e.block (s.depthOf o core e.block) m.pixel
  let b := s.engineRead o core .xbuf at' 8
  let old := (List.range 4).map fun k => num b (2 * k) 2
  let new := blendPixel e.blend old (m.colour.map (·.toNat)) m.cov clip
  s.engineWrite o core .xbuf at' (new.flatMap fun c => leBytes 2 c) true

/-- A clip entry is performed, and retires (R291). -/
def State.performClip (s : State) (core : Nat) (e : CommitEntry) : State :=
  let o := pathEngine e.seq e.uid
  let k := s.depthOf o core e.block
  let s :=
    match e.kind with
    | .clip =>
      let plane := (List.range 256).flatMap fun i =>
        leBytes 4 (rneDiv (((e.plane[i]?).getD 0 : Nat) * s.planeAt o core e.block k i) 131072).toNat
      (s.engineWrite o core .xbuf (e.block + 2112 + 1024 * k) plane).engineWrite o core .xbuf (e.block + 2052) (leBytes 4 (k + 1))
    | .unclip => s.engineWrite o core .xbuf (e.block + 2052) (wordBytes (BitVec.ofNat 32 k - 1))
    | .scan => s
  (s.modCore core fun c => { c with entries := c.entries.filter fun f => f.id != e.id }).complete e.seq

/-- The clip entries that may be performed. -/
def Core.readyClips (c : Core) : List CommitEntry :=
  c.entries.filter fun e => e.kind != .scan && e.scanned && !c.entryWaits e
/-- Whether a commit may be performed. -/
def Core.commitReady (c : Core) (m : Commit) : Bool :=
  match c.entries.find? fun e => e.id == m.entry with
  | some e => !c.entryWaits e
  | none => false

/-- COMMIT_PERFORM (R288): the commit of that index, or, counted on from the commits, the clip entry. -/
def State.runCommit (s : State) (core index : Nat) : State :=
  let c := s.core core
  match c.commits[index]? with
  | some m =>
    match c.entries.find? fun e => e.id == m.entry with
    | none => s
    | some e =>
      if c.entryWaits e then s
      else
        let s := s.setCore core { c with commits := c.commits.eraseIdx index }
        (s.performCommit core e m).settleEntries core
  | none =>
    match c.entries[index - c.commits.length]? with
    | none => s
    | some e => if e.kind != .scan && e.scanned && !c.entryWaits e then s.performClip core e else s
def execCommitPerform (core index : Nat) (s : State) : Outcome := (s.runCommit core index).ok

end Sys2Proof.Machine
end

