-- ==== Sys2Proof/Machine/Hazards.lean ====
section
/-!
DEFINITION. The scoreboard (spec/04 R103, R104): which registers and scalars an instruction reads or writes, which have a
pending long-latency result, and when an instruction waits in the pipe.
-/
namespace Sys2Proof.Machine

/-- The queue in which an instruction needs room (R103). A PATH instruction, whose unit reads XBUF, also waits for the
XFENCEs before it (R196): path, or block where it takes no place in the path unit's queue. -/
inductive Room where
  | none | lsq | fill | mtx | mtxLsq | copy | path | block | fabric
  deriving DecidableEq, Repr

/-- What an instruction waits for beside its own registers: GIVE for what it returns, a YIELD or a wait at which its ply is
saved for every pending result (R107, R350), CTXSV and CTXRS for what they save and load (R382). -/
inductive Drain where
  | none | give | yield | gate | save | restore
  deriving DecidableEq, Repr

structure Needs where
  vectors : List Nat
  scalars : List Nat
  room    : Room
  drain   : Drain
  deriving DecidableEq, Repr

/-- The registers and scalars that an instruction reads or writes, and what else it waits for. -/
def needs : Instr → Needs
  | .sadd d a b => ⟨[], [d.toNat, a.toNat, b.toNat], .none, .none⟩
  | .ssub d a b => ⟨[], [d.toNat, a.toNat, b.toNat], .none, .none⟩
  | .smul d a b => ⟨[], [d.toNat, a.toNat, b.toNat], .none, .none⟩
  | .smulh d a b => ⟨[], [d.toNat, a.toNat, b.toNat], .none, .none⟩
  | .smulhu d a b => ⟨[], [d.toNat, a.toNat, b.toNat], .none, .none⟩
  | .sdiv d a b => ⟨[], [d.toNat, a.toNat, b.toNat], .none, .none⟩
  | .sdivu d a b => ⟨[], [d.toNat, a.toNat, b.toNat], .none, .none⟩
  | .srem d a b => ⟨[], [d.toNat, a.toNat, b.toNat], .none, .none⟩
  | .sremu d a b => ⟨[], [d.toNat, a.toNat, b.toNat], .none, .none⟩
  | .sand d a b => ⟨[], [d.toNat, a.toNat, b.toNat], .none, .none⟩
  | .sor d a b => ⟨[], [d.toNat, a.toNat, b.toNat], .none, .none⟩
  | .sxor d a b => ⟨[], [d.toNat, a.toNat, b.toNat], .none, .none⟩
  | .sandn d a b => ⟨[], [d.toNat, a.toNat, b.toNat], .none, .none⟩
  | .sshl d a b => ⟨[], [d.toNat, a.toNat, b.toNat], .none, .none⟩
  | .sshr d a b => ⟨[], [d.toNat, a.toNat, b.toNat], .none, .none⟩
  | .ssra d a b => ⟨[], [d.toNat, a.toNat, b.toNat], .none, .none⟩
  | .srol d a b => ⟨[], [d.toNat, a.toNat, b.toNat], .none, .none⟩
  | .smin d a b => ⟨[], [d.toNat, a.toNat, b.toNat], .none, .none⟩
  | .smax d a b => ⟨[], [d.toNat, a.toNat, b.toNat], .none, .none⟩
  | .sminu d a b => ⟨[], [d.toNat, a.toNat, b.toNat], .none, .none⟩
  | .smaxu d a b => ⟨[], [d.toNat, a.toNat, b.toNat], .none, .none⟩
  | .sclz d a => ⟨[], [d.toNat, a.toNat], .none, .none⟩
  | .sctz d a => ⟨[], [d.toNat, a.toNat], .none, .none⟩
  | .spopc d a => ⟨[], [d.toNat, a.toNat], .none, .none⟩
  | .sbrev d a => ⟨[], [d.toNat, a.toNat], .none, .none⟩
  | .ssexb d a => ⟨[], [d.toNat, a.toNat], .none, .none⟩
  | .ssexh d a => ⟨[], [d.toNat, a.toNat], .none, .none⟩
  | .ssel d a b => ⟨[], [d.toNat, a.toNat, b.toNat], .none, .none⟩
  | .scmpEq d a b => ⟨[], [d.toNat, a.toNat, b.toNat], .none, .none⟩
  | .scmpNe d a b => ⟨[], [d.toNat, a.toNat, b.toNat], .none, .none⟩
  | .scmpLt d a b => ⟨[], [d.toNat, a.toNat, b.toNat], .none, .none⟩
  | .scmpLe d a b => ⟨[], [d.toNat, a.toNat, b.toNat], .none, .none⟩
  | .scmpLtu d a b => ⟨[], [d.toNat, a.toNat, b.toNat], .none, .none⟩
  | .scmpLeu d a b => ⟨[], [d.toNat, a.toNat, b.toNat], .none, .none⟩
  | .sadd64 d a b => ⟨[], scalRun d 2 ++ scalRun a 2 ++ scalRun b 2, .none, .none⟩
  | .ssub64 d a b => ⟨[], scalRun d 2 ++ scalRun a 2 ++ scalRun b 2, .none, .none⟩
  | .sshl64 d a b => ⟨[], scalRun d 2 ++ scalRun a 2 ++ [b.toNat], .none, .none⟩
  | .sshr64 d a b => ⟨[], scalRun d 2 ++ scalRun a 2 ++ [b.toNat], .none, .none⟩
  | .smov64 d a => ⟨[], scalRun d 2 ++ scalRun a 2, .none, .none⟩
  | .saddi d a _ => ⟨[], [d.toNat, a.toNat], .none, .none⟩
  | .sandi d a _ => ⟨[], [d.toNat, a.toNat], .none, .none⟩
  | .sori d a _ => ⟨[], [d.toNat, a.toNat], .none, .none⟩
  | .sxori d a _ => ⟨[], [d.toNat, a.toNat], .none, .none⟩
  | .sshli d a _ => ⟨[], [d.toNat, a.toNat], .none, .none⟩
  | .sshri d a _ => ⟨[], [d.toNat, a.toNat], .none, .none⟩
  | .ssrai d a _ => ⟨[], [d.toNat, a.toNat], .none, .none⟩
  | .sli d _ => ⟨[], [d.toNat], .none, .none⟩
  | .scmpiEq d a _ => ⟨[], [d.toNat, a.toNat], .none, .none⟩
  | .scmpiNe d a _ => ⟨[], [d.toNat, a.toNat], .none, .none⟩
  | .scmpiLt d a _ => ⟨[], [d.toNat, a.toNat], .none, .none⟩
  | .scmpiLe d a _ => ⟨[], [d.toNat, a.toNat], .none, .none⟩
  | .scmpiLtu d a _ => ⟨[], [d.toNat, a.toNat], .none, .none⟩
  | .scmpiLeu d a _ => ⟨[], [d.toNat, a.toNat], .none, .none⟩
  | .scmpiGt d a _ => ⟨[], [d.toNat, a.toNat], .none, .none⟩
  | .scmpiGe d a _ => ⟨[], [d.toNat, a.toNat], .none, .none⟩
  | .vadd d a b _ => ⟨[d.toNat, a.toNat, b.toNat], [], .none, .none⟩
  | .vsub d a b _ => ⟨[d.toNat, a.toNat, b.toNat], [], .none, .none⟩
  | .vmul d a b _ => ⟨[d.toNat, a.toNat, b.toNat], [], .none, .none⟩
  | .vmulh d a b _ => ⟨[d.toNat, a.toNat, b.toNat], [], .none, .none⟩
  | .vmulhu d a b _ => ⟨[d.toNat, a.toNat, b.toNat], [], .none, .none⟩
  | .vand d a b _ => ⟨[d.toNat, a.toNat, b.toNat], [], .none, .none⟩
  | .vor d a b _ => ⟨[d.toNat, a.toNat, b.toNat], [], .none, .none⟩
  | .vxor d a b _ => ⟨[d.toNat, a.toNat, b.toNat], [], .none, .none⟩
  | .vandn d a b _ => ⟨[d.toNat, a.toNat, b.toNat], [], .none, .none⟩
  | .vshl d a b _ => ⟨[d.toNat, a.toNat, b.toNat], [], .none, .none⟩
  | .vshr d a b _ => ⟨[d.toNat, a.toNat, b.toNat], [], .none, .none⟩
  | .vsra d a b _ => ⟨[d.toNat, a.toNat, b.toNat], [], .none, .none⟩
  | .vmin d a b _ => ⟨[d.toNat, a.toNat, b.toNat], [], .none, .none⟩
  | .vmax d a b _ => ⟨[d.toNat, a.toNat, b.toNat], [], .none, .none⟩
  | .vminu d a b _ => ⟨[d.toNat, a.toNat, b.toNat], [], .none, .none⟩
  | .vmaxu d a b _ => ⟨[d.toNat, a.toNat, b.toNat], [], .none, .none⟩
  | .vadds d a b _ => ⟨[d.toNat, a.toNat, b.toNat], [], .none, .none⟩
  | .vsubs d a b _ => ⟨[d.toNat, a.toNat, b.toNat], [], .none, .none⟩
  | .vaddsu d a b _ => ⟨[d.toNat, a.toNat, b.toNat], [], .none, .none⟩
  | .vsubsu d a b _ => ⟨[d.toNat, a.toNat, b.toNat], [], .none, .none⟩
  | .vabsd d a b _ => ⟨[d.toNat, a.toNat, b.toNat], [], .none, .none⟩
  | .vclz d a _ => ⟨[d.toNat, a.toNat], [], .none, .none⟩
  | .vpopc d a _ => ⟨[d.toNat, a.toNat], [], .none, .none⟩
  | .vbrev d a _ => ⟨[d.toNat, a.toNat], [], .none, .none⟩
  | .vsexb d a _ => ⟨[d.toNat, a.toNat], [], .none, .none⟩
  | .vsexh d a _ => ⟨[d.toNat, a.toNat], [], .none, .none⟩
  | .vpackb d a b _ => ⟨[d.toNat, a.toNat, b.toNat], [], .none, .none⟩
  | .vpackh d a b _ => ⟨[d.toNat, a.toNat, b.toNat], [], .none, .none⟩
  | .vunpkb d a _ => ⟨[d.toNat, a.toNat], [], .none, .none⟩
  | .vunpkh d a _ => ⟨[d.toNat, a.toNat], [], .none, .none⟩
  | .vmov d a _ => ⟨[d.toNat, a.toNat], [], .none, .none⟩
  | .vlane d a b _ => ⟨[d.toNat, a.toNat, b.toNat], [], .none, .none⟩
  | .vaddi d a _ => ⟨[d.toNat, a.toNat], [], .none, .none⟩
  | .vandi d a _ => ⟨[d.toNat, a.toNat], [], .none, .none⟩
  | .vori d a _ => ⟨[d.toNat, a.toNat], [], .none, .none⟩
  | .vxori d a _ => ⟨[d.toNat, a.toNat], [], .none, .none⟩
  | .vshiShl d a _ => ⟨[d.toNat, a.toNat], [], .none, .none⟩
  | .vshiShr d a _ => ⟨[d.toNat, a.toNat], [], .none, .none⟩
  | .vshiSra d a _ => ⟨[d.toNat, a.toNat], [], .none, .none⟩
  | .vshiRol d a _ => ⟨[d.toNat, a.toNat], [], .none, .none⟩
  | .vli d _ => ⟨[d.toNat], [], .none, .none⟩
  | .vcmpEq d a b _ => ⟨[d.toNat, a.toNat, b.toNat], [], .none, .none⟩
  | .vcmpNe d a b _ => ⟨[d.toNat, a.toNat, b.toNat], [], .none, .none⟩
  | .vcmpLt d a b _ => ⟨[d.toNat, a.toNat, b.toNat], [], .none, .none⟩
  | .vcmpLe d a b _ => ⟨[d.toNat, a.toNat, b.toNat], [], .none, .none⟩
  | .vcmpLtu d a b _ => ⟨[d.toNat, a.toNat, b.toNat], [], .none, .none⟩
  | .vcmpLeu d a b _ => ⟨[d.toNat, a.toNat, b.toNat], [], .none, .none⟩
  | .vcmpGt d a b _ => ⟨[d.toNat, a.toNat, b.toNat], [], .none, .none⟩
  | .vcmpGe d a b _ => ⟨[d.toNat, a.toNat, b.toNat], [], .none, .none⟩
  | .vcmpGtu d a b _ => ⟨[d.toNat, a.toNat, b.toNat], [], .none, .none⟩
  | .vcmpGeu d a b _ => ⟨[d.toNat, a.toNat, b.toNat], [], .none, .none⟩
  | .vmad d a b _ => ⟨[d.toNat, a.toNat, b.toNat], [], .none, .none⟩
  | .vaddmin d a b _ => ⟨[d.toNat, a.toNat, b.toNat], [], .none, .none⟩
  | .vaddminu d a b _ => ⟨[d.toNat, a.toNat, b.toNat], [], .none, .none⟩
  | .vaddmax d a b _ => ⟨[d.toNat, a.toNat, b.toNat], [], .none, .none⟩
  | .vsel d a b _ => ⟨[d.toNat, a.toNat, b.toNat], [], .none, .none⟩
  | .vdot4 d a b _ => ⟨[d.toNat, a.toNat, b.toNat], [], .none, .none⟩
  | .vdot4u d a b _ => ⟨[d.toNat, a.toNat, b.toNat], [], .none, .none⟩
  | .vbfi d a b _ => ⟨[d.toNat, a.toNat, b.toNat], [], .none, .none⟩
  | .fadd d a b _ => ⟨[d.toNat, a.toNat, b.toNat], [], .none, .none⟩
  | .fsub d a b _ => ⟨[d.toNat, a.toNat, b.toNat], [], .none, .none⟩
  | .fmul d a b _ => ⟨[d.toNat, a.toNat, b.toNat], [], .none, .none⟩
  | .fdiv d a b _ => ⟨[d.toNat, a.toNat, b.toNat], [], .none, .none⟩
  | .fmin d a b _ => ⟨[d.toNat, a.toNat, b.toNat], [], .none, .none⟩
  | .fmax d a b _ => ⟨[d.toNat, a.toNat, b.toNat], [], .none, .none⟩
  | .fminn d a b _ => ⟨[d.toNat, a.toNat, b.toNat], [], .none, .none⟩
  | .fmaxn d a b _ => ⟨[d.toNat, a.toNat, b.toNat], [], .none, .none⟩
  | .fcopysign d a b _ => ⟨[d.toNat, a.toNat, b.toNat], [], .none, .none⟩
  | .fabs d a _ => ⟨[d.toNat, a.toNat], [], .none, .none⟩
  | .fneg d a _ => ⟨[d.toNat, a.toNat], [], .none, .none⟩
  | .ffloor d a _ => ⟨[d.toNat, a.toNat], [], .none, .none⟩
  | .fceil d a _ => ⟨[d.toNat, a.toNat], [], .none, .none⟩
  | .ftrunc d a _ => ⟨[d.toNat, a.toNat], [], .none, .none⟩
  | .frint d a _ => ⟨[d.toNat, a.toNat], [], .none, .none⟩
  | .fsqrt d a _ => ⟨[d.toNat, a.toNat], [], .none, .none⟩
  | .frcp d a _ => ⟨[d.toNat, a.toNat], [], .none, .none⟩
  | .frsq d a _ => ⟨[d.toNat, a.toNat], [], .none, .none⟩
  | .fexp2 d a _ => ⟨[d.toNat, a.toNat], [], .none, .none⟩
  | .flog2 d a _ => ⟨[d.toNat, a.toNat], [], .none, .none⟩
  | .fsin d a _ => ⟨[d.toNat, a.toNat], [], .none, .none⟩
  | .fcos d a _ => ⟨[d.toNat, a.toNat], [], .none, .none⟩
  | .ftanh d a _ => ⟨[d.toNat, a.toNat], [], .none, .none⟩
  | .fsigm d a _ => ⟨[d.toNat, a.toNat], [], .none, .none⟩
  | .fclass d a _ => ⟨[d.toNat, a.toNat], [], .none, .none⟩
  | .fma d a b _ => ⟨[d.toNat, a.toNat, b.toNat], [], .none, .none⟩
  | .fms d a b _ => ⟨[d.toNat, a.toNat, b.toNat], [], .none, .none⟩
  | .fnma d a b _ => ⟨[d.toNat, a.toNat, b.toNat], [], .none, .none⟩
  | .faddmin d a b _ => ⟨[d.toNat, a.toNat, b.toNat], [], .none, .none⟩
  | .faddmax d a b _ => ⟨[d.toNat, a.toNat, b.toNat], [], .none, .none⟩
  | .fcmpEq d a b _ => ⟨[d.toNat, a.toNat, b.toNat], [], .none, .none⟩
  | .fcmpNe d a b _ => ⟨[d.toNat, a.toNat, b.toNat], [], .none, .none⟩
  | .fcmpLt d a b _ => ⟨[d.toNat, a.toNat, b.toNat], [], .none, .none⟩
  | .fcmpLe d a b _ => ⟨[d.toNat, a.toNat, b.toNat], [], .none, .none⟩
  | .fcmpGt d a b _ => ⟨[d.toNat, a.toNat, b.toNat], [], .none, .none⟩
  | .fcmpGe d a b _ => ⟨[d.toNat, a.toNat, b.toNat], [], .none, .none⟩
  | .fcmpUn d a b _ => ⟨[d.toNat, a.toNat, b.toNat], [], .none, .none⟩
  | .fcmpOrd d a b _ => ⟨[d.toNat, a.toNat, b.toNat], [], .none, .none⟩
  | .fcvt d a _ _ _ _ => ⟨[d.toNat, a.toNat], [], .none, .none⟩
  | .fcvti d a _ _ _ => ⟨[d.toNat, a.toNat], [], .none, .none⟩
  | .icvtf d a _ _ _ => ⟨[d.toNat, a.toNat], [], .none, .none⟩
  | .hadd2 d a b _ => ⟨[d.toNat, a.toNat, b.toNat], [], .none, .none⟩
  | .hsub2 d a b _ => ⟨[d.toNat, a.toNat, b.toNat], [], .none, .none⟩
  | .hmul2 d a b _ => ⟨[d.toNat, a.toNat, b.toNat], [], .none, .none⟩
  | .hfma2 d a b _ => ⟨[d.toNat, a.toNat, b.toNat], [], .none, .none⟩
  | .hmin2 d a b _ => ⟨[d.toNat, a.toNat, b.toNat], [], .none, .none⟩
  | .hmax2 d a b _ => ⟨[d.toNat, a.toNat, b.toNat], [], .none, .none⟩
  | .badd2 d a b _ => ⟨[d.toNat, a.toNat, b.toNat], [], .none, .none⟩
  | .bmul2 d a b _ => ⟨[d.toNat, a.toNat, b.toNat], [], .none, .none⟩
  | .bfma2 d a b _ => ⟨[d.toNat, a.toNat, b.toNat], [], .none, .none⟩
  | .lshup d a _ _ => ⟨[d.toNat, a.toNat], [], .none, .none⟩
  | .lshdn d a _ _ => ⟨[d.toNat, a.toNat], [], .none, .none⟩
  | .lrot d a _ _ => ⟨[d.toNat, a.toNat], [], .none, .none⟩
  | .lperm d a b _ => ⟨[d.toNat, a.toNat, b.toNat], [], .none, .none⟩
  | .lbcast d a _ _ => ⟨[d.toNat, a.toNat], [], .none, .none⟩
  | .lquad d a _ _ => ⟨[d.toNat, a.toNat], [], .none, .none⟩
  | .derivx d a _ => ⟨[d.toNat, a.toNat], [], .none, .none⟩
  | .derivy d a _ => ⟨[d.toNat, a.toNat], [], .none, .none⟩
  | .derivxc d a _ => ⟨[d.toNat, a.toNat], [], .none, .none⟩
  | .derivyc d a _ => ⟨[d.toNat, a.toNat], [], .none, .none⟩
  | .lmatch d a b _ => ⟨[d.toNat, a.toNat, b.toNat], [], .none, .none⟩
  | .lred d a _ _ => ⟨[d.toNat, a.toNat], [], .none, .none⟩
  | .lscan d a _ _ _ => ⟨[d.toNat, a.toNat], [], .none, .none⟩
  | .lvote d a _ _ => ⟨[d.toNat, a.toNat], [], .none, .none⟩
  | .vbcast d a _ => ⟨[d.toNat], [a.toNat], .none, .none⟩
  | .vextr d a b => ⟨[a.toNat], [d.toNat, b.toNat], .none, .none⟩
  | .vins d a b _ => ⟨[d.toNat], [a.toNat, b.toNat], .none, .none⟩
  | .mfromv d a => ⟨[a.toNat], scalRun d 3, .none, .none⟩
  | .mtov d a _ => ⟨[d.toNat], scalRun a 3, .none, .none⟩
  | .mpopc d a => ⟨[], [d.toNat] ++ scalRun a 3, .none, .none⟩
  | .mffs d a => ⟨[], [d.toNat] ++ scalRun a 3, .none, .none⟩
  | .mand d a b => ⟨[], scalRun d 3 ++ scalRun a 3 ++ scalRun b 3, .none, .none⟩
  | .mor d a b => ⟨[], scalRun d 3 ++ scalRun a 3 ++ scalRun b 3, .none, .none⟩
  | .mxor d a b => ⟨[], scalRun d 3 ++ scalRun a 3 ++ scalRun b 3, .none, .none⟩
  | .mandn d a b => ⟨[], scalRun d 3 ++ scalRun a 3 ++ scalRun b 3, .none, .none⟩
  | .brZ s _ => ⟨[], [s.toNat], .none, .none⟩
  | .brNz s _ => ⟨[], [s.toNat], .none, .none⟩
  | .brLtz s _ => ⟨[], [s.toNat], .none, .none⟩
  | .brGez s _ => ⟨[], [s.toNat], .none, .none⟩
  | .brGtz s _ => ⟨[], [s.toNat], .none, .none⟩
  | .brLez s _ => ⟨[], [s.toNat], .none, .none⟩
  | .brmAny s _ => ⟨[], scalRun s 3, .none, .none⟩
  | .brmNone s _ => ⟨[], scalRun s 3, .none, .none⟩
  | .brmAll s _ => ⟨[], scalRun s 3, .none, .none⟩
  | .jmp _ => ⟨[], [], .none, .none⟩
  | .call _ => ⟨[], [12, 13], .none, .none⟩
  | .divb m _ _ => ⟨[], scalRun m 3, .none, .none⟩
  | .join => ⟨[], [], .none, .none⟩
  | .jmpr p => ⟨[], scalRun p 2, .none, .none⟩
  | .callr p => ⟨[], scalRun p 2 ++ [12, 13], .none, .none⟩
  | .ret p => ⟨[], scalRun p 2, .none, .none⟩
  | .nop => ⟨[], [], .none, .none⟩
  | .trap _ => ⟨[], [], .none, .none⟩
  | .eret => ⟨[], [], .none, .none⟩
  | .ld v p x _ z _ => ⟨regRun v (sizeRegs z.toNat) ++ [x.toNat], scalRun p 2, .lsq, .none⟩
  | .st v p x _ z _ => ⟨regRun v (sizeRegs z.toNat) ++ [x.toNat], scalRun p 2, .lsq, .none⟩
  | .ldx v b x _ z => ⟨regRun v (sizeRegs z.toNat) ++ [x.toNat], [b.toNat], .lsq, .none⟩
  | .stx v b x _ z => ⟨regRun v (sizeRegs z.toNat) ++ [x.toNat], [b.toNat], .lsq, .none⟩
  | .lds d p _ z _ => ⟨[], scalRun d (1 + z.toNat) ++ scalRun p 2, .lsq, .none⟩
  | .sts d p _ z _ => ⟨[], scalRun d (1 + z.toNat) ++ scalRun p 2, .lsq, .none⟩
  | .texl d c s => ⟨regRun d 4 ++ regRun c 2, scalRun s 4, .lsq, .none⟩
  | .texb d c s => ⟨regRun d 2 ++ regRun c 2, scalRun s 4, .lsq, .none⟩
  | .fence => ⟨[], [], .none, .none⟩
  | .fenceRel => ⟨[], [], .none, .none⟩
  | .fenceAcq => ⟨[], [], .none, .none⟩
  | .xfence => ⟨[], [], .none, .none⟩
  | .cinv p l => ⟨[], scalRun p 2 ++ [l.toNat], .none, .none⟩
  | .cpref p l _ => ⟨[], scalRun p 2 ++ [l.toNat], .none, .none⟩
  | .spill v p n => ⟨regRun v (n.toNat + 1), scalRun p 2, .lsq, .none⟩
  | .fill v p n => ⟨regRun v (n.toNat + 1), scalRun p 2, .fill, .none⟩
  | .atomAdd v p x _ => ⟨[v.toNat, x.toNat], scalRun p 2, .lsq, .none⟩
  | .atomSub v p x _ => ⟨[v.toNat, x.toNat], scalRun p 2, .lsq, .none⟩
  | .atomAnd v p x _ => ⟨[v.toNat, x.toNat], scalRun p 2, .lsq, .none⟩
  | .atomOr v p x _ => ⟨[v.toNat, x.toNat], scalRun p 2, .lsq, .none⟩
  | .atomXor v p x _ => ⟨[v.toNat, x.toNat], scalRun p 2, .lsq, .none⟩
  | .atomMin v p x _ => ⟨[v.toNat, x.toNat], scalRun p 2, .lsq, .none⟩
  | .atomMax v p x _ => ⟨[v.toNat, x.toNat], scalRun p 2, .lsq, .none⟩
  | .atomMinu v p x _ => ⟨[v.toNat, x.toNat], scalRun p 2, .lsq, .none⟩
  | .atomMaxu v p x _ => ⟨[v.toNat, x.toNat], scalRun p 2, .lsq, .none⟩
  | .atomXchg v p x _ => ⟨[v.toNat, x.toNat], scalRun p 2, .lsq, .none⟩
  | .atomCas v p x _ => ⟨regRun v 2 ++ [x.toNat], scalRun p 2, .lsq, .none⟩
  | .atomIncb v p x _ => ⟨[v.toNat, x.toNat], scalRun p 2, .lsq, .none⟩
  | .atomIncw v p x _ => ⟨[v.toNat, x.toNat], scalRun p 2, .lsq, .none⟩
  | .atomDecz v p x _ => ⟨[v.toNat, x.toNat], scalRun p 2, .lsq, .none⟩
  | .atomFaddl v p x _ => ⟨regRun v 2 ++ [x.toNat], scalRun p 2, .lsq, .none⟩
  | .atomFadd v p x _ => ⟨[v.toNat, x.toNat], scalRun p 2, .lsq, .none⟩
  | .atomFaddr v p x _ => ⟨[v.toNat, x.toNat], scalRun p 2, .lsq, .none⟩
  | .atomFaddd v p x => ⟨[v.toNat, x.toNat], scalRun p 2, .lsq, .none⟩
  | .atomAdd64 v p x _ => ⟨regRun v 2 ++ [x.toNat], scalRun p 2, .lsq, .none⟩
  | .atomMax64 v p x _ => ⟨regRun v 2 ++ [x.toNat], scalRun p 2, .lsq, .none⟩
  | .mma _ _ _ g h _ => ⟨[], scalRun g 4 ++ scalRun h 4, .mtx, .none⟩
  | .mmabp _ _ g h _ => ⟨[], scalRun g 4 ++ scalRun h 4, .mtx, .none⟩
  | .mzero _ => ⟨[], [], .mtx, .none⟩
  | .mrd _ g _ => ⟨(List.range 8).map (2 * g.toNat + ·), [], .mtx, .none⟩
  | .mwr _ g _ => ⟨(List.range 8).map (2 * g.toNat + ·), [], .mtx, .none⟩
  | .mcvst _ _ _ g _ => ⟨[], scalRun g 4, .mtxLsq, .none⟩
  | .lcp d s i _ => ⟨regRun i 2, scalRun d 2 ++ scalRun s 2, .copy, .none⟩
  | .tcopy g => ⟨[], scalRun g 4, .copy, .none⟩
  | .tcopyx g => ⟨[], scalRun g 4, .copy, .none⟩
  | .shapew d a o => ⟨[], [d.toNat, a.toNat, o.toNat], .none, .none⟩
  | .shaperel a => ⟨[], [a.toNat], .none, .none⟩
  | .waitc _ _ => ⟨[], [], .none, .gate⟩
  | .cntr d _ _ => ⟨[], [d.toNat], .none, .none⟩
  | .vfpush v => ⟨[v.toNat], [], .none, .gate⟩
  | .vfpop v => ⟨[v.toNat], [], .none, .gate⟩
  | .bara d b => ⟨[], [d.toNat, b.toNat], .none, .none⟩
  | .baraEnr d b => ⟨[], [d.toNat, b.toNat], .none, .none⟩
  | .barw p b => ⟨[], [p.toNat, b.toNat], .none, .gate⟩
  | .baraw b => ⟨[], [b.toNat], .none, .gate⟩
  | .barx n b => ⟨[], [n.toNat, b.toNat], .none, .none⟩
  | .barinit n b => ⟨[], [n.toNat, b.toNat], .none, .none⟩
  | .spawn e a c => ⟨regRun a 4, scalRun e 2 ++ scalRun c 2, .none, .none⟩
  | .spawnv e a => ⟨regRun a 6, scalRun e 2, .none, .none⟩
  | .spawnr r n c => ⟨[], scalRun r 2 ++ [n.toNat, c.toNat], .none, .none⟩
  | .claim d n _ => ⟨[], [d.toNat, n.toNat], .none, .gate⟩
  | .give d n _ => ⟨[], [d.toNat, n.toNat], .none, .give⟩
  | .exit => ⟨[], [], .none, .none⟩
  | .scopen d a p => ⟨[], [d.toNat] ++ scalRun a 2 ++ [p.toNat], .none, .none⟩
  | .scopcl s => ⟨[], [s.toNat], .none, .none⟩
  | .cancel s => ⟨[], [s.toNat], .none, .none⟩
  | .scpst d s => ⟨[], scalRun d 2 ++ [s.toNat], .none, .none⟩
  | .scpstW d s => ⟨[], scalRun d 2 ++ [s.toNat], .none, .none⟩
  | .pbegin g => ⟨[], scalRun g 8, .none, .none⟩
  | .psegl a => ⟨[], scalRun a 4, .path, .none⟩
  | .psegq a => ⟨[], scalRun a 6, .path, .none⟩
  | .pview n a => ⟨[], [n.toNat, a.toNat], .none, .none⟩
  | .pclip t => ⟨[], [t.toNat], .path, .none⟩
  | .punclip t l => ⟨[], [t.toNat, l.toNat], .block, .none⟩
  | .pend => ⟨[], [], .path, .none⟩
  | .pscan t => ⟨[], [t.toNat], .path, .none⟩
  | .pcell d t r => ⟨regRun d 2, [t.toNat, r.toNat], .path, .none⟩
  | .pblend c => ⟨regRun c 4, [], .none, .none⟩
  | .msend g => ⟨[], scalRun g 8, .fabric, .none⟩
  | .marm g d => ⟨[], scalRun g 8 ++ [d.toNat], .none, .none⟩
  | .mdisarm t d => ⟨[], scalRun t 2 ++ [d.toNat], .none, .none⟩
  | .rput g => ⟨[], scalRun g 8, .fabric, .none⟩
  | .rget g => ⟨[], scalRun g 8, .fabric, .none⟩
  | .collAllReduce g => ⟨[], scalRun g 8, .fabric, .none⟩
  | .collAllGather g => ⟨[], scalRun g 8, .fabric, .none⟩
  | .collReduceScatter g => ⟨[], scalRun g 8, .fabric, .none⟩
  | .collBroadcast g => ⟨[], scalRun g 8, .fabric, .none⟩
  | .gets d i => ⟨[], scalRun d (if isPair i.toNat then 2 else 1), .none, .none⟩
  | .sets a i => ⟨[], scalRun a (if isPair i.toNat then 2 else 1), .none, .none⟩
  | .tlbinv p => ⟨[], scalRun p 2, .none, .none⟩
  | .tlbinvAll => ⟨[], [], .none, .none⟩
  | .ctxsv => ⟨[], [], .lsq, .save⟩
  | .ctxrs => ⟨[], [], .none, .restore⟩
  | .smcAssignCluster d a => ⟨[], [d.toNat] ++ scalRun a 2, .none, .none⟩
  | .smcReleaseCluster d a => ⟨[], [d.toNat] ++ scalRun a 2, .none, .none⟩
  | .smcResetPartition d a => ⟨[], [d.toNat] ++ scalRun a 2, .none, .none⟩
  | .smcSetRoot d a => ⟨[], [d.toNat] ++ scalRun a 2, .none, .none⟩
  | .smcSetRegulator d a => ⟨[], [d.toNat] ++ scalRun a 2, .none, .none⟩
  | .smcSetScopeShare d a => ⟨[], [d.toNat] ++ scalRun a 2, .none, .none⟩
  | .smcAttest d a => ⟨[], [d.toNat] ++ scalRun a 2, .none, .none⟩
  | .smcRetireUnit d a => ⟨[], [d.toNat] ++ scalRun a 2, .none, .none⟩
  | .pwrqGate d a => ⟨[], [d.toNat, a.toNat], .none, .none⟩
  | .pwrqPower d a => ⟨[], [d.toNat, a.toNat], .none, .none⟩
  | .endRun _ _ _ => ⟨[], [], .none, .none⟩
  | .yield _ _ => ⟨[], [], .none, .yield⟩
  | .pathChoice _ _ => ⟨[], [], .none, .none⟩
  | .longLatencyResult _ _ => ⟨[], [], .none, .none⟩
  | .pipeWaitEnd _ => ⟨[], [], .none, .none⟩
  | .watchdogDeadline _ => ⟨[], [], .none, .none⟩
  | .binTimer _ => ⟨[], [], .none, .none⟩
  | .plyFormation _ => ⟨[], [], .none, .none⟩
  | .gangFormation _ _ => ⟨[], [], .none, .none⟩
  | .taskArrival _ => ⟨[], [], .none, .none⟩
  | .plyRestore _ _ => ⟨[], [], .none, .none⟩
  | .claimGrant _ => ⟨[], [], .none, .none⟩
  | .claimFailure _ => ⟨[], [], .none, .none⟩
  | .mtxEngineExecute _ => ⟨[], [], .none, .none⟩
  | .copyEngineOperation _ _ => ⟨[], [], .none, .none⟩
  | .retirement _ _ => ⟨[], [], .none, .none⟩
  | .waitcReturn _ => ⟨[], [], .none, .none⟩
  | .barrierArrival _ _ => ⟨[], [], .none, .none⟩
  | .rootReport _ _ => ⟨[], [], .none, .none⟩
  | .rootFlipArrival _ _ => ⟨[], [], .none, .none⟩
  | .releaseWave _ => ⟨[], [], .none, .none⟩
  | .vfifoPushResume _ => ⟨[], [], .none, .none⟩
  | .vfifoPopResume _ => ⟨[], [], .none, .none⟩
  | .scpstWReturn _ => ⟨[], [], .none, .none⟩
  | .cancelBroadcast _ _ => ⟨[], [], .none, .none⟩
  | .scopeDrained _ _ => ⟨[], [], .none, .none⟩
  | .pathUnitScan _ => ⟨[], [], .none, .none⟩
  | .tilerDeposit _ => ⟨[], [], .none, .none⟩
  | .commitPerform _ _ => ⟨[], [], .none, .none⟩
  | .storeAtHome _ _ => ⟨[], [], .none, .none⟩
  | .completionTime _ => ⟨[], [], .none, .none⟩
  | .clusterCompletionTime _ => ⟨[], [], .none, .none⟩
  | .atomPerform _ _ => ⟨[], [], .lsq, .none⟩
  | .fadddAccept _ _ => ⟨[], [], .none, .none⟩
  | .windowClose _ _ _ => ⟨[], [], .none, .none⟩
  | .sensorReading _ _ => ⟨[], [], .none, .none⟩
  | .knightProbe _ => ⟨[], [], .none, .none⟩
  | .quiescePoint _ => ⟨[], [], .none, .none⟩
  | .tailWriteReport _ _ => ⟨[], [], .none, .none⟩
  | .launchFire _ _ => ⟨[], [], .none, .none⟩
  | .clockMark _ _ => ⟨[], [], .none, .none⟩
  | .queueDescriptorWrite _ _ _ => ⟨[], [], .none, .none⟩
  | .ccrWrite _ _ => ⟨[], [], .none, .none⟩
  | .partitionWrite _ => ⟨[], [], .none, .none⟩
  | .regselWrite _ => ⟨[], [], .none, .none⟩
  | .configurationWrite _ _ => ⟨[], [], .none, .none⟩
  | .loadRequest _ _ _ _ _ => ⟨[], [], .none, .none⟩
  | .unloadRequest _ _ => ⟨[], [], .none, .none⟩
  | .packagePowerOn _ _ _ => ⟨[], [], .none, .none⟩
  | .unitRetirement _ _ => ⟨[], [], .none, .none⟩
  | .dieGated _ => ⟨[], [], .none, .none⟩
  | .powerReturn _ => ⟨[], [], .none, .none⟩
  | .messageArrival _ => ⟨[], [], .none, .none⟩
  | .remotePutArrival _ _ _ _ _ => ⟨[], [], .none, .none⟩
  | .remoteGetArrival _ _ _ _ _ => ⟨[], [], .none, .none⟩
  | .fabricRetire _ _ => ⟨[], [], .none, .none⟩
  | .timeout _ => ⟨[], [], .none, .none⟩
  | .collInstanceComplete _ _ => ⟨[], [], .none, .none⟩
  | .collTimeout _ => ⟨[], [], .none, .none⟩
  | .slackControl _ _ _ => ⟨[], [], .none, .none⟩
  | .tlbinvDropComplete _ => ⟨[], [], .none, .none⟩
  | .illegalWord _ _ _ _ => ⟨[], [], .none, .none⟩
  | .fetchFault _ _ _ => ⟨[], [], .none, .none⟩
  | .pathUnitDeposit _ => ⟨[], [], .none, .none⟩
  | .uncorrectableError _ => ⟨[], [], .none, .none⟩
  | .vaultCacheFlush _ => ⟨[], [], .none, .none⟩
  | .recoveryImage _ => ⟨[], [], .none, .none⟩
/-- Whether a ply has no pending result, queued MTX or PATH instruction or local store. -/
def State.quiet (s : State) (p : Ply) : Bool :=
  (s.pendingV p).isEmpty && (s.pendingS p).isEmpty && (s.mtxOf p).isEmpty && (s.pathOf p).isEmpty &&
    !p.lsq.any fun e => e.kind.isStoreX

/-! ## Waiting in the pipe -/

/-- Accesses of a ply in its load-store queue (R189). -/
def Ply.queued (p : Ply) : Nat := (p.lsq.filter fun e => !e.kind.isFence).length
/-- Whether an instruction of the issuing ply finds no room (R189, R201, R219, R269), or is held at a quiesce point (R320). -/
def State.full (s : State) (r : Room) : Bool :=
  let c := s.core s.ply.core
  let held := s.held' (clusterOf s.ply.core)
  let lsq := decide (64 ≤ s.ply.queued)
  let mtx := decide (8 ≤ c.mtxq.length)
  match r with
  | .none => false
  | .lsq => lsq
  | .fill => lsq || s.ply.lsq.any fun e => !s.fenceMet s.ply e
  | .mtx => mtx
  | .mtxLsq => mtx || lsq
  | .copy => held || decide (256 ≤ c.copyq.length)
  | .path => decide (32 ≤ c.pathq.length) || s.ply.lsq.any fun e => e.kind = .xfence
  | .block => s.ply.lsq.any fun e => e.kind = .xfence
  | .fabric => held

/-- Whether an instruction of the issuing ply waits for what it saves, loads or returns. -/
def State.undrained (s : State) (d : Drain) : Bool :=
  match d with
  | .none => false
  | .give => !(s.pendingV s.ply).isEmpty || !(s.mtxOf s.ply).isEmpty
  | .yield => s.takenAtYield && !s.quiet s.ply
  | .gate => s.gatesHere && !s.quiet s.ply
  | .save => !s.quiet s.ply
  | .restore => !s.quiet s.ply || s.ply.lsq.any fun e => e.kind.isStore

/-- Whether a scalar of the issuing path has a pending result: s60 to s62 only from the path itself (R98). -/
def State.pendingScalar (s : State) (k : Nat) : Bool :=
  (s.pendingS s.ply).any fun x => x.2 == k && (x.1 == s.ply.slot || !(60 ≤ k && k ≤ 62))

/-- Whether an instruction of the issuing ply waits in the pipe (R103). A pending activity word holds every instruction
(log 31) (log 66). -/
def State.hazard (s : State) (i : Instr) : Bool :=
  let n := needs i
  let pending := if n.vectors.isEmpty then [] else s.pendingV s.ply
  n.vectors.any pending.contains || (n.scalars ++ [60, 61, 62]).any s.pendingScalar || s.full n.room || s.undrained n.drain

end Sys2Proof.Machine
end

