-- ==== Sys2Proof/Machine/Digest.lean ====
section
/-!
DEFINITION. SHA-512, which an attestation report names (spec/19 R388): the digest of a list of bytes (log 10).
-/
namespace Sys2Proof.Machine

/-! ## Constants: the first 64 bits of the fractional parts of square and cube roots of primes -/

/-- The largest r below lo + 2^n with r^d at most x, where lo^d is: one bit of r at a time. -/
def rootFrom (d x : Nat) : (n lo : Nat) → Nat
  | 0, lo => lo
  | n + 1, lo => rootFrom d x n (if (lo + 2 ^ n) ^ d ≤ x then lo + 2 ^ n else lo)
/-- The first 64 bits of the fractional part of the d-th root of p. -/
def rootBits (d p : Nat) : DWord := BitVec.ofNat 64 (rootFrom d (p * 2 ^ (64 * d)) 70 0)
/-- The primes below n. -/
def primesBelow (n : Nat) : List Nat :=
  (List.range n).filter fun p => decide (2 ≤ p) && (List.range p).all fun k => decide (k < 2) || p % k != 0
/-- The constant of each of the 80 rounds. -/
def roundKeys : List DWord := (primesBelow 410).map (rootBits 3)
/-- The eight words that a digest starts from. -/
def digestStart : List DWord := (primesBelow 20).map (rootBits 2)

/-! ## The compression of a block -/

/-- The exclusive or of a word's rotations to the right by several amounts. -/
def spun (amounts : List Nat) (x : DWord) : DWord := amounts.foldl (fun y k => y ^^^ x.rotateRight k) 0
/-- Word k of a list. -/
def wordNo (l : List DWord) (k : Nat) : DWord := (l[k]?).getD 0

/-- The words of a block and the n that follow them, the last first: each is the sum of the words 16 and 7 before it and of the
words 15 and 2 before it, spun and shifted. -/
def expand : (n : Nat) → List DWord → List DWord
  | 0, l => l
  | n + 1, l =>
    expand n ((wordNo l 15 + wordNo l 6 + (spun [1, 8] (wordNo l 14) ^^^ wordNo l 14 >>> 7) +
      (spun [19, 61] (wordNo l 1) ^^^ wordNo l 1 >>> 6)) :: l)

/-- A round on the eight words, given the sum of its constant and its word of the schedule: the words move one place on, the
fourth and the eighth with what they take in. -/
def mixRound (l : List DWord) (key : DWord) : List DWord :=
  let w := wordNo l
  let chosen := w 6 ^^^ (w 4 &&& (w 5 ^^^ w 6))
  let common := (w 0 &&& w 1) ||| (w 2 &&& (w 0 ||| w 1))
  let taken := key + w 7 + chosen + spun [14, 18, 41] (w 4)
  [taken + common + spun [28, 34, 39] (w 0), w 0, w 1, w 2, w 3 + taken, w 4, w 5, w 6]

/-- Takes one block of 128 bytes into the digest. -/
def takeBlock (h : List DWord) (block : List Byte) : List DWord :=
  let words := (List.range 16).map fun k => BitVec.ofNat 64 (leNat (slice block (8 * k) 8).reverse)
  let keys := roundKeys.zipWith (· + ·) (expand 64 words.reverse).reverse
  h.zipWith (· + ·) (keys.foldl mixRound h)

/-! ## The digest -/

/-- The message with a one bit, zeros to a whole number of blocks, and its length in bits at the end of the last, high byte
first. -/
def paddedTo (block : Nat) (l : List Byte) : List Byte :=
  let used := l.length + 17
  l ++ 0x80 :: zeros ((block - used % block) % block) ++ (leBytes 16 (8 * l.length)).reverse

/-- SHA-512. -/
def sha512 (l : List Byte) : List Byte :=
  let m := paddedTo 128 l
  ((List.range (m.length / 128)).foldl (fun h k => takeBlock h (slice m (128 * k) 128)) digestStart).flatMap
    fun w => (dwordBytes w).reverse

end Sys2Proof.Machine
end

