-- ==== Sys2Proof/Machine/Package.lean ====
section
/-!
DEFINITION. The package: cluster control, the partition map, partition reset, SMC, PWRQ and power gating, TLBINV, the
configuration space, boot and retirement (spec/15 R321, R322, spec/16 R350, spec/19 R373 to R375, R379 to R389).
-/
namespace Sys2Proof.Machine

/-! ## Cluster control (R321, R322) -/

/-- A write of ccr: the RW fields, with sw and step unchanged by a value above 4; step takes effect at the next quiesce
point. -/
def State.writeCcr (s : State) (cluster : Nat) (w : Word) : State :=
  let sw := bits w.toNat 26 24
  let step := bits w.toNat 18 16
  let s := s.modCluster cluster fun c =>
    { c with
      knight := w.getLsbD 31
      sw := if sw ≤ 4 then BitVec.ofNat 3 sw else c.sw
      step := if step ≤ 4 then BitVec.ofNat 3 step else c.step
      l2lease := w.truncate 16 }
  s.requestStep cluster
/-- CCR_WRITE (R322). -/
def execCcrWrite (cluster : Nat) (value : Word) (s : State) : Outcome := (s.writeCcr cluster value).ok

/-! ## The partition map (R373, R374) -/

/-- The regulator that a cluster has, or is to have at its next quiesce point. -/
def Cluster.chosenReg (c : Cluster) : BitVec 2 := c.pendingReg.getD c.regulator

/-- Whether a cluster holds a resident ply or a queued task. -/
def State.clusterBusy (s : State) (cluster : Nat) : Bool :=
  (coresOf cluster).any fun k =>
    !(s.onCore k).isEmpty || !(s.core k).bins.isEmpty || !(s.core k).overflow.isEmpty || s.transit.any fun t => t.core == k

/-- Whether a partition has a cluster, other than the one given, on a regulator other than r (R373). -/
def State.otherReg (s : State) (part : BitVec 4) (cluster : Nat) (r : BitVec 2) : Bool :=
  (List.range 64).any fun c => c != cluster && (s.cluster c).part == some part && (s.cluster c).chosenReg != r

/-- A cluster that changes partition: its L2 is invalidated (R301), its cores' entry headers are dropped and their overflow
lists return to 0 (R381). -/
def State.putPart (s : State) (cluster : Nat) (part : Option (BitVec 4)) : State :=
  let s := s.modCluster cluster fun c => { c with part := part }
  let s := { s with
    l2Leases := s.l2Leases.filter fun e => e.unit != cluster
    headers := s.headers.filter fun (k, _, _) => clusterOf k != cluster }
  (coresOf cluster).foldl (fun s k => s.modCore k fun c =>
    { c with taskBase := 0, taskCap := 0, commitBase := 0, commitCap := 0 }) s

/-- A cluster moves into a partition or out of its own: 0 done, 2 it is busy, 3 two regulators (R374, R383) (log 78). -/
def State.moveCluster (s : State) (cluster : Nat) (part : Option (BitVec 4)) : Nat × State :=
  if (s.cluster cluster).part == part then (0, s)
  else if s.clusterBusy cluster then (2, s)
  else
    match part with
    | some p => if s.otherReg p cluster (s.cluster cluster).chosenReg then (3, s) else (0, s.putPart cluster part)
    | none => (0, s.putPart cluster none)

/-- PARTITION_WRITE (R374): Rook writes %partition. -/
def State.writePartition (s : State) (w : Word) : State :=
  let part : BitVec 4 := BitVec.ofNat 4 (bits w.toNat 31 28)
  let cluster := bits w.toNat 5 0
  let s := { s with selPart := part, selCluster := BitVec.ofNat 6 cluster }
  if w.getLsbD 6 then (s.moveCluster cluster (some part)).2
  else if (s.cluster cluster).part == some part then (s.moveCluster cluster none).2
  else s
def execPartitionWrite (value : Word) (s : State) : Outcome := (s.writePartition value).ok

/-- A cluster takes another regulator at its next quiesce point: 0 done, 3 its partition would have two (R374). -/
def State.moveRegulator (s : State) (cluster : Nat) (r : BitVec 2) : Nat × State :=
  let c := s.cluster cluster
  let bad := match c.part with
    | some p => s.otherReg p cluster r
    | none => false
  if bad then (3, s)
  else (0, (s.setCluster cluster { c with pendingReg := if c.regulator == r then none else some r }).requestVoltage)

/-- REGSEL_WRITE (R374): Rook writes %regsel. -/
def State.writeRegsel (s : State) (w : Word) : State :=
  let cluster := bits w.toNat 7 2
  (State.moveRegulator { s with selReg := BitVec.ofNat 6 cluster } cluster (w.truncate 2)).2
def execRegselWrite (value : Word) (s : State) : Outcome := (s.writeRegsel value).ok

/-! ## Partition reset (R375) -/

/-- Every task of a tenant ends and every engine operation is dropped. Stores that have left their ply complete. -/
def State.endTenant (s : State) (tenant : Nat) : State :=
  let mine := fun (p : Ply) => p.tenant == tenant && !p.management
  let cores := s.partCores tenant
  let lost := (s.everyPly.filter mine).map (·.uid)
  let areas := ((s.all.filter mine) ++ ((s.saved.map (·.ply)).filter mine)).map (·.ssave)
  let clear := fun (c : Core) =>
    { c with
      bins := [], overflow := [], mtxq := [], copyq := [], pathq := [], entries := [], commits := [], leaves := []
      windows := [], unseen := [], xgen := c.xgen + 1, wgen := c.wgen + 1 }
  let ghosts := ((s.all ++ s.ghosts).filter fun p => mine p && p.lsq.any fun e => e.kind.isStore).map fun p =>
    { p with
      occ := 0, running := false, hubq := [], failures := []
      path0 := { p.path0 with member := 0, active := 0, wait := .none }
      path1 := { p.path1 with member := 0, active := 0, wait := .none }
      lsq := p.lsq.filter fun e => !e.kind.isDiscarded && !e.kind.isStoreX }
  let s := { s with
    ply := if mine s.ply then Ply.vacant else s.ply
    plies := s.plies.filter fun p => !mine p
    saved := s.saved.filter fun v => !mine v.ply
    ghosts := ghosts ++ s.ghosts.filter fun p => !mine p
    saveAreas := s.saveAreas ++ areas
    counted := s.counted.filter fun c => c.tenant != tenant
    arrivals := s.arrivals.filter fun a => !lost.contains a.uid && !cores.contains a.core
    departures := s.departures.filter fun d => !lost.contains d.uid
    transit := s.transit.filter fun t => t.task.tenant != tenant
    pieces := s.pieces.filter fun p => p.tenant != tenant
    firings := s.firings.filter fun f => f.tenant != tenant
    fabric := s.fabric.filter fun o => o.tenant != tenant }
  cores.foldl (fun s k => s.modCore k fun c => { clear c with probeX := BitVec.ofNat 16 (k + 1), probeN := 0 }) s

/-- Every live scope of a tenant is written FAULTED with cause 0x23 and released without notify; one that is CLOSED or QUIESCED
keeps its record. -/
def State.endScopes (s : State) (tenant : Nat) : State :=
  (s.scopes.filter fun c => c.tenant == tenant).foldl (fun s c =>
    if c.over then s.releaseScope c c.stateWord else
    let d : Scope :=
      { c with
        state := .faulted, cause := 0x23, live := 0, ended := c.ended + c.live
        tcancel := if c.state = .opened then s.ptime else c.tcancel }
    ((s.modScope tenant c.id fun _ => d).writeScope tenant c.id).releaseScope d d.stateWord) s

/-- A partition reset (R375), with its one fault record (log 77). -/
def State.resetPartition (s : State) (tenant : Nat) : State :=
  let cores := s.partCores tenant
  let clusters := s.partClusters tenant
  let s := (s.endTenant tenant).endScopes tenant
  let s := clusters.foldl (fun s c => s.modCluster c fun x => { x with roots := [] }) s
  let s := cores.foldl (fun s k => s.setFifo (vaultOf k) { s.fifo (vaultOf k) with up := [], down := [] }) s
  let s := { s with
    vaults := s.vaults.map fun (k, (v : Vault)) => (k, { v with elements := v.elements.filter fun e => e.tenant != tenant })
    l2Leases := s.l2Leases.filter fun e => !clusters.contains e.unit
    tlb := s.tlb.filter fun e => e.tenant != tenant
    headers := s.headers.filter fun (k, _, _) => !cores.contains k
    reports := s.reports.filter fun (t, _) => t != tenant
    broadcasts := s.broadcasts.filter fun b => b.tenant != tenant
    loads := s.loads.filter fun l => l.tenant != tenant
    landings := s.landings.filter fun l => l.tenant != tenant }
  let s := s.modTenant tenant fun t =>
    { t with
      queues := (List.range 64).foldl (fun l k =>
        let q := tget Queue.reset k l
        tset k { q with ctl := q.ctl ||| 2, busy := none } l) t.queues
      armed := [], busySlots := [], shapes := [], images := [], qdl := 0 }
  s.faultRecord tenant ⟨0x23, 0, 0xFFFFFFFF, 0, 0, 0, 0, 0⟩

/-! ## Retirement (R389) -/

/-- A unit that Rook retires: a core, a cluster or a vault. -/
inductive Unit' where
  | core (k : Nat)
  | cluster (c : Nat)
  | vault (v : Nat)
  deriving DecidableEq, Repr

/-- The unit of a kind and number (R383), if there is one. -/
def unitOf (kind n : Nat) : Option Unit' :=
  match kind with
  | 0 => if n < 512 then some (.core n) else none
  | 1 => if n < 64 then some (.cluster n) else none
  | 2 => if n < 256 then some (.vault n) else none
  | _ => none

/-- The cores of a unit. -/
def Unit'.cores : Unit' → List Nat
  | .core k => [k]
  | .cluster c => coresOf c
  | .vault v => [lowerCore v, upperCore v]
/-- Whether a unit's counters reach its threshold. -/
def State.worn (s : State) : Unit' → Bool
  | .core k => 4 ≤ (s.core k).errors
  | .cluster c => 2 ≤ (s.cluster c).errors
  | .vault v => 16 ≤ (s.vault v).failGranules
def State.retiring' (s : State) : Unit' → Bool
  | .core k => (s.core k).retiring
  | .cluster c => (s.cluster c).retiring
  | .vault v => (s.vault v).retiring
/-- The unit takes no new placement from now on; a vault retires together with both cores beneath it. -/
def State.setRetiring (s : State) (u : Unit') : State :=
  match u with
  | .core k => s.modCore k fun c => { c with retiring := true }
  | .cluster c => s.modCluster c fun x => { x with retiring := true }
  | .vault v => u.cores.foldl (fun s k => s.modCore k fun c => { c with retiring := true }) (s.modVault v fun x => { x with retiring := true })
/-- The unit is retired, and the report asks for a replacement. -/
def State.setRetired (s : State) (u : Unit') : State :=
  let s := { s with firmware := { s.firmware with replace := true } }
  match u with
  | .core k => s.modCore k fun c => { c with retired := true }
  | .cluster c => s.modCluster c fun x => { x with retired := true }
  | .vault v => u.cores.foldl (fun s k => s.modCore k fun c => { c with retired := true }) (s.modVault v fun x => { x with retired := true })
/-- A unit begins to retire, and is retired once it holds no resident ply. -/
def State.retireUnit (s : State) (u : Unit') : State :=
  let s := s.setRetiring u
  if u.cores.all fun k => (s.onCore k).isEmpty then s.setRetired u else s

/-- UNIT_RETIREMENT (R389): Rook retires a unit whose counters have reached its threshold, or that is retiring. -/
def State.retireWorn (s : State) (kind number : Nat) : State :=
  match unitOf kind number with
  | some u => if s.worn u || s.retiring' u then s.retireUnit u else s
  | none => s
def execUnitRetirement (kind number : Nat) (s : State) : Outcome := (s.retireWorn kind number).ok

/-! ## Attestation (R388) -/

/-- A bitmap of n units, 8 in a byte. -/
def bitmap (n : Nat) (p : Nat → Bool) : List Byte :=
  (List.range (n / 8)).map fun i => BitVec.ofNat 8 (bitsBelow (fun j => p (8 * i + j)) 8)

/-- The configuration table. The partition field of a cluster in none is a free value (log 10). -/
def State.configTable (s : State) : List Byte :=
  (List.range 64).map (fun c =>
    let x := s.cluster c
    let part := match x.part with
      | some p => p.toNat
      | none => (Config.undefinedByte s.tick c).toNat % 16
    BitVec.ofNat 8 (part + 16 * x.regulator.toNat + if x.retired then 128 else 0)) ++
  (List.range 16).flatMap (fun t => dwordBytes (s.tenant t).ptroot ++ leBytes 4 (s.tenant t).share) ++
  bitmap 512 (fun k => (s.core k).retired) ++ bitmap 256 fun v => (s.vault v).retired

/-- The report for a nonce. -/
def State.attestation (s : State) (nonce : List Byte) : List Byte :=
  let b := leBytes 4 1 ++ wordBytes Config.rookVersion ++ (List.range 32).map Config.deviceKey ++ nonce ++ s.firmware.digest ++
    sha512 s.configTable ++ dwordBytes s.ptime ++ leBytes 4 (if s.firmware.replace then 1 else 0) ++ zeros 4
  b ++ (List.range 64).map (Config.signature b)

/-! ## SMC (R383) -/

/-- Rook performs the request of a block of 64 bytes: the status. 32-bit operands are words, addresses 8 bytes, packed from
byte 4 on. -/
def State.request' (s : State) (tenant : Nat) (b : List Byte) : Nat × State :=
  let a := num b 4 4
  let c := num b 8 4
  match num b 0 4 with
  | 1 => if 16 ≤ a || 64 ≤ c then (1, s) else s.moveCluster c (some (BitVec.ofNat 4 a))
  | 2 => if 64 ≤ a then (1, s) else s.moveCluster a none
  | 3 => if 16 ≤ a then (1, s) else (0, s.resetPartition a)
  | 4 =>
    let root := num b 8 8
    if 16 ≤ a || root % 2 ^ 14 != 0 || 2 ^ 52 ≤ root then (1, s)
    else (0, s.modTenant a fun t => { t with ptroot := BitVec.ofNat 64 root })
  | 5 => if 64 ≤ a || 4 ≤ c then (1, s) else s.moveRegulator a (BitVec.ofNat 2 c)
  | 6 =>
    if 16 ≤ a then (1, s)
    else
      let rest := ((List.range 16).filter fun t => t != a).foldl (fun n t => n + (s.tenant t).share) 0
      if 65536 < rest + c then (3, s) else (0, s.modTenant a fun t => { t with share := c })
  | 7 =>
    let at' := BitVec.ofNat 64 (num b 4 8)
    match s.range tenant .write at' 280 with
    | .error _ => (1, s)
    | .ok _ => (0, s.writeVirt 0 noCore tenant at' (s.attestation (slice b 12 32)))
  | 8 =>
    match unitOf a c with
    | some u => (0, s.retireUnit u)
    | none => (1, s)
  | _ => (1, s)

/-- The answer to an SMC: a block that cannot be read is malformed. -/
def State.answerSmc (s : State) (uid : Nat) (h : HubOp) (tenant : Nat) (d : BitVec 6) (address : DWord) : State :=
  let s := s.hubReads tenant address 64
  let (st, s) := match s.readVirt noCore tenant address 64 with
    | .ok b => s.request' tenant b
    | .error _ => (1, s)
  s.answer uid h [(d, BitVec.ofNat 32 st)]

/-- SMC (R383): its block says what is asked. -/
def State.smc (s : State) (d a : BitVec 6) : State :=
  if s.ply.management && s.ply.supervisor then (s.pushHub (.smc d (s.S64 a))).done else s.raisePriv 1

/-- SMC, code 1 (R383). -/
def execSmcAssignCluster (d a : BitVec 6) (s : State) : Outcome := (s.smc d a).ok
/-- SMC, code 2 (R383). -/
def execSmcReleaseCluster (d a : BitVec 6) (s : State) : Outcome := (s.smc d a).ok
/-- SMC, code 3 (R375, R383). -/
def execSmcResetPartition (d a : BitVec 6) (s : State) : Outcome := (s.smc d a).ok
/-- SMC, code 4 (R383). -/
def execSmcSetRoot (d a : BitVec 6) (s : State) : Outcome := (s.smc d a).ok
/-- SMC, code 5 (R383). -/
def execSmcSetRegulator (d a : BitVec 6) (s : State) : Outcome := (s.smc d a).ok
/-- SMC, code 6 (R383). -/
def execSmcSetScopeShare (d a : BitVec 6) (s : State) : Outcome := (s.smc d a).ok
/-- SMC, code 7 (R383, R388). -/
def execSmcAttest (d a : BitVec 6) (s : State) : Outcome := (s.smc d a).ok
/-- SMC, code 8 (R383, R389). -/
def execSmcRetireUnit (d a : BitVec 6) (s : State) : Outcome := (s.smc d a).ok

/-! ## Power gating (R350, R384) -/

/-- The upper die of a tower. -/
def upperDie (tower : Nat) : Nat := 2 * tower + 1

/-- The plies that a gate request saved are restored on their own cores; one that finds no room there waits for it. -/
def State.restoreGated (s : State) (tower : Nat) : State :=
  (s.saved.filter fun v => v.gated && dieOf v.ply.core == upperDie tower).foldl (fun s v =>
    if (s.restoreNeeds v v.ply.core false).isSome then s.restore v v.ply.core false
    else { s with
      saved := s.saved.map fun (w : Saved) =>
        if w.ply.uid == v.ply.uid then { w with gated := false, ply := { w.ply with fixedCore := true } } else w }) s

/-- The status of the request of a ply with that issue number, if it is a PWRQ. -/
def State.answerPwrq (s : State) (uid seq status : Nat) : State :=
  match s.request uid seq with
  | none => s
  | some h =>
    match h.kind with
    | .pwrq d _ _ _ => s.answer uid h [(d, BitVec.ofNat 32 status)]
    | _ => s
/-- The request is held: its status comes later. -/
def State.holdPwrq (s : State) (uid seq : Nat) : State :=
  s.modAny uid fun p =>
    { p with hubq := p.hubq.map fun (h : HubOp) =>
        match h.kind with
        | .pwrq d g t _ => if h.seq == seq then { h with kind := .pwrq d g t true } else h
        | _ => h }

/-- A PWRQ at the power control: op and tower; tower 4 stands for a malformed request. -/
def State.power (s : State) (uid seq : Nat) (gate : Bool) (tower : Nat) : State :=
  let die := upperDie tower
  if 4 ≤ tower then s.answerPwrq uid seq 3
  else if gate then
    match s.die die with
    | .powered =>
      if s.all.any fun p => !p.management && dieOf p.core == die && 2 ≤ p.gangsize.toNat then s.answerPwrq uid seq 1
      else (s.setDie die (.gating uid seq)).holdPwrq uid seq
    | _ => s.answerPwrq uid seq 2
  else
    match s.die die with
    | .powered => s.answerPwrq uid seq 2
    | .gating u q => (((s.setDie die .powered).answerPwrq u q 1).restoreGated tower).answerPwrq uid seq 0
    | .gated => s.holdPwrq uid seq

/-- PWRQ (R384) (log 79). -/
def State.pwrq (s : State) (d a : BitVec 6) : State :=
  let w := (s.S a).toNat
  let tower := if w - bits w 8 8 * 256 < 4 then bits w 1 0 else 4
  if s.ply.management && s.ply.supervisor then (s.pushHub (.pwrq d (bits w 8 8 == 1) tower false)).done else s.raisePriv 1

/-- PWRQ, op 1 (R350, R384). -/
def execPwrqGate (d a : BitVec 6) (s : State) : Outcome := (s.pwrq d a).ok
/-- PWRQ, op 0 (R350, R384). -/
def execPwrqPower (d a : BitVec 6) (s : State) : Outcome := (s.pwrq d a).ok

/-- DIE_GATED (R350): every ply of a die being gated is saved. -/
def State.gateDie (s : State) (tower : Nat) : State :=
  let die := upperDie tower
  match s.die die with
  | .gating u q =>
    if s.all.any fun p => !p.management && dieOf p.core == die then s
    else (s.setDie die .gated).answerPwrq u q 0
  | _ => s
def execDieGated (tower : Nat) (s : State) : Outcome := (s.gateDie tower).awake.ok

/-- The held requests to power a tower's upper die, in the order of their issue. -/
def State.powerRequests (s : State) (tower : Nat) : List (Nat × Nat) :=
  sortBy (fun a b => decide (a.2 < b.2)) (s.everyPly.flatMap fun p => p.hubq.filterMap fun (h : HubOp) =>
    match h.kind with
    | .pwrq _ false t true => if t == tower then some (p.uid, h.seq) else none
    | _ => none)

/-- POWER_RETURN (R350, R384): the saved plies are restored, formation resumes, and the requests held are answered: the first with
0, the others find the die in that state (log 79). -/
def State.powerUp (s : State) (tower : Nat) : State :=
  match s.die (upperDie tower), s.powerRequests tower with
  | .gated, (u, q) :: rest =>
    rest.foldl (fun s (u, q) => s.answerPwrq u q 2)
      (((s.setDie (upperDie tower) .powered).restoreGated tower).answerPwrq u q 0)
  | _, _ => s
def execPowerReturn (tower : Nat) (s : State) : Outcome := (s.powerUp tower).awake.ok

/-! ## TLBINV (R379) -/

/-- TLBINV of one page, or of all: its path waits until the drop completes. -/
def execTlbinv (p : BitVec 6) (s : State) : Outcome :=
  let va := s.S64 p
  (if !s.ply.supervisor then s.raisePriv
  else if va.toNat / 2 ^ 60 != 0 then s.raise (noncanon va)
  else s.wait (.tlbinv false va)).ok
def execTlbinvAll (s : State) : Outcome :=
  (if !s.ply.supervisor then s.raisePriv else s.wait (.tlbinv true 0)).ok

/-- The entries of a partition that a TLBINV drops. -/
def State.dropTlb (s : State) (tenant : Nat) (all : Bool) (va : Nat) : State :=
  let cores := s.partCores tenant
  { s with
    tlb := s.tlb.filter fun e => !(e.tenant == tenant && (all || va / pageSize e.level == e.page))
    headers := s.headers.filter fun (k, _, _) => !cores.contains k }

/-- TLBINV_DROP_COMPLETE (R379): once the ply's earlier stores are performed at package scope. -/
def State.returnTlbinv (s : State) (uid : Nat) : State :=
  match s.find uid with
  | none => s
  | some p =>
    match p.cur.wait with
    | .tlbinv all va =>
      if s.released' p (s.seq + 1) 3 then (s.dropTlb p.tenant all va.toNat).modPly uid fun p => p.finishWait s.now else s
    | _ => s
def execTlbinvDropComplete (ply : Nat) (s : State) : Outcome := (s.returnTlbinv ply).ok

/-! ## The configuration space (R381) -/

/-- One half of a 64-bit field. -/
def setHalf (x : DWord) (high : Bool) (w : Word) : DWord := if high then w ++ loWord x else hiWord x ++ w

/-- The 64 bytes of a descriptor (R359). -/
def Queue.bytes (q : Queue) : List Byte :=
  dwordBytes q.ring ++ dwordBytes q.tailAt ++ dwordBytes q.qdead ++ leBytes 1 q.log2.toNat ++ leBytes 1 q.cls.toNat ++
    leBytes 1 q.ctl.toNat ++ zeros 5 ++ dwordBytes q.missed ++ zeros 24

/-- A store of one word into a tenant's block, outside the descriptors. -/
def Tenant.configWord (t : Tenant) (o : Nat) (w : Word) : Option Tenant :=
  match o with
  | 0x1000 => some { t with trapVec := setHalf t.trapVec false w &&& 0x0FFFFFFFFFFFFFC0 }
  | 0x1004 => some { t with trapVec := setHalf t.trapVec true w &&& 0x0FFFFFFFFFFFFFC0 }
  | 0x1008 => some { t with qdl := w }
  | 0x1010 => some { t with ringBase := setHalf t.ringBase false w }
  | 0x1014 => some { t with ringBase := setHalf t.ringBase true w }
  | 0x1018 => some { t with ringTail := setHalf t.ringTail false w }
  | 0x101C => some { t with ringTail := setHalf t.ringTail true w }
  | 0x1020 => some { t with ringLog2 := BitVec.ofNat 8 (w.toNat % 16) }
  | _ => none

/-- A store of one word into a core's block: an overflow list that holds something keeps its base and capacity. -/
def Core.configWord (c : Core) (held : Nat) (o : Nat) (w : Word) : Option Core :=
  let task := fun (d : Core) => if c.overflow.isEmpty then d else c
  let commit := fun (d : Core) => if held == 0 then d else c
  match o with
  | 0x00 => some { c with binto := w.truncate 20 }
  | 0x08 => some (task { c with taskBase := setHalf c.taskBase false w })
  | 0x0C => some (task { c with taskBase := setHalf c.taskBase true w })
  | 0x10 => some (task { c with taskCap := w })
  | 0x18 => some (commit { c with commitBase := setHalf c.commitBase false w })
  | 0x1C => some (commit { c with commitBase := setHalf c.commitBase true w })
  | 0x20 => some (commit { c with commitCap := w })
  | 0x14 | 0x24 => some c
  | _ => none

/-- A store of one word into a vault's block. -/
def Vault.configWord (v : Vault) (o : Nat) (w : Word) : Option Vault :=
  let area := fun (u : Vault) => if v.elements.length ≤ 4096 then u else v
  match o with
  | 0x00 => some (area { v with fadddBase := setHalf v.fadddBase false w })
  | 0x04 => some (area { v with fadddBase := setHalf v.fadddBase true w })
  | 0x08 => some (area { v with fadddCap := w })
  | 0x0C => some v
  | _ => if 0x40 ≤ o && o < 0x40 + 24 * 16 then some v else none

/-- A store of one word into the configuration space, outside the descriptors, if the table has a field there. -/
def State.configWord (s : State) (off : Nat) (w : Word) : Option State :=
  if off < 0x40000 then ((s.tenant (off / 0x4000)).configWord (off % 0x4000) w).map (s.setTenant (off / 0x4000))
  else if 0x100000 ≤ off && off < 0x100000 + 64 * 0x100 then
    let c := off / 0x100 % 0x1000
    match off % 0x100 with
    | 0x00 => some (s.writeCcr c w)
    | 0x04 => some (s.modCluster c fun x => { x with lease := w.truncate 16 })
    | 0x08 => some (s.modCluster c fun x =>
        { x with gap := BitVec.ofNat 8 (bits w.toNat 15 8), count := if bits w.toNat 7 0 == 0 then x.count else w.truncate 8 })
    | _ => none
  else if 0x200000 ≤ off && off < 0x200000 + 512 * 0x100 then
    let k := off / 0x100 % 0x1000
    ((s.core k).configWord (s.core k).commitOverflow (off % 0x100) w).map (s.setCore k)
  else if 0x300000 ≤ off && off < 0x300000 + 256 * 0x200 then
    let v := (off - 0x300000) / 0x200
    ((s.vault v).configWord (off % 0x200) w).map (s.setVault v)
  else none

/-- Replaces the bytes of a list from an offset on. -/
def patch (l : List Byte) (o : Nat) (b : List Byte) : List Byte := l.take o ++ b ++ l.drop (o + b.length)

/-- CONFIGURATION_WRITE (R381): an aligned store of 4 or 8 bytes. Where it covers two words, each takes its own (log 80). -/
def State.configure (s : State) (off : Nat) (b : List Byte) : Option State :=
  let n := b.length
  if (n != 4 && n != 8) || off % n != 0 then none
  else if off < 0x40000 && off % 0x4000 < 0x1000 then
    let t := off / 0x4000
    let k := off % 0x4000 / 64
    some (s.rewriteQueue t k (patch ((s.tenant t).queue k).bytes (off % 64) b))
  else
    let one := s.configWord off (bytesWord (b.take 4))
    if n == 4 then one
    else
      match (one.getD s).configWord (off + 4) (bytesWord (b.drop 4)) with
      | some t => some t
      | none => one
/-- The bytes of a tenant's block outside the descriptors, by word. -/
def Tenant.configRead (t : Tenant) (o : Nat) : Option Word :=
  match o with
  | 0x1000 => some (loWord t.trapVec)
  | 0x1004 => some (hiWord t.trapVec)
  | 0x1008 => some t.qdl
  | 0x1010 => some (loWord t.ringBase)
  | 0x1014 => some (hiWord t.ringBase)
  | 0x1018 => some (loWord t.ringTail)
  | 0x101C => some (hiWord t.ringTail)
  | 0x1020 => some (t.ringLog2.zeroExtend 32)
  | _ => none
/-- The words of a cluster's block (R321, R177, R311). -/
def Cluster.configRead (c : Cluster) (o : Nat) : Option Word :=
  match o with
  | 0x00 => some (BitVec.ofNat 32 ((if c.knight then 2 ^ 31 else 0) + c.sw.toNat * 2 ^ 24 + c.step.toNat * 2 ^ 16 + c.l2lease.toNat))
  | 0x04 => some (c.lease.zeroExtend 32)
  | 0x08 => some (BitVec.ofNat 32 (c.gap.toNat * 256 + c.count.toNat))
  | _ => none
/-- The words of a core's block; held is its commit overflow. -/
def Core.configRead (c : Core) (held : Nat) (o : Nat) : Option Word :=
  match o with
  | 0x00 => some (c.binto.zeroExtend 32)
  | 0x08 => some (loWord c.taskBase)
  | 0x0C => some (hiWord c.taskBase)
  | 0x10 => some c.taskCap
  | 0x14 => some (BitVec.ofNat 32 c.overflow.length)
  | 0x18 => some (loWord c.commitBase)
  | 0x1C => some (hiWord c.commitBase)
  | 0x20 => some c.commitCap
  | 0x24 => some (BitVec.ofNat 32 held)
  | _ => none
/-- The words of a vault's block, its counters by tenant among them (R329, R338). -/
def Vault.configRead (v : Vault) (o : Nat) : Option Word :=
  match o with
  | 0x00 => some (loWord v.fadddBase)
  | 0x04 => some (hiWord v.fadddBase)
  | 0x08 => some v.fadddCap
  | 0x0C => some (BitVec.ofNat 32 (v.elements.length - 4096))
  | _ =>
    if 0x40 ≤ o && o < 0x40 + 24 * 16 then
      let (a, b, c) := tget (0, 0, 0) ((o - 0x40) / 24) v.counts
      let x := match (o - 0x40) % 24 / 8 with
        | 0 => a
        | 1 => b
        | _ => c
      some (if (o - 0x40) % 8 == 0 then loWord x else hiWord x)
    else none
/-- The word that a load takes at an offset of the configuration space, if the table has a field there (R381). -/
def State.configRead (s : State) (off : Nat) : Option Word :=
  if off < 0x40000 then
    if off % 0x4000 < 0x1000 then
      some (bytesWord (slice ((s.tenant (off / 0x4000)).queue (off % 0x4000 / 64)).bytes (off % 64 / 4 * 4) 4))
    else (s.tenant (off / 0x4000)).configRead (off % 0x4000)
  else if 0x100000 ≤ off && off < 0x100000 + 64 * 0x100 then (s.cluster (off / 0x100 % 0x1000)).configRead (off % 0x100)
  else if 0x200000 ≤ off && off < 0x200000 + 512 * 0x100 then
    let c := s.core (off / 0x100 % 0x1000)
    c.configRead c.commitOverflow (off % 0x100)
  else if 0x300000 ≤ off && off < 0x300000 + 256 * 0x200 then (s.vault ((off - 0x300000) / 0x200)).configRead ((off - 0x300000) % 0x200)
  else none
/-- The bytes of an aligned load of 4 or 8 bytes from the configuration space (R381). Of two words that it covers, one without a field
reads as zero (log 80). -/
def State.configLoad (s : State) (off n : Nat) : Option (List Byte) :=
  if (n != 4 && n != 8) || off % n != 0 then none
  else if n == 4 then (s.configRead off).map wordBytes
  else
    match s.configRead off, s.configRead (off + 4) with
    | none, none => none
    | a, b => some (wordBytes (a.getD 0) ++ wordBytes (b.getD 0))

/-- CONFIGURATION_WRITE (R381): service firmware stores, or loads; what it loads goes back to it. -/
def execConfigurationWrite (offset : Nat) (access : ConfigAccess) (s : State) : Outcome :=
  match access with
  | .store b =>
    match s.configure offset b with
    | some t => .next t
    | none => .fault (.configurationHole offset)
  | .load n =>
    match s.configLoad offset n with
    | some b => .next { s with outgoing := s.outgoing ++ [⟨0, 0, 4, BitVec.ofNat 64 offset, b⟩] }
    | none => .fault (.configurationHole offset)

/-! ## Boot (R386, R387) -/

/-- Whether Rook accepts an image: its signature verifies and its version is not below the rollback counter. -/
def imageAccepted (i : BootImage) (rollback : Nat) : Bool := i.signatureOk && decide (rollback ≤ i.version)

/-- Service firmware runs from an accepted image. -/
def Firmware.start (f : Firmware) (i : BootImage) : Firmware :=
  { f with running := true, recovery := false, digest := i.digest, version := i.version }

/-- PACKAGE_POWER_ON (R386, R387): the machine at reset; slot A, then slot B, else recovery (log 81). -/
def State.powerOn (s : State) (slotA slotB : Option BootImage) (rollback : Nat) : State :=
  let f : Firmware := { State.reset.firmware with rollback := rollback }
  let f := match [slotA, slotB].find? fun i => (i.map fun x => imageAccepted x rollback).getD false with
    | some (some i) => f.start i
    | _ => { f with recovery := true }
  { State.reset with firmware := f, agenda := s.agenda, tick := s.tick }
def execPackagePowerOn (slotA slotB : Option BootImage) (rollback : Nat) (s : State) : Outcome :=
  (s.powerOn slotA slotB rollback).ok

/-- RECOVERY_IMAGE (R386): in recovery Rook accepts only a signed image. -/
def State.recover (s : State) (image : BootImage) : State :=
  if s.firmware.recovery && imageAccepted image s.firmware.rollback then { s with firmware := s.firmware.start image } else s
def execRecoveryImage (image : BootImage) (s : State) : Outcome := (s.recover image).ok

end Sys2Proof.Machine
end

