-- ==== Sys2Proof/Machine/Sync.lean ====
section
/-!
DEFINITION. The barrier instructions and the events of leaves and roots (spec/10 R233 to R236, spec/15 R307 to R311, spec/17
R353).
-/
namespace Sys2Proof.Machine

/-- The leaf that a barrier word names for a ply of a core: none where a bit above [14:5] is set or the core is outside its
cluster (R233). -/
def leafNamed (core : Nat) (w : Word) : Option (Nat × Nat) :=
  let c := bits w.toNat 14 5
  if bits w.toNat 31 15 != 0 || clusterOf c != clusterOf core then none else some (c, bits w.toNat 4 0)

/-- The instruction goes on with its leaf, or raises ENGINE 11 (R233) (log 49). -/
def State.withLeaf (s : State) (b : BitVec 6) (k : Nat → Nat → State) : State :=
  match leafNamed s.ply.core (s.S b) with
  | none => s.raise (engine 11)
  | some (core, leaf) => k core leaf

/-- The lane's record. -/
def Ply.info (p : Ply) (lane : Nat) : LaneInfo := (p.lanes[lane]?).getD LaneInfo.empty

/-- Arrivals of the counted lanes begin their release wait (R310). -/
def State.beginArrival (s : State) (seq core leaf : Nat) (waits : Bool) : State :=
  let a : Arrival := ⟨seq, s.ply.uid, core, leaf, s.storeLanes, s.leafScope s.ply.core core leaf, waits⟩
  { s with arrivals := s.arrivals ++ [a] }

/-- BARA (R235). -/
def execBara (d b : BitVec 6) (s : State) : Outcome :=
  (s.withLeaf b fun core leaf =>
    if s.storeLanes.isEmpty then s.sresult d ((s.leaf core leaf).phase.zeroExtend 32)
    else
      let s := s.pushHub (.bara d)
      (s.beginArrival s.seq core leaf false).done).ok

/-- BARA.ENR (R235). -/
def execBaraEnr (d b : BitVec 6) (s : State) : Outcome :=
  (s.withLeaf b fun core leaf =>
    let lanes := s.storeLanes
    match lanes.find? fun i => (s.ply.info i).leaf.isSome && (s.ply.info i).leaf != some (core, leaf) with
    | some i => s.raise (engine 12 none i)
    | none =>
      let enrol (p : Ply) (i : Nat) : Ply := { p with lanes := p.lanes.setIfInBounds i { p.info i with leaf := some (core, leaf) } }
      State.sresult { s with ply := lanes.foldl enrol s.ply } d ((s.leaf core leaf).phase.zeroExtend 32)).ok

/-- BARW (R235, R310). -/
def execBarw (p b : BitVec 6) (s : State) : Outcome :=
  (s.withLeaf b fun core leaf => s.killHere State.done fun s =>
    let phase : BitVec 16 := (s.S p).truncate 16
    if (s.leaf core leaf).phase != phase then (s.queueMem (.fence false true (s.leafScope s.ply.core core leaf))).done
    else s.beginWait (.barw core leaf phase (s.leafScope s.ply.core core leaf))).ok

/-- BARAW (R235, R310, R412). -/
def execBaraw (b : BitVec 6) (s : State) : Outcome :=
  (s.withLeaf b fun core leaf => s.killHere State.done fun s =>
    if s.storeLanes.isEmpty then
      s.beginWait (.barw core leaf (s.leaf core leaf).phase (s.leafScope s.ply.core core leaf))
    else s.beginWait (.baraw core leaf (s.seq + 1)) fun s => s.fresh.2.beginArrival (s.seq + 1) core leaf true).ok

/-- BARX (R235). -/
def execBarx (n b : BitVec 6) (s : State) : Outcome :=
  (s.withLeaf b fun core leaf =>
    if s.storeLanes.isEmpty then s.done else s.done.creditLeaf core leaf (-(s.S n).toInt)).ok

/-- Whether a wait is one at a leaf. -/
def Wait.isAt (w : Wait) (core leaf : Nat) : Bool :=
  match w with
  | .barw c l _ _ | .barawNext c l _ _ | .baraw c l _ | .released c l _ _ _ => c == core && l == leaf
  | _ => false

/-- Whether a leaf has an enrolled task, an arrival that has counted or a waiting path (R235) (log 48). -/
def State.leafBusy (s : State) (core leaf : Nat) : Bool :=
  (s.leaf core leaf).arrived != 0 || (s.leaf core leaf).next != 0 ||
    s.everyPly.any fun p =>
      p.path0.wait.isAt core leaf || p.path1.wait.isAt core leaf ||
        (List.range 96).any fun i => (p.info i).leaf == some (core, leaf)

/-- A leaf is linked to a root, or unlinked (R307). -/
def State.link' (s : State) (core leaf : Nat) (root : Option Nat) : State :=
  if (s.leaf core leaf).root == root then s
  else
    let s := s.unlink core leaf
    match root with
    | none => s
    | some r =>
      let s := s.setLeaf core leaf { s.leaf core leaf with root := some r }
      let x := s.root (clusterOf core) r
      s.setRoot (clusterOf core) r { x with linked := x.linked + 1 }

/-- BARINIT (R235). -/
def execBarinit (n b : BitVec 6) (s : State) : Outcome :=
  let w := s.S n
  (s.withLeaf b fun core leaf =>
    if bits w.toNat 30 29 != 0 || bits w.toNat 23 16 != 0 then s.raise (engine 11 (some (w.zeroExtend 64)))
    else if s.leafBusy core leaf then s.raise (engine 12)
    else
      let s := s.link' core leaf (if w.getLsbD 31 then some (bits w.toNat 28 24) else none)
      (s.setLeaf core leaf { s.leaf core leaf with
        expected := w.truncate 16, arrived := 0, bytes := 0, done := (s.leaf core leaf).closing.isSome }).done).ok

/-! ## Events -/

/-- Whether the release wait of an arrival is over (R310): the ply's earlier accesses are performed as before a FENCE.REL at its
scope, and its counted lanes' earlier FADDDs are accepted (R340). An arrival at a leaf that is about to reset waits (log 97). -/
def State.arrivalFree (s : State) (a : Arrival) : Bool :=
  match s.anyPly a.uid with
  | none => true
  | some p => s.released' p a.seq a.scope && a.lanes.all (fun l => p.fadddsAccepted l a.seq) && !(s.leaf a.core a.leaf).resetting

/-- BARRIER_ARRIVAL (R310, R340): arrivals whose waits are over are added. -/
def State.arriveLeaf (s : State) (seq : Nat) : State :=
  match s.arrivals.find? fun (a : Arrival) => a.seq == seq with
  | none => s
  | some a => if s.arrivalFree a then (s.countArrival a).reap else s
def execBarrierArrival (core seq : Nat) (s : State) : Outcome :=
  (if s.arrivals.any fun a => a.seq == seq && a.core == core then (s.arriveLeaf seq).awake else s).ok

/-- Whether a linked leaf may report (R308, R340). -/
def State.mayReport (s : State) (core leaf : Nat) : Bool :=
  let l := s.leaf core leaf
  l.root.isSome && l.done && !l.reported && !l.flip && l.closing.isNone && !l.resetting && !s.hasWindow core leaf l.phase

/-- A report reaches the leaf's root, which flips when all linked leaves have reported. -/
def State.reportLeaf (s : State) (core leaf : Nat) : State :=
  let l := s.leaf core leaf
  match l.root with
  | none => s
  | some n =>
    if s.mayReport core leaf then
      let cl := clusterOf core
      let s := s.setLeaf core leaf { l with reported := true }
      let r := s.root cl n
      let s := s.setRoot cl n { r with reported := r.reported + 1 }
      if r.reported + 1 == r.linked then s.flipRoot cl n else s
    else s
/-- ROOT_REPORT (R308). -/
def execRootReport (core leaf : Nat) (s : State) : Outcome := (s.reportLeaf core leaf).ok

/-- ROOT_FLIP_ARRIVAL (R308). -/
def execRootFlipArrival (core leaf : Nat) (s : State) : Outcome :=
  (if (s.leaf core leaf).flip then ((s.advanceLeaf core leaf).settleLeaf core leaf).runDepartures else s).ok

/-- The plies of a cluster that wait for a wave, each with its memory scope, its release and its wave. -/
def State.waves (s : State) (cluster : Nat) : List (Nat × Nat × Nat × Nat) :=
  s.all.filterMap fun p =>
    if clusterOf p.core == cluster then
      match p.cur.wait with
      | .released _ _ scope r w => some (p.uid, scope, r, w)
      | _ => none
    else none

/-- The next wave of the first release of a cluster that has one becomes eligible (R311). -/
def State.releaseNext (s : State) (cluster : Nat) : State :=
  let ws := s.waves cluster
  match ws with
  | [] => s
  | (_, _, r, w) :: _ =>
    let mine := ws.filter fun x => x.2.2.1 == r
    let first := mine.foldl (fun m x => min m x.2.2.2) w
    mine.foldl (fun (s : State) (u, scope, _, n) => if n == first then s.returnFromLeaf u scope else s) s
/-- RELEASE_WAVE (R311) (log 3). -/
def execReleaseWave (cluster : Nat) (s : State) : Outcome := (s.releaseNext cluster).ok

end Sys2Proof.Machine
end

