-- ==== Sys2Proof/Machine/Events.lean ====
section
/-!
DEFINITION. The events of the issue itself: the pipe's choice of a path (spec/11 R246), the answer of a long-latency result
(spec/04 R103), the end of a wait in the pipe, the watchdog (R106), an illegal word (spec/03 R93) and a fetch fault (R72).
-/
namespace Sys2Proof.Machine

/-! ## The pipe's choice (R101, R246) -/

/-- Whether path k of a ply is eligible (R101): during a run its own path only, in a trap handler the interrupted one. -/
def State.eligible (s : State) (p : Ply) (k : Nat) : Bool :=
  let q := p.path k
  !q.isFree && q.wait = .none && (if p.running then k == p.slot else s.ready p q.awaited) && (!p.supervisor || k == p.trapSlot)

/-- The clock of a core in MHz (R319). -/
def State.mhz (s : State) (core : Nat) : Nat :=
  match (s.cluster (clusterOf core)).running.toNat with
  | 0 => 1500
  | 1 => 1250
  | 2 => 1000
  | 3 => 750
  | _ => 500

/-- Whether a path has been eligible without issuing for 4,096 clk (R246) (log 53). -/
def State.aged (s : State) (p : Ply) (k : Nat) : Bool := decide (4096000 ≤ (s.now - (p.path k).since) * s.mhz p.core)

/-- Whether the first of two eligible paths comes before the second (R246). -/
def State.sooner (s : State) (a b : Ply × Nat) : Bool :=
  let (p, j) := a
  let (q, k) := b
  let old (p : Ply) (j : Nat) := s.aged p j
  if old p j != old q k then old p j
  else if old p j && (p.path j).since != (q.path k).since then decide ((p.path j).since < (q.path k).since)
  else
    let c := p.pathClass (p.path j)
    let d := q.pathClass (q.path k)
    if c != d then decide (c < d)
    else if p.age != q.age then decide (p.age < q.age)
    else j != p.slot && k == q.slot

/-- The plies of a pipe. -/
def State.onPipe (s : State) (core pipe : Nat) : List Ply := s.all.filter fun p => p.core == core && p.pipe == pipe

/-- The ply and path that a pipe issues next: the run that it is issuing, or the choice of R246. -/
def State.nextPath (s : State) (core pipe : Nat) : Option (Ply × Nat) :=
  let ps := s.onPipe core pipe
  match ps.find? fun p => p.running && !p.resumes && p.cur.wait = .none with
  | some p => some (p, p.slot)
  | none => (sortBy s.sooner (ps.flatMap fun p => ([0, 1].filter (s.eligible p)).map fun k => (p, k))).head?

/-- A run of path k begins (R88, R101, R170), with empty latches, or goes on after a wait. -/
def Ply.beginRun (p : Ply) (k now : Nat) : Ply :=
  if p.running then { p with resumes := false }
  else
    let q := p.path k
    { p.setPath k { q with runClass := q.hprio, hprio := none, awaited := [] } with
      slot := k, running := true, pos := 0, latches := [], runSince := now }

/-- A ply becomes the one that issues (log 91). -/
def State.bring (s : State) (p : Ply) : State :=
  if s.ply.uid == p.uid then { s with ply := p }
  else { s with
    ply := p
    plies := (if s.ply.resident then [s.ply] else []) ++ s.plies.filter fun q => q.uid != p.uid }

/-- PATH_CHOICE (R246). -/
def State.choosePath (s : State) (core pipe : Nat) : State :=
  let s := s.awake
  match s.nextPath core pipe with
  | none => s
  | some (p, k) => s.bring (p.beginRun k s.now)
def execPathChoice (core pipe : Nat) (s : State) : Outcome := (s.choosePath core pipe).ok

/-! ## Long-latency results (R103) -/

/-- Whether the hub or a unit may answer a request now: the requests of a ply in its issue order (R264), SCOPEN once its
earlier stores are performed at package scope (R265), SHAPEW after its earlier STX (R228). -/
def State.answerable (s : State) (p : Ply) (h : HubOp) : Bool :=
  let inOrder (x : HubOp) : Bool := match x.kind with
    | .ptime _ | .bara _ | .pwrq _ _ _ true => false
    | _ => true
  let first := ((p.hubq.filter inOrder).head?).map (·.seq) == some h.seq
  match h.kind with
  | .ptime _ => true
  | .bara _ | .pwrq _ _ _ true => false
  | .scopen _ _ _ _ => first && s.released' p h.seq 3
  | .shapew _ _ _ => first && !(p.older h.seq).any fun e => e.kind.isStoreX
  | _ => first

/-- A request is performed and answered. -/
def State.answerHub (s : State) (p : Ply) (h : HubOp) : State :=
  let u := p.uid
  let t := p.tenant
  let status (d : BitVec 6) (r : Nat × State) : State := r.2.answer u h [(d, BitVec.ofNat 32 r.1)]
  match h.kind with
  | .ptime d => s.answer u h [(d, loWord s.ptime), (d + 1, hiWord s.ptime)]
  | .shapew d slot at' =>
    let (w, s) := s.writeShape t slot (Shape.parse (s.localRead p.core .xbuf at' 64))
    s.answer u h [(d, w)]
  | .shaperel w => (s.releaseShape t w).answer u h []
  | .scopen d a parent nowhere => status d (s.openScope t p.core a parent nowhere)
  | .scopcl c => (s.sealScope t c).answer u h []
  | .cancel c => (s.cancelScope t c).answer u h []
  | .scpst d c =>
    let (x, y) := s.scopeStatus t c
    s.answer u h [(d, x), (d + 1, y)]
  | .spawn l => (s.registerTasks l).answer u h []
  | .marm d w => status d (s.arm t w)
  | .mdisarm d tag => status d (s.disarm t tag)
  | .smc d a => s.answerSmc u h t d a
  | .pwrq _ g tower _ => s.power u h.seq g tower
  | .bara _ => s

/-- LONG_LATENCY_RESULT (R103): a load takes its value, a request is answered, a PCELL at the head of the path unit's queue
reads its cells, or a SPAWNR's records have been read. -/
def State.takeResult (s : State) (uid seq : Nat) : State :=
  match s.anyPly uid with
  | none => s
  | some p =>
    match p.lsq.find? fun (e : MemOp) => e.seq == seq with
    | some e => if e.kind.takesValue && !e.kind.isAtom && s.performable p e then (s.performRead p e).reap else s
    | none =>
      match p.hubq.find? fun (h : HubOp) => h.seq == seq with
      | some h => if s.answerable p h then (s.answerHub p h).reap else s
      | none =>
        if ((s.core p.core).pathq.head?.map (·.seq)) == some seq then s.runCell p.core
        else s.returnSpawnr uid
def execLongLatencyResult (ply seq : Nat) (s : State) : Outcome := (s.takeResult ply seq).awake.ok

/-- ATOM_PERFORM (R333, R334): a queued ATOM is performed at its unit. -/
def execAtomPerform (ply seq : Nat) (s : State) : Outcome :=
  (match s.anyPly ply with
  | none => s
  | some p =>
    match p.lsq.find? fun (e : MemOp) => e.seq == seq with
    | none => s
    | some e =>
      if s.performable p e then
        match e.kind with
        | .atom op ret v sc ls c => (s.performAtom p e op ret v sc ls c).reap
        | _ => s
      else s).awake.ok

/-- PIPE_WAIT_END (R103): the unit that waited in the pipe may issue. -/
def execPipeWaitEnd (ply : Nat) (s : State) : Outcome := (s.modPly ply fun p => { p with stalled := false }).ok

/-! ## Stores complete (R326) -/

/-- COMPLETION_TIME (R326): at its completion time the home merges the store, after the earlier ones of its line. What waits for
written bytes goes on: a load's report (R69), a scope's release (R258), a
message that landed (R404). -/
def execCompletionTime (store : Nat) (s : State) : Outcome :=
  (match s.stores.find? fun (p : PendingStore) => p.seq == store with
  | none => s
  | some p =>
    if decide (p.time ≤ s.now) && !(s.stores.any fun q => lineOf q.pa == lineOf p.pa && decide (q.seq < p.seq)) then
      let t := s.merge p
      ({ t with reports := t.reports ++ t.reportsOf (lineOf p.pa) } : State).answerLoads.releaseWritten.fireLanded
    else s).ok

/-! ## The watchdog, illegal words and fetch faults -/

/-- Whether the unit of the issuing ply, of k words none of which is YIELD, exceeds the yield allowance (R106). -/
def Ply.exhausted (p : Ply) (k : Nat) : Bool := decide (p.ydl.toNat * 64 < p.yc.toNat + k)

/-- WATCHDOG_DEADLINE (R106): every task of the ply ends with DEADLINE and the ply retires. -/
def execWatchdogDeadline (ply : Nat) (s : State) : Outcome :=
  (if s.ply.uid == ply && s.ply.exhausted s.issue.words then s.endByFault ply Mask.full 0x20 s.issue.first 0 0 else s).ok

/-- ILLEGAL_WORD (R93, R410): the unit raises ILLEGAL with the word found illegal and the other word of its sub-code. -/
def execIllegalWord (sub pos : Nat) (word other : Word) (s : State) : Outcome :=
  (s.raise ⟨0x01, sub, pos, pair word other, 127, true⟩).ok

/-- FETCH_FAULT (R72, R88): XLATE or PROT at the address fetched; a fetch from a retired vault ends the path's tasks with MEMERR
(R389) (log 101). -/
def execFetchFault (code sub : Nat) (address : DWord) (s : State) : Outcome :=
  (if code == 0x21 then s.endByFault s.ply.uid s.path.member (memerr 0 0) s.issue.first address 0
  else s.raise (cause code sub address)).ok

end Sys2Proof.Machine
end

