-- ==== Sys2Proof/Machine/Functions.lean ====
section
/-!
DEFINITION. The correctly rounded functions of R27 and R28: FRCP, FRSQ, FEXP2, FLOG2, FSIN, FCOS, FTANH, FSIGM. A value
that is no dyadic number is enclosed between two integers at a precision of w bits; where both ends round alike, that is
the rounded value, and otherwise the next precision is taken. The last precision separates every fp32 operand from every
rounding boundary that its result can come near (DEDUCED, log 13).
-/
namespace Sys2Proof.Machine

/-! ## Fixed-point series: numbers in units of 2^-w -/

/-- Units of the last place that any of the evaluations below can be wrong by. -/
def slack : Nat := 2 ^ 16

/-- Sum of t / (2k + 1) while t shrinks by the factor q, with alternating sign where alt. -/
def oddSeries (alt : Bool) (q : Nat) : (fuel k t : Nat) → Int
  | 0, _, _ => 0
  | n + 1, k, t =>
    if t == 0 then 0
    else (t / (2 * k + 1) : Nat) + (if alt then -1 else 1) * oddSeries alt q n (k + 1) (t / q)

/-- atan(1/q). -/
def atanInv (w q : Nat) : Int := oddSeries true (q * q) w 0 (2 ^ w / q)
/-- π (Machin). -/
def fixPi (w : Nat) : Nat := (16 * atanInv w 5 - 4 * atanInv w 239).toNat
/-- ln 2 = 2 atanh(1/3). -/
def fixLn2 (w : Nat) : Nat := (2 * oddSeries false 9 w 0 (2 ^ w / 3)).toNat

/-- Σ y^k / k! from term t on, with the step k := k + 1. -/
def expSeries (w y : Nat) : (fuel k t : Nat) → Nat
  | 0, _, _ => 0
  | n + 1, k, t => if t == 0 then 0 else t + expSeries w y n (k + 1) (t * y / 2 ^ w / (k + 1))
/-- e^y for 0 ≤ y < 1. -/
def fixExp (w y : Nat) : Nat := expSeries w y w 0 (2 ^ w)

/-- Σ ± y^(2k+1) / (2k+1)! from term t on. -/
def sinSeries (w y2 : Nat) : (fuel k t : Nat) → Int
  | 0, _, _ => 0
  | n + 1, k, t => if t == 0 then 0 else (t : Int) - sinSeries w y2 n (k + 1) (t * y2 / 2 ^ w / ((2 * k + 2) * (2 * k + 3)))
/-- sin y for 0 ≤ y < 2. -/
def fixSin (w y : Nat) : Nat := (sinSeries w (y * y / 2 ^ w) w 0 y).toNat

/-- Σ z^(2k+1) / (2k+1) from term t on. -/
def atanhSeries (w z2 : Nat) : (fuel k t : Nat) → Nat
  | 0, _, _ => 0
  | n + 1, k, t => if t == 0 then 0 else t / (2 * k + 1) + atanhSeries w z2 n (k + 1) (t * z2 / 2 ^ w)
/-- ln(m / 2^k) for 1 ≤ m / 2^k < 2. -/
def fixLn (w m k : Nat) : Nat :=
  let z := (m - 2 ^ k) * 2 ^ w / (m + 2 ^ k)
  2 * atanhSeries w (z * z / 2 ^ w) w 0 z

/-- m × 2^e in units of 2^-w, rounded down. -/
def fixOf (w m : Nat) (e : Int) : Nat :=
  let s := e + w
  if 0 ≤ s then m * 2 ^ s.toNat else m / 2 ^ (-s).toNat

/-- e^-y for y in units of 2^-w, y at most 2^9: the value in units of 2^-w. -/
def fixExpNeg (w y : Nat) : Nat :=
  let l := fixLn2 w
  let n := y / l + 1
  fixExp w (n * l - y) / 2 ^ n

/-! ## From an enclosure to the rounded value -/

/-- The precisions that are tried in turn. -/
def precisions : List Nat := [96, 192, 400, 1000]

/-- The value lies strictly between v − slack and v + slack in units of 2^e: both ends rounded, just inside. -/
def Fmt.enclosed (f : Fmt) (mode : Mode) (neg : Bool) (v : Nat) (e : Int) : (Nat × BitVec 6) × (Nat × BitVec 6) :=
  (f.roundFin mode false neg (2 * (v - slack) + 1) (e - 1), f.roundFin mode false neg (2 * (v + slack) - 1) (e - 1))

/-- Rounds a value that no boundary equals, by the first precision that decides. -/
def Fmt.decideBy (f : Fmt) (mode : Mode) (neg : Bool) (v : Nat → Nat × Int) : List Nat → Nat × BitVec 6
  | [] => f.invalid false
  | w :: ws =>
    let (x, e) := v w
    let (lo, hi) := f.enclosed mode neg x e
    if lo == hi || ws.isEmpty then lo else Fmt.decideBy f mode neg v ws

/-! ## The functions on values -/

def Fmt.rcpV (f : Fmt) (mode : Mode) (x : Value) : Nat × BitVec 6 := f.divV mode (.fin false 1 0) x

def Fmt.rsqV (f : Fmt) (mode : Mode) (x : Value) : Nat × BitVec 6 :=
  match x with
  | .nan s => f.invalid s
  | .inf neg => if neg then f.invalid true else (f.signed false 0, 0)
  | .fin neg m e =>
    if m == 0 then (f.inf neg, flagDZ)
    else if neg then f.invalid true
    else
      -- 1 / √(m 2^e) = √(2^(2n) / m') 2^(-n - e'/2), with m' 2^e' = m 2^e and e' even
      let (m, e) := if e % 2 == 0 then (m, e) else (2 * m, e - 1)
      let n := Nat.log2 m + f.frac + 4
      let r := isqrt (2 ^ (2 * n) / m) (n + 1) 0
      f.roundFin mode false false (2 * r + if m * (r * r) == 2 ^ (2 * n) then 0 else 1) (-(n : Int) - e / 2 - 1)

/-- 2^(± m 2^e). -/
def Fmt.exp2Fin (f : Fmt) (mode : Mode) (neg : Bool) (m : Nat) (e : Int) : Nat × BitVec 6 :=
  if m == 0 then f.roundFin mode false false 1 0
  else if (Nat.log2 m : Int) + e ≥ 9 then f.roundFin mode false false 1 (if neg then -400 else 400)
  else
    let whole := decide (0 ≤ e) || m % 2 ^ (-e).toNat == 0
    if whole then
      let n : Int := if 0 ≤ e then m * 2 ^ e.toNat else (m / 2 ^ (-e).toNat : Nat)
      f.roundFin mode false false 1 (if neg then -n else n)
    else
      f.decideBy mode false (fun w =>
        -- x = n + r with 0 ≤ r < 1
        let x := fixOf w m e
        let n : Int := if neg then -(x / 2 ^ w : Nat) - 1 else (x / 2 ^ w : Nat)
        let r := if neg then 2 ^ w - x % 2 ^ w else x % 2 ^ w
        (fixExp w (r * fixLn2 w / 2 ^ w), n - w)) precisions
def Fmt.exp2V (f : Fmt) (mode : Mode) (x : Value) : Nat × BitVec 6 :=
  match x with
  | .nan s => f.invalid s
  | .inf neg => if neg then (f.signed false 0, 0) else (f.inf false, 0)
  | .fin neg m e => f.exp2Fin mode neg m e

def Fmt.log2V (f : Fmt) (mode : Mode) (x : Value) : Nat × BitVec 6 :=
  match x with
  | .nan s => f.invalid s
  | .inf neg => if neg then f.invalid true else (f.inf false, 0)
  | .fin neg m e =>
    if m == 0 then (f.inf true, flagDZ)
    else if neg then f.invalid true
    else
      let k := Nat.log2 m
      let n : Int := e + k
      if m == 2 ^ k then f.roundFin mode false (decide (n < 0)) n.natAbs 0
      else
        f.decideBy mode (decide (n < 0)) (fun w =>
          let l := fixLn w m k * 2 ^ w / fixLn2 w
          ((if n < 0 then -n * 2 ^ w - (l : Int) else n * 2 ^ w + (l : Int)).toNat, -(w : Int))) precisions

/-- sin 2πt for t = m / 2^k turns, 0 ≤ t < 1, with the sign neg applied; zero takes the sign neg. -/
def Fmt.sinTurn (f : Fmt) (mode : Mode) (neg : Bool) (m k : Nat) : Nat × BitVec 6 :=
  let half := 2 * m ≥ 2 ^ k
  let m := if half then m - 2 ^ k / 2 else m
  let n := neg != half
  -- now 0 ≤ t < 1/2
  if m == 0 then (f.signed neg 0, 0)
  else if 4 * m == 2 ^ k then f.roundFin mode false n 1 0
  else
    let m := if 4 * m > 2 ^ k then 2 ^ k / 2 - m else m
    f.decideBy mode n (fun w => (fixSin w (2 * fixPi w * m / 2 ^ k), -(w : Int))) precisions

/-- m × 2^e as a fraction of a turn, m' / 2^k with k at least 2. -/
def turn (m : Nat) (e : Int) : Nat × Nat :=
  if 0 ≤ e then (0, 2)
  else
    let k := (-e).toNat + 2
    (4 * m % 2 ^ k, k)

def Fmt.sinV (f : Fmt) (mode : Mode) (x : Value) : Nat × BitVec 6 :=
  match x with
  | .nan s => f.invalid s
  | .inf _ => f.invalid true
  | .fin neg m e =>
    let (t, k) := turn m e
    f.sinTurn mode neg t k

def Fmt.cosV (f : Fmt) (mode : Mode) (x : Value) : Nat × BitVec 6 :=
  match x with
  | .nan s => f.invalid s
  | .inf _ => f.invalid true
  | .fin _ m e =>
    let (t, k) := turn m e
    f.sinTurn mode false ((t + 2 ^ k / 4) % 2 ^ k) k

def Fmt.tanhV (f : Fmt) (mode : Mode) (x : Value) : Nat × BitVec 6 :=
  match x with
  | .nan s => f.invalid s
  | .inf neg => f.roundFin mode false neg 1 0
  | .fin neg m e =>
    if m == 0 then (f.signed neg 0, 0)
    else if (Nat.log2 m : Int) + e ≥ 6 then f.roundFin mode false neg (2 ^ 100 - 1) (-100)
    else
      f.decideBy mode neg (fun w =>
        let u := fixExpNeg w (fixOf w (2 * m) e)
        ((2 ^ w - u) * 2 ^ w / (2 ^ w + u), -(w : Int))) precisions

def Fmt.sigmV (f : Fmt) (mode : Mode) (x : Value) : Nat × BitVec 6 :=
  match x with
  | .nan s => f.invalid s
  | .inf neg => if neg then (f.signed false 0, 0) else f.roundFin mode false false 1 0
  | .fin neg m e =>
    if m == 0 then f.roundFin mode false false 1 (-1)
    else if (Nat.log2 m : Int) + e ≥ 8 then
      if neg then f.roundFin mode false false 1 (-400) else f.roundFin mode false false (2 ^ 100 - 1) (-100)
    else
      f.decideBy mode false (fun w =>
        let u := fixExpNeg w (fixOf w m e)
        (if neg then u * 2 ^ w / (2 ^ w + u) else 2 ^ w * 2 ^ w / (2 ^ w + u), -(w : Int))) precisions

end Sys2Proof.Machine
end

