-- ==== Sys2Proof/Machine/FloatInstr.lean ====
section
/-!
DEFINITION. The float and packed instructions: majors FALU, FSPEC, FT, FCMP, FCVT and PACKED (spec/06 R138 to R149).
-/
namespace Sys2Proof.Machine

/-- A code and its flags as a lane's result. -/
def lane32 (r : Nat × BitVec 6) : Word × BitVec 6 := (BitVec.ofNat 32 r.1, r.2)

/-- Writes the result f of a float instruction, ORs the flags of its active lanes into %fflags, completes it (R138). -/
def State.fresult (s : State) (d : BitVec 7) (nw : BitVec 1) (f : Nat → Word × BitVec 6) : State :=
  let rs : Vector (Word × BitVec 6) 96 := Vector.ofFn fun i : Fin 96 => if s.active.has i.val then f i.val else (0, 0)
  let get (i : Nat) : Word × BitVec 6 := (rs[i]?).getD (0, 0)
  let fl := (List.range 96).foldl (fun a i => a ||| (get i).2) 0
  (State.raiseFlags { s with ply := s.ply.produce d nw (s.merged d fun i => (get i).1) } fl).done

/-- Lane-wise float instructions of one, two and three sources; the sources are codes. -/
def State.fmap1 (s : State) (d a : BitVec 7) (nw : BitVec 1) (f : Nat → Nat × BitVec 6) : State :=
  s.checkV [d, a] (let x := s.V a; s.fresult d nw fun i => lane32 (f (x.at i).toNat))
def State.fmap2 (s : State) (d a b : BitVec 7) (nw : BitVec 1) (f : Nat → Nat → Nat × BitVec 6) : State :=
  s.checkV [d, a, b] (let x := s.V a; let y := s.V b; s.fresult d nw fun i => lane32 (f (x.at i).toNat (y.at i).toNat))
def State.fmap3 (s : State) (d a b : BitVec 7) (nw : BitVec 1) (f : Nat → Nat → Nat → Nat × BitVec 6) : State :=
  s.checkV [d, a, b]
    (let x := s.V a; let y := s.V b; let z := s.V d
     s.fresult d nw fun i => lane32 (f (x.at i).toNat (y.at i).toNat (z.at i).toNat))

/-- Both 16-bit elements of a word (R149). -/
def packed (f : Nat → Nat → Nat → Nat × BitVec 6) (x y t : Nat) : Nat × BitVec 6 :=
  let l := f (x % 65536) (y % 65536) (t % 65536)
  let h := f (x / 65536) (y / 65536) (t / 65536)
  (h.1 * 65536 + l.1, h.2 ||| l.2)

/-- The sign bit of an fp32 code flipped: FMS and FNMA are FMA with a negated operand (R142). -/
def flip32 (x : Nat) : Nat := if x < 2 ^ 31 then x + 2 ^ 31 else x - 2 ^ 31

/-- FADD (R140, R24). -/
def execFadd (d a b : BitVec 7) (w : BitVec 1) (s : State) : Outcome := (s.fmap2 d a b w (fp32.add s.mode)).ok
/-- FSUB (R140, R24). -/
def execFsub (d a b : BitVec 7) (w : BitVec 1) (s : State) : Outcome := (s.fmap2 d a b w (fp32.sub s.mode)).ok
/-- FMUL (R140, R24). -/
def execFmul (d a b : BitVec 7) (w : BitVec 1) (s : State) : Outcome := (s.fmap2 d a b w (fp32.mul s.mode)).ok
/-- FDIV (R140, R27). -/
def execFdiv (d a b : BitVec 7) (w : BitVec 1) (s : State) : Outcome := (s.fmap2 d a b w (fp32.div s.mode)).ok
/-- FMIN (R140, R25). -/
def execFmin (d a b : BitVec 7) (w : BitVec 1) (s : State) : Outcome := (s.fmap2 d a b w (fp32.minmax false false)).ok
/-- FMAX (R140, R25). -/
def execFmax (d a b : BitVec 7) (w : BitVec 1) (s : State) : Outcome := (s.fmap2 d a b w (fp32.minmax true false)).ok
/-- FMINN (R140, R25). -/
def execFminn (d a b : BitVec 7) (w : BitVec 1) (s : State) : Outcome := (s.fmap2 d a b w (fp32.minmax false true)).ok
/-- FMAXN (R140, R25). -/
def execFmaxn (d a b : BitVec 7) (w : BitVec 1) (s : State) : Outcome := (s.fmap2 d a b w (fp32.minmax true true)).ok
/-- FCOPYSIGN (R140). -/
def execFcopysign (d a b : BitVec 7) (w : BitVec 1) (s : State) : Outcome := (s.vmap2 d a b w fun x y => (x &&& 0x7FFFFFFF) ||| (y &&& 0x80000000)).ok
/-- FABS (R140). -/
def execFabs (d a : BitVec 7) (w : BitVec 1) (s : State) : Outcome := (s.vmap1 d a w fun x => x &&& 0x7FFFFFFF).ok
/-- FNEG (R140). -/
def execFneg (d a : BitVec 7) (w : BitVec 1) (s : State) : Outcome := (s.vmap1 d a w fun x => x ^^^ 0x80000000).ok
/-- FFLOOR (R140). -/
def execFfloor (d a : BitVec 7) (w : BitVec 1) (s : State) : Outcome := (s.fmap1 d a w (fp32.integral 3 false)).ok
/-- FCEIL (R140). -/
def execFceil (d a : BitVec 7) (w : BitVec 1) (s : State) : Outcome := (s.fmap1 d a w (fp32.integral 2 false)).ok
/-- FTRUNC (R140). -/
def execFtrunc (d a : BitVec 7) (w : BitVec 1) (s : State) : Outcome := (s.fmap1 d a w (fp32.integral 1 false)).ok
/-- FRINT (R140). -/
def execFrint (d a : BitVec 7) (w : BitVec 1) (s : State) : Outcome := (s.fmap1 d a w (fp32.integral s.mode true)).ok
/-- FSQRT (R140, R27, R28). -/
def execFsqrt (d a : BitVec 7) (w : BitVec 1) (s : State) : Outcome := (s.fmap1 d a w (fp32.sqrt s.mode)).ok
/-- FRCP (R141, R27, R28). -/
def execFrcp (d a : BitVec 7) (w : BitVec 1) (s : State) : Outcome := (s.fmap1 d a w fun x => fp32.rcpV s.mode (fp32.value x)).ok
/-- FRSQ (R141, R27, R28). -/
def execFrsq (d a : BitVec 7) (w : BitVec 1) (s : State) : Outcome := (s.fmap1 d a w fun x => fp32.rsqV s.mode (fp32.value x)).ok
/-- FEXP2 (R141, R27, R28). -/
def execFexp2 (d a : BitVec 7) (w : BitVec 1) (s : State) : Outcome := (s.fmap1 d a w fun x => fp32.exp2V s.mode (fp32.value x)).ok
/-- FLOG2 (R141, R27, R28). -/
def execFlog2 (d a : BitVec 7) (w : BitVec 1) (s : State) : Outcome := (s.fmap1 d a w fun x => fp32.log2V s.mode (fp32.value x)).ok
/-- FSIN (R141, R27, R28). -/
def execFsin (d a : BitVec 7) (w : BitVec 1) (s : State) : Outcome := (s.fmap1 d a w fun x => fp32.sinV s.mode (fp32.value x)).ok
/-- FCOS (R141, R27, R28). -/
def execFcos (d a : BitVec 7) (w : BitVec 1) (s : State) : Outcome := (s.fmap1 d a w fun x => fp32.cosV s.mode (fp32.value x)).ok
/-- FTANH (R141, R27, R28). -/
def execFtanh (d a : BitVec 7) (w : BitVec 1) (s : State) : Outcome := (s.fmap1 d a w fun x => fp32.tanhV s.mode (fp32.value x)).ok
/-- FSIGM (R141, R27, R28). -/
def execFsigm (d a : BitVec 7) (w : BitVec 1) (s : State) : Outcome := (s.fmap1 d a w fun x => fp32.sigmV s.mode (fp32.value x)).ok
/-- FCLASS (R141). -/
def execFclass (d a : BitVec 7) (w : BitVec 1) (s : State) : Outcome := (s.vmap1 d a w fun x => BitVec.ofNat 32 (fclass x.toNat)).ok
/-- FMA (R142). -/
def execFma (d a b : BitVec 7) (w : BitVec 1) (s : State) : Outcome := (s.fmap3 d a b w fun x y t => fp32.fma s.mode x y t).ok
/-- FMS (R142). -/
def execFms (d a b : BitVec 7) (w : BitVec 1) (s : State) : Outcome := (s.fmap3 d a b w fun x y t => fp32.fma s.mode x y (flip32 t)).ok
/-- FNMA (R142). -/
def execFnma (d a b : BitVec 7) (w : BitVec 1) (s : State) : Outcome := (s.fmap3 d a b w fun x y t => fp32.fma s.mode (flip32 x) y t).ok
/-- FADDMIN (R142, R25): the flags of the sum and of the selection. -/
def execFaddmin (d a b : BitVec 7) (w : BitVec 1) (s : State) : Outcome :=
  (s.fmap3 d a b w fun x y t =>
    let r := fp32.add s.modeRne x y
    let m := fp32.minmax false true r.1 t
    (m.1, r.2 ||| m.2)).ok
/-- FADDMAX (R142, R25): the flags of the sum and of the selection. -/
def execFaddmax (d a b : BitVec 7) (w : BitVec 1) (s : State) : Outcome :=
  (s.fmap3 d a b w fun x y t =>
    let r := fp32.add s.modeRne x y
    let m := fp32.minmax true true r.1 t
    (m.1, r.2 ||| m.2)).ok
/-- FCMP.EQ (R143). -/
def execFcmpEq (d a b : BitVec 7) (w : BitVec 1) (s : State) : Outcome := (s.fmap2 d a b w fun x y => let r := fp32.compare 0 x y; (if r.1 then 1 else 0, r.2)).ok
/-- FCMP.NE (R143). -/
def execFcmpNe (d a b : BitVec 7) (w : BitVec 1) (s : State) : Outcome := (s.fmap2 d a b w fun x y => let r := fp32.compare 1 x y; (if r.1 then 1 else 0, r.2)).ok
/-- FCMP.LT (R143). -/
def execFcmpLt (d a b : BitVec 7) (w : BitVec 1) (s : State) : Outcome := (s.fmap2 d a b w fun x y => let r := fp32.compare 2 x y; (if r.1 then 1 else 0, r.2)).ok
/-- FCMP.LE (R143). -/
def execFcmpLe (d a b : BitVec 7) (w : BitVec 1) (s : State) : Outcome := (s.fmap2 d a b w fun x y => let r := fp32.compare 3 x y; (if r.1 then 1 else 0, r.2)).ok
/-- FCMP.GT (R143). -/
def execFcmpGt (d a b : BitVec 7) (w : BitVec 1) (s : State) : Outcome := (s.fmap2 d a b w fun x y => let r := fp32.compare 4 x y; (if r.1 then 1 else 0, r.2)).ok
/-- FCMP.GE (R143). -/
def execFcmpGe (d a b : BitVec 7) (w : BitVec 1) (s : State) : Outcome := (s.fmap2 d a b w fun x y => let r := fp32.compare 5 x y; (if r.1 then 1 else 0, r.2)).ok
/-- FCMP.UN (R143). -/
def execFcmpUn (d a b : BitVec 7) (w : BitVec 1) (s : State) : Outcome := (s.fmap2 d a b w fun x y => let r := fp32.compare 6 x y; (if r.1 then 1 else 0, r.2)).ok
/-- FCMP.ORD (R143). -/
def execFcmpOrd (d a b : BitVec 7) (w : BitVec 1) (s : State) : Outcome := (s.fmap2 d a b w fun x y => let r := fp32.compare 7 x y; (if r.1 then 1 else 0, r.2)).ok

/-! ## Conversions (R145 to R147) -/

/-- The destination format and element of a narrowing pair (R146). -/
def narrowing (i : Nat) : Fmt × Nat :=
  if i < 2 then (fp16, i) else if i < 4 then (bf16, i - 2) else if i < 8 then (e4m3, i - 4)
  else if i < 12 then (e5m2, i - 8) else (e2m1, i - 12)
/-- The source format of a widening pair (R146). -/
def widening (i : Nat) : Fmt :=
  if i == 20 then fp16 else if i == 21 then bf16 else if i == 22 then e4m3 else if i == 23 then e5m2 else e2m1
/-- The mode field of FCVT, FCVTI and ICVTF: 7 stands for %frnd (R81, R145). -/
def ownMode (m : BitVec 3) : Option Nat := if m == 7 then none else some m.toNat

/-- FCVT (R146). -/
def execFcvt (d a : BitVec 7) (i : BitVec 5) (s' : BitVec 1) (m : BitVec 3) (w : BitVec 1) (s : State) : Outcome :=
  let mode := s.mode (ownMode m)
  (if i.toNat < 20 then
    let f := narrowing i.toNat
    let sat := s' == 1 || s.hsat
    s.fmap3 d a 124 w fun x _ t =>
      let r := f.1.convert mode sat (fp32.value x)
      let sh := 2 ^ (f.1.width * f.2)
      (t - t / sh % 2 ^ f.1.width * sh + r.1 * sh, r.2)
  else
    let f := widening i.toNat
    s.fmap1 d a w fun x => fp32.convert mode false (f.value (x % 2 ^ f.width))).ok

/-- The source format, range and width of an FCVTI pair (R147). -/
def toIntPair (i : Nat) : Fmt × Int × Int :=
  let f := if i < 6 then fp32 else if i < 8 then fp16 else bf16
  match i with
  | 2 => (f, -32768, 32767)
  | 3 => (f, 0, 65535)
  | 4 => (f, -128, 127)
  | 5 => (f, 0, 255)
  | _ => if i % 2 == 0 then (f, -2 ^ 31, 2 ^ 31 - 1) else (f, 0, 2 ^ 32 - 1)

/-- FCVTI (R147, R31). -/
def execFcvti (d a : BitVec 7) (i : BitVec 5) (m : BitVec 3) (w : BitVec 1) (s : State) : Outcome :=
  let mode := s.mode (ownMode m)
  let (f, lo, hi) := toIntPair i.toNat
  (s.fmap1 d a w fun x =>
    let r := toInteger mode lo hi (f.value (x % 2 ^ f.width))
    ((word r.1).toNat, r.2)).ok

/-- ICVTF (R147, R31). -/
def execIcvtf (d a : BitVec 7) (i : BitVec 5) (m : BitVec 3) (w : BitVec 1) (s : State) : Outcome :=
  let mode := s.mode (ownMode m)
  let f := if i.toNat < 2 then fp32 else if i.toNat < 4 then fp16 else bf16
  (s.fmap1 d a w fun x => f.ofInt mode (if i.toNat % 2 == 0 then (BitVec.ofNat 32 x).toInt else x)).ok

/-! ## Packed pairs (R149) -/

/-- HADD2 (R149). -/
def execHadd2 (d a b : BitVec 7) (w : BitVec 1) (s : State) : Outcome := (s.fmap2 d a b w fun x y => packed (fun x y _ => fp16.add s.mode x y) x y 0).ok
/-- HSUB2 (R149). -/
def execHsub2 (d a b : BitVec 7) (w : BitVec 1) (s : State) : Outcome := (s.fmap2 d a b w fun x y => packed (fun x y _ => fp16.sub s.mode x y) x y 0).ok
/-- HMUL2 (R149). -/
def execHmul2 (d a b : BitVec 7) (w : BitVec 1) (s : State) : Outcome := (s.fmap2 d a b w fun x y => packed (fun x y _ => fp16.mul s.mode x y) x y 0).ok
/-- HMIN2 (R149). -/
def execHmin2 (d a b : BitVec 7) (w : BitVec 1) (s : State) : Outcome := (s.fmap2 d a b w fun x y => packed (fun x y _ => fp16.minmax false false x y) x y 0).ok
/-- HMAX2 (R149). -/
def execHmax2 (d a b : BitVec 7) (w : BitVec 1) (s : State) : Outcome := (s.fmap2 d a b w fun x y => packed (fun x y _ => fp16.minmax true false x y) x y 0).ok
/-- BADD2 (R149). -/
def execBadd2 (d a b : BitVec 7) (w : BitVec 1) (s : State) : Outcome := (s.fmap2 d a b w fun x y => packed (fun x y _ => bf16.add s.mode x y) x y 0).ok
/-- BMUL2 (R149). -/
def execBmul2 (d a b : BitVec 7) (w : BitVec 1) (s : State) : Outcome := (s.fmap2 d a b w fun x y => packed (fun x y _ => bf16.mul s.mode x y) x y 0).ok
/-- HFMA2 (R149). -/
def execHfma2 (d a b : BitVec 7) (w : BitVec 1) (s : State) : Outcome := (s.fmap3 d a b w (packed (fp16.fma s.mode))).ok
/-- BFMA2 (R149). -/
def execBfma2 (d a b : BitVec 7) (w : BitVec 1) (s : State) : Outcome := (s.fmap3 d a b w (packed (bf16.fma s.mode))).ok

end Sys2Proof.Machine
end

