-- ==== Sys2Proof/Machine/LaneInstr.lean ====
section
/-!
DEFINITION. The lane instructions: major LANE (spec/06 R150 to R157).
-/
namespace Sys2Proof.Machine

/-- A lane instruction: the result of lane i may read any lane of V[a] as it stands (R150). -/
def State.lmap (s : State) (d a : BitVec 7) (w : BitVec 1) (f : Lanes → Nat → Word) : State :=
  s.checkV [d, a] (let x := s.V a; s.vresult d w (f x))

/-- LSHUP (R152). -/
def execLshup (d a n : BitVec 7) (w : BitVec 1) (s : State) : Outcome :=
  (s.lmap d a w fun x i => if n.toNat ≤ i then x.at (i - n.toNat) else 0).ok
/-- LSHDN (R152). -/
def execLshdn (d a n : BitVec 7) (w : BitVec 1) (s : State) : Outcome := (s.lmap d a w fun x i => x.at (i + n.toNat)).ok
/-- LROT (R152). -/
def execLrot (d a n : BitVec 7) (w : BitVec 1) (s : State) : Outcome :=
  (s.lmap d a w fun x i => x.at ((i + 96 - n.toNat) % 96)).ok
/-- LPERM (R152): the index is lane i's own V[b]. -/
def execLperm (d a b : BitVec 7) (w : BitVec 1) (s : State) : Outcome :=
  (s.checkV [d, a, b] (let x := s.V a; let y := s.V b; s.vresult d w fun i => x.at (y.at i).toNat)).ok
/-- LBCAST (R152). -/
def execLbcast (d a n : BitVec 7) (w : BitVec 1) (s : State) : Outcome := (s.lmap d a w fun x _ => x.at n.toNat).ok
/-- LQUAD (R152). -/
def execLquad (d a n : BitVec 7) (w : BitVec 1) (s : State) : Outcome :=
  (s.lmap d a w fun x i => if n.toNat < 3 then x.at (i ^^^ (n.toNat + 1)) else x.at (4 * (i / 4) + n.toNat - 3)).ok

/-- A derivative (R153): lane p minus lane q of the quad, for the lane's column and row; derv where a lane read is
inactive. -/
def State.deriv (s : State) (d a : BitVec 7) (w : BitVec 1) (p q : Nat → Nat) : State :=
  s.checkV [d, a]
    (let x := s.V a
     let mode := s.mode
     let m := s.active
     s.fresult d w fun i =>
       let r := fp32.sub mode (x.at (p i)).toNat (x.at (q i)).toNat
       (BitVec.ofNat 32 r.1, r.2 ||| flagIf (!m.has (p i) || !m.has (q i)) flagDERV))

/-- DERIVX (R153). -/
def execDerivx (d a : BitVec 7) (w : BitVec 1) (s : State) : Outcome :=
  (s.deriv d a w (fun i => i / 2 * 2 + 1) (fun i => i / 2 * 2)).ok
/-- DERIVY (R153). -/
def execDerivy (d a : BitVec 7) (w : BitVec 1) (s : State) : Outcome :=
  (s.deriv d a w (fun i => i / 4 * 4 + i % 2 + 2) (fun i => i / 4 * 4 + i % 2)).ok
/-- DERIVXC (R153). -/
def execDerivxc (d a : BitVec 7) (w : BitVec 1) (s : State) : Outcome :=
  (s.deriv d a w (fun i => i / 4 * 4 + 1) (fun i => i / 4 * 4)).ok
/-- DERIVYC (R153). -/
def execDerivyc (d a : BitVec 7) (w : BitVec 1) (s : State) : Outcome :=
  (s.deriv d a w (fun i => i / 4 * 4 + 2) (fun i => i / 4 * 4)).ok

/-- LMATCH (R154). -/
def execLmatch (d a b : BitVec 7) (w : BitVec 1) (s : State) : Outcome :=
  (s.checkV [d, a, b]
    (let x := s.V a
     let y := s.V b
     let lanes := s.active.lanes
     s.vresult d w fun i =>
       let same := lanes.filter fun j => x.at j == x.at i && y.at j == y.at i
       BitVec.ofNat 32 ((same.filter fun j => decide (j < i)).length * 65536 + same.length * 256 + same.headD 0))).ok

/-- A step of a fold (R155): operation codes 0 to 12; float steps round RNE. -/
def foldStep (o : BitVec 4) (x y : Word) : Word × BitVec 6 :=
  match o.toNat with
  | 0 => (x + y, 0)
  | 1 => (minS x y, 0)
  | 2 => (maxS x y, 0)
  | 3 => (minU x y, 0)
  | 4 => (maxU x y, 0)
  | 5 => (x &&& y, 0)
  | 6 => (x ||| y, 0)
  | 7 => (x ^^^ y, 0)
  | 8 => lane32 (fp32.add 0 x.toNat y.toNat)
  | 9 => lane32 (fp32.minmax false false x.toNat y.toNat)
  | 10 => lane32 (fp32.minmax true false x.toNat y.toNat)
  | 11 => lane32 (fp32.minmax false true x.toNat y.toNat)
  | _ => lane32 (fp32.minmax true true x.toNat y.toNat)

/-- The fold of some lanes in ascending order from the lowest lane's value (R38, R155): after each lane its number, the
fold up to it and the flags of its step. -/
def foldLanes (o : BitVec 4) (x : Lanes) : List Nat → List (Nat × Word × BitVec 6)
  | [] => []
  | i :: l =>
    (l.foldl (fun (r, acc) j =>
      let v := foldStep o acc (x.at j)
      (r ++ [(j, v.1, v.2)], v.1)) ([(i, x.at i, (0 : BitVec 6))], x.at i)).1

/-- The word that a fold has reached at lane i. -/
def foldAt (l : List (Nat × Word × BitVec 6)) (i : Nat) : Word := ((l.find? fun r => r.1 == i).map (·.2.1)).getD 0
/-- The flags of the steps of a fold. -/
def foldFlags (l : List (Nat × Word × BitVec 6)) : BitVec 6 := l.foldl (fun f r => f ||| r.2.2) 0

/-- LRED (R155). -/
def execLred (d a : BitVec 7) (o : BitVec 4) (w : BitVec 1) (s : State) : Outcome :=
  (s.checkV [d, a]
    (let r := foldLanes o (s.V a) s.active.lanes
     let v := (r.getLast?.map (·.2.1)).getD 0
     State.vresult (s.raiseFlags (foldFlags r)) d w fun _ => v)).ok

/-- LSCAN (R155): an exclusive scan performs only the steps whose results it writes. -/
def execLscan (d a : BitVec 7) (e : BitVec 1) (o : BitVec 4) (w : BitVec 1) (s : State) : Outcome :=
  (s.checkV [d, a]
    (let lanes := s.active.lanes
     if e == 0 then
       let r := foldLanes o (s.V a) lanes
       State.vresult (s.raiseFlags (foldFlags r)) d w fun i => foldAt r i
     else
       let r := foldLanes o (s.V a) lanes.dropLast
       let before := (lanes.drop 1).zip (r.map (·.2.1))
       State.vresult (s.raiseFlags (foldFlags r)) d w fun i => (before.lookup i).getD 0)).ok

/-- LVOTE (R156). -/
def execLvote (d a : BitVec 7) (s' : BitVec 2) (w : BitVec 1) (s : State) : Outcome :=
  (s.checkV [d, a]
    (let vs := s.active.lanes.map fun i => (s.V a).at i
     let r : Word :=
       match s'.toNat with
       | 0 => ofBool (vs.any fun v => v != 0)
       | 1 => ofBool (vs.all fun v => v != 0)
       | 2 => ofBool (vs.all fun v => v == vs.headD 0)
       | _ => BitVec.ofNat 32 (vs.filter fun v => v != 0).length
     s.vresult d w fun _ => r)).ok

end Sys2Proof.Machine
end

