-- ==== Sys2Proof/Machine/Loader.lean ====
section
/-!
DEFINITION. The loader: objects, their checks, relocation, loading and unloading (spec/02 R62 to R70).
-/
namespace Sys2Proof
open Machine

/-! ## What an object holds (R63, R64) -/

/-- The sections that take memory (R66 step 3). -/
def SectionName.allocated : SectionName → Bool
  | .text | .rodata | .data | .bss => true
  | _ => false
/-- Permissions (x, w, r) of a section. -/
def SectionName.perms : SectionName → BitVec 3
  | .text => 5
  | .rodata => 1
  | _ => 3

/-- The index and the bytes of a section; index 0 and no bytes where there is none. -/
def ObjectFile.index (o : ObjectFile) (n : SectionName) : Nat := ((o.sections.zipIdx.find? fun x => x.1.name == n).map (·.2)).getD 0
def ObjectFile.bytes (o : ObjectFile) (n : SectionName) : List Byte := ((o.sections.find? fun c => c.name == n).map (·.data)).getD []
/-- The records of n bytes in a section. -/
def ObjectFile.records (o : ObjectFile) (name : SectionName) (n : Nat) : List (List Byte) :=
  let d := o.bytes name
  (List.range (d.length / n)).map fun k => slice d (n * k) n

/-- The .text offsets of the entries (R63). -/
def ObjectFile.entries (o : ObjectFile) : List Nat := (o.records .entries 8).map leNat

/-- A symbol of an object, as ELF64 lays it out: its binding, its type, its section (0 undefined, 0xFFF1 absolute). -/
structure Symbol where
  name  : List Byte
  bind  : Nat
  type  : Nat
  home  : Nat
  value : Nat
  deriving DecidableEq, Repr

def Symbol.parse (strings : List Byte) (b : List Byte) : Symbol :=
  ⟨(strings.drop (num b 0 4)).takeWhile (· != 0), num b 4 1 / 16, num b 4 1 % 16, num b 6 2, num b 8 8⟩
/-- The symbols by their indexes; index 0 is the null symbol. -/
def ObjectFile.symbols (o : ObjectFile) : List Symbol := (o.records .symtab 24).map (Symbol.parse (o.bytes .strtab))
def Symbol.undefined (y : Symbol) : Bool := y.home == 0
/-- A defined symbol with STB_GLOBAL (R63). -/
def Symbol.exported (y : Symbol) : Bool := y.bind == 1 && !y.undefined

/-- A relocation record (R64) of the section with an index: r_offset, r_info, r_addend. -/
structure Rela where
  sec    : Nat
  offset : Nat
  info   : Nat
  addend : Int
  deriving DecidableEq, Repr

/-- r_info is (symbol index << 32) | type (R64). -/
def Rela.sym (r : Rela) : Nat := r.info / 2 ^ 32
def Rela.type (r : Rela) : Nat := r.info % 2 ^ 32
def Rela.parse (sec : Nat) (b : List Byte) : Rela :=
  ⟨sec, num b 0 8, num b 8 8, (BitVec.ofNat 64 (num b 16 8)).toInt⟩
/-- Every relocation in order of section index, then of table order (R67). -/
def ObjectFile.relas (o : ObjectFile) : List Rela :=
  sortBy (fun a b => decide (a.sec < b.sec))
    ([(SectionName.relaText, SectionName.text), (.relaRodata, .rodata), (.relaData, .data)].flatMap fun (r, c) =>
      (o.records r 24).map (Rela.parse (o.index c)))

end Sys2Proof

namespace Sys2Proof.Machine

/-! ## Reports (R68) -/

/-- A load report. -/
structure LoadReport where
  status  : Nat
  sec     : Nat
  offset  : Nat
  type    : Nat
  name    : List Byte
  value   : Int
  base    : Nat
  deriving DecidableEq, Repr

def LoadReport.bytes (r : LoadReport) : List Byte :=
  leBytes 4 r.status ++ leBytes 4 r.sec ++ leBytes 8 r.offset ++ leBytes 4 r.type ++ leBytes 4 (min r.name.length 192) ++
    dwordBytes (dword r.value) ++ leBytes 8 r.base ++ zeros 24 ++ r.name.take 192
/-- A failure with a status. -/
def loadFails (status : Nat) (sec : Nat := 0) (offset : Nat := 0) (type : Nat := 0) (name : List Byte := []) (value : Int := 0) :
    LoadReport := ⟨status, sec, offset, type, name, value, 0⟩

/-! ## Checks of an object (R62, R63, R57) -/

/-- The ELF header: status 1, or 2 where the machine or the revision is another. -/
def headerFails (o : ObjectFile) : Option LoadReport :=
  if o.eiClass != 2 || o.eiData != 1 || o.eiVersion != 1 || o.osabi != 0 || o.eType != 1 then some (loadFails 1)
  else if o.machine != 0x4C4D || o.eFlags != 1 then some (loadFails 2)
  else none

/-- Type, flags, alignment and length of a section (R63; ELF64's numbers) (log 88). -/
def sectionGood (c : Section) : Bool :=
  let full := c.data.length == c.size
  let pow (least : Nat) : Bool := decide (least ≤ c.align) && (List.range 33).any fun k => c.align == 2 ^ k
  let table (type align entry : Nat) : Bool := c.shType == type && c.flags % 8 == 0 && c.align == align && c.size % entry == 0 && full
  match c.name with
  | .null => c.shType == 0
  | .text => c.shType == 1 && c.flags == 6 && pow 64 && full
  | .rodata => c.shType == 1 && c.flags == 2 && pow 8 && full
  | .data => c.shType == 1 && c.flags == 3 && pow 8 && full
  | .bss => c.shType == 8 && c.flags == 3 && pow 8 && c.data.isEmpty
  | .entries => table 0x70000001 8 8
  | .symtab => table 2 8 24
  | .strtab => table 3 1 1
  | .relaText | .relaRodata | .relaData => table 4 8 24
  | .shstrtab => c.shType == 3
  | .other => false
/-- The first section that does not agree with R63, or repeats one before it. -/
def sectionFails (o : ObjectFile) : Option LoadReport :=
  (o.sections.zipIdx.find? fun (c, k) =>
    (c.name == .null) != (k == 0) || !sectionGood c || (o.sections.take k).any fun d => d.name == c.name).map
    fun x => loadFails 1 x.2

/-- The entry headers, 64 bytes below each entry (R57, R66 step 2). -/
def entryFails (o : ObjectFile) : Option LoadReport :=
  let d := o.bytes .text
  (o.entries.find? fun e => e % 64 != 0 || e < 64 || d.length < e || (Header.parse (slice d (e - 64) 64)).isNone).map
    fun e => loadFails 1 (o.index .text) (e - 64)

/-! ## Placement (R66 step 3) -/

/-- A section of an object as it is placed, with its index. -/
structure Placed where
  index   : Nat
  part    : Section
  at'     : Placement
  deriving DecidableEq, Repr

/-- The allocated sections with the addresses chosen for them. -/
def placedSections (o : ObjectFile) (ps : List Placement) : List Placed :=
  ((o.sections.zipIdx.filter fun x => x.1.name.allocated).zip ps).map fun ((c, k), p) => ⟨k, c, p⟩
/-- The virtual address at which a section is loaded. -/
def loadedAt (l : List Placed) (index : Nat) : Option Nat := (l.find? fun x => x.index == index).map fun x => x.at'.va

/-- Pages of 64 KiB that n bytes take. -/
def pagesOf (n : Nat) : Nat := (n + 65535) / 65536
/-- The pages of an object as it is placed: virtual address, physical address, permissions. -/
def placedPages (l : List Placed) : List (Nat × Nat × BitVec 3) :=
  l.flatMap fun x => (List.range (pagesOf x.part.size)).map fun k =>
    (x.at'.va + 65536 * k, x.at'.pa + 65536 * k, x.part.name.perms)

/-- Whether a list of numbers repeats one. -/
def repeats (l : List Nat) : Bool := l.eraseDups.length != l.length

/-- The images of a tenant, those in progress too. -/
def State.imagesOf (s : State) (tenant : Nat) : List Image :=
  (s.tenant tenant).images ++ s.loads.filterMap fun l => if l.tenant == tenant then l.image else none
/-- The images of every tenant, those in progress too. -/
def State.everyImage (s : State) : List Image := (s.tenants.flatMap fun (_, t) => t.images) ++ s.loads.filterMap (·.image)

/-- Whether the chosen addresses suit the sections and the images that are already there: no page of theirs, and no area for a
table, is used twice, in the tenant's memory or in the package's. -/
def State.placeable (s : State) (tenant : Nat) (l : List Placed) (tables : List Nat) : Bool :=
  let ps := placedPages l
  let physical := ps.map fun p => p.2.1
  l.all (fun x => x.at'.va % max x.part.align 65536 == 0 && x.at'.pa % 65536 == 0) &&
    ps.all (fun (v, p, _) => decide (v < 2 ^ 60) && decide (p + 65536 ≤ paEnd)) &&
    !repeats (ps.map (·.1)) && !repeats (physical ++ (tables.map fun t => t / 65536 * 65536).eraseDups) && !repeats tables &&
    ((s.imagesOf tenant).all fun i => i.pages.all fun (v, _, _) => ps.all fun (w, _, _) => v != w) &&
    s.everyImage.all fun i => i.pages.all fun (_, p, _) => !physical.contains p && !(tables.any fun t => t / 65536 * 65536 == p)

/-- The writes that map one page in a tenant's tables (R376); a new table is taken from a list of empty 16 KiB areas. -/
def Memory.mapPage (m : Memory) (va pa : Nat) (perms : BitVec 3) :
    (fuel level table : Nat) → List Nat → Option (List (Nat × List Byte) × List Nat)
  | 0, _, _, _ => none
  | f + 1, level, table, free =>
    let at' := table + 8 * walkIndex va level
    let e := leNat (m.readN at' 8)
    if level == 3 then some ([(at', leBytes 8 (pa + perms.toNat * 8 + 5))], free)
    else if bits e 0 0 == 1 then
      if bits e 2 2 == 1 then none else Memory.mapPage m va pa perms f (level + 1) (bits e 51 14 * 2 ^ 14) free
    else
      match free with
      | [] => none
      | t :: ts =>
        if t % 2 ^ 14 != 0 || paEnd < t + 2 ^ 14 then none
        else
          let m := m.writeN t (zeros (2 ^ 14))
          (Memory.mapPage m va pa perms f (level + 1) t ts).map fun (l, ts) =>
            ((t, zeros (2 ^ 14)) :: (at', leBytes 8 (t + 1)) :: l, ts)
/-- Memory after a list of writes. -/
def Memory.writes (m : Memory) (l : List (Nat × List Byte)) : Memory := l.foldl (fun m (a, d) => m.writeN a d) m
/-- The writes that map every page. -/
def Memory.mapPages (m : Memory) (root : Nat) (free : List Nat) : List (Nat × Nat × BitVec 3) → Option (List (Nat × List Byte))
  | [] => some []
  | (v, p, x) :: l =>
    match m.mapPage v p x 4 0 root free with
    | none => none
    | some (w, free) => ((m.writes w).mapPages root free l).map (w ++ ·)
/-- Memory with every store that has reached its home. -/
def State.landed (s : State) : Memory := s.mem.writes (s.stores.map fun p => (p.pa, p.data))

/-! ## Relocation (R64, R65) -/

/-- A word of a section's data. -/
def wordAt (d : List Byte) (o : Nat) : Nat := num d o 4
def putBytes (d : List Byte) (o : Nat) (b : List Byte) : List Byte := d.take o ++ b ++ d.drop (o + b.length)
/-- Replaces bits [hi:lo] of the word at an offset. -/
def putField (d : List Byte) (o hi lo v : Nat) : List Byte :=
  let w := wordAt d o
  let n := 2 ^ (hi + 1 - lo)
  putBytes d o (leBytes 4 (w - bits w hi lo * 2 ^ lo + v % n * 2 ^ lo))

def majorOf (w : Nat) : Nat := bits w 31 26
/-- Whether a word is a hint of a kind (R89). -/
def isHintKind (w k : Nat) : Bool := majorOf w == 0x3F && bits w 25 22 == k
/-- The bits of the immediate field that a word's major has: 12 in I format, 11 in SI, none elsewhere (R74). -/
def immBits (w : Nat) : Option Nat :=
  let m := majorOf w
  if 0x0A ≤ m && m ≤ 0x0E then some 12
  else if m == 0x02 || m == 0x03 || m == 0x2C || m == 0x2D then some 11
  else none
/-- Whether a word refuses HIMM: SSHLI, SSHRI, SSRAI and VSHI (R90, R120). -/
def refusesHimm (w : Nat) : Bool := majorOf w == 0x0E || (majorOf w == 0x02 && decide (4 ≤ bits w 13 11) && decide (bits w 13 11 ≤ 6))
/-- The first word, from an offset on, that is not a hint. -/
def partnerFrom (d : List Byte) : (fuel o : Nat) → Option Nat
  | 0, _ => none
  | f + 1, o =>
    if d.length < o + 4 then none
    else if majorOf (wordAt d o) == 0x3F then partnerFrom d f (o + 4) else some (wordAt d o)
/-- The immediate bits of the partner of a HIMM at an offset (R65). -/
def partnerBits (d : List Byte) (o : Nat) : Option Nat :=
  (partnerFrom d (d.length / 4) (o + 4)).bind fun w => if refusesHimm w then none else immBits w

/-- Whether the words that a relocation patches have the field that R65 names (log 89, log 93). -/
def fieldGood (d : List Byte) (o type : Nat) : Bool :=
  let w := wordAt d o
  let next := wordAt d (o + 4)
  let words (n : Nat) : Bool := o % 4 == 0 && decide (o + 4 * n ≤ d.length)
  let b (w : Nat) : Bool := majorOf w == 0x20 || majorOf w == 0x21
  let j (w : Nat) : Bool := majorOf w == 0x22 || majorOf w == 0x23
  match type with
  | 0 => true
  | 1 => decide (o + 8 ≤ d.length)
  | 2 | 3 => decide (o + 4 ≤ d.length)
  | 4 | 6 | 8 => words 1 && isHintKind w 0 && (partnerBits d o).isSome
  | 5 | 7 | 9 => words 1 && (immBits w).isSome
  | 10 => words 1 && isHintKind w 0
  | 11 => words 1 && b w
  | 12 => words 1 && j w
  | 13 | 14 => words 1 && majorOf w == 0x24
  | 15 => words 2 && isHintKind w 5 && b next
  | _ => words 2 && isHintKind w 5 && j next

/-- V, and whether it meets its check: status 0, 5 RANGE or 7 ALIGN. SA is S + A. -/
def relocValue (type : Nat) (sa p : Int) : Int × Nat :=
  let within (v lo hi : Int) : Nat := if lo ≤ v && v < hi then 0 else 5
  let branch (x : Int) (n : Nat) : Int × Nat := (x / 4, if x % 4 != 0 then 7 else within (x / 4) (-(2 ^ n : Nat)) (2 ^ n : Nat))
  match type with
  | 0 => (0, 0)
  | 1 => (sa, 0)
  | 2 => (sa, within sa 0 (2 ^ 32))
  | 3 => (sa - p, within (sa - p) (-2 ^ 31) (2 ^ 31))
  | 4 | 5 => (sa, within sa (-2 ^ 31) (2 ^ 32))
  | 6 | 7 => (sa % 2 ^ 32, 0)
  | 8 | 9 => (sa / 2 ^ 32 % 2 ^ 32, 0)
  | 10 => (sa, within sa (-2 ^ 19) (2 ^ 19))
  | 11 => branch (sa - p) 15
  | 12 => branch (sa - p) 25
  | 13 | 14 => branch (sa - p) 9
  | 15 => branch (sa - p - 4) 37
  | _ => branch (sa - p - 4) 47

/-- A field [hi:lo] of the 32-bit word at an offset of a section, and what it becomes. -/
structure Patch where
  sec    : Nat
  offset : Nat
  hi     : Nat
  lo     : Nat
  value  : Nat
  deriving DecidableEq, Repr

/-- The fields that a relocation patches with V, of a section as the object has it (R65). -/
def patchesOf (sec : Nat) (d : List Byte) (o type : Nat) (v : Int) : List Patch :=
  let u := (dword v).toNat
  let one (hi lo x : Nat) : List Patch := [⟨sec, o, hi, lo, x⟩]
  let two (h x hi : Nat) : List Patch := [⟨sec, o, 21, 0, h⟩, ⟨sec, o + 4, hi, 0, x⟩]
  match type with
  | 0 => []
  | 1 => [⟨sec, o, 31, 0, u⟩, ⟨sec, o + 4, 31, 0, u / 2 ^ 32⟩]
  | 2 | 3 => one 31 0 u
  | 4 | 6 | 8 => one 21 0 (bits u 31 ((partnerBits d o).getD 12))
  | 5 | 7 | 9 => one ((immBits (wordAt d o)).getD 12 - 1) 0 u
  | 10 => one 21 0 (bits u 19 0)
  | 11 => one 15 0 u
  | 12 => one 25 0 u
  | 13 => one 19 10 u
  | 14 => one 9 0 u
  | 15 => two (bits u 37 16) u 15
  | _ => two (bits u 47 26) u 25
/-- A section's bytes with its patches. -/
def patched (sec : Nat) (d : List Byte) (l : List Patch) : List Byte :=
  l.foldl (fun d p => if p.sec == sec then putField d p.offset p.hi p.lo p.value else d) d

/-- The loaded value of a symbol: absolute, in its section, or an export of a loaded image (R65, R66 step 4) (log 93). -/
def State.symbolValue (s : State) (tenant : Nat) (l : List Placed) (y : Symbol) : Option Nat :=
  if y.undefined then (s.tenant tenant).images.findSome? fun i => (i.exports.find? fun e => e.1 == y.name).map (·.2)
  else if y.home == 0xFFF1 then some y.value
  else (loadedAt l y.home).map (· + y.value)

/-- One relocation, evaluated and checked (R65): its patches, or the failure. values are the symbols' loaded values. -/
def relocate (o : ObjectFile) (l : List Placed) (values : List (Symbol × Nat)) (r : Rela) : Except LoadReport (List Patch) :=
  let name := ((values[r.sym]?).map fun y => y.1.name).getD []
  let bad (st : Nat) (v : Int) : Except LoadReport (List Patch) := .error (loadFails st r.sec r.offset r.type name v)
  let d := ((o.sections[r.sec]?).map (·.data)).getD []
  if 17 ≤ r.type then bad 3 0
  else if !fieldGood d r.offset r.type then bad 6 0
  else
    let p := (loadedAt l r.sec).getD 0 + r.offset
    let sa := (((values[r.sym]?).map (·.2)).getD 0 : Nat) + r.addend
    let (v, st) := relocValue r.type sa p
    if st != 0 then bad st v else .ok (patchesOf r.sec d r.offset r.type v)

/-- Every relocation, checked before anything is written (R65): the patches, or the first failure (R67). -/
def relocateAll (o : ObjectFile) (l : List Placed) (values : List (Symbol × Nat)) : Except LoadReport (List Patch) :=
  o.relas.foldl (fun ps r =>
    match ps with
    | .error e => .error e
    | .ok ps => (relocate o l values r).map (ps ++ ·)) (.ok [])

/-! ## Loading and unloading (R66, R69, R70) -/

/-- What a load that succeeds writes: physical addresses with their bytes. -/
abbrev Writes := List (Nat × List Byte)

/-- Steps 1 to 3 of R66: the sections as placed and the writes that map them, or the first failure. -/
def State.placeObject (s : State) (tenant : Nat) (o : ObjectFile) (ps : List Placement) (tables : List Nat) :
    Except LoadReport (List Placed × Writes) :=
  match (headerFails o).or ((sectionFails o).or (entryFails o)) with
  | some e => .error e
  | none =>
    let l := placedSections o ps
    if l.length != (o.sections.filter fun c => c.name.allocated).length || !s.placeable tenant l tables then .error (loadFails 8)
    else
      match s.landed.mapPages (s.tenant tenant).ptroot.toNat tables (placedPages l) with
      | none => .error (loadFails 8)
      | some w => .ok (l, w)

/-- Step 4 of R66: the symbols with their loaded values, or the first that has none; an export that the tenant has already is
DUPLICATE (R68) (log 93). -/
def State.resolveObject (s : State) (tenant : Nat) (o : ObjectFile) (l : List Placed) : Except LoadReport (List (Symbol × Nat)) :=
  match (o.symbols.drop 1).find? fun y => (s.symbolValue tenant l y).isNone with
  | some y => .error (loadFails 4 0 0 0 y.name)
  | none =>
    match o.symbols.find? fun y => y.exported && (s.tenant tenant).images.any fun i => i.exports.any fun x => x.1 == y.name with
    | some y => .error (loadFails 9 0 0 0 y.name)
    | none => .ok (o.symbols.map fun y => (y, (s.symbolValue tenant l y).getD 0))

/-- A load, as it succeeds: what it writes and the image; or the first failure (R66, R67). -/
def State.loadObject (s : State) (tenant : Nat) (o : ObjectFile) (ps : List Placement) (tables : List Nat) :
    Except LoadReport (Writes × Image) :=
  match s.placeObject tenant o ps tables with
  | .error e => .error e
  | .ok (l, maps) =>
    match s.resolveObject tenant o l with
    | .error e => .error e
    | .ok values =>
      match relocateAll o l values with
      | .error e => .error e
      | .ok patches =>
        let writes := l.map fun x =>
          (x.at'.pa, if x.part.name == .bss then zeros x.part.size else patched x.index x.part.data patches)
        let base := (loadedAt l (o.index .text)).getD 0
        .ok (maps ++ writes,
          { base := base, pages := placedPages l
            exports := (values.filter fun y => y.1.exported).map fun y => (y.1.name, y.2)
            uses := ((o.symbols.drop 1).filter Symbol.undefined).map (·.name)
            entries := o.entries.map (base + ·) })

/-- The loader answers a request of a tenant, after its earlier ones (R69). -/
def State.answerAfter (s : State) (l : Loading) : State := State.answerLoads { s with loads := s.loads ++ [l] }
def State.loadReport (s : State) (tenant : Nat) (r : LoadReport) : State := s.answerAfter ⟨tenant, none, r.bytes, s.now⟩

/-- Stores at package scope by the loader (R69). -/
def State.storeImage (s : State) (tenant : Nat) (w : Writes) : State :=
  w.foldl (fun s (a, d) => s.arriveN 0 noCore tenant 0 0 [] a d) s
/-- LOAD_REQUEST (R66 to R69): the writes of the image go to their homes, and the request ends once they are performed.
Service firmware sets areas aside as save areas with it (log 11) (log 88). -/
def State.load (s : State) (tenant : Nat) (o : ObjectFile) (ps : List Placement) (tables areas : List Nat) : State :=
  match s.loadObject tenant o ps tables with
  | .error r => s.loadReport tenant r
  | .ok (w, i) =>
    let t := State.storeImage { s with saveAreas := s.saveAreas ++ areas.map (BitVec.ofNat 64) } tenant w
    t.answerAfter ⟨tenant, some i, (LoadReport.mk 0 0 0 0 [] 0 i.base).bytes, t.latestSince s.seq⟩
def execLoadRequest (tenant : Nat) (object : ObjectFile) (places : List Placement) (tables areas : List Nat) (s : State) :
    Outcome := (s.load tenant object places tables areas).ok

/-- Whether an address lies in an image. -/
def Image.holds (i : Image) (a : DWord) : Bool := i.pages.any fun (v, _, _) => a.toNat / 65536 * 65536 == v

/-- The entries that the unfired records of a queue name. -/
def State.queuedEntries (s : State) (tenant : Nat) (q : Queue) : List DWord :=
  (List.range (min (q.tail - q.head).toNat (2 ^ (q.log2.toNat % 16)))).filterMap fun k =>
    match s.readVirt noCore tenant ({ q with head := q.head + BitVec.ofNat 32 k }).at' 8 with
    | .ok b => some (BitVec.ofNat 64 (leNat b))
    | .error _ => none

/-- The entry addresses that are in use in a tenant (R70). -/
def State.usedEntries (s : State) (tenant : Nat) : List DWord :=
  let t := s.tenant tenant
  (t.queues.flatMap fun (_, q) => s.queuedEntries tenant q) ++ (t.armed.map fun a => a.record.entry) ++
    (s.cores.flatMap fun (_, (c : Core)) =>
      ((c.bins.flatMap fun b => b.tasks) ++ c.overflow).filterMap fun x => if x.tenant == tenant then some x.entry else none) ++
    (s.transit.filterMap fun x => if x.task.tenant == tenant then some x.task.entry else none) ++
    (s.firings.filterMap fun f => if f.tenant == tenant then some f.record.entry else none) ++
    ((s.all ++ s.saved.map (·.ply)).filterMap fun p => if p.tenant == tenant then some p.entry else none) ++
    (s.everyPly.flatMap fun p => p.hubq.flatMap fun h => match h.kind with
      | .spawn l => l.filterMap fun x => if x.2.tenant == tenant then some x.2.entry else none
      | _ => []) ++
    (s.scopes.filterMap fun c => if c.tenant == tenant && c.state != .closed then some c.cont else none)

/-- UNLOAD_REQUEST (R70): status 10 where the image is in use. The request names an image by an address in one of its pages
(log 93). -/
def State.unload (s : State) (tenant address : Nat) : State :=
  let named (i : Image) : Bool := i.holds (BitVec.ofNat 64 address)
  match (s.tenant tenant).images.find? named with
  | none => s
  | some i =>
    let used := (s.usedEntries tenant).any i.holds ||
      (s.imagesOf tenant).any fun (j : Image) => !named j && j.uses.any fun n => i.exports.any fun e => e.1 == n
    if used then s.loadReport tenant (loadFails 10)
    else (s.modTenant tenant fun t => { t with images := t.images.filter fun j => !named j }).loadReport tenant (loadFails 0)
def execUnloadRequest (tenant base : Nat) (s : State) : Outcome := (s.unload tenant base).ok

end Sys2Proof.Machine
end

