-- ==== Sys2Proof/Machine/ScalarInt.lean ====
section
/-!
DEFINITION. The scalar integer instructions: majors SALU, SIMM and SCMPI (spec/05 R118 to R126).
-/
namespace Sys2Proof.Machine

/-- A 32-bit instruction of two scalars (R118, R119). -/
def State.salu2 (s : State) (d a b : BitVec 6) (f : Word → Word → Word) : State := s.sresult d (f (s.S a) (s.S b))
/-- A 32-bit instruction of one scalar. -/
def State.salu1 (s : State) (d a : BitVec 6) (f : Word → Word) : State := s.sresult d (f (s.S a))
/-- An instruction of a scalar and an immediate of the SI format (R120, R125, R126). -/
def State.simm (s : State) (d a : BitVec 6) (i : BitVec 11) (f : Word → Word → Word) : State := s.sresult d (f (s.S a) (s.imm11 i))

/-- SADD (R122): a + b. -/
def execSadd (d a b : BitVec 6) (s : State) : Outcome := (s.salu2 d a b fun a b => a + b).ok
/-- SSUB (R122): a − b. -/
def execSsub (d a b : BitVec 6) (s : State) : Outcome := (s.salu2 d a b fun a b => a - b).ok
/-- SMUL (R122): low word of the product. -/
def execSmul (d a b : BitVec 6) (s : State) : Outcome := (s.salu2 d a b fun a b => a * b).ok
/-- SMULH (R122, R16). -/
def execSmulh (d a b : BitVec 6) (s : State) : Outcome := (s.salu2 d a b fun a b => mulHigh a b).ok
/-- SMULHU (R122, R16). -/
def execSmulhu (d a b : BitVec 6) (s : State) : Outcome := (s.salu2 d a b fun a b => mulHighU a b).ok
/-- SDIV (R122, R15). -/
def execSdiv (d a b : BitVec 6) (s : State) : Outcome := (s.salu2 d a b fun a b => divSigned a b).ok
/-- SDIVU (R122, R15). -/
def execSdivu (d a b : BitVec 6) (s : State) : Outcome := (s.salu2 d a b fun a b => divUnsigned a b).ok
/-- SREM (R122, R15). -/
def execSrem (d a b : BitVec 6) (s : State) : Outcome := (s.salu2 d a b fun a b => remSigned a b).ok
/-- SREMU (R122, R15). -/
def execSremu (d a b : BitVec 6) (s : State) : Outcome := (s.salu2 d a b fun a b => remUnsigned a b).ok
/-- SAND (R122). -/
def execSand (d a b : BitVec 6) (s : State) : Outcome := (s.salu2 d a b fun a b => a &&& b).ok
/-- SOR (R122). -/
def execSor (d a b : BitVec 6) (s : State) : Outcome := (s.salu2 d a b fun a b => a ||| b).ok
/-- SXOR (R122). -/
def execSxor (d a b : BitVec 6) (s : State) : Outcome := (s.salu2 d a b fun a b => a ^^^ b).ok
/-- SANDN (R122). -/
def execSandn (d a b : BitVec 6) (s : State) : Outcome := (s.salu2 d a b fun a b => a &&& ~~~b).ok
/-- SSHL (R122, R14). -/
def execSshl (d a b : BitVec 6) (s : State) : Outcome := (s.salu2 d a b fun a b => shl a (count32 b)).ok
/-- SSHR (R122, R14). -/
def execSshr (d a b : BitVec 6) (s : State) : Outcome := (s.salu2 d a b fun a b => shr a (count32 b)).ok
/-- SSRA (R122, R14). -/
def execSsra (d a b : BitVec 6) (s : State) : Outcome := (s.salu2 d a b fun a b => sra a (count32 b)).ok
/-- SROL (R122, R14). -/
def execSrol (d a b : BitVec 6) (s : State) : Outcome := (s.salu2 d a b fun a b => rol a (count32 b)).ok
/-- SMIN (R122). -/
def execSmin (d a b : BitVec 6) (s : State) : Outcome := (s.salu2 d a b fun a b => minS a b).ok
/-- SMAX (R122). -/
def execSmax (d a b : BitVec 6) (s : State) : Outcome := (s.salu2 d a b fun a b => maxS a b).ok
/-- SMINU (R122). -/
def execSminu (d a b : BitVec 6) (s : State) : Outcome := (s.salu2 d a b fun a b => minU a b).ok
/-- SMAXU (R122). -/
def execSmaxu (d a b : BitVec 6) (s : State) : Outcome := (s.salu2 d a b fun a b => maxU a b).ok
/-- SCLZ (R122). -/
def execSclz (d a : BitVec 6) (s : State) : Outcome := (s.salu1 d a clz).ok
/-- SCTZ (R122). -/
def execSctz (d a : BitVec 6) (s : State) : Outcome := (s.salu1 d a ctz).ok
/-- SPOPC (R122). -/
def execSpopc (d a : BitVec 6) (s : State) : Outcome := (s.salu1 d a popcount).ok
/-- SBREV (R122). -/
def execSbrev (d a : BitVec 6) (s : State) : Outcome := (s.salu1 d a bitReverse).ok
/-- SSEXB (R122). -/
def execSsexb (d a : BitVec 6) (s : State) : Outcome := (s.salu1 d a sexByte).ok
/-- SSEXH (R122). -/
def execSsexh (d a : BitVec 6) (s : State) : Outcome := (s.salu1 d a sexHalf).ok
/-- SSEL (R122): the old S[d] selects. -/
def execSsel (d a b : BitVec 6) (s : State) : Outcome := (s.sresult d (if s.S d != 0 then s.S a else s.S b)).ok
/-- SCMP.EQ (R122). -/
def execScmpEq (d a b : BitVec 6) (s : State) : Outcome := (s.salu2 d a b fun a b => ofBool (a == b)).ok
/-- SCMP.NE (R122). -/
def execScmpNe (d a b : BitVec 6) (s : State) : Outcome := (s.salu2 d a b fun a b => ofBool (a != b)).ok
/-- SCMP.LT (R122). -/
def execScmpLt (d a b : BitVec 6) (s : State) : Outcome := (s.salu2 d a b fun a b => ofBool (slt a b)).ok
/-- SCMP.LE (R122). -/
def execScmpLe (d a b : BitVec 6) (s : State) : Outcome := (s.salu2 d a b fun a b => ofBool (sle a b)).ok
/-- SCMP.LTU (R122). -/
def execScmpLtu (d a b : BitVec 6) (s : State) : Outcome := (s.salu2 d a b fun a b => ofBool (ult a b)).ok
/-- SCMP.LEU (R122). -/
def execScmpLeu (d a b : BitVec 6) (s : State) : Outcome := (s.salu2 d a b fun a b => ofBool (ule a b)).ok
/-- SADD64 (R123). -/
def execSadd64 (d a b : BitVec 6) (s : State) : Outcome := (s.sresult64 d (s.S64 a + s.S64 b)).ok
/-- SSUB64 (R123). -/
def execSsub64 (d a b : BitVec 6) (s : State) : Outcome := (s.sresult64 d (s.S64 a - s.S64 b)).ok
/-- SSHL64 (R123, R14). -/
def execSshl64 (d a b : BitVec 6) (s : State) : Outcome := (s.sresult64 d (s.S64 a <<< ((s.S b).toNat % 64))).ok
/-- SSHR64 (R123, R14). -/
def execSshr64 (d a b : BitVec 6) (s : State) : Outcome := (s.sresult64 d (s.S64 a >>> ((s.S b).toNat % 64))).ok
/-- SMOV64 (R123). -/
def execSmov64 (d a : BitVec 6) (s : State) : Outcome := (s.sresult64 d (s.S64 a)).ok
/-- SADDI (R125). -/
def execSaddi (d a : BitVec 6) (i : BitVec 11) (s : State) : Outcome := (s.simm d a i fun a k => a + k).ok
/-- SANDI (R125). -/
def execSandi (d a : BitVec 6) (i : BitVec 11) (s : State) : Outcome := (s.simm d a i fun a k => a &&& k).ok
/-- SORI (R125). -/
def execSori (d a : BitVec 6) (i : BitVec 11) (s : State) : Outcome := (s.simm d a i fun a k => a ||| k).ok
/-- SXORI (R125). -/
def execSxori (d a : BitVec 6) (i : BitVec 11) (s : State) : Outcome := (s.simm d a i fun a k => a ^^^ k).ok
/-- SSHLI (R125). -/
def execSshli (d a : BitVec 6) (c : BitVec 5) (s : State) : Outcome := (s.salu1 d a fun a => shl a c.toNat).ok
/-- SSHRI (R125). -/
def execSshri (d a : BitVec 6) (c : BitVec 5) (s : State) : Outcome := (s.salu1 d a fun a => shr a c.toNat).ok
/-- SSRAI (R125). -/
def execSsrai (d a : BitVec 6) (c : BitVec 5) (s : State) : Outcome := (s.salu1 d a fun a => sra a c.toNat).ok
/-- SLI (R125). -/
def execSli (d : BitVec 6) (i : BitVec 11) (s : State) : Outcome := (s.sresult d (s.imm11 i)).ok
/-- SCMPI.EQ (R126). -/
def execScmpiEq (d a : BitVec 6) (i : BitVec 11) (s : State) : Outcome := (s.simm d a i fun a k => ofBool (a == k)).ok
/-- SCMPI.NE (R126). -/
def execScmpiNe (d a : BitVec 6) (i : BitVec 11) (s : State) : Outcome := (s.simm d a i fun a k => ofBool (a != k)).ok
/-- SCMPI.LT (R126). -/
def execScmpiLt (d a : BitVec 6) (i : BitVec 11) (s : State) : Outcome := (s.simm d a i fun a k => ofBool (slt a k)).ok
/-- SCMPI.LE (R126). -/
def execScmpiLe (d a : BitVec 6) (i : BitVec 11) (s : State) : Outcome := (s.simm d a i fun a k => ofBool (sle a k)).ok
/-- SCMPI.LTU (R126). -/
def execScmpiLtu (d a : BitVec 6) (i : BitVec 11) (s : State) : Outcome := (s.simm d a i fun a k => ofBool (ult a k)).ok
/-- SCMPI.LEU (R126). -/
def execScmpiLeu (d a : BitVec 6) (i : BitVec 11) (s : State) : Outcome := (s.simm d a i fun a k => ofBool (ule a k)).ok
/-- SCMPI.GT (R126). -/
def execScmpiGt (d a : BitVec 6) (i : BitVec 11) (s : State) : Outcome := (s.simm d a i fun a k => ofBool (slt k a)).ok
/-- SCMPI.GE (R126). -/
def execScmpiGe (d a : BitVec 6) (i : BitVec 11) (s : State) : Outcome := (s.simm d a i fun a k => ofBool (sle k a)).ok

end Sys2Proof.Machine
end

