-- ==== Sys2Proof/Machine/VectorInt.lean ====
section
/-!
DEFINITION. The vector integer instructions: majors VINT1, VINT2, VADDI to VLI, VCMP and VT, and MOVX (spec/05 R117,
R127 to R136).
-/
namespace Sys2Proof.Machine

/-- VADD (R127). -/
def execVadd (d a b : BitVec 7) (w : BitVec 1) (s : State) : Outcome := (s.vmap2 d a b w fun x y => x + y).ok
/-- VSUB (R127). -/
def execVsub (d a b : BitVec 7) (w : BitVec 1) (s : State) : Outcome := (s.vmap2 d a b w fun x y => x - y).ok
/-- VMUL (R127). -/
def execVmul (d a b : BitVec 7) (w : BitVec 1) (s : State) : Outcome := (s.vmap2 d a b w fun x y => x * y).ok
/-- VMULH (R127). -/
def execVmulh (d a b : BitVec 7) (w : BitVec 1) (s : State) : Outcome := (s.vmap2 d a b w fun x y => mulHigh x y).ok
/-- VMULHU (R127). -/
def execVmulhu (d a b : BitVec 7) (w : BitVec 1) (s : State) : Outcome := (s.vmap2 d a b w fun x y => mulHighU x y).ok
/-- VAND (R127). -/
def execVand (d a b : BitVec 7) (w : BitVec 1) (s : State) : Outcome := (s.vmap2 d a b w fun x y => x &&& y).ok
/-- VOR (R127). -/
def execVor (d a b : BitVec 7) (w : BitVec 1) (s : State) : Outcome := (s.vmap2 d a b w fun x y => x ||| y).ok
/-- VXOR (R127). -/
def execVxor (d a b : BitVec 7) (w : BitVec 1) (s : State) : Outcome := (s.vmap2 d a b w fun x y => x ^^^ y).ok
/-- VANDN (R127). -/
def execVandn (d a b : BitVec 7) (w : BitVec 1) (s : State) : Outcome := (s.vmap2 d a b w fun x y => x &&& ~~~y).ok
/-- VSHL (R127). -/
def execVshl (d a b : BitVec 7) (w : BitVec 1) (s : State) : Outcome := (s.vmap2 d a b w fun x y => shl x (count32 y)).ok
/-- VSHR (R127). -/
def execVshr (d a b : BitVec 7) (w : BitVec 1) (s : State) : Outcome := (s.vmap2 d a b w fun x y => shr x (count32 y)).ok
/-- VSRA (R127). -/
def execVsra (d a b : BitVec 7) (w : BitVec 1) (s : State) : Outcome := (s.vmap2 d a b w fun x y => sra x (count32 y)).ok
/-- VMIN (R127). -/
def execVmin (d a b : BitVec 7) (w : BitVec 1) (s : State) : Outcome := (s.vmap2 d a b w fun x y => minS x y).ok
/-- VMAX (R127). -/
def execVmax (d a b : BitVec 7) (w : BitVec 1) (s : State) : Outcome := (s.vmap2 d a b w fun x y => maxS x y).ok
/-- VMINU (R127). -/
def execVminu (d a b : BitVec 7) (w : BitVec 1) (s : State) : Outcome := (s.vmap2 d a b w fun x y => minU x y).ok
/-- VMAXU (R127). -/
def execVmaxu (d a b : BitVec 7) (w : BitVec 1) (s : State) : Outcome := (s.vmap2 d a b w fun x y => maxU x y).ok
/-- VADDS (R127). -/
def execVadds (d a b : BitVec 7) (w : BitVec 1) (s : State) : Outcome := (s.vmap2 d a b w fun x y => addSat x y).ok
/-- VSUBS (R127). -/
def execVsubs (d a b : BitVec 7) (w : BitVec 1) (s : State) : Outcome := (s.vmap2 d a b w fun x y => subSat x y).ok
/-- VADDSU (R127). -/
def execVaddsu (d a b : BitVec 7) (w : BitVec 1) (s : State) : Outcome := (s.vmap2 d a b w fun x y => addSatU x y).ok
/-- VSUBSU (R127). -/
def execVsubsu (d a b : BitVec 7) (w : BitVec 1) (s : State) : Outcome := (s.vmap2 d a b w fun x y => subSatU x y).ok
/-- VABSD (R127). -/
def execVabsd (d a b : BitVec 7) (w : BitVec 1) (s : State) : Outcome := (s.vmap2 d a b w fun x y => absDiff x y).ok
/-- VCLZ (R127). -/
def execVclz (d a : BitVec 7) (w : BitVec 1) (s : State) : Outcome := (s.vmap1 d a w clz).ok
/-- VPOPC (R127). -/
def execVpopc (d a : BitVec 7) (w : BitVec 1) (s : State) : Outcome := (s.vmap1 d a w popcount).ok
/-- VBREV (R127). -/
def execVbrev (d a : BitVec 7) (w : BitVec 1) (s : State) : Outcome := (s.vmap1 d a w bitReverse).ok
/-- VSEXB (R127). -/
def execVsexb (d a : BitVec 7) (w : BitVec 1) (s : State) : Outcome := (s.vmap1 d a w sexByte).ok
/-- VSEXH (R127). -/
def execVsexh (d a : BitVec 7) (w : BitVec 1) (s : State) : Outcome := (s.vmap1 d a w sexHalf).ok
/-- VPACKB (R128). -/
def execVpackb (d a b : BitVec 7) (w : BitVec 1) (s : State) : Outcome := (s.vmap2 d a b w (packBytes s.hsat)).ok
/-- VPACKH (R128). -/
def execVpackh (d a b : BitVec 7) (w : BitVec 1) (s : State) : Outcome := (s.vmap2 d a b w (packHalves s.hsat)).ok
/-- VUNPKB (R128). -/
def execVunpkb (d a : BitVec 7) (w : BitVec 1) (s : State) : Outcome := (s.vmap1 d a w unpackBytes).ok
/-- VUNPKH (R128). -/
def execVunpkh (d a : BitVec 7) (w : BitVec 1) (s : State) : Outcome := (s.vmap1 d a w unpackHalf).ok
/-- VMOV (R127). -/
def execVmov (d a : BitVec 7) (w : BitVec 1) (s : State) : Outcome := (s.vmap1 d a w fun x => x).ok
/-- VLANE (R127): x plus the lane number times y. -/
def execVlane (d a b : BitVec 7) (w : BitVec 1) (s : State) : Outcome :=
  (s.checkV [d, a, b] (let x := s.V a; let y := s.V b; s.vresult d w fun i => x.at i + BitVec.ofNat 32 i * y.at i)).ok
/-- VADDI (R129, R120). -/
def execVaddi (d a : BitVec 7) (i : BitVec 12) (s : State) : Outcome := (let k := s.imm12 i; s.vmap1 d a 0 fun x => x + k).ok
/-- VANDI (R129, R120). -/
def execVandi (d a : BitVec 7) (i : BitVec 12) (s : State) : Outcome := (let k := s.imm12 i; s.vmap1 d a 0 fun x => x &&& k).ok
/-- VORI (R129, R120). -/
def execVori (d a : BitVec 7) (i : BitVec 12) (s : State) : Outcome := (let k := s.imm12 i; s.vmap1 d a 0 fun x => x ||| k).ok
/-- VXORI (R129, R120). -/
def execVxori (d a : BitVec 7) (i : BitVec 12) (s : State) : Outcome := (let k := s.imm12 i; s.vmap1 d a 0 fun x => x ^^^ k).ok
/-- VSHI.SHL (R130). -/
def execVshiShl (d a : BitVec 7) (c : BitVec 5) (s : State) : Outcome := (s.vmap1 d a 0 fun x => shl x c.toNat).ok
/-- VSHI.SHR (R130). -/
def execVshiShr (d a : BitVec 7) (c : BitVec 5) (s : State) : Outcome := (s.vmap1 d a 0 fun x => shr x c.toNat).ok
/-- VSHI.SRA (R130). -/
def execVshiSra (d a : BitVec 7) (c : BitVec 5) (s : State) : Outcome := (s.vmap1 d a 0 fun x => sra x c.toNat).ok
/-- VSHI.ROL (R130). -/
def execVshiRol (d a : BitVec 7) (c : BitVec 5) (s : State) : Outcome := (s.vmap1 d a 0 fun x => rol x c.toNat).ok
/-- VLI (R131). -/
def execVli (d : BitVec 7) (i : BitVec 19) (s : State) : Outcome := (s.checkV [d] (s.vresult d 0 fun _ => i.signExtend 32)).ok
/-- VCMP.EQ (R132). -/
def execVcmpEq (d a b : BitVec 7) (w : BitVec 1) (s : State) : Outcome := (s.vmap2 d a b w fun x y => ofBool (x == y)).ok
/-- VCMP.NE (R132). -/
def execVcmpNe (d a b : BitVec 7) (w : BitVec 1) (s : State) : Outcome := (s.vmap2 d a b w fun x y => ofBool (x != y)).ok
/-- VCMP.LT (R132). -/
def execVcmpLt (d a b : BitVec 7) (w : BitVec 1) (s : State) : Outcome := (s.vmap2 d a b w fun x y => ofBool (slt x y)).ok
/-- VCMP.LE (R132). -/
def execVcmpLe (d a b : BitVec 7) (w : BitVec 1) (s : State) : Outcome := (s.vmap2 d a b w fun x y => ofBool (sle x y)).ok
/-- VCMP.LTU (R132). -/
def execVcmpLtu (d a b : BitVec 7) (w : BitVec 1) (s : State) : Outcome := (s.vmap2 d a b w fun x y => ofBool (ult x y)).ok
/-- VCMP.LEU (R132). -/
def execVcmpLeu (d a b : BitVec 7) (w : BitVec 1) (s : State) : Outcome := (s.vmap2 d a b w fun x y => ofBool (ule x y)).ok
/-- VCMP.GT (R132). -/
def execVcmpGt (d a b : BitVec 7) (w : BitVec 1) (s : State) : Outcome := (s.vmap2 d a b w fun x y => ofBool (slt y x)).ok
/-- VCMP.GE (R132). -/
def execVcmpGe (d a b : BitVec 7) (w : BitVec 1) (s : State) : Outcome := (s.vmap2 d a b w fun x y => ofBool (sle y x)).ok
/-- VCMP.GTU (R132). -/
def execVcmpGtu (d a b : BitVec 7) (w : BitVec 1) (s : State) : Outcome := (s.vmap2 d a b w fun x y => ofBool (ult y x)).ok
/-- VCMP.GEU (R132). -/
def execVcmpGeu (d a b : BitVec 7) (w : BitVec 1) (s : State) : Outcome := (s.vmap2 d a b w fun x y => ofBool (ule y x)).ok
/-- VMAD (R133). -/
def execVmad (d a b : BitVec 7) (w : BitVec 1) (s : State) : Outcome := (s.vmap3 d a b w fun x y t => x * y + t).ok
/-- VADDMIN (R133). -/
def execVaddmin (d a b : BitVec 7) (w : BitVec 1) (s : State) : Outcome := (s.vmap3 d a b w fun x y t => minS (x + y) t).ok
/-- VADDMINU (R133). -/
def execVaddminu (d a b : BitVec 7) (w : BitVec 1) (s : State) : Outcome := (s.vmap3 d a b w fun x y t => minU (x + y) t).ok
/-- VADDMAX (R133). -/
def execVaddmax (d a b : BitVec 7) (w : BitVec 1) (s : State) : Outcome := (s.vmap3 d a b w fun x y t => maxS (x + y) t).ok
/-- VSEL (R133). -/
def execVsel (d a b : BitVec 7) (w : BitVec 1) (s : State) : Outcome := (s.vmap3 d a b w fun x y t => if t != 0 then x else y).ok
/-- VDOT4 (R133, R134). -/
def execVdot4 (d a b : BitVec 7) (w : BitVec 1) (s : State) : Outcome := (s.vmap3 d a b w (dot4 s.hsat)).ok
/-- VDOT4U (R133, R134). -/
def execVdot4u (d a b : BitVec 7) (w : BitVec 1) (s : State) : Outcome := (s.vmap3 d a b w (dot4U s.hsat)).ok
/-- VBFI (R133). -/
def execVbfi (d a b : BitVec 7) (w : BitVec 1) (s : State) : Outcome := (s.vmap3 d a b w fun x y t => (x &&& y) ||| (t &&& ~~~y)).ok

/-! ## MOVX (R135, R136) -/

/-- VBCAST (R135). -/
def execVbcast (d : BitVec 7) (a : BitVec 6) (w : BitVec 1) (s : State) : Outcome :=
  (s.checkV [d] (let x := s.S a; s.vresult d w fun _ => x)).ok
/-- VEXTR (R135, R136): lane k as it stands. -/
def execVextr (d : BitVec 6) (a : BitVec 7) (b : BitVec 6) (s : State) : Outcome :=
  (s.checkV [a] (s.sresult d ((s.V a).at (s.S b).toNat))).ok
/-- VINS (R135, R136): the latch takes the destination's value after the instruction, in every lane. -/
def execVins (d : BitVec 7) (a b : BitVec 6) (w : BitVec 1) (s : State) : Outcome :=
  (s.checkV [d]
    (let k := (s.S b).toNat
     let v := if s.active.has k then (s.V d).put k (s.S a) else s.V d
     State.done { s with ply := s.ply.produce d w v })).ok
/-- MFROMV (R135, R136). -/
def execMfromv (d : BitVec 6) (a : BitVec 7) (s : State) : Outcome :=
  (s.checkV [a] (s.setTriple d (maskOf fun i => s.active.has i && (s.V a).at i != 0)).done).ok
/-- MTOV (R135). -/
def execMtov (d : BitVec 7) (a : BitVec 6) (w : BitVec 1) (s : State) : Outcome :=
  (s.checkV [d] (let m := s.triple a; s.vresult d w fun i => ofBool (m.has i))).ok
/-- MPOPC (R135). -/
def execMpopc (d a : BitVec 6) (s : State) : Outcome := (s.sresult d (BitVec.ofNat 32 (popBelow (s.triple a) 96))).ok
/-- MFFS (R135). -/
def execMffs (d a : BitVec 6) (s : State) : Outcome :=
  (s.sresult d (BitVec.ofNat 32 ((s.triple a).lanes.headD 96))).ok
/-- An operation on two triples (R135, R136). -/
def State.mask2 (s : State) (d a b : BitVec 6) (f : Mask → Mask → Mask) : State :=
  (s.setTriple d (f (s.triple a) (s.triple b))).done
/-- MAND (R135). -/
def execMand (d a b : BitVec 6) (s : State) : Outcome := (s.mask2 d a b fun x y => x &&& y).ok
/-- MOR (R135). -/
def execMor (d a b : BitVec 6) (s : State) : Outcome := (s.mask2 d a b fun x y => x ||| y).ok
/-- MXOR (R135). -/
def execMxor (d a b : BitVec 6) (s : State) : Outcome := (s.mask2 d a b fun x y => x ^^^ y).ok
/-- MANDN (R135). -/
def execMandn (d a b : BitVec 6) (s : State) : Outcome := (s.mask2 d a b fun x y => x &&& ~~~y).ok

end Sys2Proof.Machine
end

