-- ==== Sys2Proof/Machine/Dispatch.lean ====
section
/-!
DEFINITION. What every row of the opcode table does: one arm for each constructor of Instr, each a call of its meaning.
-/
namespace Sys2Proof.Machine
open Sys2Proof

def exec (i : Instr) (s : State) : Host.Outcome State Fault Refusal :=
  match i with
  | .sadd d a b => Sys2Proof.Machine.execSadd d a b s
  | .ssub d a b => Sys2Proof.Machine.execSsub d a b s
  | .smul d a b => Sys2Proof.Machine.execSmul d a b s
  | .smulh d a b => Sys2Proof.Machine.execSmulh d a b s
  | .smulhu d a b => Sys2Proof.Machine.execSmulhu d a b s
  | .sdiv d a b => Sys2Proof.Machine.execSdiv d a b s
  | .sdivu d a b => Sys2Proof.Machine.execSdivu d a b s
  | .srem d a b => Sys2Proof.Machine.execSrem d a b s
  | .sremu d a b => Sys2Proof.Machine.execSremu d a b s
  | .sand d a b => Sys2Proof.Machine.execSand d a b s
  | .sor d a b => Sys2Proof.Machine.execSor d a b s
  | .sxor d a b => Sys2Proof.Machine.execSxor d a b s
  | .sandn d a b => Sys2Proof.Machine.execSandn d a b s
  | .sshl d a b => Sys2Proof.Machine.execSshl d a b s
  | .sshr d a b => Sys2Proof.Machine.execSshr d a b s
  | .ssra d a b => Sys2Proof.Machine.execSsra d a b s
  | .srol d a b => Sys2Proof.Machine.execSrol d a b s
  | .smin d a b => Sys2Proof.Machine.execSmin d a b s
  | .smax d a b => Sys2Proof.Machine.execSmax d a b s
  | .sminu d a b => Sys2Proof.Machine.execSminu d a b s
  | .smaxu d a b => Sys2Proof.Machine.execSmaxu d a b s
  | .sclz d a => Sys2Proof.Machine.execSclz d a s
  | .sctz d a => Sys2Proof.Machine.execSctz d a s
  | .spopc d a => Sys2Proof.Machine.execSpopc d a s
  | .sbrev d a => Sys2Proof.Machine.execSbrev d a s
  | .ssexb d a => Sys2Proof.Machine.execSsexb d a s
  | .ssexh d a => Sys2Proof.Machine.execSsexh d a s
  | .ssel d a b => Sys2Proof.Machine.execSsel d a b s
  | .scmpEq d a b => Sys2Proof.Machine.execScmpEq d a b s
  | .scmpNe d a b => Sys2Proof.Machine.execScmpNe d a b s
  | .scmpLt d a b => Sys2Proof.Machine.execScmpLt d a b s
  | .scmpLe d a b => Sys2Proof.Machine.execScmpLe d a b s
  | .scmpLtu d a b => Sys2Proof.Machine.execScmpLtu d a b s
  | .scmpLeu d a b => Sys2Proof.Machine.execScmpLeu d a b s
  | .sadd64 d a b => Sys2Proof.Machine.execSadd64 d a b s
  | .ssub64 d a b => Sys2Proof.Machine.execSsub64 d a b s
  | .sshl64 d a b => Sys2Proof.Machine.execSshl64 d a b s
  | .sshr64 d a b => Sys2Proof.Machine.execSshr64 d a b s
  | .smov64 d a => Sys2Proof.Machine.execSmov64 d a s
  | .saddi d a k => Sys2Proof.Machine.execSaddi d a k s
  | .sandi d a k => Sys2Proof.Machine.execSandi d a k s
  | .sori d a k => Sys2Proof.Machine.execSori d a k s
  | .sxori d a k => Sys2Proof.Machine.execSxori d a k s
  | .sshli d a c => Sys2Proof.Machine.execSshli d a c s
  | .sshri d a c => Sys2Proof.Machine.execSshri d a c s
  | .ssrai d a c => Sys2Proof.Machine.execSsrai d a c s
  | .sli d k => Sys2Proof.Machine.execSli d k s
  | .scmpiEq d a k => Sys2Proof.Machine.execScmpiEq d a k s
  | .scmpiNe d a k => Sys2Proof.Machine.execScmpiNe d a k s
  | .scmpiLt d a k => Sys2Proof.Machine.execScmpiLt d a k s
  | .scmpiLe d a k => Sys2Proof.Machine.execScmpiLe d a k s
  | .scmpiLtu d a k => Sys2Proof.Machine.execScmpiLtu d a k s
  | .scmpiLeu d a k => Sys2Proof.Machine.execScmpiLeu d a k s
  | .scmpiGt d a k => Sys2Proof.Machine.execScmpiGt d a k s
  | .scmpiGe d a k => Sys2Proof.Machine.execScmpiGe d a k s
  | .vadd d a b w => Sys2Proof.Machine.execVadd d a b w s
  | .vsub d a b w => Sys2Proof.Machine.execVsub d a b w s
  | .vmul d a b w => Sys2Proof.Machine.execVmul d a b w s
  | .vmulh d a b w => Sys2Proof.Machine.execVmulh d a b w s
  | .vmulhu d a b w => Sys2Proof.Machine.execVmulhu d a b w s
  | .vand d a b w => Sys2Proof.Machine.execVand d a b w s
  | .vor d a b w => Sys2Proof.Machine.execVor d a b w s
  | .vxor d a b w => Sys2Proof.Machine.execVxor d a b w s
  | .vandn d a b w => Sys2Proof.Machine.execVandn d a b w s
  | .vshl d a b w => Sys2Proof.Machine.execVshl d a b w s
  | .vshr d a b w => Sys2Proof.Machine.execVshr d a b w s
  | .vsra d a b w => Sys2Proof.Machine.execVsra d a b w s
  | .vmin d a b w => Sys2Proof.Machine.execVmin d a b w s
  | .vmax d a b w => Sys2Proof.Machine.execVmax d a b w s
  | .vminu d a b w => Sys2Proof.Machine.execVminu d a b w s
  | .vmaxu d a b w => Sys2Proof.Machine.execVmaxu d a b w s
  | .vadds d a b w => Sys2Proof.Machine.execVadds d a b w s
  | .vsubs d a b w => Sys2Proof.Machine.execVsubs d a b w s
  | .vaddsu d a b w => Sys2Proof.Machine.execVaddsu d a b w s
  | .vsubsu d a b w => Sys2Proof.Machine.execVsubsu d a b w s
  | .vabsd d a b w => Sys2Proof.Machine.execVabsd d a b w s
  | .vclz d a w => Sys2Proof.Machine.execVclz d a w s
  | .vpopc d a w => Sys2Proof.Machine.execVpopc d a w s
  | .vbrev d a w => Sys2Proof.Machine.execVbrev d a w s
  | .vsexb d a w => Sys2Proof.Machine.execVsexb d a w s
  | .vsexh d a w => Sys2Proof.Machine.execVsexh d a w s
  | .vpackb d a b w => Sys2Proof.Machine.execVpackb d a b w s
  | .vpackh d a b w => Sys2Proof.Machine.execVpackh d a b w s
  | .vunpkb d a w => Sys2Proof.Machine.execVunpkb d a w s
  | .vunpkh d a w => Sys2Proof.Machine.execVunpkh d a w s
  | .vmov d a w => Sys2Proof.Machine.execVmov d a w s
  | .vlane d a b w => Sys2Proof.Machine.execVlane d a b w s
  | .vaddi d a k => Sys2Proof.Machine.execVaddi d a k s
  | .vandi d a k => Sys2Proof.Machine.execVandi d a k s
  | .vori d a k => Sys2Proof.Machine.execVori d a k s
  | .vxori d a k => Sys2Proof.Machine.execVxori d a k s
  | .vshiShl d a c => Sys2Proof.Machine.execVshiShl d a c s
  | .vshiShr d a c => Sys2Proof.Machine.execVshiShr d a c s
  | .vshiSra d a c => Sys2Proof.Machine.execVshiSra d a c s
  | .vshiRol d a c => Sys2Proof.Machine.execVshiRol d a c s
  | .vli d k => Sys2Proof.Machine.execVli d k s
  | .vcmpEq d a b w => Sys2Proof.Machine.execVcmpEq d a b w s
  | .vcmpNe d a b w => Sys2Proof.Machine.execVcmpNe d a b w s
  | .vcmpLt d a b w => Sys2Proof.Machine.execVcmpLt d a b w s
  | .vcmpLe d a b w => Sys2Proof.Machine.execVcmpLe d a b w s
  | .vcmpLtu d a b w => Sys2Proof.Machine.execVcmpLtu d a b w s
  | .vcmpLeu d a b w => Sys2Proof.Machine.execVcmpLeu d a b w s
  | .vcmpGt d a b w => Sys2Proof.Machine.execVcmpGt d a b w s
  | .vcmpGe d a b w => Sys2Proof.Machine.execVcmpGe d a b w s
  | .vcmpGtu d a b w => Sys2Proof.Machine.execVcmpGtu d a b w s
  | .vcmpGeu d a b w => Sys2Proof.Machine.execVcmpGeu d a b w s
  | .vmad d a b w => Sys2Proof.Machine.execVmad d a b w s
  | .vaddmin d a b w => Sys2Proof.Machine.execVaddmin d a b w s
  | .vaddminu d a b w => Sys2Proof.Machine.execVaddminu d a b w s
  | .vaddmax d a b w => Sys2Proof.Machine.execVaddmax d a b w s
  | .vsel d a b w => Sys2Proof.Machine.execVsel d a b w s
  | .vdot4 d a b w => Sys2Proof.Machine.execVdot4 d a b w s
  | .vdot4u d a b w => Sys2Proof.Machine.execVdot4u d a b w s
  | .vbfi d a b w => Sys2Proof.Machine.execVbfi d a b w s
  | .fadd d a b w => Sys2Proof.Machine.execFadd d a b w s
  | .fsub d a b w => Sys2Proof.Machine.execFsub d a b w s
  | .fmul d a b w => Sys2Proof.Machine.execFmul d a b w s
  | .fdiv d a b w => Sys2Proof.Machine.execFdiv d a b w s
  | .fmin d a b w => Sys2Proof.Machine.execFmin d a b w s
  | .fmax d a b w => Sys2Proof.Machine.execFmax d a b w s
  | .fminn d a b w => Sys2Proof.Machine.execFminn d a b w s
  | .fmaxn d a b w => Sys2Proof.Machine.execFmaxn d a b w s
  | .fcopysign d a b w => Sys2Proof.Machine.execFcopysign d a b w s
  | .fabs d a w => Sys2Proof.Machine.execFabs d a w s
  | .fneg d a w => Sys2Proof.Machine.execFneg d a w s
  | .ffloor d a w => Sys2Proof.Machine.execFfloor d a w s
  | .fceil d a w => Sys2Proof.Machine.execFceil d a w s
  | .ftrunc d a w => Sys2Proof.Machine.execFtrunc d a w s
  | .frint d a w => Sys2Proof.Machine.execFrint d a w s
  | .fsqrt d a w => Sys2Proof.Machine.execFsqrt d a w s
  | .frcp d a w => Sys2Proof.Machine.execFrcp d a w s
  | .frsq d a w => Sys2Proof.Machine.execFrsq d a w s
  | .fexp2 d a w => Sys2Proof.Machine.execFexp2 d a w s
  | .flog2 d a w => Sys2Proof.Machine.execFlog2 d a w s
  | .fsin d a w => Sys2Proof.Machine.execFsin d a w s
  | .fcos d a w => Sys2Proof.Machine.execFcos d a w s
  | .ftanh d a w => Sys2Proof.Machine.execFtanh d a w s
  | .fsigm d a w => Sys2Proof.Machine.execFsigm d a w s
  | .fclass d a w => Sys2Proof.Machine.execFclass d a w s
  | .fma d a b w => Sys2Proof.Machine.execFma d a b w s
  | .fms d a b w => Sys2Proof.Machine.execFms d a b w s
  | .fnma d a b w => Sys2Proof.Machine.execFnma d a b w s
  | .faddmin d a b w => Sys2Proof.Machine.execFaddmin d a b w s
  | .faddmax d a b w => Sys2Proof.Machine.execFaddmax d a b w s
  | .fcmpEq d a b w => Sys2Proof.Machine.execFcmpEq d a b w s
  | .fcmpNe d a b w => Sys2Proof.Machine.execFcmpNe d a b w s
  | .fcmpLt d a b w => Sys2Proof.Machine.execFcmpLt d a b w s
  | .fcmpLe d a b w => Sys2Proof.Machine.execFcmpLe d a b w s
  | .fcmpGt d a b w => Sys2Proof.Machine.execFcmpGt d a b w s
  | .fcmpGe d a b w => Sys2Proof.Machine.execFcmpGe d a b w s
  | .fcmpUn d a b w => Sys2Proof.Machine.execFcmpUn d a b w s
  | .fcmpOrd d a b w => Sys2Proof.Machine.execFcmpOrd d a b w s
  | .fcvt d a k r m w => Sys2Proof.Machine.execFcvt d a k r m w s
  | .fcvti d a k m w => Sys2Proof.Machine.execFcvti d a k m w s
  | .icvtf d a k m w => Sys2Proof.Machine.execIcvtf d a k m w s
  | .hadd2 d a b w => Sys2Proof.Machine.execHadd2 d a b w s
  | .hsub2 d a b w => Sys2Proof.Machine.execHsub2 d a b w s
  | .hmul2 d a b w => Sys2Proof.Machine.execHmul2 d a b w s
  | .hfma2 d a b w => Sys2Proof.Machine.execHfma2 d a b w s
  | .hmin2 d a b w => Sys2Proof.Machine.execHmin2 d a b w s
  | .hmax2 d a b w => Sys2Proof.Machine.execHmax2 d a b w s
  | .badd2 d a b w => Sys2Proof.Machine.execBadd2 d a b w s
  | .bmul2 d a b w => Sys2Proof.Machine.execBmul2 d a b w s
  | .bfma2 d a b w => Sys2Proof.Machine.execBfma2 d a b w s
  | .lshup d a n w => Sys2Proof.Machine.execLshup d a n w s
  | .lshdn d a n w => Sys2Proof.Machine.execLshdn d a n w s
  | .lrot d a n w => Sys2Proof.Machine.execLrot d a n w s
  | .lperm d a b w => Sys2Proof.Machine.execLperm d a b w s
  | .lbcast d a n w => Sys2Proof.Machine.execLbcast d a n w s
  | .lquad d a n w => Sys2Proof.Machine.execLquad d a n w s
  | .derivx d a w => Sys2Proof.Machine.execDerivx d a w s
  | .derivy d a w => Sys2Proof.Machine.execDerivy d a w s
  | .derivxc d a w => Sys2Proof.Machine.execDerivxc d a w s
  | .derivyc d a w => Sys2Proof.Machine.execDerivyc d a w s
  | .lmatch d a b w => Sys2Proof.Machine.execLmatch d a b w s
  | .lred d a o w => Sys2Proof.Machine.execLred d a o w s
  | .lscan d a e o w => Sys2Proof.Machine.execLscan d a e o w s
  | .lvote d a r w => Sys2Proof.Machine.execLvote d a r w s
  | .vbcast d a w => Sys2Proof.Machine.execVbcast d a w s
  | .vextr d a b => Sys2Proof.Machine.execVextr d a b s
  | .vins d a b w => Sys2Proof.Machine.execVins d a b w s
  | .mfromv d a => Sys2Proof.Machine.execMfromv d a s
  | .mtov d a w => Sys2Proof.Machine.execMtov d a w s
  | .mpopc d a => Sys2Proof.Machine.execMpopc d a s
  | .mffs d a => Sys2Proof.Machine.execMffs d a s
  | .mand d a b => Sys2Proof.Machine.execMand d a b s
  | .mor d a b => Sys2Proof.Machine.execMor d a b s
  | .mxor d a b => Sys2Proof.Machine.execMxor d a b s
  | .mandn d a b => Sys2Proof.Machine.execMandn d a b s
  | .brZ r o => Sys2Proof.Machine.execBrZ r o s
  | .brNz r o => Sys2Proof.Machine.execBrNz r o s
  | .brLtz r o => Sys2Proof.Machine.execBrLtz r o s
  | .brGez r o => Sys2Proof.Machine.execBrGez r o s
  | .brGtz r o => Sys2Proof.Machine.execBrGtz r o s
  | .brLez r o => Sys2Proof.Machine.execBrLez r o s
  | .brmAny r o => Sys2Proof.Machine.execBrmAny r o s
  | .brmNone r o => Sys2Proof.Machine.execBrmNone r o s
  | .brmAll r o => Sys2Proof.Machine.execBrmAll r o s
  | .jmp o => Sys2Proof.Machine.execJmp o s
  | .call o => Sys2Proof.Machine.execCall o s
  | .divb m t j => Sys2Proof.Machine.execDivb m t j s
  | .join => Sys2Proof.Machine.execJoin s
  | .jmpr p => Sys2Proof.Machine.execJmpr p s
  | .callr p => Sys2Proof.Machine.execCallr p s
  | .ret p => Sys2Proof.Machine.execRet p s
  | .nop => Sys2Proof.Machine.execNop s
  | .trap c => Sys2Proof.Machine.execTrap c s
  | .eret => Sys2Proof.Machine.execEret s
  | .ld v p x c z q => Sys2Proof.Machine.execLd v p x c z q s
  | .st v p x c z q => Sys2Proof.Machine.execSt v p x c z q s
  | .ldx v b x c z => Sys2Proof.Machine.execLdx v b x c z s
  | .stx v b x c z => Sys2Proof.Machine.execStx v b x c z s
  | .lds d p q z k => Sys2Proof.Machine.execLds d p q z k s
  | .sts d p q z k => Sys2Proof.Machine.execSts d p q z k s
  | .texl d c r => Sys2Proof.Machine.execTexl d c r s
  | .texb d c r => Sys2Proof.Machine.execTexb d c r s
  | .fence => Sys2Proof.Machine.execFence s
  | .fenceRel => Sys2Proof.Machine.execFenceRel s
  | .fenceAcq => Sys2Proof.Machine.execFenceAcq s
  | .xfence => Sys2Proof.Machine.execXfence s
  | .cinv p l => Sys2Proof.Machine.execCinv p l s
  | .cpref p l v => Sys2Proof.Machine.execCpref p l v s
  | .spill v p n => Sys2Proof.Machine.execSpill v p n s
  | .fill v p n => Sys2Proof.Machine.execFill v p n s
  | .atomAdd v p x r => Sys2Proof.Machine.execAtomAdd v p x r s
  | .atomSub v p x r => Sys2Proof.Machine.execAtomSub v p x r s
  | .atomAnd v p x r => Sys2Proof.Machine.execAtomAnd v p x r s
  | .atomOr v p x r => Sys2Proof.Machine.execAtomOr v p x r s
  | .atomXor v p x r => Sys2Proof.Machine.execAtomXor v p x r s
  | .atomMin v p x r => Sys2Proof.Machine.execAtomMin v p x r s
  | .atomMax v p x r => Sys2Proof.Machine.execAtomMax v p x r s
  | .atomMinu v p x r => Sys2Proof.Machine.execAtomMinu v p x r s
  | .atomMaxu v p x r => Sys2Proof.Machine.execAtomMaxu v p x r s
  | .atomXchg v p x r => Sys2Proof.Machine.execAtomXchg v p x r s
  | .atomCas v p x r => Sys2Proof.Machine.execAtomCas v p x r s
  | .atomIncb v p x r => Sys2Proof.Machine.execAtomIncb v p x r s
  | .atomIncw v p x r => Sys2Proof.Machine.execAtomIncw v p x r s
  | .atomDecz v p x r => Sys2Proof.Machine.execAtomDecz v p x r s
  | .atomFaddl v p x r => Sys2Proof.Machine.execAtomFaddl v p x r s
  | .atomFadd v p x r => Sys2Proof.Machine.execAtomFadd v p x r s
  | .atomFaddr v p x r => Sys2Proof.Machine.execAtomFaddr v p x r s
  | .atomFaddd v p x => Sys2Proof.Machine.execAtomFaddd v p x s
  | .atomAdd64 v p x r => Sys2Proof.Machine.execAtomAdd64 v p x r s
  | .atomMax64 v p x r => Sys2Proof.Machine.execAtomMax64 v p x r s
  | .mma t a b g h z => Sys2Proof.Machine.execMma t a b g h z s
  | .mmabp t p g h z => Sys2Proof.Machine.execMmabp t p g h z s
  | .mzero t => Sys2Proof.Machine.execMzero t s
  | .mrd t g j => Sys2Proof.Machine.execMrd t g j s
  | .mwr t g j => Sys2Proof.Machine.execMwr t g j s
  | .mcvst t a b g z => Sys2Proof.Machine.execMcvst t a b g z s
  | .lcp d r k z => Sys2Proof.Machine.execLcp d r k z s
  | .tcopy g => Sys2Proof.Machine.execTcopy g s
  | .tcopyx g => Sys2Proof.Machine.execTcopyx g s
  | .shapew d a o => Sys2Proof.Machine.execShapew d a o s
  | .shaperel a => Sys2Proof.Machine.execShaperel a s
  | .waitc c k => Sys2Proof.Machine.execWaitc c k s
  | .cntr d c k => Sys2Proof.Machine.execCntr d c k s
  | .vfpush v => Sys2Proof.Machine.execVfpush v s
  | .vfpop v => Sys2Proof.Machine.execVfpop v s
  | .bara d b => Sys2Proof.Machine.execBara d b s
  | .baraEnr d b => Sys2Proof.Machine.execBaraEnr d b s
  | .barw p b => Sys2Proof.Machine.execBarw p b s
  | .baraw b => Sys2Proof.Machine.execBaraw b s
  | .barx n b => Sys2Proof.Machine.execBarx n b s
  | .barinit n b => Sys2Proof.Machine.execBarinit n b s
  | .spawn e a c => Sys2Proof.Machine.execSpawn e a c s
  | .spawnv e a => Sys2Proof.Machine.execSpawnv e a s
  | .spawnr r n c => Sys2Proof.Machine.execSpawnr r n c s
  | .claim d n k => Sys2Proof.Machine.execClaim d n k s
  | .give d n k => Sys2Proof.Machine.execGive d n k s
  | .exit => Sys2Proof.Machine.execExit s
  | .scopen d a p => Sys2Proof.Machine.execScopen d a p s
  | .scopcl r => Sys2Proof.Machine.execScopcl r s
  | .cancel r => Sys2Proof.Machine.execCancel r s
  | .scpst d r => Sys2Proof.Machine.execScpst d r s
  | .scpstW d r => Sys2Proof.Machine.execScpstW d r s
  | .pbegin g => Sys2Proof.Machine.execPbegin g s
  | .psegl a => Sys2Proof.Machine.execPsegl a s
  | .psegq a => Sys2Proof.Machine.execPsegq a s
  | .pview n a => Sys2Proof.Machine.execPview n a s
  | .pclip t => Sys2Proof.Machine.execPclip t s
  | .punclip t l => Sys2Proof.Machine.execPunclip t l s
  | .pend => Sys2Proof.Machine.execPend s
  | .pscan t => Sys2Proof.Machine.execPscan t s
  | .pcell d t r => Sys2Proof.Machine.execPcell d t r s
  | .pblend c => Sys2Proof.Machine.execPblend c s
  | .msend g => Sys2Proof.Machine.execMsend g s
  | .marm g d => Sys2Proof.Machine.execMarm g d s
  | .mdisarm t d => Sys2Proof.Machine.execMdisarm t d s
  | .rput g => Sys2Proof.Machine.execRput g s
  | .rget g => Sys2Proof.Machine.execRget g s
  | .collAllReduce g => Sys2Proof.Machine.execCollAllReduce g s
  | .collAllGather g => Sys2Proof.Machine.execCollAllGather g s
  | .collReduceScatter g => Sys2Proof.Machine.execCollReduceScatter g s
  | .collBroadcast g => Sys2Proof.Machine.execCollBroadcast g s
  | .gets d k => Sys2Proof.Machine.execGets d k s
  | .sets a k => Sys2Proof.Machine.execSets a k s
  | .tlbinv p => Sys2Proof.Machine.execTlbinv p s
  | .tlbinvAll => Sys2Proof.Machine.execTlbinvAll s
  | .ctxsv => Sys2Proof.Machine.execCtxsv s
  | .ctxrs => Sys2Proof.Machine.execCtxrs s
  | .smcAssignCluster d a => Sys2Proof.Machine.execSmcAssignCluster d a s
  | .smcReleaseCluster d a => Sys2Proof.Machine.execSmcReleaseCluster d a s
  | .smcResetPartition d a => Sys2Proof.Machine.execSmcResetPartition d a s
  | .smcSetRoot d a => Sys2Proof.Machine.execSmcSetRoot d a s
  | .smcSetRegulator d a => Sys2Proof.Machine.execSmcSetRegulator d a s
  | .smcSetScopeShare d a => Sys2Proof.Machine.execSmcSetScopeShare d a s
  | .smcAttest d a => Sys2Proof.Machine.execSmcAttest d a s
  | .smcRetireUnit d a => Sys2Proof.Machine.execSmcRetireUnit d a s
  | .pwrqGate d a => Sys2Proof.Machine.execPwrqGate d a s
  | .pwrqPower d a => Sys2Proof.Machine.execPwrqPower d a s
  | .endRun w x y => Sys2Proof.Machine.execEndRun w x y s
  | .yield d l => Sys2Proof.Machine.execYield d l s
  | .pathChoice core pipe => Sys2Proof.Machine.execPathChoice core pipe s
  | .longLatencyResult ply seq => Sys2Proof.Machine.execLongLatencyResult ply seq s
  | .pipeWaitEnd ply => Sys2Proof.Machine.execPipeWaitEnd ply s
  | .watchdogDeadline ply => Sys2Proof.Machine.execWatchdogDeadline ply s
  | .binTimer core => Sys2Proof.Machine.execBinTimer core s
  | .plyFormation core => Sys2Proof.Machine.execPlyFormation core s
  | .gangFormation core launch => Sys2Proof.Machine.execGangFormation core launch s
  | .taskArrival index => Sys2Proof.Machine.execTaskArrival index s
  | .plyRestore core index => Sys2Proof.Machine.execPlyRestore core index s
  | .claimGrant ply => Sys2Proof.Machine.execClaimGrant ply s
  | .claimFailure core => Sys2Proof.Machine.execClaimFailure core s
  | .mtxEngineExecute core => Sys2Proof.Machine.execMtxEngineExecute core s
  | .copyEngineOperation core seq => Sys2Proof.Machine.execCopyEngineOperation core seq s
  | .retirement ply cls => Sys2Proof.Machine.execRetirement ply cls s
  | .waitcReturn ply => Sys2Proof.Machine.execWaitcReturn ply s
  | .barrierArrival core seq => Sys2Proof.Machine.execBarrierArrival core seq s
  | .rootReport core leaf => Sys2Proof.Machine.execRootReport core leaf s
  | .rootFlipArrival core leaf => Sys2Proof.Machine.execRootFlipArrival core leaf s
  | .releaseWave cluster => Sys2Proof.Machine.execReleaseWave cluster s
  | .vfifoPushResume ply => Sys2Proof.Machine.execVfifoPushResume ply s
  | .vfifoPopResume ply => Sys2Proof.Machine.execVfifoPopResume ply s
  | .scpstWReturn ply => Sys2Proof.Machine.execScpstWReturn ply s
  | .cancelBroadcast core index => Sys2Proof.Machine.execCancelBroadcast core index s
  | .scopeDrained tenant scope => Sys2Proof.Machine.execScopeDrained tenant scope s
  | .pathUnitScan core => Sys2Proof.Machine.execPathUnitScan core s
  | .tilerDeposit index => Sys2Proof.Machine.execTilerDeposit index s
  | .commitPerform core index => Sys2Proof.Machine.execCommitPerform core index s
  | .storeAtHome ply seq => Sys2Proof.Machine.execStoreAtHome ply seq s
  | .completionTime store => Sys2Proof.Machine.execCompletionTime store s
  | .clusterCompletionTime store => Sys2Proof.Machine.execClusterCompletionTime store s
  | .atomPerform ply seq => Sys2Proof.Machine.execAtomPerform ply seq s
  | .fadddAccept ply seq => Sys2Proof.Machine.execFadddAccept ply seq s
  | .windowClose core leaf phase => Sys2Proof.Machine.execWindowClose core leaf phase s
  | .sensorReading vault temp => Sys2Proof.Machine.execSensorReading vault temp s
  | .knightProbe core => Sys2Proof.Machine.execKnightProbe core s
  | .quiescePoint cluster => Sys2Proof.Machine.execQuiescePoint cluster s
  | .tailWriteReport tenant queue => Sys2Proof.Machine.execTailWriteReport tenant queue s
  | .launchFire tenant queue => Sys2Proof.Machine.execLaunchFire tenant queue s
  | .clockMark core launch => Sys2Proof.Machine.execClockMark core launch s
  | .queueDescriptorWrite tenant queue bytes => Sys2Proof.Machine.execQueueDescriptorWrite tenant queue bytes s
  | .ccrWrite cluster value => Sys2Proof.Machine.execCcrWrite cluster value s
  | .partitionWrite value => Sys2Proof.Machine.execPartitionWrite value s
  | .regselWrite value => Sys2Proof.Machine.execRegselWrite value s
  | .configurationWrite offset access => Sys2Proof.Machine.execConfigurationWrite offset access s
  | .loadRequest tenant object places tables areas => Sys2Proof.Machine.execLoadRequest tenant object places tables areas s
  | .unloadRequest tenant base => Sys2Proof.Machine.execUnloadRequest tenant base s
  | .packagePowerOn slotA slotB rollback => Sys2Proof.Machine.execPackagePowerOn slotA slotB rollback s
  | .unitRetirement kind number => Sys2Proof.Machine.execUnitRetirement kind number s
  | .dieGated tower => Sys2Proof.Machine.execDieGated tower s
  | .powerReturn tower => Sys2Proof.Machine.execPowerReturn tower s
  | .messageArrival message => Sys2Proof.Machine.execMessageArrival message s
  | .remotePutArrival tenant source region offset data => Sys2Proof.Machine.execRemotePutArrival tenant source region offset data s
  | .remoteGetArrival tenant source region offset length => Sys2Proof.Machine.execRemoteGetArrival tenant source region offset length s
  | .fabricRetire op answer => Sys2Proof.Machine.execFabricRetire op answer s
  | .timeout op => Sys2Proof.Machine.execTimeout op s
  | .collInstanceComplete op members => Sys2Proof.Machine.execCollInstanceComplete op members s
  | .collTimeout op => Sys2Proof.Machine.execCollTimeout op s
  | .slackControl tenant slack interval => Sys2Proof.Machine.execSlackControl tenant slack interval s
  | .tlbinvDropComplete ply => Sys2Proof.Machine.execTlbinvDropComplete ply s
  | .illegalWord sub pos word other => Sys2Proof.Machine.execIllegalWord sub pos word other s
  | .fetchFault code sub address => Sys2Proof.Machine.execFetchFault code sub address s
  | .pathUnitDeposit core => Sys2Proof.Machine.execPathUnitDeposit core s
  | .uncorrectableError site => Sys2Proof.Machine.execUncorrectableError site s
  | .vaultCacheFlush vault => Sys2Proof.Machine.execVaultCacheFlush vault s
  | .recoveryImage image => Sys2Proof.Machine.execRecoveryImage image s

end Sys2Proof.Machine
end

