-- ==== Sys2Proof/WellFormed.lean ====
section
/-!
DEFINITION. Which terms of Instr stand for a legal word: the checks that spec/03 (R75, R76, R79 to R87) and each
instruction's entry make on the fields that the term carries. A check has the ILLEGAL sub-code that its failure raises
and the bit position of its field (R93).
-/
namespace Sys2Proof

/-- One check of a field: its ILLEGAL sub-code, the position of its field, whether it holds (R93). -/
structure FieldCheck where
  sub : Nat
  pos : Nat
  ok  : Bool
  deriving DecidableEq, Repr

/-- A field that names a pair holds an even number (R75). -/
def even {w : Nat} (x : BitVec w) : Bool := x.toNat % 2 == 0
/-- A field that names a triple or a group of four holds a multiple of 4 (R75, R84). -/
def mult4 {w : Nat} (x : BitVec w) : Bool := x.toNat % 4 == 0
/-- The base of a group of eight scalars: a multiple of 4 no greater than 56 (R272, R397). -/
def isGroup8 (x : BitVec 6) : Bool := x.toNat % 4 == 0 && x.toNat ≤ 56
/-- A vector field that is written: v0 to v119 or vz (R76). -/
def isDst (x : BitVec 7) : Bool := x.toNat ≤ 119 || x.toNat == 124
/-- A vector field that is read by R, T and I formats: registers, latches, vz, vocc (R76). -/
def isSrc (x : BitVec 7) : Bool := x.toNat ≤ 124 || x.toNat == 126
/-- A vector field of a memory access: v0 to v119 or vz (R76). -/
def isMem (x : BitVec 7) : Bool := x.toNat ≤ 119 || x.toNat == 124
/-- A vector field that must name a register. -/
def isReg (x : BitVec 7) : Bool := x.toNat ≤ 119
/-- An awaited code of END (R86). -/
def isAwait (x : BitVec 7) : Bool := x.toNat ≤ 124 || x.toNat == 126

/-- The format pairs that MMA accepts (R206). -/
def mmaPair (fa fb : BitVec 3) : Bool :=
  (fa.toNat ≤ 1 && fb.toNat ≤ 1) || ((fa == 2 || fa == 3) && (fb == 2 || fb == 3)) ||
  (fa == 4 && fb == 4) || (fa == 5 && fb == 5) || (fa == 6 && fb == 6)

/-- The special registers that are pairs (R111). -/
def srPair (i : Nat) : Bool :=
  i == 0x000 || i == 0x016 || i == 0x100 || i == 0x104 || i == 0x108 || i == 0x10A || i == 0x200
/-- The base indices of the special registers (R111). -/
def srAllocated (i : Nat) : Bool :=
  srPair i || (2 ≤ i && i ≤ 0x015) || (0x018 ≤ i && i ≤ 0x01E) || (0x020 ≤ i && i ≤ 0x025) ||
  i == 0x102 || i == 0x106 || i == 0x107 || (0x10C ≤ i && i ≤ 0x10F) || i == 0x202 || i == 0x203

/-- The checks on the fields of an instruction. -/
def Instr.checks : Instr → List FieldCheck
  | .sadd _ _ _ => []
  | .ssub _ _ _ => []
  | .smul _ _ _ => []
  | .smulh _ _ _ => []
  | .smulhu _ _ _ => []
  | .sdiv _ _ _ => []
  | .sdivu _ _ _ => []
  | .srem _ _ _ => []
  | .sremu _ _ _ => []
  | .sand _ _ _ => []
  | .sor _ _ _ => []
  | .sxor _ _ _ => []
  | .sandn _ _ _ => []
  | .sshl _ _ _ => []
  | .sshr _ _ _ => []
  | .ssra _ _ _ => []
  | .srol _ _ _ => []
  | .smin _ _ _ => []
  | .smax _ _ _ => []
  | .sminu _ _ _ => []
  | .smaxu _ _ _ => []
  | .sclz _ _ => []
  | .sctz _ _ => []
  | .spopc _ _ => []
  | .sbrev _ _ => []
  | .ssexb _ _ => []
  | .ssexh _ _ => []
  | .ssel _ _ _ => []
  | .scmpEq _ _ _ => []
  | .scmpNe _ _ _ => []
  | .scmpLt _ _ _ => []
  | .scmpLe _ _ _ => []
  | .scmpLtu _ _ _ => []
  | .scmpLeu _ _ _ => []
  | .sadd64 d a b => [⟨7, 20, even d⟩, ⟨7, 14, even a⟩, ⟨7, 8, even b⟩]
  | .ssub64 d a b => [⟨7, 20, even d⟩, ⟨7, 14, even a⟩, ⟨7, 8, even b⟩]
  | .sshl64 d a _ => [⟨7, 20, even d⟩, ⟨7, 14, even a⟩]
  | .sshr64 d a _ => [⟨7, 20, even d⟩, ⟨7, 14, even a⟩]
  | .smov64 d a => [⟨7, 20, even d⟩, ⟨7, 14, even a⟩]
  | .saddi _ _ _ => []
  | .sandi _ _ _ => []
  | .sori _ _ _ => []
  | .sxori _ _ _ => []
  | .sshli _ _ _ => []
  | .sshri _ _ _ => []
  | .ssrai _ _ _ => []
  | .sli _ _ => []
  | .scmpiEq _ _ _ => []
  | .scmpiNe _ _ _ => []
  | .scmpiLt _ _ _ => []
  | .scmpiLe _ _ _ => []
  | .scmpiLtu _ _ _ => []
  | .scmpiLeu _ _ _ => []
  | .scmpiGt _ _ _ => []
  | .scmpiGe _ _ _ => []
  | .vadd d a b _ => [⟨3, 19, isDst d⟩, ⟨3, 12, isSrc a⟩, ⟨3, 5, isSrc b⟩]
  | .vsub d a b _ => [⟨3, 19, isDst d⟩, ⟨3, 12, isSrc a⟩, ⟨3, 5, isSrc b⟩]
  | .vmul d a b _ => [⟨3, 19, isDst d⟩, ⟨3, 12, isSrc a⟩, ⟨3, 5, isSrc b⟩]
  | .vmulh d a b _ => [⟨3, 19, isDst d⟩, ⟨3, 12, isSrc a⟩, ⟨3, 5, isSrc b⟩]
  | .vmulhu d a b _ => [⟨3, 19, isDst d⟩, ⟨3, 12, isSrc a⟩, ⟨3, 5, isSrc b⟩]
  | .vand d a b _ => [⟨3, 19, isDst d⟩, ⟨3, 12, isSrc a⟩, ⟨3, 5, isSrc b⟩]
  | .vor d a b _ => [⟨3, 19, isDst d⟩, ⟨3, 12, isSrc a⟩, ⟨3, 5, isSrc b⟩]
  | .vxor d a b _ => [⟨3, 19, isDst d⟩, ⟨3, 12, isSrc a⟩, ⟨3, 5, isSrc b⟩]
  | .vandn d a b _ => [⟨3, 19, isDst d⟩, ⟨3, 12, isSrc a⟩, ⟨3, 5, isSrc b⟩]
  | .vshl d a b _ => [⟨3, 19, isDst d⟩, ⟨3, 12, isSrc a⟩, ⟨3, 5, isSrc b⟩]
  | .vshr d a b _ => [⟨3, 19, isDst d⟩, ⟨3, 12, isSrc a⟩, ⟨3, 5, isSrc b⟩]
  | .vsra d a b _ => [⟨3, 19, isDst d⟩, ⟨3, 12, isSrc a⟩, ⟨3, 5, isSrc b⟩]
  | .vmin d a b _ => [⟨3, 19, isDst d⟩, ⟨3, 12, isSrc a⟩, ⟨3, 5, isSrc b⟩]
  | .vmax d a b _ => [⟨3, 19, isDst d⟩, ⟨3, 12, isSrc a⟩, ⟨3, 5, isSrc b⟩]
  | .vminu d a b _ => [⟨3, 19, isDst d⟩, ⟨3, 12, isSrc a⟩, ⟨3, 5, isSrc b⟩]
  | .vmaxu d a b _ => [⟨3, 19, isDst d⟩, ⟨3, 12, isSrc a⟩, ⟨3, 5, isSrc b⟩]
  | .vadds d a b _ => [⟨3, 19, isDst d⟩, ⟨3, 12, isSrc a⟩, ⟨3, 5, isSrc b⟩]
  | .vsubs d a b _ => [⟨3, 19, isDst d⟩, ⟨3, 12, isSrc a⟩, ⟨3, 5, isSrc b⟩]
  | .vaddsu d a b _ => [⟨3, 19, isDst d⟩, ⟨3, 12, isSrc a⟩, ⟨3, 5, isSrc b⟩]
  | .vsubsu d a b _ => [⟨3, 19, isDst d⟩, ⟨3, 12, isSrc a⟩, ⟨3, 5, isSrc b⟩]
  | .vabsd d a b _ => [⟨3, 19, isDst d⟩, ⟨3, 12, isSrc a⟩, ⟨3, 5, isSrc b⟩]
  | .vclz d a _ => [⟨3, 19, isDst d⟩, ⟨3, 12, isSrc a⟩]
  | .vpopc d a _ => [⟨3, 19, isDst d⟩, ⟨3, 12, isSrc a⟩]
  | .vbrev d a _ => [⟨3, 19, isDst d⟩, ⟨3, 12, isSrc a⟩]
  | .vsexb d a _ => [⟨3, 19, isDst d⟩, ⟨3, 12, isSrc a⟩]
  | .vsexh d a _ => [⟨3, 19, isDst d⟩, ⟨3, 12, isSrc a⟩]
  | .vpackb d a b _ => [⟨3, 19, isDst d⟩, ⟨3, 12, isSrc a⟩, ⟨3, 5, isSrc b⟩]
  | .vpackh d a b _ => [⟨3, 19, isDst d⟩, ⟨3, 12, isSrc a⟩, ⟨3, 5, isSrc b⟩]
  | .vunpkb d a _ => [⟨3, 19, isDst d⟩, ⟨3, 12, isSrc a⟩]
  | .vunpkh d a _ => [⟨3, 19, isDst d⟩, ⟨3, 12, isSrc a⟩]
  | .vmov d a _ => [⟨3, 19, isDst d⟩, ⟨3, 12, isSrc a⟩]
  | .vlane d a b _ => [⟨3, 19, isDst d⟩, ⟨3, 12, isSrc a⟩, ⟨3, 5, isSrc b⟩]
  | .vaddi d a _ => [⟨3, 19, isDst d⟩, ⟨3, 12, isSrc a⟩]
  | .vandi d a _ => [⟨3, 19, isDst d⟩, ⟨3, 12, isSrc a⟩]
  | .vori d a _ => [⟨3, 19, isDst d⟩, ⟨3, 12, isSrc a⟩]
  | .vxori d a _ => [⟨3, 19, isDst d⟩, ⟨3, 12, isSrc a⟩]
  | .vshiShl d a _ => [⟨3, 19, isDst d⟩, ⟨3, 12, isSrc a⟩]
  | .vshiShr d a _ => [⟨3, 19, isDst d⟩, ⟨3, 12, isSrc a⟩]
  | .vshiSra d a _ => [⟨3, 19, isDst d⟩, ⟨3, 12, isSrc a⟩]
  | .vshiRol d a _ => [⟨3, 19, isDst d⟩, ⟨3, 12, isSrc a⟩]
  | .vli d _ => [⟨3, 19, isDst d⟩]
  | .vcmpEq d a b _ => [⟨3, 19, isDst d⟩, ⟨3, 12, isSrc a⟩, ⟨3, 5, isSrc b⟩]
  | .vcmpNe d a b _ => [⟨3, 19, isDst d⟩, ⟨3, 12, isSrc a⟩, ⟨3, 5, isSrc b⟩]
  | .vcmpLt d a b _ => [⟨3, 19, isDst d⟩, ⟨3, 12, isSrc a⟩, ⟨3, 5, isSrc b⟩]
  | .vcmpLe d a b _ => [⟨3, 19, isDst d⟩, ⟨3, 12, isSrc a⟩, ⟨3, 5, isSrc b⟩]
  | .vcmpLtu d a b _ => [⟨3, 19, isDst d⟩, ⟨3, 12, isSrc a⟩, ⟨3, 5, isSrc b⟩]
  | .vcmpLeu d a b _ => [⟨3, 19, isDst d⟩, ⟨3, 12, isSrc a⟩, ⟨3, 5, isSrc b⟩]
  | .vcmpGt d a b _ => [⟨3, 19, isDst d⟩, ⟨3, 12, isSrc a⟩, ⟨3, 5, isSrc b⟩]
  | .vcmpGe d a b _ => [⟨3, 19, isDst d⟩, ⟨3, 12, isSrc a⟩, ⟨3, 5, isSrc b⟩]
  | .vcmpGtu d a b _ => [⟨3, 19, isDst d⟩, ⟨3, 12, isSrc a⟩, ⟨3, 5, isSrc b⟩]
  | .vcmpGeu d a b _ => [⟨3, 19, isDst d⟩, ⟨3, 12, isSrc a⟩, ⟨3, 5, isSrc b⟩]
  | .vmad d a b _ => [⟨3, 19, isDst d⟩, ⟨3, 12, isSrc a⟩, ⟨3, 5, isSrc b⟩]
  | .vaddmin d a b _ => [⟨3, 19, isDst d⟩, ⟨3, 12, isSrc a⟩, ⟨3, 5, isSrc b⟩]
  | .vaddminu d a b _ => [⟨3, 19, isDst d⟩, ⟨3, 12, isSrc a⟩, ⟨3, 5, isSrc b⟩]
  | .vaddmax d a b _ => [⟨3, 19, isDst d⟩, ⟨3, 12, isSrc a⟩, ⟨3, 5, isSrc b⟩]
  | .vsel d a b _ => [⟨3, 19, isDst d⟩, ⟨3, 12, isSrc a⟩, ⟨3, 5, isSrc b⟩]
  | .vdot4 d a b _ => [⟨3, 19, isDst d⟩, ⟨3, 12, isSrc a⟩, ⟨3, 5, isSrc b⟩]
  | .vdot4u d a b _ => [⟨3, 19, isDst d⟩, ⟨3, 12, isSrc a⟩, ⟨3, 5, isSrc b⟩]
  | .vbfi d a b _ => [⟨3, 19, isDst d⟩, ⟨3, 12, isSrc a⟩, ⟨3, 5, isSrc b⟩]
  | .fadd d a b _ => [⟨3, 19, isDst d⟩, ⟨3, 12, isSrc a⟩, ⟨3, 5, isSrc b⟩]
  | .fsub d a b _ => [⟨3, 19, isDst d⟩, ⟨3, 12, isSrc a⟩, ⟨3, 5, isSrc b⟩]
  | .fmul d a b _ => [⟨3, 19, isDst d⟩, ⟨3, 12, isSrc a⟩, ⟨3, 5, isSrc b⟩]
  | .fdiv d a b _ => [⟨3, 19, isDst d⟩, ⟨3, 12, isSrc a⟩, ⟨3, 5, isSrc b⟩]
  | .fmin d a b _ => [⟨3, 19, isDst d⟩, ⟨3, 12, isSrc a⟩, ⟨3, 5, isSrc b⟩]
  | .fmax d a b _ => [⟨3, 19, isDst d⟩, ⟨3, 12, isSrc a⟩, ⟨3, 5, isSrc b⟩]
  | .fminn d a b _ => [⟨3, 19, isDst d⟩, ⟨3, 12, isSrc a⟩, ⟨3, 5, isSrc b⟩]
  | .fmaxn d a b _ => [⟨3, 19, isDst d⟩, ⟨3, 12, isSrc a⟩, ⟨3, 5, isSrc b⟩]
  | .fcopysign d a b _ => [⟨3, 19, isDst d⟩, ⟨3, 12, isSrc a⟩, ⟨3, 5, isSrc b⟩]
  | .fabs d a _ => [⟨3, 19, isDst d⟩, ⟨3, 12, isSrc a⟩]
  | .fneg d a _ => [⟨3, 19, isDst d⟩, ⟨3, 12, isSrc a⟩]
  | .ffloor d a _ => [⟨3, 19, isDst d⟩, ⟨3, 12, isSrc a⟩]
  | .fceil d a _ => [⟨3, 19, isDst d⟩, ⟨3, 12, isSrc a⟩]
  | .ftrunc d a _ => [⟨3, 19, isDst d⟩, ⟨3, 12, isSrc a⟩]
  | .frint d a _ => [⟨3, 19, isDst d⟩, ⟨3, 12, isSrc a⟩]
  | .fsqrt d a _ => [⟨3, 19, isDst d⟩, ⟨3, 12, isSrc a⟩]
  | .frcp d a _ => [⟨3, 19, isDst d⟩, ⟨3, 12, isSrc a⟩]
  | .frsq d a _ => [⟨3, 19, isDst d⟩, ⟨3, 12, isSrc a⟩]
  | .fexp2 d a _ => [⟨3, 19, isDst d⟩, ⟨3, 12, isSrc a⟩]
  | .flog2 d a _ => [⟨3, 19, isDst d⟩, ⟨3, 12, isSrc a⟩]
  | .fsin d a _ => [⟨3, 19, isDst d⟩, ⟨3, 12, isSrc a⟩]
  | .fcos d a _ => [⟨3, 19, isDst d⟩, ⟨3, 12, isSrc a⟩]
  | .ftanh d a _ => [⟨3, 19, isDst d⟩, ⟨3, 12, isSrc a⟩]
  | .fsigm d a _ => [⟨3, 19, isDst d⟩, ⟨3, 12, isSrc a⟩]
  | .fclass d a _ => [⟨3, 19, isDst d⟩, ⟨3, 12, isSrc a⟩]
  | .fma d a b _ => [⟨3, 19, isDst d⟩, ⟨3, 12, isSrc a⟩, ⟨3, 5, isSrc b⟩]
  | .fms d a b _ => [⟨3, 19, isDst d⟩, ⟨3, 12, isSrc a⟩, ⟨3, 5, isSrc b⟩]
  | .fnma d a b _ => [⟨3, 19, isDst d⟩, ⟨3, 12, isSrc a⟩, ⟨3, 5, isSrc b⟩]
  | .faddmin d a b _ => [⟨3, 19, isDst d⟩, ⟨3, 12, isSrc a⟩, ⟨3, 5, isSrc b⟩]
  | .faddmax d a b _ => [⟨3, 19, isDst d⟩, ⟨3, 12, isSrc a⟩, ⟨3, 5, isSrc b⟩]
  | .fcmpEq d a b _ => [⟨3, 19, isDst d⟩, ⟨3, 12, isSrc a⟩, ⟨3, 5, isSrc b⟩]
  | .fcmpNe d a b _ => [⟨3, 19, isDst d⟩, ⟨3, 12, isSrc a⟩, ⟨3, 5, isSrc b⟩]
  | .fcmpLt d a b _ => [⟨3, 19, isDst d⟩, ⟨3, 12, isSrc a⟩, ⟨3, 5, isSrc b⟩]
  | .fcmpLe d a b _ => [⟨3, 19, isDst d⟩, ⟨3, 12, isSrc a⟩, ⟨3, 5, isSrc b⟩]
  | .fcmpGt d a b _ => [⟨3, 19, isDst d⟩, ⟨3, 12, isSrc a⟩, ⟨3, 5, isSrc b⟩]
  | .fcmpGe d a b _ => [⟨3, 19, isDst d⟩, ⟨3, 12, isSrc a⟩, ⟨3, 5, isSrc b⟩]
  | .fcmpUn d a b _ => [⟨3, 19, isDst d⟩, ⟨3, 12, isSrc a⟩, ⟨3, 5, isSrc b⟩]
  | .fcmpOrd d a b _ => [⟨3, 19, isDst d⟩, ⟨3, 12, isSrc a⟩, ⟨3, 5, isSrc b⟩]
  | .fcvt d a i s m _ => [⟨1, 5, (i.toNat ≤ 24)⟩, ⟨2, 4, (s == 0 || (4 ≤ i.toNat && i.toNat ≤ 19))⟩, ⟨2, 1, (m.toNat ≤ 4 || m == 7)⟩, ⟨3, 19, isDst d⟩, ⟨3, 12, isSrc a⟩]
  | .fcvti d a i m _ => [⟨1, 5, (i.toNat ≤ 9)⟩, ⟨2, 1, (m.toNat ≤ 4 || m == 7)⟩, ⟨3, 19, isDst d⟩, ⟨3, 12, isSrc a⟩]
  | .icvtf d a i m _ => [⟨1, 5, (i.toNat ≤ 5)⟩, ⟨2, 1, (m.toNat ≤ 4 || m == 7)⟩, ⟨3, 19, isDst d⟩, ⟨3, 12, isSrc a⟩]
  | .hadd2 d a b _ => [⟨3, 19, isDst d⟩, ⟨3, 12, isSrc a⟩, ⟨3, 5, isSrc b⟩]
  | .hsub2 d a b _ => [⟨3, 19, isDst d⟩, ⟨3, 12, isSrc a⟩, ⟨3, 5, isSrc b⟩]
  | .hmul2 d a b _ => [⟨3, 19, isDst d⟩, ⟨3, 12, isSrc a⟩, ⟨3, 5, isSrc b⟩]
  | .hfma2 d a b _ => [⟨3, 19, isDst d⟩, ⟨3, 12, isSrc a⟩, ⟨3, 5, isSrc b⟩]
  | .hmin2 d a b _ => [⟨3, 19, isDst d⟩, ⟨3, 12, isSrc a⟩, ⟨3, 5, isSrc b⟩]
  | .hmax2 d a b _ => [⟨3, 19, isDst d⟩, ⟨3, 12, isSrc a⟩, ⟨3, 5, isSrc b⟩]
  | .badd2 d a b _ => [⟨3, 19, isDst d⟩, ⟨3, 12, isSrc a⟩, ⟨3, 5, isSrc b⟩]
  | .bmul2 d a b _ => [⟨3, 19, isDst d⟩, ⟨3, 12, isSrc a⟩, ⟨3, 5, isSrc b⟩]
  | .bfma2 d a b _ => [⟨3, 19, isDst d⟩, ⟨3, 12, isSrc a⟩, ⟨3, 5, isSrc b⟩]
  | .lshup d a n _ => [⟨2, 5, (n.toNat ≤ 95)⟩, ⟨3, 19, isDst d⟩, ⟨3, 12, isSrc a⟩]
  | .lshdn d a n _ => [⟨2, 5, (n.toNat ≤ 95)⟩, ⟨3, 19, isDst d⟩, ⟨3, 12, isSrc a⟩]
  | .lrot d a n _ => [⟨2, 5, (n.toNat ≤ 95)⟩, ⟨3, 19, isDst d⟩, ⟨3, 12, isSrc a⟩]
  | .lperm d a b _ => [⟨3, 19, isDst d⟩, ⟨3, 12, isSrc a⟩, ⟨3, 5, isSrc b⟩]
  | .lbcast d a n _ => [⟨2, 5, (n.toNat ≤ 95)⟩, ⟨3, 19, isDst d⟩, ⟨3, 12, isSrc a⟩]
  | .lquad d a n _ => [⟨2, 5, (n.toNat ≤ 6)⟩, ⟨3, 19, isDst d⟩, ⟨3, 12, isSrc a⟩]
  | .derivx d a _ => [⟨3, 19, isDst d⟩, ⟨3, 12, isSrc a⟩]
  | .derivy d a _ => [⟨3, 19, isDst d⟩, ⟨3, 12, isSrc a⟩]
  | .derivxc d a _ => [⟨3, 19, isDst d⟩, ⟨3, 12, isSrc a⟩]
  | .derivyc d a _ => [⟨3, 19, isDst d⟩, ⟨3, 12, isSrc a⟩]
  | .lmatch d a b _ => [⟨3, 19, isDst d⟩, ⟨3, 12, isSrc a⟩, ⟨3, 5, isSrc b⟩]
  | .lred d a o _ => [⟨2, 5, (o.toNat ≤ 12)⟩, ⟨3, 19, isDst d⟩, ⟨3, 12, isSrc a⟩]
  | .lscan d a _ o _ => [⟨2, 5, (o.toNat ≤ 12)⟩, ⟨3, 19, isDst d⟩, ⟨3, 12, isSrc a⟩]
  | .lvote d a _ _ => [⟨3, 19, isDst d⟩, ⟨3, 12, isSrc a⟩]
  | .vbcast d _ _ => [⟨3, 19, isDst d⟩]
  | .vextr _ a _ => [⟨3, 12, isSrc a⟩]
  | .vins d _ _ _ => [⟨3, 19, isDst d⟩]
  | .mfromv d a => [⟨3, 12, isSrc a⟩, ⟨7, 19, mult4 d⟩]
  | .mtov d a _ => [⟨3, 19, isDst d⟩, ⟨7, 12, mult4 a⟩]
  | .mpopc _ a => [⟨7, 12, mult4 a⟩]
  | .mffs _ a => [⟨7, 12, mult4 a⟩]
  | .mand d a b => [⟨7, 19, mult4 d⟩, ⟨7, 12, mult4 a⟩, ⟨7, 5, mult4 b⟩]
  | .mor d a b => [⟨7, 19, mult4 d⟩, ⟨7, 12, mult4 a⟩, ⟨7, 5, mult4 b⟩]
  | .mxor d a b => [⟨7, 19, mult4 d⟩, ⟨7, 12, mult4 a⟩, ⟨7, 5, mult4 b⟩]
  | .mandn d a b => [⟨7, 19, mult4 d⟩, ⟨7, 12, mult4 a⟩, ⟨7, 5, mult4 b⟩]
  | .brZ _ _ => []
  | .brNz _ _ => []
  | .brLtz _ _ => []
  | .brGez _ _ => []
  | .brGtz _ _ => []
  | .brLez _ _ => []
  | .brmAny s _ => [⟨7, 16, mult4 s⟩]
  | .brmNone s _ => [⟨7, 16, mult4 s⟩]
  | .brmAll s _ => [⟨7, 16, mult4 s⟩]
  | .jmp _ => []
  | .call _ => []
  | .divb m _ _ => [⟨7, 20, mult4 m⟩]
  | .join => []
  | .jmpr p => [⟨7, 16, even p⟩]
  | .callr p => [⟨7, 16, even p⟩]
  | .ret p => [⟨7, 16, even p⟩]
  | .nop => []
  | .trap _ => []
  | .eret => []
  | .ld v p x _ z _ => [⟨1, 1, (z.toNat ≤ 5)⟩, ⟨3, 19, isMem v⟩, ⟨3, 6, isMem x⟩, ⟨7, 13, even p⟩]
  | .st v p x _ z _ => [⟨1, 1, (z.toNat ≤ 5)⟩, ⟨3, 19, isMem v⟩, ⟨3, 6, isMem x⟩, ⟨2, 1, (z != 1 && z != 3)⟩, ⟨7, 13, even p⟩]
  | .ldx v _ x _ z => [⟨1, 1, (z.toNat ≤ 5)⟩, ⟨3, 19, isMem v⟩, ⟨3, 6, isMem x⟩]
  | .stx v _ x _ z => [⟨1, 1, (z.toNat ≤ 5)⟩, ⟨3, 19, isMem v⟩, ⟨3, 6, isMem x⟩, ⟨2, 1, (z != 1 && z != 3)⟩]
  | .lds d p _ z _ => [⟨7, 14, even p⟩, ⟨7, 20, (z == 0 || even d)⟩]
  | .sts d p _ z _ => [⟨7, 14, even p⟩, ⟨7, 20, (z == 0 || even d)⟩]
  | .texl d c s => [⟨3, 15, isMem d⟩, ⟨3, 8, isMem c⟩, ⟨7, 2, mult4 s⟩]
  | .texb d c s => [⟨3, 15, isMem d⟩, ⟨3, 8, isMem c⟩, ⟨7, 2, mult4 s⟩]
  | .fence => []
  | .fenceRel => []
  | .fenceAcq => []
  | .xfence => []
  | .cinv p _ => [⟨7, 16, even p⟩]
  | .cpref p _ v => [⟨1, 8, (v != 3)⟩, ⟨7, 16, even p⟩]
  | .spill v p _ => [⟨3, 15, isReg v⟩, ⟨7, 9, even p⟩]
  | .fill v p _ => [⟨3, 15, isReg v⟩, ⟨7, 9, even p⟩]
  | .atomAdd v p x _ => [⟨3, 19, isMem v⟩, ⟨3, 6, isMem x⟩, ⟨7, 13, even p⟩]
  | .atomSub v p x _ => [⟨3, 19, isMem v⟩, ⟨3, 6, isMem x⟩, ⟨7, 13, even p⟩]
  | .atomAnd v p x _ => [⟨3, 19, isMem v⟩, ⟨3, 6, isMem x⟩, ⟨7, 13, even p⟩]
  | .atomOr v p x _ => [⟨3, 19, isMem v⟩, ⟨3, 6, isMem x⟩, ⟨7, 13, even p⟩]
  | .atomXor v p x _ => [⟨3, 19, isMem v⟩, ⟨3, 6, isMem x⟩, ⟨7, 13, even p⟩]
  | .atomMin v p x _ => [⟨3, 19, isMem v⟩, ⟨3, 6, isMem x⟩, ⟨7, 13, even p⟩]
  | .atomMax v p x _ => [⟨3, 19, isMem v⟩, ⟨3, 6, isMem x⟩, ⟨7, 13, even p⟩]
  | .atomMinu v p x _ => [⟨3, 19, isMem v⟩, ⟨3, 6, isMem x⟩, ⟨7, 13, even p⟩]
  | .atomMaxu v p x _ => [⟨3, 19, isMem v⟩, ⟨3, 6, isMem x⟩, ⟨7, 13, even p⟩]
  | .atomXchg v p x _ => [⟨3, 19, isMem v⟩, ⟨3, 6, isMem x⟩, ⟨7, 13, even p⟩]
  | .atomCas v p x _ => [⟨3, 19, isReg v⟩, ⟨3, 6, isMem x⟩, ⟨7, 13, even p⟩]
  | .atomIncb v p x _ => [⟨3, 19, isMem v⟩, ⟨3, 6, isMem x⟩, ⟨7, 13, even p⟩]
  | .atomIncw v p x _ => [⟨3, 19, isMem v⟩, ⟨3, 6, isMem x⟩, ⟨7, 13, even p⟩]
  | .atomDecz v p x _ => [⟨3, 19, isMem v⟩, ⟨3, 6, isMem x⟩, ⟨7, 13, even p⟩]
  | .atomFaddl v p x _ => [⟨3, 19, isReg v⟩, ⟨3, 6, isMem x⟩, ⟨7, 13, even p⟩]
  | .atomFadd v p x _ => [⟨3, 19, isMem v⟩, ⟨3, 6, isMem x⟩, ⟨7, 13, even p⟩]
  | .atomFaddr v p x _ => [⟨3, 19, isMem v⟩, ⟨3, 6, isMem x⟩, ⟨7, 13, even p⟩]
  | .atomFaddd v p x => [⟨3, 19, isMem v⟩, ⟨3, 6, isMem x⟩, ⟨7, 13, even p⟩]
  | .atomAdd64 v p x _ => [⟨3, 19, isReg v⟩, ⟨3, 6, isMem x⟩, ⟨7, 13, even p⟩]
  | .atomMax64 v p x _ => [⟨3, 19, isReg v⟩, ⟨3, 6, isMem x⟩, ⟨7, 13, even p⟩]
  | .mma _ a b g h _ => [⟨1, 16, (a != 7)⟩, ⟨1, 13, (b != 7)⟩, ⟨2, 13, (a == 7 || b == 7 || mmaPair a b)⟩, ⟨7, 7, mult4 g⟩, ⟨7, 1, mult4 h⟩]
  | .mmabp _ p g h _ => [⟨1, 13, (p != 7)⟩, ⟨7, 7, mult4 g⟩, ⟨7, 1, mult4 h⟩]
  | .mzero _ => []
  | .mrd _ g j => [⟨1, 1, (j.toNat ≤ 28 || !mult4 j)⟩, ⟨3, 7, (g != 60)⟩, ⟨7, 7, mult4 g⟩, ⟨7, 1, mult4 j⟩]
  | .mwr _ g j => [⟨1, 1, (j.toNat ≤ 28 || !mult4 j)⟩, ⟨3, 7, (g != 60)⟩, ⟨7, 7, mult4 g⟩, ⟨7, 1, mult4 j⟩]
  | .mcvst _ a b g z => [⟨2, 16, (a == 0 || a == 2)⟩, ⟨2, 13, (b.toNat ≤ 1)⟩, ⟨2, 0, (z == 0 || a != 0)⟩, ⟨7, 7, mult4 g⟩]
  | .lcp d s i z => [⟨1, 1, (z != 3)⟩, ⟨3, 3, isReg i⟩, ⟨7, 16, even d⟩, ⟨7, 10, even s⟩]
  | .tcopy g => [⟨7, 16, mult4 g⟩]
  | .tcopyx g => [⟨7, 16, mult4 g⟩]
  | .shapew _ _ _ => []
  | .shaperel _ => []
  | .waitc _ _ => []
  | .cntr _ _ _ => []
  | .vfpush v => [⟨3, 15, isMem v⟩]
  | .vfpop v => [⟨3, 15, isMem v⟩]
  | .bara _ _ => []
  | .baraEnr _ _ => []
  | .barw _ _ => []
  | .baraw _ => []
  | .barx _ _ => []
  | .barinit _ _ => []
  | .spawn e a c => [⟨3, 9, isReg a⟩, ⟨7, 16, even e⟩, ⟨7, 3, even c⟩]
  | .spawnv e a => [⟨3, 9, isReg a⟩, ⟨7, 16, even e⟩]
  | .spawnr r _ _ => [⟨7, 16, even r⟩]
  | .claim _ _ _ => []
  | .give _ _ _ => []
  | .exit => []
  | .scopen _ a _ => [⟨7, 10, even a⟩]
  | .scopcl _ => []
  | .cancel _ => []
  | .scpst d _ => [⟨7, 16, even d⟩]
  | .scpstW d _ => [⟨7, 16, even d⟩]
  | .pbegin g => [⟨7, 16, isGroup8 g⟩]
  | .psegl a => [⟨7, 16, mult4 a⟩]
  | .psegq a => [⟨7, 16, (even a && a.toNat ≤ 58)⟩]
  | .pview _ _ => []
  | .pclip _ => []
  | .punclip _ _ => []
  | .pend => []
  | .pscan _ => []
  | .pcell d _ _ => [⟨3, 15, isReg d⟩]
  | .pblend c => [⟨3, 15, isReg c⟩]
  | .msend g => [⟨7, 16, isGroup8 g⟩]
  | .marm g _ => [⟨7, 16, isGroup8 g⟩]
  | .mdisarm t _ => [⟨7, 16, even t⟩]
  | .rput g => [⟨7, 16, isGroup8 g⟩]
  | .rget g => [⟨7, 16, isGroup8 g⟩]
  | .collAllReduce g => [⟨7, 16, isGroup8 g⟩]
  | .collAllGather g => [⟨7, 16, isGroup8 g⟩]
  | .collReduceScatter g => [⟨7, 16, isGroup8 g⟩]
  | .collBroadcast g => [⟨7, 16, isGroup8 g⟩]
  | .gets d i => [⟨1, 4, (srAllocated i.toNat)⟩, ⟨7, 16, (!srPair i.toNat || even d)⟩]
  | .sets a i => [⟨1, 4, (srAllocated i.toNat)⟩, ⟨7, 16, (!srPair i.toNat || even a)⟩]
  | .tlbinv p => [⟨7, 16, even p⟩]
  | .tlbinvAll => []
  | .ctxsv => []
  | .ctxrs => []
  | .smcAssignCluster _ a => [⟨7, 10, even a⟩]
  | .smcReleaseCluster _ a => [⟨7, 10, even a⟩]
  | .smcResetPartition _ a => [⟨7, 10, even a⟩]
  | .smcSetRoot _ a => [⟨7, 10, even a⟩]
  | .smcSetRegulator _ a => [⟨7, 10, even a⟩]
  | .smcSetScopeShare _ a => [⟨7, 10, even a⟩]
  | .smcAttest _ a => [⟨7, 10, even a⟩]
  | .smcRetireUnit _ a => [⟨7, 10, even a⟩]
  | .pwrqGate _ _ => []
  | .pwrqPower _ _ => []
  | .endRun w x y => [⟨3, 19, isAwait w⟩, ⟨3, 12, isAwait x⟩, ⟨3, 5, isAwait y⟩]
  | .yield d l => [⟨2, 18, (d != 0)⟩, ⟨2, 11, (l.toNat ≤ 120)⟩]
  | .pathChoice _ _ => []
  | .longLatencyResult _ _ => []
  | .pipeWaitEnd _ => []
  | .watchdogDeadline _ => []
  | .binTimer _ => []
  | .plyFormation _ => []
  | .gangFormation _ _ => []
  | .taskArrival _ => []
  | .plyRestore _ _ => []
  | .claimGrant _ => []
  | .claimFailure _ => []
  | .mtxEngineExecute _ => []
  | .copyEngineOperation _ _ => []
  | .retirement _ _ => []
  | .waitcReturn _ => []
  | .barrierArrival _ _ => []
  | .rootReport _ _ => []
  | .rootFlipArrival _ _ => []
  | .releaseWave _ => []
  | .vfifoPushResume _ => []
  | .vfifoPopResume _ => []
  | .scpstWReturn _ => []
  | .cancelBroadcast _ _ => []
  | .scopeDrained _ _ => []
  | .pathUnitScan _ => []
  | .tilerDeposit _ => []
  | .commitPerform _ _ => []
  | .storeAtHome _ _ => []
  | .completionTime _ => []
  | .clusterCompletionTime _ => []
  | .atomPerform _ _ => []
  | .fadddAccept _ _ => []
  | .windowClose _ _ _ => []
  | .sensorReading _ _ => []
  | .knightProbe _ => []
  | .quiescePoint _ => []
  | .tailWriteReport _ _ => []
  | .launchFire _ _ => []
  | .clockMark _ _ => []
  | .queueDescriptorWrite _ _ _ => []
  | .ccrWrite _ _ => []
  | .partitionWrite _ => []
  | .regselWrite _ => []
  | .configurationWrite _ _ => []
  | .loadRequest _ _ _ _ _ => []
  | .unloadRequest _ _ => []
  | .packagePowerOn _ _ _ => []
  | .unitRetirement _ _ => []
  | .dieGated _ => []
  | .powerReturn _ => []
  | .messageArrival _ => []
  | .remotePutArrival _ _ _ _ _ => []
  | .remoteGetArrival _ _ _ _ _ => []
  | .fabricRetire _ _ => []
  | .timeout _ => []
  | .collInstanceComplete _ _ => []
  | .collTimeout _ => []
  | .slackControl _ _ _ => []
  | .tlbinvDropComplete _ => []
  | .illegalWord _ _ _ _ => []
  | .fetchFault _ _ _ => []
  | .pathUnitDeposit _ => []
  | .uncorrectableError _ => []
  | .vaultCacheFlush _ => []
  | .recoveryImage _ => []

/-- An instruction is well formed when every check on its fields holds. -/
def Instr.wf (i : Instr) : Bool := i.checks.all FieldCheck.ok

end Sys2Proof
end

