-- ==== Sys2Proof/Decode.lean ====
section
/-!
DEFINITION. Decoding of a 32-bit word (spec/03), total on every word: an instruction, or the ILLEGAL sub-code and bit
position with which the word is refused (R93, R410 item 2); then hints (R89); then the encoder, from the same tables.
-/
namespace Sys2Proof

/-- Why a word is no legal instruction: the ILLEGAL sub-code and the position of the offending field (R93). -/
structure Illegal where
  sub : Nat
  pos : Nat
  deriving DecidableEq, Repr

/-- Bits [hi:lo] of a word as a number. -/
def fieldNat (w hi lo : Nat) : Nat := w / 2 ^ lo % 2 ^ (hi + 1 - lo)
/-- The n-bit field whose least significant bit is bit lo. -/
def field (n w lo : Nat) : BitVec n := BitVec.ofNat n (w / 2 ^ lo)
/-- The check that bits [hi:lo], which carry no operand, hold the value v (R80, R85: sub-code 2). -/
def fixed (w hi lo v : Nat) : FieldCheck := ⟨2, lo, fieldNat w hi lo == v⟩
/-- The check that bits [hi:lo] are zero. -/
def zero (w hi lo : Nat) : FieldCheck := fixed w hi lo 0
/-- The check that a 7-bit field that names a scalar or triple has bit [6] clear (R75: sub-code 3). -/
def scalarField (w lo : Nat) : FieldCheck := ⟨3, lo, fieldNat w (lo + 6) (lo + 6) == 0⟩

/-- The failing check that is reported: the least sub-code, and within it the most significant field (R410 item 2). -/
def firstIllegal : List FieldCheck → Option Illegal
  | [] => none
  | c :: cs =>
    if c.ok then firstIllegal cs
    else
      match firstIllegal cs with
      | none => some ⟨c.sub, c.pos⟩
      | some e => if e.sub < c.sub || (e.sub == c.sub && c.pos ≤ e.pos) then some e else some ⟨c.sub, c.pos⟩

/-- What a word of an allocated major reads as: the instruction its codes select, if they are allocated, and the checks
on the bits that the instruction does not carry. -/
structure Parsed where
  instr  : Option Instr
  checks : List FieldCheck

/-- A word whose function code is not allocated: sub-code 1 at the code's position. -/
def Parsed.unallocated (pos : Nat) : Parsed := ⟨none, [⟨1, pos, false⟩]⟩
/-- A word that selects i, with its checks. -/
def Parsed.of (i : Instr) (cs : List FieldCheck) : Parsed := ⟨some i, cs⟩

/-- SALU, major 0x01 (R79, R121): one-source forms need b = 0 (R80). -/
def parseSalu (w : Nat) : Parsed :=
  match fieldNat w 7 0 with
  | 0 => .of (.sadd (field 6 w 20) (field 6 w 14) (field 6 w 8)) []
  | 1 => .of (.ssub (field 6 w 20) (field 6 w 14) (field 6 w 8)) []
  | 2 => .of (.smul (field 6 w 20) (field 6 w 14) (field 6 w 8)) []
  | 3 => .of (.smulh (field 6 w 20) (field 6 w 14) (field 6 w 8)) []
  | 4 => .of (.smulhu (field 6 w 20) (field 6 w 14) (field 6 w 8)) []
  | 5 => .of (.sdiv (field 6 w 20) (field 6 w 14) (field 6 w 8)) []
  | 6 => .of (.sdivu (field 6 w 20) (field 6 w 14) (field 6 w 8)) []
  | 7 => .of (.srem (field 6 w 20) (field 6 w 14) (field 6 w 8)) []
  | 8 => .of (.sremu (field 6 w 20) (field 6 w 14) (field 6 w 8)) []
  | 9 => .of (.sand (field 6 w 20) (field 6 w 14) (field 6 w 8)) []
  | 10 => .of (.sor (field 6 w 20) (field 6 w 14) (field 6 w 8)) []
  | 11 => .of (.sxor (field 6 w 20) (field 6 w 14) (field 6 w 8)) []
  | 12 => .of (.sandn (field 6 w 20) (field 6 w 14) (field 6 w 8)) []
  | 13 => .of (.sshl (field 6 w 20) (field 6 w 14) (field 6 w 8)) []
  | 14 => .of (.sshr (field 6 w 20) (field 6 w 14) (field 6 w 8)) []
  | 15 => .of (.ssra (field 6 w 20) (field 6 w 14) (field 6 w 8)) []
  | 16 => .of (.srol (field 6 w 20) (field 6 w 14) (field 6 w 8)) []
  | 17 => .of (.smin (field 6 w 20) (field 6 w 14) (field 6 w 8)) []
  | 18 => .of (.smax (field 6 w 20) (field 6 w 14) (field 6 w 8)) []
  | 19 => .of (.sminu (field 6 w 20) (field 6 w 14) (field 6 w 8)) []
  | 20 => .of (.smaxu (field 6 w 20) (field 6 w 14) (field 6 w 8)) []
  | 21 => .of (.sclz (field 6 w 20) (field 6 w 14)) [zero w 13 8]
  | 22 => .of (.sctz (field 6 w 20) (field 6 w 14)) [zero w 13 8]
  | 23 => .of (.spopc (field 6 w 20) (field 6 w 14)) [zero w 13 8]
  | 24 => .of (.sbrev (field 6 w 20) (field 6 w 14)) [zero w 13 8]
  | 25 => .of (.ssexb (field 6 w 20) (field 6 w 14)) [zero w 13 8]
  | 26 => .of (.ssexh (field 6 w 20) (field 6 w 14)) [zero w 13 8]
  | 27 => .of (.ssel (field 6 w 20) (field 6 w 14) (field 6 w 8)) []
  | 28 => .of (.scmpEq (field 6 w 20) (field 6 w 14) (field 6 w 8)) []
  | 29 => .of (.scmpNe (field 6 w 20) (field 6 w 14) (field 6 w 8)) []
  | 30 => .of (.scmpLt (field 6 w 20) (field 6 w 14) (field 6 w 8)) []
  | 31 => .of (.scmpLe (field 6 w 20) (field 6 w 14) (field 6 w 8)) []
  | 32 => .of (.scmpLtu (field 6 w 20) (field 6 w 14) (field 6 w 8)) []
  | 33 => .of (.scmpLeu (field 6 w 20) (field 6 w 14) (field 6 w 8)) []
  | 34 => .of (.sadd64 (field 6 w 20) (field 6 w 14) (field 6 w 8)) []
  | 35 => .of (.ssub64 (field 6 w 20) (field 6 w 14) (field 6 w 8)) []
  | 36 => .of (.sshl64 (field 6 w 20) (field 6 w 14) (field 6 w 8)) []
  | 37 => .of (.sshr64 (field 6 w 20) (field 6 w 14) (field 6 w 8)) []
  | 38 => .of (.smov64 (field 6 w 20) (field 6 w 14)) [zero w 13 8]
  | _ => .unallocated 0

/-- SIMM, major 0x02 (R79, R125). -/
def parseSimm (w : Nat) : Parsed :=
  match fieldNat w 13 11 with
  | 0 => .of (.saddi (field 6 w 20) (field 6 w 14) (field 11 w 0)) []
  | 1 => .of (.sandi (field 6 w 20) (field 6 w 14) (field 11 w 0)) []
  | 2 => .of (.sori (field 6 w 20) (field 6 w 14) (field 11 w 0)) []
  | 3 => .of (.sxori (field 6 w 20) (field 6 w 14) (field 11 w 0)) []
  | 4 => .of (.sshli (field 6 w 20) (field 6 w 14) (field 5 w 0)) [zero w 10 5]
  | 5 => .of (.sshri (field 6 w 20) (field 6 w 14) (field 5 w 0)) [zero w 10 5]
  | 6 => .of (.ssrai (field 6 w 20) (field 6 w 14) (field 5 w 0)) [zero w 10 5]
  | 7 => .of (.sli (field 6 w 20) (field 11 w 0)) [zero w 19 14]
  | _ => .unallocated 11

/-- SCMPI, major 0x03 (R79, R126). -/
def parseScmpi (w : Nat) : Parsed :=
  match fieldNat w 13 11 with
  | 0 => .of (.scmpiEq (field 6 w 20) (field 6 w 14) (field 11 w 0)) []
  | 1 => .of (.scmpiNe (field 6 w 20) (field 6 w 14) (field 11 w 0)) []
  | 2 => .of (.scmpiLt (field 6 w 20) (field 6 w 14) (field 11 w 0)) []
  | 3 => .of (.scmpiLe (field 6 w 20) (field 6 w 14) (field 11 w 0)) []
  | 4 => .of (.scmpiLtu (field 6 w 20) (field 6 w 14) (field 11 w 0)) []
  | 5 => .of (.scmpiLeu (field 6 w 20) (field 6 w 14) (field 11 w 0)) []
  | 6 => .of (.scmpiGt (field 6 w 20) (field 6 w 14) (field 11 w 0)) []
  | 7 => .of (.scmpiGe (field 6 w 20) (field 6 w 14) (field 11 w 0)) []
  | _ => .unallocated 11

/-- VINT1, major 0x08 (R79, R127). -/
def parseVint1 (w : Nat) : Parsed :=
  match fieldNat w 4 1 with
  | 0 => .of (.vadd (field 7 w 19) (field 7 w 12) (field 7 w 5) (field 1 w 0)) []
  | 1 => .of (.vsub (field 7 w 19) (field 7 w 12) (field 7 w 5) (field 1 w 0)) []
  | 2 => .of (.vmul (field 7 w 19) (field 7 w 12) (field 7 w 5) (field 1 w 0)) []
  | 3 => .of (.vmulh (field 7 w 19) (field 7 w 12) (field 7 w 5) (field 1 w 0)) []
  | 4 => .of (.vmulhu (field 7 w 19) (field 7 w 12) (field 7 w 5) (field 1 w 0)) []
  | 5 => .of (.vand (field 7 w 19) (field 7 w 12) (field 7 w 5) (field 1 w 0)) []
  | 6 => .of (.vor (field 7 w 19) (field 7 w 12) (field 7 w 5) (field 1 w 0)) []
  | 7 => .of (.vxor (field 7 w 19) (field 7 w 12) (field 7 w 5) (field 1 w 0)) []
  | 8 => .of (.vandn (field 7 w 19) (field 7 w 12) (field 7 w 5) (field 1 w 0)) []
  | 9 => .of (.vshl (field 7 w 19) (field 7 w 12) (field 7 w 5) (field 1 w 0)) []
  | 10 => .of (.vshr (field 7 w 19) (field 7 w 12) (field 7 w 5) (field 1 w 0)) []
  | 11 => .of (.vsra (field 7 w 19) (field 7 w 12) (field 7 w 5) (field 1 w 0)) []
  | 12 => .of (.vmin (field 7 w 19) (field 7 w 12) (field 7 w 5) (field 1 w 0)) []
  | 13 => .of (.vmax (field 7 w 19) (field 7 w 12) (field 7 w 5) (field 1 w 0)) []
  | 14 => .of (.vminu (field 7 w 19) (field 7 w 12) (field 7 w 5) (field 1 w 0)) []
  | 15 => .of (.vmaxu (field 7 w 19) (field 7 w 12) (field 7 w 5) (field 1 w 0)) []
  | _ => .unallocated 1

/-- VINT2, major 0x09 (R79, R127): the unary codes need b = 124 (R80). -/
def parseVint2 (w : Nat) : Parsed :=
  match fieldNat w 4 1 with
  | 0 => .of (.vadds (field 7 w 19) (field 7 w 12) (field 7 w 5) (field 1 w 0)) []
  | 1 => .of (.vsubs (field 7 w 19) (field 7 w 12) (field 7 w 5) (field 1 w 0)) []
  | 2 => .of (.vaddsu (field 7 w 19) (field 7 w 12) (field 7 w 5) (field 1 w 0)) []
  | 3 => .of (.vsubsu (field 7 w 19) (field 7 w 12) (field 7 w 5) (field 1 w 0)) []
  | 4 => .of (.vabsd (field 7 w 19) (field 7 w 12) (field 7 w 5) (field 1 w 0)) []
  | 5 => .of (.vclz (field 7 w 19) (field 7 w 12) (field 1 w 0)) [fixed w 11 5 124]
  | 6 => .of (.vpopc (field 7 w 19) (field 7 w 12) (field 1 w 0)) [fixed w 11 5 124]
  | 7 => .of (.vbrev (field 7 w 19) (field 7 w 12) (field 1 w 0)) [fixed w 11 5 124]
  | 8 => .of (.vsexb (field 7 w 19) (field 7 w 12) (field 1 w 0)) [fixed w 11 5 124]
  | 9 => .of (.vsexh (field 7 w 19) (field 7 w 12) (field 1 w 0)) [fixed w 11 5 124]
  | 10 => .of (.vpackb (field 7 w 19) (field 7 w 12) (field 7 w 5) (field 1 w 0)) []
  | 11 => .of (.vpackh (field 7 w 19) (field 7 w 12) (field 7 w 5) (field 1 w 0)) []
  | 12 => .of (.vunpkb (field 7 w 19) (field 7 w 12) (field 1 w 0)) [fixed w 11 5 124]
  | 13 => .of (.vunpkh (field 7 w 19) (field 7 w 12) (field 1 w 0)) [fixed w 11 5 124]
  | 14 => .of (.vmov (field 7 w 19) (field 7 w 12) (field 1 w 0)) [fixed w 11 5 124]
  | 15 => .of (.vlane (field 7 w 19) (field 7 w 12) (field 7 w 5) (field 1 w 0)) []
  | _ => .unallocated 1

/-- VSHI, major 0x0E (R80, R130). -/
def parseVshi (w : Nat) : Parsed :=
  match fieldNat w 11 10 with
  | 0 => .of (.vshiShl (field 7 w 19) (field 7 w 12) (field 5 w 0)) [zero w 9 5]
  | 1 => .of (.vshiShr (field 7 w 19) (field 7 w 12) (field 5 w 0)) [zero w 9 5]
  | 2 => .of (.vshiSra (field 7 w 19) (field 7 w 12) (field 5 w 0)) [zero w 9 5]
  | 3 => .of (.vshiRol (field 7 w 19) (field 7 w 12) (field 5 w 0)) [zero w 9 5]
  | _ => .unallocated 10

/-- VCMP, major 0x10 (R79, R132). -/
def parseVcmp (w : Nat) : Parsed :=
  match fieldNat w 4 1 with
  | 0 => .of (.vcmpEq (field 7 w 19) (field 7 w 12) (field 7 w 5) (field 1 w 0)) []
  | 1 => .of (.vcmpNe (field 7 w 19) (field 7 w 12) (field 7 w 5) (field 1 w 0)) []
  | 2 => .of (.vcmpLt (field 7 w 19) (field 7 w 12) (field 7 w 5) (field 1 w 0)) []
  | 3 => .of (.vcmpLe (field 7 w 19) (field 7 w 12) (field 7 w 5) (field 1 w 0)) []
  | 4 => .of (.vcmpLtu (field 7 w 19) (field 7 w 12) (field 7 w 5) (field 1 w 0)) []
  | 5 => .of (.vcmpLeu (field 7 w 19) (field 7 w 12) (field 7 w 5) (field 1 w 0)) []
  | 6 => .of (.vcmpGt (field 7 w 19) (field 7 w 12) (field 7 w 5) (field 1 w 0)) []
  | 7 => .of (.vcmpGe (field 7 w 19) (field 7 w 12) (field 7 w 5) (field 1 w 0)) []
  | 8 => .of (.vcmpGtu (field 7 w 19) (field 7 w 12) (field 7 w 5) (field 1 w 0)) []
  | 9 => .of (.vcmpGeu (field 7 w 19) (field 7 w 12) (field 7 w 5) (field 1 w 0)) []
  | _ => .unallocated 1

/-- VT, major 0x11 (R79, R133). -/
def parseVt (w : Nat) : Parsed :=
  match fieldNat w 4 1 with
  | 0 => .of (.vmad (field 7 w 19) (field 7 w 12) (field 7 w 5) (field 1 w 0)) []
  | 1 => .of (.vaddmin (field 7 w 19) (field 7 w 12) (field 7 w 5) (field 1 w 0)) []
  | 2 => .of (.vaddminu (field 7 w 19) (field 7 w 12) (field 7 w 5) (field 1 w 0)) []
  | 3 => .of (.vaddmax (field 7 w 19) (field 7 w 12) (field 7 w 5) (field 1 w 0)) []
  | 4 => .of (.vsel (field 7 w 19) (field 7 w 12) (field 7 w 5) (field 1 w 0)) []
  | 5 => .of (.vdot4 (field 7 w 19) (field 7 w 12) (field 7 w 5) (field 1 w 0)) []
  | 6 => .of (.vdot4u (field 7 w 19) (field 7 w 12) (field 7 w 5) (field 1 w 0)) []
  | 7 => .of (.vbfi (field 7 w 19) (field 7 w 12) (field 7 w 5) (field 1 w 0)) []
  | _ => .unallocated 1

/-- FALU, major 0x12 (R79, R139): codes 9 to 15 need b = 124 (R80). -/
def parseFalu (w : Nat) : Parsed :=
  match fieldNat w 4 1 with
  | 0 => .of (.fadd (field 7 w 19) (field 7 w 12) (field 7 w 5) (field 1 w 0)) []
  | 1 => .of (.fsub (field 7 w 19) (field 7 w 12) (field 7 w 5) (field 1 w 0)) []
  | 2 => .of (.fmul (field 7 w 19) (field 7 w 12) (field 7 w 5) (field 1 w 0)) []
  | 3 => .of (.fdiv (field 7 w 19) (field 7 w 12) (field 7 w 5) (field 1 w 0)) []
  | 4 => .of (.fmin (field 7 w 19) (field 7 w 12) (field 7 w 5) (field 1 w 0)) []
  | 5 => .of (.fmax (field 7 w 19) (field 7 w 12) (field 7 w 5) (field 1 w 0)) []
  | 6 => .of (.fminn (field 7 w 19) (field 7 w 12) (field 7 w 5) (field 1 w 0)) []
  | 7 => .of (.fmaxn (field 7 w 19) (field 7 w 12) (field 7 w 5) (field 1 w 0)) []
  | 8 => .of (.fcopysign (field 7 w 19) (field 7 w 12) (field 7 w 5) (field 1 w 0)) []
  | 9 => .of (.fabs (field 7 w 19) (field 7 w 12) (field 1 w 0)) [fixed w 11 5 124]
  | 10 => .of (.fneg (field 7 w 19) (field 7 w 12) (field 1 w 0)) [fixed w 11 5 124]
  | 11 => .of (.ffloor (field 7 w 19) (field 7 w 12) (field 1 w 0)) [fixed w 11 5 124]
  | 12 => .of (.fceil (field 7 w 19) (field 7 w 12) (field 1 w 0)) [fixed w 11 5 124]
  | 13 => .of (.ftrunc (field 7 w 19) (field 7 w 12) (field 1 w 0)) [fixed w 11 5 124]
  | 14 => .of (.frint (field 7 w 19) (field 7 w 12) (field 1 w 0)) [fixed w 11 5 124]
  | 15 => .of (.fsqrt (field 7 w 19) (field 7 w 12) (field 1 w 0)) [fixed w 11 5 124]
  | _ => .unallocated 1

/-- FSPEC, major 0x13 (R79, R141): b = 124 (R80). -/
def parseFspec (w : Nat) : Parsed :=
  match fieldNat w 4 1 with
  | 0 => .of (.frcp (field 7 w 19) (field 7 w 12) (field 1 w 0)) [fixed w 11 5 124]
  | 1 => .of (.frsq (field 7 w 19) (field 7 w 12) (field 1 w 0)) [fixed w 11 5 124]
  | 2 => .of (.fexp2 (field 7 w 19) (field 7 w 12) (field 1 w 0)) [fixed w 11 5 124]
  | 3 => .of (.flog2 (field 7 w 19) (field 7 w 12) (field 1 w 0)) [fixed w 11 5 124]
  | 4 => .of (.fsin (field 7 w 19) (field 7 w 12) (field 1 w 0)) [fixed w 11 5 124]
  | 5 => .of (.fcos (field 7 w 19) (field 7 w 12) (field 1 w 0)) [fixed w 11 5 124]
  | 6 => .of (.ftanh (field 7 w 19) (field 7 w 12) (field 1 w 0)) [fixed w 11 5 124]
  | 7 => .of (.fsigm (field 7 w 19) (field 7 w 12) (field 1 w 0)) [fixed w 11 5 124]
  | 8 => .of (.fclass (field 7 w 19) (field 7 w 12) (field 1 w 0)) [fixed w 11 5 124]
  | _ => .unallocated 1

/-- FT, major 0x14 (R79, R142). -/
def parseFt (w : Nat) : Parsed :=
  match fieldNat w 4 1 with
  | 0 => .of (.fma (field 7 w 19) (field 7 w 12) (field 7 w 5) (field 1 w 0)) []
  | 1 => .of (.fms (field 7 w 19) (field 7 w 12) (field 7 w 5) (field 1 w 0)) []
  | 2 => .of (.fnma (field 7 w 19) (field 7 w 12) (field 7 w 5) (field 1 w 0)) []
  | 3 => .of (.faddmin (field 7 w 19) (field 7 w 12) (field 7 w 5) (field 1 w 0)) []
  | 4 => .of (.faddmax (field 7 w 19) (field 7 w 12) (field 7 w 5) (field 1 w 0)) []
  | _ => .unallocated 1

/-- FCMP, major 0x15 (R79, R143). -/
def parseFcmp (w : Nat) : Parsed :=
  match fieldNat w 4 1 with
  | 0 => .of (.fcmpEq (field 7 w 19) (field 7 w 12) (field 7 w 5) (field 1 w 0)) []
  | 1 => .of (.fcmpNe (field 7 w 19) (field 7 w 12) (field 7 w 5) (field 1 w 0)) []
  | 2 => .of (.fcmpLt (field 7 w 19) (field 7 w 12) (field 7 w 5) (field 1 w 0)) []
  | 3 => .of (.fcmpLe (field 7 w 19) (field 7 w 12) (field 7 w 5) (field 1 w 0)) []
  | 4 => .of (.fcmpGt (field 7 w 19) (field 7 w 12) (field 7 w 5) (field 1 w 0)) []
  | 5 => .of (.fcmpGe (field 7 w 19) (field 7 w 12) (field 7 w 5) (field 1 w 0)) []
  | 6 => .of (.fcmpUn (field 7 w 19) (field 7 w 12) (field 7 w 5) (field 1 w 0)) []
  | 7 => .of (.fcmpOrd (field 7 w 19) (field 7 w 12) (field 7 w 5) (field 1 w 0)) []
  | _ => .unallocated 1

/-- FCVT, major 0x16 (R81, R145): the kind in [11:10]; saturation only on FCVT (R146). -/
def parseFcvt (w : Nat) : Parsed :=
  match fieldNat w 11 10 with
  | 0 => .of (.fcvt (field 7 w 19) (field 7 w 12) (field 5 w 5) (field 1 w 4) (field 3 w 1) (field 1 w 0)) []
  | 1 => .of (.fcvti (field 7 w 19) (field 7 w 12) (field 5 w 5) (field 3 w 1) (field 1 w 0)) [zero w 4 4]
  | 2 => .of (.icvtf (field 7 w 19) (field 7 w 12) (field 5 w 5) (field 3 w 1) (field 1 w 0)) [zero w 4 4]
  | _ => .unallocated 10

/-- PACKED, major 0x18 (R79, R149). -/
def parsePacked (w : Nat) : Parsed :=
  match fieldNat w 4 1 with
  | 0 => .of (.hadd2 (field 7 w 19) (field 7 w 12) (field 7 w 5) (field 1 w 0)) []
  | 1 => .of (.hsub2 (field 7 w 19) (field 7 w 12) (field 7 w 5) (field 1 w 0)) []
  | 2 => .of (.hmul2 (field 7 w 19) (field 7 w 12) (field 7 w 5) (field 1 w 0)) []
  | 3 => .of (.hfma2 (field 7 w 19) (field 7 w 12) (field 7 w 5) (field 1 w 0)) []
  | 4 => .of (.hmin2 (field 7 w 19) (field 7 w 12) (field 7 w 5) (field 1 w 0)) []
  | 5 => .of (.hmax2 (field 7 w 19) (field 7 w 12) (field 7 w 5) (field 1 w 0)) []
  | 6 => .of (.badd2 (field 7 w 19) (field 7 w 12) (field 7 w 5) (field 1 w 0)) []
  | 7 => .of (.bmul2 (field 7 w 19) (field 7 w 12) (field 7 w 5) (field 1 w 0)) []
  | 8 => .of (.bfma2 (field 7 w 19) (field 7 w 12) (field 7 w 5) (field 1 w 0)) []
  | _ => .unallocated 1

/-- LANE, major 0x19 (R79, R82): the selector of LRED, LSCAN and LVOTE is the whole b field (R155, R156). -/
def parseLane (w : Nat) : Parsed :=
  match fieldNat w 4 1 with
  | 0 => .of (.lshup (field 7 w 19) (field 7 w 12) (field 7 w 5) (field 1 w 0)) []
  | 1 => .of (.lshdn (field 7 w 19) (field 7 w 12) (field 7 w 5) (field 1 w 0)) []
  | 2 => .of (.lrot (field 7 w 19) (field 7 w 12) (field 7 w 5) (field 1 w 0)) []
  | 3 => .of (.lperm (field 7 w 19) (field 7 w 12) (field 7 w 5) (field 1 w 0)) []
  | 4 => .of (.lbcast (field 7 w 19) (field 7 w 12) (field 7 w 5) (field 1 w 0)) []
  | 5 => .of (.lquad (field 7 w 19) (field 7 w 12) (field 7 w 5) (field 1 w 0)) []
  | 6 => .of (.derivx (field 7 w 19) (field 7 w 12) (field 1 w 0)) [fixed w 11 5 124]
  | 7 => .of (.derivy (field 7 w 19) (field 7 w 12) (field 1 w 0)) [fixed w 11 5 124]
  | 8 => .of (.derivxc (field 7 w 19) (field 7 w 12) (field 1 w 0)) [fixed w 11 5 124]
  | 9 => .of (.derivyc (field 7 w 19) (field 7 w 12) (field 1 w 0)) [fixed w 11 5 124]
  | 10 => .of (.lmatch (field 7 w 19) (field 7 w 12) (field 7 w 5) (field 1 w 0)) []
  | 11 => .of (.lred (field 7 w 19) (field 7 w 12) (field 4 w 5) (field 1 w 0)) [⟨2, 5, fieldNat w 11 9 == 0⟩]
  | 12 => .of (.lscan (field 7 w 19) (field 7 w 12) (field 1 w 9) (field 4 w 5) (field 1 w 0)) [⟨2, 5, fieldNat w 11 10 == 0⟩]
  | 13 => .of (.lvote (field 7 w 19) (field 7 w 12) (field 2 w 5) (field 1 w 0)) [⟨2, 5, fieldNat w 11 7 == 0⟩]
  | _ => .unallocated 1

/-- MOVX, major 0x1A (R79, R82, R135): nw is legal only on VBCAST, VINS and MTOV (R77). -/
def parseMovx (w : Nat) : Parsed :=
  match fieldNat w 4 1 with
  | 0 => .of (.vbcast (field 7 w 19) (field 6 w 12) (field 1 w 0)) [fixed w 11 5 124, scalarField w 12]
  | 1 => .of (.vextr (field 6 w 19) (field 7 w 12) (field 6 w 5)) [zero w 0 0, scalarField w 19, scalarField w 5]
  | 2 => .of (.vins (field 7 w 19) (field 6 w 12) (field 6 w 5) (field 1 w 0)) [scalarField w 12, scalarField w 5]
  | 3 => .of (.mfromv (field 6 w 19) (field 7 w 12)) [zero w 0 0, fixed w 11 5 124, scalarField w 19]
  | 4 => .of (.mtov (field 7 w 19) (field 6 w 12) (field 1 w 0)) [fixed w 11 5 124, scalarField w 12]
  | 5 => .of (.mpopc (field 6 w 19) (field 6 w 12)) [zero w 0 0, fixed w 11 5 124, scalarField w 19, scalarField w 12]
  | 6 => .of (.mffs (field 6 w 19) (field 6 w 12)) [zero w 0 0, fixed w 11 5 124, scalarField w 19, scalarField w 12]
  | 7 => .of (.mand (field 6 w 19) (field 6 w 12) (field 6 w 5)) [zero w 0 0, scalarField w 19, scalarField w 12, scalarField w 5]
  | 8 => .of (.mor (field 6 w 19) (field 6 w 12) (field 6 w 5)) [zero w 0 0, scalarField w 19, scalarField w 12, scalarField w 5]
  | 9 => .of (.mxor (field 6 w 19) (field 6 w 12) (field 6 w 5)) [zero w 0 0, scalarField w 19, scalarField w 12, scalarField w 5]
  | 10 => .of (.mandn (field 6 w 19) (field 6 w 12) (field 6 w 5)) [zero w 0 0, scalarField w 19, scalarField w 12, scalarField w 5]
  | _ => .unallocated 1

/-- BR, major 0x20 (R83, R159). -/
def parseBr (w : Nat) : Parsed :=
  match fieldNat w 25 22 with
  | 0 => .of (.brZ (field 6 w 16) (field 16 w 0)) []
  | 1 => .of (.brNz (field 6 w 16) (field 16 w 0)) []
  | 2 => .of (.brLtz (field 6 w 16) (field 16 w 0)) []
  | 3 => .of (.brGez (field 6 w 16) (field 16 w 0)) []
  | 4 => .of (.brGtz (field 6 w 16) (field 16 w 0)) []
  | 5 => .of (.brLez (field 6 w 16) (field 16 w 0)) []
  | _ => .unallocated 22

/-- BRM, major 0x21 (R83, R159). -/
def parseBrm (w : Nat) : Parsed :=
  match fieldNat w 25 22 with
  | 0 => .of (.brmAny (field 6 w 16) (field 16 w 0)) []
  | 1 => .of (.brmNone (field 6 w 16) (field 16 w 0)) []
  | 2 => .of (.brmAll (field 6 w 16) (field 16 w 0)) []
  | _ => .unallocated 22

/-- JMPR, CALLR and RET, major 0x26 (R85, R159). -/
def parseJump (w : Nat) : Parsed :=
  match fieldNat w 25 22 with
  | 0 => .of (.jmpr (field 6 w 16)) [zero w 15 0]
  | 1 => .of (.callr (field 6 w 16)) [zero w 15 0]
  | 2 => .of (.ret (field 6 w 16)) [zero w 15 0]
  | _ => .unallocated 22

/-- NOP, TRAP and ERET, major 0x27 (R85, R164). -/
def parseMisc (w : Nat) : Parsed :=
  match fieldNat w 25 22 with
  | 0 => .of (.nop) [zero w 21 0]
  | 1 => .of (.trap (field 12 w 0)) [zero w 21 12]
  | 2 => .of (.eret) [zero w 21 0]
  | _ => .unallocated 22

/-- LDS and STS, majors 0x2C and 0x2D (R83, R186): sub[2] must be 0. -/
def parseLds (w : Nat) : Parsed := .of (.lds (field 6 w 20) (field 6 w 14) (field 1 w 12) (field 1 w 11) (field 11 w 0)) [zero w 13 13]
@[inherit_doc parseLds]
def parseSts (w : Nat) : Parsed := .of (.sts (field 6 w 20) (field 6 w 14) (field 1 w 12) (field 1 w 11) (field 11 w 0)) [zero w 13 13]

/-- TEXL and TEXB, major 0x2E (R85, R191). -/
def parseTex (w : Nat) : Parsed :=
  match fieldNat w 25 22 with
  | 0 => .of (.texl (field 7 w 15) (field 7 w 8) (field 6 w 2)) [zero w 1 0]
  | 1 => .of (.texb (field 7 w 15) (field 7 w 8) (field 6 w 2)) [zero w 1 0]
  | _ => .unallocated 22

/-- FENCE, by its kind in [21:20] (R187). -/
def parseFence (w : Nat) : Parsed :=
  match fieldNat w 21 20 with
  | 0 => .of (.fence) [zero w 19 0]
  | 1 => .of (.fenceRel) [zero w 19 0]
  | 2 => .of (.fenceAcq) [zero w 19 0]
  | _ => ⟨none, [⟨1, 20, false⟩]⟩

/-- MEMCTL, major 0x2F (R85, R187, R195 to R197). -/
def parseMemctl (w : Nat) : Parsed :=
  match fieldNat w 25 22 with
  | 0 => parseFence w
  | 1 => .of (.xfence) [zero w 21 0]
  | 2 => .of (.cinv (field 6 w 16) (field 6 w 10)) [zero w 9 0]
  | 3 => .of (.cpref (field 6 w 16) (field 6 w 10) (field 2 w 8)) [zero w 7 0]
  | 4 => .of (.spill (field 7 w 15) (field 6 w 9) (field 3 w 6)) [zero w 5 0]
  | 5 => .of (.fill (field 7 w 15) (field 6 w 9) (field 3 w 6)) [zero w 5 0]
  | _ => .unallocated 22

/-- ATOM, major 0x30 (R84): FADDD with ret = 1 is refused. -/
def parseAtom (w : Nat) : Parsed :=
  match fieldNat w 5 1 with
  | 0 => .of (.atomAdd (field 7 w 19) (field 6 w 13) (field 7 w 6) (field 1 w 0)) []
  | 1 => .of (.atomSub (field 7 w 19) (field 6 w 13) (field 7 w 6) (field 1 w 0)) []
  | 2 => .of (.atomAnd (field 7 w 19) (field 6 w 13) (field 7 w 6) (field 1 w 0)) []
  | 3 => .of (.atomOr (field 7 w 19) (field 6 w 13) (field 7 w 6) (field 1 w 0)) []
  | 4 => .of (.atomXor (field 7 w 19) (field 6 w 13) (field 7 w 6) (field 1 w 0)) []
  | 5 => .of (.atomMin (field 7 w 19) (field 6 w 13) (field 7 w 6) (field 1 w 0)) []
  | 6 => .of (.atomMax (field 7 w 19) (field 6 w 13) (field 7 w 6) (field 1 w 0)) []
  | 7 => .of (.atomMinu (field 7 w 19) (field 6 w 13) (field 7 w 6) (field 1 w 0)) []
  | 8 => .of (.atomMaxu (field 7 w 19) (field 6 w 13) (field 7 w 6) (field 1 w 0)) []
  | 9 => .of (.atomXchg (field 7 w 19) (field 6 w 13) (field 7 w 6) (field 1 w 0)) []
  | 10 => .of (.atomCas (field 7 w 19) (field 6 w 13) (field 7 w 6) (field 1 w 0)) []
  | 11 => .of (.atomIncb (field 7 w 19) (field 6 w 13) (field 7 w 6) (field 1 w 0)) []
  | 12 => .of (.atomIncw (field 7 w 19) (field 6 w 13) (field 7 w 6) (field 1 w 0)) []
  | 13 => .of (.atomDecz (field 7 w 19) (field 6 w 13) (field 7 w 6) (field 1 w 0)) []
  | 14 => .of (.atomFaddl (field 7 w 19) (field 6 w 13) (field 7 w 6) (field 1 w 0)) []
  | 15 => .of (.atomFadd (field 7 w 19) (field 6 w 13) (field 7 w 6) (field 1 w 0)) []
  | 16 => .of (.atomFaddr (field 7 w 19) (field 6 w 13) (field 7 w 6) (field 1 w 0)) []
  | 17 => .of (.atomFaddd (field 7 w 19) (field 6 w 13) (field 7 w 6)) [zero w 0 0]
  | 18 => .of (.atomAdd64 (field 7 w 19) (field 6 w 13) (field 7 w 6) (field 1 w 0)) []
  | 19 => .of (.atomMax64 (field 7 w 19) (field 6 w 13) (field 7 w 6) (field 1 w 0)) []
  | _ => .unallocated 1

/-- MTX, major 0x31 (R84, R85, R214 to R217): MMABP needs fa = 5, and fa = 7 is sub-code 1 (R206, R37). -/
noncomputable def parseMtx (w : Nat) : Parsed :=
  match fieldNat w 25 22 with
  | 0 => .of (.mma (field 3 w 19) (field 3 w 16) (field 3 w 13) (field 6 w 7) (field 6 w 1) (field 1 w 0)) []
  | 1 => .of (.mmabp (field 3 w 19) (field 3 w 13) (field 6 w 7) (field 6 w 1) (field 1 w 0)) [⟨1, 16, fieldNat w 18 16 != 7⟩, fixed w 18 16 5]
  | 2 => .of (.mzero (field 3 w 19)) [zero w 18 16, zero w 15 13, zero w 12 7, zero w 6 1, zero w 0 0]
  | 3 => .of (.mrd (field 3 w 19) (field 6 w 7) (field 6 w 1)) [zero w 18 16, zero w 15 13, zero w 0 0]
  | 4 => .of (.mwr (field 3 w 19) (field 6 w 7) (field 6 w 1)) [zero w 18 16, zero w 15 13, zero w 0 0]
  | 5 => .of (.mcvst (field 3 w 19) (field 3 w 16) (field 3 w 13) (field 6 w 7) (field 1 w 0)) [zero w 6 1]
  | _ => .unallocated 22

/-- COPY, major 0x32 (R85, R224 to R229). -/
noncomputable def parseCopy (w : Nat) : Parsed :=
  match fieldNat w 25 22 with
  | 0 => .of (.lcp (field 6 w 16) (field 6 w 10) (field 7 w 3) (field 2 w 1)) [zero w 0 0]
  | 1 => .of (.tcopy (field 6 w 16)) [zero w 15 0]
  | 2 => .of (.tcopyx (field 6 w 16)) [zero w 15 0]
  | 3 => .of (.shapew (field 6 w 16) (field 6 w 10) (field 6 w 4)) [zero w 3 0]
  | 4 => .of (.shaperel (field 6 w 10)) [zero w 21 16, zero w 9 0]
  | 5 => .of (.waitc (field 2 w 20) (field 8 w 12)) [zero w 11 0]
  | 6 => .of (.cntr (field 6 w 16) (field 2 w 14) (field 8 w 6)) [zero w 5 0]
  | _ => .unallocated 22

/-- VFIFO, major 0x33 (R85, R348). -/
noncomputable def parseVfifo (w : Nat) : Parsed :=
  match fieldNat w 25 22 with
  | 0 => .of (.vfpush (field 7 w 15)) [zero w 14 0]
  | 1 => .of (.vfpop (field 7 w 15)) [zero w 14 0]
  | _ => .unallocated 22

/-- SYNC, major 0x34 (R85, R235): [9] is enr in BARA and zero elsewhere. -/
noncomputable def parseSync (w : Nat) : Parsed :=
  match fieldNat w 25 22 with
  | 0 => if fieldNat w 9 9 == 0 then .of (.bara (field 6 w 16) (field 6 w 10)) [zero w 8 0] else .of (.baraEnr (field 6 w 16) (field 6 w 10)) [zero w 8 0]
  | 1 => .of (.barw (field 6 w 16) (field 6 w 10)) [zero w 9 0]
  | 2 => .of (.baraw (field 6 w 10)) [zero w 21 16, zero w 9 0]
  | 3 => .of (.barx (field 6 w 16) (field 6 w 10)) [zero w 9 0]
  | 4 => .of (.barinit (field 6 w 16) (field 6 w 10)) [zero w 9 0]
  | _ => .unallocated 22

/-- TASK, major 0x35 (R85, R250, R252, R255). -/
noncomputable def parseTask (w : Nat) : Parsed :=
  match fieldNat w 25 22 with
  | 0 => .of (.spawn (field 6 w 16) (field 7 w 9) (field 6 w 3)) [zero w 2 0]
  | 1 => .of (.spawnv (field 6 w 16) (field 7 w 9)) [zero w 8 0]
  | 2 => .of (.spawnr (field 6 w 16) (field 6 w 10) (field 6 w 4)) [zero w 3 0]
  | 3 => .of (.claim (field 6 w 16) (field 6 w 10) (field 1 w 9)) [zero w 8 0]
  | 4 => .of (.give (field 6 w 16) (field 6 w 10) (field 1 w 9)) [zero w 8 0]
  | 5 => .of (.exit) [zero w 21 0]
  | _ => .unallocated 22

/-- SCOPE, major 0x36 (R85, R264): [9] is w in SCPST. -/
noncomputable def parseScope (w : Nat) : Parsed :=
  match fieldNat w 25 22 with
  | 0 => .of (.scopen (field 6 w 16) (field 6 w 10) (field 6 w 4)) [zero w 3 0]
  | 1 => .of (.scopcl (field 6 w 10)) [zero w 21 16, zero w 9 0]
  | 2 => .of (.cancel (field 6 w 10)) [zero w 21 16, zero w 9 0]
  | 3 => if fieldNat w 9 9 == 0 then .of (.scpst (field 6 w 16) (field 6 w 10)) [zero w 8 0] else .of (.scpstW (field 6 w 16) (field 6 w 10)) [zero w 8 0]
  | _ => .unallocated 22

/-- PATH, major 0x37 (R85, spec/12). -/
noncomputable def parsePath (w : Nat) : Parsed :=
  match fieldNat w 25 22 with
  | 0 => .of (.pbegin (field 6 w 16)) [zero w 15 0]
  | 1 => .of (.psegl (field 6 w 16)) [zero w 15 0]
  | 2 => .of (.psegq (field 6 w 16)) [zero w 15 0]
  | 3 => .of (.pview (field 6 w 16) (field 6 w 10)) [zero w 9 0]
  | 4 => .of (.pclip (field 6 w 16)) [zero w 15 0]
  | 5 => .of (.punclip (field 6 w 16) (field 6 w 10)) [zero w 9 0]
  | 6 => .of (.pend) [zero w 21 0]
  | 7 => .of (.pscan (field 6 w 16)) [zero w 15 0]
  | 8 => .of (.pcell (field 7 w 15) (field 6 w 9) (field 6 w 3)) [zero w 2 0]
  | 9 => .of (.pblend (field 7 w 15)) [zero w 14 0]
  | _ => .unallocated 22

/-- FAB, major 0x38 (R85, R397): COLL reads its kind from its group, so its word gives the first of its rows. -/
noncomputable def parseFab (w : Nat) : Parsed :=
  match fieldNat w 25 22 with
  | 0 => .of (.msend (field 6 w 16)) [zero w 15 0]
  | 1 => .of (.marm (field 6 w 16) (field 6 w 10)) [zero w 9 0]
  | 2 => .of (.mdisarm (field 6 w 16) (field 6 w 10)) [zero w 9 0]
  | 3 => .of (.rput (field 6 w 16)) [zero w 15 0]
  | 4 => .of (.rget (field 6 w 16)) [zero w 15 0]
  | 5 => .of (.collAllReduce (field 6 w 16)) [zero w 15 0]
  | _ => .unallocated 22

/-- TLBINV, by its kind in [15:14] (R379). -/
noncomputable def parseTlbinv (w : Nat) : Parsed :=
  match fieldNat w 15 14 with
  | 0 => .of (.tlbinv (field 6 w 16)) [zero w 13 0]
  | 1 => .of (.tlbinvAll) [zero w 21 16, zero w 13 0]
  | _ => ⟨none, [⟨1, 14, false⟩]⟩

/-- SYS, major 0x39 (R85, R113, R379 to R384): SMC and PWRQ read their request from memory and a scalar, so their words give the first of their rows. -/
noncomputable def parseSys (w : Nat) : Parsed :=
  match fieldNat w 25 22 with
  | 0 => .of (.gets (field 6 w 16) (field 12 w 4)) [zero w 3 0]
  | 1 => .of (.sets (field 6 w 16) (field 12 w 4)) [zero w 3 0]
  | 2 => parseTlbinv w
  | 3 => .of (.ctxsv) [zero w 21 0]
  | 4 => .of (.ctxrs) [zero w 21 0]
  | 5 => .of (.smcAssignCluster (field 6 w 16) (field 6 w 10)) [zero w 9 0]
  | 6 => .of (.pwrqGate (field 6 w 16) (field 6 w 10)) [zero w 9 0]
  | _ => .unallocated 22

/-- The major map (R78): none where the major is not allocated. -/
noncomputable def parse (w : Nat) : Option Parsed :=
  match fieldNat w 31 26 with
  | 1 => some (parseSalu w)
  | 2 => some (parseSimm w)
  | 3 => some (parseScmpi w)
  | 8 => some (parseVint1 w)
  | 9 => some (parseVint2 w)
  | 10 => some (Parsed.of (.vaddi (field 7 w 19) (field 7 w 12) (field 12 w 0)) [])
  | 11 => some (Parsed.of (.vandi (field 7 w 19) (field 7 w 12) (field 12 w 0)) [])
  | 12 => some (Parsed.of (.vori (field 7 w 19) (field 7 w 12) (field 12 w 0)) [])
  | 13 => some (Parsed.of (.vxori (field 7 w 19) (field 7 w 12) (field 12 w 0)) [])
  | 14 => some (parseVshi w)
  | 15 => some (Parsed.of (.vli (field 7 w 19) (field 19 w 0)) [])
  | 16 => some (parseVcmp w)
  | 17 => some (parseVt w)
  | 18 => some (parseFalu w)
  | 19 => some (parseFspec w)
  | 20 => some (parseFt w)
  | 21 => some (parseFcmp w)
  | 22 => some (parseFcvt w)
  | 24 => some (parsePacked w)
  | 25 => some (parseLane w)
  | 26 => some (parseMovx w)
  | 32 => some (parseBr w)
  | 33 => some (parseBrm w)
  | 34 => some (Parsed.of (.jmp (field 26 w 0)) [])
  | 35 => some (Parsed.of (.call (field 26 w 0)) [])
  | 36 => some (Parsed.of (.divb (field 6 w 20) (field 10 w 10) (field 10 w 0)) [])
  | 37 => some (Parsed.of (.join) [zero w 25 0])
  | 38 => some (parseJump w)
  | 39 => some (parseMisc w)
  | 40 => some (Parsed.of (.ld (field 7 w 19) (field 6 w 13) (field 7 w 6) (field 2 w 4) (field 3 w 1) (field 1 w 0)) [])
  | 41 => some (Parsed.of (.st (field 7 w 19) (field 6 w 13) (field 7 w 6) (field 2 w 4) (field 3 w 1) (field 1 w 0)) [])
  | 42 => some (Parsed.of (.ldx (field 7 w 19) (field 6 w 13) (field 7 w 6) (field 2 w 4) (field 3 w 1)) [zero w 0 0])
  | 43 => some (Parsed.of (.stx (field 7 w 19) (field 6 w 13) (field 7 w 6) (field 2 w 4) (field 3 w 1)) [zero w 0 0])
  | 44 => some (parseLds w)
  | 45 => some (parseSts w)
  | 46 => some (parseTex w)
  | 47 => some (parseMemctl w)
  | 48 => some (parseAtom w)
  | 49 => some (parseMtx w)
  | 50 => some (parseCopy w)
  | 51 => some (parseVfifo w)
  | 52 => some (parseSync w)
  | 53 => some (parseTask w)
  | 54 => some (parseScope w)
  | 55 => some (parsePath w)
  | 56 => some (parseFab w)
  | 57 => some (parseSys w)
  | 61 => some (Parsed.of (.endRun (field 7 w 19) (field 7 w 12) (field 7 w 5)) [zero w 4 0])
  | 62 => some (Parsed.of (.yield (field 8 w 18) (field 7 w 11)) [zero w 10 0])
  | _ => none

/-- The instruction of a word, or why it is illegal (R93, R410 item 2). Major 0x3F is a hint and no instruction (log 19,
log 20, log 21). -/
noncomputable def decode (w : Nat) : Except Illegal Instr :=
  match parse w with
  | none => .error ⟨0, 26⟩
  | some p =>
    match p.instr with
    | none => .error ((firstIllegal p.checks).getD ⟨1, 22⟩)
    | some i =>
      match firstIllegal (p.checks ++ i.checks) with
      | some e => .error e
      | none => .ok i

/-- A hint word is of major 0x3F (R89). -/
def isHint (w : Nat) : Bool := fieldNat w 31 26 == 63
/-- A hint's kind (R89). -/
def hintKind (w : Nat) : Nat := fieldNat w 25 22
/-- A hint's payload (R89). -/
def hintPayload (w : Nat) : BitVec 22 := field 22 w 0
/-- A trailer is END or YIELD (R86, R87). -/
def isTrailerWord (w : Nat) : Bool := fieldNat w 31 26 == 61 || fieldNat w 31 26 == 62

/-- The instruction read from a word whose bits are numbered as spec/opcode_table.json numbers them. A Lomip instruction
is one 32-bit word stored little-endian (R71), so the word's bits are the table's bits. -/
noncomputable def decodeTableWord (nbits w : Nat) : Option Instr :=
  if nbits == 32 then (decode (w % 2 ^ 32)).toOption else none

/-- A field's value at its place in the word. -/
def place {n : Nat} (x : BitVec n) (lo : Nat) : Nat := x.toNat * 2 ^ lo
/-- A word: its fixed bits and its fields. -/
def enc (base : Nat) (fields : List Nat) : Option Nat := some (base + fields.sum)

/-- The word of an instruction, from the encoding tables of spec/03; a row without a word has none. The rows that share
a word (SMC, PWRQ, COLL) all encode to it. -/
def encodeNat : Instr → Option Nat
  | .sadd d a b => enc 0x4000000 [place d 20, place a 14, place b 8]
  | .ssub d a b => enc 0x4000001 [place d 20, place a 14, place b 8]
  | .smul d a b => enc 0x4000002 [place d 20, place a 14, place b 8]
  | .smulh d a b => enc 0x4000003 [place d 20, place a 14, place b 8]
  | .smulhu d a b => enc 0x4000004 [place d 20, place a 14, place b 8]
  | .sdiv d a b => enc 0x4000005 [place d 20, place a 14, place b 8]
  | .sdivu d a b => enc 0x4000006 [place d 20, place a 14, place b 8]
  | .srem d a b => enc 0x4000007 [place d 20, place a 14, place b 8]
  | .sremu d a b => enc 0x4000008 [place d 20, place a 14, place b 8]
  | .sand d a b => enc 0x4000009 [place d 20, place a 14, place b 8]
  | .sor d a b => enc 0x400000a [place d 20, place a 14, place b 8]
  | .sxor d a b => enc 0x400000b [place d 20, place a 14, place b 8]
  | .sandn d a b => enc 0x400000c [place d 20, place a 14, place b 8]
  | .sshl d a b => enc 0x400000d [place d 20, place a 14, place b 8]
  | .sshr d a b => enc 0x400000e [place d 20, place a 14, place b 8]
  | .ssra d a b => enc 0x400000f [place d 20, place a 14, place b 8]
  | .srol d a b => enc 0x4000010 [place d 20, place a 14, place b 8]
  | .smin d a b => enc 0x4000011 [place d 20, place a 14, place b 8]
  | .smax d a b => enc 0x4000012 [place d 20, place a 14, place b 8]
  | .sminu d a b => enc 0x4000013 [place d 20, place a 14, place b 8]
  | .smaxu d a b => enc 0x4000014 [place d 20, place a 14, place b 8]
  | .sclz d a => enc 0x4000015 [place d 20, place a 14]
  | .sctz d a => enc 0x4000016 [place d 20, place a 14]
  | .spopc d a => enc 0x4000017 [place d 20, place a 14]
  | .sbrev d a => enc 0x4000018 [place d 20, place a 14]
  | .ssexb d a => enc 0x4000019 [place d 20, place a 14]
  | .ssexh d a => enc 0x400001a [place d 20, place a 14]
  | .ssel d a b => enc 0x400001b [place d 20, place a 14, place b 8]
  | .scmpEq d a b => enc 0x400001c [place d 20, place a 14, place b 8]
  | .scmpNe d a b => enc 0x400001d [place d 20, place a 14, place b 8]
  | .scmpLt d a b => enc 0x400001e [place d 20, place a 14, place b 8]
  | .scmpLe d a b => enc 0x400001f [place d 20, place a 14, place b 8]
  | .scmpLtu d a b => enc 0x4000020 [place d 20, place a 14, place b 8]
  | .scmpLeu d a b => enc 0x4000021 [place d 20, place a 14, place b 8]
  | .sadd64 d a b => enc 0x4000022 [place d 20, place a 14, place b 8]
  | .ssub64 d a b => enc 0x4000023 [place d 20, place a 14, place b 8]
  | .sshl64 d a b => enc 0x4000024 [place d 20, place a 14, place b 8]
  | .sshr64 d a b => enc 0x4000025 [place d 20, place a 14, place b 8]
  | .smov64 d a => enc 0x4000026 [place d 20, place a 14]
  | .saddi d a i => enc 0x8000000 [place d 20, place a 14, place i 0]
  | .sandi d a i => enc 0x8000800 [place d 20, place a 14, place i 0]
  | .sori d a i => enc 0x8001000 [place d 20, place a 14, place i 0]
  | .sxori d a i => enc 0x8001800 [place d 20, place a 14, place i 0]
  | .sshli d a c => enc 0x8002000 [place d 20, place a 14, place c 0]
  | .sshri d a c => enc 0x8002800 [place d 20, place a 14, place c 0]
  | .ssrai d a c => enc 0x8003000 [place d 20, place a 14, place c 0]
  | .sli d i => enc 0x8003800 [place d 20, place i 0]
  | .scmpiEq d a i => enc 0xc000000 [place d 20, place a 14, place i 0]
  | .scmpiNe d a i => enc 0xc000800 [place d 20, place a 14, place i 0]
  | .scmpiLt d a i => enc 0xc001000 [place d 20, place a 14, place i 0]
  | .scmpiLe d a i => enc 0xc001800 [place d 20, place a 14, place i 0]
  | .scmpiLtu d a i => enc 0xc002000 [place d 20, place a 14, place i 0]
  | .scmpiLeu d a i => enc 0xc002800 [place d 20, place a 14, place i 0]
  | .scmpiGt d a i => enc 0xc003000 [place d 20, place a 14, place i 0]
  | .scmpiGe d a i => enc 0xc003800 [place d 20, place a 14, place i 0]
  | .vadd d a b w => enc 0x20000000 [place d 19, place a 12, place b 5, place w 0]
  | .vsub d a b w => enc 0x20000002 [place d 19, place a 12, place b 5, place w 0]
  | .vmul d a b w => enc 0x20000004 [place d 19, place a 12, place b 5, place w 0]
  | .vmulh d a b w => enc 0x20000006 [place d 19, place a 12, place b 5, place w 0]
  | .vmulhu d a b w => enc 0x20000008 [place d 19, place a 12, place b 5, place w 0]
  | .vand d a b w => enc 0x2000000a [place d 19, place a 12, place b 5, place w 0]
  | .vor d a b w => enc 0x2000000c [place d 19, place a 12, place b 5, place w 0]
  | .vxor d a b w => enc 0x2000000e [place d 19, place a 12, place b 5, place w 0]
  | .vandn d a b w => enc 0x20000010 [place d 19, place a 12, place b 5, place w 0]
  | .vshl d a b w => enc 0x20000012 [place d 19, place a 12, place b 5, place w 0]
  | .vshr d a b w => enc 0x20000014 [place d 19, place a 12, place b 5, place w 0]
  | .vsra d a b w => enc 0x20000016 [place d 19, place a 12, place b 5, place w 0]
  | .vmin d a b w => enc 0x20000018 [place d 19, place a 12, place b 5, place w 0]
  | .vmax d a b w => enc 0x2000001a [place d 19, place a 12, place b 5, place w 0]
  | .vminu d a b w => enc 0x2000001c [place d 19, place a 12, place b 5, place w 0]
  | .vmaxu d a b w => enc 0x2000001e [place d 19, place a 12, place b 5, place w 0]
  | .vadds d a b w => enc 0x24000000 [place d 19, place a 12, place b 5, place w 0]
  | .vsubs d a b w => enc 0x24000002 [place d 19, place a 12, place b 5, place w 0]
  | .vaddsu d a b w => enc 0x24000004 [place d 19, place a 12, place b 5, place w 0]
  | .vsubsu d a b w => enc 0x24000006 [place d 19, place a 12, place b 5, place w 0]
  | .vabsd d a b w => enc 0x24000008 [place d 19, place a 12, place b 5, place w 0]
  | .vclz d a w => enc 0x24000f8a [place d 19, place a 12, place w 0]
  | .vpopc d a w => enc 0x24000f8c [place d 19, place a 12, place w 0]
  | .vbrev d a w => enc 0x24000f8e [place d 19, place a 12, place w 0]
  | .vsexb d a w => enc 0x24000f90 [place d 19, place a 12, place w 0]
  | .vsexh d a w => enc 0x24000f92 [place d 19, place a 12, place w 0]
  | .vpackb d a b w => enc 0x24000014 [place d 19, place a 12, place b 5, place w 0]
  | .vpackh d a b w => enc 0x24000016 [place d 19, place a 12, place b 5, place w 0]
  | .vunpkb d a w => enc 0x24000f98 [place d 19, place a 12, place w 0]
  | .vunpkh d a w => enc 0x24000f9a [place d 19, place a 12, place w 0]
  | .vmov d a w => enc 0x24000f9c [place d 19, place a 12, place w 0]
  | .vlane d a b w => enc 0x2400001e [place d 19, place a 12, place b 5, place w 0]
  | .vaddi d a i => enc 0x28000000 [place d 19, place a 12, place i 0]
  | .vandi d a i => enc 0x2c000000 [place d 19, place a 12, place i 0]
  | .vori d a i => enc 0x30000000 [place d 19, place a 12, place i 0]
  | .vxori d a i => enc 0x34000000 [place d 19, place a 12, place i 0]
  | .vshiShl d a c => enc 0x38000000 [place d 19, place a 12, place c 0]
  | .vshiShr d a c => enc 0x38000400 [place d 19, place a 12, place c 0]
  | .vshiSra d a c => enc 0x38000800 [place d 19, place a 12, place c 0]
  | .vshiRol d a c => enc 0x38000c00 [place d 19, place a 12, place c 0]
  | .vli d i => enc 0x3c000000 [place d 19, place i 0]
  | .vcmpEq d a b w => enc 0x40000000 [place d 19, place a 12, place b 5, place w 0]
  | .vcmpNe d a b w => enc 0x40000002 [place d 19, place a 12, place b 5, place w 0]
  | .vcmpLt d a b w => enc 0x40000004 [place d 19, place a 12, place b 5, place w 0]
  | .vcmpLe d a b w => enc 0x40000006 [place d 19, place a 12, place b 5, place w 0]
  | .vcmpLtu d a b w => enc 0x40000008 [place d 19, place a 12, place b 5, place w 0]
  | .vcmpLeu d a b w => enc 0x4000000a [place d 19, place a 12, place b 5, place w 0]
  | .vcmpGt d a b w => enc 0x4000000c [place d 19, place a 12, place b 5, place w 0]
  | .vcmpGe d a b w => enc 0x4000000e [place d 19, place a 12, place b 5, place w 0]
  | .vcmpGtu d a b w => enc 0x40000010 [place d 19, place a 12, place b 5, place w 0]
  | .vcmpGeu d a b w => enc 0x40000012 [place d 19, place a 12, place b 5, place w 0]
  | .vmad d a b w => enc 0x44000000 [place d 19, place a 12, place b 5, place w 0]
  | .vaddmin d a b w => enc 0x44000002 [place d 19, place a 12, place b 5, place w 0]
  | .vaddminu d a b w => enc 0x44000004 [place d 19, place a 12, place b 5, place w 0]
  | .vaddmax d a b w => enc 0x44000006 [place d 19, place a 12, place b 5, place w 0]
  | .vsel d a b w => enc 0x44000008 [place d 19, place a 12, place b 5, place w 0]
  | .vdot4 d a b w => enc 0x4400000a [place d 19, place a 12, place b 5, place w 0]
  | .vdot4u d a b w => enc 0x4400000c [place d 19, place a 12, place b 5, place w 0]
  | .vbfi d a b w => enc 0x4400000e [place d 19, place a 12, place b 5, place w 0]
  | .fadd d a b w => enc 0x48000000 [place d 19, place a 12, place b 5, place w 0]
  | .fsub d a b w => enc 0x48000002 [place d 19, place a 12, place b 5, place w 0]
  | .fmul d a b w => enc 0x48000004 [place d 19, place a 12, place b 5, place w 0]
  | .fdiv d a b w => enc 0x48000006 [place d 19, place a 12, place b 5, place w 0]
  | .fmin d a b w => enc 0x48000008 [place d 19, place a 12, place b 5, place w 0]
  | .fmax d a b w => enc 0x4800000a [place d 19, place a 12, place b 5, place w 0]
  | .fminn d a b w => enc 0x4800000c [place d 19, place a 12, place b 5, place w 0]
  | .fmaxn d a b w => enc 0x4800000e [place d 19, place a 12, place b 5, place w 0]
  | .fcopysign d a b w => enc 0x48000010 [place d 19, place a 12, place b 5, place w 0]
  | .fabs d a w => enc 0x48000f92 [place d 19, place a 12, place w 0]
  | .fneg d a w => enc 0x48000f94 [place d 19, place a 12, place w 0]
  | .ffloor d a w => enc 0x48000f96 [place d 19, place a 12, place w 0]
  | .fceil d a w => enc 0x48000f98 [place d 19, place a 12, place w 0]
  | .ftrunc d a w => enc 0x48000f9a [place d 19, place a 12, place w 0]
  | .frint d a w => enc 0x48000f9c [place d 19, place a 12, place w 0]
  | .fsqrt d a w => enc 0x48000f9e [place d 19, place a 12, place w 0]
  | .frcp d a w => enc 0x4c000f80 [place d 19, place a 12, place w 0]
  | .frsq d a w => enc 0x4c000f82 [place d 19, place a 12, place w 0]
  | .fexp2 d a w => enc 0x4c000f84 [place d 19, place a 12, place w 0]
  | .flog2 d a w => enc 0x4c000f86 [place d 19, place a 12, place w 0]
  | .fsin d a w => enc 0x4c000f88 [place d 19, place a 12, place w 0]
  | .fcos d a w => enc 0x4c000f8a [place d 19, place a 12, place w 0]
  | .ftanh d a w => enc 0x4c000f8c [place d 19, place a 12, place w 0]
  | .fsigm d a w => enc 0x4c000f8e [place d 19, place a 12, place w 0]
  | .fclass d a w => enc 0x4c000f90 [place d 19, place a 12, place w 0]
  | .fma d a b w => enc 0x50000000 [place d 19, place a 12, place b 5, place w 0]
  | .fms d a b w => enc 0x50000002 [place d 19, place a 12, place b 5, place w 0]
  | .fnma d a b w => enc 0x50000004 [place d 19, place a 12, place b 5, place w 0]
  | .faddmin d a b w => enc 0x50000006 [place d 19, place a 12, place b 5, place w 0]
  | .faddmax d a b w => enc 0x50000008 [place d 19, place a 12, place b 5, place w 0]
  | .fcmpEq d a b w => enc 0x54000000 [place d 19, place a 12, place b 5, place w 0]
  | .fcmpNe d a b w => enc 0x54000002 [place d 19, place a 12, place b 5, place w 0]
  | .fcmpLt d a b w => enc 0x54000004 [place d 19, place a 12, place b 5, place w 0]
  | .fcmpLe d a b w => enc 0x54000006 [place d 19, place a 12, place b 5, place w 0]
  | .fcmpGt d a b w => enc 0x54000008 [place d 19, place a 12, place b 5, place w 0]
  | .fcmpGe d a b w => enc 0x5400000a [place d 19, place a 12, place b 5, place w 0]
  | .fcmpUn d a b w => enc 0x5400000c [place d 19, place a 12, place b 5, place w 0]
  | .fcmpOrd d a b w => enc 0x5400000e [place d 19, place a 12, place b 5, place w 0]
  | .fcvt d a i s m w => enc 0x58000000 [place d 19, place a 12, place i 5, place s 4, place m 1, place w 0]
  | .fcvti d a i m w => enc 0x58000400 [place d 19, place a 12, place i 5, place m 1, place w 0]
  | .icvtf d a i m w => enc 0x58000800 [place d 19, place a 12, place i 5, place m 1, place w 0]
  | .hadd2 d a b w => enc 0x60000000 [place d 19, place a 12, place b 5, place w 0]
  | .hsub2 d a b w => enc 0x60000002 [place d 19, place a 12, place b 5, place w 0]
  | .hmul2 d a b w => enc 0x60000004 [place d 19, place a 12, place b 5, place w 0]
  | .hfma2 d a b w => enc 0x60000006 [place d 19, place a 12, place b 5, place w 0]
  | .hmin2 d a b w => enc 0x60000008 [place d 19, place a 12, place b 5, place w 0]
  | .hmax2 d a b w => enc 0x6000000a [place d 19, place a 12, place b 5, place w 0]
  | .badd2 d a b w => enc 0x6000000c [place d 19, place a 12, place b 5, place w 0]
  | .bmul2 d a b w => enc 0x6000000e [place d 19, place a 12, place b 5, place w 0]
  | .bfma2 d a b w => enc 0x60000010 [place d 19, place a 12, place b 5, place w 0]
  | .lshup d a n w => enc 0x64000000 [place d 19, place a 12, place n 5, place w 0]
  | .lshdn d a n w => enc 0x64000002 [place d 19, place a 12, place n 5, place w 0]
  | .lrot d a n w => enc 0x64000004 [place d 19, place a 12, place n 5, place w 0]
  | .lperm d a b w => enc 0x64000006 [place d 19, place a 12, place b 5, place w 0]
  | .lbcast d a n w => enc 0x64000008 [place d 19, place a 12, place n 5, place w 0]
  | .lquad d a n w => enc 0x6400000a [place d 19, place a 12, place n 5, place w 0]
  | .derivx d a w => enc 0x64000f8c [place d 19, place a 12, place w 0]
  | .derivy d a w => enc 0x64000f8e [place d 19, place a 12, place w 0]
  | .derivxc d a w => enc 0x64000f90 [place d 19, place a 12, place w 0]
  | .derivyc d a w => enc 0x64000f92 [place d 19, place a 12, place w 0]
  | .lmatch d a b w => enc 0x64000014 [place d 19, place a 12, place b 5, place w 0]
  | .lred d a o w => enc 0x64000016 [place d 19, place a 12, place o 5, place w 0]
  | .lscan d a e o w => enc 0x64000018 [place d 19, place a 12, place e 9, place o 5, place w 0]
  | .lvote d a s w => enc 0x6400001a [place d 19, place a 12, place s 5, place w 0]
  | .vbcast d a w => enc 0x68000f80 [place d 19, place a 12, place w 0]
  | .vextr d a b => enc 0x68000002 [place d 19, place a 12, place b 5]
  | .vins d a b w => enc 0x68000004 [place d 19, place a 12, place b 5, place w 0]
  | .mfromv d a => enc 0x68000f86 [place d 19, place a 12]
  | .mtov d a w => enc 0x68000f88 [place d 19, place a 12, place w 0]
  | .mpopc d a => enc 0x68000f8a [place d 19, place a 12]
  | .mffs d a => enc 0x68000f8c [place d 19, place a 12]
  | .mand d a b => enc 0x6800000e [place d 19, place a 12, place b 5]
  | .mor d a b => enc 0x68000010 [place d 19, place a 12, place b 5]
  | .mxor d a b => enc 0x68000012 [place d 19, place a 12, place b 5]
  | .mandn d a b => enc 0x68000014 [place d 19, place a 12, place b 5]
  | .brZ s o => enc 0x80000000 [place s 16, place o 0]
  | .brNz s o => enc 0x80400000 [place s 16, place o 0]
  | .brLtz s o => enc 0x80800000 [place s 16, place o 0]
  | .brGez s o => enc 0x80c00000 [place s 16, place o 0]
  | .brGtz s o => enc 0x81000000 [place s 16, place o 0]
  | .brLez s o => enc 0x81400000 [place s 16, place o 0]
  | .brmAny s o => enc 0x84000000 [place s 16, place o 0]
  | .brmNone s o => enc 0x84400000 [place s 16, place o 0]
  | .brmAll s o => enc 0x84800000 [place s 16, place o 0]
  | .jmp o => enc 0x88000000 [place o 0]
  | .call o => enc 0x8c000000 [place o 0]
  | .divb m t j => enc 0x90000000 [place m 20, place t 10, place j 0]
  | .join => enc 0x94000000 []
  | .jmpr p => enc 0x98000000 [place p 16]
  | .callr p => enc 0x98400000 [place p 16]
  | .ret p => enc 0x98800000 [place p 16]
  | .nop => enc 0x9c000000 []
  | .trap c => enc 0x9c400000 [place c 0]
  | .eret => enc 0x9c800000 []
  | .ld v p x c z q => enc 0xa0000000 [place v 19, place p 13, place x 6, place c 4, place z 1, place q 0]
  | .st v p x c z q => enc 0xa4000000 [place v 19, place p 13, place x 6, place c 4, place z 1, place q 0]
  | .ldx v b x c z => enc 0xa8000000 [place v 19, place b 13, place x 6, place c 4, place z 1]
  | .stx v b x c z => enc 0xac000000 [place v 19, place b 13, place x 6, place c 4, place z 1]
  | .lds d p q z i => enc 0xb0000000 [place d 20, place p 14, place q 12, place z 11, place i 0]
  | .sts d p q z i => enc 0xb4000000 [place d 20, place p 14, place q 12, place z 11, place i 0]
  | .texl d c s => enc 0xb8000000 [place d 15, place c 8, place s 2]
  | .texb d c s => enc 0xb8400000 [place d 15, place c 8, place s 2]
  | .fence => enc 0xbc000000 []
  | .fenceRel => enc 0xbc100000 []
  | .fenceAcq => enc 0xbc200000 []
  | .xfence => enc 0xbc400000 []
  | .cinv p l => enc 0xbc800000 [place p 16, place l 10]
  | .cpref p l v => enc 0xbcc00000 [place p 16, place l 10, place v 8]
  | .spill v p n => enc 0xbd000000 [place v 15, place p 9, place n 6]
  | .fill v p n => enc 0xbd400000 [place v 15, place p 9, place n 6]
  | .atomAdd v p x r => enc 0xc0000000 [place v 19, place p 13, place x 6, place r 0]
  | .atomSub v p x r => enc 0xc0000002 [place v 19, place p 13, place x 6, place r 0]
  | .atomAnd v p x r => enc 0xc0000004 [place v 19, place p 13, place x 6, place r 0]
  | .atomOr v p x r => enc 0xc0000006 [place v 19, place p 13, place x 6, place r 0]
  | .atomXor v p x r => enc 0xc0000008 [place v 19, place p 13, place x 6, place r 0]
  | .atomMin v p x r => enc 0xc000000a [place v 19, place p 13, place x 6, place r 0]
  | .atomMax v p x r => enc 0xc000000c [place v 19, place p 13, place x 6, place r 0]
  | .atomMinu v p x r => enc 0xc000000e [place v 19, place p 13, place x 6, place r 0]
  | .atomMaxu v p x r => enc 0xc0000010 [place v 19, place p 13, place x 6, place r 0]
  | .atomXchg v p x r => enc 0xc0000012 [place v 19, place p 13, place x 6, place r 0]
  | .atomCas v p x r => enc 0xc0000014 [place v 19, place p 13, place x 6, place r 0]
  | .atomIncb v p x r => enc 0xc0000016 [place v 19, place p 13, place x 6, place r 0]
  | .atomIncw v p x r => enc 0xc0000018 [place v 19, place p 13, place x 6, place r 0]
  | .atomDecz v p x r => enc 0xc000001a [place v 19, place p 13, place x 6, place r 0]
  | .atomFaddl v p x r => enc 0xc000001c [place v 19, place p 13, place x 6, place r 0]
  | .atomFadd v p x r => enc 0xc000001e [place v 19, place p 13, place x 6, place r 0]
  | .atomFaddr v p x r => enc 0xc0000020 [place v 19, place p 13, place x 6, place r 0]
  | .atomFaddd v p x => enc 0xc0000022 [place v 19, place p 13, place x 6]
  | .atomAdd64 v p x r => enc 0xc0000024 [place v 19, place p 13, place x 6, place r 0]
  | .atomMax64 v p x r => enc 0xc0000026 [place v 19, place p 13, place x 6, place r 0]
  | .mma t a b g h z => enc 0xc4000000 [place t 19, place a 16, place b 13, place g 7, place h 1, place z 0]
  | .mmabp t p g h z => enc 0xc4450000 [place t 19, place p 13, place g 7, place h 1, place z 0]
  | .mzero t => enc 0xc4800000 [place t 19]
  | .mrd t g j => enc 0xc4c00000 [place t 19, place g 7, place j 1]
  | .mwr t g j => enc 0xc5000000 [place t 19, place g 7, place j 1]
  | .mcvst t a b g z => enc 0xc5400000 [place t 19, place a 16, place b 13, place g 7, place z 0]
  | .lcp d s i z => enc 0xc8000000 [place d 16, place s 10, place i 3, place z 1]
  | .tcopy g => enc 0xc8400000 [place g 16]
  | .tcopyx g => enc 0xc8800000 [place g 16]
  | .shapew d a o => enc 0xc8c00000 [place d 16, place a 10, place o 4]
  | .shaperel a => enc 0xc9000000 [place a 10]
  | .waitc c k => enc 0xc9400000 [place c 20, place k 12]
  | .cntr d c k => enc 0xc9800000 [place d 16, place c 14, place k 6]
  | .vfpush v => enc 0xcc000000 [place v 15]
  | .vfpop v => enc 0xcc400000 [place v 15]
  | .bara d b => enc 0xd0000000 [place d 16, place b 10]
  | .baraEnr d b => enc 0xd0000200 [place d 16, place b 10]
  | .barw p b => enc 0xd0400000 [place p 16, place b 10]
  | .baraw b => enc 0xd0800000 [place b 10]
  | .barx n b => enc 0xd0c00000 [place n 16, place b 10]
  | .barinit n b => enc 0xd1000000 [place n 16, place b 10]
  | .spawn e a c => enc 0xd4000000 [place e 16, place a 9, place c 3]
  | .spawnv e a => enc 0xd4400000 [place e 16, place a 9]
  | .spawnr r n c => enc 0xd4800000 [place r 16, place n 10, place c 4]
  | .claim d n k => enc 0xd4c00000 [place d 16, place n 10, place k 9]
  | .give d n k => enc 0xd5000000 [place d 16, place n 10, place k 9]
  | .exit => enc 0xd5400000 []
  | .scopen d a p => enc 0xd8000000 [place d 16, place a 10, place p 4]
  | .scopcl s => enc 0xd8400000 [place s 10]
  | .cancel s => enc 0xd8800000 [place s 10]
  | .scpst d s => enc 0xd8c00000 [place d 16, place s 10]
  | .scpstW d s => enc 0xd8c00200 [place d 16, place s 10]
  | .pbegin g => enc 0xdc000000 [place g 16]
  | .psegl a => enc 0xdc400000 [place a 16]
  | .psegq a => enc 0xdc800000 [place a 16]
  | .pview n a => enc 0xdcc00000 [place n 16, place a 10]
  | .pclip t => enc 0xdd000000 [place t 16]
  | .punclip t l => enc 0xdd400000 [place t 16, place l 10]
  | .pend => enc 0xdd800000 []
  | .pscan t => enc 0xddc00000 [place t 16]
  | .pcell d t r => enc 0xde000000 [place d 15, place t 9, place r 3]
  | .pblend c => enc 0xde400000 [place c 15]
  | .msend g => enc 0xe0000000 [place g 16]
  | .marm g d => enc 0xe0400000 [place g 16, place d 10]
  | .mdisarm t d => enc 0xe0800000 [place t 16, place d 10]
  | .rput g => enc 0xe0c00000 [place g 16]
  | .rget g => enc 0xe1000000 [place g 16]
  | .collAllReduce g => enc 0xe1400000 [place g 16]
  | .collAllGather g => enc 0xe1400000 [place g 16]
  | .collReduceScatter g => enc 0xe1400000 [place g 16]
  | .collBroadcast g => enc 0xe1400000 [place g 16]
  | .gets d i => enc 0xe4000000 [place d 16, place i 4]
  | .sets a i => enc 0xe4400000 [place a 16, place i 4]
  | .tlbinv p => enc 0xe4800000 [place p 16]
  | .tlbinvAll => enc 0xe4804000 []
  | .ctxsv => enc 0xe4c00000 []
  | .ctxrs => enc 0xe5000000 []
  | .smcAssignCluster d a => enc 0xe5400000 [place d 16, place a 10]
  | .smcReleaseCluster d a => enc 0xe5400000 [place d 16, place a 10]
  | .smcResetPartition d a => enc 0xe5400000 [place d 16, place a 10]
  | .smcSetRoot d a => enc 0xe5400000 [place d 16, place a 10]
  | .smcSetRegulator d a => enc 0xe5400000 [place d 16, place a 10]
  | .smcSetScopeShare d a => enc 0xe5400000 [place d 16, place a 10]
  | .smcAttest d a => enc 0xe5400000 [place d 16, place a 10]
  | .smcRetireUnit d a => enc 0xe5400000 [place d 16, place a 10]
  | .pwrqGate d a => enc 0xe5800000 [place d 16, place a 10]
  | .pwrqPower d a => enc 0xe5800000 [place d 16, place a 10]
  | .endRun w x y => enc 0xf4000000 [place w 19, place x 12, place y 5]
  | .yield d l => enc 0xf8000000 [place d 18, place l 11]
  | .pathChoice _ _ => none
  | .longLatencyResult _ _ => none
  | .pipeWaitEnd _ => none
  | .watchdogDeadline _ => none
  | .binTimer _ => none
  | .plyFormation _ => none
  | .gangFormation _ _ => none
  | .taskArrival _ => none
  | .plyRestore _ _ => none
  | .claimGrant _ => none
  | .claimFailure _ => none
  | .mtxEngineExecute _ => none
  | .copyEngineOperation _ _ => none
  | .retirement _ _ => none
  | .waitcReturn _ => none
  | .barrierArrival _ _ => none
  | .rootReport _ _ => none
  | .rootFlipArrival _ _ => none
  | .releaseWave _ => none
  | .vfifoPushResume _ => none
  | .vfifoPopResume _ => none
  | .scpstWReturn _ => none
  | .cancelBroadcast _ _ => none
  | .scopeDrained _ _ => none
  | .pathUnitScan _ => none
  | .tilerDeposit _ => none
  | .commitPerform _ _ => none
  | .storeAtHome _ _ => none
  | .completionTime _ => none
  | .clusterCompletionTime _ => none
  | .atomPerform _ _ => none
  | .fadddAccept _ _ => none
  | .windowClose _ _ _ => none
  | .sensorReading _ _ => none
  | .knightProbe _ => none
  | .quiescePoint _ => none
  | .tailWriteReport _ _ => none
  | .launchFire _ _ => none
  | .clockMark _ _ => none
  | .queueDescriptorWrite _ _ _ => none
  | .ccrWrite _ _ => none
  | .partitionWrite _ => none
  | .regselWrite _ => none
  | .configurationWrite _ _ => none
  | .loadRequest _ _ _ _ _ => none
  | .unloadRequest _ _ => none
  | .packagePowerOn _ _ _ => none
  | .unitRetirement _ _ => none
  | .dieGated _ => none
  | .powerReturn _ => none
  | .messageArrival _ => none
  | .remotePutArrival _ _ _ _ _ => none
  | .remoteGetArrival _ _ _ _ _ => none
  | .fabricRetire _ _ => none
  | .timeout _ => none
  | .collInstanceComplete _ _ => none
  | .collTimeout _ => none
  | .slackControl _ _ _ => none
  | .tlbinvDropComplete _ => none
  | .illegalWord _ _ _ _ => none
  | .fetchFault _ _ _ => none
  | .pathUnitDeposit _ => none
  | .uncorrectableError _ => none
  | .vaultCacheFlush _ => none
  | .recoveryImage _ => none

/-- The word of an instruction. -/
def encode (i : Instr) : Option Word := (encodeNat i).map (BitVec.ofNat 32)

end Sys2Proof
end

