-- ==== Sys2Proof/Machine/Fetch.lean ====
section
/-!
DEFINITION. What the issuing ply reads next: the words of a unit (spec/03 R72, R73, R88, R89), the checks of R92 that precede
its instruction, in the order of R410, and the instruction that it decodes to.
-/
namespace Sys2Proof.Machine

/-! ## Fetch (R72, R73) -/

/-- The word at an address, or XLATE or PROT. -/
def State.fetchAt (s : State) (a : DWord) : Except Cause Word :=
  match s.translate s.ply.tenant .execute (pc60 a) with
  | .error c => .error c
  | .ok pa => .ok (s.fetchWord pa)

/-- What the fetch of a unit comes to: its hints and its word, or the fault of the word after n words. -/
inductive Fetched where
  | fault (n : Nat) (c : Cause)
  | unit (hints : List Word) (word : Word)
  deriving DecidableEq, Repr

/-- Fetches a chain of hints and the word after it; hints that fill the whole address space end with the last. -/
def State.fetchUnit (s : State) (a : DWord) (hints : List Word) : (fuel : Nat) → Fetched
  | 0 => .unit hints.dropLast (hints.getLast?.getD 0)
  | n + 1 =>
    match s.fetchAt a with
    | .error c => .fault hints.length c
    | .ok w => if isHint w.toNat then State.fetchUnit s (a + 4) (hints ++ [w]) n else .unit hints w

/-- The majors of the control transfers: BR, BRM, JMP, CALL, DIVB, JOIN, JMPR, CALLR, RET (R158) (log 96). -/
def isTransfer (w : Nat) : Bool := 0x20 ≤ fieldNat w 31 26 && fieldNat w 31 26 ≤ 0x26
def isYield (w : Nat) : Bool := fieldNat w 31 26 == 0x3E

/-! ## ILLEGAL (R93, R410) -/

/-- An ILLEGAL as R410 reports it: sub-code, position, the two words of %eaddr. -/
structure Report where
  sub   : Nat
  pos   : Nat
  word  : Word
  other : Word
  deriving DecidableEq, Repr

/-- The lowest set bit of a number among bits [hi:lo], if any. -/
def lowBit (x hi lo : Nat) : Option Nat := ((List.range (hi + 1 - lo)).map (lo + ·)).find? fun i => bits x i i == 1

/-- Bits of the payload field of a hint kind, and the values beyond its range (R89). -/
def hintField (kind : Nat) : Nat × Nat :=
  match kind with
  | 1 | 4 => (3, 5)
  | 2 => (1, 2)
  | 3 => (2, 4)
  | 6 => (2, 3)
  | _ => (22, 2 ^ 22)

/-- The checks of one hint, after the hints before it. -/
def hintReport (before : List Word) (h : Word) : Option Report :=
  let k := hintKind h.toNat
  let (w, past) := hintField k
  if 7 ≤ k then some ⟨1, 22, h, 0⟩
  else
    match lowBit h.toNat 21 w with
    | some i => some ⟨2, i, h, 0⟩
    | none =>
      if past ≤ bits h.toNat (w - 1) 0 then some ⟨5, 0, h, h⟩
      else (before.find? fun e => hintKind e.toNat == k).map fun e => ⟨6, 0, h, e⟩

/-- The first check of a chain that fails. -/
def chainReport : (before rest : List Word) → Option Report
  | _, [] => none
  | b, h :: l =>
    match hintReport b h with
    | some r => some r
    | none => chainReport (b ++ [h]) l

/-- The payload bits of an HIMM that must be zero before an instruction (R90, R120, R330); none where it takes no HIMM. -/
def himmZero (w : Nat) : Option (Nat × Nat) :=
  let m := fieldNat w 31 26
  if refusesHimm w then none
  else if (immBits w).isSome then some (21, 21)
  else if (0x28 ≤ m && m ≤ 0x2B) || m == 0x30 then some (21, 20)
  else none

/-- Whether an instruction accepts a hint (R90, R91). -/
def acceptReport (w h : Word) : Option Report :=
  match hintKind h.toNat with
  | 0 =>
    match himmZero w.toNat with
    | none => some ⟨5, 22, w, h⟩
    | some (hi, lo) => (lowBit h.toNat hi lo).map fun i => ⟨5, i, w, h⟩
  | 5 => if 0x20 ≤ fieldNat w.toNat 31 26 && fieldNat w.toNat 31 26 ≤ 0x23 then none else some ⟨5, 22, w, h⟩
  | _ => none

/-- The instruction of a unit, or the first ILLEGAL condition in the order of R410; next is the word after a transfer. -/
noncomputable def decodeUnit (hints : List Word) (w : Word) (next : Option Word) : Except Report Instr :=
  match chainReport [] hints with
  | some r => .error r
  | none =>
    match decode w.toNat with
    | .error e => .error ⟨e.sub, e.pos, w, 0⟩
    | .ok i =>
      match isTrailerWord w.toNat, hints.getLast? with
      | true, some h => .error ⟨6, 0, w, h⟩
      | _, _ =>
        match hints.findSome? (acceptReport w) with
        | some r => .error r
        | none =>
          match next with
          | none => .ok i
          | some n => if isTrailerWord n.toNat then .ok i else .error ⟨4, 0, w, n⟩

/-! ## The unit to issue (R92, R106) -/

/-- The payload of the hint of a kind. -/
def payloadOf (hints : List Word) (k : Nat) : Option (BitVec 22) :=
  (hints.find? fun h => hintKind h.toNat == k).map fun h => hintPayload h.toNat

/-- A unit with its hints, from the address of its first word. -/
def issueOf (first : DWord) (hints : List Word) (w : Word) : Issue :=
  { first := first, words := hints.length + 1, word := w, himm := payloadOf hints 0, hrnd := payloadOf hints 1
    hsat := payloadOf hints 2, hcache := payloadOf hints 3, hord := payloadOf hints 4, hlong := payloadOf hints 5
    hprio := payloadOf hints 6 }

/-- What the issuing ply does next. -/
inductive Verdict where
  /-- The instruction issues unless it waits in the pipe. -/
  | go (i : Instr)
  /-- The unit ends in the watchdog, a fetch fault or ILLEGAL. -/
  | stop (i : Instr)
  | runlen
  deriving DecidableEq, Repr

/-- An SMC's request, a COLL's kind and a PWRQ's op stand in memory and scalars: the row of the opcode table that the word
is, as it stands at issue (R383, R384, R407). -/
noncomputable def State.resolve (s : State) (i : Instr) : Instr :=
  match i with
  | .collAllReduce g =>
    match bits (s.S g).toNat 1 0 with
    | 1 => .collAllGather g
    | 2 => .collReduceScatter g
    | 3 => .collBroadcast g
    | _ => .collAllReduce g
  | .smcAssignCluster d a =>
    match s.readVirt noCore s.ply.tenant (s.S64 a) 4 with
    | .error _ => .smcAssignCluster d a
    | .ok b =>
      match leNat b with
      | 2 => .smcReleaseCluster d a
      | 3 => .smcResetPartition d a
      | 4 => .smcSetRoot d a
      | 5 => .smcSetRegulator d a
      | 6 => .smcSetScopeShare d a
      | 7 => .smcAttest d a
      | 8 => .smcRetireUnit d a
      | _ => .smcAssignCluster d a
  | .pwrqGate d a => if bits (s.S a).toNat 8 8 == 1 then .pwrqGate d a else .pwrqPower d a
  | i => i

/-- Whether a word of a unit that is no trailer stands at position 24 or later (R88). -/
def tooLong (pos : Nat) (hints : List Word) (w : Word) : Bool :=
  decide (24 < pos + hints.length) && !hints.isEmpty || decide (24 ≤ pos + hints.length) && !isTrailerWord w.toNat

/-- The verdict on a unit whose words are fetched. -/
noncomputable def State.verdict (s : State) (hints : List Word) (w : Word) : Verdict :=
  let p := s.ply
  let n := hints.length + 1
  let next : Except Cause (Option Word) :=
    if isTransfer w.toNat then
      match s.fetchAt (p.cur.pc + BitVec.ofNat 64 (4 * n)) with
      | .error c => .error c
      | .ok x => .ok (some x)
    else .ok none
  match next with
  | .error c => .stop (.fetchFault c.code c.sub c.addr)
  | .ok x =>
    if tooLong p.pos hints w then .runlen
    else
      match decodeUnit hints w x with
      | .error r => .stop (.illegalWord r.sub r.pos r.word r.other)
      | .ok i => .go (s.resolve i)

/-- What the issuing ply does next, and the unit. The watchdog comes before every other condition of a unit whose words are
fetched (R106); YIELD's word does not count (log 26). -/
noncomputable def State.look (s : State) : Issue × Verdict :=
  let p := s.ply
  let first := p.cur.pc
  let judge (hints : List Word) (w : Word) : Issue × Verdict :=
    let i := issueOf first hints w
    let k := if isYield w.toNat then hints.length else hints.length + 1
    if p.exhausted k then ({ i with words := k }, .stop (.watchdogDeadline p.uid)) else (i, s.verdict hints w)
  match s.fetchUnit first [] (2 ^ 58) with
  | .fault n c =>
    let i := { Issue.empty with first := first, words := n }
    if n != 0 && p.exhausted n then (i, .stop (.watchdogDeadline p.uid)) else (i, .stop (.fetchFault c.code c.sub c.addr))
  | .unit hints w => judge hints w

/-- RUNLEN (R88), with the unit's instruction word (R169) (log 27). -/
def State.raiseRunlen (s : State) : State := s.raise (cause 0x03 0 s.theWord)

end Sys2Proof.Machine
end

