-- ==== Sys2Proof/Machine/Schedule.lean ====
section
/-!
DEFINITION. What may happen next by itself: the events of the units that are enabled in a state. The spec gives no order
among them; a free value takes one (log 3). Events from outside the package come from the agenda.
-/
namespace Sys2Proof.Machine

/-- The event where its condition holds. -/
def offer (c : Bool) (e : Instr) : List Instr := if c then [e] else []

/-- Stores: a cluster completion time or a completion time has come (R303, R326). -/
noncomputable def State.storeEvents (s : State) : List Instr :=
  s.stores.flatMap fun q =>
    offer (decide (q.time ≤ s.now) && !(s.stores.any fun r => lineOf r.pa == lineOf q.pa && decide (r.seq < q.seq)))
      (.completionTime q.seq) ++
    offer (decide (q.ctime ≤ s.now) && !q.clusterDone) (.clusterCompletionTime q.seq)

/-- An access of a ply that may be performed. -/
noncomputable def State.memEvent (s : State) (p : Ply) (e : MemOp) : List Instr :=
  if s.performable p e then
    match e.kind with
    | .store _ _ | .storeX _ _ => [.storeAtHome p.uid e.seq]
    | .atom _ _ _ _ _ _ => [.atomPerform p.uid e.seq]
    | .faddd _ => [.fadddAccept p.uid e.seq]
    | .fence _ _ _ | .xfence => []
    | _ => [.longLatencyResult p.uid e.seq]
  else []

/-- The wait of a resident ply is over. -/
noncomputable def State.waitEvent (s : State) (p : Ply) : List Instr :=
  match p.cur.wait with
  | .waitc c k => offer (p.counterAtMost c k) (.waitcReturn p.uid)
  | .claim _ _ _ => offer (((s.fittingClaims p.core).head?.map (·.uid)) == some p.uid) (.claimGrant p.uid)
  | .vfpush _ => offer (decide ((s.pushFifo p.core).length < 16) && s.firstPusher p) (.vfifoPushResume p.uid)
  | .vfpop _ => offer (!(s.popFifo p.core).isEmpty) (.vfifoPopResume p.uid)
  | .scpst _ c =>
    offer (p.hubq.isEmpty && ((s.released.any fun (t, i, _) => t == p.tenant && i == c) || (s.scopeOf p.tenant c).isNone))
      (.scpstWReturn p.uid)
  | .tlbinv _ _ => offer (s.released' p (s.seq + 1) 3) (.tlbinvDropComplete p.uid)
  | .spawnr _ _ _ => offer (!p.lsq.any fun e => match e.kind with
      | .store _ _ | .storeX _ _ => true
      | _ => false) (.longLatencyResult p.uid 0)
  | _ => []

/-- The oldest operations of a ply that may retire (R220). -/
noncomputable def State.retireEvents (s : State) (uid : Nat) : List Instr :=
  (List.range 4).flatMap fun cls =>
    match s.counted.find? fun (c : Counted) => c.uid == uid && c.cls == cls with
    | some c => offer (s.opDone c) (.retirement uid cls)
    | none => []

noncomputable def State.plyEvents (s : State) : List Instr :=
  s.everyPly.flatMap (fun p =>
    p.lsq.flatMap (s.memEvent p) ++
      (p.hubq.flatMap fun h => offer (s.answerable p h) (.longLatencyResult p.uid h.seq)) ++ s.retireEvents p.uid) ++
    s.all.flatMap s.waitEvent

/-- Engines, path unit, commit unit, leaves and bins of a core. -/
noncomputable def State.coreEvents (s : State) (k : Nat) (c : Core) : List Instr :=
  (match c.mtxq with
    | [] => []
    | o :: _ => offer (match s.anyPly o.uid with
      | none => true
      | some p => s.engineReady p o.seq o.kind.global) (.mtxEngineExecute k)) ++
  (c.copyq.flatMap fun o => offer (match o.due with
      | some t => s.copyDue o t
      | none => match s.anyPly o.uid with
        | none => true
        | some p => !s.copyHeld k o && s.engineReady p o.seq true) (.copyEngineOperation k o.seq)) ++
  (match c.pathq with
    | [] => []
    | o :: _ => match o.kind with
      | .line _ _ | .quad _ _ _ _ | .pend => [.pathUnitDeposit k]
      | .scan _ _ _ _ _ _ _ _ => [.pathUnitScan k]
      | .pcell _ _ _ _ _ _ => [.longLatencyResult o.uid o.seq]) ++
  (c.commits.zipIdx.flatMap fun (m, i) => offer (c.commitReady m) (.commitPerform k i)) ++
  (c.entries.zipIdx.flatMap fun (e, i) =>
    offer (e.kind != .scan && e.scanned && !c.entryWaits e) (.commitPerform k (c.commits.length + i))) ++
  (c.leaves.flatMap fun (n, l) =>
    offer (s.mayReport k n) (.rootReport k n) ++ offer l.flip (.rootFlipArrival k n) ++
      offer (match l.closing with
        | some t => decide (t ≤ s.now)
        | none => (l.done || l.resetting) && !(s.closing k n l).isEmpty) (.windowClose k n l.phase.toNat)) ++
  offer (c.bins.any fun b => !b.due && s.overdue k b) (.binTimer k) ++
  offer (!c.bins.isEmpty && match s.nextPlacing k with
    | some (.bin _) => true
    | _ => false) (.plyFormation k)

/-- Restores, formations of fired records and Clock's marks (R346, R366, R371). -/
noncomputable def State.placeEvents (s : State) : List Instr :=
  (s.saved.zipIdx.flatMap fun (v, i) =>
    match (if v.gated then none else s.restoreCore v) with
    | some k => offer (s.nextPlacing k == some (.restore i)) (.plyRestore k i)
    | none => []) ++
  s.firings.flatMap fun f =>
    if f.total ≤ f.next then []
    else if s.scopeCancelled f.tenant f.record.scope then [.gangFormation 0 f.id]
    else if s.now < f.firedAt then []
    else
      match s.launchCore f with
      | some k => offer (s.nextPlacing k == some (.launch f.id)) (.gangFormation k f.id)
      | none => (((s.allowed f).find? fun k => (s.toMark f k).isSome).map fun k => [.clockMark k f.id]).getD []

/-- Barriers, scopes, tasks and pieces on their way (log 70). -/
noncomputable def State.hubEvents (s : State) : List Instr :=
  (s.reports.map fun (t, k) => .tailWriteReport t k) ++
  (s.arrivals.flatMap fun a => offer (s.arrivalFree a) (.barrierArrival a.core a.seq)) ++
  ((((s.all.map fun p => clusterOf p.core).eraseDups).filter fun c => !(s.waves c).isEmpty).map .releaseWave) ++
  (((s.all.map fun (p : Ply) => p.core).eraseDups).filter s.claimStuck).map .claimFailure ++
  (s.broadcasts.zipIdx.flatMap fun (b, i) => (b.cores.take 1).map fun k => .cancelBroadcast k i) ++
  (s.scopes.flatMap fun c => offer (c.final.isSome && s.drained c) (.scopeDrained c.tenant c.id.toNat)) ++
  (s.transit.zipIdx.flatMap fun (t, i) => offer (s.mayArrive i t) (.taskArrival i)) ++
  (s.pieces.zipIdx.flatMap fun (p, i) =>
    offer (!((s.pieces.take i).any fun q => q.uid == p.uid && q.owner == p.owner) &&
      ((s.windowOf p.owner p.gang).isSome || !s.firings.any fun f => decide (f.next < f.total) && f.id == p.gang / 2 ^ 32))
      (.tilerDeposit i)) ++
  s.tenants.flatMap fun (t, x) => (x.queues.filter fun (_, q) => q.ready).map fun (k, _) => .launchFire t k

/-- Quiesce points, power gating and retirement (R320, R350, R389). -/
noncomputable def State.powerEvents (s : State) : List Instr :=
  ((s.clusters.filter fun (c, x) => x.changing && !(s.changeGroup c).any s.inFlight).map fun (c, _) => .quiescePoint c) ++
  ((List.range 4).flatMap fun t =>
    match s.die (upperDie t) with
    | .gating _ _ => offer (!s.all.any fun p => !p.management && dieOf p.core == upperDie t) (.dieGated t)
    | .gated => offer (!(s.powerRequests t).isEmpty) (.powerReturn t)
    | .powered => []) ++
  (s.cores.flatMap fun (k, x) => offer ((s.worn (.core k) || x.retiring) && !x.retired && (s.onCore k).isEmpty || (s.worn (.core k) && !x.retiring))
    (.unitRetirement 0 k)) ++
  (s.clusters.flatMap fun (k, x) => offer ((s.worn (.cluster k) || x.retiring) && !x.retired &&
    (!x.retiring || (coresOf k).all fun c => (s.onCore c).isEmpty)) (.unitRetirement 1 k)) ++
  s.vaults.flatMap fun (k, x) => offer ((s.worn (.vault k) || x.retiring) && !x.retired &&
    (!x.retiring || [lowerCore k, upperCore k].all fun c => (s.onCore c).isEmpty)) (.unitRetirement 2 k)

/-- An operation of the fabric whose target is the device itself reaches it; a performed one completes; one beyond fabto or colto
fails (R399, R401, R408). -/
noncomputable def State.fabricEvent (s : State) (o : FabricOp) : List Instr :=
  let data (r : LocalRange) : List Byte := ((s.anyPly o.uid).map fun p => s.localData p o.seq r).getD []
  let job := (s.tenant o.tenant).job
  match o.answer with
  | some (.done d) =>
    offer (s.fabricDue o) (match o.kind with
      | .coll _ _ _ _ _ _ _ _ _ => .collInstanceComplete o.seq []
      | _ => .fabricRetire o.seq (.done [])) ++
    (match o.kind with
      | .rput t g f _ => offer (s.retriable o) (.remotePutArrival t.tenant ⟨s.endpoint, job⟩ g f d)
      | _ => [])
  | some (.failed _) => offer (o.owed.any fun w => decide (w.1 ≤ s.now)) (.fabricRetire o.seq (.done []))
  | none =>
    match o.kind.target, o.kind with
    | some t, k =>
      if o.cancelled then [.fabricRetire o.seq (.done [])]
      else if o.issuedAt + 1000 * (s.tenant o.tenant).fabto ≤ s.now then [.timeout o.seq]
      else if t.endpoint == s.endpoint && s.mayBegin o then
        match k with
        | .rput t g f r => [.remotePutArrival t.tenant ⟨s.endpoint, job⟩ g f (data r)]
        | .rget t g f r _ => [.remoteGetArrival t.tenant ⟨s.endpoint, job⟩ g f r.length]
        | .msend t tag r => [.messageArrival ⟨tag, s.endpoint, t.tenant, o.tenant, job, data r⟩]
        | .notify t tag d => [.messageArrival ⟨tag, s.endpoint, t.tenant, o.tenant, job, d⟩]
        | .coll _ _ _ _ _ _ _ _ _ => []
      else []
    | none, .coll _ _ comm _ _ _ _ _ _ =>
      offer ((s.comm o.tenant comm).members == [s.endpoint]) (.collInstanceComplete o.seq [⟨0, 0, 0, 0, 0, []⟩]) ++
        offer (decide (o.issuedAt + 1000 * (s.tenant o.tenant).colto ≤ s.now)) (.collTimeout ⟨o.seq, o.issuedAt⟩)
    | none, _ => []

/-- Cores of partitions for which Knight may probe (R312). -/
noncomputable def State.probeEvents (s : State) : List Instr :=
  ((s.clusters.filter fun (_, x) => x.part.isSome).flatMap fun (c, _) => (coresOf c).filter s.mayProbe).map .knightProbe

/-- A reading of each vault's sensor is taken at every multiple of 32,000 ns (R342); slack control decides after 16 instances
(R409). -/
noncomputable def State.timedEvents (s : State) : List Instr :=
  (((List.range 256).filter fun v => decide ((s.vault v).readings < s.now / 32000)).map fun v =>
    .sensorReading v (Config.sensorTemp v s.tick)) ++
  ((s.tenants.filter fun (_, x) => x.slack && decide (16 ≤ x.window.length)).map fun (t, x) =>
    .slackControl t (slackSum (x.window.take 16)) (slackSpan (x.window.take 16)))

/-- Every event that is enabled. -/
noncomputable def State.events (s : State) : List Instr :=
  s.storeEvents ++ s.plyEvents ++ s.cores.flatMap (fun (k, c) => s.coreEvents k c) ++ s.hubEvents ++ s.placeEvents ++
    s.powerEvents ++ s.fabric.flatMap s.fabricEvent ++ s.probeEvents ++ s.timedEvents

/-- The choices of the pipes that have one. -/
noncomputable def State.choices (s : State) : List Instr :=
  (((s.all.map fun (p : Ply) => (p.core, p.pipe)).eraseDups).filter fun (k, p) => (s.nextPath k p).isSome).map
    fun (k, p) => .pathChoice k p

/-- One of a list of events, freely. -/
def State.pick (s : State) (l : List Instr) : Option Instr := l[(Config.rank s.tick 400 + s.tick) % l.length]?

end Sys2Proof.Machine
end

