-- ==== Sys2Proof/Machine/Step.lean ====
section
/-!
DEFINITION. One step of the package: a scheduled event, the next unit of the issuing ply, or an event that is enabled.
-/
namespace Sys2Proof.Machine

/-- Time passes (log 2): every step takes at least one nanosecond. -/
def State.elapse (s : State) : State :=
  { s with ptime := s.ptime + BitVec.ofNat 64 (1 + Config.elapsed s.tick), tick := s.tick + 1 }

/-- Whether the issuing ply has an open run that does not wait, for a result or for its pipe. -/
def State.issues (s : State) : Bool := s.ply.resident && s.ply.running && !s.ply.resumes && decide (s.ply.cur.wait = .none)

/-- An event of a list takes place, or time passes. -/
noncomputable def State.background (s : State) (l : List Instr) (t : State) : Outcome :=
  match s.pick l with
  | some e => exec e t
  | none => t.ok

/-- The issuing ply's next unit (R92), or its wait in the pipe (R103). -/
noncomputable def State.issueNext (s : State) : Outcome :=
  let (i, v) := s.look
  let t : State := { s.elapse with issue := i }
  match v with
  | .stop e => exec e t
  | .runlen => t.raiseRunlen.ok
  | .go e =>
    if s.hazard e then s.background s.events { t with ply := { t.ply with stalled := true } }
    else if s.ply.stalled then exec (.pipeWaitEnd s.ply.uid) t
    else exec e t

/-- One step of the package. -/
noncomputable def step (s : State) : Outcome :=
  match s.agenda with
  | e :: l => exec e { s.elapse with agenda := l }
  | [] => if s.issues then s.issueNext else s.background (s.choices ++ s.events) s.elapse

/-! ## A word placed for the next step -/

/-- Where the word stands: a virtual address that the tables below map to the same physical address. -/
def placedAt : Nat := 0x10000
/-- Translation of tenant 0: a root at 0x4000, a table at 0x8000 whose first leaf maps the first 256 GiB to physical address
0, readable, writable and executable (R376). -/
def Memory.place (m : Memory) (word : Word) : Memory :=
  let m := m.writeN 0x4000 (leBytes 8 0x8001)
  let m := m.writeN 0x8000 (leBytes 8 0x3D)
  -- the word, and an END after it
  m.writeN placedAt (wordBytes word ++ wordBytes 0xF7E7CF80)

/-- A ply in its first run (R108), of 96 tasks of the tenant root, with every register and tile that a header may ask for. -/
def Ply.placed' (uid : Nat) : Ply :=
  { Ply.vacant with
    uid := uid, age := uid, gangsize := 1, gang := uid, header := ⟨120, 8, false, true, 255, 0⟩
    entry := BitVec.ofNat 64 placedAt, cls := 2
    sregs := Vector.ofFn fun (i : Fin 64) => if 56 ≤ i.val && i.val ≤ 58 then 0xFFFFFFFF else 0
    vregs := List.replicate 120 Lanes.zero, tiles := List.replicate 8 (List.replicate 64 Lanes.zero)
    path0 := { Path.free with pc := BitVec.ofNat 64 placedAt, member := Mask.full, active := Mask.full }
    running := true, occ := Mask.full, ydl := 255, tvec := 0x20000, ssave := 0x100000 }

/-- s with a word placed where the next step fetches it: a formed ply of tenant 0 issues it (log 18). -/
def State.withFetchWord (s : State) (_nbits w : Nat) : State :=
  let uid := s.seq + 1
  { s with
    seq := uid
    ply := Ply.placed' uid
    plies := (if s.ply.resident then [s.ply] else []) ++ s.plies
    mem := s.mem.place (BitVec.ofNat 32 w)
    tenants := tset 0 { s.tenant 0 with ptroot := 0x4000 } s.tenants
    tlb := s.tlb.filter fun e => e.tenant != 0
    stores := s.stores.filter fun q => decide (placedAt + 128 ≤ q.pa)
    recent := []
    agenda := [] }

end Sys2Proof.Machine
end

