-- ==== Sys2Proof/Safety.lean ====
section
/-!
DEFINITION. What counts as a safe run, in the terms that claims use: what an outcome answers, what a byte of memory reads as,
which part of the state a unit may change, and what it means that it changed nothing else.
-/
namespace Sys2Proof.Machine

/-! ## Safe runs -/

/-- The instruction answers a next state t, and p holds of t: it neither faults nor is refused. -/
def Answers (i : Instr) (s : State) (p : State → Prop) : Prop := ∃ t, exec i s = .next t ∧ p t

/-- The canonical form of main memory: addresses strictly rising, no byte listed that reads as an unlisted one. -/
def MemoryOk (s : State) : Prop := s.mem.wf = true

/-! ## Memory as it is read -/

/-- A byte of a core's local buffer. -/
def State.localByte (s : State) (core : Nat) (sp : Space) (a : Nat) : Byte := ((s.core core).space sp).read a

/-- Every byte of memory reads as before, by every core and at package scope, and every byte of every local buffer. -/
def SameMemory (s t : State) : Prop :=
  (∀ core pa, t.seen core pa = s.seen core pa) ∧ ∀ core sp a, t.localByte core sp a = s.localByte core sp a

/-! ## What a unit may change -/

/-- Nothing outside the issuing ply changed, and every byte of memory reads as before. -/
def OnlyPly (s t : State) : Prop := t = { s with ply := t.ply } ∧ SameMemory s t

/-- The unit has issued (R88, R105): the issuing path stands after its words, which the run position and %yc count. -/
def Advanced (s t : State) : Prop :=
  t.ply.slot = s.ply.slot ∧
  t.path.pc = pc60 (s.issue.first + BitVec.ofNat 64 (4 * s.issue.words)) ∧
  t.ply.pos = s.ply.pos + s.issue.words ∧
  t.ply.yc = s.ply.yc + BitVec.ofNat 14 s.issue.words

/-- Of the two paths, only the issuing one's pc, activity and the class of its next run may differ. -/
def PathsKept (s t : State) : Prop :=
  t.path = { s.path with pc := t.path.pc, active := t.path.active, hprio := t.path.hprio } ∧
  t.ply.path t.ply.other = s.ply.path s.ply.other

/-- What S[r] reads after w has been written into S[d] (R75, R98): s0 discards, and a word of the activity triple takes what
the path's membership allows. -/
def State.afterWrite (s : State) (d : BitVec 6) (w : Word) (r : BitVec 6) : Word :=
  if r = d ∧ d ≠ 0 then
    if 60 ≤ d.toNat ∧ d.toNat ≤ 62 then w &&& Mask.word s.path.member (d.toNat - 60) else w
  else s.S r

/-- A unit that may write scalars: every other register, flag, queue and unit, and every byte of memory, is as before. -/
def ScalarFrame (s t : State) : Prop :=
  OnlyPly s t ∧ Advanced s t ∧ PathsKept s t ∧
  t.ply = { s.ply with
    sregs := t.ply.sregs, path0 := t.ply.path0, path1 := t.ply.path1, pos := t.ply.pos, yc := t.ply.yc }

/-- A unit that writes w into S[d] and nothing else. -/
def WritesScalar (s t : State) (d : BitVec 6) (w : Word) : Prop := ScalarFrame s t ∧ ∀ r, t.S r = s.afterWrite d w r

/-- A unit that writes the pair S[d+1] : S[d] and nothing else: the low word first. -/
def WritesPair (s t : State) (d : BitVec 6) (x : DWord) : Prop :=
  ScalarFrame s t ∧
  ∀ r, t.S r = if r = d + 1 then s.afterWrite (d + 1) (x.extractLsb' 32 32) r else s.afterWrite d (x.extractLsb' 0 32) r

/-- A unit that writes the mask m into the triple of base d and nothing else (R97, R98). -/
def WritesMask (s t : State) (d : BitVec 6) (m : Nat → Bool) : Prop :=
  ScalarFrame s t ∧ ∃ w : Nat → Word, (∀ k, k < 3 → ∀ i, i < 32 → (w k).getLsbD i = m (32 * k + i)) ∧
    ∀ r, t.S r =
      if r = d + 2 then s.afterWrite (d + 2) (w 2) r
      else if r = d + 1 then s.afterWrite (d + 1) (w 1) r
      else s.afterWrite d (w 0) r

/-- Bit i of the mask in the triple of base a (R97). -/
def State.maskBit (s : State) (a : BitVec 6) (i : Nat) : Bool :=
  (s.S (a + BitVec.ofNat 6 (i / 32))).getLsbD (i % 32)

/-- Every vector field of the unit can be read (R76, R88, R95, R96): a register below the boundary, a latch that is full,
vz or vocc. -/
def VectorReady (s : State) (codes : List (BitVec 7)) : Prop :=
  ∀ c ∈ codes, (c.toNat ≤ 119 → c.toNat < s.ply.vregs.length) ∧
    (120 ≤ c.toNat → c.toNat ≤ 123 → c.toNat - 120 < s.ply.latches.length)

/-- A unit that may write a vector register, the latches and %fflags: everything else is as before. -/
def VectorFrame (s t : State) : Prop :=
  OnlyPly s t ∧ Advanced s t ∧ PathsKept s t ∧ t.path.active = s.path.active ∧
  t.ply = { s.ply with
    vregs := t.ply.vregs, latches := t.ply.latches, fflags := t.ply.fflags, path0 := t.ply.path0, path1 := t.ply.path1
    pos := t.ply.pos, yc := t.ply.yc }

/-- A latch-producing unit (R77, R96, R117): lane i of the value is f i where lane i is active and the destination's old
value elsewhere. The value enters b0, the older latches move up, and V[d] takes it unless nw is 1 or d names no register;
every other register is as before. -/
def WritesVector (s t : State) (d : BitVec 7) (nw : BitVec 1) (f : Nat → Word) : Prop :=
  let v (i : Nat) : Word := if s.active.has i then f i else (s.V d).at i
  VectorFrame s t ∧
  (∀ i, i < 96 → (t.V 120).at i = v i) ∧
  (∀ k : Nat, k < 3 → t.V (BitVec.ofNat 7 (121 + k)) = s.V (BitVec.ofNat 7 (120 + k))) ∧
  t.ply.latches.length = min 4 (s.ply.latches.length + 1) ∧
  (∀ r : BitVec 7, r.toNat ≤ 119 → ∀ i, i < 96 → (t.V r).at i = if r = d ∧ nw = 0 then v i else (s.V r).at i)

/-- No flag of %fflags changed. -/
def SameFlags (s t : State) : Prop := t.ply.fflags = s.ply.fflags

/-- Exactly the flags that some active lane raises were ORed into %fflags (R138). -/
def RaisesFlags (s t : State) (f : Nat → BitVec 6) : Prop :=
  ∀ k, k < 6 → (t.ply.fflags.getLsbD k = true ↔
    s.ply.fflags.getLsbD k = true ∨ ∃ i, i < 96 ∧ s.active.has i = true ∧ (f i).getLsbD k = true)

/-! ## Accesses that issue -/

/-- What walks leave (R179, R329, R377): translations that may be held from now on, and in the vaults the lines and the counters
of their caches. -/
def Walked (s t : State) : Prop :=
  (∃ l, t.tlb = l ++ s.tlb) ∧
  ∀ k, t.vault k = { s.vault k with cache := (t.vault k).cache, counts := (t.vault k).counts }

/-- The unit's accesses enter the ply's load-store queue in order, under the next issue numbers (R189). Their walks leave what
walks leave; everything else is as before, and every byte of memory. -/
def Queues (s t : State) (ks : List MemKind) : Prop :=
  t = { s with
    ply := t.ply, seq := s.seq + ks.length, tlb := t.tlb, vaults := t.vaults, homeLeases := t.homeLeases } ∧
  Walked s t ∧ SameMemory s t ∧
  Advanced s t ∧ PathsKept s t ∧ t.path.active = s.path.active ∧
  t.ply = { s.ply with
    lsq := s.ply.lsq ++ ks.zipIdx.map fun (k, i) => ⟨s.seq + 1 + i, s.ply.slot, s.issue.first, k⟩
    path0 := t.ply.path0, path1 := t.ply.path1, pos := t.ply.pos, yc := t.ply.yc }

/-- They enter the queue, and nothing is translated. -/
def QueuesOnly (s t : State) (ks : List MemKind) : Prop :=
  Queues s t ks ∧ t.tlb = s.tlb ∧ t.vaults = s.vaults ∧ t.homeLeases = s.homeLeases

/-! ## Control transfers and traps -/

/-- A control transfer decides what its trailer will do (R158), and nothing else changes. -/
def Decides (s t : State) (tr : Transfer) : Prop :=
  OnlyPly s t ∧ Advanced s t ∧
  t.path = { s.path with pc := t.path.pc, hprio := t.path.hprio, transfer := tr } ∧
  t.ply.path t.ply.other = s.ply.path s.ply.other ∧
  t.ply = { s.ply with path0 := t.ply.path0, path1 := t.ply.path1, pos := t.ply.pos, yc := t.ply.yc }

/-- A call decides its transfer and writes the link into s12:s13 (R159). -/
def DecidesLinking (s t : State) (tr : Transfer) (link : DWord) : Prop :=
  OnlyPly s t ∧ Advanced s t ∧
  t.path = { s.path with pc := t.path.pc, hprio := t.path.hprio, transfer := tr } ∧
  t.ply.path t.ply.other = s.ply.path s.ply.other ∧
  (∀ r, t.S r = if r = 12 then link.extractLsb' 0 32 else if r = 13 then link.extractLsb' 32 32 else s.S r) ∧
  t.ply = { s.ply with
    sregs := t.ply.sregs, path0 := t.ply.path0, path1 := t.ply.path1, pos := t.ply.pos, yc := t.ply.yc }

/-- The issuing ply enters its trap handler at user privilege (R165): the trap registers, the saved latches, supervisor
privilege, and a new run at the handler; activity, membership and frame of the path, and the other path, are as before. -/
def EntersHandler (s t : State) (epc : DWord) (pos : Nat) (code sub detail : Nat) (eaddr : DWord) (lane : Nat) : Prop :=
  t.ply.epc = pc60 epc ∧ t.ply.erun = BitVec.ofNat 5 pos ∧
  t.ply.ecause = BitVec.ofNat 32 (detail * 2 ^ 16 + sub * 2 ^ 8 + code) ∧
  t.ply.eaddr = eaddr ∧ t.ply.elane = BitVec.ofNat 7 lane ∧
  t.ply.savedLatches = s.ply.latches ∧ t.ply.supervisor = true ∧ t.ply.running = true ∧ t.ply.pos = 0 ∧ t.ply.latches = [] ∧
  t.path = { s.path with pc := s.ply.tvec, wait := .none, waitWords := 0, waitPrio := none, transfer := .none } ∧
  t.ply.path t.ply.other = s.ply.path s.ply.other ∧
  t.ply = { s.ply with
    epc := t.ply.epc, erun := t.ply.erun, ecause := t.ply.ecause, eaddr := t.ply.eaddr, elane := t.ply.elane
    savedLatches := t.ply.savedLatches, supervisor := true, running := true, pos := 0, latches := []
    path0 := t.ply.path0, path1 := t.ply.path1, runSince := t.ply.runSince, trapSlot := t.ply.trapSlot
    trapEpc := t.ply.trapEpc, trapErun := t.ply.trapErun, trapTransfer := t.ply.trapTransfer }

/-- It enters the handler, and everything outside the ply is as before. -/
def TakesTrap (s t : State) (epc : DWord) (pos : Nat) (code sub detail : Nat) (eaddr : DWord) (lane : Nat) : Prop :=
  OnlyPly s t ∧ EntersHandler s t epc pos code sub detail eaddr lane

/-- A unit traps with the instruction word as %eaddr and lane 127 (R169). -/
def TrapsWithWord (s t : State) (code sub : Nat) : Prop :=
  TakesTrap s t s.issue.first s.ply.pos code sub 0 (s.issue.word.zeroExtend 64) 127

end Sys2Proof.Machine
end

