-- ==== Sys2Proof/Certificates/Slice0/Obligations.lean ====
section
/-!
DEFINITION. The statements about the model, each the reading of rules of spec/ that its entry in OBLIGATIONS.json cites. The
tables below name the instructions that a statement covers and what the rules give for each.
-/
open Sys2Proof Sys2Proof.Machine

namespace Sys2Proof.Claim

/-! ## Results of the integer rules (R14 to R18, R122 to R134) -/

/-- 1 where the condition holds, else 0. -/
def truth (p : Prop) [Decidable p] : Word := if p then 1 else 0
/-- i clamped to lo and hi (R17). -/
def clampTo (lo hi i : Int) : Int := max lo (min hi i)
/-- Bits [63:32] of the signed product and of the unsigned one (R16). -/
def highSigned (x y : Word) : Word := BitVec.ofInt 32 (x.toInt * y.toInt / 2 ^ 32)
def highUnsigned (x y : Word) : Word := BitVec.ofNat 32 (x.toNat * y.toNat / 2 ^ 32)
/-- The quotients and remainders of R15: by zero the quotient is all ones and the remainder the dividend. -/
def quotientS (x y : Word) : Word := if y = 0 then BitVec.allOnes 32 else BitVec.ofInt 32 (x.toInt.tdiv y.toInt)
def quotientU (x y : Word) : Word := if y = 0 then BitVec.allOnes 32 else BitVec.ofNat 32 (x.toNat / y.toNat)
def remainder (x y : Word) : Word := if y = 0 then x else BitVec.ofInt 32 (x.toInt.tmod y.toInt)
def remainderU (x y : Word) : Word := if y = 0 then x else BitVec.ofNat 32 (x.toNat % y.toNat)
def leastS (x y : Word) : Word := if x.toInt ≤ y.toInt then x else y
def greatestS (x y : Word) : Word := if x.toInt ≤ y.toInt then y else x
def leastU (x y : Word) : Word := if x.toNat ≤ y.toNat then x else y
def greatestU (x y : Word) : Word := if x.toNat ≤ y.toNat then y else x
/-- The number of zero bits above the highest set bit, of zero bits below the lowest one, of set bits (R122). -/
def leadingZeros (x : Word) : Word := BitVec.ofNat 32 ((List.range 32).takeWhile fun k => !x.getLsbD (31 - k)).length
def trailingZeros (x : Word) : Word := BitVec.ofNat 32 ((List.range 32).takeWhile fun k => !x.getLsbD k).length
def setBits (x : Word) : Word := BitVec.ofNat 32 ((List.range 32).filter fun k => x.getLsbD k).length
/-- Element j of w bits. -/
def element (w j : Nat) (x : Word) : BitVec w := x.extractLsb' (w * j) w

/-- The instructions of two scalars and what R122 gives for them. -/
noncomputable def scalarPairs : List ((BitVec 6 → BitVec 6 → BitVec 6 → Instr) × (Word → Word → Word)) :=
  [(.sadd, fun x y => x + y), (.ssub, fun x y => x - y), (.smul, fun x y => x * y), (.smulh, highSigned),
    (.smulhu, highUnsigned), (.sdiv, quotientS), (.sdivu, quotientU), (.srem, remainder), (.sremu, remainderU),
    (.sand, fun x y => x &&& y), (.sor, fun x y => x ||| y), (.sxor, fun x y => x ^^^ y), (.sandn, fun x y => x &&& ~~~y),
    (.sshl, fun x y => x <<< (y.toNat % 32)), (.sshr, fun x y => x >>> (y.toNat % 32)),
    (.ssra, fun x y => x.sshiftRight (y.toNat % 32)), (.srol, fun x y => x.rotateLeft (y.toNat % 32)), (.smin, leastS),
    (.smax, greatestS), (.sminu, leastU), (.smaxu, greatestU)]

/-- The scalar compares (R122). -/
noncomputable def scalarCompares : List ((BitVec 6 → BitVec 6 → BitVec 6 → Instr) × (Word → Word → Word)) :=
  [(.scmpEq, fun x y => truth (x = y)), (.scmpNe, fun x y => truth (x ≠ y)), (.scmpLt, fun x y => truth (x.toInt < y.toInt)),
    (.scmpLe, fun x y => truth (x.toInt ≤ y.toInt)), (.scmpLtu, fun x y => truth (x.toNat < y.toNat)),
    (.scmpLeu, fun x y => truth (x.toNat ≤ y.toNat))]

/-- The instructions of one scalar (R122); SBREV is stated bit by bit. -/
noncomputable def scalarSingles : List ((BitVec 6 → BitVec 6 → Instr) × (Word → Word)) :=
  [(.sclz, leadingZeros), (.sctz, trailingZeros), (.spopc, setBits), (.ssexb, fun x => (element 8 0 x).signExtend 32),
    (.ssexh, fun x => (element 16 0 x).signExtend 32)]

/-- The instructions of a scalar and an immediate (R125, R126). -/
noncomputable def scalarImmediates : List ((BitVec 6 → BitVec 6 → BitVec 11 → Instr) × (Word → Word → Word)) :=
  [(.saddi, fun x k => x + k), (.sandi, fun x k => x &&& k), (.sori, fun x k => x ||| k), (.sxori, fun x k => x ^^^ k),
    (.scmpiEq, fun x k => truth (x = k)), (.scmpiNe, fun x k => truth (x ≠ k)),
    (.scmpiLt, fun x k => truth (x.toInt < k.toInt)), (.scmpiLe, fun x k => truth (x.toInt ≤ k.toInt)),
    (.scmpiLtu, fun x k => truth (x.toNat < k.toNat)), (.scmpiLeu, fun x k => truth (x.toNat ≤ k.toNat)),
    (.scmpiGt, fun x k => truth (k.toInt < x.toInt)), (.scmpiGe, fun x k => truth (k.toInt ≤ x.toInt))]

/-- imm32 of R120 in the SI and the I format: the field sign-extended, or below the payload of an HIMM. -/
def immediate11 (s : State) (i : BitVec 11) : Word :=
  match s.issue.himm with
  | none => i.signExtend 32
  | some h => BitVec.ofNat 32 (h.toNat % 2 ^ 21 * 2 ^ 11 + i.toNat)
def immediate12 (s : State) (i : BitVec 12) : Word :=
  match s.issue.himm with
  | none => i.signExtend 32
  | some h => BitVec.ofNat 32 (h.toNat % 2 ^ 20 * 2 ^ 12 + i.toNat)

/-- The pair S[a+1] : S[a] (R112, R123). -/
def pairOf (s : State) (a : BitVec 6) : DWord := BitVec.ofNat 64 ((s.S a).toNat + (s.S (a + 1)).toNat * 2 ^ 32)

end Sys2Proof.Claim

open Sys2Proof.Claim

/-- R122 with R118 and R119: every 32-bit SALU instruction completes, S[d] takes the result of the table computed from the
scalars as they stood, and nothing else changes but the path's progress. -/
def Obligations.ScalarAluResults : Prop :=
  (∀ p ∈ scalarPairs, ∀ d a b s, Answers (p.1 d a b) s fun t => WritesScalar s t d (p.2 (s.S a) (s.S b))) ∧
  (∀ p ∈ scalarCompares, ∀ d a b s, Answers (p.1 d a b) s fun t => WritesScalar s t d (p.2 (s.S a) (s.S b))) ∧
  (∀ p ∈ scalarSingles, ∀ d a s, Answers (p.1 d a) s fun t => WritesScalar s t d (p.2 (s.S a))) ∧
  (∀ d a s, Answers (.sbrev d a) s fun t =>
    ∃ w : Word, WritesScalar s t d w ∧ ∀ j, j < 32 → w.getLsbD j = (s.S a).getLsbD (31 - j)) ∧
  (∀ d a b s, Answers (.ssel d a b) s fun t => WritesScalar s t d (if s.S d ≠ 0 then s.S a else s.S b))

/-- R123: the 64-bit forms write the pair S[d+1] : S[d], computed from the pairs as they stood. -/
def Obligations.ScalarPairResults : Prop :=
  (∀ d a b s, Answers (.sadd64 d a b) s fun t => WritesPair s t d (pairOf s a + pairOf s b)) ∧
  (∀ d a b s, Answers (.ssub64 d a b) s fun t => WritesPair s t d (pairOf s a - pairOf s b)) ∧
  (∀ d a b s, Answers (.sshl64 d a b) s fun t => WritesPair s t d (pairOf s a <<< ((s.S b).toNat % 64))) ∧
  (∀ d a b s, Answers (.sshr64 d a b) s fun t => WritesPair s t d (pairOf s a >>> ((s.S b).toNat % 64))) ∧
  (∀ d a s, Answers (.smov64 d a) s fun t => WritesPair s t d (pairOf s a))

/-- R125 and R126 with R120: the immediate forms and the compares against an immediate write S[d] and nothing else. -/
def Obligations.ScalarImmediateResults : Prop :=
  (∀ p ∈ scalarImmediates, ∀ d a i s, Answers (p.1 d a i) s fun t => WritesScalar s t d (p.2 (s.S a) (immediate11 s i))) ∧
  (∀ d a (c : BitVec 5) s, Answers (.sshli d a c) s fun t => WritesScalar s t d (s.S a <<< c.toNat)) ∧
  (∀ d a (c : BitVec 5) s, Answers (.sshri d a c) s fun t => WritesScalar s t d (s.S a >>> c.toNat)) ∧
  (∀ d a (c : BitVec 5) s, Answers (.ssrai d a c) s fun t => WritesScalar s t d ((s.S a).sshiftRight c.toNat)) ∧
  (∀ d i s, Answers (.sli d i) s fun t => WritesScalar s t d (immediate11 s i))

namespace Sys2Proof.Claim

/-! ## Vector results (R127 to R136) -/

/-- Whether an HSAT hint of payload 1 precedes the instruction (R89). -/
def saturates (s : State) : Bool :=
  match s.issue.hsat with
  | none => false
  | some h => h.getLsbD 0
def i32 (i : Int) : Word := BitVec.ofInt 32 i
/-- VPACKB and VPACKH (R128). -/
def packB (sat : Bool) (x y : Word) : Word :=
  let byte (v : Word) (j : Nat) : BitVec 8 :=
    if sat then BitVec.ofInt 8 (clampTo (-128) 127 (element 16 j v).toInt) else v.extractLsb' (16 * j) 8
  byte y 1 ++ byte y 0 ++ byte x 1 ++ byte x 0
def packH (sat : Bool) (x y : Word) : Word :=
  let half (v : Word) : BitVec 16 :=
    if sat then BitVec.ofInt 16 (clampTo (-32768) 32767 v.toInt) else v.extractLsb' 0 16
  half y ++ half x
/-- VDOT4 and VDOT4U (R133, R134): the exact sum, reduced or clamped once. -/
def dotS (sat : Bool) (x y t : Word) : Word :=
  let p (j : Nat) : Int := (element 8 j x).toInt * (element 8 j y).toInt
  let r := t.toInt + (p 0 + p 1 + p 2 + p 3)
  i32 (if sat then clampTo (-2 ^ 31) (2 ^ 31 - 1) r else r)
def dotU (sat : Bool) (x y t : Word) : Word :=
  let p (j : Nat) : Nat := (element 8 j x).toNat * (element 8 j y).toNat
  let r : Int := (t.toNat + (p 0 + p 1 + p 2 + p 3) : Nat)
  i32 (if sat then clampTo 0 (2 ^ 32 - 1) r else r)

/-- The vector instructions of two sources and what R127 and R128 give in each active lane. -/
noncomputable def vectorPairs :
    List ((BitVec 7 → BitVec 7 → BitVec 7 → BitVec 1 → Instr) × (State → Word → Word → Word)) :=
  [(.vadd, fun _ x y => x + y), (.vsub, fun _ x y => x - y), (.vmul, fun _ x y => x * y), (.vmulh, fun _ => highSigned),
    (.vmulhu, fun _ => highUnsigned), (.vand, fun _ x y => x &&& y), (.vor, fun _ x y => x ||| y),
    (.vxor, fun _ x y => x ^^^ y), (.vandn, fun _ x y => x &&& ~~~y), (.vshl, fun _ x y => x <<< (y.toNat % 32)),
    (.vshr, fun _ x y => x >>> (y.toNat % 32)), (.vsra, fun _ x y => x.sshiftRight (y.toNat % 32)), (.vmin, fun _ => leastS),
    (.vmax, fun _ => greatestS), (.vminu, fun _ => leastU), (.vmaxu, fun _ => greatestU),
    (.vadds, fun _ x y => i32 (clampTo (-2 ^ 31) (2 ^ 31 - 1) (x.toInt + y.toInt))),
    (.vsubs, fun _ x y => i32 (clampTo (-2 ^ 31) (2 ^ 31 - 1) (x.toInt - y.toInt))),
    (.vaddsu, fun _ x y => i32 (min (2 ^ 32 - 1) ((x.toNat : Int) + y.toNat))),
    (.vsubsu, fun _ x y => i32 (max 0 ((x.toNat : Int) - y.toNat))),
    (.vabsd, fun _ x y => i32 ((x.toInt - y.toInt).natAbs)), (.vpackb, fun s => packB (saturates s)),
    (.vpackh, fun s => packH (saturates s))]

/-- The vector compares (R132). -/
noncomputable def vectorCompares : List ((BitVec 7 → BitVec 7 → BitVec 7 → BitVec 1 → Instr) × (Word → Word → Word)) :=
  [(.vcmpEq, fun x y => truth (x = y)), (.vcmpNe, fun x y => truth (x ≠ y)),
    (.vcmpLt, fun x y => truth (x.toInt < y.toInt)), (.vcmpLe, fun x y => truth (x.toInt ≤ y.toInt)),
    (.vcmpLtu, fun x y => truth (x.toNat < y.toNat)), (.vcmpLeu, fun x y => truth (x.toNat ≤ y.toNat)),
    (.vcmpGt, fun x y => truth (y.toInt < x.toInt)), (.vcmpGe, fun x y => truth (y.toInt ≤ x.toInt)),
    (.vcmpGtu, fun x y => truth (y.toNat < x.toNat)), (.vcmpGeu, fun x y => truth (y.toNat ≤ x.toNat))]

/-- The vector instructions of one source (R127, R128); VBREV is stated bit by bit. -/
noncomputable def vectorSingles : List ((BitVec 7 → BitVec 7 → BitVec 1 → Instr) × (Word → Word)) :=
  [(.vclz, leadingZeros), (.vpopc, setBits), (.vsexb, fun x => (element 8 0 x).signExtend 32),
    (.vsexh, fun x => (element 16 0 x).signExtend 32),
    (.vunpkb, fun x => (element 8 1 x).signExtend 16 ++ (element 8 0 x).signExtend 16),
    (.vunpkh, fun x => (element 16 1 x).signExtend 32), (.vmov, fun x => x)]

/-- The immediate forms (R129). -/
noncomputable def vectorImmediates : List ((BitVec 7 → BitVec 7 → BitVec 12 → Instr) × (Word → Word → Word)) :=
  [(.vaddi, fun x k => x + k), (.vandi, fun x k => x &&& k), (.vori, fun x k => x ||| k), (.vxori, fun x k => x ^^^ k)]

/-- The shifts by an immediate (R130). -/
noncomputable def vectorShifts : List ((BitVec 7 → BitVec 7 → BitVec 5 → Instr) × (Word → Nat → Word)) :=
  [(.vshiShl, fun x c => x <<< c), (.vshiShr, fun x c => x >>> c), (.vshiSra, fun x c => x.sshiftRight c),
    (.vshiRol, fun x c => x.rotateLeft c)]

/-- The tied instructions of three sources (R133, R134). -/
noncomputable def vectorTriples :
    List ((BitVec 7 → BitVec 7 → BitVec 7 → BitVec 1 → Instr) × (State → Word → Word → Word → Word)) :=
  [(.vmad, fun _ x y t => x * y + t), (.vaddmin, fun _ x y t => leastS (x + y) t), (.vaddminu, fun _ x y t => leastU (x + y) t),
    (.vaddmax, fun _ x y t => greatestS (x + y) t), (.vsel, fun _ x y t => if t ≠ 0 then x else y),
    (.vdot4, fun s => dotS (saturates s)), (.vdot4u, fun s => dotU (saturates s)),
    (.vbfi, fun _ x y t => (x &&& y) ||| (t &&& ~~~y))]

/-- The mask instructions (R135). -/
noncomputable def maskPairs : List ((BitVec 6 → BitVec 6 → BitVec 6 → Instr) × (Bool → Bool → Bool)) :=
  [(.mand, fun x y => x && y), (.mor, fun x y => x || y), (.mxor, fun x y => x != y), (.mandn, fun x y => x && !y)]

end Sys2Proof.Claim

/-- R117 with R127, R128, R132 and R133: where every vector field can be read, the instruction completes; each active lane
takes the result of the table, computed from the registers as they stood, and the rest of the state is as before. A register
above the boundary takes REGRANGE, an absent latch LATCH. -/
def Obligations.VectorIntegerResults : Prop :=
  (∀ p ∈ vectorPairs, ∀ d a b w s, VectorReady s [d, a, b] → Answers (p.1 d a b w) s fun t =>
    WritesVector s t d w (fun i => p.2 s ((s.V a).at i) ((s.V b).at i)) ∧ SameFlags s t) ∧
  (∀ p ∈ vectorCompares, ∀ d a b w s, VectorReady s [d, a, b] → Answers (p.1 d a b w) s fun t =>
    WritesVector s t d w (fun i => p.2 ((s.V a).at i) ((s.V b).at i)) ∧ SameFlags s t) ∧
  (∀ p ∈ vectorSingles, ∀ d a w s, VectorReady s [d, a] → Answers (p.1 d a w) s fun t =>
    WritesVector s t d w (fun i => p.2 ((s.V a).at i)) ∧ SameFlags s t) ∧
  (∀ d a w s, VectorReady s [d, a] → Answers (.vbrev d a w) s fun t =>
    ∃ f : Nat → Word, WritesVector s t d w f ∧ SameFlags s t ∧
      ∀ i j, j < 32 → (f i).getLsbD j = ((s.V a).at i).getLsbD (31 - j)) ∧
  (∀ d a b w s, VectorReady s [d, a, b] → Answers (.vlane d a b w) s fun t =>
    WritesVector s t d w (fun i => (s.V a).at i + BitVec.ofNat 32 i * (s.V b).at i) ∧ SameFlags s t) ∧
  (∀ p ∈ vectorTriples, ∀ d a b w s, VectorReady s [d, a, b] → Answers (p.1 d a b w) s fun t =>
    WritesVector s t d w (fun i => p.2 s ((s.V a).at i) ((s.V b).at i) ((s.V d).at i)) ∧ SameFlags s t) ∧
  (∀ p ∈ vectorPairs, ∀ d a b w s, s.ply.supervisor = false →
    ((∃ c ∈ [d, a, b], c.toNat ≤ 119 ∧ s.ply.vregs.length ≤ c.toNat) →
      Answers (p.1 d a b w) s fun t => TrapsWithWord s t 0x07 0) ∧
    ((∀ c ∈ [d, a, b], c.toNat ≤ 119 → c.toNat < s.ply.vregs.length) →
      (∃ c ∈ [a, b], 120 ≤ c.toNat ∧ c.toNat ≤ 123 ∧ s.ply.latches.length ≤ c.toNat - 120) →
      Answers (p.1 d a b w) s fun t => TrapsWithWord s t 0x04 0))

/-- R129, R130 and R131 with R120: the immediate forms write every active lane of V[d] and the latches. -/
def Obligations.VectorImmediateResults : Prop :=
  (∀ p ∈ vectorImmediates, ∀ d a i s, VectorReady s [d, a] → Answers (p.1 d a i) s fun t =>
    WritesVector s t d 0 (fun k => p.2 ((s.V a).at k) (immediate12 s i)) ∧ SameFlags s t) ∧
  (∀ p ∈ vectorShifts, ∀ d a (c : BitVec 5) s, VectorReady s [d, a] → Answers (p.1 d a c) s fun t =>
    WritesVector s t d 0 (fun k => p.2 ((s.V a).at k) c.toNat) ∧ SameFlags s t) ∧
  (∀ d (i : BitVec 19) s, VectorReady s [d] → Answers (.vli d i) s fun t =>
    WritesVector s t d 0 (fun _ => i.signExtend 32) ∧ SameFlags s t)

/-- R135 and R136: the moves between scalars, vectors and masks. -/
def Obligations.MoveResults : Prop :=
  (∀ d a w s, VectorReady s [d] → Answers (.vbcast d a w) s fun t => WritesVector s t d w (fun _ => s.S a) ∧ SameFlags s t) ∧
  (∀ d a b s, VectorReady s [a] → Answers (.vextr d a b) s fun t =>
    WritesScalar s t d (if (s.S b).toNat < 96 then (s.V a).at (s.S b).toNat else 0)) ∧
  (∀ d a b w s, VectorReady s [d] → Answers (.vins d a b w) s fun t =>
    let k := (s.S b).toNat
    WritesVector s t d w (fun i => if i = k then s.S a else (s.V d).at i) ∧ SameFlags s t) ∧
  (∀ d a s, VectorReady s [a] → Answers (.mfromv d a) s fun t =>
    WritesMask s t d (fun i => s.active.has i && decide ((s.V a).at i ≠ 0))) ∧
  (∀ d a w s, VectorReady s [d] → Answers (.mtov d a w) s fun t =>
    WritesVector s t d w (fun i => if s.maskBit a i then 1 else 0) ∧ SameFlags s t) ∧
  (∀ d a s, Answers (.mpopc d a) s fun t =>
    WritesScalar s t d (BitVec.ofNat 32 ((List.range 96).filter fun i => s.maskBit a i).length)) ∧
  (∀ d a s, Answers (.mffs d a) s fun t =>
    WritesScalar s t d (BitVec.ofNat 32 (((List.range 96).find? fun i => s.maskBit a i).getD 96))) ∧
  (∀ p ∈ maskPairs, ∀ d a b s, Answers (p.1 d a b) s fun t =>
    WritesMask s t d (fun i => p.2 (s.maskBit a i) (s.maskBit b i)))

namespace Sys2Proof.Claim

/-! ## Float and lane results (R138 to R156) -/

/-- A float result: each active lane takes the code that f gives, and ORs its flags into %fflags (R26, R138). -/
def FloatResult (s t : State) (d : BitVec 7) (nw : BitVec 1) (f : Nat → Nat × BitVec 6) : Prop :=
  WritesVector s t d nw (fun i => BitVec.ofNat 32 (f i).1) ∧ RaisesFlags s t fun i => (f i).2

/-- The code of 1 or 0 for an outcome with its flags. -/
def coded (r : Bool × BitVec 6) : Nat × BitVec 6 := (if r.1 then 1 else 0, r.2)
/-- An operation on both 16-bit elements of a word (R149). -/
def bothHalves (f : Nat → Nat → Nat → Nat × BitVec 6) (x y t : Nat) : Nat × BitVec 6 :=
  let lo := f (x % 2 ^ 16) (y % 2 ^ 16) (t % 2 ^ 16)
  let hi := f (x / 2 ^ 16) (y / 2 ^ 16) (t / 2 ^ 16)
  (hi.1 * 2 ^ 16 + lo.1, hi.2 ||| lo.2)
/-- The code with its sign bit inverted. -/
def negated (x : Nat) : Nat := if x / 2 ^ 31 % 2 = 0 then x + 2 ^ 31 else x - 2 ^ 31

/-- The float instructions of two sources (R140, R143, R149), in the mode of R22. -/
noncomputable def floatPairs :
    List ((BitVec 7 → BitVec 7 → BitVec 7 → BitVec 1 → Instr) × (Mode → Nat → Nat → Nat × BitVec 6)) :=
  [(.fadd, fp32.add), (.fsub, fp32.sub), (.fmul, fp32.mul), (.fdiv, fp32.div), (.fmin, fun _ => fp32.minmax false false),
    (.fmax, fun _ => fp32.minmax true false), (.fminn, fun _ => fp32.minmax false true),
    (.fmaxn, fun _ => fp32.minmax true true), (.hadd2, fun m x y => bothHalves (fun x y _ => fp16.add m x y) x y 0),
    (.hsub2, fun m x y => bothHalves (fun x y _ => fp16.sub m x y) x y 0),
    (.hmul2, fun m x y => bothHalves (fun x y _ => fp16.mul m x y) x y 0),
    (.hmin2, fun _ x y => bothHalves (fun x y _ => fp16.minmax false false x y) x y 0),
    (.hmax2, fun _ x y => bothHalves (fun x y _ => fp16.minmax true false x y) x y 0),
    (.badd2, fun m x y => bothHalves (fun x y _ => bf16.add m x y) x y 0),
    (.bmul2, fun m x y => bothHalves (fun x y _ => bf16.mul m x y) x y 0)]

/-- The float compares (R143): equal, not equal, less, less or equal, greater, greater or equal, unordered, ordered. -/
noncomputable def floatCompares : List ((BitVec 7 → BitVec 7 → BitVec 7 → BitVec 1 → Instr) × Nat) :=
  [(.fcmpEq, 0), (.fcmpNe, 1), (.fcmpLt, 2), (.fcmpLe, 3), (.fcmpGt, 4), (.fcmpGe, 5), (.fcmpUn, 6), (.fcmpOrd, 7)]

/-- The float instructions of one source (R140, R141), on the value of its code. -/
noncomputable def floatSingles : List ((BitVec 7 → BitVec 7 → BitVec 1 → Instr) × (Mode → Nat → Nat × BitVec 6)) :=
  [(.ffloor, fun _ => fp32.integral 3 false), (.fceil, fun _ => fp32.integral 2 false),
    (.ftrunc, fun _ => fp32.integral 1 false), (.frint, fun m => fp32.integral m true), (.fsqrt, fp32.sqrt),
    (.frcp, fun m x => fp32.rcpV m (fp32.value x)), (.frsq, fun m x => fp32.rsqV m (fp32.value x)),
    (.fexp2, fun m x => fp32.exp2V m (fp32.value x)), (.flog2, fun m x => fp32.log2V m (fp32.value x)),
    (.fsin, fun m x => fp32.sinV m (fp32.value x)), (.fcos, fun m x => fp32.cosV m (fp32.value x)),
    (.ftanh, fun m x => fp32.tanhV m (fp32.value x)), (.fsigm, fun m x => fp32.sigmV m (fp32.value x))]

/-- The tied float instructions (R142, R149): the third source is the old destination. -/
noncomputable def floatTriples :
    List ((BitVec 7 → BitVec 7 → BitVec 7 → BitVec 1 → Instr) × (Mode → Nat → Nat → Nat → Nat × BitVec 6)) :=
  [(.fma, fp32.fma), (.fms, fun m x y t => fp32.fma m x y (negated t)), (.fnma, fun m x y t => fp32.fma m (negated x) y t),
    (.hfma2, fun m => bothHalves (fp16.fma m)), (.bfma2, fun m => bothHalves (bf16.fma m))]

/-- The minimum or maximum of a sum and t, with the flags of both steps (R25, R142). -/
def sumExtreme (greatest : Bool) (m : Mode) (x y t : Nat) : Nat × BitVec 6 :=
  let r := fp32.add m x y
  let e := fp32.minmax greatest true r.1 t
  (e.1, r.2 ||| e.2)
/-- RNE, or the mode of an HRND hint (R25). -/
def nearestMode (s : State) : Mode :=
  match s.issue.hrnd with
  | none => 0
  | some h => h.toNat % 8

/-- The movements of R152 by an immediate n: what active lane i takes, given every lane. -/
noncomputable def laneMoves : List ((BitVec 7 → BitVec 7 → BitVec 7 → BitVec 1 → Instr) × (Nat → (Nat → Word) → Nat → Word)) :=
  [(.lshup, fun n x i => if n ≤ i then x (i - n) else 0), (.lshdn, fun n x i => if i + n ≤ 95 then x (i + n) else 0),
    (.lrot, fun n x i => x ((i + (96 - n)) % 96)), (.lbcast, fun n x _ => x n),
    (.lquad, fun n x i => if n ≤ 2 then x (i ^^^ (n + 1)) else x (4 * (i / 4) + n - 3))]

/-- The derivatives of R153: the two lanes of quad q whose difference lane i takes, first minus second. -/
noncomputable def derivatives : List ((BitVec 7 → BitVec 7 → BitVec 1 → Instr) × (Nat → Nat × Nat)) :=
  [(.derivx, fun i => let q := 4 * (i / 4); let r := i / 2 % 2; (q + 2 * r + 1, q + 2 * r)),
    (.derivy, fun i => let q := 4 * (i / 4); let c := i % 2; (q + 2 + c, q + c)),
    (.derivxc, fun i => let q := 4 * (i / 4); (q + 1, q)), (.derivyc, fun i => let q := 4 * (i / 4); (q + 2, q))]

/-- The active lanes in ascending order. -/
def activeLanes (s : State) : List Nat := (List.range 96).filter fun i => s.active.has i
/-- The fold of R155 over some lanes, ascending, from the lowest lane's value: its value and the flags of its steps. -/
def foldOf (o : BitVec 4) (x : Nat → Word) : List Nat → Word × BitVec 6
  | [] => (0, 0)
  | i :: l => l.foldl (fun r j => let v := foldStep o r.1 (x j); (v.1, r.2 ||| v.2)) (x i, 0)

end Sys2Proof.Claim

/-- R140 to R143, R146, R147 and R149 with R138: where every field can be read, a float instruction completes: each active lane
takes the code its operation gives in the mode of R22, the flags of the active lanes enter %fflags, and the rest of the state
is as before. FCOPYSIGN, FABS, FNEG and FCLASS raise no flag. Model's choices in it: log 13. -/
def Obligations.FloatResults : Prop :=
  (∀ p ∈ floatPairs, ∀ d a b w s, VectorReady s [d, a, b] → Answers (p.1 d a b w) s fun t =>
    FloatResult s t d w fun i => p.2 s.mode ((s.V a).at i).toNat ((s.V b).at i).toNat) ∧
  (∀ p ∈ floatCompares, ∀ d a b w s, VectorReady s [d, a, b] → Answers (p.1 d a b w) s fun t =>
    FloatResult s t d w fun i => coded (fp32.compare p.2 ((s.V a).at i).toNat ((s.V b).at i).toNat)) ∧
  (∀ p ∈ floatSingles, ∀ d a w s, VectorReady s [d, a] → Answers (p.1 d a w) s fun t =>
    FloatResult s t d w fun i => p.2 s.mode ((s.V a).at i).toNat) ∧
  (∀ p ∈ floatTriples, ∀ d a b w s, VectorReady s [d, a, b] → Answers (p.1 d a b w) s fun t =>
    FloatResult s t d w fun i => p.2 s.mode ((s.V a).at i).toNat ((s.V b).at i).toNat ((s.V d).at i).toNat) ∧
  (∀ d a b w s, VectorReady s [d, a, b] → Answers (.faddmin d a b w) s fun t => FloatResult s t d w fun i =>
    sumExtreme false (nearestMode s) ((s.V a).at i).toNat ((s.V b).at i).toNat ((s.V d).at i).toNat) ∧
  (∀ d a b w s, VectorReady s [d, a, b] → Answers (.faddmax d a b w) s fun t => FloatResult s t d w fun i =>
    sumExtreme true (nearestMode s) ((s.V a).at i).toNat ((s.V b).at i).toNat ((s.V d).at i).toNat) ∧
  (∀ d a b w s, VectorReady s [d, a, b] → Answers (.fcopysign d a b w) s fun t => SameFlags s t ∧
    WritesVector s t d w fun i => ((s.V b).at i).extractLsb' 31 1 ++ ((s.V a).at i).extractLsb' 0 31) ∧
  (∀ d a w s, VectorReady s [d, a] → Answers (.fabs d a w) s fun t => SameFlags s t ∧
    WritesVector s t d w fun i => (0 : BitVec 1) ++ ((s.V a).at i).extractLsb' 0 31) ∧
  (∀ d a w s, VectorReady s [d, a] → Answers (.fneg d a w) s fun t => SameFlags s t ∧
    WritesVector s t d w fun i => ~~~(((s.V a).at i).extractLsb' 31 1) ++ ((s.V a).at i).extractLsb' 0 31) ∧
  (∀ d a w s, VectorReady s [d, a] → Answers (.fclass d a w) s fun t => SameFlags s t ∧
    WritesVector s t d w fun i => BitVec.ofNat 32 (fclass ((s.V a).at i).toNat))

/-- R145 to R147: the conversions. A mode field of 7 stands for %frnd, an HRND hint precedes both; FCVT to a narrow format
replaces one element of the destination. Model's choices in it: log 30. -/
def Obligations.ConversionResults : Prop :=
  (∀ d a (i : BitVec 5) (z : BitVec 1) (m : BitVec 3) w s, i.toNat < 20 → VectorReady s [d, a] →
    Answers (.fcvt d a i z m w) s fun t => FloatResult s t d w fun k =>
      let f := (narrowing i.toNat).1
      let sh := f.width * (narrowing i.toNat).2
      let r := f.convert (s.mode (if m = 7 then none else some m.toNat)) (z = 1 || saturates s) (fp32.value ((s.V a).at k).toNat)
      let old := ((s.V d).at k).toNat
      (old - old / 2 ^ sh % 2 ^ f.width * 2 ^ sh + r.1 * 2 ^ sh, r.2)) ∧
  (∀ d a (i : BitVec 5) (z : BitVec 1) (m : BitVec 3) w s, 20 ≤ i.toNat → VectorReady s [d, a] →
    Answers (.fcvt d a i z m w) s fun t => FloatResult s t d w fun k =>
      let f := widening i.toNat
      fp32.convert (s.mode (if m = 7 then none else some m.toNat)) false (f.value (((s.V a).at k).toNat % 2 ^ f.width))) ∧
  (∀ d a (i : BitVec 5) (m : BitVec 3) w s, VectorReady s [d, a] →
    Answers (.fcvti d a i m w) s fun t => FloatResult s t d w fun k =>
      let (f, lo, hi) := toIntPair i.toNat
      let r := toInteger (s.mode (if m = 7 then none else some m.toNat)) lo hi (f.value (((s.V a).at k).toNat % 2 ^ f.width))
      ((i32 r.1).toNat, r.2)) ∧
  (∀ d a (i : BitVec 5) (m : BitVec 3) w s, VectorReady s [d, a] →
    Answers (.icvtf d a i m w) s fun t => FloatResult s t d w fun k =>
      let f := if i.toNat < 2 then fp32 else if i.toNat < 4 then fp16 else bf16
      f.ofInt (s.mode (if m = 7 then none else some m.toNat))
        (if i.toNat % 2 = 0 then ((s.V a).at k).toInt else ((s.V a).at k).toNat))

/-- R21: each mode rounds the magnitude m / 2^k of a value to the integer that the rule names, and says whether it was exact. -/
def Obligations.RoundingModes : Prop :=
  ∀ (neg : Bool) (m k : Nat), 0 < k →
    (∀ mode, (roundShift mode neg m k).2 = decide (m % 2 ^ k ≠ 0)) ∧
    (let n := (roundShift 0 neg m k).1
     (2 * m ≤ 2 * n * 2 ^ k + 2 ^ k ∧ 2 * n * 2 ^ k ≤ 2 * m + 2 ^ k) ∧
      (2 * m = 2 * n * 2 ^ k + 2 ^ k ∨ 2 * n * 2 ^ k = 2 * m + 2 ^ k → n % 2 = 0)) ∧
    (let n := (roundShift 1 neg m k).1
     n * 2 ^ k ≤ m ∧ m < (n + 1) * 2 ^ k) ∧
    (let n := (roundShift (if neg then 3 else 2) neg m k).1
     m ≤ n * 2 ^ k ∧ n * 2 ^ k < m + 2 ^ k) ∧
    (let n := (roundShift (if neg then 2 else 3) neg m k).1
     n * 2 ^ k ≤ m ∧ m < (n + 1) * 2 ^ k) ∧
    (let n := (roundShift 4 neg m k).1
     2 * m < 2 * n * 2 ^ k + 2 ^ k ∧ 2 * n * 2 ^ k ≤ 2 * m + 2 ^ k)

/-- R150 to R156: the lane instructions. A source lane supplies its value as it stands, whatever its activity; only active
lanes are written; the derivatives set derv where a lane read is inactive. -/
def Obligations.LaneResults : Prop :=
  (∀ p ∈ laneMoves, ∀ d a (n : BitVec 7) w s, n.toNat ≤ 95 → VectorReady s [d, a] → Answers (p.1 d a n w) s fun t =>
    WritesVector s t d w (p.2 n.toNat (s.V a).at) ∧ SameFlags s t) ∧
  (∀ d a b w s, VectorReady s [d, a, b] → Answers (.lperm d a b w) s fun t =>
    WritesVector s t d w (fun i => if ((s.V b).at i).toNat < 96 then (s.V a).at ((s.V b).at i).toNat else 0) ∧ SameFlags s t) ∧
  (∀ p ∈ derivatives, ∀ d a w s, VectorReady s [d, a] → Answers (p.1 d a w) s fun t =>
    FloatResult s t d w fun i =>
      let (p, q) := p.2 i
      let r := fp32.sub s.mode ((s.V a).at p).toNat ((s.V a).at q).toNat
      (r.1, if s.active.has p && s.active.has q then r.2 else r.2 ||| flagDERV)) ∧
  (∀ d a b w s, VectorReady s [d, a, b] → Answers (.lmatch d a b w) s fun t => SameFlags s t ∧
    WritesVector s t d w fun i =>
      let same := (activeLanes s).filter fun j => (s.V a).at j == (s.V a).at i && (s.V b).at j == (s.V b).at i
      let rank := (same.filter fun j => decide (j < i)).length
      BitVec.ofNat 32 (rank * 2 ^ 16 + same.length * 2 ^ 8 + same.headD 0)) ∧
  (∀ d a (o : BitVec 4) w s, VectorReady s [d, a] → Answers (.lred d a o w) s fun t =>
    let r := foldOf o (s.V a).at (activeLanes s)
    WritesVector s t d w (fun _ => r.1) ∧ t.ply.fflags = s.ply.fflags ||| r.2) ∧
  (∀ d a (o : BitVec 4) w s, VectorReady s [d, a] → Answers (.lscan d a 0 o w) s fun t =>
    WritesVector s t d w (fun i => (foldOf o (s.V a).at ((activeLanes s).filter fun j => decide (j ≤ i))).1) ∧
      t.ply.fflags = s.ply.fflags ||| (foldOf o (s.V a).at (activeLanes s)).2) ∧
  (∀ d a (o : BitVec 4) w s, VectorReady s [d, a] → Answers (.lscan d a 1 o w) s fun t =>
    WritesVector s t d w (fun i => (foldOf o (s.V a).at ((activeLanes s).filter fun j => decide (j < i))).1) ∧
      t.ply.fflags = s.ply.fflags ||| (foldOf o (s.V a).at (activeLanes s).dropLast).2) ∧
  (∀ d a (c : BitVec 2) w s, VectorReady s [d, a] → Answers (.lvote d a c w) s fun t => SameFlags s t ∧
    WritesVector s t d w fun _ =>
      let vs := (activeLanes s).map fun i => (s.V a).at i
      if c = 0 then truth (∃ v ∈ vs, v ≠ 0)
      else if c = 1 then truth (∀ v ∈ vs, v ≠ 0)
      else if c = 2 then truth (∀ v ∈ vs, v = vs.headD 0)
      else BitVec.ofNat 32 (vs.filter fun v => v != 0).length)

namespace Sys2Proof.Claim

/-! ## Control (R158 to R167) -/

/-- The address k words after the first word of the unit: a PC has 60 bits, its low two zero (R72). -/
def wordsOn (s : State) (k : Nat) : DWord := (s.issue.first + BitVec.ofNat 64 (4 * k)) &&& 0x0FFFFFFFFFFFFFFC
/-- The address of the instruction word: the last word of the unit. -/
def wordAddress (s : State) : DWord := wordsOn s (s.issue.words - 1)
/-- The link of a call: the word after the trailer (R159). -/
def linkOf (s : State) : DWord := (wordAddress s + 8) &&& 0x0FFFFFFFFFFFFFFC
/-- The target of a relative transfer: a count of words from the transfer word, above the field an HLONG payload (R91, R158). -/
def relativeTarget {w : Nat} (s : State) (o : BitVec w) : DWord :=
  match s.issue.hlong with
  | none => wordAddress s + BitVec.ofInt 64 (4 * o.toInt)
  | some h => wordAddress s + BitVec.ofInt 64 (4 * (h ++ o).toInt)
/-- Bits [63:60] of a target are zero (R72). -/
def canonical (a : DWord) : Prop := a.toNat < 2 ^ 60

/-- The branches of R159 on a scalar, and when each is taken. -/
noncomputable def branches : List ((BitVec 6 → BitVec 16 → Instr) × (Int → Bool)) :=
  [(.brZ, fun i => i == 0), (.brNz, fun i => i != 0), (.brLtz, fun i => decide (i < 0)), (.brGez, fun i => decide (0 ≤ i)),
    (.brGtz, fun i => decide (0 < i)), (.brLez, fun i => decide (i ≤ 0))]

/-- The branches of R159 on a mask triple, over the active lanes. -/
noncomputable def maskBranches : List ((BitVec 6 → BitVec 16 → Instr) × (List Bool → Bool)) :=
  [(.brmAny, fun l => l.any id), (.brmNone, fun l => l.all not), (.brmAll, fun l => l.all id)]

/-- The bits of a triple at the active lanes, ascending. -/
def activeBits (s : State) (m : BitVec 6) : List Bool := (activeLanes s).map fun i => s.maskBit m i

/-- A branch to o, taken or not (R158): a target that is not canonical raises NONCANON at the branch. -/
def branchOutcome (i : Instr) (s : State) (taken : Bool) (target : DWord) : Prop :=
  (taken = false → Answers i s fun t => Decides s t .none) ∧
  (taken = true → canonical target → Answers i s fun t => Decides s t (.goto target)) ∧
  (taken = true → ¬canonical target → s.ply.supervisor = false → Answers i s fun t =>
    TakesTrap s t s.issue.first s.ply.pos 0x09 0 0 target 127)

end Sys2Proof.Claim

/-- R158 and R159: each branch and jump decides its outcome when it issues. A taken one goes to its target, one not taken to the
word after the trailer; a link is the address of the transfer word + 8; a target that is not canonical raises NONCANON, a
canonical register target that is not aligned ALIGN, at the jump and at the call alike, and nothing else then takes effect. Model's choices in it: log 24, 25. -/
def Obligations.TransferResults : Prop :=
  (∀ p ∈ branches, ∀ a o s, branchOutcome (p.1 a o) s (p.2 (s.S a).toInt) (relativeTarget s o)) ∧
  (∀ p ∈ maskBranches, ∀ m o s, branchOutcome (p.1 m o) s (p.2 (activeBits s m)) (relativeTarget s o)) ∧
  (∀ o s, branchOutcome (.jmp o) s true (relativeTarget s o)) ∧
  (∀ o s,
    (canonical (relativeTarget s o) → Answers (.call o) s fun t =>
      DecidesLinking s t (.goto (relativeTarget s o)) (linkOf s)) ∧
    (¬canonical (relativeTarget s o) → s.ply.supervisor = false → Answers (.call o) s fun t =>
      TakesTrap s t s.issue.first s.ply.pos 0x09 0 0 (relativeTarget s o) 127)) ∧
  (∀ (f : BitVec 6 → Instr), f = .jmpr ∨ f = .ret → ∀ p s, canonical (s.S64 p) → (s.S64 p).toNat % 4 = 0 →
    Answers (f p) s fun t => Decides s t (.goto (s.S64 p))) ∧
  (∀ p s, canonical (s.S64 p) → (s.S64 p).toNat % 4 = 0 → Answers (.callr p) s fun t =>
    DecidesLinking s t (.goto (s.S64 p)) (linkOf s)) ∧
  (∀ (f : BitVec 6 → Instr), f = .jmpr ∨ f = .ret ∨ f = .callr → ∀ p s, s.ply.supervisor = false →
    (¬canonical (s.S64 p) → Answers (f p) s fun t => TakesTrap s t s.issue.first s.ply.pos 0x09 0 0 (s.S64 p) 127) ∧
    (canonical (s.S64 p) → (s.S64 p).toNat % 4 ≠ 0 → Answers (f p) s fun t =>
      TakesTrap s t s.issue.first s.ply.pos 0x08 0 0 (s.S64 p) 127))

/-- R161 and R162 at issue: DIVB reads the taken set; with none taken it goes on, with nothing left it goes to the target,
and otherwise it decides a split, or raises DSTACK where neither a slot nor the stack has room. JOIN decides a join. That a target
which is not canonical raises NONCANON before DSTACK, and that a join address keeps its low 60 bits, is the model's choice.
Model's choices in it: log 28. -/
def Obligations.DivergenceDecisions : Prop :=
  (∀ s, Answers .join s fun t => Decides s t .join) ∧
  (∀ m (tt jj : BitVec 10) s,
    let taken : Mask := s.triple m &&& s.path.active
    let rest : Mask := s.path.member &&& ~~~taken
    let target := wordAddress s + BitVec.ofInt 64 (4 * tt.toInt)
    let join := wordAddress s + BitVec.ofInt 64 (4 * jj.toInt)
    (taken = 0 → Answers (.divb m tt jj) s fun t => Decides s t .none) ∧
    (taken ≠ 0 → canonical target → rest = 0 → Answers (.divb m tt jj) s fun t => Decides s t (.goto target)) ∧
    (taken ≠ 0 → canonical target → rest ≠ 0 → ((s.ply.path s.ply.other).member = 0 ∨ s.ply.dstack.length ≠ 64) →
      Answers (.divb m tt jj) s fun t => Decides s t (.split taken target (join &&& 0x0FFFFFFFFFFFFFFC))) ∧
    (taken ≠ 0 → ¬canonical target → s.ply.supervisor = false → Answers (.divb m tt jj) s fun t =>
      TakesTrap s t s.issue.first s.ply.pos 0x09 0 0 target 127) ∧
    (taken ≠ 0 → canonical target → rest ≠ 0 → (s.ply.path s.ply.other).member ≠ 0 → s.ply.dstack.length = 64 →
      s.ply.supervisor = false → Answers (.divb m tt jj) s fun t => TrapsWithWord s t 0x10 0))

namespace Sys2Proof.Claim

/-- The codes of a trailer can be awaited (R86). -/
def codesInRange (s : State) (codes : List (BitVec 7)) : Prop :=
  ∀ c ∈ codes, c.toNat ≤ 119 → c.toNat < s.ply.vregs.length

/-- The run is over (R88): the next one begins at position 0 with empty latches, and %yc counts the trailer's words. -/
def RunOver (s t : State) : Prop :=
  t.ply.slot = s.ply.slot ∧ t.ply.running = false ∧ t.ply.pos = 0 ∧ t.ply.latches = [] ∧
  t.ply.yc = s.ply.yc + BitVec.ofNat 14 s.issue.words

/-- Whether a code names a pending result (R86): a register, a pair of tiles that the ply holds, or every scalar result. -/
def namesResult (s : State) (r : Pending) (c : BitVec 7) : Prop :=
  (c.toNat ≤ 119 ∧ c.toNat ∈ r.vectors) ∨
  (120 ≤ c.toNat ∧ c.toNat ≤ 123 ∧ ∃ k ∈ r.tiles, k < s.ply.tiles.length ∧ k / 2 = c.toNat - 120) ∨
  (c.toNat = 126 ∧ r.scalars ≠ [])
/-- A path awaits what the codes of its trailer name now: results that it issued, and with 126 those of the ply (R86, R104). -/
def AwaitsNamed (s : State) (codes : List (BitVec 7)) (q : Path) : Prop :=
  ∀ n, n ∈ q.awaited ↔ ∃ r ∈ s.pending s.ply, r.seq = n ∧ ∃ c ∈ codes, (r.slot = s.ply.slot ∨ c = 126) ∧ namesResult s r c

/-- The words of the newest record as a pop reads them (R102, R249): those of memory at the current save area, or those that were
pushed there, at 0x400 + 48 × the number of records below. -/
def RecordWord (u : State) (r : DivRecord) (k : Nat) (w : Word) : Prop :=
  match u.readVirt u.ply.core u.ply.tenant (u.ply.ssave + 0x400 + BitVec.ofNat 64 (48 * (u.ply.dstack.length - 1))) 48 with
  | .error _ => w = r.words.getD k 0
  | .ok b => (∀ j, j < 4 → w.extractLsb' (8 * j) 8 = b.getD (4 * k + j) 0) ∨ (r.base = u.ply.ssave ∧ w = r.words.getD k 0)
/-- After a trailer slot k, where it is free, takes the newest record (R163): PC, membership, activity and frame; with none stacked,
or with a path in the slot, nothing changes. -/
def PopsInto (k : Nat) (u v : State) : Prop :=
  ((u.ply.path k).member ≠ 0 ∨ u.ply.dstack = [] → v = u) ∧
  (∀ l r, (u.ply.path k).member = 0 → u.ply.dstack = l ++ [r] → ∃ w : Nat → Word, (∀ n, n < 12 → RecordWord u r n (w n)) ∧
    let q := v.ply.path k
    q.pc = ((w 1 ++ w 0 : BitVec 64) &&& 0x0FFFFFFFFFFFFFFC) ∧
    (∀ i, i < 96 → q.member.has i = (w (4 + i / 32)).getLsbD (i % 32) ∧ q.active.has i = (w (7 + i / 32)).getLsbD (i % 32)) ∧
    q.frame = (if (w 10).toNat % 256 = 0xFF then none else some ((w 10).toNat % 256)) ∧
    q.awaited = [] ∧ q.wait = .none ∧ q.transfer = .none ∧
    v.ply.path (1 - k) = u.ply.path (1 - k) ∧
    v = { u with ply := { u.ply with path0 := v.ply.path0, path1 := v.ply.path1, dstack := l } })
/-- Both slots in turn. -/
def Pops (u t : State) : Prop := ∃ v, PopsInto 0 u v ∧ PopsInto 1 v t

/-- The other path, the frames and the records are as before. -/
def SameDivergence (s u : State) : Prop :=
  u.ply.path u.ply.other = s.ply.path s.ply.other ∧ u.ply.frames = s.ply.frames ∧ u.ply.dstack = s.ply.dstack
/-- n is the lowest index that no live frame has (R160). -/
def lowestFree (l : List Frame) (n : Nat) : Prop := (∀ g ∈ l, g.index ≠ n) ∧ ∀ m, m < n → ∃ g ∈ l, g.index = m
/-- The words of a pushed record (R102). -/
def pushedWords (target join : DWord) (lanes : Mask) (n : Nat) : List Word :=
  let m (k : Nat) : Word := lanes.extractLsb' (32 * k) 32
  [target.extractLsb' 0 32, target.extractLsb' 32 32, join.extractLsb' 0 32, join.extractLsb' 32 32, m 0, m 1, m 2, m 0, m 1, m 2,
    BitVec.ofNat 32 n, 0]

end Sys2Proof.Claim

/-- R86, R88, R104, R158 and R160 to R163: END ends the run, the results that its codes name are awaited, and the decided transfer
takes effect: the path goes on after it, or at the target, or its halves stand in the two slots, or the taken half is pushed as a
record where the other slot holds a path, or a half is parked in its frame, or two halves merge and the frame ends; a JOIN
without a frame goes on. A new frame takes the lowest free index. Then each free slot takes the newest record. A code above the
boundary takes REGRANGE. u is the state between the transfer and the pops. -/
def Obligations.EndOfRun : Prop :=
  (∀ (w x y : BitVec 7) s, ¬codesInRange s [w, x, y] → s.ply.supervisor = false →
    Answers (.endRun w x y) s fun t => TrapsWithWord s t 0x07 0) ∧
  (∀ (w x y : BitVec 7) s, codesInRange s [w, x, y] → Answers (.endRun w x y) s fun t => RunOver s t ∧
    ∃ u, RunOver s u ∧ Pops u t ∧
      (s.path.transfer = .none → OnlyPly s u ∧ SameDivergence s u ∧ AwaitsNamed s [w, x, y] u.path ∧
        u.path.pc = wordsOn s s.issue.words ∧ u.path.member = s.path.member ∧ u.path.active = s.path.active ∧
        u.path.frame = s.path.frame) ∧
      (∀ a, s.path.transfer = .goto a → OnlyPly s u ∧ SameDivergence s u ∧ AwaitsNamed s [w, x, y] u.path ∧
        u.path.pc = a ∧ u.path.transfer = .none ∧ u.path.member = s.path.member ∧ u.path.active = s.path.active ∧
        u.path.frame = s.path.frame) ∧
      (∀ tk a j, s.path.transfer = .split tk a j → s.ply.slot ≤ 1 → s.ply.frames.length ≤ 95 →
        AwaitsNamed s [w, x, y] u.path ∧ u.path.pc = wordsOn s s.issue.words ∧
        u.path.member = s.path.member &&& ~~~tk ∧ u.path.active = s.path.active &&& ~~~tk ∧
        ∃ n, lowestFree s.ply.frames n ∧ u.path.frame = some n ∧
          u.ply.frames = s.ply.frames ++ [⟨n, j, s.path.member, false, 0, 0, s.path.frame⟩] ∧
          ((s.ply.path s.ply.other).member = 0 → OnlyPly s u ∧ u.ply.dstack = s.ply.dstack ∧
            let q := u.ply.path u.ply.other
            q.pc = a ∧ q.member = tk ∧ q.active = tk ∧ q.frame = some n ∧ AwaitsNamed s [w, x, y] q) ∧
          ((s.ply.path s.ply.other).member ≠ 0 → u.ply.path u.ply.other = s.ply.path s.ply.other ∧
            u.ply.dstack = s.ply.dstack ++ [⟨s.ply.ssave, pushedWords a j tk n⟩] ∧
            ∃ v : State, v = { s with ply := v.ply } ∧
              u = { v.writeVirt 0 s.ply.core s.ply.tenant
                    (s.ply.ssave + 0x400 + BitVec.ofNat 64 (48 * s.ply.dstack.length))
                    ((pushedWords a j tk n).flatMap fun w => (List.range 4).map fun k => w.extractLsb' (8 * k) 8) with
                  ply := u.ply })) ∧
      (s.path.transfer = .join → s.path.frame = none → OnlyPly s u ∧ SameDivergence s u ∧
        u.path.pc = wordsOn s s.issue.words ∧ u.path.member = s.path.member ∧ u.path.active = s.path.active ∧
        u.path.frame = none) ∧
      (∀ f, s.path.transfer = .join → s.path.frame = some f.index →
        s.ply.frames.find? (fun g => g.index == f.index) = some f →
        OnlyPly s u ∧ u.ply.path u.ply.other = s.ply.path s.ply.other ∧ u.ply.dstack = s.ply.dstack ∧
        (f.parked = false → u.path.member = 0 ∧
          ({ f with parked := true, parkedMember := s.path.member, parkedActive := s.path.active } : Frame) ∈ u.ply.frames ∧
          u.ply.frames.length = s.ply.frames.length ∧
          ∀ g, g.index ≠ f.index → (g ∈ u.ply.frames ↔ g ∈ s.ply.frames)) ∧
        (f.parked = true → u.path.pc = f.join ∧
          u.path.member = s.path.member ||| f.parkedMember ∧ u.path.active = s.path.active ||| f.parkedActive ∧
          u.path.frame = f.outer ∧ (∀ g ∈ u.ply.frames, g.index ≠ f.index) ∧
          ∀ g, g.index ≠ f.index → (g ∈ u.ply.frames ↔ g ∈ s.ply.frames))))

/-- R164, R165, R167 and R93: NOP changes nothing but the run position and %yc; TRAP takes BREAK with its code, returning after
it; an illegal word takes ILLEGAL with the words it names; ERET at user privilege takes PRIV, and at supervisor privilege
resumes the faulting path at %epc and %erun with the saved latches, every other register as before. Model's choices in it: log
15, 22, 23. -/
def Obligations.TrapsAndReturn : Prop :=
  (∀ s, Answers .nop s fun t => ScalarFrame s t ∧ ∀ r, t.S r = s.S r) ∧
  (∀ (c : BitVec 12) s, s.ply.supervisor = false → Answers (.trap c) s fun t =>
    TakesTrap s t (wordsOn s s.issue.words) (s.ply.pos + s.issue.words) 0x06 0 c.toNat (wordAddress s) 127) ∧
  (∀ s, s.ply.supervisor = false → Answers .eret s fun t => TrapsWithWord s t 0x02 0) ∧
  (∀ sub pos word other s, s.ply.supervisor = false → Answers (.illegalWord sub pos word other) s fun t =>
    TakesTrap s t s.issue.first s.ply.pos 0x01 sub pos (other ++ word) 127) ∧
  (∀ s, s.ply.supervisor = true → Answers .eret s fun t =>
    OnlyPly s t ∧ t.ply.supervisor = false ∧ t.path.pc = s.ply.epc ∧ t.ply.pos = s.ply.erun.toNat ∧
    t.ply.latches = s.ply.savedLatches ∧ t.ply.running = true ∧
    t.path.member = s.path.member ∧ t.path.active = s.path.active ∧ t.path.frame = s.path.frame ∧
    t.ply.path t.ply.other = s.ply.path s.ply.other ∧ (∀ r, t.S r = s.S r) ∧
    t.ply = { s.ply with
      supervisor := false, pos := t.ply.pos, latches := t.ply.latches, running := true, path0 := t.ply.path0
      path1 := t.ply.path1, yc := t.ply.yc, runSince := t.ply.runSince })

namespace Sys2Proof.Claim

/-- Whether the privilege reaches a special register (R113). -/
def reaches (s : State) (i : BitVec 12) : Prop := i.toNat < 0x100 ∨ (i.toNat < 0x200 ∧ s.ply.supervisor = true)

/-- A unit that changes of the ply what p lists, and nothing else but the path's progress. -/
def OnlyField (s t : State) (p : Ply) : Prop :=
  OnlyPly s t ∧ Advanced s t ∧ PathsKept s t ∧ t.path.active = s.path.active ∧
  t.ply = { p with path0 := t.ply.path0, path1 := t.ply.path1, pos := t.ply.pos, yc := t.ply.yc }

end Sys2Proof.Claim

/-- R111 to R113: GETS reads a special register into S[d], a pair into S[d+1] : S[d], and into s0 reads nothing; SETS writes the RW
fields of the register that it names and leaves a field where its rule says so, and a read-only register whole; either takes
PRIV where the register is supervisor-only and the ply is not; and what the special registers of the ply read. That a SETS of
%elane takes any value of its 7 bits is the model's choice. Model's choices in it: log 29. -/
def Obligations.SpecialRegisters : Prop :=
  (∀ d i s, reaches s i → i.toNat ∉ [0x000, 0x016, 0x100, 0x104, 0x108, 0x10A, 0x200] → Answers (.gets d i) s fun t =>
    WritesScalar s t d ((s.special i.toNat).extractLsb' 0 32)) ∧
  (∀ d i s, reaches s i → d ≠ 0 → i.toNat ∈ [0x016, 0x100, 0x104, 0x108, 0x10A] → Answers (.gets d i) s fun t =>
    WritesPair s t d (s.special i.toNat)) ∧
  (∀ i s, reaches s i → Answers (.gets 0 i) s fun t => ScalarFrame s t ∧ ∀ r, t.S r = s.S r) ∧
  (∀ d s, d ≠ 0 → Answers (.gets d 0x000) s fun t => Advanced s t ∧ SameMemory s t ∧
    ∃ n, t.ply.hubq = s.ply.hubq ++ [⟨n, s.ply.slot, .ptime d⟩]) ∧
  (∀ d i s, ¬reaches s i → s.ply.supervisor = false → Answers (.gets d i) s fun t => TrapsWithWord s t 0x02 0) ∧
  (∀ a i s, ¬reaches s i → s.ply.supervisor = false → Answers (.sets a i) s fun t => TrapsWithWord s t 0x02 0) ∧
  (∀ a s, Answers (.sets a 0x010) s fun t => OnlyField s t { s.ply with fflags := (s.S a).extractLsb' 0 6 }) ∧
  (∀ a s, Answers (.sets a 0x011) s fun t =>
    OnlyField s t { s.ply with frnd := if (s.S a).toNat % 8 < 5 then (s.S a).extractLsb' 0 3 else s.ply.frnd }) ∧
  (∀ a s, Answers (.sets a 0x007) s fun t => OnlyField s t { s.ply with role := (s.S a).extractLsb' 0 16 }) ∧
  (∀ a s, Answers (.sets a 0x014) s fun t => OnlyField s t { s.ply with scope := (s.S a).extractLsb' 0 24 }) ∧
  (∀ a s, Answers (.sets a 0x015) s fun t => ∃ r : Word, OnlyField s t { s.ply with rpr := r } ∧
    r.getLsbD 31 = (s.S a).getLsbD 31 ∧ r.extractLsb' 19 12 = 0 ∧ r.extractLsb' 16 3 = (s.S a).extractLsb' 16 3 ∧
    (let rows := (s.S a).extractLsb' 8 8
     r.extractLsb' 8 8 = if rows.toNat % 8 = 0 ∧ rows.toNat ≤ 88 then rows else s.ply.rpr.extractLsb' 8 8) ∧
    r.extractLsb' 4 4 = (s.S a).extractLsb' 4 4 ∧ r.extractLsb' 0 4 = 0) ∧
  (∀ a s, Answers (.sets a 0x024) s fun t =>
    OnlyField s t { s.ply with flattol := if (s.S a).toNat % 65536 = 0 then s.ply.flattol else (s.S a).extractLsb' 0 16 }) ∧
  (∀ a s, s.ply.supervisor = true →
    (Answers (.sets a 0x102) s fun t => OnlyField s t { s.ply with ecause := s.S a }) ∧
    (Answers (.sets a 0x100) s fun t => OnlyField s t { s.ply with epc := s.S64 a &&& 0x0FFFFFFFFFFFFFFC }) ∧
    (Answers (.sets a 0x104) s fun t => OnlyField s t { s.ply with eaddr := s.S64 a }) ∧
    (Answers (.sets a 0x106) s fun t => OnlyField s t { s.ply with elane := (s.S a).extractLsb' 0 7 }) ∧
    (Answers (.sets a 0x107) s fun t => OnlyField s t { s.ply with
      erun := if (s.S a).toNat % 32 ≤ 24 then (s.S a).extractLsb' 0 5 else s.ply.erun }) ∧
    (Answers (.sets a 0x108) s fun t => OnlyField s t { s.ply with tvec := s.S64 a &&& 0x0FFFFFFFFFFFFFC0 }) ∧
    (Answers (.sets a 0x10A) s fun t => OnlyField s t { s.ply with ssave := s.S64 a &&& 0x0FFFFFFFFFFFF000 })) ∧
  (∀ a s, s.ply.supervisor = true →
    (Answers (.sets a 0x10C) s fun t => ∃ u, OnlyField u t u.ply ∧
      u = s.setVault (vaultOf s.ply.core) { s.vault (vaultOf s.ply.core) with
        testEn := (s.S a).getLsbD 31, testTemp := (s.S a).extractLsb' 0 16 }) ∧
    (Answers (.sets a 0x10D) s fun t => ∃ u, OnlyField u t u.ply ∧
      u = s.setCluster (s.ply.core / 8) { s.cluster (s.ply.core / 8) with
        gap := (s.S a).extractLsb' 8 8
        count := if (s.S a).extractLsb' 0 8 = 0 then (s.cluster (s.ply.core / 8)).count else (s.S a).extractLsb' 0 8 }) ∧
    (Answers (.sets a 0x10E) s fun t =>
      if (s.S a).toNat % 128 = 0 ∨ 100 < (s.S a).toNat % 128 then OnlyField s t s.ply
      else ∃ u, OnlyField u t u.ply ∧ u = s.setVault (vaultOf s.ply.core) { s.vault (vaultOf s.ply.core) with
        vchl := (s.S a).extractLsb' 0 7 }) ∧
    (Answers (.sets a 0x10F) s fun t => ∃ u, OnlyField u t u.ply ∧
      u = s.setTenant s.ply.tenant { s.tenant s.ply.tenant with qdl := s.S a })) ∧
  (∀ a i s, i.toNat ∈ [0x000, 0x002, 0x003, 0x004, 0x005, 0x006, 0x008, 0x009, 0x00A, 0x00B, 0x00C, 0x00D, 0x00E, 0x00F, 0x012,
      0x013, 0x016, 0x018, 0x019, 0x01A, 0x01B, 0x01C, 0x01D, 0x01E, 0x020, 0x021, 0x022, 0x023, 0x025] →
    Answers (.sets a i) s fun t => OnlyField s t s.ply) ∧
  (∀ (s : State), s.ply.core < 512 → s.ply.tenant < 16 → s.ply.vregs.length ≤ 120 → s.ply.tiles.length ≤ 8 →
    s.ply.dstack.length ≤ 64 → s.ply.slot ≤ 1 →
    s.special 0x000 = s.ptime ∧ (s.special 0x002).toNat = s.ply.plyid.toNat ∧
    (s.special 0x003).toNat = s.ply.core ∧ (s.special 0x005).toNat = s.ply.core / 64 ∧
    (s.special 0x004).toNat = s.ply.core / 8 % 8 ∧ (s.special 0x006).toNat = s.ply.tenant ∧
    (s.special 0x007).toNat = s.ply.role.toNat ∧ (s.special 0x008).toNat = s.ply.gangsize.toNat ∧
    (s.special 0x009).toNat = s.ply.vregs.length ∧ (s.special 0x00A).toNat = s.ply.tiles.length ∧
    (∀ k i, k < 3 → i < 32 → (s.special (0x00B + k)).getLsbD i = s.ply.occ.has (32 * k + i)) ∧
    (s.special 0x00E).toNat = s.ply.slot ∧ (s.special 0x00F).toNat = s.ply.dstack.length ∧
    (s.special 0x010).toNat = s.ply.fflags.toNat ∧ (s.special 0x011).toNat = s.ply.frnd.toNat ∧
    (s.special 0x012).toNat = s.ply.yc.toNat ∧ (s.special 0x013).toNat = s.ply.ydl.toNat ∧
    (s.special 0x014).toNat = s.ply.scope.toNat ∧ (s.special 0x015).toNat = s.ply.rpr.toNat ∧
    (s.special 0x016) = s.ply.pgw ∧ (s.special 0x024).toNat = s.ply.flattol.toNat ∧
    (s.special 0x025).toNat = (s.core s.ply.core).binto.toNat ∧ (s.special 0x100) = s.ply.epc ∧
    (s.special 0x102).toNat = s.ply.ecause.toNat ∧
    (s.special 0x104) = s.ply.eaddr ∧ (s.special 0x106).toNat = s.ply.elane.toNat ∧
    (s.special 0x107).toNat = s.ply.erun.toNat ∧ (s.special 0x108) = s.ply.tvec ∧ (s.special 0x10A) = s.ply.ssave ∧
    (let v := s.vault (vaultOf s.ply.core)
     (s.special 0x01B).toNat = v.vtemp.toNat ∧ (s.special 0x01C).toNat = v.rstep.toNat ∧
     (s.special 0x10C).getLsbD 31 = v.testEn ∧ (s.special 0x10C).extractLsb' 0 16 = v.testTemp ∧
     (s.special 0x10E).toNat = v.vchl.toNat) ∧
    (let c := s.cluster (s.ply.core / 8)
     (s.special 0x018).toNat = c.lease.toNat ∧ (s.special 0x10D).toNat = c.gap.toNat * 256 + c.count.toNat) ∧
    (s.special 0x10F).toNat = (s.tenant s.ply.tenant).qdl.toNat)

namespace Sys2Proof.Claim

/-! ## Loads and stores at issue (R180 to R188) -/

/-- The bytes of a size code and the registers it takes (R182). -/
def bytesOf (z : Nat) : Nat := if z ≤ 1 then 1 else if z ≤ 3 then 2 else if z = 4 then 4 else 16
def registersOf (z : Nat) : Nat := if z = 5 then 4 else 1
/-- n registers from v on exist, or v is vz (R76). -/
def RunReady (s : State) (v : BitVec 7) (n : Nat) : Prop := v = 124 ∨ v.toNat + n ≤ s.ply.vregs.length ∧ v.toNat + n ≤ 120
/-- The factor of a scale code (R83). -/
def scale (c : BitVec 2) : Nat := if c = 3 then 16 else 2 ^ c.toNat
/-- The displacement that a HIMM hint gives (R90). -/
def displacement (s : State) : Int :=
  match s.issue.himm with
  | none => 0
  | some h => (h.extractLsb' 0 20).toInt
/-- The global address of lane i of LD and ST, and the local one of LDX and STX (R181, R184). -/
def laneAddress (s : State) (p : BitVec 6) (x : BitVec 7) (c : BitVec 2) (i : Nat) : DWord :=
  s.S64 p + BitVec.ofInt 64 (scale c * ((s.V x).at i).toInt + displacement s)
def laneOffset (s : State) (b : BitVec 6) (x : BitVec 7) (c : BitVec 2) (i : Nat) : Word :=
  s.S b + BitVec.ofInt 32 (scale c * ((s.V x).at i).toInt + displacement s)
/-- The address of LDS and STS (R186): the immediate, or with HIMM 32 bits of it, sign-extended. -/
def scalarAddress (s : State) (p : BitVec 6) (i : BitVec 11) : DWord :=
  s.S64 p + BitVec.ofInt 64 (match s.issue.himm with
    | none => i.toInt
    | some h => (h.extractLsb' 0 21 ++ i).toInt)

/-- The lanes that store (R100): active and occupied. -/
def storingLanes (s : State) : List Nat := (activeLanes s).filter fun i => s.ply.occ.has i
/-- An access of n bytes at va passes its checks and reaches pa (R181): canonical, aligned, translated with permission. -/
def Reaches (s : State) (acc : Access) (n : Nat) (va : DWord) (lane pa : Nat) : Prop :=
  canonical va ∧ va.toNat % n = 0 ∧ s.translate s.ply.tenant acc va lane = .ok pa
/-- A local access passes its checks and reaches byte at' of a space (R172, R173, R184). -/
def ReachesLocal (s : State) (store : Bool) (n : Nat) (a : Word) (sp : Space) (at' : Nat) : Prop :=
  let off := a.toNat % 2 ^ 30
  off % n = 0 ∧
  match sp with
  | .xbuf => a.toNat / 2 ^ 30 = 0 ∧ off + n ≤ s.ply.windowSize ∧ at' = s.ply.windowBase + off
  | .wbuf => a.toNat / 2 ^ 30 = 1 ∧ store = false ∧ off + n ≤ 2097152 ∧ at' = off
  | .sbuf => a.toNat / 2 ^ 30 = 2 ∧ store = false ∧ off + n ≤ 131072 ∧ at' = off

/-- The bytes that lane i stores (R182): little-endian, of the low bits of V[v], or of four registers; zeros for vz. -/
def storedBytes (s : State) (v : BitVec 7) (z i : Nat) : List Byte :=
  let reg (k : Nat) : Word := if v = 124 then 0 else (s.V (v + BitVec.ofNat 7 k)).at i
  if z = 5 then (List.range 4).flatMap fun k => leBytes 4 (reg k).toNat else leBytes (bytesOf z) (reg 0).toNat

/-- What an order bit adds (R188). -/
def acquires (s : State) (q : BitVec 1) : List MemKind := if q = 1 then [.fence false true s.hord] else []
def releases (s : State) (q : BitVec 1) : List MemKind := if q = 1 then [.fence true false s.hord] else []

end Sys2Proof.Claim

/-- R180 to R188, R100: where every active lane's address can be read, a load issues: it enters the ply's load-store queue with
the addresses of the active lanes, ascending, and the acquire fence of an ordered load behind it; nothing else changes, and no
byte of memory. With no active lane only the fence is queued. Model's choices in it: log 90. -/
def Obligations.LoadIssue : Prop :=
  (∀ (v : BitVec 7) p x c (z : BitVec 3) q s (pa : Nat → Nat), z.toNat ≤ 5 → RunReady s v (registersOf z.toNat) →
    VectorReady s [x] → (∀ i ∈ activeLanes s, Reaches s .read (bytesOf z.toNat) (laneAddress s p x c i) i (pa i)) →
    Answers (.ld v p x c z q) s fun t => Queues s t ((if activeLanes s = [] then [] else
      [.load v z.toNat ((activeLanes s).map fun i => ⟨i, laneAddress s p x c i, pa i⟩) s.policy]) ++ acquires s q)) ∧
  (∀ (v : BitVec 7) b x c (z : BitVec 3) s (sp : Nat → Space) (pa : Nat → Nat), z.toNat ≤ 5 →
    RunReady s v (registersOf z.toNat) → VectorReady s [x] →
    (∀ i ∈ activeLanes s, ReachesLocal s false (bytesOf z.toNat) (laneOffset s b x c i) (sp i) (pa i)) →
    Answers (.ldx v b x c z) s fun t => QueuesOnly s t (if activeLanes s = [] then [] else
      [.loadX v z.toNat ((activeLanes s).map fun i => (sp i, ⟨i, (laneOffset s b x c i).zeroExtend 64, pa i⟩))])) ∧
  (∀ d p q (z : BitVec 1) i s pa, Reaches s .read (if z = 1 then 8 else 4) (scalarAddress s p i) 127 pa →
    Answers (.lds d p q z i) s fun t =>
      Queues s t (.lds d (z == 1) ⟨96, scalarAddress s p i, pa⟩ s.policy :: acquires s q))

/-- R180 to R188, R100: where every storing lane's address can be written, a store issues with the addresses and bytes of the
active occupied lanes, ascending, behind the release fence of an ordered store; nothing else changes, and no byte of memory
until the store is performed. With no such lane only the fence is queued. Model's choices in it: log 90. -/
def Obligations.StoreIssue : Prop :=
  (∀ (v : BitVec 7) p x c (z : BitVec 3) q s (pa : Nat → Nat), z.toNat ≤ 5 → RunReady s v (registersOf z.toNat) →
    VectorReady s [x] → (∀ i ∈ storingLanes s, Reaches s .write (bytesOf z.toNat) (laneAddress s p x c i) i (pa i)) →
    Answers (.st v p x c z q) s fun t => Queues s t (releases s q ++ if storingLanes s = [] then [] else
      [.store ((storingLanes s).map fun i =>
        ⟨i, laneAddress s p x c i, pa i, storedBytes s v z.toNat i⟩) s.policy])) ∧
  (∀ (v : BitVec 7) b x c (z : BitVec 3) s (pa : Nat → Nat), z.toNat ≤ 5 → RunReady s v (registersOf z.toNat) →
    VectorReady s [x] →
    (∀ i ∈ storingLanes s, ReachesLocal s true (bytesOf z.toNat) (laneOffset s b x c i) .xbuf (pa i)) →
    Answers (.stx v b x c z) s fun t => QueuesOnly s t (if storingLanes s = [] then [] else
      [.storeX ((storingLanes s).map fun i =>
        ⟨i, (laneOffset s b x c i).zeroExtend 64, pa i, storedBytes s v z.toNat i⟩) false])) ∧
  (∀ d p q (z : BitVec 1) i s pa, Reaches s .write (if z = 1 then 8 else 4) (scalarAddress s p i) 127 pa →
    Answers (.sts d p q z i) s fun t => Queues s t (releases s q ++
      [.store [⟨96, scalarAddress s p i, pa,
        if z = 1 then leBytes 4 (s.S d).toNat ++ leBytes 4 (s.S (d + 1)).toNat else leBytes 4 (s.S d).toNat⟩] s.policy]))

namespace Sys2Proof.Claim

/-- A lane's check fails first (R181): the lanes before it reach memory and it does not. -/
def FailsFirst (s : State) (acc : Access) (n : Nat) (lanes : List Nat) (ea : Nat → DWord) (i : Nat) : Prop :=
  i ∈ lanes ∧ ∀ j ∈ lanes, j < i → ∃ pa, Reaches s acc n (ea j) j pa

/-- The traps of an access (R181): at the lowest failing lane, NONCANON before ALIGN before XLATE and PROT. -/
def AccessTraps (i : Instr) (s : State) (acc : Access) (n : Nat) (lanes : List Nat) (ea : Nat → DWord) : Prop :=
  ∀ k, FailsFirst s acc n lanes ea k → s.ply.supervisor = false →
    (¬canonical (ea k) → Answers i s fun t => TakesTrap s t s.issue.first s.ply.pos 0x09 0 0 (ea k) k) ∧
    (canonical (ea k) → (ea k).toNat % n ≠ 0 → Answers i s fun t =>
      TakesTrap s t s.issue.first s.ply.pos 0x08 0 0 (ea k) k) ∧
    (canonical (ea k) → (ea k).toNat % n = 0 → ∀ code sub, (code = 0x0A ∨ code = 0x0B) → sub < 256 →
      s.page s.ply.tenant acc ((ea k).toNat / 65536) = .error (code, sub) → Answers i s fun t =>
        EntersHandler s t s.issue.first s.ply.pos code sub 0 (ea k) k ∧ t.mem = s.mem)

end Sys2Proof.Claim

/-- R72, R165, R181, R186 and R378: a fetch from a page that does not translate, or that is not executable, takes XLATE or PROT
with the address fetched, a batch record of one entry stored at the save area; a global load or store of which some lane's
check fails traps with the lowest failing lane, its address in %eaddr, and takes no other effect. Model's choices in it: log
25. -/
def Obligations.AccessFaults : Prop :=
  (∀ code sub a s, (code = 0x0A ∨ code = 0x0B) → sub < 256 → a.toNat < 2 ^ 60 → s.ply.supervisor = false →
    Answers (.fetchFault code sub a) s fun t =>
      EntersHandler s t s.issue.first s.ply.pos code sub 0 a 127 ∧ t.mem = s.mem ∧
      ∀ pa, s.range s.ply.tenant .write (s.ply.ssave + 0x300) 128 = .ok [(pa, 128)] → pa % 128 = 0 →
        ∃ q : PendingStore, t.stores = s.stores ++ [q] ∧ q.pa = pa ∧ q.core = s.ply.core ∧
          q.data = leBytes 4 1 ++ zeros 4 ++ leBytes 8 (a.toNat / 65536 * 65536 + code * 256 + sub) ++ zeros 112) ∧
  (∀ (v : BitVec 7) p x c (z : BitVec 3) q s, z.toNat ≤ 5 → RunReady s v (registersOf z.toNat) → VectorReady s [x] →
    AccessTraps (.ld v p x c z q) s .read (bytesOf z.toNat) (activeLanes s) (laneAddress s p x c) ∧
    AccessTraps (.st v p x c z q) s .write (bytesOf z.toNat) (storingLanes s) (laneAddress s p x c)) ∧
  (∀ d p q (z : BitVec 1) i s,
    AccessTraps (.lds d p q z i) s .read (if z = 1 then 8 else 4) [127] (fun _ => scalarAddress s p i) ∧
    AccessTraps (.sts d p q z i) s .write (if z = 1 then 8 else 4) [127] (fun _ => scalarAddress s p i))

namespace Sys2Proof.Claim

/-! ## Accesses performed (R103, R115, R116, R176, R303, R326, R327) -/

/-- A queued access of the ply in hand that may be performed now. -/
def MayPerform (s : State) (seq : Nat) (e : MemOp) : Prop :=
  s.ply.uid ≠ 0 ∧ s.ply.lsq.find? (fun o => o.seq == seq) = some e ∧ s.performable s.ply e = true

/-- The word k of a loaded element (R182): sign-extended, or zero-extended, or a word of 16 bytes. -/
def loadedWord (z : Nat) (b : List Byte) (k : Nat) : Word :=
  if z = 1 then (BitVec.ofNat 8 (leNat b)).signExtend 32
  else if z = 3 then (BitVec.ofNat 16 (leNat b)).signExtend 32
  else BitVec.ofNat 32 (leNat (slice b (4 * k) 4))

/-- A path is as before, or awaits nothing more and is eligible from now on (R104). -/
def Woken (q r : Path) : Prop := r = q ∨ r = { q with awaited := [], since := r.since }
/-- The other plies are as before, but for paths that are woken, and for what the engines may still see of their STX (R196). -/
def PliesKept (s t : State) : Prop :=
  t.plies.length = s.plies.length ∧
  ∀ (k : Nat) p q, s.plies[k]? = some p → t.plies[k]? = some q → Woken p.path0 q.path0 ∧ Woken p.path1 q.path1 ∧
    q = ({ p with stxOld := q.stxOld, path0 := q.path0, path1 := q.path1 } : Ply)

/-- The value of a load (R103, R115, R116): each lane listed takes in word k of the registers from v on what f gives, every
other lane and register is as before, the access leaves the queue, and no byte of memory changes. -/
def TakesValues (s t : State) (seq : Nat) (v : BitVec 7) (n : Nat) (lanes : List Nat) (f : Nat → Nat → Word) : Prop :=
  SameMemory s t ∧
  (∀ r : BitVec 7, r.toNat ≤ 119 → ∀ i, i < 96 → (t.V r).at i =
    if v ≠ 124 ∧ v.toNat ≤ r.toNat ∧ r.toNat < v.toNat + n ∧ i ∈ lanes then f i (r.toNat - v.toNat) else (s.V r).at i) ∧
  (∀ o ∈ t.ply.lsq, o ∈ s.ply.lsq ∧ o.seq ≠ seq) ∧ PliesKept s t ∧
  Woken s.ply.path0 t.ply.path0 ∧ Woken s.ply.path1 t.ply.path1 ∧
  t.ply = { s.ply with
    vregs := t.ply.vregs, lsq := t.ply.lsq, stxOld := t.ply.stxOld, path0 := t.ply.path0, path1 := t.ply.path1 }

/-- The queue's entries before an issue number, and the issue number of the last release fence among them (R187). -/
def earlier (s : State) (seq : Nat) : List MemOp := s.ply.lsq.filter fun e => decide (e.seq < seq)
def lastRelease (s : State) (seq : Nat) : Nat :=
  (((earlier s seq).filter fun e => match e.kind with
    | .fence true _ _ => true
    | _ => false).getLast?.map (·.seq)).getD 0
/-- What the ply's earlier stores that are still queued hold for address a, in their order (R115, R116): those of the lane itself,
and those of every lane before a release fence. -/
def queuedBytes (s : State) (seq lane : Nat) (loc : Bool) (a : Nat) : List Byte :=
  (earlier s seq).flatMap fun e =>
    let ls : List LaneStore := match e.kind with
      | .store ls _ => if loc then [] else ls
      | .storeX ls _ => if loc then ls else []
      | _ => []
    ls.filterMap fun l =>
      if (l.lane = lane ∨ e.seq < lastRelease s seq) ∧ l.pa ≤ a then l.data[a - l.pa]? else none
/-- The n bytes that a lane takes from global memory: each the latest of its earlier queued stores over what its core reads. -/
def globalBytes (s : State) (seq lane pa n : Nat) : List Byte :=
  (List.range n).map fun i => (queuedBytes s seq lane false (pa + i)).getLastD (s.seen s.ply.core (pa + i))
/-- The bytes that a lane takes from a local space: each its latest earlier queued STX (in XBUF) over what the space holds, or,
where a write of an engine is recorded that no WAITC has found, over what it held before (R231). -/
def LocalBytes (s : State) (seq lane : Nat) (sp : Space) (a : Nat) (b : List Byte) (n : Nat) : Prop :=
  b.length = n ∧ ∀ i, i < n → ∃ below : Byte,
    b.getD i 0 = (if sp = .xbuf then queuedBytes s seq lane true (a + i) else []).getLastD below ∧
    (below = s.localByte s.ply.core sp (a + i) ∨ ∃ w ∈ (s.core s.ply.core).unseen,
      w.space = sp ∧ w.word = (a + i) / 4 ∧ below = (w.before[(a + i) % 4]?).getD (s.localByte s.ply.core sp (a + i)))

end Sys2Proof.Claim

/-- R103, R115, R116 and R182: when LD or LDX takes its value, each lane takes the bytes that it reads, extended as the size code
says: each byte is that of its own latest earlier store which is still queued (and of any lane's before a release fence), over
what its core reads at that address. Model's choices in it: log 40. -/
def Obligations.LoadResults : Prop :=
  (∀ seq e v z ls pol s, MayPerform s seq e → e.kind = .load v z ls pol → z ≤ 5 → RunReady s v (registersOf z) →
    (ls.map (·.lane)).Nodup → (∀ l ∈ ls, l.lane < 96 ∧ s.consumesBad s.ply e.seq l.lane l.pa (bytesOf z) = false) →
    Answers (.longLatencyResult s.ply.uid seq) s fun t =>
      TakesValues s t seq v (registersOf z) (ls.map (·.lane)) fun i k =>
        match ls.find? fun l => l.lane == i with
        | none => 0
        | some l => loadedWord z (globalBytes s e.seq i l.pa (bytesOf z)) k) ∧
  (∀ seq e v z ls s, MayPerform s seq e → e.kind = .loadX v z ls → z ≤ 5 → RunReady s v (registersOf z) →
    (ls.map (·.2.lane)).Nodup → (∀ l ∈ ls, l.2.lane < 96) →
    Answers (.longLatencyResult s.ply.uid seq) s fun t => ∃ b : Nat → List Byte,
      (∀ l ∈ ls, LocalBytes s e.seq l.2.lane l.1 l.2.pa (b l.2.lane) (bytesOf z)) ∧
      TakesValues s t seq v (registersOf z) (ls.map (·.2.lane)) fun i k => loadedWord z (b i) k) ∧
  (∀ seq e d (wide : Bool) l pol s, MayPerform s seq e → e.kind = .lds d wide l pol → e.slot = s.ply.slot →
    s.consumesBad s.ply e.seq l.lane l.pa (if wide then 8 else 4) = false →
    Answers (.longLatencyResult s.ply.uid seq) s fun t =>
      let b := globalBytes s e.seq l.lane l.pa (if wide then 8 else 4)
      SameMemory s t ∧ (∀ o ∈ t.ply.lsq, o ∈ s.ply.lsq ∧ o.seq ≠ seq) ∧
      (∀ r, t.S r = if wide = true ∧ r = d + 1 then s.afterWrite (d + 1) (loadedWord 4 b 1) r
        else s.afterWrite d (loadedWord 4 b 0) r) ∧
      Woken { s.path with active := t.path.active } t.path ∧ Woken (s.ply.path s.ply.other) (t.ply.path t.ply.other) ∧
      PliesKept s t ∧ t.ply = { s.ply with
        sregs := t.ply.sregs, path0 := t.ply.path0, path1 := t.ply.path1, lsq := t.ply.lsq, stxOld := t.ply.stxOld })

/-- The bytes of one lane stand in one line. -/
def Claim.InLine (pa : Nat) (data : List Byte) : Prop := data ≠ [] ∧ pa % 128 + data.length ≤ 128

/-- R116, R176, R185, R303 and R326: a global store performed at its core is seen there at once, lanes in ascending order, and by
every other observer not before a completion time; at its completion time the home merges it and what each observer reads does
not change where nothing waits for that time (a load's report, a scope's release, a message); an STX performed writes the XBUF of
its core and nothing else of memory. (No vault of the store is retired. Buffers have the canonical form. Log 39:
after a copy that no WAITC has found, the STX is lost word by word, freely.) Model's choices in it: log 39, 43. -/
def Obligations.StoresPerformed : Prop :=
  (∀ seq e ls pol s, MayPerform s seq e → e.kind = .store ls pol → s.ply.core < 512 → (∀ l ∈ ls, Claim.InLine l.pa l.data) →
    (∀ l ∈ ls, (s.vault (vaultOfPa l.pa)).retired = false) →
    Answers (.storeAtHome s.ply.uid seq) s fun t =>
      t.mem = s.mem ∧ t.ptime = s.ptime ∧ (∀ o ∈ t.ply.lsq, o ∈ s.ply.lsq ∧ o.seq ≠ seq) ∧
      (∀ a, t.seen s.ply.core a = ls.foldl (fun b l => overlay l.pa l.data a b) (s.seen s.ply.core a)) ∧
      (∀ core a, core ≠ s.ply.core → t.seen core a = s.seen core a) ∧
      (∀ core sp a, t.localByte core sp a = s.localByte core sp a) ∧
      (∀ q ∈ t.stores.drop s.stores.length, s.now + 4 ≤ q.time ∧ q.core = s.ply.core ∧ q.issued = e.seq ∧
        ∀ o ∈ s.stores, lineOf o.pa = lineOf q.pa → o.time ≤ q.time) ∧
      t.ply = { s.ply with lsq := t.ply.lsq, stxOld := t.ply.stxOld, pgw := t.ply.pgw, cgw := t.ply.cgw }) ∧
  (∀ q l1 l2 s, s.stores = l1 ++ q :: l2 → MemoryOk s → q.time ≤ s.now →
    (∀ o ∈ l1 ++ l2, o.seq ≠ q.seq ∧ (lineOf o.pa = lineOf q.pa → q.seq < o.seq)) →
    (∀ o ∈ l1, o.pa + o.data.length ≤ q.pa ∨ q.pa + q.data.length ≤ o.pa) →
    Answers (.completionTime q.seq) s fun t =>
      (∀ a, t.mem.read a = overlay q.pa q.data a (s.mem.read a)) ∧
      (s.loads = [] → s.landings = [] → (∀ c ∈ s.scopes, c.due = none) →
        SameMemory s t ∧ t.stores = l1 ++ l2 ∧
        t = { s with mem := t.mem, stores := t.stores, recent := t.recent, failing := t.failing, reports := t.reports })) ∧
  (∀ q s, q ∈ s.stores → (∀ o ∈ s.stores, o.seq = q.seq → o = q) → q.ctime ≤ s.now →
    Answers (.clusterCompletionTime q.seq) s fun t =>
      SameMemory s t ∧ { q with clusterDone := true } ∈ t.stores ∧
      (∀ o ∈ s.stores, o.seq ≠ q.seq → o ∈ t.stores) ∧ t = { s with stores := t.stores }) ∧
  (∀ seq e ls s, MayPerform s seq e → e.kind = .storeX ls false → (s.core s.ply.core).unseen = [] →
    ((s.core s.ply.core).space .xbuf).wf = true → (∀ g ∈ s.ghosts, g.uid ≠ s.ply.uid) →
    Answers (.storeAtHome s.ply.uid seq) s fun t =>
      (∀ a, t.localByte s.ply.core .xbuf a =
        ls.foldl (fun b l => overlay l.pa l.data a b) (s.localByte s.ply.core .xbuf a)) ∧
      (∀ core sp a, core ≠ s.ply.core ∨ sp ≠ .xbuf → t.localByte core sp a = s.localByte core sp a) ∧
      (∀ core a, t.seen core a = s.seen core a) ∧ (∀ o ∈ t.ply.lsq, o ∈ s.ply.lsq ∧ o.seq ≠ seq) ∧
      t.ply = { s.ply with lsq := t.ply.lsq, stxOld := t.ply.stxOld })

namespace Sys2Proof.Claim

/-! ## Texels, slots, fences and cache control (R187, R190 to R198) -/

/-- The format, the channels, the layout and the pitch of an image's descriptor, and its last coordinates (R190). -/
structure Image where
  base   : DWord
  fmt    : Nat
  chan   : Nat
  layout : Nat
  pitch  : Nat
  wm1    : Nat
  hm1    : Nat
def imageAt (s : State) (b : BitVec 6) : Image :=
  let w := (s.S (b + 3)).toNat
  let d := (s.S (b + 2)).toNat
  ⟨s.S64 b, w % 16, w / 16 % 4, w / 64 % 4, w / 256, d % 65536, d / 65536⟩

/-- A texture access of lane i: its texels' offsets and the two fractions (R190 to R193); from vz both coordinates are 0. -/
def texelsOf (s : State) (kind : TexKind) (c : BitVec 7) (g : Image) (i : Nat) : List Nat × Nat × Nat :=
  texPlaces kind (texelBits g.fmt g.chan) g.pitch g.layout g.wm1 g.hm1 (if c = 124 then 0 else (s.V c).at i)
    (if c = 124 then 0 else (s.V (c + 1)).at i)
/-- The coordinate pair can be read: two registers below the boundary, or vz. -/
def CoordsReady (s : State) (c : BitVec 7) : Prop := c = 124 ∨ c.toNat + 2 ≤ 120 ∧ c.toNat + 2 ≤ s.ply.vregs.length
/-- The registers that a texture instruction writes. -/
def texRegisters (kind : TexKind) (fmt chan : Nat) : Nat :=
  match kind with
  | .nearest => (texelBytes fmt chan + 3) / 4
  | .bilinear => 2
/-- A coordinate clamped to 0 and the last (R192). -/
def clamped (x : Word) (last : Nat) : Nat := (max 0 (min (last : Int) x.toInt)).toNat

end Sys2Proof.Claim

/-- R190 to R194: TEXL and TEXB with an accepted descriptor issue: each active lane's texels are checked, in global memory or in
the ply's XBUF window, and enter the load-store queue. A linear texel of whole bytes stands at y × 16 × pitch + x × its bytes, a
swizzled one in its block of 16 × 16, the coordinates clamped to the image. TEXL writes the texel's bytes raw, TEXB the four
filtered channels. A descriptor that is not accepted raises ENGINE 1, a base that is not aligned ALIGN. That ENGINE 1 reports the
image base is the model's choice (R169 states no address), as are the parts of R190 to R193 that log 38 names. Model's choices
in it: log 15, 38. -/
def Obligations.TextureIssue : Prop :=
  (∀ (kind : TexKind) (d c : BitVec 7) b s (pa : Nat → Nat → Nat), CoordsReady s c →
    let g := imageAt s b
    let n := texelBytes g.fmt g.chan
    let i := match kind with
      | .nearest => Instr.texl d c b
      | .bilinear => Instr.texb d c b
    let accepted := texAccepts kind g.fmt g.chan g.layout = true
    (accepted → RunReady s d (texRegisters kind g.fmt g.chan) → g.base.toNat % 16 = 0 → activeLanes s ≠ [] →
      g.base.getLsbD 63 = false →
      (∀ l ∈ activeLanes s, ∀ o ∈ (texelsOf s kind c g l).1,
        Reaches s .read 1 (g.base + BitVec.ofNat 64 o) l (pa l o)) →
      Answers i s fun t => Queues s t [.tex kind d g.fmt g.chan false ((activeLanes s).map fun l =>
        let (os, fx, fy) := texelsOf s kind c g l
        ⟨l, os.map fun o => ⟨l, g.base + BitVec.ofNat 64 o, pa l o⟩, fx, fy⟩) s.policy]) ∧
    (accepted → RunReady s d (texRegisters kind g.fmt g.chan) → g.base.toNat % 16 = 0 → activeLanes s ≠ [] →
      g.base.getLsbD 63 = true → g.base.toNat / 2 ^ 21 % 2 ^ 42 = 0 →
      (∀ l ∈ activeLanes s, ∀ o ∈ (texelsOf s kind c g l).1, g.base.toNat % 2 ^ 21 + o + n ≤ s.ply.windowSize) →
      s.ply.windowSize ≤ 2 ^ 21 →
      Answers i s fun t => QueuesOnly s t [.tex kind d g.fmt g.chan true ((activeLanes s).map fun l =>
        let (os, fx, fy) := texelsOf s kind c g l
        ⟨l, os.map fun o => ⟨l, BitVec.ofNat 64 (g.base.toNat % 2 ^ 21 + o),
          s.ply.windowBase + (g.base.toNat % 2 ^ 21 + o)⟩, fx, fy⟩) s.policy]) ∧
    (accepted → RunReady s d (texRegisters kind g.fmt g.chan) → g.base.toNat % 16 = 0 → s.ply.supervisor = false →
      g.base.getLsbD 63 = true → g.base.toNat / 2 ^ 21 % 2 ^ 42 = 0 →
      ∀ l, (activeLanes s).head? = some l → ∀ o, (texelsOf s kind c g l).1.head? = some o →
      s.ply.windowSize < g.base.toNat % 2 ^ 21 + o + n → g.base.toNat % 2 ^ 21 + o < 2 ^ 30 →
      Answers i s fun t => TakesTrap s t s.issue.first s.ply.pos 0x0C 0 0 (BitVec.ofNat 64 (g.base.toNat % 2 ^ 21 + o)) l) ∧
    (accepted → RunReady s d (texRegisters kind g.fmt g.chan) → g.base.toNat % 16 ≠ 0 → s.ply.supervisor = false →
      Answers i s fun t => TakesTrap s t s.issue.first s.ply.pos 0x08 0 0 g.base 127) ∧
    (¬accepted → RunReady s d 4 → s.ply.supervisor = false → Answers i s fun t =>
      TakesTrap s t s.issue.first s.ply.pos 0x0E 1 0 g.base 127)) ∧
  (∀ (n pitch wm1 hm1 : Nat) (x y : Word),
    texPlaces .nearest (8 * n) pitch 0 wm1 hm1 x y = ([clamped y hm1 * 16 * pitch + clamped x wm1 * n], 0, 0) ∧
    ∃ m, m < 256 ∧ (∀ k, k < 4 → m.testBit (2 * k) = (clamped x wm1).testBit k ∧
        m.testBit (2 * k + 1) = (clamped y hm1).testBit k) ∧
      texPlaces .nearest (8 * n) pitch 1 wm1 hm1 x y =
        ([((clamped y hm1 / 16 * ((wm1 + 16) / 16) + clamped x wm1 / 16) * 256 + m) * n], 0, 0)) ∧
  -- at x = y = 1.0 the four texels around weigh alike; a NaN reads as 0, half a texel before the first
  (∀ (n pitch wm1 hm1 : Nat), 1 ≤ wm1 → 1 ≤ hm1 →
    texPlaces .bilinear (8 * n) pitch 0 wm1 hm1 0x3F800000 0x3F800000 =
      ([0, n, 16 * pitch, 16 * pitch + n], 128, 128) ∧
    texPlaces .bilinear (8 * n) pitch 0 wm1 hm1 0x7FC00000 0x3F800000 =
      ([0, 0, 16 * pitch, 16 * pitch], 128, 128)) ∧
  (∀ seq e kind d f c (ls : List TexLane) pol s, MayPerform s seq e → e.kind = .tex kind d f c false ls pol →
    RunReady s d (texRegisters kind f c) → (ls.map (·.lane)).Nodup → (∀ l ∈ ls, l.lane < 96) →
    (∀ l ∈ ls, l.at' ≠ [] ∧ ∀ a ∈ l.at', a.lane = l.lane ∧ s.consumesBad s.ply e.seq l.lane a.pa (texelBytes f c) = false) →
    Answers (.longLatencyResult s.ply.uid seq) s fun t =>
      TakesValues s t seq d (texRegisters kind f c) (ls.map (·.lane)) fun i k =>
        match ls.find? fun l => l.lane == i with
        | none => 0
        | some l =>
          let bs := l.at'.map fun a => globalBytes s e.seq i a.pa (texelBytes f c)
          match kind with
          | .nearest =>
            if texelBits f c < 8 then BitVec.ofNat 32 (leNat (bs.headD []) / 2 ^ l.fx % 16)
            else BitVec.ofNat 32 (leNat (slice (bs.headD []) (4 * k) 4))
          | .bilinear =>
            let channel (j : Nat) : Nat :=
              if j < channels c then
                let xs := bs.map fun b => texValue f (num b (fmtBits f / 8 * j) (fmtBits f / 8))
                texFilter ([(256 - l.fx) * (256 - l.fy), l.fx * (256 - l.fy), (256 - l.fx) * l.fy, l.fx * l.fy].zip
                  (xs.map (·.1))) ((xs.map (·.2)).headD 1)
              else if j = 3 then 0x3C00 else 0
            BitVec.ofNat 32 (channel (2 * k + 1) * 65536 + channel (2 * k))) ∧
  (∀ w (vs : List (Nat × Value)) p den, (w, .nan p) ∈ vs → texFilter vs den = 0x7E00) ∧
  texFilter [(16384, .fin false 0 0), (16384, .fin false 255 0), (16384, .fin false 51 0), (16384, .fin false 102 0)] 255 = 0x3666

namespace Sys2Proof.Claim

/-- The differences of a register's lanes from lane 0, as signed words (R198). -/
def laneDelta (v : Lanes) (i : Nat) : Int := (v.at i - v.at 0).toInt
/-- The bytes of a spilled register's slot (R198): the format byte, seven zeros, the payload. -/
def slotBytes (v : Lanes) : List Byte :=
  let lanes := List.range 96
  if ∀ i, i < 96 → v.at i = 0 then leBytes 8 4
  else if ∀ i, i < 96 → v.at i = v.at 0 then leBytes 8 1 ++ leBytes 4 (v.at 0).toNat
  else if ∀ i, i < 96 → -128 ≤ laneDelta v i ∧ laneDelta v i ≤ 127 then
    leBytes 8 2 ++ leBytes 4 (v.at 0).toNat ++ lanes.flatMap fun i => leBytes 1 (laneDelta v i % 256).toNat
  else if ∀ i, i < 96 → -32768 ≤ laneDelta v i ∧ laneDelta v i ≤ 32767 then
    leBytes 8 3 ++ leBytes 4 (v.at 0).toNat ++ lanes.flatMap fun i => leBytes 2 (laneDelta v i % 65536).toNat
  else leBytes 8 0 ++ lanes.flatMap fun i => leBytes 4 (v.at i).toNat

/-- The slots of SPILL and FILL (R197): 512 bytes each, from a base that is a multiple of 512. -/
def SlotsReach (s : State) (acc : Access) (base : DWord) (n : Nat) (pa : Nat → Nat) : Prop :=
  base.toNat % 512 = 0 ∧ ∀ j, j < n → Reaches s acc 1 (base + BitVec.ofNat 64 (512 * j)) 127 (pa j)
/-- The unit's reads leave what walks leave and the leases that they took, and its access enters the queue. -/
def QueuesReading (s t : State) (ks : List MemKind) : Prop :=
  ∃ u, u = { s with
      tlb := u.tlb, vaults := u.vaults, homeLeases := u.homeLeases, l1Leases := u.l1Leases, l2Leases := u.l2Leases } ∧
    Walked s u ∧ QueuesOnly u t ks
/-- The byte that opens a slot, as FILL reads it. -/
def formatByte (s : State) (pa : Nat) : Nat := ((globalBytes s (s.seq + 1) 97 pa 1).headD 0).toNat

end Sys2Proof.Claim

/-- R197 and R198: SPILL stores one slot of the format that fits for each of its registers, whatever is active; FILL, where every
slot holds a format, enters the queue with the bytes of its slots, as the ply's own earlier stores and the core's memory give
them, and its registers take in the active lanes what the slots held; a register filled from the slot that spilling it made
takes every lane back. A base that is not a multiple of 512 raises ALIGN; a slot without a format ENGINE 2. Model's choices in
it: log 14, 42. -/
def Obligations.SpillAndFill : Prop :=
  (∀ (v : BitVec 7) p (n : BitVec 3) s (pa : Nat → Nat), v.toNat + n.toNat + 1 ≤ s.ply.vregs.length → v.toNat + n.toNat < 120 →
    let slot (j : Nat) : LaneAddr := ⟨97, s.S64 p + BitVec.ofNat 64 (512 * j), pa j⟩
    (SlotsReach s .write (s.S64 p) (n.toNat + 1) pa → Answers (.spill v p n) s fun t => Queues s t
      [.store ((List.range (n.toNat + 1)).map fun j =>
        ⟨97, (slot j).va, pa j, slotBytes (s.V (v + BitVec.ofNat 7 j))⟩) 0]) ∧
    (SlotsReach s .read (s.S64 p) (n.toNat + 1) pa →
      (∀ j, j < n.toNat + 1 → formatByte s (pa j) ≤ 4 ∧ ∀ k, s.consumesBad s.ply (s.seq + 1) 97 (pa j) k = false) →
      Answers (.fill v p n) s fun t => QueuesReading s t
        [.fill v.toNat ((List.range (n.toNat + 1)).map slot) s.path.active
          ((List.range (n.toNat + 1)).map fun j => globalBytes s (s.seq + 1) 97 (pa j) 392) none]) ∧
    ((s.S64 p).toNat % 512 ≠ 0 → s.ply.supervisor = false →
      (Answers (.spill v p n) s fun t => TakesTrap s t s.issue.first s.ply.pos 0x08 0 0 (s.S64 p) 127) ∧
      (Answers (.fill v p n) s fun t => TakesTrap s t s.issue.first s.ply.pos 0x08 0 0 (s.S64 p) 127)) ∧
    (∀ j, j < n.toNat + 1 → SlotsReach s .read (s.S64 p) (n.toNat + 1) pa → s.ply.supervisor = false →
      4 < formatByte s (pa j) → (∀ k, k < j → formatByte s (pa k) ≤ 4) →
      Answers (.fill v p n) s fun t => TakesTrap s t s.issue.first s.ply.pos 0x0E 2 0 (slot j).va 127)) ∧
  (∀ seq e (v : Nat) ls m taken s, MayPerform s seq e → e.kind = .fill v ls m taken none →
    v + taken.length ≤ s.ply.vregs.length → v + taken.length ≤ 120 →
    Answers (.longLatencyResult s.ply.uid seq) s fun t =>
      TakesValues s t seq (BitVec.ofNat 7 v) taken.length ((List.range 96).filter fun i => m.has i) fun i k =>
        match taken[k]? with
        | none => 0
        | some b => (unspill b).at i) ∧
  (∀ (v : Lanes) (rest : List Byte) i, i < 96 → (unspill (slotBytes v ++ rest)).at i = v.at i)

namespace Sys2Proof.Claim

/-- A unit that completes and leaves the ply as p but for the path's progress. -/
def UnitDone (s t : State) (p : Ply) : Prop :=
  Advanced s t ∧ PathsKept s t ∧ t.path.active = s.path.active ∧
  t.ply = { p with path0 := t.ply.path0, path1 := t.ply.path1, pos := t.ply.pos, yc := t.ply.yc }

/-- Records of local words that differ at most in which XFENCE they know of. -/
def SameButFences (l m : List OldWord) : Prop :=
  (l.map fun w => ({ w with fence := none } : OldWord)) = m.map fun w => ({ w with fence := none } : OldWord)
/-- A fence may leave marks on the records of what engines still see (R196), and a retired ply may be gone; everything else
outside the ply is as before. -/
def FenceFrame (s t : State) : Prop :=
  t = { s with
    ply := t.ply, seq := s.seq + 1, plies := t.plies, cores := t.cores, saved := t.saved, ghosts := t.ghosts } ∧
  SameMemory s t ∧ t.plies.length = s.plies.length ∧
  (∀ (k : Nat) p q, s.plies[k]? = some p → t.plies[k]? = some q →
    q = ({ p with stxOld := q.stxOld } : Ply) ∧ SameButFences q.stxOld p.stxOld) ∧
  ∀ k, t.core k = { s.core k with unseen := (t.core k).unseen } ∧ SameButFences (t.core k).unseen (s.core k).unseen

/-- An entry of the queue that is an access. -/
def isAccess (o : MemOp) : Prop := o.kind.takesValue = true ∨ o.kind.isStore = true

end Sys2Proof.Claim

/-- R115, R187, R189 and R196: a fence enters the queue behind every earlier access, and stays while one that it orders is not
performed; an XFENCE stays while an earlier STX is not performed, and without one the engines see every STX of the ply and, in
the words that these wrote, nothing that another ply's STX hid before them. No access is performed before what a fence ahead of
it waits for: the earlier stores and atomics of a release at core scope or above, the earlier loads of an acquire. Model's
choices in it: log 39. -/
def Obligations.Fences : Prop :=
  (∀ f ∈ [(Instr.fence, true, true), (.fenceRel, true, false), (.fenceAcq, false, true)], ∀ s, s.ply.uid ≠ 0 →
    Answers f.1 s fun t =>
      FenceFrame s t ∧ UnitDone s t { s.ply with lsq := t.ply.lsq, stxOld := t.ply.stxOld } ∧
      (∀ o ∈ s.ply.lsq, isAccess o → o ∈ t.ply.lsq) ∧
      (∀ o ∈ s.ply.lsq, o.seq ≤ s.seq →
        (f.2.1 = true ∧ 1 ≤ s.hord ∧ o.kind.isStore = true) ∨ (f.2.2 = true ∧ o.kind.takesValue = true) →
        ⟨s.seq + 1, s.ply.slot, s.issue.first, .fence f.2.1 f.2.2 s.hord⟩ ∈ t.ply.lsq)) ∧
  (∀ s, s.ply.uid ≠ 0 → Answers .xfence s fun t =>
      FenceFrame s t ∧ UnitDone s t { s.ply with lsq := t.ply.lsq, stxOld := t.ply.stxOld } ∧
      (∀ o ∈ s.ply.lsq, isAccess o → o ∈ t.ply.lsq) ∧
      ((∀ o ∈ s.ply.lsq, o.kind.isStoreX = false) → (∀ w ∈ t.ply.stxOld, w.seq ≤ s.seq → w.fence.isSome = true) ∧
        ∀ q ∈ t.plies, q.core = s.ply.core → q.uid ≠ s.ply.uid → ∀ w ∈ q.stxOld,
          (∃ m ∈ s.ply.stxOld, m.seq ≤ s.seq ∧ m.space = w.space ∧ m.word = w.word ∧ w.issued ≤ m.issued) →
          w.fence.isSome = true) ∧
      (∀ o ∈ s.ply.lsq, o.seq ≤ s.seq → o.kind.isStoreX = true →
        ⟨s.seq + 1, s.ply.slot, s.issue.first, .xfence⟩ ∈ t.ply.lsq)) ∧
  (∀ (s : State) p e f o rel acq scope, f ∈ p.lsq → o ∈ p.lsq → o.seq < f.seq → f.seq < e.seq →
    f.kind = .fence rel acq scope →
    (rel = true ∧ (o.kind.isAtom = true ∨ 1 ≤ scope ∧ o.kind.isStore = true)) ∨ (acq = true ∧ o.kind.takesValue = true) →
    s.performable p e = false)

/-- R195: CINV drops the lines of its range from the core's first-level cache and no other line; CPREF may fill leases. Both
leave every register and every byte of memory as they are. -/
def Obligations.CacheControl : Prop :=
  (∀ p l s, Answers (.cinv p l) s fun t =>
    t = { s with ply := t.ply, l1Leases := t.l1Leases } ∧ SameMemory s t ∧ UnitDone s t s.ply ∧
    (∀ e ∈ t.l1Leases, e ∈ s.l1Leases) ∧ (∀ e ∈ s.l1Leases, e.unit ≠ s.ply.core → e ∈ t.l1Leases) ∧
    (s.S l = 0 → t.l1Leases = s.l1Leases) ∧
    (∀ pa, s.S l ≠ 0 → (s.S64 p).toNat % 65536 + (s.S l).toNat ≤ 65536 → Reaches s .read 1 (s.S64 p) 127 pa →
      ∀ e ∈ s.l1Leases, e ∈ t.l1Leases ↔ ¬(e.unit = s.ply.core ∧ pa / 128 ≤ e.line ∧ e.line ≤ (pa + (s.S l).toNat - 1) / 128))) ∧
  (∀ p l v s, Answers (.cpref p l v) s fun t => SameMemory s t ∧ UnitDone s t s.ply ∧
    t = { s with
      ply := t.ply, l1Leases := t.l1Leases, l2Leases := t.l2Leases, homeLeases := t.homeLeases, vaults := t.vaults })

namespace Sys2Proof.Claim

/-! ## Atomics (R330 to R341) -/

/-- The atomics with their op codes (R332), and whether they read v + 1. -/
noncomputable def atomics : List ((BitVec 7 → BitVec 6 → BitVec 7 → BitVec 1 → Instr) × Nat × Bool) :=
  [(.atomAdd, 0, false), (.atomSub, 1, false), (.atomAnd, 2, false), (.atomOr, 3, false), (.atomXor, 4, false),
    (.atomMin, 5, false), (.atomMax, 6, false), (.atomMinu, 7, false), (.atomMaxu, 8, false), (.atomXchg, 9, false),
    (.atomCas, 10, true), (.atomIncb, 11, false), (.atomIncw, 12, false), (.atomDecz, 13, false), (.atomFaddl, 14, true),
    (.atomFadd, 15, false), (.atomFaddr, 16, false), (.atomAdd64, 18, true), (.atomMax64, 19, true)]
/-- Bytes of an element (R331). -/
def elementBytes (op : Nat) : Nat := if op = 14 ∨ op = 18 ∨ op = 19 then 8 else 4

/-- The operations on a word (R332): the new value from the old one and the operands. -/
def wordAtomics : List (Nat × (Word → Word → Word → Word)) :=
  [(0, fun m a _ => m + a), (1, fun m a _ => m - a), (2, fun m a _ => m &&& a), (3, fun m a _ => m ||| a),
    (4, fun m a _ => m ^^^ a), (5, fun m a _ => leastS m a), (6, fun m a _ => if m.toInt < a.toInt then a else m),
    (7, fun m a _ => leastU m a), (8, fun m a _ => if m.toNat < a.toNat then a else m), (9, fun _ a _ => a),
    (10, fun m a b => if m = a then b else m), (11, fun m a _ => if m.toNat < a.toNat then m + 1 else m),
    (12, fun m a _ => if a.toNat ≤ m.toNat then 0 else m + 1), (13, fun m _ _ => if m = 0 then m else m - 1)]
/-- The operations on a doubleword. -/
def wideAtomics : List (Nat × (DWord → DWord → DWord)) :=
  [(18, fun m x => m + x), (19, fun m x => if m.toInt < x.toInt then x else m)]
def fadd (x y : Nat) : Nat := (fp32.add 0 x y).1
/-- The RNE fold of some lanes' operands, in their order. -/
def foldedOperands : List AtomLane → Nat
  | [] => 0
  | l :: ls => ls.foldl (fun x k => fadd x k.a.toNat) l.a.toNat

/-- The bytes that a home holds of an element, as a number. -/
def homeValue (s : State) (pa n : Nat) : Nat := leNat ((List.range n).map fun i => s.atHome (pa + i))

/-- The lanes of an element at its home (R333): they name it, none meets a failing granule, each keeps its return. -/
def OneElement (s : State) (e : MemOp) (n pa : Nat) (ls : List AtomLane) : Prop :=
  ls ≠ [] ∧ (ls.map (·.lane)).Nodup ∧
  ∀ l ∈ ls, l.pa = pa ∧ l.lane < 96 ∧ l.discard = false ∧ s.consumesBad s.ply e.seq l.lane l.pa n = false

/-- An atomic performed at its home (R333, R334): the bytes d at pa are what the home holds from now on; no observer reads
them before their completion time; lane l of ls takes word k of ret l₁ where l₁ are the lanes before it, if the returns are
wanted; everything else is as before. -/
def PerformsAtomic (s t : State) (seq : Nat) (v : BitVec 7) (ret : Bool) (n pa : Nat) (d : List Byte) (ls : List AtomLane)
    (f : List AtomLane → Nat → Word) : Prop :=
  SameMemory s t ∧ t.mem = s.mem ∧ (∀ a, t.atHome a = overlay pa d a (s.atHome a)) ∧
  (ret = true → v ≠ 124 → ∀ l1 l l2, ls = l1 ++ l :: l2 → ∀ k, k < n → (t.V (v + BitVec.ofNat 7 k)).at l.lane = f l1 k) ∧
  (∀ r : BitVec 7, r.toNat ≤ 119 → ∀ i, i < 96 →
    ret = false ∨ v = 124 ∨ r.toNat < v.toNat ∨ v.toNat + n ≤ r.toNat ∨ i ∉ ls.map (·.lane) → (t.V r).at i = (s.V r).at i) ∧
  (∀ o ∈ t.ply.lsq, o ∈ s.ply.lsq ∧ o.seq ≠ seq) ∧
  Woken s.ply.path0 t.ply.path0 ∧ Woken s.ply.path1 t.ply.path1 ∧
  t.ply = { s.ply with
    vregs := t.ply.vregs, lsq := t.ply.lsq, stxOld := t.ply.stxOld, pgw := t.ply.pgw, cgw := t.ply.cgw
    path0 := t.ply.path0, path1 := t.ply.path1 }

/-- The phase of a leaf in which arrivals count now: p, or p + 1 where p has met its condition (R234). -/
def openPhase (l : Leaf) : BitVec 16 := if l.done then l.phase + 1 else l.phase
/-- A lane's task has an arrival that has counted in a phase of a leaf (R235). -/
def hasArrived (i : LaneInfo) (core leaf : Nat) (phase : BitVec 16) : Prop :=
  ∃ k, (core, leaf, phase, k) ∈ i.arrivals ∧ 0 < k

end Sys2Proof.Claim

/-- R330, R331, R334 and R337: where every storing lane's element can be written, an ATOM issues with the addresses and operands
of the active occupied lanes, between the fences of an HORD; a FADDD, where every lane is enrolled, with the window that each lane
contributes to: phase p of its leaf where its task has not arrived in p, and p + 1 where it has (p being the next phase once the
leaf's has met its condition); else it raises ENGINE 23. No byte of memory changes. -/
def Obligations.AtomicIssue : Prop :=
  (∀ f ∈ atomics, ∀ (v : BitVec 7) p x r s (pa : Nat → Nat), RunReady s v (if f.2.2 then 2 else 1) → VectorReady s [x] →
    (∀ i ∈ storingLanes s, Reaches s .write (elementBytes f.2.1) (laneAddress s p x 0 i) i (pa i)) →
    Answers (f.1 v p x r) s fun t => Queues s t (if storingLanes s = [] then [] else
      (if s.issue.hord.isSome then [MemKind.fence true false s.hord] else []) ++
      [.atom f.2.1 (r == 1) v s.hord ((storingLanes s).map fun i => ⟨i, laneAddress s p x 0 i, pa i, (s.V v).at i,
        if f.2.2 then (s.V (v + 1)).at i else 0, false⟩) s.policy] ++
      (if s.issue.hord.isSome ∧ r = 1 then [MemKind.fence false true s.hord] else []))) ∧
  (∀ (v : BitVec 7) p x s (pa : Nat → Nat), RunReady s v 1 → VectorReady s [x] →
    (∀ i ∈ storingLanes s, Reaches s .write 4 (laneAddress s p x 0 i) i (pa i)) →
    (∀ at' : Nat → Nat × Nat, (∀ i ∈ storingLanes s, (s.ply.info i).leaf = some (at' i)) →
      Answers (.atomFaddd v p x) s fun t => ∃ w : Nat → BitVec 16,
        (∀ i ∈ storingLanes s,
          let q := openPhase (s.leaf (at' i).1 (at' i).2)
          (hasArrived (s.ply.info i) (at' i).1 (at' i).2 q → w i = q + 1) ∧
          (¬hasArrived (s.ply.info i) (at' i).1 (at' i).2 q → w i = q)) ∧
        Queues s t (if storingLanes s = [] then [] else
          [.faddd ((storingLanes s).map fun i =>
            (⟨i, laneAddress s p x 0 i, pa i, (s.V v).at i, 0, false⟩, (at' i).1, (at' i).2, w i))])) ∧
    (∀ i ∈ storingLanes s, (s.ply.info i).leaf = none → (∀ j ∈ storingLanes s, j < i → (s.ply.info j).leaf ≠ none) →
      s.ply.supervisor = false → Answers (.atomFaddd v p x) s fun t => OnlyPly s t ∧
        t.ply.ecause = BitVec.ofNat 32 (23 * 2 ^ 8 + 0x0E) ∧ t.ply.elane = BitVec.ofNat 7 i ∧ t.path.pc = s.ply.tvec ∧
        t.ply.epc = pc60 s.issue.first))

/-- R332 to R335 for atomics performed at the homes: the lanes of an element are applied one after another in ascending order,
each returning the value before it; FADD folds its operands first; FADDL writes where the sum stays within the limit. Model's
choices in it: log 8. -/
def Obligations.AtomicResults : Prop :=
  (∀ f ∈ wordAtomics, ∀ seq e ret v scope ls pol pa s, MayPerform s seq e → e.kind = .atom f.1 ret v scope ls pol →
    3 ≤ scope → OneElement s e 4 pa ls → RunReady s v 1 →
    Answers (.atomPerform s.ply.uid seq) s fun t =>
      let after (l : List AtomLane) : Word := l.foldl (fun m k => f.2 m k.a k.b) (BitVec.ofNat 32 (homeValue s pa 4))
      PerformsAtomic s t seq v ret 1 pa (leBytes 4 (after ls).toNat) ls fun l _ => after l) ∧
  (∀ f ∈ wideAtomics, ∀ seq e ret v scope ls pol pa s, MayPerform s seq e → e.kind = .atom f.1 ret v scope ls pol →
    3 ≤ scope → OneElement s e 8 pa ls → RunReady s v 2 →
    Answers (.atomPerform s.ply.uid seq) s fun t =>
      let after (l : List AtomLane) : DWord := l.foldl (fun m k => f.2 m (k.b ++ k.a)) (BitVec.ofNat 64 (homeValue s pa 8))
      PerformsAtomic s t seq v ret 2 pa (leBytes 8 (after ls).toNat) ls fun l k => (after l).extractLsb' (32 * k) 32) ∧
  (∀ seq e ret v scope ls pol pa s, MayPerform s seq e → e.kind = .atom 15 ret v scope ls pol →
    3 ≤ scope → OneElement s e 4 pa ls → RunReady s v 1 →
    Answers (.atomPerform s.ply.uid seq) s fun t =>
      let after (l : List AtomLane) : Nat := if l = [] then homeValue s pa 4 else fadd (homeValue s pa 4) (foldedOperands l)
      PerformsAtomic s t seq v ret 1 pa (leBytes 4 (after ls)) ls fun l _ => BitVec.ofNat 32 (after l)) ∧
  (∀ seq e ret v scope l pol s, MayPerform s seq e → e.kind = .atom 16 ret v scope [l] pol →
    3 ≤ scope → OneElement s e 4 l.pa [l] → RunReady s v 1 →
    Answers (.atomPerform s.ply.uid seq) s fun t =>
      PerformsAtomic s t seq v ret 1 l.pa (leBytes 4 (fadd (homeValue s l.pa 4) l.a.toNat)) [l] fun _ _ =>
        BitVec.ofNat 32 (homeValue s l.pa 4)) ∧
  (∀ seq e ret v scope l pol s, MayPerform s seq e → e.kind = .atom 14 ret v scope [l] pol →
    3 ≤ scope → OneElement s e 8 l.pa [l] → RunReady s v 2 →
    Answers (.atomPerform s.ply.uid seq) s fun t =>
      let r := homeValue s l.pa 4
      let sum := fadd r l.a.toNat
      let fits := (fp32.compare 3 sum (homeValue s (l.pa + 4) 4)).1
      PerformsAtomic s t seq v ret 2 l.pa (if fits then leBytes 4 sum else []) [l] fun _ k =>
        if k = 0 then BitVec.ofNat 32 r else truth (fits = false))

namespace Sys2Proof.Claim

/-- A finite fp32 code in units of 2^-149. -/
def unitsOf (code : Nat) : Int :=
  match fp32.value code with
  | .fin n m e => if n then -((m * 2 ^ (e + 149).toNat : Nat) : Int) else ((m * 2 ^ (e + 149).toNat : Nat) : Int)
  | _ => 0
def isNaN (code : Nat) : Prop := ∃ q, fp32.value code = .nan q
/-- The accumulator holds the exact sum of some codes, and says which specials are among them (R338). -/
def Accumulates (x : Exact) (codes : List Nat) : Prop :=
  x.sum = (codes.map unitsOf).sum ∧ (x.nan = true ↔ ∃ c ∈ codes, isNaN c) ∧
  (x.posInf = true ↔ ∃ c ∈ codes, fp32.value c = .inf false) ∧ (x.negInf = true ↔ ∃ c ∈ codes, fp32.value c = .inf true)
/-- The result of an element at its close, from its value m there (R339): the list one after another, or the exact sum with one
rounding. -/
noncomputable def closedValue (f : FElement) (m : Nat) : Nat := by
  classical
  exact match f.exact with
  | none => f.list.foldl (fun r c => fadd r c.value.toNat) m
  | some x =>
    let pos := x.posInf = true ∨ fp32.value m = .inf false
    let neg := x.negInf = true ∨ fp32.value m = .inf true
    if x.nan = true ∨ isNaN m ∨ (pos ∧ neg) then 0x7FC00000
    else if pos then 0x7F800000
    else if neg then 0xFF800000
    else
      let t := x.sum + unitsOf m
      if t = 0 then (if x.negZero = true ∧ m = 0x80000000 then 0x80000000 else 0)
      else (fp32.roundFin 0 false (decide (t < 0)) t.natAbs (-149)).1
/-- The elements whose windows close at a leaf: those of its phase, or all of its own where it resets. -/
def closingElements (s : State) (core leaf : Nat) : List FElement :=
  s.vaults.flatMap fun v => v.2.elements.filter fun g =>
    g.core == core && g.leaf == leaf && ((s.leaf core leaf).resetting || g.phase == (s.leaf core leaf).phase)

end Sys2Proof.Claim

/-- R337 to R340: a contribution accepted at its home opens the element's window, joins its list of at most 16 in the order of the
issuers, or from the 17th on enters the exact accumulator; when a phase is done, or its leaf resets, the homes compute each
element of its windows once, from its value at the close, and write it; when ptime has reached the results' completion times
the phase of an unlinked leaf ends, a leaf that resets is reset, and a linked one may report. Model's choices in it: log 63,
97. -/
def Obligations.DeterministicAdd : Prop :=
  (∀ seq e l core leaf phase s, MayPerform s seq e → e.kind = .faddd [(l, core, leaf, phase)] → s.departures = [] →
    phase = openPhase (s.leaf core leaf) ∨ phase = openPhase (s.leaf core leaf) + 1 →
    let v := s.vault (vaultOfPa l.pa)
    let mine (f : FElement) : Prop := f.core = core ∧ f.leaf = leaf ∧ f.phase = phase ∧ f.pa = l.pa
    let c : Contrib := ⟨BitVec.ofNat 32 (s.ply.plyid.toNat * 96 + l.lane), l.a, s.ply.uid, l.lane⟩
    ((∀ f ∈ v.elements, ¬mine f) → v.elements.length < 4096 → Answers (.fadddAccept s.ply.uid seq) s fun t =>
      SameMemory s t ∧ (∀ o ∈ t.ply.lsq, o ∈ s.ply.lsq ∧ o.seq ≠ seq) ∧ ∃ f, mine f ∧ f.list = [c] ∧ f.exact = none ∧
        (t.vault (vaultOfPa l.pa)).elements = v.elements ++ [f]) ∧
    (∀ f e1 e2, v.elements = e1 ++ f :: e2 → mine f → (∀ g ∈ e1 ++ e2, ¬mine g) → f.exact = none → f.list.length < 16 →
      f.list.Pairwise (fun a b => Contrib.before b a = false) → Answers (.fadddAccept s.ply.uid seq) s fun t =>
      SameMemory s t ∧ ∃ g, mine g ∧ g.exact = none ∧ (t.vault (vaultOfPa l.pa)).elements = e1 ++ g :: e2 ∧
        g.list.Perm (c :: f.list) ∧ g.list.Pairwise (fun a b => Contrib.before b a = false)) ∧
    (∀ f e1 e2, v.elements = e1 ++ f :: e2 → mine f → (∀ g ∈ e1 ++ e2, ¬mine g) → f.exact = none → f.list.length = 16 →
      Answers (.fadddAccept s.ply.uid seq) s fun t => SameMemory s t ∧ ∃ g x, mine g ∧ g.list = [] ∧ g.exact = some x ∧
        Accumulates x ((f.list ++ [c]).map fun k => k.value.toNat) ∧
        (t.vault (vaultOfPa l.pa)).elements = e1 ++ g :: e2) ∧
    (∀ f e1 e2 x cs, v.elements = e1 ++ f :: e2 → mine f → (∀ g ∈ e1 ++ e2, ¬mine g) → f.exact = some x → Accumulates x cs →
      Answers (.fadddAccept s.ply.uid seq) s fun t => SameMemory s t ∧ ∃ g y, mine g ∧ g.list = f.list ∧ g.exact = some y ∧
        Accumulates y (cs ++ [l.a.toNat]) ∧ (t.vault (vaultOfPa l.pa)).elements = e1 ++ g :: e2)) ∧
  (∀ core leaf s, (s.leaf core leaf).closing = none → (s.leaf core leaf).done = true ∨ (s.leaf core leaf).resetting = true →
    let fs := closingElements s core leaf
    fs ≠ [] → fs.Pairwise (fun f g => f.pa + 4 ≤ g.pa ∨ g.pa + 4 ≤ f.pa) →
    (∀ f ∈ fs, f.failed = false ∧ s.bad f.pa 4 = false) →
    Answers (.windowClose core leaf (s.leaf core leaf).phase.toNat) s fun t =>
      SameMemory s t ∧ t.mem = s.mem ∧ (t.leaf core leaf).closing ≠ none ∧ (t.leaf core leaf).phase = (s.leaf core leaf).phase ∧
      (∀ f ∈ fs, ∀ i, i < 4 →
        t.atHome (f.pa + i) = (leBytes 4 (closedValue f (homeValue s f.pa 4))).getD i 0) ∧
      (∀ a, (∀ f ∈ fs, a < f.pa ∨ f.pa + 4 ≤ a) → t.atHome a = s.atHome a) ∧ closingElements t core leaf = []) ∧
  (∀ core leaf time s, (s.leaf core leaf).closing = some time → time ≤ s.now → s.departures = [] →
    let l := s.leaf core leaf
    (l.resetting = false → l.done = true → l.root = none → l.next.toNat < l.expected.toNat →
      Answers (.windowClose core leaf l.phase.toNat) s fun t =>
        t.mem = s.mem ∧ t.stores = s.stores ∧ (t.leaf core leaf).phase = l.phase + 1 ∧
        (t.leaf core leaf).arrived = l.next ∧ (t.leaf core leaf).closing = none ∧ (t.leaf core leaf).done = false) ∧
    (l.resetting = false → l.root ≠ none → Answers (.windowClose core leaf l.phase.toNat) s fun t =>
        t = { s with cores := t.cores } ∧ t.leaf core leaf = { l with closing := none }) ∧
    (l.resetting = true → l.root = none → (∀ v ∈ s.vaults, ∀ g ∈ v.2.elements, g.core ≠ core ∨ g.leaf ≠ leaf) →
      Answers (.windowClose core leaf l.phase.toNat) s fun t =>
        t.mem = s.mem ∧ t.stores = s.stores ∧ (t.leaf core leaf).phase = l.phase + 1 ∧ (t.leaf core leaf).arrived = 0 ∧
        (t.leaf core leaf).next = 0 ∧ (t.leaf core leaf).bytes = 0 ∧ (t.leaf core leaf).closing = none ∧
        (t.leaf core leaf).done = false ∧ (t.leaf core leaf).resetting = false))

namespace Sys2Proof.Claim

/-! ## The matrix engine (R200 to R217) -/

/-- An MTX instruction enters the queue of its core's engine under the next issue number; no other core's queue and no byte of
memory changes. -/
def EntersMatrix (s t : State) (tile : Nat) (k : MtxKind) : Prop :=
  t = { s with ply := t.ply, seq := s.seq + 1, cores := t.cores } ∧ SameMemory s t ∧
  (∀ n, n ≠ s.ply.core → t.core n = s.core n) ∧
  t.core s.ply.core = { s.core s.ply.core with mtxq := (s.core s.ply.core).mtxq ++
    [⟨s.seq + 1, s.ply.uid, s.ply.slot, s.issue.first, s.ply.pos, tile, k, s.now⟩] }
/-- It enters the queue, the unit completes, and the ply is as p but for the path's progress. -/
def QueuesMatrix (s t : State) (p : Ply) (tile : Nat) (k : MtxKind) : Prop := EntersMatrix s t tile k ∧ UnitDone s t p
/-- The issuing path waits at its unit (R101), and the rest of the ply is as before. -/
def BeginsWait (s t : State) (w : Wait) : Prop :=
  t.path = { s.path with
    wait := w, waitWords := s.issue.words, waitPrio := t.path.waitPrio, pc := s.issue.first, since := s.now } ∧
  t.ply.slot = s.ply.slot ∧ t.ply.path t.ply.other = s.ply.path s.ply.other ∧
  t.ply = { s.ply with path0 := t.ply.path0, path1 := t.ply.path1 }

/-- The ply may use the tile (R210): it exists and the entry asked for the matrix engine. -/
def TileReady (s : State) (tile : Nat) : Prop := tile < s.ply.tiles.length ∧ s.ply.header.mma = true
/-- Every lane is a member and active (R210). -/
def Converged (s : State) : Prop := s.path.member = Mask.full ∧ s.path.active = Mask.full

/-- A descriptor group that passes its checks (R202 to R204), and the operand that it describes. -/
def Describes (s : State) (g : BitVec 6) (rows space limit base : Nat) (o : Operand) : Prop :=
  let addr := s.S64 g
  let start (m : Nat) : DWord := addr + BitVec.ofInt 64 (m * (s.S (g + 2)).toInt)
  let w := s.S (g + 3)
  o = ⟨addr.getLsbD 63, base, addr, (s.S (g + 2)).toInt, if w.getLsbD 31 then some (w.toNat % 2 ^ 17) else none⟩ ∧
  addr.toNat % 16 = 0 ∧ (s.S (g + 2)).toNat % 16 = 0 ∧
  (addr.getLsbD 63 = false → ∀ m, m < rows → canonical (start m)) ∧
  (addr.getLsbD 63 = true → addr.toNat / 2 ^ 61 % 4 = space ∧ addr.toNat / 2 ^ 21 % 2 ^ 40 = 0 ∧
    ∀ m, m < rows → (start m).toNat % 2 ^ 21 + 512 ≤ limit) ∧
  (w.getLsbD 31 = true → w.toNat / 2 ^ 17 % 2 ^ 14 = 0 ∧ w.toNat % 16 = 0 ∧ w.toNat % 2 ^ 17 + 16 * rows ≤ 131072)
/-- Where an MMA of a tile starts (R209). -/
def startOf (s : State) (tile : Nat) : Nat × Nat :=
  let r := s.ply.rpr
  if s.ply.supervisor = false ∧ r.getLsbD 31 = true ∧ r.toNat / 2 ^ 16 % 8 = tile then
    (r.toNat / 2 ^ 8 % 256 / 8, r.toNat / 2 ^ 4 % 16)
  else (0, 0)

end Sys2Proof.Claim

/-- R200 to R204, R208 to R210 and R214 to R217: where the tile exists, the entry has the matrix engine and the operands pass
their checks, a matrix instruction enters its core's queue with what it reads at issue: MMA and MMABP with their operands and, from
%rpr, where they start; with local operands they go on, with a global one their path waits for the engine. A path that is not
whole takes CONVERGE. MCVST queues its rows as stores of the active occupied lanes. (MMA's start is stated where no other MMA of
the ply is queued.) Model's choices in it: log 34, 45. -/
def Obligations.MatrixIssue : Prop :=
  (∀ t s, TileReady s t.toNat → Answers (.mzero t) s fun u => QueuesMatrix s u s.ply t.toNat .mzero) ∧
  (∀ t (g j : BitVec 6) s, TileReady s t.toNat → 2 * g.toNat + 8 ≤ s.ply.vregs.length →
    (Answers (.mrd t g j) s fun u => QueuesMatrix s u s.ply t.toNat (.mrd (2 * g.toNat) (j.toNat / 4) s.path.active)) ∧
    (Answers (.mwr t g j) s fun u => QueuesMatrix s u s.ply t.toNat (.mwr (j.toNat / 4)
      ((List.range 8).map fun c => s.V (BitVec.ofNat 7 (2 * g.toNat + c))) s.path.active))) ∧
  (∀ t (a b : BitVec 3) g h (z : BitVec 1) s x y, TileReady s t.toNat → Converged s →
    (∀ q ∈ (s.core s.ply.core).mtxq, q.uid ≠ s.ply.uid) →
    Describes s g 96 0 s.ply.windowSize s.ply.windowBase x → Describes s h 64 1 2097152 0 y →
    let k : MtxKind := .mma none a.toNat b.toNat (z == 1) x y (!s.ply.supervisor) (startOf s t.toNat)
    let bp (p : BitVec 3) : MtxKind := .mma (some (p.toNat + 2)) 5 0 (z == 1) x y (!s.ply.supervisor) (startOf s t.toNat)
    (x.loc = true → y.loc = true →
      (Answers (.mma t a b g h z) s fun u => QueuesMatrix s u s.ply t.toNat k) ∧
      ∀ p, Answers (.mmabp t p g h z) s fun u => QueuesMatrix s u s.ply t.toNat (bp p)) ∧
    (x.loc = false ∨ y.loc = false →
      (Answers (.mma t a b g h z) s fun u => EntersMatrix s u t.toNat k ∧ BeginsWait s u (.engine (s.seq + 1))) ∧
      ∀ p, Answers (.mmabp t p g h z) s fun u => EntersMatrix s u t.toNat (bp p) ∧ BeginsWait s u (.engine (s.seq + 1)))) ∧
  (∀ t (a b : BitVec 3) g h (z : BitVec 1) s, TileReady s t.toNat → ¬Converged s → s.ply.supervisor = false →
    Answers (.mma t a b g h z) s fun u => TrapsWithWord s u 0x05 0) ∧
  (∀ t (a b : BitVec 3) (g : BitVec 6) (z : BitVec 1) s, TileReady s t.toNat →
    (s.S64 g).toNat % 16 = 0 → (s.S (g + 2)).toNat % 16 = 0 →
    let n := if a = 0 then 128 else 64
    let row (m : Nat) : DWord := s.S64 g + BitVec.ofInt 64 (m * (s.S (g + 2)).toInt)
    let held (u : State) (k : MemKind) : Prop := QueuesMatrix s u
      { s.ply with lsq := s.ply.lsq ++ [⟨s.seq + 1, s.ply.slot, s.issue.first, k⟩] } t.toNat (.mcvst a.toNat (b == 1) (z == 1))
    (∀ pa : Nat → Nat, (s.S64 g).getLsbD 63 = false → storingLanes s ≠ [] →
      (∀ m ∈ storingLanes s, (row m).toNat % 65536 + n ≤ 65536 ∧ Reaches s .write 1 (row m) m (pa m)) →
      Answers (.mcvst t a b g z) s fun u => ∃ v : State,
        v = { s with tlb := v.tlb, vaults := v.vaults, homeLeases := v.homeLeases } ∧ Walked s v ∧
        QueuesMatrix v u { s.ply with lsq := s.ply.lsq ++ [⟨s.seq + 1, s.ply.slot, s.issue.first,
          .store ((storingLanes s).map fun m => ⟨m, row m, pa m, zeros n⟩) 0⟩] } t.toNat (.mcvst a.toNat (b == 1) (z == 1))) ∧
    ((s.S64 g).getLsbD 63 = true → (s.S64 g).toNat / 2 ^ 21 % 2 ^ 42 = 0 → storingLanes s ≠ [] →
      (∀ m ∈ storingLanes s, (row m).toNat % 2 ^ 21 + n ≤ s.ply.windowSize) →
      Answers (.mcvst t a b g z) s fun u => held u (.storeX ((storingLanes s).map fun m =>
        ⟨m, BitVec.ofNat 64 (2 ^ 63 + (row m).toNat % 2 ^ 21), s.ply.windowBase + (row m).toNat % 2 ^ 21, zeros n⟩) true)) ∧
    ((s.S64 g).getLsbD 63 = false → storingLanes s = [] →
      Answers (.mcvst t a b g z) s fun u => OnlyPly s u ∧ UnitDone s u s.ply))

namespace Sys2Proof.Claim

/-- A ply is as before, but that paths of it may be woken. -/
def WokenPly (p q : Ply) : Prop :=
  Woken p.path0 q.path0 ∧ Woken p.path1 q.path1 ∧ q = { p with path0 := q.path0, path1 := q.path1 }

/-- The engine's head instruction is the ply's and its fences are satisfied. -/
def EngineHead (s : State) (o : MtxOp) (rest : List MtxOp) : Prop :=
  s.ply.uid ≠ 0 ∧ o.uid = s.ply.uid ∧ (s.core s.ply.core).mtxq = o :: rest ∧ (∀ x ∈ rest, x.seq ≠ o.seq) ∧
  s.engineReady s.ply o.seq o.kind.global = true ∧ o.tile < s.ply.tiles.length

/-- The instruction has left the engine, and the ply is p. -/
def EngineDone (s t : State) (rest : List MtxOp) (p : Ply) : Prop :=
  SameMemory s t ∧ WokenPly p t.ply ∧ (t.core s.ply.core).mtxq = rest ∧ PliesKept s t ∧ t.ptime = s.ptime

/-- Element m of column n of a tile. -/
def tileAt (t : Tile) (n m : Nat) : Word := ((t[n]?).getD Lanes.zero).at m
def plyTile (p : Ply) (k : Nat) : Tile := (p.tiles[k]?).getD []

/-- The bytes of a tile word that MCVST stores (R217, R30): rounded to nearest, in bf16 or e4m3. -/
def converted (fmt : Nat) (i32 sat : Bool) (w : Word) : List Byte :=
  let v := if i32 then intValue w.toInt else fp32.value w.toNat
  if fmt = 0 then leBytes 2 (bf16.convert 0 sat v).1 else leBytes 1 (e4m3.convert 0 sat v).1

/-- Where a row or column of an operand starts (R202). -/
def rowStart (o : Operand) (r : Nat) : DWord := o.addr + BitVec.ofInt 64 (r * o.stride)
/-- Byte k of a row or column of an operand (R202, R208, R213): of its space, or of global memory as the engine's observer sees it,
pa being the physical address of each virtual one. -/
def operandByte (s : State) (seq : Nat) (sp : Space) (pa : DWord → Nat) (o : Operand) (r k : Nat) : Byte :=
  if o.loc then s.localByte s.ply.core sp (o.base + (rowStart o r).toNat % 2 ^ 21 + k)
  else (globalBytes s seq 98 (pa (rowStart o r + BitVec.ofNat 64 k)) 1).headD 0

/-- The legal pairs of formats of an MMA (R206), and the bytes and the number of its blocks (R205). -/
def formatPairs : List (Nat × Nat) := [(0, 0), (0, 1), (1, 0), (1, 1), (2, 2), (2, 3), (3, 2), (3, 3), (4, 4), (5, 5), (6, 6)]
def bytesOfBlock (f : Nat) : Nat := if f ≤ 1 then 256 else if f = 4 ∨ f = 6 then 64 else 128
def blocksOf (f : Nat) : Nat := 512 / bytesOfBlock f
/-- Element j of a block by its format code (R205), b k being byte k of the block: of the integer formats, and of every one. -/
def elementInt (f : Nat) (b : Nat → Byte) (j : Nat) : Int :=
  if f = 5 then (b j).toInt else ((b (j / 2)).extractLsb' (4 * (j % 2)) 4).toInt
def elementValue (f : Nat) (b : Nat → Byte) (j : Nat) : Value :=
  let half := (b (2 * j)).toNat + 256 * (b (2 * j + 1)).toNat
  if f = 0 then bf16.value half
  else if f = 1 then fp16.value half
  else if f = 2 then e4m3.value (b j).toNat
  else if f = 3 then e5m2.value (b j).toNat
  else if f = 4 then e2m1.value ((b (j / 2)).extractLsb' (4 * (j % 2)) 4).toNat
  else intValue (elementInt f b j)
/-- Element j of a bit-plane block of which p planes are read, plane 7 first (R34). -/
def planeValue (p : Nat) (b : Nat → Byte) (j : Nat) : Value :=
  let bit (k : Nat) : Int := if (b (16 * k + j / 8)).getLsbD (j % 8) then 2 ^ (7 - k) else 0
  intValue (((List.range (p - 1)).map fun k => bit (k + 1)).sum - bit 0 + if p < 8 then 2 ^ (7 - p) else 0)
/-- A ue8m8 scale (R32). -/
def ue8m8 (c : Nat) : Value :=
  if c = 0 then .fin false 0 0
  else if c / 256 = 255 then .nan false
  else .fin false (256 + c % 256) ((c / 256 : Int) - 135)
def nanValue (v : Value) : Prop := ∃ q, v = .nan q
def zeroValue (v : Value) : Prop := ∃ n e, v = .fin n 0 e
/-- A product of two values is an infinity of that sign (true: negative); it is a NaN. -/
def infinite (x y : Value) (neg : Bool) : Prop :=
  ∃ a b, (a != b) = neg ∧ (x = .inf a ∧ (y = .inf b ∨ ∃ m e, y = .fin b m e ∧ m ≠ 0) ∨ y = .inf b ∧ ∃ m e, x = .fin a m e ∧ m ≠ 0)
def undefinedProduct (x y : Value) : Prop :=
  nanValue x ∨ nanValue y ∨ (∃ a, x = .inf a) ∧ zeroValue y ∨ (∃ b, y = .inf b) ∧ zeroValue x
/-- A product of two finite elements in units of 2^-300. -/
def product (x y : Value) : Int :=
  match x, y with
  | .fin a m e, .fin b n f => (if a = b then 1 else -1) * ((m * n * 2 ^ (e + f + 300).toNat : Nat) : Int)
  | _, _ => 0
/-- The fp32 value of a block of 128 products with its scales (R35): specials first, else the exact sum with one rounding. -/
noncomputable def blockFloat (x y : Nat → Value) (sa sb : Value) : Nat := by
  classical
  exact
    let inf (neg : Bool) : Prop := ∃ j, j < 128 ∧ infinite (x j) (y j) neg
    if (∃ j, j < 128 ∧ undefinedProduct (x j) (y j)) ∨ nanValue sa ∨ nanValue sb ∨ (inf true ∧ inf false) then 0x7FC00000
    else if inf true ∨ inf false then
      if zeroValue sa ∨ zeroValue sb then 0x7FC00000 else if inf true then 0xFF800000 else 0x7F800000
    else
      match sa, sb with
      | .fin _ m e, .fin _ n f =>
        let p := ((List.range 128).map fun j => product (x j) (y j)).sum * (m * n : Nat)
        if p = 0 then 0 else (fp32.roundFin 0 false (decide (p < 0)) p.natAbs (e + f - 300)).1
      | _, _ => 0x7FC00000

/-- Element (m, n) of a tile after an MMA's blocks from its start, before a stop if there is one (R207, R209, R35, R36): block by
block, each added modulo 2^32 or rounded to nearest; with .Z block 0 adds to zero. -/
noncomputable def accumulated (s : State) (o : MtxOp) (planes : Option Nat) (fa fb : Nat) (z : Bool) (a b : Operand)
    (start : Nat × Nat) (stop : Option (Nat × Nat)) (pa : DWord → Nat) (n m : Nat) : Word :=
  let scale (x : Operand) (r k : Nat) : Value := match x.scales with
    | none => .fin false 1 0
    | some soff => ue8m8 (leNat ((List.range 2).map fun i => s.localByte s.ply.core .sbuf (soff + 16 * r + 2 * k + i)))
  let xs (k i : Nat) : Byte := operandByte s o.seq .xbuf pa a m (k * bytesOfBlock fa + i)
  let ys (k i : Nat) : Byte := operandByte s o.seq .wbuf pa b n (k * (if planes.isSome then 128 else bytesOfBlock fb) + i)
  let yv (k j : Nat) : Value := match planes with
    | some p => planeValue p (ys k) j
    | none => elementValue fb (ys k) j
  let ks := (List.range (blocksOf fa)).filter fun k =>
    decide (start.1 < m / 8 ∨ start.1 = m / 8 ∧ start.2 ≤ k) && match stop with
      | none => true
      | some e => decide (m / 8 < e.1 ∨ m / 8 = e.1 ∧ k < e.2)
  ks.foldl (fun acc k =>
    let base : Word := if z && decide (k = 0) then 0 else acc
    if planes = none ∧ 5 ≤ fa ∧ a.scales = none ∧ b.scales = none then
      base + BitVec.ofInt 32 ((List.range 128).map fun j => elementInt fa (xs k) j * elementInt fb (ys k) j).sum
    else
      BitVec.ofNat 32 (fadd base.toNat (blockFloat (elementValue fa (xs k)) (yv k) (scale a m k) (scale b n k))))
    (tileAt (plyTile s.ply o.tile) n m)

/-- The engine can read a byte of an operand: a local one, or a global one that translates. -/
def OperandReaches (s : State) (pa : DWord → Nat) (o : Operand) (r k : Nat) : Prop :=
  o.loc = true ∨ Reaches s .read 1 (rowStart o r + BitVec.ofNat 64 k) 127 (pa (rowStart o r + BitVec.ofNat 64 k))
/-- Nothing that R212 and R213 leave open stands between an MMA and its operands: no local word that it may see as it was, no store
performed since it issued; and no error is met. -/
def OperandsSettled (s : State) (o : MtxOp) : Prop :=
  s.stale s.ply.core = [] ∧ (∀ sp, ((s.core s.ply.core).space sp).wf = true) ∧ s.recent = [] ∧ (∀ q ∈ s.stores, q.seq < o.seq) ∧
  s.failing = [] ∧ ∀ k, (s.vault k).retired = false

end Sys2Proof.Claim

/-- R32 to R37, R205 to R209 and R215 to R217: MZERO clears the tile; MRD and MWR move a slice of eight columns between registers
and tile in the lanes that were active at issue; MCVST gives its queued rows their converted bytes; MMA and MMABP take their blocks
in order from their starting point, for every legal pair of formats, local and global operands, with and without scales, and
clear %rpr at user privilege; a block of a global operand that does not translate stops them with the blocks before it taken, the
stop in %rpr, and the fault at the lowest faulting byte. (MMA is stated where R212 and R213 leave no word of an operand open.)
Model's choices in it: log 33. -/
def Obligations.MatrixResults : Prop :=
  (∀ o rest s, EngineHead s o rest → o.kind = .mzero → Answers (.mtxEngineExecute s.ply.core) s fun t =>
    EngineDone s t rest { s.ply with tiles := t.ply.tiles } ∧
    (∀ n m, n < 64 → tileAt (plyTile t.ply o.tile) n m = 0) ∧ (∀ k, k ≠ o.tile → t.ply.tiles[k]? = s.ply.tiles[k]?)) ∧
  (∀ o rest v j act s, EngineHead s o rest → o.kind = .mrd v j act → v + 8 ≤ s.ply.vregs.length → s.ply.vregs.length ≤ 120 →
    Answers (.mtxEngineExecute s.ply.core) s fun t => EngineDone s t rest { s.ply with vregs := t.ply.vregs } ∧
      ∀ r : BitVec 7, r.toNat ≤ 119 → ∀ i, i < 96 → (t.V r).at i =
        if v ≤ r.toNat ∧ r.toNat < v + 8 ∧ act.has i = true then tileAt (plyTile s.ply o.tile) (8 * j + (r.toNat - v)) i
        else (s.V r).at i) ∧
  (∀ o rest j cols act s, EngineHead s o rest → o.kind = .mwr j cols act → cols.length = 8 → j < 8 →
    (plyTile s.ply o.tile).length = 64 → Answers (.mtxEngineExecute s.ply.core) s fun t =>
      EngineDone s t rest { s.ply with tiles := t.ply.tiles } ∧ (∀ k, k ≠ o.tile → t.ply.tiles[k]? = s.ply.tiles[k]?) ∧
      ∀ n m, n < 64 → m < 96 → tileAt (plyTile t.ply o.tile) n m =
        if 8 * j ≤ n ∧ n < 8 * j + 8 ∧ act.has m then tileAt cols (n - 8 * j) m else tileAt (plyTile s.ply o.tile) n m) ∧
  (∀ o rest fmt i32 sat e (ls : List LaneStore) c (loc mode : Bool) s, EngineHead s o rest → o.kind = .mcvst fmt i32 sat →
    let kind (l : List LaneStore) : MemKind := if loc then .storeX l mode else .store l c
    e ∈ s.ply.lsq → e.seq = o.seq → (∀ x ∈ s.ply.lsq, x.seq = o.seq → x = e) → e.kind = kind ls → (ls.map (·.lane)).Nodup →
    (∀ l ∈ ls, l.data.length = 64 * (if fmt = 0 then 2 else 1)) → (plyTile s.ply o.tile).length = 64 →
    Answers (.mtxEngineExecute s.ply.core) s fun t => EngineDone s t rest { s.ply with lsq := t.ply.lsq } ∧
      (∀ x ∈ s.ply.lsq, x.seq ≠ o.seq → x ∈ t.ply.lsq) ∧
      ⟨e.seq, e.slot, e.pc, kind (ls.map fun l => ⟨l.lane, l.va, l.pa,
        (plyTile s.ply o.tile).flatMap fun col => converted fmt i32 sat (col.at l.lane)⟩)⟩ ∈ t.ply.lsq) ∧
  (∀ o rest planes fa fb (z user : Bool) a b start s pa, EngineHead s o rest → o.kind = .mma planes fa fb z a b user start →
    (planes = none ∧ (fa, fb) ∈ formatPairs ∨ ∃ p, planes = some p ∧ 2 ≤ p ∧ p ≤ 8 ∧ fa = 5) →
    OperandsSettled s o → (plyTile s.ply o.tile).length = 64 →
    let bytesB := if planes.isSome then 128 else bytesOfBlock fb
    let readB := match planes with
      | some p => 16 * p
      | none => bytesOfBlock fb
    -- every byte of the block that some row or column takes is reached
    let blockA (g k : Nat) : Prop := ∀ r i, r / 8 = g → i < bytesOfBlock fa → OperandReaches s pa a r (k * bytesOfBlock fa + i)
    let blockB (k : Nat) : Prop := ∀ c i, c < 64 → i < readB → OperandReaches s pa b c (k * bytesB + i)
    let taken (g k : Nat) : Prop := g < 12 ∧ k < blocksOf fa ∧ (start.1 < g ∨ start.1 = g ∧ start.2 ≤ k)
    ((∀ g k, taken g k → blockA g k ∧ blockB k) → Answers (.mtxEngineExecute s.ply.core) s fun t => ∃ p : Ply,
      EngineDone s t rest p ∧
      (s.path.wait ≠ .engine o.seq → p = { s.ply with tiles := p.tiles, rpr := if user then 0 else s.ply.rpr }) ∧
      (s.path.wait = .engine o.seq → p = { s.ply with
          tiles := p.tiles, rpr := if user then 0 else s.ply.rpr, path0 := p.path0, path1 := p.path1, resumes := true
          pos := s.ply.pos + s.path.waitWords, yc := s.ply.yc + BitVec.ofNat 14 s.path.waitWords } ∧
        p.path p.other = s.ply.path s.ply.other ∧
        p.cur = { s.path with
          wait := .none, waitWords := 0, waitPrio := none, hprio := p.cur.hprio, since := s.now
          pc := (s.path.pc + BitVec.ofNat 64 (4 * s.path.waitWords)) &&& 0x0FFFFFFFFFFFFFFC }) ∧
      (∀ k, k ≠ o.tile → p.tiles[k]? = s.ply.tiles[k]?) ∧
      ∀ n m, n < 64 → m < 96 → tileAt (plyTile p o.tile) n m = accumulated s o planes fa fb z a b start none pa n m) ∧
    (∀ g k code sub (va : DWord), taken g k → (∀ g' k', taken g' k' → g' < g ∨ g' = g ∧ k' < k → blockA g' k' ∧ blockB k') →
      s.path.wait = .engine o.seq → user = true → s.ply.supervisor = false → (code = 0x0A ∨ code = 0x0B) → sub < 256 →
      canonical va → s.page s.ply.tenant .read (va.toNat / 65536) = .error (code, sub) →
      -- the lowest byte of the block that is not reached: of A, or of B where A has none
      ((∃ r i, r / 8 = g ∧ i < bytesOfBlock fa ∧ a.loc = false ∧ va = rowStart a r + BitVec.ofNat 64 (k * bytesOfBlock fa + i)) ∧
          (∀ r i, r / 8 = g → i < bytesOfBlock fa → (rowStart a r + BitVec.ofNat 64 (k * bytesOfBlock fa + i)).toNat < va.toNat →
            OperandReaches s pa a r (k * bytesOfBlock fa + i)) ∨
        blockA g k ∧ (∃ c i, c < 64 ∧ i < readB ∧ b.loc = false ∧ va = rowStart b c + BitVec.ofNat 64 (k * bytesB + i)) ∧
          (∀ c i, c < 64 → i < readB → (rowStart b c + BitVec.ofNat 64 (k * bytesB + i)).toNat < va.toNat →
            OperandReaches s pa b c (k * bytesB + i))) →
      Answers (.mtxEngineExecute s.ply.core) s fun t => ∃ u v : State, t.mem = s.mem ∧
        u = { s with ply := { s.ply with
          tiles := u.ply.tiles, rpr := BitVec.ofNat 32 (2 ^ 31 + o.tile * 2 ^ 16 + 8 * g * 2 ^ 8 + k * 2 ^ 4), resumes := true } } ∧
        EntersHandler u v s.path.pc s.ply.pos code sub 0 va 127 ∧ WokenPly v.ply t.ply ∧
        (∀ j, j ≠ o.tile → u.ply.tiles[j]? = s.ply.tiles[j]?) ∧
        ∀ n m, n < 64 → m < 96 →
          tileAt (plyTile u.ply o.tile) n m = accumulated s o planes fa fb z a b start (some (g, k)) pa n m))

/-- R382, R249 and R113: CTXSV stores the ply's context into its save area; CTXRS loads it and resumes the path as ERET does;
either raises PRIV at user privilege. The scalars, vector registers and tiles stand where R249 lays them out. Model's choices
in it: log 9, 46. -/
def Obligations.ContextSaveRestore : Prop :=
  (∀ s ls, s.ply.supervisor = true → s.regionStores ((s.ply.interrupted).regions s.ply.vregs.length true) = .ok ls →
    Answers .ctxsv s fun t => QueuesOnly s t [.store ls 0]) ∧
  (∀ (p : Ply) live latch, live ≤ p.vregs.length → live ≤ 119 → p.tiles.length ≤ 8 →
    (∃ b, (0, b) ∈ p.regions live latch ∧ b.length = 256 ∧
      ∀ r, r < 64 → num b (4 * r) 4 = (p.getS 0 (BitVec.ofNat 6 r)).toNat) ∧
    (∀ v, v < live → ∃ b, (0x4000 + 384 * v, b) ∈ p.regions live latch ∧ b.length = 384 ∧
      ∀ i, i < 96 → num b (4 * i) 4 = ((p.getV (BitVec.ofNat 7 v)).at i).toNat) ∧
    (∀ k, k < p.tiles.length → ∃ b, (0xF400 + 24576 * k, b) ∈ p.regions live latch ∧
      b = (plyTile p k).flatMap fun col => (List.range 96).flatMap fun i => leBytes 4 (col.at i).toNat)) ∧
  (∀ s (f : Nat → List Byte), s.ply.supervisor = true → s.ply.vregs.length ≤ 119 →
    (∀ o b, (o, b) ∈ s.ply.regions s.ply.vregs.length true →
      s.readVirt s.ply.core s.ply.tenant (s.ply.ssave + BitVec.ofNat 64 o) b.length = .ok (f o) ∧ (f o).length = b.length) →
    num (f 0x180) 0x5C 4 = s.ply.vregs.length → num (f 0x180) 0x60 4 = s.ply.tiles.length →
    Answers .ctxrs s fun t => OnlyPly s t ∧ t.ply.supervisor = false ∧ t.ply.running = true ∧
      (∀ r : BitVec 6, r ≠ 0 → r.toNat < 60 ∨ r.toNat = 63 → (t.S r).toNat = num (f 0) (4 * r.toNat) 4) ∧
      (∀ v i, v < s.ply.vregs.length → i < 96 →
        ((t.V (BitVec.ofNat 7 v)).at i).toNat = num (f (0x4000 + 384 * v)) (4 * i) 4) ∧
      t.ply.fflags = BitVec.ofNat 6 (num (f 0x180) 0 4) ∧ t.ply.scope = BitVec.ofNat 24 (num (f 0x180) 0x10 4) ∧
      t.path.pc = BitVec.ofNat 64 (num (f 0x180) 0x40 8) &&& 0x0FFFFFFFFFFFFFFC) ∧
  (∀ s, s.ply.supervisor = false →
    (Answers .ctxsv s fun t => TrapsWithWord s t 0x02 0) ∧ (Answers .ctxrs s fun t => TrapsWithWord s t 0x02 0))

namespace Sys2Proof.Claim

/-! ## Waits, counters and barriers (R220, R229, R233 to R236, R307 to R311) -/

/-- The issuing path begins a wait and stays at its unit (R101); everything else is as before. -/
def Waits (s t : State) (w : Wait) : Prop := OnlyPly s t ∧ BeginsWait s t w

/-- A waiting path of the ply goes on after its unit (R101), a class that HPRIO asked for kept for its next run (R89), the ply
otherwise as p. -/
def Resumes (s t : State) (p : Ply) : Prop :=
  let n := s.path.waitWords
  t.path = { s.path with
    wait := .none, waitWords := 0, waitPrio := none, hprio := t.path.hprio, active := t.path.active, since := s.now
    pc := (s.path.pc + BitVec.ofNat 64 (4 * n)) &&& 0x0FFFFFFFFFFFFFFC } ∧
  (∀ c, s.path.waitPrio = some c → t.path.hprio = some c) ∧ (s.path.waitPrio = none → t.path.hprio = s.path.hprio) ∧
  t.ply.path t.ply.other = s.ply.path s.ply.other ∧
  t.ply = { p with
    path0 := t.ply.path0, path1 := t.ply.path1, resumes := true, pos := s.ply.pos + n, yc := s.ply.yc + BitVec.ofNat 14 n }

/-- The path keeps its lanes: no scope of a member lane is cancelled (R260), and no gate saves the ply here (R350). -/
def Lives (s : State) : Prop := s.cancelledLanes s.ply &&& s.path.member = 0 ∧ s.gatesHere = false

/-- The counter of a class. -/
def counter (p : Ply) (cls : Nat) : Nat := ((p.cnt[cls]?).getD 0).toNat
/-- The first failure of a class not found yet. -/
def firstFailure (p : Ply) (cls : Nat) : Option Failure := p.failures.find? fun f => f.cls == cls
/-- LDX sees from now on what the ply's retired operations of a class wrote into its core's buffers, and after a WAITC of class PT
what retired entries of other plies wrote there (R229, R231, R293); beside the ply nothing else changes. -/
def SeesWrites (s t : State) (cls : Nat) : Prop :=
  t = { s with ply := t.ply, cores := t.cores } ∧ (∀ c, t.core c = { s.core c with unseen := (t.core c).unseen }) ∧
  ∀ w ∈ (t.core s.ply.core).unseen, w ∈ (s.core s.ply.core).unseen ∧
    (w.cls = some cls → w.uid = s.ply.uid → ∃ x ∈ s.counted, x.seq = w.seq) ∧
    (w.cls = some cls → cls = 3 → w.uid ≠ s.ply.uid → ∃ e ∈ (s.core s.ply.core).entries, e.seq = w.seq)

end Sys2Proof.Claim

/-- R220 and R229: the oldest operation of a class retires once it is complete and its counter falls by one, a failure being kept;
WAITC goes on at its count, what the retired operations wrote being seen, or waits for it; CNTR writes 1 or 0; a failure found
raises ENGINE 13 once. Model's choices in it: log 39. -/
def Obligations.CountedWaits : Prop :=
  (∀ cls c s, cls < 3 → s.ply.uid ≠ 0 → (∀ p ∈ s.ghosts, p.uid ≠ s.ply.uid) → s.ply.occ ≠ 0 →
    s.counted.find? (fun x => x.uid == s.ply.uid && x.cls == cls) = some c → c.complete = true →
    (∀ x ∈ s.cores, ∀ o ∈ x.2.copyq, o.seq = c.seq → o.unwritten = []) →
    (∀ o ∈ s.fabric, o.seq = c.seq → o.owed = [] ∧ o.unwritten = 0) →
    Answers (.retirement s.ply.uid cls) s fun t => SameMemory s t ∧ t.counted = s.counted.filter (fun x => x.seq != c.seq) ∧
      (∀ k : Nat, k < 4 → (t.ply.cnt[k]?).getD 0 = (s.ply.cnt[k]?).getD 0 - if k = cls then 1 else 0) ∧
      t.ply = { s.ply with cnt := t.ply.cnt, failures := s.ply.failures ++ c.failure.toList }) ∧
  (∀ (c : BitVec 2) (k : BitVec 8) s, Lives s →
    (counter s.ply c.toNat ≤ k.toNat → firstFailure s.ply c.toNat = none → Answers (.waitc c k) s fun t =>
      SeesWrites s t c.toNat ∧ UnitDone s t s.ply) ∧
    (k.toNat < counter s.ply c.toNat → Answers (.waitc c k) s fun t => Waits s t (.waitc c.toNat k.toNat)) ∧
    (∀ f, counter s.ply c.toNat ≤ k.toNat → firstFailure s.ply c.toNat = some f → s.ply.supervisor = false →
      Answers (.waitc c k) s fun t => OnlyPly s t ∧
        EntersHandler { s with ply := { s.ply with failures := s.ply.failures.erase f } } t s.issue.first s.ply.pos 0x0E 13
          f.detail.toNat f.addr 127)) ∧
  (∀ d (c : BitVec 2) (k : BitVec 8) s, k.toNat < counter s.ply c.toNat ∨ firstFailure s.ply c.toNat = none →
    Answers (.cntr d c k) s fun t => WritesScalar { s with cores := t.cores } t d (truth (counter s.ply c.toNat ≤ k.toNat)) ∧
      (k.toNat < counter s.ply c.toNat → t.cores = s.cores) ∧ (counter s.ply c.toNat ≤ k.toNat → SeesWrites s t c.toNat)) ∧
  (∀ cls k s, s.ply.uid ≠ 0 → s.path.wait = .waitc cls k → counter s.ply cls ≤ k → firstFailure s.ply cls = none →
    Answers (.waitcReturn s.ply.uid) s fun t => SeesWrites s t cls ∧ Resumes s t s.ply)

namespace Sys2Proof.Claim

/-- The barrier word of S[b] names a leaf of the ply's cluster (R233). -/
def NamesLeaf (s : State) (b : BitVec 6) (core leaf : Nat) : Prop :=
  (s.S b).toNat = 32 * core + leaf ∧ leaf < 32 ∧ core < 1024 ∧ core / 8 = s.ply.core / 8

/-- The barrier unit of a core holds a leaf as l, and otherwise nothing outside the ply changed. -/
def SetsLeaf (s t : State) (core leaf : Nat) (l : Leaf) : Prop :=
  t = { s with ply := t.ply, cores := t.cores } ∧ SameMemory s t ∧ t.leaf core leaf = l ∧
  (∀ c n, c ≠ core ∨ n ≠ leaf → t.leaf c n = s.leaf c n) ∧
  ∀ c, t.core c = { s.core c with leaves := (t.core c).leaves }

/-- A path waits at a leaf (R235, R311). -/
def waitsAt (w : Wait) (core leaf : Nat) : Prop :=
  match w with
  | .barw c l _ _ | .barawNext c l _ _ | .baraw c l _ | .released c l _ _ _ => c = core ∧ l = leaf
  | _ => False
/-- A leaf is in use (R235): it has an arrival that has counted, an enrolled task or a waiting path. -/
def InUse (s : State) (core leaf : Nat) : Prop :=
  (s.leaf core leaf).arrived ≠ 0 ∨ (s.leaf core leaf).next ≠ 0 ∨
  ∃ p ∈ s.everyPly, waitsAt p.path0.wait core leaf ∨ waitsAt p.path1.wait core leaf ∨
    ∃ i, i < 96 ∧ (p.info i).leaf = some (core, leaf)

/-- The arrivals of a unit's storing lanes begin their release wait (R310). -/
def BeginsArrival (s t : State) (core leaf : Nat) (waits : Bool) : Prop :=
  t = { s with ply := t.ply, seq := s.seq + 1, arrivals := t.arrivals } ∧ SameMemory s t ∧
  t.arrivals = s.arrivals ++
    [⟨s.seq + 1, s.ply.uid, core, leaf, storingLanes s, s.leafScope s.ply.core core leaf, waits⟩]

end Sys2Proof.Claim

/-- R233 to R235 and R310: the barrier instructions at issue. BARA arrives for the storing lanes or, without one, reads the phase;
BARA.ENR enrols them and reads it; BARW goes on where the phase differs and waits where it does not; BARAW arrives and waits;
BARX adds expected bytes; BARINIT sets a leaf that is not in use. Model's choices in it: log 48, 49. -/
def Obligations.BarrierInstructions : Prop :=
  ∀ (b : BitVec 6) core leaf s, NamesLeaf s b core leaf →
  let phase := (s.leaf core leaf).phase
  (∀ d, storingLanes s = [] → Answers (.bara d b) s fun t => WritesScalar s t d (phase.zeroExtend 32)) ∧
  (∀ d, storingLanes s ≠ [] → Answers (.bara d b) s fun t => BeginsArrival s t core leaf false ∧
    UnitDone s t { s.ply with hubq := s.ply.hubq ++ [⟨s.seq + 1, s.ply.slot, .bara d⟩] }) ∧
  (∀ d, (∀ i ∈ storingLanes s, (s.ply.info i).leaf = none ∨ (s.ply.info i).leaf = some (core, leaf)) →
    Answers (.baraEnr d b) s fun t => OnlyPly s t ∧ Advanced s t ∧ PathsKept s t ∧ (∀ r, t.S r = s.afterWrite d (phase.zeroExtend 32) r) ∧
      (∀ i, i < 96 → t.ply.info i =
        { s.ply.info i with leaf := if i ∈ storingLanes s then some (core, leaf) else (s.ply.info i).leaf }) ∧
      t.ply = { s.ply with
        sregs := t.ply.sregs, lanes := t.ply.lanes, path0 := t.ply.path0, path1 := t.ply.path1, pos := t.ply.pos
        yc := t.ply.yc }) ∧
  -- the memory scope (R310): 1 at a leaf of the ply's own core without a root, else 2
  let scope := if core = s.ply.core ∧ (s.leaf core leaf).root = none then 1 else 2
  (∀ p, Lives s → (s.S p).extractLsb' 0 16 ≠ phase → Answers (.barw p b) s fun t => QueuesOnly s t [.fence false true scope]) ∧
  (∀ p, Lives s → (s.S p).extractLsb' 0 16 = phase → Answers (.barw p b) s fun t => Waits s t (.barw core leaf phase scope)) ∧
  (Lives s → storingLanes s = [] → Answers (.baraw b) s fun t => Waits s t (.barw core leaf phase scope)) ∧
  (Lives s → storingLanes s ≠ [] → Answers (.baraw b) s fun t => BeginsArrival s t core leaf true ∧
    BeginsWait s t (.baraw core leaf (s.seq + 1))) ∧
  (∀ n, storingLanes s = [] → Answers (.barx n b) s fun t => OnlyPly s t ∧ UnitDone s t s.ply) ∧
  (∀ n, storingLanes s ≠ [] → (s.leaf core leaf).bytes + s.S n ≠ 0 → Answers (.barx n b) s fun t =>
    UnitDone s t s.ply ∧ SetsLeaf s t core leaf { s.leaf core leaf with bytes := (s.leaf core leaf).bytes + s.S n }) ∧
  (∀ n, ¬InUse s core leaf → (s.S n).toNat / 2 ^ 16 = 0 → (s.leaf core leaf).root = none → (s.leaf core leaf).closing = none →
    Answers (.barinit n b) s fun t => UnitDone s t s.ply ∧ SetsLeaf s t core leaf { s.leaf core leaf with
      expected := (s.S n).extractLsb' 0 16, arrived := 0, bytes := 0, done := false }) ∧
  (∀ n r, ¬InUse s core leaf → (s.S n).toNat / 2 ^ 16 = 2 ^ 15 + r * 2 ^ 8 → r < 32 → (s.leaf core leaf).root = none →
    (s.leaf core leaf).closing = none → Answers (.barinit n b) s fun t => SameMemory s t ∧ UnitDone s t s.ply ∧
      t.leaf core leaf = { s.leaf core leaf with
        expected := (s.S n).extractLsb' 0 16, arrived := 0, bytes := 0, done := false, root := some r } ∧
      t.root (core / 8) r = { s.root (core / 8) r with linked := (s.root (core / 8) r).linked + 1 }) ∧
  (∀ n, InUse s core leaf → (s.S n).toNat / 2 ^ 16 = 0 → s.ply.supervisor = false →
    Answers (.barinit n b) s fun t => ∃ e, TakesTrap s t s.issue.first s.ply.pos 0x0E 12 0 e 127)

namespace Sys2Proof.Claim

/-- An arrival of the ply in hand whose release wait is over. -/
def FreeArrival (s : State) (a : Arrival) : Prop :=
  s.ply.uid ≠ 0 ∧ a.uid = s.ply.uid ∧ s.arrivals.find? (fun x => x.seq == a.seq) = some a ∧ s.arrivalFree a = true
/-- The leaf with the arrival's lanes counted: in its phase, or, where that is done, for the next one. -/
def counted (s : State) (a : Arrival) : Leaf :=
  let l := s.leaf a.core a.leaf
  let n := BitVec.ofNat 16 a.lanes.length
  if l.done = true then { l with next := l.next + n } else { l with arrived := l.arrived + n }
/-- The completion condition of R234, which a phase meets once. -/
def Completes (l : Leaf) : Prop := l.done = false ∧ l.expected.toNat ≤ l.arrived.toNat ∧ l.arrived ≠ 0 ∧ l.bytes = 0

end Sys2Proof.Claim

/-- R234, R235, R308, R310 and R311: arrivals are added once their release wait is over, in the phase that is current or, where it
is done, in the next; a leaf that then meets its condition begins its next phase, or, linked to a root, is done and reports, and
its root flips when all its leaves have; a flip ends the leaf's phase; the paths of a wave go on with an acquire fence at the scope
that their wait had. An arrival at a leaf that resets waits (the model's choice). Model's choices in it: log 97. -/
def Obligations.BarrierEvents : Prop :=
  (∀ a s, FreeArrival s a → ¬Completes (counted s a) → Answers (.barrierArrival a.core a.seq) s fun t =>
    let l := s.leaf a.core a.leaf
    SameMemory s t ∧ t.leaf a.core a.leaf = counted s a ∧ t.arrivals = s.arrivals.filter (fun x => x.seq != a.seq) ∧
    (a.waits = true → Woken { s.path with
      wait := if l.done = true then .barawNext a.core a.leaf l.phase a.scope else .barw a.core a.leaf l.phase a.scope } t.path) ∧
    (∀ d slot, a.waits = false → s.ply.hubq.find? (fun h => h.seq == a.seq) = some ⟨a.seq, slot, .bara d⟩ →
      slot = s.ply.slot → (∀ r, t.S r = s.afterWrite d (l.phase.zeroExtend 32) r) ∧
        t.ply.hubq = s.ply.hubq.filter fun h => h.seq != a.seq)) ∧
  (∀ a s, FreeArrival s a → Completes (counted s a) → Answers (.barrierArrival a.core a.seq) s fun t =>
    let l := s.leaf a.core a.leaf
    SameMemory s t ∧
    (l.root = none → s.hasWindow a.core a.leaf l.phase = false →
      (t.leaf a.core a.leaf).phase = l.phase + 1 ∧ (t.leaf a.core a.leaf).arrived = l.next ∧
      (t.leaf a.core a.leaf).done = false ∧ (t.leaf a.core a.leaf).expected = l.expected) ∧
    (l.root ≠ none → t.leaf a.core a.leaf = { counted s a with done := true })) ∧
  (∀ core leaf n s, s.mayReport core leaf = true → (s.leaf core leaf).root = some n →
    let r := s.root (core / 8) n
    Answers (.rootReport core leaf) s fun t => SameMemory s t ∧ (t.leaf core leaf).reported = true ∧
      (r.reported + 1 ≠ r.linked → t.root (core / 8) n = { r with reported := r.reported + 1 } ∧
        (t.leaf core leaf).flip = false) ∧
      (r.reported + 1 = r.linked → (t.leaf core leaf).flip = true ∧ ∃ r' : Root,
        t.root (core / 8) n = { r' with phase := r.phase + 1, reported := 0, linked := r.linked })) ∧
  (∀ core leaf s, (s.leaf core leaf).flip = true → (s.leaf core leaf).root ≠ none → s.departures = [] →
    Answers (.rootFlipArrival core leaf) s fun t =>
      SameMemory s t ∧ (t.leaf core leaf).phase = (s.leaf core leaf).phase + 1 ∧ (t.leaf core leaf).flip = false ∧
        (t.leaf core leaf).reported = false ∧ (t.leaf core leaf).arrived = (s.leaf core leaf).next ∧
        (t.leaf core leaf).next = 0) ∧
  (∀ cluster scope release w s, s.ply.uid ≠ 0 → s.waves cluster = [(s.ply.uid, scope, release, w)] →
    Answers (.releaseWave cluster) s fun t => SameMemory s t ∧ Resumes s t { s.ply with lsq := s.ply.lsq ++
      [⟨s.seq + 1, s.ply.slot, s.path.pc, .fence false true scope⟩] })

namespace Sys2Proof.Claim

/-! ## Copies (R219 to R232) and the vertical FIFOs (R347, R348) -/

/-- A copy operation of a class enters its core's queue and is counted (R219, R220). -/
def QueuesCopy (s t : State) (cls lane : Nat) (scope : BitVec 24) (scopes : List (BitVec 24)) (k : CopyKind) : Prop :=
  t = { s with ply := t.ply, seq := s.seq + 1, counted := t.counted, cores := t.cores } ∧ SameMemory s t ∧
  t.counted = s.counted ++ [⟨s.seq + 1, s.ply.uid, cls, false, none, scopes, s.ply.tenant⟩] ∧
  counter t.ply cls = (counter s.ply cls + 1) % 2 ^ 16 ∧ UnitDone s t { s.ply with cnt := t.ply.cnt } ∧
  t.core s.ply.core = { s.core s.ply.core with copyq := (s.core s.ply.core).copyq ++
    [⟨s.seq + 1, s.ply.uid, s.issue.first, s.ply.tenant, lane, scope, k, false, false, none, [], []⟩] }

/-- One end of a lane's copy (R224): a local address in a space it may name, or a global one. -/
def CopyEnd (s : State) (base : DWord) (off : Word) (dest : Bool) (n lane : Nat) (p : Place) (pa : Nat) : Prop :=
  let a := base + off.signExtend 64
  if base.getLsbD 63 = true then
    a.toNat / 2 ^ 21 % 2 ^ 40 = 0 ∧ a.toNat % 2 ^ 21 % n = 0 ∧
    ∃ sp, p = .loc sp pa ∧ (dest = true ∨ sp = .xbuf) ∧ match sp with
      | .xbuf => a.toNat / 2 ^ 61 % 4 = 0 ∧ a.toNat % 2 ^ 21 + n ≤ s.ply.windowSize ∧ pa = s.ply.windowBase + a.toNat % 2 ^ 21
      | .wbuf => a.toNat / 2 ^ 61 % 4 = 1 ∧ a.toNat % 2 ^ 21 + n ≤ 2097152 ∧ pa = a.toNat % 2 ^ 21
      | .sbuf => a.toNat / 2 ^ 61 % 4 = 2 ∧ a.toNat % 2 ^ 21 + n ≤ 131072 ∧ pa = a.toNat % 2 ^ 21
  else p = .glob a ∧ Reaches s (if dest then .write else .read) n a lane pa

/-- The bytes of a place of a core's buffers. -/
def placeByte (s : State) (core : Nat) (p : Place) (i : Nat) : Byte :=
  match p with
  | .loc sp a => s.localByte core sp (a + i)
  | .glob _ => 0
/-- A unit's bytes (R226): its source's, or the pad unit. -/
def unitBytes (s : State) (core : Nat) (u : CopyUnit) : List Byte :=
  match u.src with
  | none => u.pad
  | some p => (List.range u.n).map (placeByte s core p)
/-- A unit written over the byte at a of a space. -/
def writtenOver (s : State) (core : Nat) (sp : Space) (a : Nat) (b : Byte) (u : CopyUnit) : Byte :=
  match u.dst with
  | .loc sp' a' => if sp' = sp then overlay a' (unitBytes s core u) a b else b
  | .glob _ => b
def isLocalPlace : Place → Prop
  | .loc _ _ => True
  | .glob _ => False

/-- A check of a table: its condition, the cause and sub-code that it raises, and what %eaddr then is. -/
structure Check where
  fails : Prop
  code  : Nat
  sub   : Nat
  addr  : DWord → Prop
/-- The first condition of a table that holds is raised, with %elane 127. -/
def RaisesFirst (i : Instr) (s : State) (cs : List Check) : Prop :=
  ∀ l1 c l2, cs = l1 ++ c :: l2 → (∀ b ∈ l1, ¬b.fails) → c.fails → s.ply.supervisor = false →
    Answers i s fun t => ∃ e, c.addr e ∧ TakesTrap s t s.issue.first s.ply.pos c.code c.sub 0 e 127
def allPass (cs : List Check) : Prop := ∀ c ∈ cs, ¬c.fails

/-- The fields of a shape record's base and control word (R221). -/
def fmtOf (r : Shape) : Nat := r.base.toNat / 2 ^ 60
def addrOf (r : Shape) : Nat := r.base.toNat % 2 ^ 60
def locOf (r : Shape) : Bool := r.ctl.getLsbD 14
def trOf (r : Shape) : Bool := r.ctl.getLsbD 13
def blkOf (r : Shape) : Nat := r.ctl.toNat / 2 ^ 11 % 4
def sclOf (r : Shape) : Bool := r.ctl.getLsbD 10
/-- Bytes of a unit (R222). -/
def unitOf (f : Nat) : Nat := if f = 5 ∨ f = 7 then 1 else if f = 14 then 16 else fmtBits f / 8
/-- The pad unit (R222). -/
def padOf (r : Shape) (u : Nat) : List Byte := ((List.range 4).flatMap fun _ => leBytes 4 r.pad.toNat).take u
/-- The space that a record names; a global one counts as XBUF. -/
def spaceNumber (r : Shape) : Nat := if locOf r then r.base.toNat / 2 ^ 30 % 4 else 0

/-- A record that a copy reads, with its extents and strides in effect (R225, R226, R227). -/
structure InEffect where
  shape  : Shape
  unit   : Nat
  ext    : List Nat
  stride : List Int
def asSource (r : Shape) : InEffect := ⟨r, unitOf (fmtOf r), r.ext, r.stride⟩
def asDest (r : Shape) : InEffect :=
  let u := unitOf (fmtOf r)
  if blkOf r = 1 then ⟨r, u, (512 / u) :: 96 :: r.ext.drop 2, (u : Int) :: 512 :: r.stride.drop 2⟩
  else if blkOf r = 2 then ⟨r, u, (512 / u) :: 64 :: r.ext.drop 2, (u : Int) :: 512 :: r.stride.drop 2⟩
  else asSource r
def asScales (r : Shape) : InEffect := ⟨r, 2, r.ext.take 2, r.stride.take 2⟩
/-- The walk of a record of the ply: its space or none, where its offset 0 lies, its base, its counters. -/
def walkFor (s : State) (r : InEffect) : Walk :=
  { loc := if locOf r.shape then (if spaceNumber r.shape = 0 then some .xbuf
      else if spaceNumber r.shape = 1 then some .wbuf else some .sbuf) else none
    origin := if locOf r.shape ∧ spaceNumber r.shape = 0 then s.ply.windowBase else 0
    base := BitVec.ofNat 64 (if locOf r.shape then addrOf r.shape % 2 ^ 30 else addrOf r.shape)
    ext := r.ext
    stride := r.stride }

/-- An index tuple of a walk (R222), the distance that it is at, and the offset of its unit in a local space. -/
def InWalk (t ext : List Nat) : Prop := t.length = ext.length ∧ ∀ k, k < ext.length → t.getD k 0 < ext.getD k 0
def distanceOf (w : Walk) (t : List Nat) : Int := ((List.range t.length).map fun k => (t.getD k 0 : Int) * w.stride.getD k 0).sum
def offsetOf (w : Walk) (t : List Nat) : Nat := (((w.base.toNat : Int) + distanceOf w t) % 2 ^ 32).toNat
/-- Bytes of a record's space or of the ply's window. -/
def sizeOfSpace (s : State) (r : Shape) : Nat :=
  if spaceNumber r = 0 then s.ply.windowSize else if spaceNumber r = 1 then 2097152 else 131072
/-- Offset o is that of a byte, at or beyond the end, of some unit of a local record among those that a copy reads. -/
def BeyondEnd (s : State) (r : InEffect) (o : Nat) (reads : List Nat → Prop) : Prop :=
  locOf r.shape = true ∧ ∃ t, InWalk t r.ext ∧ reads t ∧
    ∃ i, i < r.unit ∧ o = offsetOf (walkFor s r) t + i ∧ sizeOfSpace s r.shape ≤ o

/-- The checks of TCOPY and TCOPYX from order 2 on (R225, R227), of current records. -/
def copyChecks (s : State) (x : Bool) (soff bar : Word) (a b : Shape) (c : Option Shape) : List Check :=
  let src := asSource a
  let dst := asDest b
  let scs := c.toList.map asScales
  let all := src :: dst :: scs
  let scl : Prop := x = true ∧ sclOf b = true
  let rows := if blkOf b = 1 then 96 else 64
  let plain (r : Shape) : Prop := trOf r = false ∧ blkOf r = 0 ∧ sclOf r = false
  let far (o : Nat) : Prop := BeyondEnd s src o (fun _ => True) ∨ BeyondEnd s dst o (fun _ => True) ∨
    ∃ r ∈ scs, BeyondEnd s r o fun t => t.getD 0 0 < 8 ∧ t.getD 1 0 < rows
  let offset (r : Shape) : DWord → Prop := fun e => e = BitVec.ofNat 64 (r.base.toNat % 2 ^ 30)
  [⟨fmtOf a ≠ fmtOf b ∨ (∃ r ∈ all, (∃ e ∈ r.ext, e = 0) ∨ r.shape.ctl.toNat % 2 ^ 10 ≠ 0 ∨ r.shape.byte61 ≠ 0 ∨
        locOf r.shape = true ∧ r.shape.base.toNat / 2 ^ 32 % 2 ^ 28 ≠ 0) ∨ blkOf b = 3 ∨ ¬plain a ∨ (x = false ∧ ¬plain b) ∨
        (∃ r ∈ c, ¬plain r) ∨ (scl ∧ (blkOf b = 0 ∨ c.map fmtOf ≠ some 13)), 0x0E, 8, fun _ => True⟩] ++
    all.map (fun r => ⟨spaceNumber r.shape = 3, 0x0C, 2, offset r.shape⟩) ++
    (src :: scs).map (fun r => ⟨spaceNumber r.shape ≠ 0, 0x0C, 3, offset r.shape⟩) ++
    all.map (fun r => ⟨addrOf r.shape % r.unit ≠ 0 ∨
      ∃ k, k < r.ext.length ∧ 1 < r.ext.getD k 0 ∧ r.stride.getD k 0 % (r.unit : Int) ≠ 0, 0x08, 0,
      fun e => e = BitVec.ofNat 64 (addrOf r.shape)⟩) ++
    [⟨scl ∧ soff.toNat % 16 ≠ 0, 0x08, 0, fun e => e = soff.zeroExtend 64⟩,
      ⟨∃ o, far o, 0x0C, 0, fun e => ∃ o, far o ∧ (∀ o', far o' → o ≤ o') ∧ e = BitVec.ofNat 64 o⟩,
      ⟨scl ∧ 131072 < soff.toNat + 16 * rows, 0x0C, 0, fun e => e = soff.zeroExtend 64⟩,
      ⟨bar.getLsbD 31 = true ∧ (bar.toNat / 2 ^ 15 % 2 ^ 16 ≠ 0 ∨ bar.toNat / 2 ^ 8 % 2 ^ 7 ≠ s.ply.core / 8), 0x0E, 11, fun _ => True⟩]

/-- What a bulk copy does (R225 to R227): its walks, whether it transposes, its pad unit, its scales, its barrier. -/
def bulkCopy (s : State) (x : Bool) (soff bar : Word) (a b : Shape) (c : Option Shape) : CopyKind :=
  .tcopy (unitOf (fmtOf b)) (walkFor s (asSource a)) (walkFor s (asDest b)) (trOf b) (padOf a (unitOf (fmtOf a)))
    (if x && sclOf b then c.map fun r =>
      (walkFor s (asScales r), padOf r 2, soff.toNat, if blkOf b = 1 then 96 else 64) else none)
    (if bar.getLsbD 31 then some (bar.toNat / 2 ^ 5 % 2 ^ 10, bar.toNat % 2 ^ 5) else none)

/-- The scale handle of a copy: used in TCOPYX where the destination places scales and the source names one (R227). -/
def usesScales (x : Bool) (a b : Shape) : Prop := x = true ∧ sclOf b = true ∧ a.scale ≠ 0
/-- A word of a list of bytes, and a signed field. -/
def fieldAt (b : List Byte) (o n : Nat) : Nat := leNat (slice b o n)
def signedAt (b : List Byte) (o n : Nat) : Int := (BitVec.ofNat (8 * n) (fieldAt b o n)).toInt
/-- The next generation of a slot (R223). -/
def generationAfter (g : Nat) : Nat := if g = 2 ^ 20 - 1 then 1 else g + 1
def slotGeneration (s : State) (tenant slot : Nat) : Nat := (tget (0, none) slot (s.tenant tenant).shapes).1.toNat
/-- A request of the issuing path is the first that the hub may answer. -/
def FirstRequest (s : State) (k : HubKind) (seq : Nat) : Prop :=
  s.ply.uid ≠ 0 ∧ (∀ e ∈ s.ply.lsq, e.seq ≠ seq) ∧ ∃ l, s.ply.hubq = ⟨seq, s.ply.slot, k⟩ :: l ∧ ∀ h ∈ l, h.seq ≠ seq

end Sys2Proof.Claim

/-- R219 and R221 to R228: SHAPEW and SHAPEREL ask the hub: the slot's generation advances, 0 never, the record holds the fields of
the 64 bytes, S[d] receives the new handle; SHAPEREL empties the slot of a current handle. LCP, TCOPY and TCOPYX enter the copy
engine's queue and are counted, a bulk copy with its walks, where no check of R225 fails; the first that fails is raised; with no
counted lane nothing is queued. The units of a bulk copy follow the destination walk, counter 0 fastest. (Which record LOCALRANGE
and ALIGN report where several fail is the model's reading.) Model's choices in it: log 47, 52. -/
def Obligations.CopyIssue : Prop :=
  (∀ d a o s, RaisesFirst (.shapew d a o) s [⟨4096 ≤ (s.S a).toNat, 0x0E, 10, fun _ => True⟩,
    ⟨(s.S o).toNat / 2 ^ 30 = 3, 0x0C, 2, fun e => e = BitVec.ofNat 64 ((s.S o).toNat % 2 ^ 30)⟩,
    ⟨(s.S o).toNat / 2 ^ 30 ≠ 0, 0x0C, 3, fun e => e = BitVec.ofNat 64 ((s.S o).toNat % 2 ^ 30)⟩,
    ⟨(s.S o).toNat % 64 ≠ 0, 0x08, 0, fun e => e = (s.S o).zeroExtend 64⟩,
    ⟨s.ply.windowSize < (s.S o).toNat + 64, 0x0C, 0, fun e => e = BitVec.ofNat 64 (s.S o).toNat⟩]) ∧
  (∀ d a o s, (s.S a).toNat < 4096 → (s.S o).toNat / 2 ^ 30 = 0 → (s.S o).toNat % 64 = 0 →
    (s.S o).toNat + 64 ≤ s.ply.windowSize → Answers (.shapew d a o) s fun t =>
      t = { s with ply := t.ply, seq := s.seq + 1 } ∧ SameMemory s t ∧ UnitDone s t { s.ply with hubq := s.ply.hubq ++
        [⟨s.seq + 1, s.ply.slot, .shapew d (s.S a).toNat (s.ply.windowBase + (s.S o).toNat)⟩] }) ∧
  (∀ a s, Answers (.shaperel a) s fun t => t = { s with ply := t.ply, seq := s.seq + 1 } ∧ SameMemory s t ∧
    UnitDone s t { s.ply with hubq := s.ply.hubq ++ [⟨s.seq + 1, s.ply.slot, .shaperel (s.S a)⟩] }) ∧
  (∀ seq d slot off s, FirstRequest s (.shapew d slot off) seq → slot < 4096 → s.ply.tenant < 16 →
    (∀ e ∈ s.ply.lsq, e.kind.isStoreX = false) → ((s.core s.ply.core).space .xbuf).wf = true →
    Answers (.longLatencyResult s.ply.uid seq) s fun t =>
      let b := (List.range 64).map fun i => s.localByte s.ply.core .xbuf (off + i)
      let g := generationAfter (slotGeneration s s.ply.tenant slot)
      let h : Word := BitVec.ofNat 32 (slot * 2 ^ 20 + g)
      let aux := fieldAt b 62 2 / 2 ^ 15 = 1
      SameMemory s t ∧ (∀ r, t.S r = s.afterWrite d h r) ∧ (∀ e ∈ t.ply.hubq, e.seq ≠ seq) ∧ ∃ r, t.shapeOf s.ply.tenant h = some r ∧
        r.base.toNat = fieldAt b 0 8 ∧ r.ctl.toNat = fieldAt b 62 2 ∧
        (∀ k, k < 5 → r.ext.getD k 0 = fieldAt b (8 + 4 * k) 4 ∧ r.stride.getD k 0 = signedAt b (28 + 5 * k) 5) ∧
        r.ext.length = 6 ∧ r.stride.length = 6 ∧
        (aux → r.ext.getD 5 0 = 1 ∧ r.pad.toNat = fieldAt b 53 4 ∧ r.scale.toNat = fieldAt b 57 4 ∧ r.byte61.toNat = fieldAt b 61 1) ∧
        (¬aux → r.ext.getD 5 0 = fieldAt b 53 4 ∧ r.stride.getD 5 0 = signedAt b 57 5 ∧ r.pad = 0 ∧ r.scale = 0 ∧ r.byte61 = 0)) ∧
  (∀ seq (h : Word) s, FirstRequest s (.shaperel h) seq → s.ply.tenant < 16 →
    Answers (.longLatencyResult s.ply.uid seq) s fun t => SameMemory s t ∧ (∀ e ∈ t.ply.hubq, e.seq ≠ seq) ∧
      (s.shapeOf s.ply.tenant h = none → t.tenants = s.tenants) ∧
      (s.shapeOf s.ply.tenant h ≠ none → t.shapeOf s.ply.tenant h = none ∧
        slotGeneration t s.ply.tenant (h.toNat / 2 ^ 20) = generationAfter (h.toNat % 2 ^ 20) ∧
        ∀ g : Word, g.toNat / 2 ^ 20 ≠ h.toNat / 2 ^ 20 → t.shapeOf s.ply.tenant g = s.shapeOf s.ply.tenant g)) ∧
  (∀ d r (i : BitVec 7) (z : BitVec 2) s (src dst : Nat → Place) (spa dpa : Nat → Nat), i.toNat + 2 ≤ s.ply.vregs.length →
    i.toNat ≤ 118 → (∀ l ∈ storingLanes s, CopyEnd s (s.S64 r) ((s.V (i + 1)).at l) false (4 * 2 ^ z.toNat) l (src l) (spa l) ∧
      CopyEnd s (s.S64 d) ((s.V i).at l) true (4 * 2 ^ z.toNat) l (dst l) (dpa l)) →
    Answers (.lcp d r i z) s fun t =>
      if storingLanes s = [] then OnlyPly s t ∧ UnitDone s t s.ply
      else ∃ (v : State) (scopes : List (BitVec 24)),
        v = { s with tlb := v.tlb, vaults := v.vaults, homeLeases := v.homeLeases } ∧ Walked s v ∧
        QueuesCopy v t 0 127 0 scopes (.lcp (4 * 2 ^ z.toNat)
          ((storingLanes s).map fun l => ⟨l, dst l, src l, dpa l, spa l⟩) s.policy)) ∧
  (∀ f ∈ [((.tcopy : BitVec 6 → Instr), false), (.tcopyx, true)], ∀ g s,
    (storingLanes s = [] → Answers (f.1 g) s fun t => OnlyPly s t ∧ UnitDone s t s.ply) ∧
    (storingLanes s ≠ [] → s.ply.supervisor = false →
      (s.shapeOf s.ply.tenant (s.S g) = none →
        Answers (f.1 g) s fun t => TakesTrap s t s.issue.first s.ply.pos 0x0D 0 0 ((s.S g).zeroExtend 64) 127) ∧
      (s.shapeOf s.ply.tenant (s.S g) ≠ none → s.shapeOf s.ply.tenant (s.S (g + 1)) = none →
        Answers (f.1 g) s fun t => TakesTrap s t s.issue.first s.ply.pos 0x0D 0 0 ((s.S (g + 1)).zeroExtend 64) 127)) ∧
    (∀ l ls a b c, storingLanes s = l :: ls → s.shapeOf s.ply.tenant (s.S g) = some a →
      s.shapeOf s.ply.tenant (s.S (g + 1)) = some b →
      (∀ r : Shape, r = a ∨ r = b ∨ c = some r → r.ext.length = 6 ∧ r.stride.length = 6) →
      (usesScales f.2 a b → s.shapeOf s.ply.tenant a.scale = none → s.ply.supervisor = false →
        Answers (f.1 g) s fun t => TakesTrap s t s.issue.first s.ply.pos 0x0D 0 0 (a.scale.zeroExtend 64) 127) ∧
      ((usesScales f.2 a b → s.shapeOf s.ply.tenant a.scale = c ∧ c ≠ none) → (¬usesScales f.2 a b → c = none) →
        RaisesFirst (f.1 g) s (copyChecks s f.2 (s.S (g + 2)) (s.S (g + 3)) a b c) ∧
        (allPass (copyChecks s f.2 (s.S (g + 2)) (s.S (g + 3)) a b c) → Answers (f.1 g) s fun t =>
          QueuesCopy s t 1 l (s.ply.info l).scope [(s.ply.info l).scope]
            (bulkCopy s f.2 (s.S (g + 2)) (s.S (g + 3)) a b c))))) ∧
  -- the units of a bulk copy: its j-th destination tuple, its source with i0 and i1 exchanged where it transposes, or the pad
  (∀ u (src dst : Walk) tr pad credit, (∀ e ∈ dst.ext, 0 < e) → src.ext.length = dst.ext.length → 2 ≤ dst.ext.length →
    dst.stride.length = dst.ext.length → src.stride.length = dst.ext.length →
    let n := dst.ext.prod
    let tuple (j : Nat) : List Nat := (List.range dst.ext.length).map fun k => j / (dst.ext.take k).prod % dst.ext.getD k 1
    let from' (j : Nat) : List Nat := if tr then ((tuple j).getD 1 0) :: ((tuple j).getD 0 0) :: (tuple j).drop 2 else tuple j
    let place (w : Walk) (t : List Nat) : Place := match w.loc with
      | none => .glob (w.base + BitVec.ofInt 64 (distanceOf w t))
      | some sp => .loc sp (w.origin + offsetOf w t)
    let us := (CopyKind.tcopy u src dst tr pad none credit).units
    us.length = n ∧ ∀ j, j < n → ∃ c, us[j]? = some c ∧ c.dst = place dst (tuple j) ∧ c.n = u ∧ c.pad = pad ∧
      ((∀ k, k < dst.ext.length → (from' j).getD k 0 < src.ext.getD k 0) → c.src = some (place src (from' j))) ∧
      ((∃ k, k < dst.ext.length ∧ src.ext.getD k 0 ≤ (from' j).getD k 0) → c.src = none))

/-- R222, R224, R226, R230, R232 and R237: the copy engine begins a bulk copy and then performs it, where its places are local: every
byte of a destination takes its source unit's byte or the pad's, units in walk order, and no other byte changes; then it is due, and
at its due time complete. LCP reads every lane before it writes one. Model's choices in it: log 33, 39, 51. -/
def Obligations.CopyEngine : Prop :=
  (∀ seq o s, s.ply.uid ≠ 0 → o.uid = s.ply.uid → (s.core s.ply.core).copyq.find? (fun x => x.seq == seq) = some o →
    o.due = none → s.copyHeld s.ply.core o = false → s.engineReady s.ply seq true = true →
    ((∀ n ls pol, o.kind ≠ .lcp n ls pol) → o.begun = false → Answers (.copyEngineOperation s.ply.core seq) s fun t =>
      SameMemory s t ∧ t = { s with cores := t.cores } ∧ { o with begun := true } ∈ (t.core s.ply.core).copyq) ∧
    (((∀ n ls pol, o.kind ≠ .lcp n ls pol) → o.begun = true ∧ overlapping o.kind.units = false) → o.cancelled = false →
      s.stale s.ply.core = [] → (∀ sp, ((s.core s.ply.core).space sp).wf = true) →
      (∀ u ∈ o.kind.units, isLocalPlace u.dst ∧ ∀ p, u.src = some p → isLocalPlace p) → (∀ q ∈ s.stores, q.seq ≤ s.seq) →
      Answers (.copyEngineOperation s.ply.core seq) s fun t =>
        (∀ sp a, t.localByte s.ply.core sp a =
          o.kind.units.foldl (writtenOver s s.ply.core sp a) (s.localByte s.ply.core sp a)) ∧
        (∀ core sp a, core ≠ s.ply.core → t.localByte core sp a = s.localByte core sp a) ∧
        (∀ core a, t.seen core a = s.seen core a) ∧
        ∃ q ∈ (t.core s.ply.core).copyq, q.seq = o.seq ∧ q.due = some s.now)) ∧
  (∀ seq o time s, s.ply.uid ≠ 0 → o.uid = s.ply.uid → (s.core s.ply.core).copyq.find? (fun x => x.seq == seq) = some o →
    o.seq = seq → o.due = some time → time ≤ s.now → o.kind.credits = none → (∃ c ∈ s.counted, c.seq = seq ∧ c.complete = false) →
    Answers (.copyEngineOperation s.ply.core seq) s fun t => t = { s with counted := t.counted } ∧ SameMemory s t ∧
      ∀ c ∈ t.counted, c.seq = seq → c.complete = true)

/-- R347 and R348: VFPUSH appends its register where the FIFO to the partner has room and no other ply waits to push, and waits
otherwise; VFPOP takes the oldest entry into the active lanes, and waits on an empty FIFO; a waiting one goes on when it may. -/
def Obligations.VerticalFifos : Prop :=
  (∀ v s, VectorReady s [v] → s.partnerAbsent s.ply.core = false → Lives s →
    ((s.pushFifo s.ply.core).length < 16 → s.pushersWait s.ply.core = false → Answers (.vfpush v) s fun t =>
      SameMemory s t ∧ UnitDone s t s.ply ∧ t.pushFifo s.ply.core = s.pushFifo s.ply.core ++ [(s.V v, false)] ∧
      t.popFifo s.ply.core = s.popFifo s.ply.core) ∧
    (16 ≤ (s.pushFifo s.ply.core).length → Answers (.vfpush v) s fun t => Waits s t (.vfpush v)) ∧
    (∀ x l, s.popFifo s.ply.core = (x, false) :: l → Answers (.vfpop v) s fun t =>
      SameMemory s t ∧ UnitDone s t { s.ply with vregs := t.ply.vregs } ∧ t.popFifo s.ply.core = l ∧
      t.pushFifo s.ply.core = s.pushFifo s.ply.core ∧ ∀ r : BitVec 7, r.toNat ≤ 119 → ∀ i, i < 96 →
        (t.V r).at i = if r = v ∧ s.active.has i = true then x.at i else (s.V r).at i) ∧
    (s.popFifo s.ply.core = [] → Answers (.vfpop v) s fun t => Waits s t (.vfpop v))) ∧
  (∀ v s, VectorReady s [v] → s.partnerAbsent s.ply.core = true → s.ply.supervisor = false →
    (Answers (.vfpush v) s fun t => TrapsWithWord s t 0x11 0) ∧ (Answers (.vfpop v) s fun t => TrapsWithWord s t 0x11 1)) ∧
  (∀ v s, s.ply.uid ≠ 0 → s.path.wait = .vfpush v → (s.pushFifo s.ply.core).length < 16 → s.firstPusher s.ply = true →
    Answers (.vfifoPushResume s.ply.uid) s fun t => SameMemory s t ∧ Resumes s t s.ply ∧
      t.pushFifo s.ply.core = s.pushFifo s.ply.core ++ [(s.V v, false)]) ∧
  (∀ v x l s, s.ply.uid ≠ 0 → s.path.wait = .vfpop v → s.popFifo s.ply.core = (x, false) :: l → v.toNat < s.ply.vregs.length →
    v.toNat ≤ 119 → Answers (.vfifoPopResume s.ply.uid) s fun t => SameMemory s t ∧
      Resumes s t { s.ply with vregs := t.ply.vregs } ∧ t.popFifo s.ply.core = l ∧
      ∀ i, i < 96 → (t.V v).at i = if s.active.has i = true then x.at i else (s.V v).at i)

namespace Sys2Proof.Claim

/-! ## Clock and heat (R319 to R323, R328, R342, R343, R351) -/

/-- The reading at which refresh step k begins (R343), in sixteenths of a degree. -/
def threshold (k : Nat) : Int := if k = 1 then 1360 else if k = 2 then 1520 else 1680
/-- The refresh step after a reading (R343): it rises at once; it falls by a step where the reading is 32 below its
threshold. -/
def stepDown (t : Int) : Nat → Nat
  | 0 => 0
  | k + 1 => if t < threshold (k + 1) - 32 then stepDown t k else k + 1
def refreshStep (old : Nat) (t : Int) : Nat :=
  let up := if 1680 ≤ t then 3 else if 1520 ≤ t then 2 else if 1360 ≤ t then 1 else 0
  if old < up then up else stepDown t old

end Sys2Proof.Claim

/-- R320, R328, R342, R343, R351 and R352: at a quiesce point the requested step and regulator take effect, once nothing of the
cluster's is in flight; a reading, one for each multiple of 32,000 ns that ptime has reached, sets %vtemp, or the forced one, and the
refresh step; a flush leaves no dirty line; an uncorrectable DRAM error makes its granule fail and is counted. No byte of memory
changes. Model's choices in it: log 36, 82. -/
def Obligations.ClockHeatAndErrors : Prop :=
  (∀ cluster s, (s.cluster cluster).volt = false →
    (s.inFlight cluster = false → Answers (.quiescePoint cluster) s fun t => SameMemory s t ∧
      (t.cluster cluster).running = (s.cluster cluster).pending.getD (s.cluster cluster).running ∧
      (t.cluster cluster).regulator = (s.cluster cluster).pendingReg.getD (s.cluster cluster).regulator ∧
      (t.cluster cluster).pending = none ∧ (t.cluster cluster).pendingReg = none ∧
      (∀ k, k ≠ cluster → t.cluster k = s.cluster k) ∧ t = { s with clusters := t.clusters }) ∧
    (s.inFlight cluster = true → Answers (.quiescePoint cluster) s fun t => t = s)) ∧
  (∀ vault (temp : BitVec 16) s,
    ((s.vault vault).readings < s.now / 32000 → Answers (.sensorReading vault temp) s fun t =>
      let v := s.vault vault
      let x := if v.testEn then v.testTemp else temp
      SameMemory s t ∧ t.mem = s.mem ∧ (t.vault vault).sensor = temp ∧ (t.vault vault).vtemp = x ∧
        (t.vault vault).readings = s.now / 32000 ∧
        (t.vault vault).rstep.toNat = refreshStep v.rstep.toNat x.toInt ∧ ∀ k, k ≠ vault → t.vault k = s.vault k) ∧
    (s.now / 32000 ≤ (s.vault vault).readings → Answers (.sensorReading vault temp) s fun t => t = s)) ∧
  (∀ vault s, Answers (.vaultCacheFlush vault) s fun t => SameMemory s t ∧ t = { s with vaults := t.vaults } ∧
    (∀ c ∈ (t.vault vault).cache, c.dirty = false) ∧
    (t.vault vault).cache.map (·.line) = (s.vault vault).cache.map (·.line) ∧ ∀ k, k ≠ vault → t.vault k = s.vault k) ∧
  (∀ pa s, s.failing.contains (pa / 8 * 8) = false → Answers (.uncorrectableError (.dram pa)) s fun t => SameMemory s t ∧
    t.failing = pa / 8 * 8 :: s.failing ∧
    (t.vault (vaultOfPa pa)).failGranules = (s.vault (vaultOfPa pa)).failGranules + 1 ∧
    t = { s with failing := t.failing, vaults := t.vaults })

namespace Sys2Proof.Claim

/-! ## Tasks and scopes (R239, R250 to R267, R312 to R314) -/

/-- A request of the unit enters the ply's queue to the hub under the next issue number (R103, R264). -/
def AsksHub (s t : State) (k : HubKind) : Prop :=
  t = { s with ply := t.ply, seq := s.seq + 1 } ∧ SameMemory s t ∧
  UnitDone s t { s.ply with hubq := s.ply.hubq ++ [⟨s.seq + 1, s.ply.slot, k⟩] }

/-- A placement word that R252 and R253 allow. -/
def PlacementOk (s : State) (w : Word) : Prop :=
  w.getLsbD 30 = false ∧ w.toNat / 2 ^ 25 % 8 = 0 ∧
  (w.getLsbD 31 = true → s.inPart s.ply.tenant (w.toNat / 2 ^ 16 % 2 ^ 9) = true)
/-- The core that a placement word names. -/
def placedOn (s : State) (w : Word) : Nat := if w.getLsbD 31 then w.toNat / 2 ^ 16 % 2 ^ 9 else s.ply.core
/-- The scope that an operand of 24 bits names: 0 is %scope. -/
def named (s : State) (w : Word) : BitVec 24 := if w = 0 then s.ply.scope else w.extractLsb' 0 24
/-- A task that the ply spawns (R239, R253, R254): class and deadline are the ply's own. -/
def spawned (s : State) (entry : DWord) (args : Vector Word 4) (scope : BitVec 24) (demand : BitVec 16) (heat : BitVec 2)
    (fixed : Bool) : Task :=
  ⟨entry, args, scope, demand, heat, s.ply.cls, s.ply.deadline, 0, fixed, s.ply.tenant, some (s.ply.uid, s.seq + 1), none,
    none, false, none⟩
/-- The task of a counted lane, with its core (R252): its arguments stand in four registers from a on. -/
def laneTask (s : State) (entry : DWord) (a : BitVec 7) (scope place : Nat → Word) (i : Nat) : Nat × Task :=
  (placedOn s (place i), spawned s entry #v[(s.V a).at i, (s.V (a + 1)).at i, (s.V (a + 2)).at i, (s.V (a + 3)).at i]
    (named s (scope i)) ((place i).extractLsb' 0 16) ((place i).extractLsb' 28 2) ((place i).getLsbD 31))
/-- An entry address (R253). -/
def IsEntry (a : DWord) : Prop := a.toNat < 2 ^ 60 ∧ a.toNat % 64 = 0

/-- SPAWN and SPAWNV with the scope and placement that each gives a lane, over n registers from a on. -/
def SpawnsLanes (i : Instr) (s : State) (entry : DWord) (a : BitVec 7) (n : Nat) (scope place : Nat → Word) : Prop :=
  (a.toNat + n ≤ s.ply.vregs.length → a.toNat + n ≤ 120 → s.cancelledLanes s.ply &&& s.counted' = 0 →
    s.ply.occ ≠ 0 →
    (storingLanes s = [] → Answers i s fun t => OnlyPly s t ∧ UnitDone s t s.ply) ∧
    (storingLanes s ≠ [] → IsEntry entry → (∀ l ∈ storingLanes s, PlacementOk s (place l)) →
      Answers i s fun t => AsksHub s t
        (.spawn (((storingLanes s).filter fun l => (scope l).toNat < 2 ^ 24).map (laneTask s entry a scope place)))) ∧
    (storingLanes s ≠ [] → ¬canonical entry → s.ply.supervisor = false →
      Answers i s fun t => TakesTrap s t s.issue.first s.ply.pos 0x09 0 0 entry 127) ∧
    (storingLanes s ≠ [] → canonical entry → entry.toNat % 64 ≠ 0 → s.ply.supervisor = false →
      Answers i s fun t => TakesTrap s t s.issue.first s.ply.pos 0x08 0 0 entry 127) ∧
    (storingLanes s ≠ [] → IsEntry entry → (∃ l ∈ storingLanes s, ¬PlacementOk s (place l)) → s.ply.supervisor = false →
      Answers i s fun t => ∃ ea, TakesTrap s t s.issue.first s.ply.pos 0x0E 14 0 ea 127)) ∧
  (a.toNat ≤ 119 → s.ply.vregs.length < a.toNat + n → s.ply.supervisor = false →
    Answers i s fun t => TrapsWithWord s t 0x07 0)

/-- The 32 bytes of a task record (R239). -/
def taskRecord (entry : DWord) (args : Vector Word 4) (scope : BitVec 24) (demand : BitVec 16) (heat : BitVec 2) : List Byte :=
  leBytes 8 entry.toNat ++ args.toList.flatMap (fun w => leBytes 4 w.toNat) ++ leBytes 3 scope.toNat ++ [0] ++
    leBytes 2 demand.toNat ++ [heat.zeroExtend 8, 0]

/-- A unit waits at the ply's issuing path, and nothing that the hub or an engine owes it has that number. -/
def NoRequest (s : State) (seq : Nat) : Prop :=
  s.ply.uid ≠ 0 ∧ (∀ e ∈ s.ply.lsq, e.seq ≠ seq) ∧ (∀ h ∈ s.ply.hubq, h.seq ≠ seq) ∧
  ∀ o ∈ (s.core s.ply.core).pathq, o.seq ≠ seq

end Sys2Proof.Claim

/-- R252 and R253: SPAWN and SPAWNV make one task for each counted lane and ask the hub to register them, or take the first
failing check (a scope word above 24 bits names no scope, and its lane makes no task); SPAWNR waits until its records are read, and
then asks the hub for one task a record. Model's choices in it: log 62. -/
def Obligations.SpawnIssue : Prop :=
  (∀ (e : BitVec 6) (a : BitVec 7) c s,
    SpawnsLanes (.spawn e a c) s (s.S64 e) a 4 (fun _ => s.S c) fun _ => s.S (c + 1)) ∧
  (∀ (e : BitVec 6) (a : BitVec 7) s,
    SpawnsLanes (.spawnv e a) s (s.S64 e) a 6 (s.V (a + 4)).at (s.V (a + 5)).at) ∧
  (∀ r n c s, s.cancelledLanes s.ply &&& s.counted' = 0 → s.ply.occ ≠ 0 →
    (storingLanes s = [] ∨ s.S n = 0 → Answers (.spawnr r n c) s fun t => OnlyPly s t ∧ UnitDone s t s.ply) ∧
    (storingLanes s ≠ [] → s.S n ≠ 0 → (s.S n).toNat ≤ 256 → (s.S64 r).toNat % 32 = 0 →
      Answers (.spawnr r n c) s fun t => Waits s t (.spawnr r n c)) ∧
    (storingLanes s ≠ [] → 256 < (s.S n).toNat → s.ply.supervisor = false →
      Answers (.spawnr r n c) s fun t => ∃ ea, TakesTrap s t s.issue.first s.ply.pos 0x0E 14 0 ea 127) ∧
    (storingLanes s ≠ [] → s.S n ≠ 0 → (s.S n).toNat ≤ 256 → (s.S64 r).toNat % 32 ≠ 0 → s.ply.supervisor = false →
      Answers (.spawnr r n c) s fun t => TakesTrap s t s.issue.first s.ply.pos 0x08 0 0 (s.S64 r) 127)) ∧
  (∀ r n c seq (pa : Nat → Nat) (entry : Nat → DWord) (args : Nat → Vector Word 4) (scope : Nat → BitVec 24)
    (demand : Nat → BitVec 16) (heat : Nat → BitVec 2) s, NoRequest s seq → s.path.wait = .spawnr r n c →
    (∀ o ∈ s.ply.lsq, o.kind.isStore = true → o.kind.isAtom = true) → PlacementOk s (s.S c) →
    (∀ j, j < (s.S n).toNat → IsEntry (entry j) ∧ Reaches s .read 32 (s.S64 r + BitVec.ofNat 64 (32 * j)) 127 (pa j) ∧
      s.bad (pa j) 32 = false ∧
      s.seenN s.ply.core (pa j) 32 = taskRecord (entry j) (args j) (scope j) (demand j) (heat j)) →
    Answers (.longLatencyResult s.ply.uid seq) s fun t => ∃ v : State, v = { s with ply := v.ply, seq := s.seq + 1 } ∧
      Resumes s v { s.ply with hubq := s.ply.hubq ++ [⟨s.seq + 1, s.ply.slot, .spawn
        ((List.range (s.S n).toNat).map fun j => (placedOn s (s.S c),
          spawned s (entry j) (args j) (scope j) (demand j) (heat j) ((s.S c).getLsbD 31)))⟩] } ∧
      t = { v with ply := t.ply, plies := t.plies } ∧ WokenPly v.ply t.ply ∧ PliesKept s t ∧ SameMemory s t)

namespace Sys2Proof.Claim

/-- The count that CLAIM and GIVE change (R95, R250): registers or tiles. -/
def held (p : Ply) (k : BitVec 1) : Nat := if k = 1 then p.tiles.length else p.vregs.length
/-- The most a ply may hold, the least it keeps, the pool registers that n of them take. -/
def most (k : BitVec 1) : Nat := if k = 1 then 8 else 120
def least (k : BitVec 1) : Nat := if k = 1 then 0 else 8
def poolCost (k : BitVec 1) (n : Nat) : Nat := if k = 1 then 64 * n else n
/-- S[n] is a count that can be asked for: registers come in eights. -/
def Counts (k : BitVec 1) (n : Nat) : Prop := k = 1 ∨ n % 8 = 0
/-- The ply with n more registers or tiles, which read 0. -/
def grown (p : Ply) (k : BitVec 1) (n : Nat) : Ply :=
  if k = 1 then { p with tiles := p.tiles ++ List.replicate n (List.replicate 64 Lanes.zero) }
  else { p with vregs := p.vregs ++ List.replicate n Lanes.zero }
/-- The ply with the top n registers or tiles returned. -/
def shrunk (p : Ply) (k : BitVec 1) (n : Nat) : Ply :=
  if k = 1 then { p with tiles := p.tiles.take (p.tiles.length - n) }
  else { p with vregs := p.vregs.take (p.vregs.length - n) }
/-- A unit that completes with the ply as p and writes w into S[d]. -/
def SetsCount (s t : State) (p : Ply) (d : BitVec 6) (w : Word) : Prop :=
  OnlyPly s t ∧ Advanced s t ∧ PathsKept s t ∧ (∀ r, t.S r = s.afterWrite d w r) ∧
  t.ply = { p with sregs := t.ply.sregs, path0 := t.ply.path0, path1 := t.ply.path1, pos := t.ply.pos, yc := t.ply.yc }

end Sys2Proof.Claim

/-- R250 and R251: CLAIM answers the current count, or 0, at once; takes what the pool holds where no other claim of the core fits
before it; and waits otherwise, until it is granted or fails. GIVE returns the top registers or tiles, or changes nothing and
writes 0. Model's choices in it: log 56. -/
def Obligations.ClaimAndGive : Prop :=
  (∀ d n k s, Lives s →
    let m := (s.S n).toNat
    let c := held s.ply k + m
    (m = 0 → Answers (.claim d n k) s fun t => WritesScalar s t d (BitVec.ofNat 32 (held s.ply k))) ∧
    (m ≠ 0 → ¬Counts k m ∨ most k < c → Answers (.claim d n k) s fun t => WritesScalar s t d 0) ∧
    (m ≠ 0 → Counts k m → c ≤ most k → poolCost k m ≤ s.freeRegs s.ply.core → s.fittingClaims s.ply.core = [] →
      Answers (.claim d n k) s fun t => SetsCount s t (grown s.ply k m) d (BitVec.ofNat 32 c)) ∧
    (m ≠ 0 → Counts k m → c ≤ most k → s.freeRegs s.ply.core < poolCost k m ∨ s.fittingClaims s.ply.core ≠ [] →
      Answers (.claim d n k) s fun t => Waits s t (.claim d (k == 1) m))) ∧
  (∀ d n k s, let m := (s.S n).toNat
    (Counts k m → m + least k ≤ held s.ply k → Answers (.give d n k) s fun t =>
      SetsCount s t (shrunk s.ply k m) d (BitVec.ofNat 32 (held s.ply k - m))) ∧
    (¬Counts k m ∨ held s.ply k < m + least k → Answers (.give d n k) s fun t => WritesScalar s t d 0)) ∧
  (∀ d k m l s, s.ply.uid ≠ 0 → s.path.wait = .claim d (k == 1) m → s.fittingClaims s.ply.core = s.ply :: l →
    Answers (.claimGrant s.ply.uid) s fun t => OnlyPly s t ∧
      Resumes s t { grown s.ply k m with sregs := t.ply.sregs } ∧
      ∀ r, t.S r = s.afterWrite d (BitVec.ofNat 32 (held s.ply k + m)) r) ∧
  (∀ core d tiles m s, s.ply.uid ≠ 0 → s.ply.core = core → s.claimStuck core = true → s.path.wait = .claim d tiles m →
    (∀ q ∈ s.onCore core, q = s.ply ∨ q.age < s.ply.age) → s.ply.management = false →
    Answers (.claimFailure core) s fun t => OnlyPly s t ∧ Resumes s t { s.ply with sregs := t.ply.sregs } ∧
      ∀ r, t.S r = s.afterWrite d 0 r)

namespace Sys2Proof.Claim

/-- The scope of a lane's task. -/
def laneScope (s : State) (i : Nat) : BitVec 24 := (s.ply.info i).scope
/-- The ply is known by its name alone. -/
def Named (s : State) : Prop :=
  s.ply.uid ≠ 0 ∧ (∀ q ∈ s.plies, q.uid ≠ s.ply.uid) ∧ (∀ q ∈ s.ghosts, q.uid ≠ s.ply.uid) ∧
  ∀ v ∈ s.saved, v.ply.uid ≠ s.ply.uid
/-- No lane is enrolled in a leaf or holds a commit. -/
def Unbound (s : State) : Prop :=
  ∀ i, i < 96 → (s.ply.info i).leaf = none ∧ (s.ply.info i).commit = none
/-- The tasks of these lanes have ended (R261): each scope counts them. -/
def Ended (s t : State) (lanes : List Nat) : Prop :=
  ∀ c, t.scopeOf s.ply.tenant c = (s.scopeOf s.ply.tenant c).map fun x =>
    let n := (lanes.filter fun i => laneScope s i == c).length
    { x with live := x.live - n, ended := x.ended + n }

end Sys2Proof.Claim

/-- R105, R107, R247, R248 and R255: EXIT ends the task of every counted lane, whose scopes count them, and the ply goes on while
a lane is occupied and retires when none is, a path without an occupied active lane ending none (R268); YIELD ends the run, sets %ydl and clears %yc, and a ply that Clock takes there is
saved with its live registers; more live registers than it holds is REGRANGE. Model's choices in it: log 67. -/
def Obligations.EndsAndYields : Prop :=
  (∀ s, Named s → Unbound s → s.cancelledLanes s.ply &&& s.path.member = 0 → (∀ a ∈ s.arrivals, a.uid ≠ s.ply.uid) →
    (s.ply.occ &&& ~~~s.path.active ≠ 0 ∨ storingLanes s = [] → Answers .exit s fun t =>
      t = { s with ply := t.ply, scopes := t.scopes } ∧ SameMemory s t ∧ Ended s t (storingLanes s) ∧
      UnitDone s t { s.ply with occ := s.ply.occ &&& ~~~s.path.active, lanes := t.ply.lanes } ∧
      (∀ i, i < 96 → (s.ply.occ &&& s.path.active).has i = false → t.ply.info i = s.ply.info i)) ∧
    (storingLanes s ≠ [] → s.ply.occ &&& ~~~s.path.active = 0 → s.ply.failures = [] → s.ply.firing = none → Answers .exit s fun t =>
      SameMemory s t ∧ Ended s t (storingLanes s) ∧ t.find s.ply.uid = none ∧ t.plies = s.plies ∧
      t.saveAreas = s.saveAreas ++ [s.ply.ssave])) ∧
  (∀ d (l : BitVec 7) s, s.ply.vregs.length < l.toNat → s.ply.supervisor = false →
    Answers (.yield d l) s fun t => TrapsWithWord s t 0x07 0) ∧
  (∀ d (l : BitVec 7) s, l.toNat ≤ s.ply.vregs.length → s.ply.uid ≠ 0 → s.ply.occ ≠ 0 → s.cancelledLanes s.ply = 0 →
    s.ply.dstack = [] → s.path.transfer = .none →
    let savable := s.ply.gangsize = 1 ∧ s.ply.supervisor = false ∧ s.ply.ctx.state ≠ .opened ∧ (s.ply.cnt[3]?).getD 0 = 0
    -- a rotation ends once the charge of the vault is at its limit (R346)
    let lapsed := s.ply.marked = some 0 ∧ s.vaultCharge (vaultOf s.ply.core) ≤ (s.vault (vaultOf s.ply.core)).limit
    let taken := ((s.ply.marked ≠ none ∧ ¬lapsed) ∨ s.gating s.ply.core = true) ∧ savable
    (¬taken → Answers (.yield d l) s fun t => OnlyPly s t ∧ (lapsed → t.ply.marked = none) ∧
      (¬lapsed → t.ply.marked = s.ply.marked) ∧
      t.path = { s.path with
        pc := wordsOn s s.issue.words, hprio := t.path.hprio, awaited := [], since := s.now, runClass := none } ∧
      t.ply.path t.ply.other = s.ply.path s.ply.other ∧ t.ply = { s.ply with
        ydl := d, yc := 0, running := false, pos := 0, latches := [], path0 := t.ply.path0, path1 := t.ply.path1
        marked := t.ply.marked }) ∧
    (taken → Answers (.yield d l) s fun t => ∃ v : Saved,
        t.saved = s.saved ++ [v] ∧ t.ply = Ply.vacant ∧ t.plies = s.plies ∧ t.mem = s.mem ∧
        v.gated = s.gating s.ply.core ∧ v.atWait = false ∧ v.issued = t.seq ∧ v.ply.uid = s.ply.uid ∧ v.ply.occ = s.ply.occ ∧ v.ply.ydl = d ∧ v.ply.yc = 0 ∧
        v.ply.sregs = s.ply.sregs ∧ v.ply.charge = 0 ∧ v.ply.marked = none ∧ v.ply.running = false ∧
        v.ply.vregs = s.ply.vregs.take l.toNat ++ List.replicate (s.ply.vregs.length - l.toNat) Lanes.zero ∧
        v.ply.cur.pc = wordsOn s s.issue.words))

namespace Sys2Proof.Claim

/-- A tenant's scopes have different identifiers. -/
def ScopesDiffer (s : State) : Prop := (s.scopes.map fun c => (c.tenant, c.id)).Nodup
/-- The state word of a scope's record (R256). -/
def stateWord (id : BitVec 24) (sealed : Bool) (code : Nat) : Word :=
  BitVec.ofNat 32 (id.toNat * 256 + (if sealed then 16 else 0) + code)
/-- The record of a scope (R256), which the hub writes but for bytes 32 to 47 and 52 to 63 (R257). -/
def recordOf (c : Scope) : List Byte :=
  leBytes 4 (stateWord c.id c.sealed' c.state.code).toNat ++ leBytes 4 c.parent.toNat ++ leBytes 4 c.live ++ leBytes 4 c.ended ++
    leBytes 8 c.tcancel.toNat ++ leBytes 8 c.tquiet.toNat ++ leBytes 8 c.cont.toNat ++ leBytes 8 c.carg.toNat ++
    leBytes 4 c.cause.toNat ++ leBytes 4 c.notify ++ zeros 8
/-- The scope is not live, or is the root (R267). -/
def NotLive (s : State) (c : BitVec 24) : Prop := c = 0 ∨ s.scopeOf s.ply.tenant c = none
/-- S[d+1] : S[d] take y and x. -/
def TakesPair (s t : State) (d : BitVec 6) (x y : Word) : Prop :=
  ∀ r, t.S r = if r = d + 1 then s.afterWrite (d + 1) y r else s.afterWrite d x r
/-- The scope table becomes f of what it was; beside it only the ply, paths that are woken, retired plies that are forgotten, the
broadcasts and the writes of scope records changed, and no byte of memory. -/
def Rescopes (s t : State) (f : Nat → BitVec 24 → Option Scope → Option Scope) : Prop :=
  t = { s with
    ply := t.ply, plies := t.plies, seq := t.seq, stores := t.stores, vaults := t.vaults, scopes := t.scopes
    broadcasts := t.broadcasts, ghosts := t.ghosts } ∧
  SameMemory s t ∧ ∀ n c, t.scopeOf n c = f n c (s.scopeOf n c)
/-- A scope is sealed. -/
def Seals (s t : State) (tenant : Nat) (id : BitVec 24) : Prop :=
  t.broadcasts = s.broadcasts ∧
  Rescopes s t fun n c x => if n = tenant ∧ c = id then x.map fun x => { x with sealed' := true } else x
/-- A scope and every open scope below it become CANCELLING, and the partition hears it (R258, R259). -/
def Cancels (s t : State) (tenant : Nat) (id : BitVec 24) : Prop :=
  t.broadcasts = s.broadcasts ++ [⟨tenant, id, s.partCores tenant⟩] ∧
  Rescopes s t fun n c y => y.map fun y =>
    if n = tenant ∧ y.state = .opened ∧ (c = id ∨ s.under n id c = true) then { y with state := .cancelling, tcancel := s.ptime }
    else y
/-- No scope that has drained still waits here for a time that has come. -/
def NoneDue (s : State) : Prop := ∀ x ∈ s.scopes, ∀ e, x.due = some e → s.now < e

/-- The scope c is drained and takes its final state (R258, R263): the record is written, and the scope leaves the table once that
is performed; its notify of kind 1 sends the continuation, counted in the parent, unless the parent is cancelled, which counts
its end; of kind 2 a message with the record. -/
def Drains (s t : State) (c : Scope) (st : ScopeState) : Prop :=
  let fin : Scope := { c with state := st, tquiet := s.ptime }
  SameMemory s t ∧ t.plies = s.plies ∧ t.broadcasts.length ≤ s.broadcasts.length ∧
  (∃ (new : List PendingStore) (e : Nat), t.stores = s.stores ++ new ∧ e = new.foldl (fun m q => max m q.time) s.now ∧
    (s.now < e → t.scopeOf c.tenant c.id = some { fin with due := some e } ∧ t.released = s.released) ∧
    (e = s.now → t.scopeOf c.tenant c.id = none ∧ (c.tenant, c.id, stateWord c.id c.sealed' st.code) ∈ t.released) ∧
    ∀ pa, canonical c.address → c.address.toNat % 64 = 0 → s.translate c.tenant .write c.address = .ok pa →
      new.map (fun q => (q.pa, q.data)) = [(pa, (recordOf fin).take 32), (pa + 48, leBytes 4 c.cause.toNat)] ∧ s.now < e) ∧
  (∀ x, x ≠ c.id → x ≠ c.parent → t.scopeOf c.tenant x = s.scopeOf c.tenant x) ∧
  (c.notify = 0 ∨ c.notify = 2 ∨ c.notify = 1 ∧ c.cont = 0 → t.transit = s.transit ∧
    (c.parent ≠ c.id → t.scopeOf c.tenant c.parent = s.scopeOf c.tenant c.parent)) ∧
  (c.notify = 0 ∨ c.notify = 1 → t.fabric = s.fabric) ∧
  (c.notify = 1 → c.cont ≠ 0 → s.scopeCancelled c.tenant c.parent = false →
    t.scopeOf c.tenant c.parent = (s.scopeOf c.tenant c.parent).map (fun x => { x with live := x.live + 1 }) ∧
    ∃ k : Task, t.transit = s.transit ++ [⟨c.opener, k, false⟩] ∧ k.entry = c.cont ∧ k.scope = c.parent ∧ k.tenant = c.tenant ∧
      k.demand = 0 ∧ k.heat = 0 ∧ k.fixed = false ∧ k.args = #v[c.carg.extractLsb' 0 32, c.carg.extractLsb' 32 32,
        c.id.zeroExtend 32, if c.cause = 0 ∧ st = .quiesced then 0x22 else c.cause]) ∧
  (c.notify = 1 → c.cont ≠ 0 → (∃ x ∈ s.scopes, x.tenant = c.tenant ∧ x.id ≠ c.id ∧ (x.state = .cancelling ∨ x.state = .faulted) ∧
      s.under c.tenant x.id c.parent = true) → t.transit = s.transit ∧
    t.scopeOf c.tenant c.parent = (s.scopeOf c.tenant c.parent).map fun x => { x with ended := x.ended + 1 }) ∧
  (c.notify = 2 → ∃ o : FabricOp, t.fabric = s.fabric ++ [o] ∧ o.tenant = c.tenant ∧
    o.kind = .notify ⟨(s.tenant c.tenant).notify.1, (s.tenant c.tenant).notify.2, 1⟩ c.carg (recordOf fin))

end Sys2Proof.Claim

/-- R258, R264, R266 and R267: SCOPEN and SCPST ask the hub; SCOPCL and CANCEL, with no earlier request outstanding, act on the
table at once: SCOPCL seals, and an open scope that is drained closes with that; CANCEL makes the scope and every open scope below
it CANCELLING and broadcasts; on a scope that is not live, or whose state they do not change, they do nothing. SCPST.W answers 0
and 0 for a scope that is not live and waits for a live one, to take the state word that it leaves. Model's choices in it: log
61, 62. -/
def Obligations.ScopeInstructions : Prop :=
  (∀ d a p s, ((s.S p).toNat < 2 ^ 24 → Answers (.scopen d a p) s fun t =>
      AsksHub s t (.scopen d (s.S64 a) (named s (s.S p)) false)) ∧
    (2 ^ 24 ≤ (s.S p).toNat → Answers (.scopen d a p) s fun t => AsksHub s t (.scopen d (s.S64 a) 0 true))) ∧
  (∀ d a s, Answers (.scpst d a) s fun t =>
    AsksHub s t (.scpst d (if (s.S a).toNat < 2 ^ 24 then named s (s.S a) else 0))) ∧
  (∀ a s, 2 ^ 24 ≤ (s.S a).toNat →
    (Answers (.scopcl a) s fun t => OnlyPly s t ∧ UnitDone s t s.ply) ∧
    (Answers (.cancel a) s fun t => OnlyPly s t ∧ UnitDone s t s.ply)) ∧
  (∀ a s, (s.S a).toNat < 2 ^ 24 → let id := named s (s.S a)
    (s.ply.hubq ≠ [] → (Answers (.scopcl a) s fun t => AsksHub s t (.scopcl id)) ∧
      (Answers (.cancel a) s fun t => AsksHub s t (.cancel id))) ∧
    (s.ply.hubq = [] → NotLive s id → (Answers (.scopcl a) s fun t => OnlyPly s t ∧ UnitDone s t s.ply)) ∧
    (s.ply.hubq = [] → s.scopeOf s.ply.tenant id = none → Answers (.cancel a) s fun t => OnlyPly s t ∧ UnitDone s t s.ply) ∧
    (∀ x, s.ply.hubq = [] → ScopesDiffer s → s.scopeOf s.ply.tenant id = some x →
      (id ≠ 0 → x.sealed' = true ∨ x.state = .closed ∨ x.state = .quiesced → Answers (.scopcl a) s fun t =>
        OnlyPly s t ∧ UnitDone s t s.ply) ∧
      (id ≠ 0 → x.sealed' = false → (x.state = .opened ∧ s.drained x = false) ∨ x.state = .cancelling ∨ x.state = .faulted →
        Answers (.scopcl a) s fun t => UnitDone s t s.ply ∧ Seals s t s.ply.tenant id ∧ t.plies = s.plies) ∧
      (id ≠ 0 → x.sealed' = false → x.state = .opened → s.drained x = true → NoneDue s → Answers (.scopcl a) s fun t =>
        UnitDone s t s.ply ∧ ∃ u : State, u.ply = s.ply ∧ u.plies = s.plies ∧ Seals s u s.ply.tenant id ∧
          Drains u t { x with sealed' := true } .closed) ∧
      (x.state ≠ .opened → Answers (.cancel a) s fun t => OnlyPly s t ∧ UnitDone s t s.ply) ∧
      (x.state = .opened → Answers (.cancel a) s fun t => UnitDone s t s.ply ∧ Cancels s t s.ply.tenant id ∧
        t.plies = s.plies))) ∧
  (∀ d a s, Lives s → (s.S a).toNat < 2 ^ 24 → let id := named s (s.S a)
    (s.ply.hubq = [] → NotLive s id → Answers (.scpstW d a) s fun t => WritesPair s t d 0) ∧
    (¬NotLive s id ∨ s.ply.hubq ≠ [] → (∀ x ∈ s.released, (x.1, x.2.1) ≠ (s.ply.tenant, id)) →
      Answers (.scpstW d a) s fun t => Waits s t (.scpst d id))) ∧
  (∀ d id s, s.ply.uid ≠ 0 → s.path.wait = .scpst d id → s.ply.hubq = [] →
    (∀ w, s.released.find? (fun x => x.1 == s.ply.tenant && x.2.1 == id) = some (s.ply.tenant, id, w) →
      Answers (.scpstWReturn s.ply.uid) s fun t => OnlyPly s t ∧ Resumes s t { s.ply with sregs := t.ply.sregs } ∧
        TakesPair s t d w 0) ∧
    ((∀ x ∈ s.released, (x.1, x.2.1) ≠ (s.ply.tenant, id)) → NotLive s id →
      Answers (.scpstWReturn s.ply.uid) s fun t => OnlyPly s t ∧ Resumes s t { s.ply with sregs := t.ply.sregs } ∧
        TakesPair s t d 0 0) ∧
    ((∀ x ∈ s.released, (x.1, x.2.1) ≠ (s.ply.tenant, id)) → ¬NotLive s id → Answers (.scpstWReturn s.ply.uid) s fun t => t = s))

namespace Sys2Proof.Claim

/-- The hub can answer a request of the ply in hand now (R264). -/
def Asked (s : State) (h : HubOp) : Prop :=
  Named s ∧ (∀ e ∈ s.ply.lsq, e.seq ≠ h.seq) ∧ s.ply.hubq.find? (fun x => x.seq == h.seq) = some h ∧
  s.answerable s.ply h = true ∧ h.slot = s.ply.slot
/-- The request is answered: it leaves the queue, of the ply only scalars of its path changed, and paths that awaited no more than
the answer are woken. -/
def AnswersHub (s t : State) (h : HubOp) : Prop :=
  SameMemory s t ∧ PliesKept s t ∧ ∃ p : Ply, p = { s.ply with
    hubq := s.ply.hubq.filter fun x => x.seq != h.seq, sregs := p.sregs, path0 := p.path0, path1 := p.path1 } ∧
  p.cur = { s.path with active := p.cur.active } ∧ p.path p.other = s.ply.path s.ply.other ∧ WokenPly p t.ply
/-- A scope record as SCOPEN reads it (R256): id, state OPEN, continuation, argument, notify. -/
def scopeRecord (id : BitVec 24) (cont carg : DWord) (notify : Nat) (x y : List Byte) : List Byte :=
  leBytes 4 (id.toNat * 256 + 1) ++ x ++ leBytes 8 cont.toNat ++ leBytes 8 carg.toNat ++ y ++ leBytes 4 notify ++ zeros 8
/-- The parent may have children (R265): the root, or an open scope that is not sealed. -/
def ParentOk (s : State) (p : BitVec 24) : Prop :=
  p = 0 ∨ ∃ x, s.scopeOf s.ply.tenant p = some x ∧ x.state = .opened ∧ x.sealed' = false
/-- Whether the hub counts a task in its scope (R253). -/
def Accepts (s : State) (t : Task) : Prop :=
  t.scope = 0 ∨ ∃ x, s.scopeOf t.tenant t.scope = some x ∧ x.sealed' = false ∧ x.state ≠ .closed ∧ x.state ≠ .quiesced

end Sys2Proof.Claim

/-- R113, R253, R265 and R267 at the hub: %ptime answers the time; SCPST the record's first word and live; SCOPEN its status, the
first that holds of 5, 4, 1, 2, 3, and for 0 the scope stands in the table, open with zero counts; SCOPCL and CANCEL act as they
do at once; a spawn's tasks are counted and sent in order, or discarded without a count. -/
def Obligations.HubAnswers : Prop :=
  (∀ d h s, Asked s h → h.kind = .ptime d → Answers (.longLatencyResult s.ply.uid h.seq) s fun t =>
    AnswersHub s t h ∧ t.scopes = s.scopes ∧
      TakesPair s t d (s.ptime.extractLsb' 0 32) (s.ptime.extractLsb' 32 32)) ∧
  (∀ d c h s, Asked s h → h.kind = .scpst d c → Answers (.longLatencyResult s.ply.uid h.seq) s fun t =>
    AnswersHub s t h ∧ t.scopes = s.scopes ∧ (NotLive s c → TakesPair s t d 0 0) ∧
      ∀ x, c ≠ 0 → s.scopeOf s.ply.tenant c = some x →
        TakesPair s t d (stateWord x.id x.sealed' x.state.code) (BitVec.ofNat 32 x.live)) ∧
  (∀ d a p nowhere h s, Asked s h → h.kind = .scopen d a p nowhere →
    let status (n : Nat) : Prop := Answers (.longLatencyResult s.ply.uid h.seq) s fun t =>
      AnswersHub s t h ∧ t.scopes = s.scopes ∧ ∀ r, t.S r = s.afterWrite d (BitVec.ofNat 32 n) r
    (a.toNat % 64 ≠ 0 ∨ ¬canonical a → status 5) ∧
    (a.toNat % 64 = 0 → (∃ c, s.translate s.ply.tenant .write a = .error c) → status 5) ∧
    (∀ pa, Reaches s .write 64 a 127 pa → num (s.phys pa 64) 0 1 ≠ 1 → status 4) ∧
    (∀ pa id cont carg n x y, Reaches s .write 64 a 127 pa → x.length = 28 → y.length = 4 → n < 2 ^ 32 →
      s.phys pa 64 = scopeRecord id cont carg n x y →
      let live := (s.scopeOf s.ply.tenant id).isSome = true
      let room := (s.scopes.filter fun q => q.tenant == s.ply.tenant).length < (s.tenant s.ply.tenant).share
      (id = 0 ∨ 2 < n → status 4) ∧
      (id ≠ 0 → n ≤ 2 → live → status 1) ∧
      (id ≠ 0 → n ≤ 2 → ¬live → nowhere = true ∨ ¬ParentOk s p → status 2) ∧
      (id ≠ 0 → n ≤ 2 → ¬live → nowhere = false → ParentOk s p → ¬room → status 3) ∧
      (id ≠ 0 → n ≤ 2 → ¬live → nowhere = false → ParentOk s p → room → (∀ z ∈ s.released, (z.1, z.2.1) ≠ (s.ply.tenant, id)) →
        Answers (.longLatencyResult s.ply.uid h.seq) s fun t =>
          AnswersHub s t h ∧ (∀ r, t.S r = s.afterWrite d 0 r) ∧ t.scopes = s.scopes ++
            [⟨s.ply.tenant, id, p, .opened, false, 0, 0, 0, 0, 0, cont, carg, n, a, s.ply.core, none⟩]))) ∧
  (∀ c h s, Asked s h → ScopesDiffer s →
    (h.kind = .cancel c → Answers (.longLatencyResult s.ply.uid h.seq) s fun t => AnswersHub s t h ∧ (∀ r, t.S r = s.S r) ∧
      ∀ x, s.scopeOf s.ply.tenant c = some x → (x.state ≠ .opened → t.scopes = s.scopes) ∧
        (x.state = .opened → Cancels s t s.ply.tenant c)) ∧
    (h.kind = .scopcl c → (∀ x, s.scopeOf s.ply.tenant c = some x → s.drained x = false) →
      Answers (.longLatencyResult s.ply.uid h.seq) s fun t => AnswersHub s t h ∧ (∀ r, t.S r = s.S r) ∧
        (NotLive s c → t.scopes = s.scopes) ∧ ∀ x, c ≠ 0 → s.scopeOf s.ply.tenant c = some x →
          x.state = .opened ∨ x.state = .cancelling ∨ x.state = .faulted → Seals s t s.ply.tenant c)) ∧
  (∀ l h s, Asked s h → h.kind = .spawn l → ScopesDiffer s → Answers (.longLatencyResult s.ply.uid h.seq) s fun t =>
    AnswersHub s t h ∧ (∀ r, t.S r = s.S r) ∧
    ∃ p : Nat × Task → Bool, (∀ x ∈ l, p x = true ↔ Accepts s x.2) ∧
      t.transit = s.transit ++ (l.filter p).map (fun x => ⟨x.1, x.2, false⟩) ∧
      ∀ n c, t.scopeOf n c = (s.scopeOf n c).map fun x =>
        { x with live := x.live + ((l.filter p).filter fun y => y.2.tenant == n && y.2.scope == c).length })

namespace Sys2Proof.Claim

/-- Every occupied lane of the ply stands in the issuing path and is cancelled on its core (R259). -/
def AllCancelled (s : State) : Prop :=
  s.ply.occ ≠ 0 ∧ s.cancelledLanes s.ply = s.ply.occ ∧ s.ply.occ &&& ~~~s.path.member = 0

end Sys2Proof.Claim

/-- R259 to R261, R263 and R258: a core that hears a broadcast holds it, and no other core does by that; at a kill point a ply all
of whose lanes are cancelled ends them, their scopes counting them, and retires; a drained scope becomes CLOSED or QUIESCED, its
record is written and its notify fires; it leaves the table, with its state word, when that write is performed. Model's choices
in it: log 54. -/
def Obligations.CancelAndDrain : Prop :=
  (∀ core index b s, s.broadcasts[index]? = some b → core ∈ b.cores → (∀ p ∈ s.onCore core, (s.plyOf p.uid).running = false) →
    Answers (.cancelBroadcast core index) s fun t => t = { s with broadcasts := t.broadcasts, cores := t.cores } ∧
      SameMemory s t ∧ (b.tenant, b.scope) ∈ (t.core core).heard ∧ (∀ h ∈ (s.core core).heard, h ∈ (t.core core).heard) ∧
      (∀ h ∈ (t.core core).heard, h = (b.tenant, b.scope) ∨ h ∈ (s.core core).heard) ∧
      ∀ k, k ≠ core → t.core k = s.core k) ∧
  (∀ (c : BitVec 2) (k : BitVec 8) d n kk d' a y l, ∀ i ∈ [Instr.waitc c k, .claim d n kk, .scpstW d' a, .exit, .yield y l], ∀ s,
    (i = .exit → storingLanes s ≠ []) → (i = .yield y l → l.toNat ≤ s.ply.vregs.length ∧ s.path.transfer = .none) →
    Named s → Unbound s → AllCancelled s → s.ply.failures = [] → s.ply.firing = none →
    (∀ x ∈ s.arrivals, x.uid ≠ s.ply.uid) → Answers i s fun t => SameMemory s t ∧ t.find s.ply.uid = none ∧
      t.plies = s.plies ∧ Ended s t ((List.range 96).filter fun i => s.ply.occ.has i)) ∧
  (∀ tenant id c st s, id < 2 ^ 24 → ScopesDiffer s → NoneDue s → s.scopeOf tenant (BitVec.ofNat 24 id) = some c →
    s.drained c = true →
    (c.state = .opened ∧ c.sealed' = true ∧ st = .closed) ∨
      ((c.state = .cancelling ∨ c.state = .faulted) ∧ st = ScopeState.quiesced) →
    Answers (.scopeDrained tenant id) s fun t => t.ply = s.ply ∧ Drains s t c st) ∧
  (∀ q c e s, s.stores.find? (fun x => x.seq == q.seq) = some q → q.time ≤ s.now →
    (∀ r ∈ s.stores, lineOf r.pa = lineOf q.pa → q.seq ≤ r.seq) → s.landings = [] → ScopesDiffer s → c ∈ s.scopes →
    c.due = some e → Answers (.completionTime q.seq) s fun t =>
      (e ≤ s.now → t.scopeOf c.tenant c.id = none ∧
        (c.tenant, c.id, stateWord c.id c.sealed' c.state.code) ∈ t.released) ∧
      (s.now < e → t.scopeOf c.tenant c.id = some c))

namespace Sys2Proof.Claim

/-- The task as the store keeps it: with its arrival. -/
def arrived (s : State) (x : Transit) : Task := { x.task with arrival := s.now }
/-- The step of the probe register (R313). -/
def probeStep (x : BitVec 16) : BitVec 16 := (x >>> 1) ^^^ (if x.getLsbD 0 then 0xB400 else 0)
/-- Nothing but task stores, the tasks on their way and the tables of scopes changed, and no byte of memory. -/
def OnlyTasks (s t : State) : Prop := t = { s with transit := t.transit, cores := t.cores } ∧ SameMemory s t

/-- The tasks of a bin that Knight may take (R314), their demand and their heat class (R345). -/
def stealable (l : List Task) : List Task := l.filter fun x => !x.fixed && x.commit.isNone && !x.helper
def demandOf (l : List Task) : Nat := l.foldl (fun n x => n + x.demand.toNat) 0
def heatOf (l : List Task) : Nat := l.foldl (fun n x => max n x.heat.toNat) 0
def unheld (x : Task) : Task := { x with held := none }
/-- What Knight takes from a bin for a core (R314): the longest prefix of the older half of its stealable tasks that the core's
vault admits, at the charge given there (R345). -/
def Stolen (s : State) (core : Nat) (b : Bin) (got : List Task) : Prop :=
  let half := (stealable b.tasks).take (((stealable b.tasks).length + 1) / 2)
  let n := got.length
  got.map unheld = (half.take n).map unheld ∧
  s.charge core (demandOf (half.take n)) (heatOf (half.take n)) = some (heldCharge got) ∧
  (n < half.length → s.charge core (demandOf (half.take (n + 1))) (heatOf (half.take (n + 1))) = none)

/-- The tenant's fault ring has room: its tail and head, where the tail stands and where the next record goes (R359, R380). -/
def RingRoom (s : State) (tenant : Nat) (tail head : Word) (cell slot : Nat) : Prop :=
  let x := s.tenant tenant
  let size := 2 ^ (x.ringLog2.toNat % 16)
  let at' : DWord := x.ringBase + BitVec.ofNat 64 (64 * (tail.toNat % size))
  canonical x.ringTail ∧ x.ringTail.toNat % 8 = 0 ∧ s.translate tenant .read x.ringTail = .ok cell ∧
  s.translate tenant .write x.ringTail = .ok cell ∧ s.hubBytes [(cell, 8)] = leBytes 4 tail.toNat ++ leBytes 4 head.toNat ∧
  (tail - head).toNat < size ∧ canonical at' ∧ at'.toNat % 64 = 0 ∧ s.translate tenant .write at' = .ok slot

end Sys2Proof.Claim

/-- R242, R243, R253, R312 to R314 and R380: an arriving task enters its entry's bin, or the lowest free bin, or the overflow list
in memory, and is discarded with a count where its scope is cancelled on the core, and with ENGINE 16 as its scope's fault, and a
fault record, where there is no room; stolen tasks arrive in order; the bin timer marks the bins whose oldest task has waited
longer than %binto; a probe steps the probe register and takes from the victim's largest bin. Model's choices in it: log 55, 57,
60, 64. -/
def Obligations.TaskStore : Prop :=
  (∀ (i : Nat) x s, s.transit[i]? = some x → x.stolen = true → (∃ y ∈ s.transit.take i, y.stolen = true ∧ y.core = x.core) →
    Answers (.taskArrival i) s fun t => t = s) ∧
  (∀ (i : Nat) x s, s.transit[i]? = some x → (x.stolen = true → ∀ y ∈ s.transit.take i, y.stolen = true → y.core ≠ x.core) →
    x.task.commit = none → s.heardCancel x.core x.task.tenant x.task.scope = true →
    ScopesDiffer s → Answers (.taskArrival i) s fun t => SameMemory s t ∧ t.transit = s.transit.eraseIdx i ∧
      t = { s with transit := t.transit, scopes := t.scopes } ∧ ∀ n c, t.scopeOf n c = (s.scopeOf n c).map fun y =>
        if n = x.task.tenant ∧ c = x.task.scope then { y with live := y.live - 1, ended := y.ended + 1 } else y) ∧
  (∀ (i : Nat) x s, s.transit[i]? = some x → (x.stolen = true → ∀ y ∈ s.transit.take i, y.stolen = true → y.core ≠ x.core) →
    s.heardCancel x.core x.task.tenant x.task.scope = false →
    let k := s.core x.core
    let mine (b : Bin) : Prop := b.entry = x.task.entry ∧ b.tenant = x.task.tenant
    let full := 8192 ≤ k.stored ∨ (∀ b ∈ k.bins, ¬mine b) ∧ ∀ m, m < 64 → ∃ b ∈ k.bins, b.number = m
    (∀ a b c, k.bins = a ++ [b] ++ c → k.stored < 8192 → mine b → (∀ y ∈ a ++ c, ¬mine y) → (∀ y ∈ b.tasks, y.arrival ≤ s.now) →
      Answers (.taskArrival i) s fun t => OnlyTasks s t ∧ t.transit = s.transit.eraseIdx i ∧
        t.core x.core = { k with bins := a ++ [{ b with tasks := b.tasks ++ [arrived s x] }] ++ c }) ∧
    (∀ n : Nat, k.stored < 8192 → (∀ b ∈ k.bins, ¬mine b) → n < 64 → (∀ b ∈ k.bins, b.number ≠ n) →
      (∀ m, m < n → ∃ b ∈ k.bins, b.number = m) → Answers (.taskArrival i) s fun t => OnlyTasks s t ∧
        t.transit = s.transit.eraseIdx i ∧
        t.core x.core = { k with bins := k.bins ++ [⟨n, x.task.tenant, x.task.entry, false, [arrived s x]⟩] }) ∧
    (∀ pa, let at' : DWord := k.taskBase + BitVec.ofNat 64 (32 * k.overflow.length)
      full → x.core < 512 → k.overflow.length < k.taskCap.toNat → canonical at' → at'.toNat % 32 = 0 →
      s.translate x.task.tenant .write at' = .ok pa → Answers (.taskArrival i) s fun t =>
        t.transit = s.transit.eraseIdx i ∧ t.core x.core = { k with overflow := k.overflow ++ [arrived s x] } ∧
        t.plies = s.plies ∧ t.ply = s.ply ∧ t.scopes = s.scopes ∧
        t.seenN x.core pa 32 = taskRecord x.task.entry x.task.args x.task.scope x.task.demand x.task.heat ∧
        ∀ c b, b < pa ∨ pa + 32 ≤ b → t.seen c b = s.seen c b) ∧
    (full → k.taskCap.toNat ≤ k.overflow.length → x.task.commit = none → x.task.helper = false → ScopesDiffer s →
      (∀ y, s.scopeOf x.task.tenant x.task.scope = some y → y.state = .opened →
        Answers (.taskArrival i) s fun t => SameMemory s t ∧ t.transit = s.transit.eraseIdx i ∧
          t.scopeOf x.task.tenant x.task.scope = some { y with
            state := .faulted, live := y.live - 1, ended := y.ended + 1, tcancel := s.ptime
            cause := BitVec.ofNat 32 (16 * 2 ^ 8 + 0x0E) }) ∧
      (∀ tail head cell slot, s.scopeOf x.task.tenant x.task.scope = none → RingRoom s x.task.tenant tail head cell slot →
        Answers (.taskArrival i) s fun t => SameMemory s t ∧ t.transit = s.transit.eraseIdx i ∧
          (t.tenant x.task.tenant).dropped = 0 ∧ ∃ new, t.stores = s.stores ++ new ∧
          new.map (fun q => (q.pa, q.data)) = [(slot, leBytes 8 s.ptime.toNat ++ leBytes 4 (16 * 2 ^ 8 + 0x0E) ++
            leBytes 4 x.task.scope.toNat ++ leBytes 4 (2 ^ 32 - 1) ++ leBytes 4 (x.core % 512) ++ leBytes 8 x.task.entry.toNat ++
            zeros 28 ++ leBytes 4 (s.tenant x.task.tenant).dropped.toNat), (cell, leBytes 4 (tail + 1).toNat)]) ∧
      (∀ c, s.scopeOf x.task.tenant x.task.scope = none → s.range x.task.tenant .read (s.tenant x.task.tenant).ringTail 8 = .error c →
        Answers (.taskArrival i) s fun t => SameMemory s t ∧ t.stores = s.stores ∧
          (t.tenant x.task.tenant).dropped = (s.tenant x.task.tenant).dropped + 1))) ∧
  (∀ core s, Answers (.binTimer core) s fun t => OnlyTasks s t ∧ (∀ k, k ≠ core → t.core k = s.core k) ∧
    t.core core = { s.core core with bins := (s.core core).bins.map fun b =>
      { b with due := b.due || match b.tasks with
        | [] => false
        | x :: _ => decide ((s.core core).binto.toNat < s.now - x.arrival) } }) ∧
  (∀ core s, s.mayProbe core = true → Answers (.knightProbe core) s fun t => OnlyTasks s t ∧
    (t.core core).probeX = probeStep (s.core core).probeX ∧ (t.core core).probeN = (s.core core).probeN + 1 ∧
    (t.core core).probeAt = s.now ∧ ∃ got : List Task, t.transit = s.transit ++ got.map (fun x => ⟨core, x, true⟩) ∧
      (got ≠ [] → ∃ k b, k ≠ core ∧ s.partOf k = s.partOf core ∧ b ∈ (s.core k).bins ∧
        (∀ c ∈ (s.core k).bins, c.tasks.length < b.tasks.length ∨ c.tasks.length = b.tasks.length ∧ b.number ≤ c.number) ∧
        Stolen s core b got))

namespace Sys2Proof.Claim

/-! ## Paths (R269 to R293, R316, R317) -/

/-- n / d to the nearest integer, ties to even. -/
def nearestEven (n : Int) (d : Nat) : Int :=
  let q := n / d
  let r := n % d
  if 2 * r < d ∨ 2 * r = d ∧ q % 2 = 0 then q else q + 1
/-- A point in a view (R276). -/
def mapped (v : View) (p : Int × Int) : Int × Int :=
  (clampTo (-2 ^ 31) (2 ^ 31 - 1) (nearestEven (v.ma * p.1 + v.mb * p.2) 65536 + v.c),
    clampTo (-2 ^ 31) (2 ^ 31 - 1) (nearestEven (v.md * p.1 + v.me * p.2) 65536 + v.f))
/-- The point of a pair of scalars (R275). -/
def pointAt (s : State) (a : BitVec 6) : Int × Int := ((s.S a).toInt, (s.S (a + 1)).toInt)
/-- A PATH instruction that the ply hands to its core's path unit (R269). -/
def pathOp (s : State) (k : PathKind) : PathOp :=
  ⟨s.seq + 1, s.ply.uid, s.ply.tenant, k, s.ply.ctx, s.ply.cls, s.ply.deadline, s.ply.group, s.ply.gang,
    s.ply.slot⟩
/-- It enters the queue as number s.seq + 1 and the context becomes x; nothing else changes. -/
def QueuesPath (s t : State) (k : PathKind) (x : PathCtx) : Prop :=
  t = { s with ply := t.ply, seq := s.seq + 1, cores := t.cores } ∧ SameMemory s t ∧ UnitDone s t { s.ply with ctx := x } ∧
  t.core s.ply.core = { s.core s.ply.core with pathq := (s.core s.ply.core).pathq ++ [pathOp s k] } ∧
  ∀ k, k ≠ s.ply.core → t.core k = s.core k

/-- The parameters that PBEGIN reads from eight scalars (R272). -/
def pathParams (s : State) (g : BitVec 6) : PathParams :=
  ⟨pairOf s g, s.S (g + 2), (s.S (g + 3)).getLsbD 20, (s.S (g + 3)).extractLsb' 18 2, (s.S (g + 3)).extractLsb' 16 2,
    (s.S (g + 3)).extractLsb' 0 16, (s.S (g + 4)).toNat, (s.S (g + 6)).toNat, (s.S (g + 5)).toNat % 2 ^ 12,
    (s.S (g + 5)).toNat / 2 ^ 12 % 2 ^ 12, (s.S (g + 7)).extractLsb' 0 16⟩
/-- The reserved bits of S[G+3], S[G+5] and S[G+7] are zero. -/
def ReservedZero (s : State) (g : BitVec 6) : Prop :=
  (s.S (g + 3)).toNat < 2 ^ 21 ∧ (s.S (g + 5)).toNat < 2 ^ 24 ∧ (s.S (g + 7)).toNat < 2 ^ 16
/-- The 32 bytes of a view (R274). -/
def viewBytes (v : View) : List Byte :=
  ([v.ma, v.mb, v.c, v.md, v.me, v.f].flatMap fun i => leBytes 4 (BitVec.ofInt 32 i).toNat) ++
    ([v.ox, v.oy].flatMap fun i => leBytes 2 (BitVec.ofInt 16 i).toNat) ++ zeros 4
/-- n bytes of XBUF as the ply's scalar unit reads them (R228): each of its latest STX that is still queued, or as it stands. -/
def scalarBytes (s : State) (a n : Nat) : List Byte := (List.range n).map fun i =>
  (s.ply.lsq.flatMap fun e => match e.kind with
    | .storeX ls false => ls.filterMap fun l => if l.pa ≤ a + i then l.data[a + i - l.pa]? else none
    | _ => []).getLastD (s.localByte s.ply.core .xbuf (a + i))
/-- The checks of PBEGIN in their order (R273). -/
def beginChecks (s : State) (g : BitVec 6) : List Check :=
  let q := pathParams s g
  let n := s.ply.ctx.nextViews.length * q.th * q.tw
  let is (w : Word) : DWord → Prop := fun e => e = w.zeroExtend 64
  [⟨s.ply.ctx.state = .opened, 0x0E, 17, fun _ => True⟩, ⟨¬canonical q.entry, 0x09, 0, fun e => e = q.entry⟩,
    ⟨q.entry.toNat % 64 ≠ 0, 0x08, 0, fun e => e = q.entry⟩, ⟨¬ReservedZero s g ∨ q.tw = 0 ∨ q.th = 0, 0x0E, 19, fun _ => True⟩,
    ⟨q.tab / 2 ^ 30 = 3, 0x0C, 2, is (s.S (g + 4))⟩, ⟨q.pblk / 2 ^ 30 = 3, 0x0C, 2, is (s.S (g + 6))⟩,
    ⟨q.tab / 2 ^ 30 ≠ 0, 0x0C, 3, is (s.S (g + 4))⟩, ⟨q.pblk / 2 ^ 30 ≠ 0, 0x0C, 3, is (s.S (g + 6))⟩,
    ⟨q.tab % 64 ≠ 0, 0x08, 0, is (s.S (g + 4))⟩, ⟨q.pblk % 64 ≠ 0, 0x08, 0, is (s.S (g + 6))⟩,
    ⟨s.ply.windowSize < q.tab + 4160 * n, 0x0C, 0, is (s.S (g + 4))⟩,
    ⟨s.ply.windowSize < q.pblk + 10304 * n, 0x0C, 0, is (s.S (g + 6))⟩]
/-- The checks of PVIEW in their order (R274). -/
def viewChecks (s : State) (n a : BitVec 6) : List Check :=
  let k := (s.S n).toNat
  let at' := (s.S a).toNat
  let offset : DWord → Prop := fun e => e = BitVec.ofNat 64 (at' % 2 ^ 30)
  [⟨s.ply.ctx.state = .opened, 0x0E, 17, fun _ => True⟩, ⟨k = 0 ∨ 128 < k, 0x0E, 19, fun _ => True⟩, ⟨at' / 2 ^ 30 = 3, 0x0C, 2, offset⟩,
    ⟨at' / 2 ^ 30 ≠ 0, 0x0C, 3, offset⟩, ⟨at' % 32 ≠ 0, 0x08, 0, fun e => e = (s.S a).zeroExtend 64⟩,
    ⟨s.ply.windowSize < at' + 32 * k, 0x0C, 0, offset⟩,
    ⟨∃ i, i < k ∧ ∃ j, 28 ≤ j ∧ j < 32 ∧ (scalarBytes s (s.ply.windowBase + at') (32 * k)).getD (32 * i + j) 0 ≠ 0, 0x0E, 19, fun _ => True⟩]
/-- A view's fields lie in their widths. -/
def ViewOk (v : View) : Prop :=
  (∀ i ∈ [v.ma, v.mb, v.c, v.md, v.me, v.f], -2 ^ 31 ≤ i ∧ i < 2 ^ 31) ∧ ∀ i ∈ [v.ox, v.oy], -2 ^ 15 ≤ i ∧ i < 2 ^ 15

end Sys2Proof.Claim

/-- R272 to R276: PBEGIN opens a path with the parameters of its scalars and the views set for it, PVIEW sets the views of the next
path, each once the checks of its table pass, and else takes the first that fails; a segment moves first and current point in each
view and is queued; PEND closes. Out of their state they take ENGINE 17. Model's choices in it: log 68. -/
def Obligations.PathBuilding : Prop :=
  (∀ (g : BitVec 6) s, RaisesFirst (.pbegin g) s (beginChecks s g) ∧
    (allPass (beginChecks s g) → Answers (.pbegin g) s fun t => OnlyPly s t ∧
      UnitDone s t { s.ply with ctx := t.ply.ctx } ∧ t.ply.ctx.state = .opened ∧ t.ply.ctx.params = pathParams s g ∧
      t.ply.ctx.views = s.ply.ctx.nextViews ∧ t.ply.ctx.nextViews = s.ply.ctx.nextViews ∧ t.ply.ctx.started = false)) ∧
  (∀ n a s, RaisesFirst (.pview n a) s (viewChecks s n a) ∧
    ∀ vs : List View, allPass (viewChecks s n a) → vs.length = (s.S n).toNat → (∀ v ∈ vs, ViewOk v) →
      vs.flatMap viewBytes = scalarBytes s (s.ply.windowBase + (s.S a).toNat) (32 * vs.length) →
      Answers (.pview n a) s fun t => OnlyPly s t ∧ UnitDone s t { s.ply with ctx := { s.ply.ctx with nextViews := vs } }) ∧
  (∀ a s, s.ply.ctx.state = .opened →
    (∀ f ∈ [((Instr.psegl a), PathKind.line (pointAt s a) (pointAt s (a + 2)), pointAt s (a + 2)),
        (.psegq a, .quad (pointAt s a) (pointAt s (a + 2)) (pointAt s (a + 4)) s.ply.flattol.toNat, pointAt s (a + 4))],
      Answers f.1 s fun t => QueuesPath s t f.2.1 { s.ply.ctx with
        started := true, current := s.ply.ctx.views.map fun v => mapped v f.2.2
        first := if s.ply.ctx.started = true then s.ply.ctx.first
          else s.ply.ctx.views.map fun v => mapped v (pointAt s a) }) ∧
    (s.ply.group = none → Answers .pend s fun t => QueuesPath s t .pend { s.ply.ctx with state := .closed }) ∧
    (s.ply.group ≠ none → Answers .pend s fun t => SameMemory s t ∧ counter t.ply 3 = (counter s.ply 3 + 1) % 2 ^ 16 ∧
      UnitDone s t { s.ply with cnt := t.ply.cnt, ctx := { s.ply.ctx with state := .closed } } ∧
      (t.core s.ply.core).pathq = (s.core s.ply.core).pathq ++ [pathOp s .pend] ∧
      ∃ scopes, t.counted = s.counted ++ [⟨s.seq + 1, s.ply.uid, 3, false, none, scopes, s.ply.tenant⟩])) ∧
  (∀ a s, s.ply.supervisor = false → s.ply.ctx.state ≠ .opened → ∀ i ∈ [Instr.psegl a, .psegq a, .pend], Answers i s fun t =>
    ∃ ea, TakesTrap s t s.issue.first s.ply.pos 0x0E 17 0 ea 127)

namespace Sys2Proof.Claim

/-- The number of the tile that an index names (R272). -/
def tileNumber (q : PathParams) (t : Word) : Nat :=
  (t.toNat / 2 ^ 24 * q.th + t.toNat / 2 ^ 12 % 2 ^ 12) * q.tw + t.toNat % 2 ^ 12
/-- The XBUF address, on the core, of its paint block. -/
def blockOf (s : State) (t : Word) : Nat := s.ply.windowBase + s.ply.ctx.params.pblk + 10304 * tileNumber s.ply.ctx.params t
/-- A byte of XBUF on the ply's core. -/
def xbyte (s : State) (a : Nat) : Byte := s.localByte s.ply.core .xbuf a
/-- The number in n bytes of XBUF. -/
def xnum (s : State) (a n : Nat) : Nat := leNat ((List.range n).map fun i => xbyte s (a + i))
/-- The header of a block is malformed (R287). -/
def Malformed (s : State) (block : Nat) : Prop :=
  let top := xnum s (block + 2056) 4
  8 < xnum s (block + 2048) 4 ∨ 8 < xnum s (block + 2052) 4 ∨ 2 ^ 17 ≤ top ∨ (0 < top ∧ top < 2 ^ 16) ∨
  ∃ i, 2060 ≤ i ∧ i < 2112 ∧ xbyte s (block + i) ≠ 0
/-- The issued clip depth of a tile's block. -/
def issuedDepth (s : State) (t : Word) : Nat := xnum s (blockOf s t + 2048) 4
/-- The checks that a tile index takes (R283, R317). -/
def tileChecks (s : State) (t : Word) : List Check :=
  let q := s.ply.ctx.params
  let (w, ty, tx) := (t.toNat / 2 ^ 24, t.toNat / 2 ^ 12 % 2 ^ 12, t.toNat % 2 ^ 12)
  [⟨s.ply.ctx.views.length ≤ w ∨ q.th ≤ ty ∨ q.tw ≤ tx, 0x0E, 18, fun _ => True⟩,
    ⟨∃ c sw, s.ply.group = some (c, sw) ∧ tileOwner sw w ty tx ≠ s.ply.core % 8, 0x0E, 22, fun e => e = t.zeroExtend 64⟩]
/-- The checks of PSCAN, PCLIP and PUNCLIP up to the layer (R283, R287, R291). -/
def blockChecks (s : State) (t : Word) (layer : BitVec 16) : List Check :=
  [⟨s.ply.ctx.state ≠ .closed, 0x0E, 17, fun _ => True⟩] ++ tileChecks s t ++
  [⟨Malformed s (blockOf s t), 0x0E, 27, fun e => e = BitVec.ofNat 64 (s.ply.ctx.params.pblk + 10304 * tileNumber s.ply.ctx.params t)⟩,
    ⟨layer.toNat < xnum s (blockOf s t + 2056) 4 % 2 ^ 16, 0x0E, 20, fun _ => True⟩]
/-- The checks of a solid colour (R283). -/
def colourChecks (s : State) : List Check :=
  let q := s.ply.ctx.params
  let a := q.parg.toNat
  let offset : DWord → Prop := fun e => e = BitVec.ofNat 64 (a % 2 ^ 30)
  [⟨q.solid = true ∧ a / 2 ^ 30 = 3, 0x0C, 2, offset⟩, ⟨q.solid = true ∧ a / 2 ^ 30 ≠ 0, 0x0C, 3, offset⟩,
    ⟨q.solid = true ∧ a % 8 ≠ 0, 0x08, 0, fun e => e = q.parg.zeroExtend 64⟩,
    ⟨q.solid = true ∧ s.ply.windowSize < a + 8, 0x0C, 0, offset⟩]
/-- PATHDEPTH where the issued depth is the limit: the tile's view-space origin (R291). -/
def depthCheck (s : State) (t : Word) (limit : Nat) : List Check :=
  [⟨issuedDepth s t = limit, 0x0F, 0, fun e => ∃ v, s.ply.ctx.views[t.toNat / 2 ^ 24]? = some v ∧
    e = BitVec.ofInt 32 (16 * (v.oy + (t.toNat / 2 ^ 12 % 2 ^ 12 : Nat))) ++ BitVec.ofInt 32 (16 * (v.ox + (t.toNat % 2 ^ 12 : Nat)))⟩]
/-- The XBUF of the core is in canonical form and no STX of it awaits an XFENCE (R231). -/
def Settled (s : State) : Prop := (s.core s.ply.core).xbuf.wf = true ∧ s.stale s.ply.core = []

/-- A tile instruction is counted in class PT, takes a commit entry of a kind and a layer and sets the issued depth and the
top layer; where it goes to the path unit it is queued as q; no other byte changes (R283, R287, R288). -/
def TakesTile (s t : State) (word : Word) (kind : EntryKind) (layer : BitVec 16) (depth : Nat) (q : Option PathKind) : Prop :=
  let b := blockOf s word
  let e : CommitEntry := ⟨s.seq + 1, s.seq + 1, s.ply.uid, s.ply.gang, b, layer, kind, s.ply.ctx.params.blend,
    decide (kind = .unclip), 0, [], s.ply.scope, s.ply.tenant⟩
  t = { s with ply := t.ply, plies := t.plies, seq := s.seq + 1, counted := t.counted, cores := t.cores } ∧
  (∃ scopes, t.counted = s.counted ++ [⟨s.seq + 1, s.ply.uid, 3, false, none, scopes, s.ply.tenant⟩]) ∧
  UnitDone s t { s.ply with cnt := t.ply.cnt, stxOld := t.ply.stxOld } ∧ counter t.ply 3 = (counter s.ply 3 + 1) % 2 ^ 16 ∧
  (∀ k, k ≠ 3 → t.ply.cnt[k]? = s.ply.cnt[k]?) ∧
  t.core s.ply.core = { s.core s.ply.core with
    xbuf := (t.core s.ply.core).xbuf, entries := (s.core s.ply.core).entries ++ [e]
    pathq := (s.core s.ply.core).pathq ++ (q.map fun k => pathOp s k).toList } ∧
  (∀ k, k ≠ s.ply.core → t.core k = s.core k) ∧ (∀ core a, t.seen core a = s.seen core a) ∧
  ∀ a, xbyte t a = overlay (b + 2048) (leBytes 4 depth) a (overlay (b + 2056) (leBytes 4 (65536 + layer.toNat)) a (xbyte s a))

/-- PSCAN, PCLIP and PUNCLIP with their checks (R283, R291): they take a commit entry of a kind and layer and set the issued depth, or,
where the overflow list is full, are counted and complete at once, with the scope of %scope faulted by ENGINE 21 (R288). -/
def ActsOnTile (i : Instr) (s : State) (word : Word) (cs : List Check) (kind : EntryKind) (layer : BitVec 16) (depth : Nat)
    (q : Option PathKind) : Prop :=
  let c := s.core s.ply.core
  let full := 256 ≤ c.entries.length ∧ c.commitCap.toNat ≤ c.commitOverflow
  RaisesFirst i s cs ∧ (allPass cs → ¬full → Answers i s fun t => TakesTile s t word kind layer depth q) ∧
  (allPass cs → full → (∀ x ∈ s.counted, x.seq ≤ s.seq) → Answers i s fun t => SameMemory s t ∧ t.cores = s.cores ∧ UnitDone s t { s.ply with cnt := t.ply.cnt } ∧
    counter t.ply 3 = (counter s.ply 3 + 1) % 2 ^ 16 ∧
    (∃ scopes, t.counted = s.counted ++ [⟨s.seq + 1, s.ply.uid, 3, true, none, scopes, s.ply.tenant⟩]) ∧
    ∀ y, s.scopeOf s.ply.tenant s.ply.scope = some y → y.state = .opened → t.scopeOf s.ply.tenant s.ply.scope =
      some { y with state := .faulted, tcancel := s.ptime, cause := BitVec.ofNat 32 (21 * 2 ^ 8 + 0x0E) })

/-- The commits of a PBLEND for a core's unit: of each counted lane whose tag is unused, in lane order (R289). -/
def commitsOf (s : State) (c : BitVec 7) (core : Nat) : List Commit :=
  (storingLanes s).filterMap fun i => match (s.ply.info i).commit with
    | some g => if g.core = core then some ⟨g.entry, g.pixel, g.cov, [((s.V c).at i).extractLsb' 0 16, ((s.V c).at i).extractLsb' 16 16,
        ((s.V (c + 1)).at i).extractLsb' 0 16, ((s.V (c + 1)).at i).extractLsb' 16 16]⟩ else none
    | none => none
/-- No entry of a core is about to retire: a scanned one has a task or a commit left (R290). -/
def NoneRetires (s : State) (core : Nat) : Prop :=
  ∀ e ∈ (s.core core).entries, e.kind = .scan → e.scanned = true → e.live ≠ 0 ∨ ∃ m ∈ (s.core core).commits, m.entry = e.id

end Sys2Proof.Claim

/-- R283, R287 to R292: PSCAN, PCLIP and PUNCLIP with the header's issued depth d take a commit entry and set the header to depth
d, d + 1 or d − 1 and to their layer, once the checks of their tables pass; PCELL is queued; PBLEND hands over one commit of each
counted lane whose tag is unused, to the unit of its scan's core, whose entry has one task less. Model's choices in it: log 68,
69. -/
def Obligations.PathTiles : Prop :=
  (∀ w s, Settled s → let q := s.ply.ctx.params
    let (v, ty, tx) := ((s.S w).toNat / 2 ^ 24, (s.S w).toNat / 2 ^ 12 % 2 ^ 12, (s.S w).toNat % 2 ^ 12)
    let d := issuedDepth s (s.S w)
    let forms := decide (storingLanes s ≠ [])
    ActsOnTile (.pscan w) s (s.S w) (blockChecks s (s.S w) q.layer ++ colourChecks s) .scan q.layer d
      (some (.scan v ty tx (s.seq + 1) false s.ply.scope forms
        (if q.solid && forms then some (scalarBytes s (s.ply.windowBase + q.parg.toNat) 8) else none))) ∧
    ActsOnTile (.pclip w) s (s.S w) (blockChecks s (s.S w) q.layer ++ colourChecks s ++ depthCheck s (s.S w) 8) .clip q.layer (d + 1)
      (some (.scan v ty tx (s.seq + 1) true s.ply.scope false none)) ∧
    ∀ l, let layer := (s.S l).extractLsb' 0 16
      ActsOnTile (.punclip w l) s (s.S w) (blockChecks s (s.S w) layer ++ depthCheck s (s.S w) 0) .unclip layer (d - 1) none) ∧
  (∀ (d : BitVec 7) w r s,
    (d.toNat ≤ 119 → s.ply.vregs.length < d.toNat + 2 → s.ply.supervisor = false →
      Answers (.pcell d w r) s fun t => TrapsWithWord s t 0x07 0) ∧
    (d.toNat + 2 ≤ s.ply.vregs.length →
      let cs := [⟨s.ply.ctx.state = .none, 0x0E, 17, fun _ => True⟩] ++ tileChecks s (s.S w)
      RaisesFirst (.pcell d w r) s cs ∧ (allPass cs → Answers (.pcell d w r) s fun t =>
        QueuesPath s t (.pcell d ((s.S w).toNat / 2 ^ 24) ((s.S w).toNat / 2 ^ 12 % 2 ^ 12) ((s.S w).toNat % 2 ^ 12) (s.S r).toNat
          s.path.active) s.ply.ctx))) ∧
  (∀ (c : BitVec 7) s,
    (c.toNat ≤ 119 → s.ply.vregs.length < c.toNat + 2 → s.ply.supervisor = false →
      Answers (.pblend c) s fun t => TrapsWithWord s t 0x07 0) ∧
    (c.toNat + 2 ≤ s.ply.vregs.length → s.ply.paint = false → s.ply.supervisor = false →
      Answers (.pblend c) s fun t => ∃ ea, TakesTrap s t s.issue.first s.ply.pos 0x0E 17 0 ea 127) ∧
    (c.toNat + 2 ≤ s.ply.vregs.length → s.ply.paint = true → (∀ core, NoneRetires s core) →
      (∀ i g, (s.ply.info i).commit = some g → ∀ e ∈ (s.core g.core).entries.drop 256, e.id ≠ g.entry) →
      Answers (.pblend c) s fun t => SameMemory s t ∧ t = { s with ply := t.ply, cores := t.cores } ∧
        UnitDone s t { s.ply with lanes := t.ply.lanes } ∧
        (∀ i, i < 96 → t.ply.info i =
          if i ∈ storingLanes s then { s.ply.info i with commit := none } else s.ply.info i) ∧
        ∀ k, t.core k = { s.core k with
          commits := (s.core k).commits ++ commitsOf s c k
          entries := (s.core k).entries.map fun e =>
            { e with live := e.live - ((commitsOf s c k).filter fun m => m.entry == e.id).length } }))

namespace Sys2Proof.Claim

/-- An addition of R279 performed on XBUF as it reads: n bytes at an address, modulo 2^(8n). -/
def added (f : Nat → Byte) (x : Nat × Nat × Int) : Nat → Byte := fun a =>
  overlay x.1 (leBytes x.2.1 (BitVec.ofInt 64 ((leNat ((List.range x.2.1).map fun i => f (x.1 + i)) : Nat) + x.2.2)).toNat) a (f a)
/-- XBUF of a core after additions in order, all other memory as before. -/
def Deposits (s t : State) (core : Nat) (adds : List (Nat × Nat × Int)) : Prop :=
  (∀ a, t.localByte core .xbuf a = adds.foldl added (s.localByte core .xbuf) a) ∧ (∀ c a, t.seen c a = s.seen c a) ∧
  ∀ c sp a, c ≠ core ∨ sp ≠ .xbuf → t.localByte c sp a = s.localByte c sp a
/-- The chords that a queued instruction deposits in view w (R275, R277). -/
def chordsOf (o : PathOp) (w : Nat) (v : View) : List ((Int × Int) × (Int × Int)) :=
  match o.kind with
  | .line a b => [(mapped v a, mapped v b)]
  | .quad a b c tol => flatten (mapped v a) (mapped v b) (mapped v c) tol
  | .pend =>
    match o.ctx.current[w]?, o.ctx.first[w]? with
    | some c, some f => if o.ctx.started = true ∧ c ≠ f then [(c, f)] else []
    | _, _ => []
  | _ => []

/-- The height of a piece. -/
def rise (p : (Int × Int) × (Int × Int)) : Int := p.2.2 - p.1.2
/-- A rational to the nearest integer, ties to even. -/
def nearestInt (q : ℚ) : Int := nearestEven q.num q.den
/-- The break points of a chord on the deposit grid are at these parameters (R278): strictly between its ends, where it crosses a
vertical or a horizontal cell boundary. -/
def BreaksAt (p q : Int × Int) (u : ℚ) : Prop :=
  0 < u ∧ u < 1 ∧ ((p.1 ≠ q.1 ∧ ∃ m : Int, (p.1 : ℚ) + u * (q.1 - p.1) = 65536 * m) ∨
    (p.2 ≠ q.2 ∧ ∃ m : Int, (p.2 : ℚ) + u * (q.2 - p.2) = 65536 * m))
/-- The point of a chord at a parameter, on the grid. -/
def breakPoint (p q : Int × Int) (u : ℚ) : Int × Int :=
  (nearestInt ((p.1 : ℚ) + u * (q.1 - p.1)), nearestInt ((p.2 : ℚ) + u * (q.2 - p.2)))
/-- The additions of one piece in view w (R279, R280). -/
def addsOf (q : PathParams) (w : Nat) (v : View) (p : (Int × Int) × (Int × Int)) : List TabAdd :=
  let col := (p.1.1 + p.2.1) / 131072
  let row := (p.1.2 + p.2.2) / 131072
  let tc := col / 16 - v.ox
  let tr := row / 16 - v.oy
  let tab (tx : Nat) : Nat := q.tab + 4160 * ((w * q.th + tr.toNat) * q.tw + tx)
  let cell : Nat := tab tc.toNat + 16 * (16 * (row % 16).toNat + (col % 16).toNat)
  if rise p = 0 ∨ tr < 0 ∨ q.th ≤ tr ∨ q.tw ≤ tc then []
  else
    (if 0 ≤ tc then
      [⟨tc.toNat, tr.toNat, cell, 8, rise p * (131072 - (p.1.1 - 65536 * col) - (p.2.1 - 65536 * col))⟩,
        ⟨tc.toNat, tr.toNat, cell + 8, 4, rise p⟩] else []) ++
      ((List.range q.tw).filter fun (x : Nat) => decide (tc < (x : Int))).map fun (x : Nat) => ⟨x, tr.toNat, tab x + 4096 + 4 * (row % 16).toNat, 4, rise p⟩
/-- Bits of x at the even places, of y at the odd ones (R316). -/
def interleaved (x y : Nat) : Nat := (List.range 24).foldl (fun n k => n + x / 2 ^ k % 2 * 4 ^ k + 2 * (y / 2 ^ k % 2 * 4 ^ k)) 0

/-- A value is the rational number q. -/
def IsRational (v : Value) (q : ℚ) : Prop := ∃ n m e, v = .fin n m e ∧ q = (if n then -1 else 1) * m * (2 : ℚ) ^ e
/-- q rounded to nearest, ties to even, into a format (R24). -/
def RoundsTo (f : Fmt) (q : ℚ) (bits : Nat) : Prop :=
  (q = 0 ∧ bits = 0) ∨ ∃ (n : Bool) (m : Nat) (e : Int), m ≠ 0 ∧ q = (if n then -1 else 1) * m * (2 : ℚ) ^ e ∧
    bits = (f.roundFin 0 false n m e).1
/-- The blend of a channel (R289): of the scaled colour sk and its alpha, the old colour dk and its alpha, and the coverage g. -/
def blended (mode : BitVec 2) (sk sa dk da g : ℚ) : ℚ :=
  if mode = 0 then sk + dk * (1 - sa)
  else if mode = 1 then sk + dk
  else if mode = 2 then sk * dk + sk * (1 - da) + dk * (1 - sa)
  else sk + dk * (1 - g)

/-- One pixel of a tile as a task, or, where it is not painted, as a helper lane of its quad (R285). -/
def pixelTask (s : State) (o : PathOp) (core ty tx entry : Nat) (v : View) (scope : BitVec 24) (quad : Option Nat) (cov : Nat → Nat)
    (i : Nat) : Task :=
  let q := o.ctx.params
  let x : BitVec 16 := BitVec.ofInt 16 (16 * (v.ox + tx) + (i % 16 : Nat))
  let y : BitVec 16 := BitVec.ofInt 16 (16 * (v.oy + ty) + (i / 16 : Nat))
  ⟨q.entry, #v[y ++ x, BitVec.ofNat 32 (cov i), q.pidx ++ q.layer, q.parg], if cov i = 0 then 0 else scope, 0, 0, o.cls, o.deadline,
    s.now, true, o.tenant, none, if cov i = 0 then none else some ⟨core, entry, i, cov i⟩, quad, cov i = 0, none⟩
/-- The pixels of quad 8 qy + qx, in lane order (R151, R284). -/
def quadOf (q : Nat) : List Nat := [32 * (q / 8) + 2 * (q % 8), 32 * (q / 8) + 2 * (q % 8) + 1, 32 * (q / 8) + 2 * (q % 8) + 16,
  32 * (q / 8) + 2 * (q % 8) + 17]
/-- The quads that are filled at once (R286), and those that form tasks (R284). -/
def fullQuads (solid : Bool) (cov : Nat → Nat) : List Nat :=
  (List.range 64).filter fun q => solid && (quadOf q).all fun i => cov i == 131072
def taskQuads (solid : Bool) (cov : Nat → Nat) : List Nat :=
  (List.range 64).filter fun q => ((quadOf q).any fun i => cov i != 0) && !(solid && (quadOf q).all fun i => cov i == 131072)
/-- New tasks stand in a core's bin of an entry, after its older ones, or in a new one (R242). -/
def EntersBin (s t : State) (core tenant : Nat) (entry : DWord) (new : List Task) : Prop :=
  let mine (b : Bin) : Prop := b.entry = entry ∧ b.tenant = tenant
  let k := s.core core
  (∀ a b c, k.bins = a ++ [b] ++ c → mine b → (∀ y ∈ a ++ c, ¬mine y) → (∀ y ∈ b.tasks, y.arrival ≤ s.now) →
    (t.core core).bins = a ++ [{ b with tasks := b.tasks ++ new }] ++ c) ∧
  ∀ m : Nat, (∀ b ∈ k.bins, ¬mine b) → m < 64 → (∀ b ∈ k.bins, b.number ≠ m) → (∀ j, j < m → ∃ b ∈ k.bins, b.number = j) →
    (t.core core).bins = k.bins ++ [⟨m, tenant, entry, false, new⟩]
/-- There is room for n tasks of an entry in a core's bins. -/
def BinRoom (s : State) (core tenant : Nat) (entry : DWord) (n : Nat) : Prop :=
  (s.core core).stored + n ≤ 8192 ∧ ((∃ b ∈ (s.core core).bins, b.entry = entry ∧ b.tenant = tenant) ∨
    ∃ m, m < 64 ∧ ∀ b ∈ (s.core core).bins, b.number ≠ m)
/-- An entry has retired: it has left the unit, and its operation is complete (R220, R290). -/
def EntryRetired (t : State) (core : Nat) (e : CommitEntry) : Prop :=
  (∀ x ∈ (t.core core).entries, x.id ≠ e.id) ∧ ∀ c ∈ t.counted, c.seq = e.seq → c.complete = true

/-- The number of cell (x, y) of a TAB's bytes: A in eight, C in four, and a row's carry (R280). -/
def tabA (b : List Byte) (x y : Nat) : Int := (BitVec.ofNat 64 (num b (16 * (16 * y + x)) 8)).toInt
def tabC (b : List Byte) (x y : Nat) : Int := (BitVec.ofNat 32 (num b (16 * (16 * y + x) + 8) 4)).toInt
def tabCarry (b : List Byte) (y : Nat) : Int := (BitVec.ofNat 32 (num b (4096 + 4 * y) 4)).toInt
/-- S of a pixel, modulo 2^64 (R281). -/
def tabS (b : List Byte) (x y : Nat) : Int :=
  (BitVec.ofInt 64 (131072 * ((List.range x).foldl (fun w i => w + tabC b i y) (tabCarry b y)) + tabA b x y)).toInt
/-- The coverage of S under a fill rule, in units of 2^-33 (R281). -/
def covered (rule : BitVec 2) (v : Int) : Int :=
  if rule = 0 then min v.natAbs (2 ^ 33 : Nat)
  else if rule = 1 then
    let t : Int := (v.natAbs % 2 ^ 34 : Nat)
    if t ≤ 2 ^ 33 then t else 2 ^ 34 - t
  else if rule = 2 then clampTo 0 (2 ^ 33) v else clampTo 0 (2 ^ 33) (-v)
/-- cov18 of a pixel, 16 py + px (R40, R281). -/
def cov18 (rule : BitVec 2) (b : List Byte) (i : Nat) : Nat :=
  (nearestEven (covered rule (tabS b (i % 16) (i / 16))) 65536).toNat
/-- A core's TAB of a tile, as bytes. -/
def tabOf (s : State) (core base : Nat) (q : PathParams) (w ty tx : Nat) : List Byte :=
  (List.range 4160).map fun i => s.localByte core .xbuf (base + q.tab + 4160 * ((w * q.th + ty) * q.tw + tx) + i)
/-- A block's committed depth, and the clip of pixel i at a depth (R287, R289). -/
def depthAt (s : State) (core block : Nat) : Nat :=
  min 8 (leNat ((List.range 4).map fun i => s.localByte core .xbuf (block + 2052 + i)))
def clipAt (s : State) (core block depth i : Nat) : Nat :=
  if depth = 0 then 131072
  else min 131072 (leNat ((List.range 4).map fun j => s.localByte core .xbuf (block + 2112 + 1024 * (depth - 1) + 4 * i + j)))
/-- Nothing on a core awaits an XFENCE, and its XBUF is in canonical form. -/
def SettledOn (s : State) (core : Nat) : Prop := (s.core core).xbuf.wf = true ∧ s.stale core = []

end Sys2Proof.Claim

/-- R276 to R281, R283 to R286, R289 to R292, R316 and R317: a curve is cut into chords, a chord into pieces at its cell crossings,
each piece added to the TABs; the path unit makes the additions of a queued segment in its window, a member of a group sends each
owner its own, and the tiler makes them there. A scan clears the TAB and forms its pixels into tasks, in units of a quad where the
entry says so, and commits solid quads; a clip's entry keeps its coverage; PCELL reads S; a commit blends one pixel, a clip entry
changes its plane and the committed depth; a SCAN entry retires with its last task and commit. Model's choices in it: log 33,
70, 71, 99. -/
def Obligations.PathUnit : Prop :=
  -- pieces of a chord (R278)
  (∀ a b : Int × Int, ((pieces a b).map rise).sum = 256 * (b.2 - a.2) ∧ ∃ us : List ℚ, us.Pairwise (· < ·) ∧
    let p : Int × Int := (256 * a.1, 256 * a.2)
    let q : Int × Int := (256 * b.1, 256 * b.2)
    (∀ u, u ∈ us ↔ BreaksAt p q u) ∧
    pieces a b = (p :: us.map (breakPoint p q)).zip (us.map (breakPoint p q) ++ [q])) ∧
  -- additions, chords of a curve, owners and the blend (R279, R277, R316, R289)
  (∀ q w v a b, chordAdds q w v (a, b) = (pieces a b).flatMap (addsOf q w v)) ∧
  (∀ (p0 p1 p2 : Int × Int) tol, let dd := max (p0.1 - 2 * p1.1 + p2.1).natAbs (p0.2 - 2 * p1.2 + p2.2).natAbs
    ∃ k, k ≤ 10 ∧ (dd ≤ 8 * tol * 4 ^ k ∨ k = 10) ∧ (∀ j, j < k → 8 * tol * 4 ^ j < dd) ∧
      let n : Nat := 2 ^ k
      let at' (f : Int × Int → Int) (j : Nat) : Int :=
        nearestEven ((n - j) * (n - j) * f p0 + 2 * j * (n - j) * f p1 + j * j * f p2) (n * n)
      let point (j : Nat) : Int × Int := (at' Prod.fst j, at' Prod.snd j)
      flatten p0 p1 p2 tol = (List.range n).map fun j => (point j, point (j + 1))) ∧
  (∀ sw w ty tx, ty < 2 ^ 12 → tx < 2 ^ 12 → tileOwner sw w ty tx = (interleaved (tx / 2 ^ sw) (ty / 2 ^ sw) + w) % 8) ∧
  (∀ mode (old new : List Nat) (cov clip k : Nat), old.length = 4 → new.length = 4 → k < 4 → (∀ x ∈ old ++ new, x < 2 ^ 16) →
    let g : ℚ := (cov : ℚ) / 131072 * ((clip : ℚ) / 131072)
    (nanValue (fp16.value (old.getD k 0)) ∨ nanValue (fp16.value (new.getD k 0)) →
      (blendPixel mode old new cov clip)[k]? = some 0x7E00) ∧
    ∀ (ck ca dk da sk sa r : ℚ) sb ab rb, cov ≤ 131072 → clip ≤ 131072 →
      IsRational (fp16.value (new.getD k 0)) ck → IsRational (fp16.value (new.getD 3 0)) ca →
      IsRational (fp16.value (old.getD k 0)) dk → IsRational (fp16.value (old.getD 3 0)) da →
      RoundsTo fp32 (ck * g) sb → IsRational (fp32.value sb) sk → RoundsTo fp32 (ca * g) ab → IsRational (fp32.value ab) sa →
      RoundsTo fp32 (blended mode sk sa dk da g) rb → IsRational (fp32.value rb) r →
      ∃ x, (blendPixel mode old new cov clip)[k]? = some x ∧ RoundsTo fp16 r x) ∧
  (∀ core o l base s, SettledOn s core → (s.core core).pathq = o :: l →
    (∃ a b, o.kind = .line a b) ∨ (∃ a b c tol, o.kind = .quad a b c tol) ∨ o.kind = .pend →
    (o.group = none → s.windowOf core o.gang = some base → Answers (.pathUnitDeposit core) s fun t =>
      Deposits s t core ((o.ctx.views.zipIdx.flatMap fun (v, w) => (chordsOf o w v).flatMap (chordAdds o.ctx.params w v)).map
        fun x => (base + x.off, x.width, x.value)) ∧
      (t.core core).pathq = l) ∧
    (∀ c sw, o.group = some (c, sw) → Answers (.pathUnitDeposit core) s fun t => SameMemory s t ∧ (t.core core).pathq = l ∧
      ∃ new : List Piece, t.pieces = s.pieces ++ new ∧ (∀ p ∈ new, p.gang = o.gang ∧ p.uid = o.uid ∧ p.seq = o.seq ∧
        c * 8 ≤ p.owner ∧ p.owner < c * 8 + 8) ∧
      ∀ k, k < 8 → ((new.filter fun p => p.owner == c * 8 + k).flatMap (·.adds)) =
        ((o.ctx.views.zipIdx.flatMap fun (v, w) => (chordsOf o w v).flatMap fun ch =>
          (chordAdds o.ctx.params w v ch).filter fun x => tileOwner sw w x.ty x.tx == k).map
            fun x => (x.off, x.width, x.value)))) ∧
  (∀ (i : Nat) p base s, s.pieces[i]? = some p → SettledOn s p.owner →
    (∀ q ∈ s.pieces.take i, q.uid ≠ p.uid ∨ q.owner ≠ p.owner) → s.windowOf p.owner p.gang = some base →
    Answers (.tilerDeposit i) s fun t => t.pieces = s.pieces.eraseIdx i ∧
      Deposits s t p.owner (p.adds.map fun x => (base + x.1, x.2.1, x.2.2))) ∧
  -- the scan (R283 to R286, R290)
  (∀ core o l base w ty tx entry clip scope forms colour h s, SettledOn s core → (s.core core).pathq = o :: l →
    o.kind = .scan w ty tx entry clip scope forms colour → s.windowOf core o.gang = some base →
    (forms = true → clip = false ∧ s.headerFor core o.tenant o.ctx.params.entry = .ok h) → NoneRetires s core →
    (∀ e ∈ (s.core core).entries.drop 256, e.id ≠ entry) →
    let q := o.ctx.params
    let tab := base + q.tab + 4160 * ((w * q.th + ty) * q.tw + tx)
    let cov := cov18 q.rule (tabOf s core base q w ty tx)
    let task := pixelTask s o core ty tx entry ((o.ctx.views[w]?).getD View.identity) scope
    let new : List Task := if forms = false then []
      else if h.quad = true then (taskQuads q.solid cov).flatMap fun k => (quadOf k).map (task (some (64 * entry + k)) cov)
      else ((List.range 256).filter fun i => cov i != 0).map (task none cov)
    let fills : List Commit := if forms = true ∧ h.quad = true then
        ((fullQuads q.solid cov).flatMap quadOf).map fun i => ⟨entry, i, 131072, (List.range 4).map fun k =>
          BitVec.ofNat 16 (num (colour.getD []) (2 * k) 2)⟩
      else []
    let n := (new.filter fun x => !x.helper).length
    let counts := s.accepts o.tenant scope = true
    let takes := counts ∧ s.heardCancel core o.tenant scope = false
    (takes → BinRoom s core o.tenant q.entry new.length) →
    Answers (.pathUnitScan core) s fun t => (t.core core).pathq = l ∧
      (∀ c a, t.seen c a = s.seen c a) ∧ (∀ c sp a, c ≠ core ∨ sp ≠ .xbuf → t.localByte c sp a = s.localByte c sp a) ∧
      (∀ a, t.localByte core .xbuf a = if tab ≤ a ∧ a < tab + 4160 then 0 else s.localByte core .xbuf a) ∧
      (t.core core).commits = (s.core core).commits ++ fills ∧
      (¬takes ∨ new = [] → (t.core core).bins = (s.core core).bins) ∧ (takes → new ≠ [] → EntersBin s t core o.tenant q.entry new) ∧
      (∀ a c, t.scopeOf a c = (s.scopeOf a c).map fun x => if a = o.tenant ∧ c = scope ∧ counts then
        (if takes then { x with live := x.live + n } else { x with ended := x.ended + n }) else x) ∧
      ∀ e ∈ (s.core core).entries, e.id = entry → e.live = 0 → (∀ x ∈ (s.core core).entries, x.id = entry → x = e) →
        (e.kind = .scan → ¬takes ∨ n = 0 → fills = [] → (∀ m ∈ (s.core core).commits, m.entry ≠ entry) → EntryRetired t core e) ∧
        (e.kind = .clip ∨ (takes ∧ n ≠ 0) ∨ fills ≠ [] → { e with
          scanned := true, live := if takes then n else 0, plane := if clip then (List.range 256).map cov else [] } ∈
            (t.core core).entries)) ∧
  (∀ core o l base d w ty tx row active s, SettledOn s core → s.ply.uid = o.uid → s.ply.core = core →
    s.ply.uid ≠ 0 → (∀ e ∈ s.ply.lsq, e.seq ≠ o.seq) → (∀ h ∈ s.ply.hubq, h.seq ≠ o.seq) → (s.core core).pathq = o :: l →
    o.kind = .pcell d w ty tx row active → s.windowOf core o.gang = some base → d.toNat + 2 ≤ s.ply.vregs.length →
    d.toNat + 2 ≤ 120 → (∀ k, ∀ q ∈ (s.core k).pathq, q.gang = o.gang → q.uid = o.uid) →
    (∀ p ∈ s.pieces, p.gang = o.gang → p.uid = o.uid) →
    Answers (.longLatencyResult s.ply.uid o.seq) s fun t => SameMemory s t ∧ (t.core core).pathq = l ∧ PliesKept s t ∧
      WokenPly { s.ply with vregs := t.ply.vregs } t.ply ∧
      (let v (i : Nat) : DWord := if row + i / 16 ≤ 15 then
          BitVec.ofInt 64 (tabS (tabOf s core base o.ctx.params w ty tx) (i % 16) (row + i / 16)) else 0
      ∀ (r : BitVec 7) i, r.toNat ≤ 119 → i < 96 → (t.V r).at i =
        if r = d ∧ active.has i = true then (v i).extractLsb' 0 32
        else if r = d + 1 ∧ active.has i = true then (v i).extractLsb' 32 32 else (s.V r).at i)) ∧
  -- the commit unit (R289 to R291), and a paint task that ends without a commit (R290)
  (∀ core (i : Nat) m e s, SettledOn s core → (s.core core).commits[i]? = some m →
    (s.core core).entries.find? (fun x => x.id == m.entry) = some e → (s.core core).entryWaits e = false →
    (∀ x ∈ (s.core core).entries, x.id = e.id → x = e) → Answers (.commitPerform core i) s fun t => (t.core core).commits = (s.core core).commits.eraseIdx i ∧
      (∀ c a, t.seen c a = s.seen c a) ∧ (∀ c sp a, c ≠ core ∨ sp ≠ .xbuf → t.localByte c sp a = s.localByte c sp a) ∧
      (e.kind = .scan → e.scanned = true → e.live = 0 → (∀ x ∈ (s.core core).commits.eraseIdx i, x.entry ≠ e.id) →
        EntryRetired t core e) ∧
      (e.live ≠ 0 ∨ (∃ x ∈ (s.core core).commits.eraseIdx i, x.entry = e.id) → e ∈ (t.core core).entries) ∧
      let at' := e.block + 8 * m.pixel
      let old := (List.range 4).map fun k => leNat ((List.range 2).map fun i => s.localByte core .xbuf (at' + 2 * k + i))
      let clip := clipAt s core e.block (depthAt s core e.block) m.pixel
      ∀ a, t.localByte core .xbuf a = overlay at'
        ((blendPixel e.blend old (m.colour.map (·.toNat)) m.cov clip).flatMap fun c => leBytes 2 c) a (s.localByte core .xbuf a)) ∧
  (∀ core (j : Nat) e s, SettledOn s core → (s.core core).entries[j]? = some e → e.scanned = true →
    (s.core core).entryWaits e = false → e.kind ≠ .scan →
    Answers (.commitPerform core ((s.core core).commits.length + j)) s fun t =>
      EntryRetired t core e ∧
      let depth := depthAt s core e.block
      (e.kind = .unclip → ∀ a, t.localByte core .xbuf a =
        overlay (e.block + 2052) (leBytes 4 (BitVec.ofNat 32 depth - 1).toNat) a (s.localByte core .xbuf a)) ∧
      (e.kind = .clip → ∀ a, t.localByte core .xbuf a = overlay (e.block + 2052) (leBytes 4 (depth + 1)) a
        (overlay (e.block + 2112 + 1024 * depth) ((List.range 256).flatMap fun i =>
          leBytes 4 (nearestEven ((e.plane[i]?).getD 0 * clipAt s core e.block depth i : Nat) 131072).toNat) a
          (s.localByte core .xbuf a)))) ∧
  (∀ i g e s, Named s → storingLanes s = [i] → s.ply.occ &&& ~~~s.path.active ≠ 0 → s.cancelledLanes s.ply = 0 →
    (s.ply.info i).leaf = none → (s.ply.info i).commit = some g → e ∈ (s.core g.core).entries → e.id = g.entry → e.kind = .scan →
    e.scanned = true → (∀ x ∈ (s.core g.core).entries, x.id = e.id → x = e) → Answers .exit s fun t =>
      SameMemory s t ∧ Ended s t [i] ∧
      (e.live ≤ 1 → (∀ m ∈ (s.core g.core).commits, m.entry ≠ e.id) → EntryRetired t g.core e) ∧
      (1 < e.live → { e with live := e.live - 1 } ∈ (t.core g.core).entries))

namespace Sys2Proof.Claim

/-! ## Formation, restores and launches (R108, R109, R241, R244 to R249, R345, R359 to R371) -/

/-- A ply as it starts (R108, R109): its lanes from 0 up have the arguments and scopes listed, occupied or, for a helper lane, not;
the rest are vacant. -/
def Born (s : State) (p : Ply) (core tenant : Nat) (entry : DWord) (h : Header) (pointer : DWord)
    (tasks : List (Vector Word 4 × BitVec 24 × Bool)) : Prop :=
  p.core = core ∧ p.tenant = tenant ∧ p.entry = entry ∧ p.header = h ∧
  (∀ i, i < 96 → p.occ.has i = ((tasks[i]?).map (·.2.2)).getD false) ∧
  p.path0.pc = entry ∧ p.path0.member = Mask.full ∧ p.path0.active = Mask.full ∧ p.path0.wait = .none ∧
  p.path1.member = 0 ∧ p.slot = 0 ∧ p.running = false ∧ p.pos = 0 ∧ p.latches = [] ∧ p.dstack = [] ∧ p.frames = [] ∧
  p.supervisor = false ∧ p.fflags = 0 ∧ p.frnd = 0 ∧ p.yc = 0 ∧ p.ydl = BitVec.ofNat 8 h.yield ∧ p.rpr = 0 ∧
  p.flattol = 16 ∧ p.tvec = (s.tenant tenant).trapVec ∧ p.scope = ((tasks.find? (·.2.2)).map (·.2.1)).getD 0 ∧
  p.windowSize = h.xbuf ∧ p.vregs.length = h.regs ∧ p.tiles = List.replicate h.tiles (List.replicate 64 Lanes.zero) ∧
  (∀ (k : Nat) i, k < h.regs → i < 96 → ((p.vregs[k]?).getD Lanes.zero).at i = match tasks[i]? with
    | none => 0
    | some x => if k < 4 then (x.1[k]?).getD 0 else if k = 4 ∧ x.2.2 = true then x.2.1.zeroExtend 32 else 0) ∧
  ∀ (k : Nat), k < 64 → (p.sregs[k]?).getD 0 =
    if k = 2 then pointer.extractLsb' 0 32 else if k = 3 then pointer.extractLsb' 32 32
    else if 56 ≤ k ∧ k ≤ 58 then Mask.word p.occ (k - 56) else 0

/-- Only plain tasks: none of a path. -/
def PlainTask (x : Task) : Prop := x.helper = false ∧ x.quad = none ∧ x.commit = none
/-- A bin of a core is the next to form there. -/
def NextBin (s : State) (core : Nat) (b : Bin) : Prop :=
  s.nextPlacing core = some (.bin b.number) ∧ (s.core core).ripeBins.find? (fun x => x.number == b.number) = some b ∧
  (s.tryBin core b).isSome = true ∧ b.tasks ≠ []
/-- A bin of plain tasks, none of a cancelled scope. -/
def PlainBin (s : State) (core : Nat) (b : Bin) : Prop := (∀ x ∈ b.tasks, PlainTask x) ∧ (s.core core).heard = []
/-- A bin of units of four (R284): paint tasks and helper lanes. -/
def QuadBin (b : Bin) (us : List (List Task)) : Prop :=
  b.tasks = us.flatten ∧ (∀ u ∈ us, u.length = 4 ∧ ∃ n, ∀ x ∈ u, x.quad = some n ∧ (x.helper = true ∨ x.commit.isSome = true)) ∧
  us.Pairwise fun u v => ∀ x ∈ u, ∀ y ∈ v, x.quad ≠ y.quad
/-- What a formation makes of a pixel (R284): a helper lane has no task, and a discarded task leaves one, with coverage 0. -/
def pixelLane (s : State) (core : Nat) (x : Task) : Vector Word 4 × BitVec 24 × Bool :=
  if x.helper then (x.args, x.scope, false)
  else if s.heardCancel core x.tenant x.scope then (#v[x.args[0], 0, x.args[2], x.args[3]], 0, false)
  else (x.args, x.scope, true)
/-- A firing is the next to form on a core. -/
def NextLaunch (s : State) (core : Nat) (f : Firing) : Prop :=
  s.firings.find? (fun x => x.id == f.id) = some f ∧ f.next < f.total ∧
  s.scopeCancelled f.tenant f.record.scope = false ∧ s.nextPlacing core = some (.launch f.id)

end Sys2Proof.Claim

/-- R108, R109, R241, R244, R245, R248, R284, R366 to R368 and R371: a core's next bin forms a ply of its oldest 96 tasks, of units of
four the oldest 24, each in lanes 4q to 4q + 3 with a helper lane for a discarded task, or its tasks end with the fault of their
header; a firing's next gang forms with its numbers and arguments, one gang and one window for all its members, and %role from 0
up, so 0 for a ply that is no member of a core level's gang; its plies end where its scope is cancelled; a saved ply whose areas
hold what was saved is restored as it was; Clock marks only plies of a lower class. Model's choices in it: log 16, 65, 99. -/
def Obligations.Formations : Prop :=
  (∀ core b h s, NextBin s core b → PlainBin s core b → s.headerFor core b.tenant b.entry = .ok h → 5 ≤ h.regs →
    Answers (.plyFormation core) s fun t => t.ply = s.ply ∧ t.mem = s.mem ∧ ∃ p : Ply, t.plies = s.plies ++ [p] ∧
      p.uid = s.seq + 1 ∧ p.plyid = BitVec.ofNat 25 (core * 2 ^ 16 + (s.core core).formSeq.toNat) ∧ p.gangsize = 1 ∧
      p.role = 0 ∧ p.ssave = s.saveAreas.headD 0 ∧
      Born s p core b.tenant b.entry h (p.ssave + 0x2800) ((b.tasks.take 96).map fun x => (x.args, x.scope, true)) ∧
      (∀ x ∈ b.tasks.take 96, p.cls ≤ x.cls) ∧
      t.saveAreas = s.saveAreas.drop 1 ∧ (t.core core).formSeq = (s.core core).formSeq + 1) ∧
  (∀ core b us h s, NextBin s core b → QuadBin b us → (∀ u ∈ us, ∃ x ∈ u, (pixelLane s core x).2.2 = true) →
    s.headerFor core b.tenant b.entry = .ok h → 5 ≤ h.regs → Answers (.plyFormation core) s fun t =>
      t.mem = s.mem ∧ ∃ p : Ply, t.plies = s.plies ++ [p] ∧ p.paint = true ∧ p.gangsize = 1 ∧ p.role = 0 ∧
        Born s p core b.tenant b.entry h 0 ((us.take 24).flatten.map (pixelLane s core))) ∧
  (∀ core b w c y s, NextBin s core b → PlainBin s core b → s.headerFor core b.tenant b.entry = .error w → (∀ x ∈ b.tasks, x.scope = c) →
    (∀ x ∈ b.tasks, x.tenant = b.tenant) → ScopesDiffer s → s.scopeOf b.tenant c = some y → y.state = .opened →
    Answers (.plyFormation core) s fun t => t.ply = s.ply ∧ t.plies = s.plies ∧ t.mem = s.mem ∧
      t.scopeOf b.tenant c = some { y with
        state := .faulted, cause := w, tcancel := s.ptime, live := y.live - (b.tasks.take 96).length
        ended := y.ended + (b.tasks.take 96).length }) ∧
  (∀ core f h charges base s, NextLaunch s core f → s.headerFor core f.tenant f.record.entry = .ok h → 5 ≤ h.regs →
    s.hosts core f.record.gang h f.record.demand.toNat f.record.heat.toNat = some (charges, base) → 0 < f.record.gang →
    f.record.lanes ≤ 96 → (∀ p ∈ s.ply :: s.plies, p.marked ≠ some f.id) → Answers (.gangFormation core f.id) s fun t =>
      t.ply = s.ply ∧ t.mem = s.mem ∧ ∃ ps : List Ply, t.plies = s.plies ++ ps ∧ ps.length = f.record.gang ∧
        ∀ (m : Nat) p, ps[m]? = some p → p.plyid = BitVec.ofNat 25 (f.next + m) ∧ p.gangsize.toNat = f.record.gang % 32 ∧
          p.cls = s.launchClass f ∧ p.deadline = s.effective f ∧ p.role = BitVec.ofNat 16 m ∧
          (∀ q ∈ ps, q.gang = p.gang ∧ q.windowBase = p.windowBase) ∧ p.ssave = (s.saveAreas.drop m).headD 0 ∧ Born s p core f.tenant f.record.entry h f.args
            (List.replicate f.record.lanes (f.record.arg, f.record.scope, true))) ∧
  (∀ core f s, s.firings.find? (fun x => x.id == f.id) = some f → f.next < f.total →
    s.scopeCancelled f.tenant f.record.scope = true → Answers (.gangFormation core f.id) s fun t => SameMemory s t ∧
      t.ply = s.ply ∧ t.plies = s.plies ∧ t.scopeOf f.tenant f.record.scope =
        (s.scopeOf f.tenant f.record.scope).map fun x =>
          let n := (f.total - f.next) * f.record.lanes
          { x with live := x.live - n, ended := x.ended + n }) ∧
  (∀ core (i : Nat) v pipe base charge s, s.nextPlacing core = some (.restore i) → s.saved[i]? = some v →
    s.restoreNeeds v core true = some (pipe, base, charge) → v.atWait = false →
    (∀ r ∈ v.image, s.readVirt v.ply.core v.ply.tenant (v.ply.ssave + BitVec.ofNat 64 r.1) r.2.length = .ok r.2) →
    Answers (.plyRestore core i) s fun t => t.ply = s.ply ∧ t.mem = s.mem ∧
      t.saved = s.saved.filter (fun x => x.ply.uid != v.ply.uid) ∧
      t.plies = s.plies ++ [{ v.ply with
        core := core, pipe := pipe, age := s.seq + 1, windowBase := base, charge := charge, stxOld := []
        path0 := { v.ply.path0 with since := s.now }, path1 := { v.ply.path1 with since := s.now } }]) ∧
  (∀ core id s, ((s.ply :: s.plies).map (·.uid)).Nodup → Answers (.clockMark core id) s fun t =>
    t = { s with ply := t.ply, plies := t.plies } ∧ SameMemory s t ∧
      let may (p : Ply) (q : Ply) : Prop := q = p ∨ q = { p with marked := some id } ∧ p.marked = none ∧ p.gangsize = 1 ∧
        p.core = core ∧ ∃ f ∈ s.firings, f.id = id ∧ s.launchClass f < p.cls
      may s.ply t.ply ∧ t.plies.length = s.plies.length ∧
        ∀ (i : Nat) p q, s.plies[i]? = some p → t.plies[i]? = some q → may p q)

namespace Sys2Proof.Claim

/-- A tenant's launch queue. -/
def queueOf (s : State) (tenant k : Nat) : Queue := (s.tenant tenant).queue k
/-- Only a tenant's queues, and the writes of the hub, changed. -/
def OnlyQueue (s t : State) (tenant k : Nat) : Prop :=
  SameMemory s t ∧ t.ply = s.ply ∧ t.plies = s.plies ∧ t.mem = s.mem ∧ ∀ n j, n ≠ tenant ∨ j ≠ k → queueOf t n j = queueOf s n j
/-- A queue fires (R360): enabled, not stopped, with no record forming and one to fire. -/
def MayFire (q : Queue) : Prop :=
  q.ctl.getLsbD 0 = true ∧ q.ctl.getLsbD 1 = false ∧ q.busy = none ∧ q.head ≠ q.tail
/-- The address of its next record (R359): 128 bytes each in a ring of 2^log2. -/
def recordAddress (q : Queue) : DWord := q.ring + BitVec.ofNat 64 (128 * (q.head.toNat % 2 ^ (q.log2.toNat % 16)))

end Sys2Proof.Claim

/-- R359 to R361, R364 and R368: a report takes the tail word and the queue deadline, and stops a queue that overruns its ring; a
ready queue's next record fires, its tasks counted in its scope, or is discarded, and the head moves on by one; a rewritten
descriptor takes its fields and the head from its tail line. Model's choices in it: log 72, 74, 76. -/
def Obligations.LaunchQueues : Prop :=
  (∀ tenant k b d s, let q := queueOf s tenant k
    s.readVirt noCore tenant q.tailAt 4 = .ok b → (q.qdead ≠ 0 → s.readVirt noCore tenant q.qdead 8 = .ok d) →
    let tail : Word := BitVec.ofNat 32 (leNat b)
    (tail - q.head).toNat ≤ 2 ^ (q.log2.toNat % 16) ∨ q.ctl.getLsbD 1 = true →
    Answers (.tailWriteReport tenant k) s fun t => OnlyQueue s t tenant k ∧
      t.reports = s.reports.filter (fun x => x != (tenant, k)) ∧
      queueOf t tenant k = { q with tail := tail, deadline := if q.qdead = 0 then 0 else BitVec.ofNat 64 (leNat d) }) ∧
  (∀ tenant k b s, let q := queueOf s tenant k
    s.readVirt noCore tenant q.tailAt 4 = .ok b → 2 ^ (q.log2.toNat % 16) < (BitVec.ofNat 32 (leNat b) - q.head).toNat →
    q.ctl.getLsbD 1 = false → Answers (.tailWriteReport tenant k) s fun t =>
      SameMemory s t ∧ (queueOf t tenant k).ctl.getLsbD 1 = true ∧ (queueOf t tenant k).head = q.head ∧
      (queueOf t tenant k).tail = BitVec.ofNat 32 (leNat b)) ∧
  (∀ tenant k b s, let q := queueOf s tenant k
    MayFire q → s.readVirt noCore tenant (recordAddress q) 128 = .ok b →
    (∀ r, Record.parse b = .ok r → s.scopeTakes tenant r.scope = true → Answers (.launchFire tenant k) s fun t =>
      OnlyQueue s t tenant k ∧ (∃ f : Firing, t.firings = s.firings ++ [f] ∧ f.tenant = tenant ∧ f.record = r ∧
        f.cls = q.cls.toNat % 4 ∧ f.queue = some k ∧ f.next = 0 ∧ f.total = r.plies ∧ f.running = 0 ∧ f.args = r.args ∧
        queueOf t tenant k = { q with head := q.head + 1, busy := some f.id }) ∧
      t.scopeOf tenant r.scope = (s.scopeOf tenant r.scope).map fun x => { x with live := x.live + r.lanes * r.plies }) ∧
    ((∃ d, Record.parse b = .error d) ∨ (∃ r, Record.parse b = .ok r ∧ s.scopeTakes tenant r.scope = false) →
      Answers (.launchFire tenant k) s fun t => OnlyQueue s t tenant k ∧ t.firings = s.firings ∧ t.scopes = s.scopes ∧
        queueOf t tenant k = { q with head := q.head + 1 })) ∧
  (∀ tenant k bytes b s, bytes.length = 64 → s.readVirt noCore tenant (BitVec.ofNat 64 (num bytes 8 8) + 4) 4 = .ok b →
    Answers (.queueDescriptorWrite tenant k bytes) s fun t => OnlyQueue s t tenant k ∧
      queueOf t tenant k = { queueOf s tenant k with
        ring := BitVec.ofNat 64 (num bytes 0 8), tailAt := BitVec.ofNat 64 (num bytes 8 8)
        qdead := BitVec.ofNat 64 (num bytes 16 8), log2 := BitVec.ofNat 8 (num bytes 24 1), cls := BitVec.ofNat 8 (num bytes 25 1)
        ctl := BitVec.ofNat 8 (num bytes 26 1 % 2), head := BitVec.ofNat 32 (leNat b), tail := BitVec.ofNat 32 (leNat b) })

namespace Sys2Proof.Claim

/-! ## The package (R321, R322, R350, R373 to R389) -/

/-- Bits [hi:lo] of a word. -/
def bitsOf (w : Word) (hi lo : Nat) : Nat := w.toNat / 2 ^ lo % 2 ^ (hi + 1 - lo)
/-- The request of a management ply at supervisor privilege (R383, R384). -/
def Manages (s : State) : Prop := s.ply.management = true ∧ s.ply.supervisor = true
/-- An instruction that only a management ply at supervisor privilege issues, with the request that it makes. -/
def ManagementOnly (i : Instr) (s : State) (k : HubKind) : Prop :=
  (Manages s → Answers i s fun t => AsksHub s t k) ∧
  (s.ply.supervisor = false → Answers i s fun t => TrapsWithWord s t 0x02 1)
/-- The eight SMC instructions. -/
noncomputable def smcs : List (BitVec 6 → BitVec 6 → Instr) :=
  [.smcAssignCluster, .smcReleaseCluster, .smcResetPartition, .smcSetRoot, .smcSetRegulator, .smcSetScopeShare, .smcAttest,
    .smcRetireUnit]
/-- The tower of a PWRQ's word, 4 where a reserved bit is set, and whether it gates (R384). -/
def towerOf (w : Word) : Nat := if (w.toNat / 4 % 64 = 0 ∧ w.toNat / 2 ^ 9 = 0) then w.toNat % 4 else 4

/-- An SMC of the ply in hand whose block, 64 bytes at an address, holds a code and operands, is answered st (R383). -/
def SmcAnswers (s : State) (code : Nat) (rest : List Byte) (st : Nat) (p : State → Prop) : Prop :=
  ∀ d a h b, Asked s h → h.kind = .smc d a → s.readVirt noCore s.ply.tenant a 64 = .ok b → b = leBytes 4 code ++ rest →
    Answers (.longLatencyResult s.ply.uid h.seq) s fun t => AnswersHub s t h ∧ (∀ r, t.S r = s.afterWrite d (BitVec.ofNat 32 st) r) ∧ p t
/-- A PWRQ of the ply in hand reaches the power control. -/
def PowerAsked (s : State) (h : HubOp) (d : BitVec 6) (gate : Bool) (tower : Nat) : Prop :=
  Asked s h ∧ h.kind = .pwrq d gate tower false
/-- The upper die of a tower. -/
def upper (tower : Nat) : Nat := 2 * tower + 1
/-- What a partition reset ends and empties (R375): every task and operation of the tenant, its scopes, the store, engines, leaves
and FIFOs of its cores, its roots, its windows of FADDD elements, its leases and translations, its images, armed launches and
shapes; its queues are stopped; management plies stay. -/
def PartReset (s t : State) (n : Nat) : Prop :=
  (∀ p ∈ t.ply :: t.plies ++ t.saved.map (·.ply), p.tenant = n → p.management = true) ∧
  (∀ x ∈ t.scopes, x.tenant ≠ n) ∧ (∀ x ∈ t.transit, x.task.tenant ≠ n) ∧ (∀ x ∈ t.pieces, x.tenant ≠ n) ∧
  (∀ x ∈ t.firings, x.tenant ≠ n) ∧ (∀ x ∈ t.fabric, x.tenant ≠ n) ∧ (∀ x ∈ t.counted, x.tenant ≠ n) ∧
  (∀ k ∈ s.partCores n, let c := t.core k
    c.bins = [] ∧ c.overflow = [] ∧ c.mtxq = [] ∧ c.copyq = [] ∧ c.pathq = [] ∧ c.entries = [] ∧ c.commits = [] ∧ c.leaves = [] ∧
    c.windows = [] ∧ c.xgen = (s.core k).xgen + 1 ∧ c.wgen = (s.core k).wgen + 1 ∧
    (t.fifo (vaultOf k)).up = [] ∧ (t.fifo (vaultOf k)).down = []) ∧
  (∀ c ∈ s.partClusters n, (t.cluster c).roots = [] ∧ ∀ e ∈ t.l2Leases, e.unit ≠ c) ∧
  (∀ v, ∀ e ∈ (t.vault v).elements, e.tenant ≠ n) ∧ (∀ e ∈ t.tlb, e.tenant ≠ n) ∧ (∀ x ∈ t.reports, x.1 ≠ n) ∧
  (t.tenant n).armed = [] ∧ (t.tenant n).shapes = [] ∧ (t.tenant n).images = [] ∧
  (∀ k, k < 64 → queueOf t n k = { queueOf s n k with ctl := (queueOf s n k).ctl ||| 2, busy := none }) ∧
  (∀ k, k ∉ s.partCores n → (t.core k).bins = (s.core k).bins ∧ (t.core k).leaves = (s.core k).leaves ∧
    (t.core k).mtxq = (s.core k).mtxq) ∧
  ∀ k, k ≠ n → t.tenant k = s.tenant k
/-- The record of a live scope that a partition reset ends (R375). -/
def endedByReset (s : State) (c : Scope) : Scope :=
  { c with
    state := .faulted, cause := 0x23, live := 0, ended := c.ended + c.live
    tcancel := if c.state = .opened then s.ptime else c.tcancel }
/-- No resident ply of a die but management plies. -/
def DieEmpty (s : State) (die : Nat) : Prop := ∀ p ∈ s.all, p.management = true ∨ dieOf p.core ≠ die

end Sys2Proof.Claim

/-- R350, R375, R379, R383, R384 and R388: SMC and PWRQ ask the hub from a management ply at supervisor privilege and take PRIV otherwise; an
SMC's code assigns, releases, resets a partition, sets a table root, a scope share, a regulator, attests, or retires, with its
status; a reset ends all work of the partition, writes its live scopes FAULTED with cause 0x23 and one fault record; a gate request
is held until its die is empty, then answered, and a power request until its die is powered, where a second one finds it so;
TLBINV waits at supervisor privilege and its drop removes the translation. Model's choices in it: log 77, 78, 79. -/
def Obligations.ManagementRequests : Prop :=
  (∀ f ∈ smcs, ∀ d a s, ManagementOnly (f d a) s (.smc d (s.S64 a))) ∧
  (∀ d a s, ManagementOnly (.pwrqGate d a) s (.pwrq d ((s.S a).getLsbD 8) (towerOf (s.S a)) false) ∧
    ManagementOnly (.pwrqPower d a) s (.pwrq d ((s.S a).getLsbD 8) (towerOf (s.S a)) false)) ∧
  (∀ (part c : Nat) rest s, rest.length = 52 → part < 16 → c < 64 → (s.cluster c).part = none → s.clusterBusy c = false →
    s.otherReg (BitVec.ofNat 4 part) c (s.cluster c).chosenReg = false →
    SmcAnswers s 1 (leBytes 4 part ++ leBytes 4 c ++ rest) 0 fun t => (t.cluster c).part = some (BitVec.ofNat 4 part) ∧
      (∀ k, k ≠ c → t.cluster k = s.cluster k) ∧ (∀ e ∈ t.l2Leases, e.unit ≠ c)) ∧
  (∀ (part c : Nat) rest s, rest.length = 52 → part < 16 → c < 64 → (s.cluster c).part ≠ some (BitVec.ofNat 4 part) →
    s.clusterBusy c = true → SmcAnswers s 1 (leBytes 4 part ++ leBytes 4 c ++ rest) 2 fun t => t.clusters = s.clusters) ∧
  (∀ (c : Nat) rest s, rest.length = 56 → c < 64 → s.clusterBusy c = false →
    SmcAnswers s 2 (leBytes 4 c ++ rest) 0 fun t => (t.cluster c).part = none ∧ ∀ k, k ≠ c → t.cluster k = s.cluster k) ∧
  (∀ (n root : Nat) rest s, rest.length = 48 → n < 16 → root < 2 ^ 52 → root % 2 ^ 14 = 0 →
    SmcAnswers s 4 (leBytes 4 n ++ leBytes 8 root ++ rest) 0 fun t =>
      t.tenant n = { s.tenant n with ptroot := BitVec.ofNat 64 root } ∧ ∀ k, k ≠ n → t.tenant k = s.tenant k) ∧
  (∀ (c r : Nat) rest s, rest.length = 52 → c < 64 → r < 4 → (s.cluster c).part = none →
    SmcAnswers s 5 (leBytes 4 c ++ leBytes 4 r ++ rest) 0 fun t => t.cluster c = { s.cluster c with
      volt := (t.cluster c).volt
      pendingReg := if (s.cluster c).regulator = BitVec.ofNat 2 r then none else some (BitVec.ofNat 2 r) }) ∧
  (∀ (n x : Nat) rest s, rest.length = 52 → n < 16 → x < 2 ^ 32 →
    let others := ((List.range 16).filter fun k => k != n).foldl (fun m k => m + (s.tenant k).share) 0
    (others + x ≤ 65536 → SmcAnswers s 6 (leBytes 4 n ++ leBytes 4 x ++ rest) 0 fun t =>
      t.tenant n = { s.tenant n with share := x }) ∧
    (65536 < others + x → SmcAnswers s 6 (leBytes 4 n ++ leBytes 4 x ++ rest) 3 fun t => t.tenants = s.tenants)) ∧
  (∀ (k : Nat) rest s, rest.length = 52 → k < 512 → s.onCore k = [] →
    SmcAnswers s 8 (leBytes 4 0 ++ leBytes 4 k ++ rest) 0 fun t => (t.core k).retired = true ∧ t.firmware.replace = true) ∧
  (∀ rest code s, rest.length = 60 → code < 2 ^ 32 → code = 0 ∨ 8 < code → SmcAnswers s code rest 1 fun t =>
    t.clusters = s.clusters ∧ t.tenants = s.tenants ∧ t.cores = s.cores) ∧
  (∀ (n : Nat) rest d a h s, rest.length = 56 → n < 16 → Asked s h → h.kind = .smc d a → s.ply.management = true →
    s.readVirt noCore s.ply.tenant a 64 = .ok (leBytes 4 3 ++ leBytes 4 n ++ rest) → ScopesDiffer s →
    Answers (.longLatencyResult s.ply.uid h.seq) s fun t => SameMemory s t ∧ PartReset s t n ∧
      (∀ r, t.S r = s.afterWrite d 0 r) ∧ t.ply.hubq = s.ply.hubq.filter (fun x => x.seq != h.seq) ∧
      (∀ c ∈ s.scopes, c.tenant = n → c.state ≠ .closed → c.state ≠ .quiesced →
        (n, c.id, stateWord c.id c.sealed' 5) ∈ t.released ∧
        ∀ pa, canonical c.address → c.address.toNat % 64 = 0 → s.translate n .write c.address = .ok pa →
          ∃ q ∈ t.stores, s.seq < q.seq ∧ q.pa = pa ∧ q.data = (recordOf (endedByReset s c)).take 32) ∧
      ∀ tail head cell slot, (∀ c ∈ s.scopes, c.tenant ≠ n) → (∀ e ∈ s.tlb, e.tenant ≠ n) → RingRoom s n tail head cell slot →
        ∃ new, t.stores = s.stores ++ new ∧ new.map (fun q => (q.pa, q.data)) =
          [(slot, leBytes 8 s.ptime.toNat ++ leBytes 4 0x23 ++ leBytes 4 0 ++ leBytes 4 (2 ^ 32 - 1) ++ zeros 40 ++
            leBytes 4 (s.tenant n).dropped.toNat), (cell, leBytes 4 (tail + 1).toNat)]) ∧
  (∀ (at' : DWord) nonce rest (pa : Nat) s, rest.length = 20 → nonce.length = 32 → canonical at' → at'.toNat % 65536 + 280 ≤ 65536 →
    s.translate s.ply.tenant .write at' = .ok pa → s.firmware.digest.length = 64 →
    SmcAnswers s 7 (leBytes 8 at'.toNat ++ nonce ++ rest) 0 fun t => ∃ version key : List Byte, ∃ signature : List Byte,
      version.length = 4 ∧ key.length = 32 ∧ signature.length = 64 ∧
      let report := leBytes 4 1 ++ version ++ key ++ nonce ++ s.firmware.digest ++ sha512 s.configTable ++ leBytes 8 s.ptime.toNat ++
        leBytes 4 (if s.firmware.replace = true then 1 else 0) ++ zeros 4 ++ signature
      ∀ i, i < report.length → i < 280 → ∃ q ∈ t.stores, s.seq < q.seq ∧ q.pa ≤ pa + i ∧ q.data[pa + i - q.pa]? = report[i]?) ∧
  (∀ h d tower s, PowerAsked s h d true tower → tower < 4 → s.die (upper tower) = .powered →
    (∀ p ∈ s.all, p.management = true ∨ dieOf p.core ≠ upper tower ∨ p.gangsize.toNat < 2) →
    Answers (.longLatencyResult s.ply.uid h.seq) s fun t => SameMemory s t ∧
      t.die (upper tower) = .gating s.ply.uid h.seq ∧ (∀ r, t.S r = s.S r) ∧ ∀ k, k ≠ upper tower → t.die k = s.die k) ∧
  (∀ h d tower s, PowerAsked s h d false tower → tower < 4 → s.die (upper tower) = .powered →
    Answers (.longLatencyResult s.ply.uid h.seq) s fun t => AnswersHub s t h ∧ (∀ r, t.S r = s.afterWrite d 2 r) ∧ t.dies = s.dies) ∧
  (∀ d tower seq slot gate s, Named s → s.die (upper tower) = .gating s.ply.uid seq → DieEmpty s (upper tower) →
    s.ply.hubq.find? (fun x => x.seq == seq) = some ⟨seq, slot, .pwrq d gate tower true⟩ → slot = s.ply.slot →
    Answers (.dieGated tower) s fun t => AnswersHub s t ⟨seq, slot, .pwrq d gate tower true⟩ ∧
      t.die (upper tower) = .gated ∧ ∀ r, t.S r = s.afterWrite d 0 r) ∧
  (∀ d tower seq slot s, Named s → s.die (upper tower) = .gated → s.powerRequests tower = [(s.ply.uid, seq)] →
    (∀ v ∈ s.saved, v.gated = false) → s.ply.hubq.find? (fun x => x.seq == seq) = some ⟨seq, slot, .pwrq d false tower true⟩ →
    slot = s.ply.slot → Answers (.powerReturn tower) s fun t => AnswersHub s t ⟨seq, slot, .pwrq d false tower true⟩ ∧
      t.die (upper tower) = .powered ∧ ∀ r, t.S r = s.afterWrite d 0 r) ∧
  (∀ d₁ d₂ tower seq₁ seq₂ slot s, Named s → s.die (upper tower) = .gated → (∀ v ∈ s.saved, v.gated = false) →
    s.powerRequests tower = [(s.ply.uid, seq₁), (s.ply.uid, seq₂)] →
    s.ply.hubq = [⟨seq₁, slot, .pwrq d₁ false tower true⟩, ⟨seq₂, slot, .pwrq d₂ false tower true⟩] → seq₁ ≠ seq₂ →
    slot = s.ply.slot → d₁.toNat < 60 → d₂.toNat < 60 → d₁ ≠ d₂ → d₁ ≠ 0 → d₂ ≠ 0 → Answers (.powerReturn tower) s fun t =>
      SameMemory s t ∧ t.die (upper tower) = .powered ∧ t.ply.hubq = [] ∧ t.S d₁ = 0 ∧ t.S d₂ = 2) ∧
  (∀ p s, (s.ply.supervisor = true → canonical (s.S64 p) → Answers (.tlbinv p) s fun t => Waits s t (.tlbinv false (s.S64 p))) ∧
    (s.ply.supervisor = true → Answers .tlbinvAll s fun t => Waits s t (.tlbinv true 0)) ∧
    (s.ply.supervisor = false → (Answers (.tlbinv p) s fun t => TrapsWithWord s t 0x02 0) ∧
      Answers .tlbinvAll s fun t => TrapsWithWord s t 0x02 0)) ∧
  (∀ all va s, s.ply.uid ≠ 0 → s.path.wait = .tlbinv all va → (∀ e ∈ s.ply.lsq, e.kind.isStore = false) →
    s.ply.cgw ≤ s.now → s.ply.pgw.toNat ≤ s.now → (∀ q ∈ s.stores, q.uid ≠ s.ply.uid) →
    Answers (.tlbinvDropComplete s.ply.uid) s fun t => SameMemory s t ∧ Resumes s t s.ply ∧
      (∀ e, e ∈ t.tlb ↔ e ∈ s.tlb ∧ (e.tenant ≠ s.ply.tenant ∨ all = false ∧ va.toNat / pageSize e.level ≠ e.page)) ∧
      ∀ x ∈ t.headers, s.inPart s.ply.tenant x.1 = false)

namespace Sys2Proof.Claim

/-- A store of a word into the configuration space at an offset (R381). -/
def Configures (off : Nat) (w : Word) (s : State) (p : State → Prop) : Prop :=
  off % 4 = 0 → Answers (.configurationWrite off (.store (leBytes 4 w.toNat))) s fun t => SameMemory s t ∧ t.ply = s.ply ∧ p t
/-- A load of bytes from the configuration space gives b, and changes nothing (R381). -/
def ReadsBack (off : Nat) (b : List Byte) (s : State) : Prop :=
  Answers (.configurationWrite off (.load b.length)) s fun t =>
    t = { s with outgoing := s.outgoing ++ [⟨0, 0, 4, BitVec.ofNat 64 off, b⟩] }
/-- The fastest step of the clusters on a regulator, now or once the waiting changes are made; 5 where there is none (R319). -/
def fastest (s : State) (reg : BitVec 2) (next : Bool) : Nat :=
  let on := ((List.range 64).map s.cluster).filter fun c => (if next then c.pendingReg.getD c.regulator else c.regulator) = reg
  (on.map fun c => if next then (c.pending.getD c.running).toNat else c.running.toNat).foldl min 5
/-- The clusters but one are as before, but that a voltage which moves waits for every cluster on its regulator (R319, R320). -/
def VoltageWaits (s t : State) (c : Nat) : Prop :=
  (∀ k, k ≠ c → t.cluster k = { s.cluster k with volt := (t.cluster k).volt }) ∧
  ∀ k, k < 64 → ((t.cluster k).volt = true ↔ (s.cluster k).volt = true ∨
    ∃ r, (r = (t.cluster k).regulator ∨ r = (t.cluster k).pendingReg.getD (t.cluster k).regulator) ∧
      fastest t r false ≠ fastest t r true)
/-- A field of ccr that a value above 4 leaves unchanged (R322). -/
def keepAbove4 (old new : BitVec 3) : BitVec 3 := if new.toNat ≤ 4 then new else old
/-- One half of a 64-bit field is replaced. -/
def halfSet (x : DWord) (high : Bool) (w : Word) : DWord :=
  if high then BitVec.ofNat 64 (w.toNat * 2 ^ 32 + x.toNat % 2 ^ 32) else BitVec.ofNat 64 (x.toNat / 2 ^ 32 * 2 ^ 32 + w.toNat)

end Sys2Proof.Claim

/-- R319 to R322, R374, R381, R386, R387 and R389: a write of ccr takes its fields and asks for its step; a write of %partition
moves a cluster that is not busy; %regsel asks for a regulator; a voltage that moves waits for every cluster on its regulator; a
unit whose counters reach their threshold retires; the configuration space takes its fields, gives them back, with the occupancies
and counters, and has holes; power-on leaves the machine at reset with the firmware of the first good
slot, else in recovery. Model's choices in it: log 10, 80, 81. -/
def Obligations.PackageControl : Prop :=
  (∀ c (w : Word) s, Answers (.ccrWrite c w) s fun t => SameMemory s t ∧ t = { s with clusters := t.clusters } ∧
    VoltageWaits s t c ∧ (let x := s.cluster c
    t.cluster c = { x with
      knight := w.getLsbD 31, l2lease := w.extractLsb' 0 16, pending := (t.cluster c).pending, volt := (t.cluster c).volt
      sw := keepAbove4 x.sw (w.extractLsb' 24 3)
      step := keepAbove4 x.step (w.extractLsb' 16 3) } ∧
    (x.slackStep = 0 → bitsOf w 18 16 ≤ 4 → (∀ k ∈ coresOf c, (s.vault (vaultOf k)).rstep ≠ 3) →
      (t.cluster c).pending = if w.extractLsb' 16 3 = x.running then none else some (w.extractLsb' 16 3)))) ∧
  (∀ (w : Word) s, let c := bitsOf w 5 0
    let part : BitVec 4 := w.extractLsb' 28 4
    Answers (.partitionWrite w) s fun t => SameMemory s t ∧ t.selPart = part ∧ t.selCluster.toNat = c ∧
      (∀ k, k ≠ c → t.cluster k = s.cluster k) ∧
      (w.getLsbD 6 = true → s.clusterBusy c = false → s.otherReg part c (s.cluster c).chosenReg = false →
        (t.cluster c).part = some part) ∧
      (w.getLsbD 6 = false → s.clusterBusy c = false → (s.cluster c).part = some part → (t.cluster c).part = none) ∧
      (s.clusterBusy c = true → t.cluster c = s.cluster c)) ∧
  (∀ (w : Word) s, let c := bitsOf w 7 2
    Answers (.regselWrite w) s fun t => SameMemory s t ∧ t.selReg.toNat = c ∧ (∀ k, k ≠ c → t.cluster k = { s.cluster k with volt := (t.cluster k).volt }) ∧
      ((s.cluster c).part = none → VoltageWaits s t c ∧ t.cluster c = { s.cluster c with
        volt := (t.cluster c).volt
        pendingReg := if (s.cluster c).regulator = w.extractLsb' 0 2 then none else some (w.extractLsb' 0 2) })) ∧
  (∀ k s, k < 512 → s.onCore k = [] → 4 ≤ (s.core k).errors → Answers (.unitRetirement 0 k) s fun t => SameMemory s t ∧
    (t.core k).retired = true ∧ t.firmware.replace = true) ∧
  (∀ v s, v < 256 → s.onCore (lowerCore v) = [] → s.onCore (upperCore v) = [] → 16 ≤ (s.vault v).failGranules →
    Answers (.unitRetirement 2 v) s fun t => (t.vault v).retired = true ∧ (t.core (lowerCore v)).retired = true ∧
      (t.core (upperCore v)).retired = true) ∧
  (∀ n (w : Word) s, n < 16 → Configures (0x4000 * n + 0x1008) w s fun t => t.tenant n = { s.tenant n with qdl := w }) ∧
  (∀ n high (w : Word) s, n < 16 → Configures (0x4000 * n + 0x1010 + (if high = true then 4 else 0)) w s fun t =>
    t.tenant n = { s.tenant n with ringBase := halfSet (s.tenant n).ringBase high w }) ∧
  (∀ k (w : Word) s, k < 512 → Configures (0x200000 + 0x100 * k) w s fun t =>
    t.core k = { s.core k with binto := w.extractLsb' 0 20 }) ∧
  (∀ k (w : Word) s, k < 512 → (s.core k).overflow = [] → Configures (0x200000 + 0x100 * k + 0x10) w s fun t =>
    t.core k = { s.core k with taskCap := w }) ∧
  (∀ c (w : Word) s, c < 64 → Configures (0x100000 + 0x100 * c + 4) w s fun t =>
    t.cluster c = { s.cluster c with lease := w.extractLsb' 0 16 }) ∧
  (∀ n k c v s, n < 16 → k < 512 → c < 64 → v < 256 → let x := s.tenant n
    ReadsBack (0x4000 * n + 0x1000) (leBytes 8 x.trapVec.toNat) s ∧ ReadsBack (0x4000 * n + 0x1008) (leBytes 4 x.qdl.toNat) s ∧
    ReadsBack (0x4000 * n + 0x1010) (leBytes 8 x.ringBase.toNat) s ∧ ReadsBack (0x4000 * n + 0x1018) (leBytes 8 x.ringTail.toNat) s ∧
    ReadsBack (0x100000 + 0x100 * c + 4) (leBytes 4 (s.cluster c).lease.toNat) s ∧
    ReadsBack (0x200000 + 0x100 * k) (leBytes 4 (s.core k).binto.toNat) s ∧
    ReadsBack (0x200000 + 0x100 * k + 0x10) (leBytes 4 (s.core k).taskCap.toNat) s ∧
    ReadsBack (0x200000 + 0x100 * k + 0x14) (leBytes 4 (s.core k).overflow.length) s ∧
    (∀ f g w, (s.vault v).counts.find? (fun e => e.1 == n) = some (n, f, g, w) →
      ReadsBack (0x300000 + 0x200 * v + 0x40 + 24 * n) (leBytes 8 f.toNat) s ∧
      ReadsBack (0x300000 + 0x200 * v + 0x40 + 24 * n + 8) (leBytes 8 g.toNat) s ∧
      ReadsBack (0x300000 + 0x200 * v + 0x40 + 24 * n + 16) (leBytes 8 w.toNat) s) ∧
    ∀ q : Nat, q < 64 → ReadsBack (0x4000 * n + 64 * q + 32) (leBytes 8 (queueOf s n q).missed.toNat) s) ∧
  (∀ off (w : Word) m s, 0x400000 ≤ off →
    exec (.configurationWrite off (.store (leBytes 4 w.toNat))) s = .fault (.configurationHole off) ∧
    exec (.configurationWrite off (.load m)) s = .fault (.configurationHole off)) ∧
  (∀ a b rollback s, Answers (.packagePowerOn a b rollback) s fun t =>
    let good (i : Option BootImage) : Prop := ∃ x, i = some x ∧ x.signatureOk = true ∧ rollback ≤ x.version
    t = { State.reset with firmware := t.firmware, agenda := s.agenda, tick := s.tick } ∧ t.firmware.rollback = rollback ∧
    (∀ x, a = some x → good a → t.firmware.running = true ∧ t.firmware.digest = x.digest ∧ t.firmware.version = x.version) ∧
    (∀ x, ¬good a → b = some x → good b →
      t.firmware.running = true ∧ t.firmware.digest = x.digest ∧ t.firmware.version = x.version) ∧
    (¬good a → ¬good b → t.firmware.recovery = true ∧ t.firmware.running = false)) ∧
  (∀ (x : BootImage) s, Answers (.recoveryImage x) s fun t => SameMemory s t ∧ t = { s with firmware := t.firmware } ∧
    (s.firmware.recovery = true → x.signatureOk = true → s.firmware.rollback ≤ x.version →
      t.firmware.running = true ∧ t.firmware.recovery = false ∧ t.firmware.digest = x.digest) ∧
    (s.firmware.recovery = false ∨ x.signatureOk = false → t.firmware = s.firmware))

namespace Sys2Proof.Claim

/-! ## The fabric (R394 to R409) -/

/-- Word k and pair k of the group at G (R397). -/
def gword (s : State) (g : BitVec 6) (k : Nat) : Word := s.S (g + BitVec.ofNat 6 k)
def gpair (s : State) (g : BitVec 6) (k : Nat) : DWord := gword s g (k + 1) ++ gword s g k
/-- A word names a target (R398): mode 2 only for RPUT and RGET. -/
def Targets (w : Word) (rudi : Bool) (dest : Target) : Prop :=
  w.toNat / 2 ^ 26 = 0 ∧ dest = ⟨w.toNat % 2 ^ 20, w.toNat / 2 ^ 20 % 16, w.toNat / 2 ^ 24 % 4⟩ ∧ dest.endpoint ≠ 0xFFFFF ∧
  (dest.mode < 2 ∨ dest.mode = 2 ∧ rudi = true)
/-- The length, offset and zero fields that RPUT and RGET share. -/
def Moves (s : State) (g : BitVec 6) : Prop :=
  (gword s g 1).toNat % 4 = 0 ∧ gword s g 1 ≠ 0 ∧ (gword s g 1).toNat ≤ 2 ^ 24 ∧ (gword s g 2).toNat < 256 ∧
  (gword s g 3).toNat % 4 = 0 ∧ gword s g 7 = 0
/-- The local range of n bytes at va (R181, R184): nothing, a part of the ply's XBUF window, or pages that translate. -/
def RangeAt (s : State) (acc : Access) (al n : Nat) (va : DWord) (r : LocalRange) : Prop :=
  r.address = va ∧ r.length = n ∧
  if n = 0 then r.loc = none ∧ r.pieces = []
  else if va.getLsbD 63 = true then
    va.toNat / 2 ^ 21 = 2 ^ 42 ∧ va.toNat % 2 ^ 21 % al = 0 ∧ va.toNat % 2 ^ 21 + n ≤ s.ply.windowSize ∧
    r.loc = some (s.ply.windowBase + va.toNat % 2 ^ 21) ∧ r.pieces = []
  else canonical va ∧ va.toNat % al = 0 ∧ r.loc = none ∧ s.range s.ply.tenant acc va n = .ok r.pieces
/-- The barrier of an RGET (R398): none, or a leaf of the ply's cluster. -/
def Credits (s : State) (w : Word) (c : Option (Nat × Nat)) : Prop :=
  if w.getLsbD 31 = true then
    ∃ core leaf, c = some (core, leaf) ∧ w.toNat = 2 ^ 31 + 32 * core + leaf ∧ leaf < 32 ∧ core < 1024 ∧ core / 8 = s.ply.core / 8
  else c = none

/-- An operation of a lane enters the fabric engine and is counted in class 2 (R398). -/
def QueuesFabric (s t : State) (lane : Nat) (k : FabricKind) : Prop :=
  t = { s with ply := t.ply, seq := s.seq + 1, counted := t.counted, fabric := t.fabric, tenants := t.tenants } ∧
  SameMemory s t ∧ UnitDone s t { s.ply with cnt := t.ply.cnt } ∧
  t.counted = s.counted ++ [⟨s.seq + 1, s.ply.uid, 2, false, none, [laneScope s lane], s.ply.tenant⟩] ∧
  t.fabric = s.fabric ++
    [⟨s.seq + 1, s.ply.uid, s.ply.tenant, s.ply.core, lane, laneScope s lane, s.now, false, k, none, 0, [], 0⟩] ∧
  ∀ c, c < 4 → counter t.ply c = if c = 2 then (counter s.ply 2 + 1) % 2 ^ 16 else counter s.ply c
/-- A unit stops at issue with ENGINE of a sub-code and lane 127. -/
def StopsEngine (i : Instr) (s : State) (sub : Nat) : Prop :=
  s.ply.supervisor = false → Answers i s fun t => ∃ ea, TakesTrap s t s.issue.first s.ply.pos 0x0E sub 0 ea 127
/-- COLL's four kinds. -/
noncomputable def colls : List (BitVec 6 → Instr) := [.collAllReduce, .collAllGather, .collReduceScatter, .collBroadcast]

end Sys2Proof.Claim

/-- R397, R398, R403 and R407: MSEND, RPUT and RGET queue one operation of the lowest storing lane where target, fields, local
range and barrier pass, do nothing without such a lane, and stop with ENGINE 26 or 11 or the range's cause otherwise; MARM and
MDISARM ask the hub; COLL needs the whole path active and takes the next instance of its communicator. Model's choices in it:
log 83. -/
def Obligations.FabricIssue : Prop :=
  (∀ f ∈ ([.msend, .rput, .rget] : List (BitVec 6 → Instr)), ∀ g s, storingLanes s = [] →
    Answers (f g) s fun t => OnlyPly s t ∧ UnitDone s t s.ply) ∧
  (∀ g l ls dest r s, storingLanes s = l :: ls → Targets (gword s g 0) false dest → (gword s g 1).toNat ≤ 4032 → gword s g 6 = 0 →
    gword s g 7 = 0 → RangeAt s .read 1 (gword s g 1).toNat (gpair s g 4) r →
    Answers (.msend g) s fun t => QueuesFabric s t l (.msend dest (gpair s g 2) r) ∧ t.tenants = s.tenants) ∧
  (∀ g l ls dest r s, storingLanes s = l :: ls → Targets (gword s g 0) true dest → Moves s g → gword s g 6 = 0 →
    RangeAt s .read 4 (gword s g 1).toNat (gpair s g 4) r → Answers (.rput g) s fun t =>
      QueuesFabric s t l (.rput dest (gword s g 2).toNat (gword s g 3).toNat r) ∧ t.tenants = s.tenants) ∧
  (∀ g l ls dest r c s, storingLanes s = l :: ls → Targets (gword s g 0) true dest → Moves s g → Credits s (gword s g 6) c →
    RangeAt s .write 4 (gword s g 1).toNat (gpair s g 4) r → Answers (.rget g) s fun t =>
      QueuesFabric s t l (.rget dest (gword s g 2).toNat (gword s g 3).toNat r c) ∧ t.tenants = s.tenants) ∧
  (∀ g l ls s, storingLanes s = l :: ls →
    ((∀ dest, ¬Targets (gword s g 0) false dest) ∨ gword s g 6 ≠ 0 ∨ gword s g 7 ≠ 0 ∨ 4032 < (gword s g 1).toNat →
      StopsEngine (.msend g) s 26) ∧
    ((∀ dest, ¬Targets (gword s g 0) true dest) ∨ gword s g 6 ≠ 0 ∨ gword s g 7 ≠ 0 → StopsEngine (.rput g) s 26) ∧
    ((∀ dest, ¬Targets (gword s g 0) true dest) ∨ gword s g 7 ≠ 0 → StopsEngine (.rget g) s 26)) ∧
  (∀ g l ls dest s, storingLanes s = l :: ls → Targets (gword s g 0) true dest → Moves s g → gword s g 6 = 0 →
    canonical (gpair s g 4) → (gpair s g 4).toNat % 4 ≠ 0 → s.ply.supervisor = false →
    (Answers (.rput g) s fun t => TakesTrap s t s.issue.first s.ply.pos 0x08 0 0 (gpair s g 4) 127) ∧
    (Answers (.rget g) s fun t => TakesTrap s t s.issue.first s.ply.pos 0x08 0 0 (gpair s g 4) 127)) ∧
  (∀ g l ls dest r s, storingLanes s = l :: ls → Targets (gword s g 0) true dest → Moves s g → (∀ c, ¬Credits s (gword s g 6) c) →
    RangeAt s .write 4 (gword s g 1).toNat (gpair s g 4) r → StopsEngine (.rget g) s 11) ∧
  (∀ g d s, Answers (.marm g d) s fun t => AsksHub s t (.marm d ((List.range 8).map (gword s g)))) ∧
  (∀ x d s, Answers (.mdisarm x d) s fun t => AsksHub s t (.mdisarm d (s.S64 x))) ∧
  (∀ f ∈ colls, ∀ g s,
    (s.path.member ≠ Mask.full ∨ s.active ≠ Mask.full → s.ply.supervisor = false →
      Answers (f g) s fun t => TrapsWithWord s t 0x05 0) ∧
    (∀ c, s.path.member = Mask.full → s.active = Mask.full → s.collCheck g = .error c → s.ply.supervisor = false →
      Answers (f g) s fun t => ∃ ea, (c.given = true → ea = c.addr) ∧
        TakesTrap s t s.issue.first s.ply.pos c.code c.sub c.detail ea c.lane) ∧
    (∀ l ls kind op comm root src dst fmt units i, s.path.member = Mask.full → s.active = Mask.full →
      storingLanes s = l :: ls → s.collCheck g = .ok (.coll kind op comm root src dst fmt units i) →
      Answers (f g) s fun t => QueuesFabric s t l (.coll kind op comm root src dst fmt units i) ∧
        kind = (gword s g 0).toNat % 4 ∧ op = (gword s g 0).toNat / 4 ∧ op ≤ 2 ∧ comm = (gword s g 1).toNat ∧
        i = tget 0 comm (s.tenant s.ply.tenant).issued ∧
        (∀ k, tget 0 k (t.tenant s.ply.tenant).issued = if k = comm then i + 1 else tget 0 k (s.tenant s.ply.tenant).issued) ∧
        ∀ k, k ≠ s.ply.tenant → t.tenant k = s.tenant k))

namespace Sys2Proof.Claim

/-- The operation with a number is o, of the ply in hand. -/
def OwnFabric (s : State) (seq : Nat) (o : FabricOp) : Prop :=
  s.ply.uid ≠ 0 ∧ o.uid = s.ply.uid ∧ o.seq = seq ∧ s.fabric.find? (fun x => x.seq == seq) = some o
/-- Operation o has failed for a reason (R401): every record of its count is complete with that failure. -/
def Failed (t : State) (o : FabricOp) (reason : Nat) : Prop :=
  ∀ c ∈ t.counted, c.seq = o.seq → c.complete = true ∧ c.failure = some ⟨2, BitVec.ofNat 16 (reason * 256 + 0x0E), o.kind.address⟩
/-- Operation o is complete. -/
def Completed (t : State) (o : FabricOp) : Prop := ∀ c ∈ t.counted, c.seq = o.seq → c.complete = true
/-- o is the first operation of the device that waits for an answer. -/
def FirstWaiting (s : State) (o : FabricOp) : Prop :=
  o.uid ≠ 0 ∧ o.answer = none ∧ ∃ l1 l2, s.fabric = l1 ++ o :: l2 ∧ ∀ q ∈ l1, q.answer ≠ none
/-- A region of a tenant (R396). -/
def regionOf (s : State) (n k : Nat) : Region := tget ⟨0, 0, false, false, 0, 0⟩ k (s.tenant n).regions
/-- The job is not the tenant's (R395), or the region is empty or does not match the source. -/
def Absent (s : State) (n k source job : Nat) : Prop :=
  let r := regionOf s n k
  job ≠ (s.tenant n).job ∨ r.length = 0 ∨ (BitVec.ofNat 20 source ^^^ r.matchBits) &&& r.mask ≠ 0
/-- A region refuses m bytes at an offset for a reason, in the order of R401. -/
def Refuses (s : State) (n k source job offset m : Nat) (allowed : Bool) (reason : Nat) : Prop :=
  let r := regionOf s n k
  (reason = 3 ∧ Absent s n k source job) ∨ (reason = 4 ∧ ¬Absent s n k source job ∧ r.length < offset + m) ∨
  (reason = 5 ∧ ¬Absent s n k source job ∧ offset + m ≤ r.length ∧ allowed = false)
/-- A region grants them. -/
def Grants (s : State) (n k source job offset m : Nat) (allowed : Bool) : Prop :=
  ¬Absent s n k source job ∧ offset + m ≤ (regionOf s n k).length ∧ allowed = true
/-- Stores are on their way that lay bytes over memory from an address on, and nothing else. -/
def LaysDown (s t : State) (pa : Nat) (d : List Byte) : Prop :=
  ∃ new, t.stores = s.stores ++ new ∧ (∀ q ∈ new, s.now < q.time ∧ s.seq < q.seq) ∧
    ∀ x b, new.foldl (fun b q => overlay q.pa q.data x b) b = overlay pa d x b
def regionAt (r : Region) (offset : Nat) : DWord := r.base + BitVec.ofNat 64 offset
/-- An operation of the device to itself. -/
def Loops (s : State) (o : FabricOp) (tenant : Nat) : Prop :=
  ∃ dest, o.kind.target = some dest ∧ dest.endpoint = s.endpoint ∧ dest.tenant = tenant
/-- The armed launch of a tag. -/
def armedAt (s : State) (n : Nat) (tag : DWord) : Option Armed := (s.tenant n).armed.find? fun a => a.tag == tag
/-- The slot's bytes (R404). -/
def slotOf (m : Message) (stamp : DWord) : List Byte :=
  leBytes 8 m.tag.toNat ++ leBytes 4 m.payload.length ++ leBytes 4 (m.source + 2 ^ 20 * m.sender) ++ leBytes 8 stamp.toNat ++
    List.replicate 40 0 ++ m.payload
/-- A launch record as MARM takes it (R403), with a tag, a ring, a slot count, a class. -/
def ArmGroup (w : List Word) (tag rec ring : DWord) (log2 cls : Nat) (once : Bool) : Prop :=
  w = [tag.extractLsb' 0 32, tag.extractLsb' 32 32, rec.extractLsb' 0 32, rec.extractLsb' 32 32, ring.extractLsb' 0 32,
    ring.extractLsb' 32 32, BitVec.ofNat 32 log2, BitVec.ofNat 32 (2 * cls + if once = true then 1 else 0)] ∧ cls ≤ 2 ∧ log2 ≤ 8
/-- A request of the ply in hand is answered with a status. -/
def HubStatus (s : State) (h : HubOp) (d : BitVec 6) (st : Nat) (p : State → Prop) : Prop :=
  Answers (.longLatencyResult s.ply.uid h.seq) s fun t =>
    AnswersHub s t h ∧ (∀ r, t.S r = s.afterWrite d (BitVec.ofNat 32 st) r) ∧ p t

end Sys2Proof.Claim

/-- R395, R396, R399 to R401, R403 and R404: an answered operation completes or fails with its reason; an RGET writes its local
bytes; a timeout is reason 1. Another job is refused with 3, a region refuses with 3, 4 or 5, or takes a put's bytes, again
where a packet of a RUDI put is retried, or gives a get's. MARM and MDISARM answer their status. A message lands in the next slot,
or is discarded; once the slot is performed it fires the armed launch, whose slot is busy until its plies are over. Model's choices
in it: log 84, 85, 102. -/
def Obligations.FabricTraffic : Prop :=
  (∀ seq o d time s, OwnFabric s seq o → o.answer = some (.done d) → o.due = time → time ≤ s.now →
    (∀ dest k f r c, o.kind ≠ .rget dest k f r (some c)) → Answers (.fabricRetire seq (.done [])) s fun t =>
      t = { s with counted := t.counted } ∧ SameMemory s t ∧ Completed t o) ∧
  (∀ seq o reason s, OwnFabric s seq o → o.answer = none → o.kind.target ≠ none → s.mayBegin o = true → reason < 256 →
    o.owed = [] → Answers (.fabricRetire seq (.failed reason)) s fun t => Failed t o reason ∧
      (reason ≠ 1 → reason ≠ 9 → t = { s with counted := t.counted, fabric := t.fabric } ∧ SameMemory s t)) ∧
  (∀ seq o dest k f r a d s, OwnFabric s seq o → o.answer = none → o.cancelled = false → s.mayBegin o = true →
    o.kind = .rget dest k f r none → r.loc = some a → d.length = r.length → SettledOn s o.core →
    Answers (.fabricRetire seq (.done d)) s fun t => Completed t o ∧ (∀ core pa, t.seen core pa = s.seen core pa) ∧
      ∀ core sp x, t.localByte core sp x =
        if core = o.core ∧ sp = .xbuf then overlay a d x (s.localByte core sp x) else s.localByte core sp x) ∧
  (∀ seq o dest k f r a s, OwnFabric s seq o → o.answer = none → o.cancelled = false → s.mayBegin o = true → o.due = 0 →
    o.kind = .rput dest k f r → r.loc = some a → dest.endpoint ≠ s.endpoint → SettledOn s s.ply.core →
    Answers (.fabricRetire seq (.done [])) s fun t => SameMemory s t ∧ Completed t o ∧
      t.outgoing = s.outgoing ++ [⟨dest.endpoint, dest.tenant, 0, BitVec.ofNat 64 (k * 2 ^ 32 + f),
        (List.range r.length).map fun i => s.localByte s.ply.core .xbuf (a + i)⟩]) ∧
  (∀ seq o s, OwnFabric s seq o → o.answer = none → o.kind.target ≠ none →
    (o.issuedAt + 1000 * (s.tenant o.tenant).fabto ≤ s.now → Answers (.timeout seq) s fun t => Failed t o 1 ∧
      ((∀ dest k f r c, o.kind ≠ .rget dest k f r c) → (∀ dest k f r, o.kind ≠ .rput dest k f r) →
        t = { s with counted := t.counted, fabric := t.fabric } ∧ SameMemory s t)) ∧
    (s.now < o.issuedAt + 1000 * (s.tenant o.tenant).fabto → Answers (.timeout seq) s fun t => t = s)) ∧
  (∀ n source job k off d pa s, let r := regionOf s n k
    (Grants s n k source job off d.length r.write → d ≠ [] → source ≠ s.endpoint →
      s.range n .write (regionAt r off) d.length = .ok [(pa, d.length)] →
      Answers (.remotePutArrival n ⟨source, job⟩ k off d) s fun t =>
        SameMemory s t ∧ t.mem = s.mem ∧ t.ply = s.ply ∧ LaysDown s t pa d) ∧
    (∀ o ∈ s.fabric, ∀ dest src a, Grants s n k source job off d.length r.write → source = s.endpoint → Loops s o n →
      o.kind = .rput dest k off src → src.length = d.length → dest.mode = 2 → o.answer = some (.done a) →
      (∃ c ∈ s.counted, c.seq = o.seq ∧ c.complete = false) → (∀ q ∈ s.fabric, q.answer ≠ none) → pa % 4 = 0 →
      s.range n .write (regionAt r off) d.length = .ok [(pa, d.length)] →
      Answers (.remotePutArrival n ⟨source, job⟩ k off d) s fun t => SameMemory s t ∧ t.mem = s.mem ∧ t.counted = s.counted ∧
        ∃ new, t.stores = s.stores ++ new ∧ ∀ q ∈ new, ∃ i, 4 * i < d.length ∧ q.pa = pa + 4 * i ∧ q.data = slice d (4 * i) 4) ∧
    (∀ reason, Refuses s n k source job off d.length r.write reason → Answers (.remotePutArrival n ⟨source, job⟩ k off d) s fun t =>
      SameMemory s t ∧ t.ply = s.ply ∧ t.outgoing = s.outgoing ∧ ∀ o dest src, FirstWaiting s o → source = s.endpoint →
        o.kind = .rput dest k off src → Loops s o n → src.length = d.length → Failed t o reason)) ∧
  (∀ n source job k off len pa s, let r := regionOf s n k
    (Grants s n k source job off len r.read → source ≠ s.endpoint → s.range n .read (regionAt r off) len = .ok [(pa, len)] →
      s.bad pa len = false → Answers (.remoteGetArrival n ⟨source, job⟩ k off len) s fun t =>
        SameMemory s t ∧ t = { s with vaults := t.vaults, outgoing := s.outgoing ++ [⟨source, n, 2, BitVec.ofNat 64 (k * 2 ^ 32 + off), s.phys pa len⟩] }) ∧
    (∀ reason, Refuses s n k source job off len r.read reason ∨ (reason = 9 ∧ Grants s n k source job off len r.read ∧
        s.range n .read (regionAt r off) len = .ok [(pa, len)] ∧ s.bad pa len = true) →
      Answers (.remoteGetArrival n ⟨source, job⟩ k off len) s fun t => (reason ≠ 9 ∨ source ≠ s.endpoint → SameMemory s t ∧ t.ply = s.ply) ∧
        t.outgoing = s.outgoing ∧
        ∀ o dest dst c, FirstWaiting s o → source = s.endpoint → o.kind = .rget dest k off dst c → Loops s o n → dst.length = len →
          Failed t o reason)) ∧
  (∀ h d w tag rec ring log2 cls once s, Asked s h → h.kind = .marm d w → ArmGroup w tag rec ring log2 cls once →
    let n := s.ply.tenant
    let old := (s.tenant n).armed
    (armedAt s n tag ≠ none → HubStatus s h d 1 fun t => t.tenants = s.tenants) ∧
    (armedAt s n tag = none → 1024 ≤ old.length → HubStatus s h d 2 fun t => t.tenants = s.tenants) ∧
    (armedAt s n tag = none → old.length < 1024 → ring.toNat % 4096 ≠ 0 → HubStatus s h d 3 fun t => t.tenants = s.tenants) ∧
    (∀ b r ps, armedAt s n tag = none → old.length < 1024 → ring.toNat % 4096 = 0 →
      s.range n .write ring (4096 * 2 ^ log2) = .ok ps → s.readVirt noCore n rec 128 = .ok b → Record.parse b = .ok r →
      (tag.toNat / 2 ^ 56 = 0xFF → HubStatus s h d 4 fun t => t.tenants = s.tenants) ∧
      (tag.toNat / 2 ^ 56 ≠ 0xFF → HubStatus s h d 0 fun t => t.tenant n =
        { s.tenant n with armed := old ++ [⟨tag, r, ring, BitVec.ofNat 4 log2, once, cls, 0⟩] }))) ∧
  (∀ h d tag s, Asked s h → h.kind = .mdisarm d tag →
    (armedAt s s.ply.tenant tag = none → HubStatus s h d 1 fun t => t.tenants = s.tenants) ∧
    (armedAt s s.ply.tenant tag ≠ none → HubStatus s h d 0 fun t => t.tenant s.ply.tenant =
      { s.tenant s.ply.tenant with armed := (s.tenant s.ply.tenant).armed.filter fun a => a.tag ≠ tag })) ∧
  (∀ m s, m.job ≠ (s.tenant m.tenant).job → Answers (.messageArrival m) s fun t => SameMemory s t ∧ t.firings = s.firings ∧
    t.landings = s.landings ∧ ∀ o dest tag r, FirstWaiting s o → m.source = s.endpoint → o.kind = .msend dest tag r →
      Loops s o m.tenant → tag = m.tag → r.length = m.payload.length → o.tenant = m.sender → Failed t o 3) ∧
  (∀ m s, m.job = (s.tenant m.tenant).job → armedAt s m.tenant m.tag = none → Answers (.messageArrival m) s fun t =>
    SameMemory s t ∧ t.firings = s.firings ∧ (m.source ≠ s.endpoint → t = s) ∧ ∀ o dest tag r, FirstWaiting s o →
      m.source = s.endpoint → o.kind = .msend dest tag r → Loops s o m.tenant → tag = m.tag → r.length = m.payload.length →
        o.tenant = m.sender → Failed t o 6) ∧
  (∀ m a s, m.job = (s.tenant m.tenant).job → armedAt s m.tenant m.tag = some a →
    let slot : DWord := a.ring + BitVec.ofNat 64 (4096 * (a.next % 2 ^ a.log2.toNat))
    ((∃ b ∈ (s.tenant m.tenant).busySlots, b.1 = slot) → Answers (.messageArrival m) s fun t => (m.source ≠ s.endpoint → t = s) ∧
      ∀ o dest tag r, FirstWaiting s o → m.source = s.endpoint → o.kind = .msend dest tag r → Loops s o m.tenant → tag = m.tag →
        r.length = m.payload.length → o.tenant = m.sender → Failed t o 7) ∧
    (∀ pa, (∀ b ∈ (s.tenant m.tenant).busySlots, b.1 ≠ slot) → m.source < 2 ^ 20 → m.sender < 16 →
      (∀ l ∈ s.landings, s.now < l.due) → (∀ x ∈ (s.tenant m.tenant).armed, x.tag = m.tag → x = a) →
      s.range m.tenant .write slot (64 + m.payload.length) = .ok [(pa, 64 + m.payload.length)] →
      Answers (.messageArrival m) s fun t => SameMemory s t ∧ t.mem = s.mem ∧ LaysDown s t pa (slotOf m s.ptime) ∧
        t.firings = s.firings ∧ armedAt t m.tenant m.tag = some { a with next := a.next + 1 } ∧
        ∃ due, t.landings = s.landings ++ [⟨m.tenant, slot, due, a.record, a.cls, a.tag, a.once⟩] ∧ s.now < due ∧
          ∀ q ∈ t.stores, s.seq < q.seq → q.time ≤ due)) ∧
  (∀ q l s, s.stores.find? (fun x => x.seq == q.seq) = some q → q.time ≤ s.now →
    (∀ r ∈ s.stores, lineOf r.pa = lineOf q.pa → q.seq ≤ r.seq) → s.loads = [] → (∀ c ∈ s.scopes, c.due = none) →
    s.landings = [l] → let left := (s.tenant l.tenant).armed.filter fun a => a.tag ≠ l.tag
    (s.now < l.due → Answers (.completionTime q.seq) s fun t => t.landings = [l] ∧ t.firings = s.firings ∧ t.tenants = s.tenants) ∧
    (l.due ≤ s.now → s.scopeTakes l.tenant l.record.scope = true → Answers (.completionTime q.seq) s fun t => t.landings = [] ∧
      (∃ f : Firing, t.firings = s.firings ++ [f] ∧ f.tenant = l.tenant ∧ f.record = l.record ∧ f.cls = l.cls ∧ f.args = l.slot ∧
        f.landing = some l.slot ∧ f.queue = none ∧ f.next = 0 ∧ f.total = l.record.plies ∧ f.running = 0 ∧ f.firedAt = l.due ∧
        t.tenant l.tenant = { s.tenant l.tenant with
          armed := if l.once = true then left else (s.tenant l.tenant).armed
          busySlots := (s.tenant l.tenant).busySlots ++ [(l.slot, f.id)] }) ∧
      t.scopeOf l.tenant l.record.scope = (s.scopeOf l.tenant l.record.scope).map fun x =>
        { x with live := x.live + l.record.lanes * l.record.plies }) ∧
    (l.due ≤ s.now → s.scopeTakes l.tenant l.record.scope = false → Answers (.completionTime q.seq) s fun t =>
      t.landings = [] ∧ t.firings = s.firings ∧ t.scopes = s.scopes ∧
      (t.tenant l.tenant).busySlots = (s.tenant l.tenant).busySlots ∧
      (t.tenant l.tenant).armed = if l.once = true then left else (s.tenant l.tenant).armed)) ∧
  (∀ core f slot s, s.firings.find? (fun x => x.id == f.id) = some f → f.next < f.total → f.running = 0 → f.landing = some slot →
    s.scopeCancelled f.tenant f.record.scope = true → Answers (.gangFormation core f.id) s fun t =>
      (∀ x ∈ t.firings, x.id ≠ f.id) ∧
      (t.tenant f.tenant).busySlots = (s.tenant f.tenant).busySlots.filter fun b => b.2 ≠ f.id)

namespace Sys2Proof.Claim

/-- One level of a fold (R408): the list cut into groups of q, the last one of at most q, each group folded from its lowest
value in order; and the levels one after another. -/
def GroupsOf (q : Nat) (l : List Nat) (gs : List (List Nat)) : Prop :=
  gs.flatten = l ∧ (∀ g ∈ gs, g ≠ [] ∧ g.length ≤ q) ∧ ∀ g ∈ gs.dropLast, g.length = q
def foldGroup (f : Nat → Nat → Nat) : List Nat → Nat
  | [] => 0
  | x :: xs => xs.foldl f x
def FoldsTo (f : Nat → Nat → Nat) : List Nat → List Nat → Nat → Prop
  | [], l, r => l = [r]
  | q :: qs, l, r => ∃ gs, GroupsOf q l gs ∧ FoldsTo f qs (gs.map (foldGroup f)) r

/-- The steps of a fold (R408): format, operation, function. -/
def collSteps : List (Nat × Nat × (Nat → Nat → Nat)) :=
  [(0, 0, fadd), (1, 0, fun a b => (fp16.add 0 a b).1), (2, 0, fun a b => (bf16.add 0 a b).1),
    (0, 1, fun a b => (fp32.minmax false false a b).1), (0, 2, fun a b => (fp32.minmax true false a b).1),
    (1, 1, fun a b => (fp16.minmax false false a b).1), (1, 2, fun a b => (fp16.minmax true false a b).1),
    (2, 1, fun a b => (bf16.minmax false false a b).1), (2, 2, fun a b => (bf16.minmax true false a b).1),
    (9, 0, fun a b => (a + b) % 2 ^ 32), (9, 1, fun a b => (leastS (BitVec.ofNat 32 a) (BitVec.ofNat 32 b)).toNat),
    (9, 2, fun a b => if (BitVec.ofNat 32 a).toInt < (BitVec.ofNat 32 b).toInt then b else a)]

/-- Contributions of n units of u bytes each. -/
def Brings (u n : Nat) (all : List (List Byte)) : Prop := ∀ d ∈ all, d.length = u * n
/-- Unit k of a contribution, as a number. -/
def unitValue (u k : Nat) (d : List Byte) : Nat := leNat (slice d (u * k) u)

/-- An instance of the ply in hand that may end, its units read: what this device brings and where its results go. -/
def InstanceReady (s : State) (seq : Nat) (o : FabricOp) (c : Comm) (rank u : Nat) (src dst : Walk) (own dsts : List UnitRead) :
    Prop :=
  OwnFabric s seq o ∧ o.answer = none ∧ c.rank s.endpoint = some rank ∧ s.engineReady s.ply seq true = true ∧
  s.readUnits { s.ply with tenant := o.tenant } seq (src.unitsFrom u) = own ∧
  s.readUnits { s.ply with tenant := o.tenant } seq (dst.unitsTo u) = dsts ∧ ∀ r ∈ own ++ dsts, r.fault = none
/-- A member's record agrees with the operation. -/
def Agrees (m : Contribution) (kind op fmt units : Nat) : Prop := m.kind = kind ∧ m.op = op ∧ m.fmt = fmt ∧ m.count = units
/-- The ptimes at which the members issued an instance; this device's own first. -/
def issues (o : FabricOp) (members : List Contribution) (rank : Nat) : List Nat :=
  o.issuedAt :: (members.zipIdx.filter fun x => x.2 != rank).map fun x => x.1.issuedAt
/-- All members have issued it within colto of the first (R408). -/
def Timely (s : State) (o : FabricOp) (members : List Contribution) (rank : Nat) : Prop :=
  ∀ x ∈ issues o members rank, ∀ y ∈ issues o members rank, y ≤ x + 1000 * (s.tenant o.tenant).colto
/-- Over a window of instances, each with this member's slack and its completion (R409): the mean slack, and the mean interval between
two completions. -/
def meanSlack (l : List (Nat × Nat)) : ℚ := ((l.map (·.1)).sum : ℚ) / 16
def meanInterval (l : List (Nat × Nat)) : ℚ :=
  ((((l.getLast?.map (·.2)).getD 0 - (l.head?.map (·.2)).getD 0 : Nat)) : ℚ) / 15
/-- What the hub has measured over it: the sum of the slacks, and the time from the first completion to the last. -/
def Measures (l : List (Nat × Nat)) (slack interval : Nat) : Prop :=
  slack = (l.map (·.1)).sum ∧ interval = (l.getLast?.map (·.2)).getD 0 - (l.head?.map (·.2)).getD 0
/-- What the members bring, by rank: this device its own units. -/
def brought (members : List Contribution) (rank : Nat) (own : List UnitRead) : List (List Byte) :=
  members.zipIdx.map fun x => if x.2 = rank then own.flatMap (·.data) else x.1.data

end Sys2Proof.Claim

/-- R408 and R409: a fold takes the ranks in ascending order, level by level; all-reduce, all-gather, reduce-scatter and broadcast
place its units; an instance whose members differ fails with reason 8 and writes nothing, one whose members issue more than colto
apart, or of which a member is missing for so long, with reason 1; else its destination takes the result. Slack control compares the
mean slack of 16 instances with the mean interval between them and moves the clock step by one. Model's choices in it: log 86, 87. -/
def Obligations.Collectives : Prop :=
  (∀ f ∈ collSteps, ∀ radices l r, (∀ q ∈ radices, 0 < q) → (∀ x ∈ l, x < 2 ^ 32) → FoldsTo f.2.2 radices l r →
    foldRanks f.1 f.2.1 radices l = r) ∧
  (∀ fmt op root units rank k radices all (v : Nat), let u := unitSize fmt
    Brings u units all → foldRanks fmt op radices (all.map (unitValue u k)) = v →
    (k < units → (collResult 0 op root fmt units rank radices all)[k]? = some (leBytes u v)) ∧
    (∀ j, k = rank * (units / all.length) + j → j < units / all.length →
      (collResult 2 op root fmt units rank radices all)[j]? = some (leBytes u v))) ∧
  (∀ fmt op root units rank radices all, Brings (unitSize fmt) units all →
    (collResult 1 op root fmt units rank radices all).flatten = all.flatten ∧
    (∀ d, all[root]? = some d → (collResult 3 op root fmt units rank radices all).flatten = d)) ∧
  foldRanks 0 0 [4] [0x4B800000, 0x3F800000, 0x3F800000, 0xCB800000] = 0 ∧
  foldRanks 0 0 [2, 2] [0x4B800000, 0x3F800000, 0x3F800000, 0xCB800000] = 0x3F800000 ∧
  (∀ seq o kind op comm root src dst fmt units i rank own dsts (members : List Contribution) s,
    let c := s.comm o.tenant comm
    o.kind = .coll kind op comm root src dst fmt units i → members.length = c.members.length →
    InstanceReady s seq o c rank (unitSize fmt) src dst own dsts →
    ((∃ k m, members[k]? = some m ∧ k ≠ rank ∧ ¬Agrees m kind op fmt units) →
      Answers (.collInstanceComplete seq members) s fun t =>
        t = { s with counted := t.counted, fabric := t.fabric } ∧ SameMemory s t ∧ Failed t o 8) ∧
    ((∀ k m, members[k]? = some m → k ≠ rank → Agrees m kind op fmt units) → ¬Timely s o members rank →
      Answers (.collInstanceComplete seq members) s fun t =>
        t = { s with counted := t.counted, fabric := t.fabric } ∧ SameMemory s t ∧ Failed t o 1) ∧
    ((∀ k m, members[k]? = some m → k ≠ rank → Agrees m kind op fmt units) → Timely s o members rank → (∀ r ∈ dsts, isLocalPlace r.unit.dst) →
      (∀ sp, ((s.core o.core).space sp).wf = true) → s.stale o.core = [] → (∀ q ∈ s.stores, q.seq ≤ s.seq) →
      Answers (.collInstanceComplete seq members) s fun t =>
        (∀ core pa, t.seen core pa = s.seen core pa) ∧ (∃ slack, (t.tenant o.tenant).window = (s.tenant o.tenant).window ++ [(slack, s.now)] ∧
          o.issuedAt + slack ∈ issues o members rank ∧ ∀ x ∈ issues o members rank, x ≤ o.issuedAt + slack) ∧
        (∃ q ∈ t.fabric, q.seq = seq ∧ q.answer = some (.done []) ∧ q.due = s.now) ∧ ∀ core sp x, t.localByte core sp x =
          if core = o.core then
            (dsts.zip (collResult kind op root fmt units rank c.radices (brought members rank own))).foldl
              (fun b r => match r.1.unit.dst with
                | .loc sp' a => if sp' = sp then overlay a r.2 x b else b
                | .glob _ => b) (s.localByte core sp x)
          else s.localByte core sp x)) ∧
  (∀ seq o kind op comm root src dst fmt units i d members s, OwnFabric s seq o → o.kind = .coll kind op comm root src dst fmt units i →
    (o.answer = some (.done d) → o.due ≤ s.now → Answers (.collInstanceComplete seq members) s fun t =>
      t = { s with counted := t.counted } ∧ SameMemory s t ∧ Completed t o) ∧
    (∀ first, o.answer = none → (first + 1000 * (s.tenant o.tenant).colto ≤ s.now ∨
        o.issuedAt + 1000 * (s.tenant o.tenant).colto ≤ s.now) → Answers (.collTimeout ⟨seq, first⟩) s fun t =>
      t = { s with counted := t.counted, fabric := t.fabric } ∧ SameMemory s t ∧ Failed t o 1) ∧
    (∀ first, s.now < first + 1000 * (s.tenant o.tenant).colto → s.now < o.issuedAt + 1000 * (s.tenant o.tenant).colto →
      Answers (.collTimeout ⟨seq, first⟩) s fun t => t = s)) ∧
  (∀ n a b s, let w := (s.tenant n).window
    let l := w.take 16
    ((s.tenant n).slack = false ∨ w.length < 16 ∨ ¬Measures l a b → Answers (.slackControl n a b) s fun t => t = s) ∧
    ((s.tenant n).slack = true → 16 ≤ w.length → Measures l a b → Answers (.slackControl n a b) s fun t =>
      SameMemory s t ∧ t = { s with clusters := t.clusters, tenants := t.tenants } ∧
      t.tenant n = { s.tenant n with window := w.drop 16 } ∧ (∀ k, k ≠ n → t.tenant k = s.tenant k) ∧
      (∀ c, c ∉ s.partClusters n → t.cluster c = { s.cluster c with volt := (t.cluster c).volt }) ∧
      ∀ c ∈ s.partClusters n, let x := s.cluster c
        let may := x.slackAt = 0 ∨ x.slackAt + 2000000 ≤ s.now
        (meanInterval l < 10 * meanSlack l → may → x.step.toNat + x.slackStep < 4 → (t.cluster c).slackStep = x.slackStep + 1) ∧
        (meanSlack l = 0 → may → (t.cluster c).slackStep = x.slackStep - 1) ∧
        (meanSlack l ≠ 0 → 10 * meanSlack l ≤ meanInterval l → t.cluster c = x) ∧
        (¬may → t.cluster c = { x with volt := (t.cluster c).volt })))

namespace Sys2Proof.Claim

/-! ## The loader (R62 to R70) and the pipe (R101, R106, R246) -/

/-- A load report (R68). -/
def reportOf (status sec offset type : Nat) (name : List Byte) (value : Int) (base : Nat) : List Byte :=
  leBytes 4 status ++ leBytes 4 sec ++ leBytes 8 offset ++ leBytes 4 type ++ leBytes 4 (min name.length 192) ++
    leBytes 8 (value % 2 ^ 64).toNat ++ leBytes 8 base ++ List.replicate 24 0 ++ name.take 192
/-- The loader reports to the requester. -/
def Reports (s t : State) (tenant : Nat) (b : List Byte) : Prop := t.outgoing = s.outgoing ++ [⟨0, tenant, 3, 0, b⟩]
/-- A request to the loader ends with a report and nothing else (R67, R70): at once, or, where an earlier one of the tenant is in
progress, after it (R69). -/
def OnlyReports (i : Instr) (s : State) (tenant : Nat) (b : List Byte) : Prop :=
  (s.loads = [] → Answers i s fun t => t = { s with outgoing := t.outgoing } ∧ Reports s t tenant b) ∧
  ((∃ l ∈ s.loads, l.tenant = tenant) → (∀ l ∈ s.loads, s.now < l.due) → Answers i s fun t =>
    t = { s with loads := s.loads ++ [⟨tenant, none, b, s.now⟩] })
/-- A load is rejected with a report: no memory, mapping, image or area changes (R67). -/
def Rejects (tenant : Nat) (o : ObjectFile) (ps : List Placement) (tables areas : List Nat) (s : State) (status : Nat)
    (p : List Byte → Prop) : Prop :=
  ∃ b, OnlyReports (.loadRequest tenant o ps tables areas) s tenant b ∧ b.take 4 = leBytes 4 status ∧ p b
/-- The ELF header of R62. -/
def HeaderOk (o : ObjectFile) : Prop :=
  o.eiClass = 2 ∧ o.eiData = 1 ∧ o.eiVersion = 1 ∧ o.osabi = 0 ∧ o.eType = 1
def MachineOk (o : ObjectFile) : Prop := o.machine = 0x4C4D ∧ o.eFlags = 1

/-- The range of V of a relocation type with one, and the value from S + A and P (R65). -/
def relocRanges : List (Nat × (Int → Int → Int) × Int × Int) :=
  [(2, fun sa _ => sa, 0, 2 ^ 32), (3, fun sa p => sa - p, -2 ^ 31, 2 ^ 31), (4, fun sa _ => sa, -2 ^ 31, 2 ^ 32),
    (5, fun sa _ => sa, -2 ^ 31, 2 ^ 32), (10, fun sa _ => sa, -2 ^ 19, 2 ^ 19)]
/-- The branches: type, the words before P, bits of the field (R65). -/
def relocBranches : List (Nat × Int × Nat) := [(11, 0, 15), (12, 0, 25), (13, 0, 9), (14, 0, 9), (15, 4, 37), (16, 4, 47)]
/-- A field [hi:lo] of the word at an offset holds v modulo its width, and every other bit of the section is as before. -/
def Patches (d e : List Byte) (o hi lo v : Nat) : Prop :=
  e.length = d.length ∧ (∀ i, i < o ∨ o + 4 ≤ i → e[i]? = d[i]?) ∧
  wordAt e o / 2 ^ lo % 2 ^ (hi + 1 - lo) = v % 2 ^ (hi + 1 - lo) ∧
  wordAt e o % 2 ^ lo = wordAt d o % 2 ^ lo ∧ wordAt e o / 2 ^ (hi + 1) = wordAt d o / 2 ^ (hi + 1)

/-- What the patches of a relocation type make of section data (R65). -/
def patch' (d : List Byte) (o type : Nat) (v : Int) : List Byte := patched 0 d (patchesOf 0 d o type v)
/-- The word at an offset has a major. -/
def Major (d : List Byte) (o m : Nat) : Prop := o % 4 = 0 ∧ o + 4 ≤ d.length ∧ wordAt d o / 2 ^ 26 = m
/-- The majors with an immediate field of 12 and of 11 bits (R74). -/
def majorsI : List Nat := [0x0A, 0x0B, 0x0C, 0x0D]
def majorsSI : List Nat := [0x03, 0x2C, 0x2D]
/-- No path awaits the results that its last trailer named. -/
def NoneAwaits (s : State) : Prop := ∀ p ∈ s.ply :: s.plies, p.path0.awaited = [] ∧ p.path1.awaited = []
/-- A path has been eligible without issuing for 4,096 clk (R246). -/
def Aged (s : State) (p : Ply) (k : Nat) : Prop := 4096000 ≤ (s.now - (p.path k).since) * s.mhz p.core
/-- Path k of the ply in hand as it begins a run (R88, R101, R170). -/
def begun (p : Ply) (k : Nat) (now : Nat) : Ply :=
  let q (x : Path) : Path := { x with runClass := x.hprio, hprio := none, awaited := [] }
  { p with
    slot := k, running := true, pos := 0, latches := [], runSince := now
    path0 := if k = 0 then q p.path0 else p.path0
    path1 := if k = 0 then p.path1 else q p.path1 }

end Sys2Proof.Claim

/-- R62 and R65 to R70: a header or machine that does not fit, or any failure of steps 1 to 5, rejects the load and changes no
memory, mapping or image; a success sends its writes home and publishes the image, with its report, once they are performed;
requests of a tenant end in their order. Relocations patch their fields with V, or fail with FIELD, RELTYPE or their check (5 or 7).
An image in use is not removed (10). R101, R106 and R246: a pipe goes on with its open run, or begins that of the eligible path
that is aged, of the highest class, of the oldest ply; a pipe wait ends; an exhausted ply ends with DEADLINE. Model's choices in it:
log 53, 88, 89, 93. -/
def Obligations.LoaderAndPipe : Prop :=
  (∀ n o ps tables areas s, ¬HeaderOk o → Rejects n o ps tables areas s 1 fun b => b = reportOf 1 0 0 0 [] 0 0) ∧
  (∀ n o ps tables areas s, HeaderOk o → ¬MachineOk o → Rejects n o ps tables areas s 2 fun b => b = reportOf 2 0 0 0 [] 0 0) ∧
  (∀ n o ps tables areas r s, s.loadObject n o ps tables = .error r →
    Rejects n o ps tables areas s r.status fun b => b = reportOf r.status r.sec r.offset r.type r.name r.value r.base) ∧
  (∀ n o ps tables areas m i s, s.loadObject n o ps tables = .ok (m, i) → s.loads = [] →
    (∀ q ∈ s.stores, q.seq ≤ s.seq) → Answers (.loadRequest n o ps tables areas) s fun t => SameMemory s t ∧ HeaderOk o ∧ MachineOk o ∧
      (∀ x ∈ i.exports, ∀ j ∈ (s.tenant n).images, ∀ y ∈ j.exports, y.1 ≠ x.1) ∧
      ∃ new, t.stores = s.stores ++ new ∧ (∀ q ∈ new, s.now < q.time) ∧
        (∀ x b, new.foldl (fun b q => overlay q.pa q.data x b) b = m.foldl (fun b w => overlay w.1 w.2 x b) b) ∧
        (new ≠ [] → t = { s with
            stores := t.stores, seq := t.seq, vaults := t.vaults, saveAreas := t.saveAreas, loads := t.loads } ∧
          ∃ due, t.loads = [⟨n, some i, reportOf 0 0 0 0 [] 0 i.base, due⟩] ∧ ∀ q ∈ new, q.time ≤ due) ∧
        (new = [] → (t.tenant n).images = (s.tenant n).images ++ [i] ∧ Reports s t n (reportOf 0 0 0 0 [] 0 i.base))) ∧
  (∀ q l i s, s.stores.find? (fun x => x.seq == q.seq) = some q → q.time ≤ s.now →
    (∀ r ∈ s.stores, lineOf r.pa = lineOf q.pa → q.seq ≤ r.seq) → s.landings = [] → (∀ c ∈ s.scopes, c.due = none) →
    s.loads = [l] → l.image = some i →
    (s.now < l.due → Answers (.completionTime q.seq) s fun t => t.loads = [l] ∧ t.outgoing = s.outgoing ∧ t.tenants = s.tenants) ∧
    (l.due ≤ s.now → Answers (.completionTime q.seq) s fun t => t.loads = [] ∧ Reports s t l.tenant l.report ∧
      t.tenant l.tenant = { s.tenant l.tenant with images := (s.tenant l.tenant).images ++ [i] } ∧
      ∀ k, k ≠ l.tenant → t.tenant k = s.tenant k)) ∧
  (∀ r ∈ relocRanges, ∀ sa p : Int, relocValue r.1 sa p =
    (r.2.1 sa p, if r.2.2.1 ≤ r.2.1 sa p ∧ r.2.1 sa p < r.2.2.2 then 0 else 5)) ∧
  (∀ r ∈ relocBranches, ∀ sa p : Int, let x := sa - p - r.2.1
    (x % 4 ≠ 0 → (relocValue r.1 sa p).2 = 7) ∧
    (x % 4 = 0 → -(2 ^ r.2.2 : Int) ≤ x / 4 ∧ x / 4 < 2 ^ r.2.2 → relocValue r.1 sa p = (x / 4, 0)) ∧
    (x % 4 = 0 → ¬(-(2 ^ r.2.2 : Int) ≤ x / 4 ∧ x / 4 < 2 ^ r.2.2) → (relocValue r.1 sa p).2 = 5)) ∧
  (∀ d o (v : Int), o + 4 ≤ d.length → let u := (v % 2 ^ 64).toNat
    Patches d (patch' d o 11 v) o 15 0 u ∧ Patches d (patch' d o 12 v) o 25 0 u ∧
    Patches d (patch' d o 13 v) o 19 10 u ∧ Patches d (patch' d o 14 v) o 9 0 u ∧
    Patches d (patch' d o 10 v) o 21 0 (u % 2 ^ 20) ∧ Patches d (patch' d o 2 v) o 31 0 u ∧
    (o + 8 ≤ d.length → ∃ e, Patches d e o 21 0 (u / 2 ^ 16 % 2 ^ 22) ∧ Patches e (patch' d o 15 v) (o + 4) 15 0 u)) ∧
  (∀ d o m (v : Int), o % 4 = 0 → let u := (v % 2 ^ 64).toNat
    (m ∈ majorsI → (Major d o m → Patches d (patch' d o 5 v) o 11 0 u) ∧
      (Major d (o + 4) m → Patches d (patch' d o 4 v) o 21 0 (u % 2 ^ 32 / 2 ^ 12))) ∧
    (m ∈ majorsSI → (Major d o m → Patches d (patch' d o 5 v) o 10 0 u) ∧
      (Major d (o + 4) m → Patches d (patch' d o 4 v) o 21 0 (u % 2 ^ 32 / 2 ^ 11)))) ∧
  (∀ (o : ObjectFile) l values (r : Rela), let d := ((o.sections[r.sec]?).map (·.data)).getD []
    (17 ≤ r.type → ∃ e, relocate o l values r = .error e ∧ e.status = 3 ∧ e.sec = r.sec ∧ e.offset = r.offset) ∧
    (∀ m, r.type = 11 → Major d r.offset m → m ≠ 0x20 → m ≠ 0x21 →
      ∃ e, relocate o l values r = .error e ∧ e.status = 6 ∧ e.sec = r.sec ∧ e.offset = r.offset ∧ e.type = 11)) ∧
  (∀ n address i s, let named (j : Machine.Image) : Prop := j.holds (BitVec.ofNat 64 address) = true
    (s.tenant n).images.find? (fun j => j.holds (BitVec.ofNat 64 address)) = some i →
    let used := (∃ a ∈ s.usedEntries n, ∃ x ∈ i.pages, a.toNat / 65536 * 65536 = x.1) ∨
      ∃ j ∈ (s.tenant n).images, ¬named j ∧ ∃ x ∈ j.uses, ∃ e ∈ i.exports, e.1 = x
    (used → OnlyReports (.unloadRequest n address) s n (reportOf 10 0 0 0 [] 0 0)) ∧
    (¬used → s.loads = [] → Answers (.unloadRequest n address) s fun t => t = { s with tenants := t.tenants, outgoing := t.outgoing } ∧
        t.tenant n = { s.tenant n with
          images := (s.tenant n).images.filter fun j => !j.holds (BitVec.ofNat 64 address) } ∧
        Reports s t n (reportOf 0 0 0 0 [] 0 0))) ∧
  (∀ core pipe p k s, s.nextPath core pipe = some (p, k) → p ∈ s.all ∧ p.core = core ∧ p.pipe = pipe ∧
    let opened (q : Ply) : Prop := q.running = true ∧ q.resumes = false ∧ q.cur.wait = .none
    ((opened p ∧ k = p.slot) ∨ (s.eligible p k = true ∧ ∀ q ∈ s.onPipe core pipe, ¬opened q ∧ ∀ j, j < 2 → s.eligible q j = true →
      (Aged s q j → Aged s p k ∧ (p.path k).since ≤ (q.path j).since) ∧
      (¬Aged s p k → p.pathClass (p.path k) ≤ q.pathClass (q.path j) ∧
        (p.pathClass (p.path k) = q.pathClass (q.path j) → p.age ≤ q.age))))) ∧
  (∀ core pipe s, s.onPipe core pipe = [] → Answers (.pathChoice core pipe) s fun t =>
    t = { s with ply := t.ply, plies := t.plies } ∧ WokenPly s.ply t.ply ∧ PliesKept s t) ∧
  (∀ core pipe s, NoneAwaits s →
    (s.nextPath core pipe = none → Answers (.pathChoice core pipe) s fun t => t = s) ∧
    (∀ k, k < 2 → s.ply.running = false → s.nextPath core pipe = some (s.ply, k) →
      Answers (.pathChoice core pipe) s fun t => t = { s with ply := begun s.ply k s.now }) ∧
    (s.ply.running = true → s.nextPath core pipe = some (s.ply, s.ply.slot) →
      Answers (.pathChoice core pipe) s fun t => t = { s with ply := { s.ply with resumes := false } }) ∧
    (∀ p k, k < 2 → s.ply.uid ≠ 0 → p.uid ≠ s.ply.uid → p.running = false → s.nextPath core pipe = some (p, k) →
      Answers (.pathChoice core pipe) s fun t =>
        t = { s with ply := begun p k s.now, plies := s.ply :: s.plies.filter fun q => q.uid ≠ p.uid })) ∧
  (∀ s, Answers (.pipeWaitEnd s.ply.uid) s fun t => t = { s with ply := { s.ply with stalled := false } }) ∧
  (∀ s, s.ply.yc.toNat + s.issue.words ≤ 64 * s.ply.ydl.toNat → Answers (.watchdogDeadline s.ply.uid) s fun t => t = s) ∧
  (∀ c x s, 64 * s.ply.ydl.toNat < s.ply.yc.toNat + s.issue.words → Named s → Unbound s → s.ply.occ ≠ 0 → s.ply.failures = [] →
    s.ply.firing = none → (∀ a ∈ s.arrivals, a.uid ≠ s.ply.uid) → ScopesDiffer s →
    (∀ i, i < 96 → s.ply.occ.has i = true → laneScope s i = c) → s.scopeOf s.ply.tenant c = some x → x.state = .opened →
    Answers (.watchdogDeadline s.ply.uid) s fun t => SameMemory s t ∧ t.find s.ply.uid = none ∧ t.plies = s.plies ∧
      t.saveAreas = s.saveAreas ++ [s.ply.ssave] ∧ (let n := ((List.range 96).filter fun i => s.ply.occ.has i).length
      t.scopeOf s.ply.tenant c = some { x with
        state := .faulted, live := x.live - n, ended := x.ended + n, tcancel := s.ptime, cause := 0x20 }))

namespace Sys2Proof.Claim

/-! ## The whole machine -/

/-- The row of the opcode table that a word alone names: an SMC's code, a COLL's kind and a PWRQ's op stand elsewhere (R383,
R384, R407). -/
noncomputable def spelled : Instr → Instr
  | .collAllGather g | .collReduceScatter g | .collBroadcast g => .collAllReduce g
  | .smcReleaseCluster d a | .smcResetPartition d a | .smcSetRoot d a | .smcSetRegulator d a | .smcSetScopeShare d a
  | .smcAttest d a | .smcRetireUnit d a => .smcAssignCluster d a
  | .pwrqPower d a => .pwrqGate d a
  | i => i

/-- The words of a unit stand where the issuing path fetches them: hints, the word, and for a control transfer the word
after it (R72, R88, R92, R158). -/
def Fetches (s : State) (hints : List Word) (w : Word) (next : Option Word) : Prop :=
  let pc := s.path.pc
  (∀ k h, hints[k]? = some h → isHint h.toNat = true ∧ s.fetchAt (pc + BitVec.ofNat 64 (4 * k)) = .ok h) ∧
  isHint w.toNat = false ∧ s.fetchAt (pc + BitVec.ofNat 64 (4 * hints.length)) = .ok w ∧
  (if isTransfer w.toNat = true then ∃ n, next = some n ∧ s.fetchAt (pc + BitVec.ofNat 64 (4 * (hints.length + 1))) = .ok n
    else next = none)
/-- The issuing ply issues next: nothing is scheduled from outside, its run is open and its path does not wait. -/
def Issues (s : State) : Prop := s.agenda = [] ∧ s.ply.uid ≠ 0 ∧ s.ply.running = true ∧ s.ply.resumes = false ∧
  s.path.wait = .none
/-- The unit stands below position 24, or is a trailer without a hint at position 24 (R88). -/
def Fits (s : State) (hints : List Word) (w : Word) : Prop :=
  s.ply.pos + hints.length < 24 ∨ hints = [] ∧ isTrailerWord w.toNat = true
/-- The yield allowance takes n more words (R106). -/
def Allows (s : State) (n : Nat) : Prop := s.ply.yc.toNat + n ≤ 64 * s.ply.ydl.toNat
/-- The words of a unit that count against the allowance: YIELD's own does not. -/
def countedWords (hints : List Word) (w : Word) : Nat := if isYield w.toNat = true then hints.length else hints.length + 1
/-- The state in which a unit executes: time has passed, and the unit is in issue. -/
noncomputable def issuing (s : State) (hints : List Word) (w : Word) : State :=
  { s.elapse with issue := issueOf s.path.pc hints w }

end Sys2Proof.Claim

/-- Every word that the encoding tables give a well-formed instruction decodes to it (to the row that the word alone names, for
COLL, SMC and PWRQ); and a word that decodes is the word of the well-formed instruction that it decodes to. Model's choices in
it: log 19, 20, 21. -/
def Obligations.DecodeEncode : Prop :=
  (∀ i w, i.wf = true → encode i = some w → decode w.toNat = .ok (spelled i)) ∧
  (∀ (w : Word) i, decode w.toNat = .ok i → i.wf = true ∧ encode i = some w)

/-- Words written out from the encodings of R79 to R87 and of the instructions' entries decode to what they stand for; a register
field, an unassigned bit or a pair that breaks its rule is refused with its sub-code and position. -/
def Obligations.DecodeWords : Prop :=
  decode 0x05455600 = .ok (.sadd 20 21 22) ∧ decode 0x204F9060 = .ok (.vadd 9 121 3 0) ∧
  decode 0x38182807 = .ok (.vshiSra 3 2 7) ∧ decode 0x8054000A = .ok (.brNz 20 10) ∧ decode 0x9C400012 = .ok (.trap 0x12) ∧
  decode 0xC8D45560 = .ok (.shapew 20 21 22) ∧ decode 0xD41410C0 = .ok (.spawn 20 8 24) ∧
  decode 0xDCD55000 = .ok (.pview 21 20) ∧ decode 0xE0D00000 = .ok (.rput 16) ∧ decode 0xE4140090 = .ok (.gets 20 9) ∧
  decode 0xF44F9F80 = .ok (.endRun 9 121 124) ∧ decode 0xF840C000 = .ok (.yield 16 24) ∧
  decode 0x05455615 = .error ⟨2, 8⟩ ∧ decode 0xE0D10000 = .error ⟨7, 16⟩

/-- Main memory keeps its canonical form: whatever a step does, an instruction, a unit's event or one from outside, memory stays a
rising list without a byte that reads as an unlisted one. Model's choices in it: log 5. -/
def Obligations.MemoryStaysCanonical : Prop :=
  ∀ s t, MemoryOk s → step s = .next t → MemoryOk t

/-- R177, R243, R311, R313, R321, R342, R344, R374, R381, R387 and R396: after reset nothing is resident, pending or on its way,
memory is in canonical form, and the registers of cores, clusters, vaults and tenants hold the values that these rules give.
Model's choices in it: log 4, 5. -/
def Obligations.ResetState : Prop :=
  let s := State.reset
  MemoryOk s ∧ s.ptime = 0 ∧ s.all = [] ∧ s.saved = [] ∧ s.stores = [] ∧ s.scopes = [] ∧ s.transit = [] ∧ s.counted = [] ∧
  s.fabric = [] ∧ s.failing = [] ∧ s.tlb = [] ∧ s.firmware.running = false ∧
  (∀ k, (s.core k).binto = 2000 ∧ (s.core k).bins = [] ∧ (s.core k).overflow = [] ∧ (s.core k).mtxq = [] ∧
    (s.core k).copyq = [] ∧ (s.core k).entries = [] ∧ (s.core k).windows = [] ∧ (s.core k).probeX = BitVec.ofNat 16 (k + 1) ∧
    (s.core k).retired = false ∧ ∀ sp a, s.localByte k sp a = 0) ∧
  (∀ c, (s.cluster c).knight = true ∧ (s.cluster c).sw = 0 ∧ (s.cluster c).step = 0 ∧ (s.cluster c).l2lease = 1024 ∧
    (s.cluster c).lease = 256 ∧ (s.cluster c).gap = 16 ∧ (s.cluster c).count = 8 ∧ (s.cluster c).running = 0 ∧
    (s.cluster c).regulator = 0) ∧
  (∀ v, (s.vault v).rstep = 0 ∧ (s.vault v).vchl = 90 ∧ (s.vault v).testEn = false ∧ (s.vault v).cache = []) ∧
  (∀ n, (s.tenant n).ptroot = 0 ∧ (s.tenant n).trapVec = 0 ∧ (s.tenant n).qdl = 0 ∧ (s.tenant n).armed = [] ∧
    (s.tenant n).images = [] ∧ (s.tenant n).fabto = 50000 ∧ (s.tenant n).colto = 1000000 ∧ (s.tenant n).slack = false)

/-- R72, R88, R92, R93 and R106: the words at the issuing path's pc that decode to an instruction execute it, with the unit in
issue and time passed; a unit that must wait in the pipe does not issue; the words that are illegal, do not fetch, stand too
far in the run or exceed the allowance take their own way, the fault of any word of a unit, or of the word after its transfer,
before its place in the run; what the agenda holds comes first. Model's choices in it: log 2, 3,
26, 27, 28. -/
def Obligations.StepRunsDecoded : Prop :=
  (∀ s e l, s.agenda = e :: l → step s = exec e { s.elapse with agenda := l }) ∧
  (∀ s w next i, Issues s → Fetches s [] w next → Fits s [] w → Allows s (countedWords [] w) → s.ply.stalled = false →
    decode w.toNat = .ok i → (∀ n, next = some n → isTrailerWord n.toNat = true) → s.hazard (s.resolve i) = false →
    step s = exec (s.resolve i) (issuing s [] w)) ∧
  (∀ s hints w next i, Issues s → Fetches s hints w next → Fits s hints w → Allows s (countedWords hints w) →
    decodeUnit hints w next = .ok i →
    (s.hazard (s.resolve i) = false → s.ply.stalled = false → step s = exec (s.resolve i) (issuing s hints w)) ∧
    (s.hazard (s.resolve i) = false → s.ply.stalled = true → step s = exec (.pipeWaitEnd s.ply.uid) (issuing s hints w)) ∧
    (s.hazard (s.resolve i) = true → s.events = [] →
      step s = .next { issuing s hints w with ply := { s.ply with stalled := true } })) ∧
  (∀ s hints w next r, Issues s → Fetches s hints w next → Fits s hints w → Allows s (countedWords hints w) →
    decodeUnit hints w next = .error r →
    step s = exec (.illegalWord r.sub r.pos r.word r.other) (issuing s hints w)) ∧
  (∀ s hints w next, Issues s → Fetches s hints w next → hints.length < 2 ^ 58 →
    (24 ≤ s.ply.pos + hints.length ∧ isTrailerWord w.toNat = false) ∨ (24 < s.ply.pos + hints.length ∧ hints ≠ []) →
    Allows s (countedWords hints w) → step s = .next (issuing s hints w).raiseRunlen) ∧
  (∀ s c, Issues s → s.fetchAt s.path.pc = .error c → step s = exec (.fetchFault c.code c.sub c.addr)
    { s.elapse with issue := { Issue.empty with first := s.path.pc } }) ∧
  (∀ s (hints : List Word) c, Issues s → (∀ k h, hints[k]? = some h → isHint h.toNat = true ∧
      s.fetchAt (s.path.pc + BitVec.ofNat 64 (4 * k)) = .ok h) → hints.length < 2 ^ 58 → Allows s hints.length →
    s.fetchAt (s.path.pc + BitVec.ofNat 64 (4 * hints.length)) = .error c →
    step s = exec (.fetchFault c.code c.sub c.addr)
      { s.elapse with issue := { Issue.empty with first := s.path.pc, words := hints.length } }) ∧
  (∀ s (hints : List Word) (w : Word) c, Issues s → (∀ k h, (hints ++ [w])[k]? = some h → s.fetchAt (s.path.pc + BitVec.ofNat 64 (4 * k)) = .ok h) →
    (∀ h ∈ hints, isHint h.toNat = true) → isHint w.toNat = false → isTransfer w.toNat = true → hints.length < 2 ^ 58 →
    Allows s (countedWords hints w) → s.fetchAt (s.path.pc + BitVec.ofNat 64 (4 * (hints.length + 1))) = .error c →
    step s = exec (.fetchFault c.code c.sub c.addr) (issuing s hints w)) ∧
  (∀ s w next, Issues s → Fetches s [] w next → ¬Allows s (countedWords [] w) →
    step s = exec (.watchdogDeadline s.ply.uid) { issuing s [] w with issue := { issueOf s.path.pc [] w with
      words := countedWords [] w } }) ∧
  (∀ s, s.agenda = [] → s.all = [] → s.events = [] → step s = .next s.elapse)
end

