-- ==== Sys2Proof/Laws/State.lean ====
section
/-!
SUPPORT. What each named update of a table, a ply or the state leaves unchanged, field by field, and what it puts there.
-/
namespace Sys2Proof.Machine

/-! ## Tables -/

@[simp] theorem tget_tset_same {α : Type} (d x : α) (k : Nat) (t : Table α) : tget d k (tset k x t) = x := by
  induction t with
  | nil => simp [tset, tget]
  | cons p t ih =>
    obtain ⟨j, y⟩ := p
    unfold tset
    by_cases h : j = k
    · simp [h, tget]
    · by_cases h2 : k < j
      · simp [h, h2, tget]
      · simp [h, h2, tget, ih]

theorem tget_tset_other {α : Type} (d x : α) {k n : Nat} (h : n ≠ k) (t : Table α) : tget d n (tset k x t) = tget d n t := by
  induction t with
  | nil => simp [tset, tget, Ne.symm h]
  | cons p t ih =>
    obtain ⟨j, y⟩ := p
    unfold tset
    by_cases h1 : j = k
    · subst h1
      simp [tget, Ne.symm h]
    · by_cases h2 : k < j
      · simp [h1, h2, tget, Ne.symm h]
      · simp [h1, h2, tget, ih]

/-! ## Ply.setPath -/

@[simp] theorem Ply.setPath_uid (p : Ply) (k : Nat) (q : Path) : (Ply.setPath p k q).uid = p.uid := by
  unfold Ply.setPath
  split <;> rfl
@[simp] theorem Ply.setPath_core (p : Ply) (k : Nat) (q : Path) : (Ply.setPath p k q).core = p.core := by
  unfold Ply.setPath
  split <;> rfl
@[simp] theorem Ply.setPath_pipe (p : Ply) (k : Nat) (q : Path) : (Ply.setPath p k q).pipe = p.pipe := by
  unfold Ply.setPath
  split <;> rfl
@[simp] theorem Ply.setPath_age (p : Ply) (k : Nat) (q : Path) : (Ply.setPath p k q).age = p.age := by
  unfold Ply.setPath
  split <;> rfl
@[simp] theorem Ply.setPath_plyid (p : Ply) (k : Nat) (q : Path) : (Ply.setPath p k q).plyid = p.plyid := by
  unfold Ply.setPath
  split <;> rfl
@[simp] theorem Ply.setPath_tenant (p : Ply) (k : Nat) (q : Path) : (Ply.setPath p k q).tenant = p.tenant := by
  unfold Ply.setPath
  split <;> rfl
@[simp] theorem Ply.setPath_role (p : Ply) (k : Nat) (q : Path) : (Ply.setPath p k q).role = p.role := by
  unfold Ply.setPath
  split <;> rfl
@[simp] theorem Ply.setPath_gangsize (p : Ply) (k : Nat) (q : Path) : (Ply.setPath p k q).gangsize = p.gangsize := by
  unfold Ply.setPath
  split <;> rfl
@[simp] theorem Ply.setPath_gang (p : Ply) (k : Nat) (q : Path) : (Ply.setPath p k q).gang = p.gang := by
  unfold Ply.setPath
  split <;> rfl
@[simp] theorem Ply.setPath_management (p : Ply) (k : Nat) (q : Path) : (Ply.setPath p k q).management = p.management := by
  unfold Ply.setPath
  split <;> rfl
@[simp] theorem Ply.setPath_header (p : Ply) (k : Nat) (q : Path) : (Ply.setPath p k q).header = p.header := by
  unfold Ply.setPath
  split <;> rfl
@[simp] theorem Ply.setPath_entry (p : Ply) (k : Nat) (q : Path) : (Ply.setPath p k q).entry = p.entry := by
  unfold Ply.setPath
  split <;> rfl
@[simp] theorem Ply.setPath_paint (p : Ply) (k : Nat) (q : Path) : (Ply.setPath p k q).paint = p.paint := by
  unfold Ply.setPath
  split <;> rfl
@[simp] theorem Ply.setPath_cls (p : Ply) (k : Nat) (q : Path) : (Ply.setPath p k q).cls = p.cls := by
  unfold Ply.setPath
  split <;> rfl
@[simp] theorem Ply.setPath_deadline (p : Ply) (k : Nat) (q : Path) : (Ply.setPath p k q).deadline = p.deadline := by
  unfold Ply.setPath
  split <;> rfl
@[simp] theorem Ply.setPath_charge (p : Ply) (k : Nat) (q : Path) : (Ply.setPath p k q).charge = p.charge := by
  unfold Ply.setPath
  split <;> rfl
@[simp] theorem Ply.setPath_demand (p : Ply) (k : Nat) (q : Path) : (Ply.setPath p k q).demand = p.demand := by
  unfold Ply.setPath
  split <;> rfl
@[simp] theorem Ply.setPath_heat (p : Ply) (k : Nat) (q : Path) : (Ply.setPath p k q).heat = p.heat := by
  unfold Ply.setPath
  split <;> rfl
@[simp] theorem Ply.setPath_marked (p : Ply) (k : Nat) (q : Path) : (Ply.setPath p k q).marked = p.marked := by
  unfold Ply.setPath
  split <;> rfl
@[simp] theorem Ply.setPath_firing (p : Ply) (k : Nat) (q : Path) : (Ply.setPath p k q).firing = p.firing := by
  unfold Ply.setPath
  split <;> rfl
@[simp] theorem Ply.setPath_fixedCore (p : Ply) (k : Nat) (q : Path) : (Ply.setPath p k q).fixedCore = p.fixedCore := by
  unfold Ply.setPath
  split <;> rfl
@[simp] theorem Ply.setPath_group (p : Ply) (k : Nat) (q : Path) : (Ply.setPath p k q).group = p.group := by
  unfold Ply.setPath
  split <;> rfl
@[simp] theorem Ply.setPath_sregs (p : Ply) (k : Nat) (q : Path) : (Ply.setPath p k q).sregs = p.sregs := by
  unfold Ply.setPath
  split <;> rfl
@[simp] theorem Ply.setPath_vregs (p : Ply) (k : Nat) (q : Path) : (Ply.setPath p k q).vregs = p.vregs := by
  unfold Ply.setPath
  split <;> rfl
@[simp] theorem Ply.setPath_tiles (p : Ply) (k : Nat) (q : Path) : (Ply.setPath p k q).tiles = p.tiles := by
  unfold Ply.setPath
  split <;> rfl
@[simp] theorem Ply.setPath_latches (p : Ply) (k : Nat) (q : Path) : (Ply.setPath p k q).latches = p.latches := by
  unfold Ply.setPath
  split <;> rfl
@[simp] theorem Ply.setPath_slot (p : Ply) (k : Nat) (q : Path) : (Ply.setPath p k q).slot = p.slot := by
  unfold Ply.setPath
  split <;> rfl
@[simp] theorem Ply.setPath_running (p : Ply) (k : Nat) (q : Path) : (Ply.setPath p k q).running = p.running := by
  unfold Ply.setPath
  split <;> rfl
@[simp] theorem Ply.setPath_stalled (p : Ply) (k : Nat) (q : Path) : (Ply.setPath p k q).stalled = p.stalled := by
  unfold Ply.setPath
  split <;> rfl
@[simp] theorem Ply.setPath_resumes (p : Ply) (k : Nat) (q : Path) : (Ply.setPath p k q).resumes = p.resumes := by
  unfold Ply.setPath
  split <;> rfl
@[simp] theorem Ply.setPath_pos (p : Ply) (k : Nat) (q : Path) : (Ply.setPath p k q).pos = p.pos := by
  unfold Ply.setPath
  split <;> rfl
@[simp] theorem Ply.setPath_runSince (p : Ply) (k : Nat) (q : Path) : (Ply.setPath p k q).runSince = p.runSince := by
  unfold Ply.setPath
  split <;> rfl
@[simp] theorem Ply.setPath_dstack (p : Ply) (k : Nat) (q : Path) : (Ply.setPath p k q).dstack = p.dstack := by
  unfold Ply.setPath
  split <;> rfl
@[simp] theorem Ply.setPath_frames (p : Ply) (k : Nat) (q : Path) : (Ply.setPath p k q).frames = p.frames := by
  unfold Ply.setPath
  split <;> rfl
@[simp] theorem Ply.setPath_supervisor (p : Ply) (k : Nat) (q : Path) : (Ply.setPath p k q).supervisor = p.supervisor := by
  unfold Ply.setPath
  split <;> rfl
@[simp] theorem Ply.setPath_savedLatches (p : Ply) (k : Nat) (q : Path) : (Ply.setPath p k q).savedLatches = p.savedLatches := by
  unfold Ply.setPath
  split <;> rfl
@[simp] theorem Ply.setPath_trapSlot (p : Ply) (k : Nat) (q : Path) : (Ply.setPath p k q).trapSlot = p.trapSlot := by
  unfold Ply.setPath
  split <;> rfl
@[simp] theorem Ply.setPath_trapEpc (p : Ply) (k : Nat) (q : Path) : (Ply.setPath p k q).trapEpc = p.trapEpc := by
  unfold Ply.setPath
  split <;> rfl
@[simp] theorem Ply.setPath_trapErun (p : Ply) (k : Nat) (q : Path) : (Ply.setPath p k q).trapErun = p.trapErun := by
  unfold Ply.setPath
  split <;> rfl
@[simp] theorem Ply.setPath_trapTransfer (p : Ply) (k : Nat) (q : Path) : (Ply.setPath p k q).trapTransfer = p.trapTransfer := by
  unfold Ply.setPath
  split <;> rfl
@[simp] theorem Ply.setPath_occ (p : Ply) (k : Nat) (q : Path) : (Ply.setPath p k q).occ = p.occ := by
  unfold Ply.setPath
  split <;> rfl
@[simp] theorem Ply.setPath_fflags (p : Ply) (k : Nat) (q : Path) : (Ply.setPath p k q).fflags = p.fflags := by
  unfold Ply.setPath
  split <;> rfl
@[simp] theorem Ply.setPath_frnd (p : Ply) (k : Nat) (q : Path) : (Ply.setPath p k q).frnd = p.frnd := by
  unfold Ply.setPath
  split <;> rfl
@[simp] theorem Ply.setPath_yc (p : Ply) (k : Nat) (q : Path) : (Ply.setPath p k q).yc = p.yc := by
  unfold Ply.setPath
  split <;> rfl
@[simp] theorem Ply.setPath_ydl (p : Ply) (k : Nat) (q : Path) : (Ply.setPath p k q).ydl = p.ydl := by
  unfold Ply.setPath
  split <;> rfl
@[simp] theorem Ply.setPath_scope (p : Ply) (k : Nat) (q : Path) : (Ply.setPath p k q).scope = p.scope := by
  unfold Ply.setPath
  split <;> rfl
@[simp] theorem Ply.setPath_rpr (p : Ply) (k : Nat) (q : Path) : (Ply.setPath p k q).rpr = p.rpr := by
  unfold Ply.setPath
  split <;> rfl
@[simp] theorem Ply.setPath_pgw (p : Ply) (k : Nat) (q : Path) : (Ply.setPath p k q).pgw = p.pgw := by
  unfold Ply.setPath
  split <;> rfl
@[simp] theorem Ply.setPath_cnt (p : Ply) (k : Nat) (q : Path) : (Ply.setPath p k q).cnt = p.cnt := by
  unfold Ply.setPath
  split <;> rfl
@[simp] theorem Ply.setPath_flattol (p : Ply) (k : Nat) (q : Path) : (Ply.setPath p k q).flattol = p.flattol := by
  unfold Ply.setPath
  split <;> rfl
@[simp] theorem Ply.setPath_epc (p : Ply) (k : Nat) (q : Path) : (Ply.setPath p k q).epc = p.epc := by
  unfold Ply.setPath
  split <;> rfl
@[simp] theorem Ply.setPath_ecause (p : Ply) (k : Nat) (q : Path) : (Ply.setPath p k q).ecause = p.ecause := by
  unfold Ply.setPath
  split <;> rfl
@[simp] theorem Ply.setPath_eaddr (p : Ply) (k : Nat) (q : Path) : (Ply.setPath p k q).eaddr = p.eaddr := by
  unfold Ply.setPath
  split <;> rfl
@[simp] theorem Ply.setPath_elane (p : Ply) (k : Nat) (q : Path) : (Ply.setPath p k q).elane = p.elane := by
  unfold Ply.setPath
  split <;> rfl
@[simp] theorem Ply.setPath_erun (p : Ply) (k : Nat) (q : Path) : (Ply.setPath p k q).erun = p.erun := by
  unfold Ply.setPath
  split <;> rfl
@[simp] theorem Ply.setPath_tvec (p : Ply) (k : Nat) (q : Path) : (Ply.setPath p k q).tvec = p.tvec := by
  unfold Ply.setPath
  split <;> rfl
@[simp] theorem Ply.setPath_ssave (p : Ply) (k : Nat) (q : Path) : (Ply.setPath p k q).ssave = p.ssave := by
  unfold Ply.setPath
  split <;> rfl
@[simp] theorem Ply.setPath_lanes (p : Ply) (k : Nat) (q : Path) : (Ply.setPath p k q).lanes = p.lanes := by
  unfold Ply.setPath
  split <;> rfl
@[simp] theorem Ply.setPath_windowBase (p : Ply) (k : Nat) (q : Path) : (Ply.setPath p k q).windowBase = p.windowBase := by
  unfold Ply.setPath
  split <;> rfl
@[simp] theorem Ply.setPath_windowSize (p : Ply) (k : Nat) (q : Path) : (Ply.setPath p k q).windowSize = p.windowSize := by
  unfold Ply.setPath
  split <;> rfl
@[simp] theorem Ply.setPath_lsq (p : Ply) (k : Nat) (q : Path) : (Ply.setPath p k q).lsq = p.lsq := by
  unfold Ply.setPath
  split <;> rfl
@[simp] theorem Ply.setPath_hubq (p : Ply) (k : Nat) (q : Path) : (Ply.setPath p k q).hubq = p.hubq := by
  unfold Ply.setPath
  split <;> rfl
@[simp] theorem Ply.setPath_failures (p : Ply) (k : Nat) (q : Path) : (Ply.setPath p k q).failures = p.failures := by
  unfold Ply.setPath
  split <;> rfl
@[simp] theorem Ply.setPath_ctx (p : Ply) (k : Nat) (q : Path) : (Ply.setPath p k q).ctx = p.ctx := by
  unfold Ply.setPath
  split <;> rfl
@[simp] theorem Ply.setPath_stxOld (p : Ply) (k : Nat) (q : Path) : (Ply.setPath p k q).stxOld = p.stxOld := by
  unfold Ply.setPath
  split <;> rfl
@[simp] theorem Ply.setPath_cgw (p : Ply) (k : Nat) (q : Path) : (Ply.setPath p k q).cgw = p.cgw := by
  unfold Ply.setPath
  split <;> rfl

/-! ## Ply.setCur -/

@[simp] theorem Ply.setCur_uid (p : Ply) (q : Path) : (Ply.setCur p q).uid = p.uid := Ply.setPath_uid ..
@[simp] theorem Ply.setCur_core (p : Ply) (q : Path) : (Ply.setCur p q).core = p.core := Ply.setPath_core ..
@[simp] theorem Ply.setCur_pipe (p : Ply) (q : Path) : (Ply.setCur p q).pipe = p.pipe := Ply.setPath_pipe ..
@[simp] theorem Ply.setCur_age (p : Ply) (q : Path) : (Ply.setCur p q).age = p.age := Ply.setPath_age ..
@[simp] theorem Ply.setCur_plyid (p : Ply) (q : Path) : (Ply.setCur p q).plyid = p.plyid := Ply.setPath_plyid ..
@[simp] theorem Ply.setCur_tenant (p : Ply) (q : Path) : (Ply.setCur p q).tenant = p.tenant := Ply.setPath_tenant ..
@[simp] theorem Ply.setCur_role (p : Ply) (q : Path) : (Ply.setCur p q).role = p.role := Ply.setPath_role ..
@[simp] theorem Ply.setCur_gangsize (p : Ply) (q : Path) : (Ply.setCur p q).gangsize = p.gangsize := Ply.setPath_gangsize ..
@[simp] theorem Ply.setCur_gang (p : Ply) (q : Path) : (Ply.setCur p q).gang = p.gang := Ply.setPath_gang ..
@[simp] theorem Ply.setCur_management (p : Ply) (q : Path) : (Ply.setCur p q).management = p.management := Ply.setPath_management ..
@[simp] theorem Ply.setCur_header (p : Ply) (q : Path) : (Ply.setCur p q).header = p.header := Ply.setPath_header ..
@[simp] theorem Ply.setCur_entry (p : Ply) (q : Path) : (Ply.setCur p q).entry = p.entry := Ply.setPath_entry ..
@[simp] theorem Ply.setCur_paint (p : Ply) (q : Path) : (Ply.setCur p q).paint = p.paint := Ply.setPath_paint ..
@[simp] theorem Ply.setCur_cls (p : Ply) (q : Path) : (Ply.setCur p q).cls = p.cls := Ply.setPath_cls ..
@[simp] theorem Ply.setCur_deadline (p : Ply) (q : Path) : (Ply.setCur p q).deadline = p.deadline := Ply.setPath_deadline ..
@[simp] theorem Ply.setCur_charge (p : Ply) (q : Path) : (Ply.setCur p q).charge = p.charge := Ply.setPath_charge ..
@[simp] theorem Ply.setCur_demand (p : Ply) (q : Path) : (Ply.setCur p q).demand = p.demand := Ply.setPath_demand ..
@[simp] theorem Ply.setCur_heat (p : Ply) (q : Path) : (Ply.setCur p q).heat = p.heat := Ply.setPath_heat ..
@[simp] theorem Ply.setCur_marked (p : Ply) (q : Path) : (Ply.setCur p q).marked = p.marked := Ply.setPath_marked ..
@[simp] theorem Ply.setCur_firing (p : Ply) (q : Path) : (Ply.setCur p q).firing = p.firing := Ply.setPath_firing ..
@[simp] theorem Ply.setCur_fixedCore (p : Ply) (q : Path) : (Ply.setCur p q).fixedCore = p.fixedCore := Ply.setPath_fixedCore ..
@[simp] theorem Ply.setCur_group (p : Ply) (q : Path) : (Ply.setCur p q).group = p.group := Ply.setPath_group ..
@[simp] theorem Ply.setCur_sregs (p : Ply) (q : Path) : (Ply.setCur p q).sregs = p.sregs := Ply.setPath_sregs ..
@[simp] theorem Ply.setCur_vregs (p : Ply) (q : Path) : (Ply.setCur p q).vregs = p.vregs := Ply.setPath_vregs ..
@[simp] theorem Ply.setCur_tiles (p : Ply) (q : Path) : (Ply.setCur p q).tiles = p.tiles := Ply.setPath_tiles ..
@[simp] theorem Ply.setCur_latches (p : Ply) (q : Path) : (Ply.setCur p q).latches = p.latches := Ply.setPath_latches ..
@[simp] theorem Ply.setCur_slot (p : Ply) (q : Path) : (Ply.setCur p q).slot = p.slot := Ply.setPath_slot ..
@[simp] theorem Ply.setCur_running (p : Ply) (q : Path) : (Ply.setCur p q).running = p.running := Ply.setPath_running ..
@[simp] theorem Ply.setCur_stalled (p : Ply) (q : Path) : (Ply.setCur p q).stalled = p.stalled := Ply.setPath_stalled ..
@[simp] theorem Ply.setCur_resumes (p : Ply) (q : Path) : (Ply.setCur p q).resumes = p.resumes := Ply.setPath_resumes ..
@[simp] theorem Ply.setCur_pos (p : Ply) (q : Path) : (Ply.setCur p q).pos = p.pos := Ply.setPath_pos ..
@[simp] theorem Ply.setCur_runSince (p : Ply) (q : Path) : (Ply.setCur p q).runSince = p.runSince := Ply.setPath_runSince ..
@[simp] theorem Ply.setCur_dstack (p : Ply) (q : Path) : (Ply.setCur p q).dstack = p.dstack := Ply.setPath_dstack ..
@[simp] theorem Ply.setCur_frames (p : Ply) (q : Path) : (Ply.setCur p q).frames = p.frames := Ply.setPath_frames ..
@[simp] theorem Ply.setCur_supervisor (p : Ply) (q : Path) : (Ply.setCur p q).supervisor = p.supervisor := Ply.setPath_supervisor ..
@[simp] theorem Ply.setCur_savedLatches (p : Ply) (q : Path) : (Ply.setCur p q).savedLatches = p.savedLatches := Ply.setPath_savedLatches ..
@[simp] theorem Ply.setCur_trapSlot (p : Ply) (q : Path) : (Ply.setCur p q).trapSlot = p.trapSlot := Ply.setPath_trapSlot ..
@[simp] theorem Ply.setCur_trapEpc (p : Ply) (q : Path) : (Ply.setCur p q).trapEpc = p.trapEpc := Ply.setPath_trapEpc ..
@[simp] theorem Ply.setCur_trapErun (p : Ply) (q : Path) : (Ply.setCur p q).trapErun = p.trapErun := Ply.setPath_trapErun ..
@[simp] theorem Ply.setCur_trapTransfer (p : Ply) (q : Path) : (Ply.setCur p q).trapTransfer = p.trapTransfer := Ply.setPath_trapTransfer ..
@[simp] theorem Ply.setCur_occ (p : Ply) (q : Path) : (Ply.setCur p q).occ = p.occ := Ply.setPath_occ ..
@[simp] theorem Ply.setCur_fflags (p : Ply) (q : Path) : (Ply.setCur p q).fflags = p.fflags := Ply.setPath_fflags ..
@[simp] theorem Ply.setCur_frnd (p : Ply) (q : Path) : (Ply.setCur p q).frnd = p.frnd := Ply.setPath_frnd ..
@[simp] theorem Ply.setCur_yc (p : Ply) (q : Path) : (Ply.setCur p q).yc = p.yc := Ply.setPath_yc ..
@[simp] theorem Ply.setCur_ydl (p : Ply) (q : Path) : (Ply.setCur p q).ydl = p.ydl := Ply.setPath_ydl ..
@[simp] theorem Ply.setCur_scope (p : Ply) (q : Path) : (Ply.setCur p q).scope = p.scope := Ply.setPath_scope ..
@[simp] theorem Ply.setCur_rpr (p : Ply) (q : Path) : (Ply.setCur p q).rpr = p.rpr := Ply.setPath_rpr ..
@[simp] theorem Ply.setCur_pgw (p : Ply) (q : Path) : (Ply.setCur p q).pgw = p.pgw := Ply.setPath_pgw ..
@[simp] theorem Ply.setCur_cnt (p : Ply) (q : Path) : (Ply.setCur p q).cnt = p.cnt := Ply.setPath_cnt ..
@[simp] theorem Ply.setCur_flattol (p : Ply) (q : Path) : (Ply.setCur p q).flattol = p.flattol := Ply.setPath_flattol ..
@[simp] theorem Ply.setCur_epc (p : Ply) (q : Path) : (Ply.setCur p q).epc = p.epc := Ply.setPath_epc ..
@[simp] theorem Ply.setCur_ecause (p : Ply) (q : Path) : (Ply.setCur p q).ecause = p.ecause := Ply.setPath_ecause ..
@[simp] theorem Ply.setCur_eaddr (p : Ply) (q : Path) : (Ply.setCur p q).eaddr = p.eaddr := Ply.setPath_eaddr ..
@[simp] theorem Ply.setCur_elane (p : Ply) (q : Path) : (Ply.setCur p q).elane = p.elane := Ply.setPath_elane ..
@[simp] theorem Ply.setCur_erun (p : Ply) (q : Path) : (Ply.setCur p q).erun = p.erun := Ply.setPath_erun ..
@[simp] theorem Ply.setCur_tvec (p : Ply) (q : Path) : (Ply.setCur p q).tvec = p.tvec := Ply.setPath_tvec ..
@[simp] theorem Ply.setCur_ssave (p : Ply) (q : Path) : (Ply.setCur p q).ssave = p.ssave := Ply.setPath_ssave ..
@[simp] theorem Ply.setCur_lanes (p : Ply) (q : Path) : (Ply.setCur p q).lanes = p.lanes := Ply.setPath_lanes ..
@[simp] theorem Ply.setCur_windowBase (p : Ply) (q : Path) : (Ply.setCur p q).windowBase = p.windowBase := Ply.setPath_windowBase ..
@[simp] theorem Ply.setCur_windowSize (p : Ply) (q : Path) : (Ply.setCur p q).windowSize = p.windowSize := Ply.setPath_windowSize ..
@[simp] theorem Ply.setCur_lsq (p : Ply) (q : Path) : (Ply.setCur p q).lsq = p.lsq := Ply.setPath_lsq ..
@[simp] theorem Ply.setCur_hubq (p : Ply) (q : Path) : (Ply.setCur p q).hubq = p.hubq := Ply.setPath_hubq ..
@[simp] theorem Ply.setCur_failures (p : Ply) (q : Path) : (Ply.setCur p q).failures = p.failures := Ply.setPath_failures ..
@[simp] theorem Ply.setCur_ctx (p : Ply) (q : Path) : (Ply.setCur p q).ctx = p.ctx := Ply.setPath_ctx ..
@[simp] theorem Ply.setCur_stxOld (p : Ply) (q : Path) : (Ply.setCur p q).stxOld = p.stxOld := Ply.setPath_stxOld ..
@[simp] theorem Ply.setCur_cgw (p : Ply) (q : Path) : (Ply.setCur p q).cgw = p.cgw := Ply.setPath_cgw ..

/-! ## Ply.advance -/

@[simp] theorem Ply.advance_uid (p : Ply) (i : Issue) : (Ply.advance p i).uid = p.uid := Ply.setCur_uid ..
@[simp] theorem Ply.advance_core (p : Ply) (i : Issue) : (Ply.advance p i).core = p.core := Ply.setCur_core ..
@[simp] theorem Ply.advance_pipe (p : Ply) (i : Issue) : (Ply.advance p i).pipe = p.pipe := Ply.setCur_pipe ..
@[simp] theorem Ply.advance_age (p : Ply) (i : Issue) : (Ply.advance p i).age = p.age := Ply.setCur_age ..
@[simp] theorem Ply.advance_plyid (p : Ply) (i : Issue) : (Ply.advance p i).plyid = p.plyid := Ply.setCur_plyid ..
@[simp] theorem Ply.advance_tenant (p : Ply) (i : Issue) : (Ply.advance p i).tenant = p.tenant := Ply.setCur_tenant ..
@[simp] theorem Ply.advance_role (p : Ply) (i : Issue) : (Ply.advance p i).role = p.role := Ply.setCur_role ..
@[simp] theorem Ply.advance_gangsize (p : Ply) (i : Issue) : (Ply.advance p i).gangsize = p.gangsize := Ply.setCur_gangsize ..
@[simp] theorem Ply.advance_gang (p : Ply) (i : Issue) : (Ply.advance p i).gang = p.gang := Ply.setCur_gang ..
@[simp] theorem Ply.advance_management (p : Ply) (i : Issue) : (Ply.advance p i).management = p.management := Ply.setCur_management ..
@[simp] theorem Ply.advance_header (p : Ply) (i : Issue) : (Ply.advance p i).header = p.header := Ply.setCur_header ..
@[simp] theorem Ply.advance_entry (p : Ply) (i : Issue) : (Ply.advance p i).entry = p.entry := Ply.setCur_entry ..
@[simp] theorem Ply.advance_paint (p : Ply) (i : Issue) : (Ply.advance p i).paint = p.paint := Ply.setCur_paint ..
@[simp] theorem Ply.advance_cls (p : Ply) (i : Issue) : (Ply.advance p i).cls = p.cls := Ply.setCur_cls ..
@[simp] theorem Ply.advance_deadline (p : Ply) (i : Issue) : (Ply.advance p i).deadline = p.deadline := Ply.setCur_deadline ..
@[simp] theorem Ply.advance_charge (p : Ply) (i : Issue) : (Ply.advance p i).charge = p.charge := Ply.setCur_charge ..
@[simp] theorem Ply.advance_demand (p : Ply) (i : Issue) : (Ply.advance p i).demand = p.demand := Ply.setCur_demand ..
@[simp] theorem Ply.advance_heat (p : Ply) (i : Issue) : (Ply.advance p i).heat = p.heat := Ply.setCur_heat ..
@[simp] theorem Ply.advance_marked (p : Ply) (i : Issue) : (Ply.advance p i).marked = p.marked := Ply.setCur_marked ..
@[simp] theorem Ply.advance_firing (p : Ply) (i : Issue) : (Ply.advance p i).firing = p.firing := Ply.setCur_firing ..
@[simp] theorem Ply.advance_fixedCore (p : Ply) (i : Issue) : (Ply.advance p i).fixedCore = p.fixedCore := Ply.setCur_fixedCore ..
@[simp] theorem Ply.advance_group (p : Ply) (i : Issue) : (Ply.advance p i).group = p.group := Ply.setCur_group ..
@[simp] theorem Ply.advance_sregs (p : Ply) (i : Issue) : (Ply.advance p i).sregs = p.sregs := Ply.setCur_sregs ..
@[simp] theorem Ply.advance_vregs (p : Ply) (i : Issue) : (Ply.advance p i).vregs = p.vregs := Ply.setCur_vregs ..
@[simp] theorem Ply.advance_tiles (p : Ply) (i : Issue) : (Ply.advance p i).tiles = p.tiles := Ply.setCur_tiles ..
@[simp] theorem Ply.advance_latches (p : Ply) (i : Issue) : (Ply.advance p i).latches = p.latches := Ply.setCur_latches ..
@[simp] theorem Ply.advance_slot (p : Ply) (i : Issue) : (Ply.advance p i).slot = p.slot := Ply.setCur_slot ..
@[simp] theorem Ply.advance_running (p : Ply) (i : Issue) : (Ply.advance p i).running = p.running := Ply.setCur_running ..
@[simp] theorem Ply.advance_stalled (p : Ply) (i : Issue) : (Ply.advance p i).stalled = p.stalled := Ply.setCur_stalled ..
@[simp] theorem Ply.advance_resumes (p : Ply) (i : Issue) : (Ply.advance p i).resumes = p.resumes := Ply.setCur_resumes ..
@[simp] theorem Ply.advance_runSince (p : Ply) (i : Issue) : (Ply.advance p i).runSince = p.runSince := Ply.setCur_runSince ..
@[simp] theorem Ply.advance_dstack (p : Ply) (i : Issue) : (Ply.advance p i).dstack = p.dstack := Ply.setCur_dstack ..
@[simp] theorem Ply.advance_frames (p : Ply) (i : Issue) : (Ply.advance p i).frames = p.frames := Ply.setCur_frames ..
@[simp] theorem Ply.advance_supervisor (p : Ply) (i : Issue) : (Ply.advance p i).supervisor = p.supervisor := Ply.setCur_supervisor ..
@[simp] theorem Ply.advance_savedLatches (p : Ply) (i : Issue) : (Ply.advance p i).savedLatches = p.savedLatches := Ply.setCur_savedLatches ..
@[simp] theorem Ply.advance_trapSlot (p : Ply) (i : Issue) : (Ply.advance p i).trapSlot = p.trapSlot := Ply.setCur_trapSlot ..
@[simp] theorem Ply.advance_trapEpc (p : Ply) (i : Issue) : (Ply.advance p i).trapEpc = p.trapEpc := Ply.setCur_trapEpc ..
@[simp] theorem Ply.advance_trapErun (p : Ply) (i : Issue) : (Ply.advance p i).trapErun = p.trapErun := Ply.setCur_trapErun ..
@[simp] theorem Ply.advance_trapTransfer (p : Ply) (i : Issue) : (Ply.advance p i).trapTransfer = p.trapTransfer := Ply.setCur_trapTransfer ..
@[simp] theorem Ply.advance_occ (p : Ply) (i : Issue) : (Ply.advance p i).occ = p.occ := Ply.setCur_occ ..
@[simp] theorem Ply.advance_fflags (p : Ply) (i : Issue) : (Ply.advance p i).fflags = p.fflags := Ply.setCur_fflags ..
@[simp] theorem Ply.advance_frnd (p : Ply) (i : Issue) : (Ply.advance p i).frnd = p.frnd := Ply.setCur_frnd ..
@[simp] theorem Ply.advance_ydl (p : Ply) (i : Issue) : (Ply.advance p i).ydl = p.ydl := Ply.setCur_ydl ..
@[simp] theorem Ply.advance_scope (p : Ply) (i : Issue) : (Ply.advance p i).scope = p.scope := Ply.setCur_scope ..
@[simp] theorem Ply.advance_rpr (p : Ply) (i : Issue) : (Ply.advance p i).rpr = p.rpr := Ply.setCur_rpr ..
@[simp] theorem Ply.advance_pgw (p : Ply) (i : Issue) : (Ply.advance p i).pgw = p.pgw := Ply.setCur_pgw ..
@[simp] theorem Ply.advance_cnt (p : Ply) (i : Issue) : (Ply.advance p i).cnt = p.cnt := Ply.setCur_cnt ..
@[simp] theorem Ply.advance_flattol (p : Ply) (i : Issue) : (Ply.advance p i).flattol = p.flattol := Ply.setCur_flattol ..
@[simp] theorem Ply.advance_epc (p : Ply) (i : Issue) : (Ply.advance p i).epc = p.epc := Ply.setCur_epc ..
@[simp] theorem Ply.advance_ecause (p : Ply) (i : Issue) : (Ply.advance p i).ecause = p.ecause := Ply.setCur_ecause ..
@[simp] theorem Ply.advance_eaddr (p : Ply) (i : Issue) : (Ply.advance p i).eaddr = p.eaddr := Ply.setCur_eaddr ..
@[simp] theorem Ply.advance_elane (p : Ply) (i : Issue) : (Ply.advance p i).elane = p.elane := Ply.setCur_elane ..
@[simp] theorem Ply.advance_erun (p : Ply) (i : Issue) : (Ply.advance p i).erun = p.erun := Ply.setCur_erun ..
@[simp] theorem Ply.advance_tvec (p : Ply) (i : Issue) : (Ply.advance p i).tvec = p.tvec := Ply.setCur_tvec ..
@[simp] theorem Ply.advance_ssave (p : Ply) (i : Issue) : (Ply.advance p i).ssave = p.ssave := Ply.setCur_ssave ..
@[simp] theorem Ply.advance_lanes (p : Ply) (i : Issue) : (Ply.advance p i).lanes = p.lanes := Ply.setCur_lanes ..
@[simp] theorem Ply.advance_windowBase (p : Ply) (i : Issue) : (Ply.advance p i).windowBase = p.windowBase := Ply.setCur_windowBase ..
@[simp] theorem Ply.advance_windowSize (p : Ply) (i : Issue) : (Ply.advance p i).windowSize = p.windowSize := Ply.setCur_windowSize ..
@[simp] theorem Ply.advance_lsq (p : Ply) (i : Issue) : (Ply.advance p i).lsq = p.lsq := Ply.setCur_lsq ..
@[simp] theorem Ply.advance_hubq (p : Ply) (i : Issue) : (Ply.advance p i).hubq = p.hubq := Ply.setCur_hubq ..
@[simp] theorem Ply.advance_failures (p : Ply) (i : Issue) : (Ply.advance p i).failures = p.failures := Ply.setCur_failures ..
@[simp] theorem Ply.advance_ctx (p : Ply) (i : Issue) : (Ply.advance p i).ctx = p.ctx := Ply.setCur_ctx ..
@[simp] theorem Ply.advance_stxOld (p : Ply) (i : Issue) : (Ply.advance p i).stxOld = p.stxOld := Ply.setCur_stxOld ..
@[simp] theorem Ply.advance_cgw (p : Ply) (i : Issue) : (Ply.advance p i).cgw = p.cgw := Ply.setCur_cgw ..

/-! ## Ply.putS -/

@[simp] theorem Ply.putS_uid (p : Ply) (k : Nat) (d : BitVec 6) (w : Word) : (Ply.putS p k d w).uid = p.uid := by
  unfold Ply.putS
  split
  · rfl
  · split
    · exact Ply.setPath_uid ..
    · rfl
@[simp] theorem Ply.putS_core (p : Ply) (k : Nat) (d : BitVec 6) (w : Word) : (Ply.putS p k d w).core = p.core := by
  unfold Ply.putS
  split
  · rfl
  · split
    · exact Ply.setPath_core ..
    · rfl
@[simp] theorem Ply.putS_pipe (p : Ply) (k : Nat) (d : BitVec 6) (w : Word) : (Ply.putS p k d w).pipe = p.pipe := by
  unfold Ply.putS
  split
  · rfl
  · split
    · exact Ply.setPath_pipe ..
    · rfl
@[simp] theorem Ply.putS_age (p : Ply) (k : Nat) (d : BitVec 6) (w : Word) : (Ply.putS p k d w).age = p.age := by
  unfold Ply.putS
  split
  · rfl
  · split
    · exact Ply.setPath_age ..
    · rfl
@[simp] theorem Ply.putS_plyid (p : Ply) (k : Nat) (d : BitVec 6) (w : Word) : (Ply.putS p k d w).plyid = p.plyid := by
  unfold Ply.putS
  split
  · rfl
  · split
    · exact Ply.setPath_plyid ..
    · rfl
@[simp] theorem Ply.putS_tenant (p : Ply) (k : Nat) (d : BitVec 6) (w : Word) : (Ply.putS p k d w).tenant = p.tenant := by
  unfold Ply.putS
  split
  · rfl
  · split
    · exact Ply.setPath_tenant ..
    · rfl
@[simp] theorem Ply.putS_role (p : Ply) (k : Nat) (d : BitVec 6) (w : Word) : (Ply.putS p k d w).role = p.role := by
  unfold Ply.putS
  split
  · rfl
  · split
    · exact Ply.setPath_role ..
    · rfl
@[simp] theorem Ply.putS_gangsize (p : Ply) (k : Nat) (d : BitVec 6) (w : Word) : (Ply.putS p k d w).gangsize = p.gangsize := by
  unfold Ply.putS
  split
  · rfl
  · split
    · exact Ply.setPath_gangsize ..
    · rfl
@[simp] theorem Ply.putS_gang (p : Ply) (k : Nat) (d : BitVec 6) (w : Word) : (Ply.putS p k d w).gang = p.gang := by
  unfold Ply.putS
  split
  · rfl
  · split
    · exact Ply.setPath_gang ..
    · rfl
@[simp] theorem Ply.putS_management (p : Ply) (k : Nat) (d : BitVec 6) (w : Word) : (Ply.putS p k d w).management = p.management := by
  unfold Ply.putS
  split
  · rfl
  · split
    · exact Ply.setPath_management ..
    · rfl
@[simp] theorem Ply.putS_header (p : Ply) (k : Nat) (d : BitVec 6) (w : Word) : (Ply.putS p k d w).header = p.header := by
  unfold Ply.putS
  split
  · rfl
  · split
    · exact Ply.setPath_header ..
    · rfl
@[simp] theorem Ply.putS_entry (p : Ply) (k : Nat) (d : BitVec 6) (w : Word) : (Ply.putS p k d w).entry = p.entry := by
  unfold Ply.putS
  split
  · rfl
  · split
    · exact Ply.setPath_entry ..
    · rfl
@[simp] theorem Ply.putS_paint (p : Ply) (k : Nat) (d : BitVec 6) (w : Word) : (Ply.putS p k d w).paint = p.paint := by
  unfold Ply.putS
  split
  · rfl
  · split
    · exact Ply.setPath_paint ..
    · rfl
@[simp] theorem Ply.putS_cls (p : Ply) (k : Nat) (d : BitVec 6) (w : Word) : (Ply.putS p k d w).cls = p.cls := by
  unfold Ply.putS
  split
  · rfl
  · split
    · exact Ply.setPath_cls ..
    · rfl
@[simp] theorem Ply.putS_deadline (p : Ply) (k : Nat) (d : BitVec 6) (w : Word) : (Ply.putS p k d w).deadline = p.deadline := by
  unfold Ply.putS
  split
  · rfl
  · split
    · exact Ply.setPath_deadline ..
    · rfl
@[simp] theorem Ply.putS_charge (p : Ply) (k : Nat) (d : BitVec 6) (w : Word) : (Ply.putS p k d w).charge = p.charge := by
  unfold Ply.putS
  split
  · rfl
  · split
    · exact Ply.setPath_charge ..
    · rfl
@[simp] theorem Ply.putS_demand (p : Ply) (k : Nat) (d : BitVec 6) (w : Word) : (Ply.putS p k d w).demand = p.demand := by
  unfold Ply.putS
  split
  · rfl
  · split
    · exact Ply.setPath_demand ..
    · rfl
@[simp] theorem Ply.putS_heat (p : Ply) (k : Nat) (d : BitVec 6) (w : Word) : (Ply.putS p k d w).heat = p.heat := by
  unfold Ply.putS
  split
  · rfl
  · split
    · exact Ply.setPath_heat ..
    · rfl
@[simp] theorem Ply.putS_marked (p : Ply) (k : Nat) (d : BitVec 6) (w : Word) : (Ply.putS p k d w).marked = p.marked := by
  unfold Ply.putS
  split
  · rfl
  · split
    · exact Ply.setPath_marked ..
    · rfl
@[simp] theorem Ply.putS_firing (p : Ply) (k : Nat) (d : BitVec 6) (w : Word) : (Ply.putS p k d w).firing = p.firing := by
  unfold Ply.putS
  split
  · rfl
  · split
    · exact Ply.setPath_firing ..
    · rfl
@[simp] theorem Ply.putS_fixedCore (p : Ply) (k : Nat) (d : BitVec 6) (w : Word) : (Ply.putS p k d w).fixedCore = p.fixedCore := by
  unfold Ply.putS
  split
  · rfl
  · split
    · exact Ply.setPath_fixedCore ..
    · rfl
@[simp] theorem Ply.putS_group (p : Ply) (k : Nat) (d : BitVec 6) (w : Word) : (Ply.putS p k d w).group = p.group := by
  unfold Ply.putS
  split
  · rfl
  · split
    · exact Ply.setPath_group ..
    · rfl
@[simp] theorem Ply.putS_vregs (p : Ply) (k : Nat) (d : BitVec 6) (w : Word) : (Ply.putS p k d w).vregs = p.vregs := by
  unfold Ply.putS
  split
  · rfl
  · split
    · exact Ply.setPath_vregs ..
    · rfl
@[simp] theorem Ply.putS_tiles (p : Ply) (k : Nat) (d : BitVec 6) (w : Word) : (Ply.putS p k d w).tiles = p.tiles := by
  unfold Ply.putS
  split
  · rfl
  · split
    · exact Ply.setPath_tiles ..
    · rfl
@[simp] theorem Ply.putS_latches (p : Ply) (k : Nat) (d : BitVec 6) (w : Word) : (Ply.putS p k d w).latches = p.latches := by
  unfold Ply.putS
  split
  · rfl
  · split
    · exact Ply.setPath_latches ..
    · rfl
@[simp] theorem Ply.putS_slot (p : Ply) (k : Nat) (d : BitVec 6) (w : Word) : (Ply.putS p k d w).slot = p.slot := by
  unfold Ply.putS
  split
  · rfl
  · split
    · exact Ply.setPath_slot ..
    · rfl
@[simp] theorem Ply.putS_running (p : Ply) (k : Nat) (d : BitVec 6) (w : Word) : (Ply.putS p k d w).running = p.running := by
  unfold Ply.putS
  split
  · rfl
  · split
    · exact Ply.setPath_running ..
    · rfl
@[simp] theorem Ply.putS_stalled (p : Ply) (k : Nat) (d : BitVec 6) (w : Word) : (Ply.putS p k d w).stalled = p.stalled := by
  unfold Ply.putS
  split
  · rfl
  · split
    · exact Ply.setPath_stalled ..
    · rfl
@[simp] theorem Ply.putS_resumes (p : Ply) (k : Nat) (d : BitVec 6) (w : Word) : (Ply.putS p k d w).resumes = p.resumes := by
  unfold Ply.putS
  split
  · rfl
  · split
    · exact Ply.setPath_resumes ..
    · rfl
@[simp] theorem Ply.putS_pos (p : Ply) (k : Nat) (d : BitVec 6) (w : Word) : (Ply.putS p k d w).pos = p.pos := by
  unfold Ply.putS
  split
  · rfl
  · split
    · exact Ply.setPath_pos ..
    · rfl
@[simp] theorem Ply.putS_runSince (p : Ply) (k : Nat) (d : BitVec 6) (w : Word) : (Ply.putS p k d w).runSince = p.runSince := by
  unfold Ply.putS
  split
  · rfl
  · split
    · exact Ply.setPath_runSince ..
    · rfl
@[simp] theorem Ply.putS_dstack (p : Ply) (k : Nat) (d : BitVec 6) (w : Word) : (Ply.putS p k d w).dstack = p.dstack := by
  unfold Ply.putS
  split
  · rfl
  · split
    · exact Ply.setPath_dstack ..
    · rfl
@[simp] theorem Ply.putS_frames (p : Ply) (k : Nat) (d : BitVec 6) (w : Word) : (Ply.putS p k d w).frames = p.frames := by
  unfold Ply.putS
  split
  · rfl
  · split
    · exact Ply.setPath_frames ..
    · rfl
@[simp] theorem Ply.putS_supervisor (p : Ply) (k : Nat) (d : BitVec 6) (w : Word) : (Ply.putS p k d w).supervisor = p.supervisor := by
  unfold Ply.putS
  split
  · rfl
  · split
    · exact Ply.setPath_supervisor ..
    · rfl
@[simp] theorem Ply.putS_savedLatches (p : Ply) (k : Nat) (d : BitVec 6) (w : Word) : (Ply.putS p k d w).savedLatches = p.savedLatches := by
  unfold Ply.putS
  split
  · rfl
  · split
    · exact Ply.setPath_savedLatches ..
    · rfl
@[simp] theorem Ply.putS_trapSlot (p : Ply) (k : Nat) (d : BitVec 6) (w : Word) : (Ply.putS p k d w).trapSlot = p.trapSlot := by
  unfold Ply.putS
  split
  · rfl
  · split
    · exact Ply.setPath_trapSlot ..
    · rfl
@[simp] theorem Ply.putS_trapEpc (p : Ply) (k : Nat) (d : BitVec 6) (w : Word) : (Ply.putS p k d w).trapEpc = p.trapEpc := by
  unfold Ply.putS
  split
  · rfl
  · split
    · exact Ply.setPath_trapEpc ..
    · rfl
@[simp] theorem Ply.putS_trapErun (p : Ply) (k : Nat) (d : BitVec 6) (w : Word) : (Ply.putS p k d w).trapErun = p.trapErun := by
  unfold Ply.putS
  split
  · rfl
  · split
    · exact Ply.setPath_trapErun ..
    · rfl
@[simp] theorem Ply.putS_trapTransfer (p : Ply) (k : Nat) (d : BitVec 6) (w : Word) : (Ply.putS p k d w).trapTransfer = p.trapTransfer := by
  unfold Ply.putS
  split
  · rfl
  · split
    · exact Ply.setPath_trapTransfer ..
    · rfl
@[simp] theorem Ply.putS_occ (p : Ply) (k : Nat) (d : BitVec 6) (w : Word) : (Ply.putS p k d w).occ = p.occ := by
  unfold Ply.putS
  split
  · rfl
  · split
    · exact Ply.setPath_occ ..
    · rfl
@[simp] theorem Ply.putS_fflags (p : Ply) (k : Nat) (d : BitVec 6) (w : Word) : (Ply.putS p k d w).fflags = p.fflags := by
  unfold Ply.putS
  split
  · rfl
  · split
    · exact Ply.setPath_fflags ..
    · rfl
@[simp] theorem Ply.putS_frnd (p : Ply) (k : Nat) (d : BitVec 6) (w : Word) : (Ply.putS p k d w).frnd = p.frnd := by
  unfold Ply.putS
  split
  · rfl
  · split
    · exact Ply.setPath_frnd ..
    · rfl
@[simp] theorem Ply.putS_yc (p : Ply) (k : Nat) (d : BitVec 6) (w : Word) : (Ply.putS p k d w).yc = p.yc := by
  unfold Ply.putS
  split
  · rfl
  · split
    · exact Ply.setPath_yc ..
    · rfl
@[simp] theorem Ply.putS_ydl (p : Ply) (k : Nat) (d : BitVec 6) (w : Word) : (Ply.putS p k d w).ydl = p.ydl := by
  unfold Ply.putS
  split
  · rfl
  · split
    · exact Ply.setPath_ydl ..
    · rfl
@[simp] theorem Ply.putS_scope (p : Ply) (k : Nat) (d : BitVec 6) (w : Word) : (Ply.putS p k d w).scope = p.scope := by
  unfold Ply.putS
  split
  · rfl
  · split
    · exact Ply.setPath_scope ..
    · rfl
@[simp] theorem Ply.putS_rpr (p : Ply) (k : Nat) (d : BitVec 6) (w : Word) : (Ply.putS p k d w).rpr = p.rpr := by
  unfold Ply.putS
  split
  · rfl
  · split
    · exact Ply.setPath_rpr ..
    · rfl
@[simp] theorem Ply.putS_pgw (p : Ply) (k : Nat) (d : BitVec 6) (w : Word) : (Ply.putS p k d w).pgw = p.pgw := by
  unfold Ply.putS
  split
  · rfl
  · split
    · exact Ply.setPath_pgw ..
    · rfl
@[simp] theorem Ply.putS_cnt (p : Ply) (k : Nat) (d : BitVec 6) (w : Word) : (Ply.putS p k d w).cnt = p.cnt := by
  unfold Ply.putS
  split
  · rfl
  · split
    · exact Ply.setPath_cnt ..
    · rfl
@[simp] theorem Ply.putS_flattol (p : Ply) (k : Nat) (d : BitVec 6) (w : Word) : (Ply.putS p k d w).flattol = p.flattol := by
  unfold Ply.putS
  split
  · rfl
  · split
    · exact Ply.setPath_flattol ..
    · rfl
@[simp] theorem Ply.putS_epc (p : Ply) (k : Nat) (d : BitVec 6) (w : Word) : (Ply.putS p k d w).epc = p.epc := by
  unfold Ply.putS
  split
  · rfl
  · split
    · exact Ply.setPath_epc ..
    · rfl
@[simp] theorem Ply.putS_ecause (p : Ply) (k : Nat) (d : BitVec 6) (w : Word) : (Ply.putS p k d w).ecause = p.ecause := by
  unfold Ply.putS
  split
  · rfl
  · split
    · exact Ply.setPath_ecause ..
    · rfl
@[simp] theorem Ply.putS_eaddr (p : Ply) (k : Nat) (d : BitVec 6) (w : Word) : (Ply.putS p k d w).eaddr = p.eaddr := by
  unfold Ply.putS
  split
  · rfl
  · split
    · exact Ply.setPath_eaddr ..
    · rfl
@[simp] theorem Ply.putS_elane (p : Ply) (k : Nat) (d : BitVec 6) (w : Word) : (Ply.putS p k d w).elane = p.elane := by
  unfold Ply.putS
  split
  · rfl
  · split
    · exact Ply.setPath_elane ..
    · rfl
@[simp] theorem Ply.putS_erun (p : Ply) (k : Nat) (d : BitVec 6) (w : Word) : (Ply.putS p k d w).erun = p.erun := by
  unfold Ply.putS
  split
  · rfl
  · split
    · exact Ply.setPath_erun ..
    · rfl
@[simp] theorem Ply.putS_tvec (p : Ply) (k : Nat) (d : BitVec 6) (w : Word) : (Ply.putS p k d w).tvec = p.tvec := by
  unfold Ply.putS
  split
  · rfl
  · split
    · exact Ply.setPath_tvec ..
    · rfl
@[simp] theorem Ply.putS_ssave (p : Ply) (k : Nat) (d : BitVec 6) (w : Word) : (Ply.putS p k d w).ssave = p.ssave := by
  unfold Ply.putS
  split
  · rfl
  · split
    · exact Ply.setPath_ssave ..
    · rfl
@[simp] theorem Ply.putS_lanes (p : Ply) (k : Nat) (d : BitVec 6) (w : Word) : (Ply.putS p k d w).lanes = p.lanes := by
  unfold Ply.putS
  split
  · rfl
  · split
    · exact Ply.setPath_lanes ..
    · rfl
@[simp] theorem Ply.putS_windowBase (p : Ply) (k : Nat) (d : BitVec 6) (w : Word) : (Ply.putS p k d w).windowBase = p.windowBase := by
  unfold Ply.putS
  split
  · rfl
  · split
    · exact Ply.setPath_windowBase ..
    · rfl
@[simp] theorem Ply.putS_windowSize (p : Ply) (k : Nat) (d : BitVec 6) (w : Word) : (Ply.putS p k d w).windowSize = p.windowSize := by
  unfold Ply.putS
  split
  · rfl
  · split
    · exact Ply.setPath_windowSize ..
    · rfl
@[simp] theorem Ply.putS_lsq (p : Ply) (k : Nat) (d : BitVec 6) (w : Word) : (Ply.putS p k d w).lsq = p.lsq := by
  unfold Ply.putS
  split
  · rfl
  · split
    · exact Ply.setPath_lsq ..
    · rfl
@[simp] theorem Ply.putS_hubq (p : Ply) (k : Nat) (d : BitVec 6) (w : Word) : (Ply.putS p k d w).hubq = p.hubq := by
  unfold Ply.putS
  split
  · rfl
  · split
    · exact Ply.setPath_hubq ..
    · rfl
@[simp] theorem Ply.putS_failures (p : Ply) (k : Nat) (d : BitVec 6) (w : Word) : (Ply.putS p k d w).failures = p.failures := by
  unfold Ply.putS
  split
  · rfl
  · split
    · exact Ply.setPath_failures ..
    · rfl
@[simp] theorem Ply.putS_ctx (p : Ply) (k : Nat) (d : BitVec 6) (w : Word) : (Ply.putS p k d w).ctx = p.ctx := by
  unfold Ply.putS
  split
  · rfl
  · split
    · exact Ply.setPath_ctx ..
    · rfl
@[simp] theorem Ply.putS_stxOld (p : Ply) (k : Nat) (d : BitVec 6) (w : Word) : (Ply.putS p k d w).stxOld = p.stxOld := by
  unfold Ply.putS
  split
  · rfl
  · split
    · exact Ply.setPath_stxOld ..
    · rfl
@[simp] theorem Ply.putS_cgw (p : Ply) (k : Nat) (d : BitVec 6) (w : Word) : (Ply.putS p k d w).cgw = p.cgw := by
  unfold Ply.putS
  split
  · rfl
  · split
    · exact Ply.setPath_cgw ..
    · rfl

/-! ## Ply.putV -/

@[simp] theorem Ply.putV_uid (p : Ply) (c : BitVec 7) (v : Lanes) : (Ply.putV p c v).uid = p.uid := by
  unfold Ply.putV
  split <;> rfl
@[simp] theorem Ply.putV_core (p : Ply) (c : BitVec 7) (v : Lanes) : (Ply.putV p c v).core = p.core := by
  unfold Ply.putV
  split <;> rfl
@[simp] theorem Ply.putV_pipe (p : Ply) (c : BitVec 7) (v : Lanes) : (Ply.putV p c v).pipe = p.pipe := by
  unfold Ply.putV
  split <;> rfl
@[simp] theorem Ply.putV_age (p : Ply) (c : BitVec 7) (v : Lanes) : (Ply.putV p c v).age = p.age := by
  unfold Ply.putV
  split <;> rfl
@[simp] theorem Ply.putV_plyid (p : Ply) (c : BitVec 7) (v : Lanes) : (Ply.putV p c v).plyid = p.plyid := by
  unfold Ply.putV
  split <;> rfl
@[simp] theorem Ply.putV_tenant (p : Ply) (c : BitVec 7) (v : Lanes) : (Ply.putV p c v).tenant = p.tenant := by
  unfold Ply.putV
  split <;> rfl
@[simp] theorem Ply.putV_role (p : Ply) (c : BitVec 7) (v : Lanes) : (Ply.putV p c v).role = p.role := by
  unfold Ply.putV
  split <;> rfl
@[simp] theorem Ply.putV_gangsize (p : Ply) (c : BitVec 7) (v : Lanes) : (Ply.putV p c v).gangsize = p.gangsize := by
  unfold Ply.putV
  split <;> rfl
@[simp] theorem Ply.putV_gang (p : Ply) (c : BitVec 7) (v : Lanes) : (Ply.putV p c v).gang = p.gang := by
  unfold Ply.putV
  split <;> rfl
@[simp] theorem Ply.putV_management (p : Ply) (c : BitVec 7) (v : Lanes) : (Ply.putV p c v).management = p.management := by
  unfold Ply.putV
  split <;> rfl
@[simp] theorem Ply.putV_header (p : Ply) (c : BitVec 7) (v : Lanes) : (Ply.putV p c v).header = p.header := by
  unfold Ply.putV
  split <;> rfl
@[simp] theorem Ply.putV_entry (p : Ply) (c : BitVec 7) (v : Lanes) : (Ply.putV p c v).entry = p.entry := by
  unfold Ply.putV
  split <;> rfl
@[simp] theorem Ply.putV_paint (p : Ply) (c : BitVec 7) (v : Lanes) : (Ply.putV p c v).paint = p.paint := by
  unfold Ply.putV
  split <;> rfl
@[simp] theorem Ply.putV_cls (p : Ply) (c : BitVec 7) (v : Lanes) : (Ply.putV p c v).cls = p.cls := by
  unfold Ply.putV
  split <;> rfl
@[simp] theorem Ply.putV_deadline (p : Ply) (c : BitVec 7) (v : Lanes) : (Ply.putV p c v).deadline = p.deadline := by
  unfold Ply.putV
  split <;> rfl
@[simp] theorem Ply.putV_charge (p : Ply) (c : BitVec 7) (v : Lanes) : (Ply.putV p c v).charge = p.charge := by
  unfold Ply.putV
  split <;> rfl
@[simp] theorem Ply.putV_demand (p : Ply) (c : BitVec 7) (v : Lanes) : (Ply.putV p c v).demand = p.demand := by
  unfold Ply.putV
  split <;> rfl
@[simp] theorem Ply.putV_heat (p : Ply) (c : BitVec 7) (v : Lanes) : (Ply.putV p c v).heat = p.heat := by
  unfold Ply.putV
  split <;> rfl
@[simp] theorem Ply.putV_marked (p : Ply) (c : BitVec 7) (v : Lanes) : (Ply.putV p c v).marked = p.marked := by
  unfold Ply.putV
  split <;> rfl
@[simp] theorem Ply.putV_firing (p : Ply) (c : BitVec 7) (v : Lanes) : (Ply.putV p c v).firing = p.firing := by
  unfold Ply.putV
  split <;> rfl
@[simp] theorem Ply.putV_fixedCore (p : Ply) (c : BitVec 7) (v : Lanes) : (Ply.putV p c v).fixedCore = p.fixedCore := by
  unfold Ply.putV
  split <;> rfl
@[simp] theorem Ply.putV_group (p : Ply) (c : BitVec 7) (v : Lanes) : (Ply.putV p c v).group = p.group := by
  unfold Ply.putV
  split <;> rfl
@[simp] theorem Ply.putV_sregs (p : Ply) (c : BitVec 7) (v : Lanes) : (Ply.putV p c v).sregs = p.sregs := by
  unfold Ply.putV
  split <;> rfl
@[simp] theorem Ply.putV_tiles (p : Ply) (c : BitVec 7) (v : Lanes) : (Ply.putV p c v).tiles = p.tiles := by
  unfold Ply.putV
  split <;> rfl
@[simp] theorem Ply.putV_latches (p : Ply) (c : BitVec 7) (v : Lanes) : (Ply.putV p c v).latches = p.latches := by
  unfold Ply.putV
  split <;> rfl
@[simp] theorem Ply.putV_path0 (p : Ply) (c : BitVec 7) (v : Lanes) : (Ply.putV p c v).path0 = p.path0 := by
  unfold Ply.putV
  split <;> rfl
@[simp] theorem Ply.putV_path1 (p : Ply) (c : BitVec 7) (v : Lanes) : (Ply.putV p c v).path1 = p.path1 := by
  unfold Ply.putV
  split <;> rfl
@[simp] theorem Ply.putV_slot (p : Ply) (c : BitVec 7) (v : Lanes) : (Ply.putV p c v).slot = p.slot := by
  unfold Ply.putV
  split <;> rfl
@[simp] theorem Ply.putV_running (p : Ply) (c : BitVec 7) (v : Lanes) : (Ply.putV p c v).running = p.running := by
  unfold Ply.putV
  split <;> rfl
@[simp] theorem Ply.putV_stalled (p : Ply) (c : BitVec 7) (v : Lanes) : (Ply.putV p c v).stalled = p.stalled := by
  unfold Ply.putV
  split <;> rfl
@[simp] theorem Ply.putV_resumes (p : Ply) (c : BitVec 7) (v : Lanes) : (Ply.putV p c v).resumes = p.resumes := by
  unfold Ply.putV
  split <;> rfl
@[simp] theorem Ply.putV_pos (p : Ply) (c : BitVec 7) (v : Lanes) : (Ply.putV p c v).pos = p.pos := by
  unfold Ply.putV
  split <;> rfl
@[simp] theorem Ply.putV_runSince (p : Ply) (c : BitVec 7) (v : Lanes) : (Ply.putV p c v).runSince = p.runSince := by
  unfold Ply.putV
  split <;> rfl
@[simp] theorem Ply.putV_dstack (p : Ply) (c : BitVec 7) (v : Lanes) : (Ply.putV p c v).dstack = p.dstack := by
  unfold Ply.putV
  split <;> rfl
@[simp] theorem Ply.putV_frames (p : Ply) (c : BitVec 7) (v : Lanes) : (Ply.putV p c v).frames = p.frames := by
  unfold Ply.putV
  split <;> rfl
@[simp] theorem Ply.putV_supervisor (p : Ply) (c : BitVec 7) (v : Lanes) : (Ply.putV p c v).supervisor = p.supervisor := by
  unfold Ply.putV
  split <;> rfl
@[simp] theorem Ply.putV_savedLatches (p : Ply) (c : BitVec 7) (v : Lanes) : (Ply.putV p c v).savedLatches = p.savedLatches := by
  unfold Ply.putV
  split <;> rfl
@[simp] theorem Ply.putV_trapSlot (p : Ply) (c : BitVec 7) (v : Lanes) : (Ply.putV p c v).trapSlot = p.trapSlot := by
  unfold Ply.putV
  split <;> rfl
@[simp] theorem Ply.putV_trapEpc (p : Ply) (c : BitVec 7) (v : Lanes) : (Ply.putV p c v).trapEpc = p.trapEpc := by
  unfold Ply.putV
  split <;> rfl
@[simp] theorem Ply.putV_trapErun (p : Ply) (c : BitVec 7) (v : Lanes) : (Ply.putV p c v).trapErun = p.trapErun := by
  unfold Ply.putV
  split <;> rfl
@[simp] theorem Ply.putV_trapTransfer (p : Ply) (c : BitVec 7) (v : Lanes) : (Ply.putV p c v).trapTransfer = p.trapTransfer := by
  unfold Ply.putV
  split <;> rfl
@[simp] theorem Ply.putV_occ (p : Ply) (c : BitVec 7) (v : Lanes) : (Ply.putV p c v).occ = p.occ := by
  unfold Ply.putV
  split <;> rfl
@[simp] theorem Ply.putV_fflags (p : Ply) (c : BitVec 7) (v : Lanes) : (Ply.putV p c v).fflags = p.fflags := by
  unfold Ply.putV
  split <;> rfl
@[simp] theorem Ply.putV_frnd (p : Ply) (c : BitVec 7) (v : Lanes) : (Ply.putV p c v).frnd = p.frnd := by
  unfold Ply.putV
  split <;> rfl
@[simp] theorem Ply.putV_yc (p : Ply) (c : BitVec 7) (v : Lanes) : (Ply.putV p c v).yc = p.yc := by
  unfold Ply.putV
  split <;> rfl
@[simp] theorem Ply.putV_ydl (p : Ply) (c : BitVec 7) (v : Lanes) : (Ply.putV p c v).ydl = p.ydl := by
  unfold Ply.putV
  split <;> rfl
@[simp] theorem Ply.putV_scope (p : Ply) (c : BitVec 7) (v : Lanes) : (Ply.putV p c v).scope = p.scope := by
  unfold Ply.putV
  split <;> rfl
@[simp] theorem Ply.putV_rpr (p : Ply) (c : BitVec 7) (v : Lanes) : (Ply.putV p c v).rpr = p.rpr := by
  unfold Ply.putV
  split <;> rfl
@[simp] theorem Ply.putV_pgw (p : Ply) (c : BitVec 7) (v : Lanes) : (Ply.putV p c v).pgw = p.pgw := by
  unfold Ply.putV
  split <;> rfl
@[simp] theorem Ply.putV_cnt (p : Ply) (c : BitVec 7) (v : Lanes) : (Ply.putV p c v).cnt = p.cnt := by
  unfold Ply.putV
  split <;> rfl
@[simp] theorem Ply.putV_flattol (p : Ply) (c : BitVec 7) (v : Lanes) : (Ply.putV p c v).flattol = p.flattol := by
  unfold Ply.putV
  split <;> rfl
@[simp] theorem Ply.putV_epc (p : Ply) (c : BitVec 7) (v : Lanes) : (Ply.putV p c v).epc = p.epc := by
  unfold Ply.putV
  split <;> rfl
@[simp] theorem Ply.putV_ecause (p : Ply) (c : BitVec 7) (v : Lanes) : (Ply.putV p c v).ecause = p.ecause := by
  unfold Ply.putV
  split <;> rfl
@[simp] theorem Ply.putV_eaddr (p : Ply) (c : BitVec 7) (v : Lanes) : (Ply.putV p c v).eaddr = p.eaddr := by
  unfold Ply.putV
  split <;> rfl
@[simp] theorem Ply.putV_elane (p : Ply) (c : BitVec 7) (v : Lanes) : (Ply.putV p c v).elane = p.elane := by
  unfold Ply.putV
  split <;> rfl
@[simp] theorem Ply.putV_erun (p : Ply) (c : BitVec 7) (v : Lanes) : (Ply.putV p c v).erun = p.erun := by
  unfold Ply.putV
  split <;> rfl
@[simp] theorem Ply.putV_tvec (p : Ply) (c : BitVec 7) (v : Lanes) : (Ply.putV p c v).tvec = p.tvec := by
  unfold Ply.putV
  split <;> rfl
@[simp] theorem Ply.putV_ssave (p : Ply) (c : BitVec 7) (v : Lanes) : (Ply.putV p c v).ssave = p.ssave := by
  unfold Ply.putV
  split <;> rfl
@[simp] theorem Ply.putV_lanes (p : Ply) (c : BitVec 7) (v : Lanes) : (Ply.putV p c v).lanes = p.lanes := by
  unfold Ply.putV
  split <;> rfl
@[simp] theorem Ply.putV_windowBase (p : Ply) (c : BitVec 7) (v : Lanes) : (Ply.putV p c v).windowBase = p.windowBase := by
  unfold Ply.putV
  split <;> rfl
@[simp] theorem Ply.putV_windowSize (p : Ply) (c : BitVec 7) (v : Lanes) : (Ply.putV p c v).windowSize = p.windowSize := by
  unfold Ply.putV
  split <;> rfl
@[simp] theorem Ply.putV_lsq (p : Ply) (c : BitVec 7) (v : Lanes) : (Ply.putV p c v).lsq = p.lsq := by
  unfold Ply.putV
  split <;> rfl
@[simp] theorem Ply.putV_hubq (p : Ply) (c : BitVec 7) (v : Lanes) : (Ply.putV p c v).hubq = p.hubq := by
  unfold Ply.putV
  split <;> rfl
@[simp] theorem Ply.putV_failures (p : Ply) (c : BitVec 7) (v : Lanes) : (Ply.putV p c v).failures = p.failures := by
  unfold Ply.putV
  split <;> rfl
@[simp] theorem Ply.putV_ctx (p : Ply) (c : BitVec 7) (v : Lanes) : (Ply.putV p c v).ctx = p.ctx := by
  unfold Ply.putV
  split <;> rfl
@[simp] theorem Ply.putV_stxOld (p : Ply) (c : BitVec 7) (v : Lanes) : (Ply.putV p c v).stxOld = p.stxOld := by
  unfold Ply.putV
  split <;> rfl
@[simp] theorem Ply.putV_cgw (p : Ply) (c : BitVec 7) (v : Lanes) : (Ply.putV p c v).cgw = p.cgw := by
  unfold Ply.putV
  split <;> rfl

/-! ## Ply.produce -/

@[simp] theorem Ply.produce_uid (p : Ply) (d : BitVec 7) (nw : BitVec 1) (v : Lanes) : (Ply.produce p d nw v).uid = p.uid := by
  unfold Ply.produce
  dsimp only
  split
  · rfl
  · exact Ply.putV_uid ..
@[simp] theorem Ply.produce_core (p : Ply) (d : BitVec 7) (nw : BitVec 1) (v : Lanes) : (Ply.produce p d nw v).core = p.core := by
  unfold Ply.produce
  dsimp only
  split
  · rfl
  · exact Ply.putV_core ..
@[simp] theorem Ply.produce_pipe (p : Ply) (d : BitVec 7) (nw : BitVec 1) (v : Lanes) : (Ply.produce p d nw v).pipe = p.pipe := by
  unfold Ply.produce
  dsimp only
  split
  · rfl
  · exact Ply.putV_pipe ..
@[simp] theorem Ply.produce_age (p : Ply) (d : BitVec 7) (nw : BitVec 1) (v : Lanes) : (Ply.produce p d nw v).age = p.age := by
  unfold Ply.produce
  dsimp only
  split
  · rfl
  · exact Ply.putV_age ..
@[simp] theorem Ply.produce_plyid (p : Ply) (d : BitVec 7) (nw : BitVec 1) (v : Lanes) : (Ply.produce p d nw v).plyid = p.plyid := by
  unfold Ply.produce
  dsimp only
  split
  · rfl
  · exact Ply.putV_plyid ..
@[simp] theorem Ply.produce_tenant (p : Ply) (d : BitVec 7) (nw : BitVec 1) (v : Lanes) : (Ply.produce p d nw v).tenant = p.tenant := by
  unfold Ply.produce
  dsimp only
  split
  · rfl
  · exact Ply.putV_tenant ..
@[simp] theorem Ply.produce_role (p : Ply) (d : BitVec 7) (nw : BitVec 1) (v : Lanes) : (Ply.produce p d nw v).role = p.role := by
  unfold Ply.produce
  dsimp only
  split
  · rfl
  · exact Ply.putV_role ..
@[simp] theorem Ply.produce_gangsize (p : Ply) (d : BitVec 7) (nw : BitVec 1) (v : Lanes) : (Ply.produce p d nw v).gangsize = p.gangsize := by
  unfold Ply.produce
  dsimp only
  split
  · rfl
  · exact Ply.putV_gangsize ..
@[simp] theorem Ply.produce_gang (p : Ply) (d : BitVec 7) (nw : BitVec 1) (v : Lanes) : (Ply.produce p d nw v).gang = p.gang := by
  unfold Ply.produce
  dsimp only
  split
  · rfl
  · exact Ply.putV_gang ..
@[simp] theorem Ply.produce_management (p : Ply) (d : BitVec 7) (nw : BitVec 1) (v : Lanes) : (Ply.produce p d nw v).management = p.management := by
  unfold Ply.produce
  dsimp only
  split
  · rfl
  · exact Ply.putV_management ..
@[simp] theorem Ply.produce_header (p : Ply) (d : BitVec 7) (nw : BitVec 1) (v : Lanes) : (Ply.produce p d nw v).header = p.header := by
  unfold Ply.produce
  dsimp only
  split
  · rfl
  · exact Ply.putV_header ..
@[simp] theorem Ply.produce_entry (p : Ply) (d : BitVec 7) (nw : BitVec 1) (v : Lanes) : (Ply.produce p d nw v).entry = p.entry := by
  unfold Ply.produce
  dsimp only
  split
  · rfl
  · exact Ply.putV_entry ..
@[simp] theorem Ply.produce_paint (p : Ply) (d : BitVec 7) (nw : BitVec 1) (v : Lanes) : (Ply.produce p d nw v).paint = p.paint := by
  unfold Ply.produce
  dsimp only
  split
  · rfl
  · exact Ply.putV_paint ..
@[simp] theorem Ply.produce_cls (p : Ply) (d : BitVec 7) (nw : BitVec 1) (v : Lanes) : (Ply.produce p d nw v).cls = p.cls := by
  unfold Ply.produce
  dsimp only
  split
  · rfl
  · exact Ply.putV_cls ..
@[simp] theorem Ply.produce_deadline (p : Ply) (d : BitVec 7) (nw : BitVec 1) (v : Lanes) : (Ply.produce p d nw v).deadline = p.deadline := by
  unfold Ply.produce
  dsimp only
  split
  · rfl
  · exact Ply.putV_deadline ..
@[simp] theorem Ply.produce_charge (p : Ply) (d : BitVec 7) (nw : BitVec 1) (v : Lanes) : (Ply.produce p d nw v).charge = p.charge := by
  unfold Ply.produce
  dsimp only
  split
  · rfl
  · exact Ply.putV_charge ..
@[simp] theorem Ply.produce_demand (p : Ply) (d : BitVec 7) (nw : BitVec 1) (v : Lanes) : (Ply.produce p d nw v).demand = p.demand := by
  unfold Ply.produce
  dsimp only
  split
  · rfl
  · exact Ply.putV_demand ..
@[simp] theorem Ply.produce_heat (p : Ply) (d : BitVec 7) (nw : BitVec 1) (v : Lanes) : (Ply.produce p d nw v).heat = p.heat := by
  unfold Ply.produce
  dsimp only
  split
  · rfl
  · exact Ply.putV_heat ..
@[simp] theorem Ply.produce_marked (p : Ply) (d : BitVec 7) (nw : BitVec 1) (v : Lanes) : (Ply.produce p d nw v).marked = p.marked := by
  unfold Ply.produce
  dsimp only
  split
  · rfl
  · exact Ply.putV_marked ..
@[simp] theorem Ply.produce_firing (p : Ply) (d : BitVec 7) (nw : BitVec 1) (v : Lanes) : (Ply.produce p d nw v).firing = p.firing := by
  unfold Ply.produce
  dsimp only
  split
  · rfl
  · exact Ply.putV_firing ..
@[simp] theorem Ply.produce_fixedCore (p : Ply) (d : BitVec 7) (nw : BitVec 1) (v : Lanes) : (Ply.produce p d nw v).fixedCore = p.fixedCore := by
  unfold Ply.produce
  dsimp only
  split
  · rfl
  · exact Ply.putV_fixedCore ..
@[simp] theorem Ply.produce_group (p : Ply) (d : BitVec 7) (nw : BitVec 1) (v : Lanes) : (Ply.produce p d nw v).group = p.group := by
  unfold Ply.produce
  dsimp only
  split
  · rfl
  · exact Ply.putV_group ..
@[simp] theorem Ply.produce_sregs (p : Ply) (d : BitVec 7) (nw : BitVec 1) (v : Lanes) : (Ply.produce p d nw v).sregs = p.sregs := by
  unfold Ply.produce
  dsimp only
  split
  · rfl
  · exact Ply.putV_sregs ..
@[simp] theorem Ply.produce_tiles (p : Ply) (d : BitVec 7) (nw : BitVec 1) (v : Lanes) : (Ply.produce p d nw v).tiles = p.tiles := by
  unfold Ply.produce
  dsimp only
  split
  · rfl
  · exact Ply.putV_tiles ..
@[simp] theorem Ply.produce_path0 (p : Ply) (d : BitVec 7) (nw : BitVec 1) (v : Lanes) : (Ply.produce p d nw v).path0 = p.path0 := by
  unfold Ply.produce
  dsimp only
  split
  · rfl
  · exact Ply.putV_path0 ..
@[simp] theorem Ply.produce_path1 (p : Ply) (d : BitVec 7) (nw : BitVec 1) (v : Lanes) : (Ply.produce p d nw v).path1 = p.path1 := by
  unfold Ply.produce
  dsimp only
  split
  · rfl
  · exact Ply.putV_path1 ..
@[simp] theorem Ply.produce_slot (p : Ply) (d : BitVec 7) (nw : BitVec 1) (v : Lanes) : (Ply.produce p d nw v).slot = p.slot := by
  unfold Ply.produce
  dsimp only
  split
  · rfl
  · exact Ply.putV_slot ..
@[simp] theorem Ply.produce_running (p : Ply) (d : BitVec 7) (nw : BitVec 1) (v : Lanes) : (Ply.produce p d nw v).running = p.running := by
  unfold Ply.produce
  dsimp only
  split
  · rfl
  · exact Ply.putV_running ..
@[simp] theorem Ply.produce_stalled (p : Ply) (d : BitVec 7) (nw : BitVec 1) (v : Lanes) : (Ply.produce p d nw v).stalled = p.stalled := by
  unfold Ply.produce
  dsimp only
  split
  · rfl
  · exact Ply.putV_stalled ..
@[simp] theorem Ply.produce_resumes (p : Ply) (d : BitVec 7) (nw : BitVec 1) (v : Lanes) : (Ply.produce p d nw v).resumes = p.resumes := by
  unfold Ply.produce
  dsimp only
  split
  · rfl
  · exact Ply.putV_resumes ..
@[simp] theorem Ply.produce_pos (p : Ply) (d : BitVec 7) (nw : BitVec 1) (v : Lanes) : (Ply.produce p d nw v).pos = p.pos := by
  unfold Ply.produce
  dsimp only
  split
  · rfl
  · exact Ply.putV_pos ..
@[simp] theorem Ply.produce_runSince (p : Ply) (d : BitVec 7) (nw : BitVec 1) (v : Lanes) : (Ply.produce p d nw v).runSince = p.runSince := by
  unfold Ply.produce
  dsimp only
  split
  · rfl
  · exact Ply.putV_runSince ..
@[simp] theorem Ply.produce_dstack (p : Ply) (d : BitVec 7) (nw : BitVec 1) (v : Lanes) : (Ply.produce p d nw v).dstack = p.dstack := by
  unfold Ply.produce
  dsimp only
  split
  · rfl
  · exact Ply.putV_dstack ..
@[simp] theorem Ply.produce_frames (p : Ply) (d : BitVec 7) (nw : BitVec 1) (v : Lanes) : (Ply.produce p d nw v).frames = p.frames := by
  unfold Ply.produce
  dsimp only
  split
  · rfl
  · exact Ply.putV_frames ..
@[simp] theorem Ply.produce_supervisor (p : Ply) (d : BitVec 7) (nw : BitVec 1) (v : Lanes) : (Ply.produce p d nw v).supervisor = p.supervisor := by
  unfold Ply.produce
  dsimp only
  split
  · rfl
  · exact Ply.putV_supervisor ..
@[simp] theorem Ply.produce_savedLatches (p : Ply) (d : BitVec 7) (nw : BitVec 1) (v : Lanes) : (Ply.produce p d nw v).savedLatches = p.savedLatches := by
  unfold Ply.produce
  dsimp only
  split
  · rfl
  · exact Ply.putV_savedLatches ..
@[simp] theorem Ply.produce_trapSlot (p : Ply) (d : BitVec 7) (nw : BitVec 1) (v : Lanes) : (Ply.produce p d nw v).trapSlot = p.trapSlot := by
  unfold Ply.produce
  dsimp only
  split
  · rfl
  · exact Ply.putV_trapSlot ..
@[simp] theorem Ply.produce_trapEpc (p : Ply) (d : BitVec 7) (nw : BitVec 1) (v : Lanes) : (Ply.produce p d nw v).trapEpc = p.trapEpc := by
  unfold Ply.produce
  dsimp only
  split
  · rfl
  · exact Ply.putV_trapEpc ..
@[simp] theorem Ply.produce_trapErun (p : Ply) (d : BitVec 7) (nw : BitVec 1) (v : Lanes) : (Ply.produce p d nw v).trapErun = p.trapErun := by
  unfold Ply.produce
  dsimp only
  split
  · rfl
  · exact Ply.putV_trapErun ..
@[simp] theorem Ply.produce_trapTransfer (p : Ply) (d : BitVec 7) (nw : BitVec 1) (v : Lanes) : (Ply.produce p d nw v).trapTransfer = p.trapTransfer := by
  unfold Ply.produce
  dsimp only
  split
  · rfl
  · exact Ply.putV_trapTransfer ..
@[simp] theorem Ply.produce_occ (p : Ply) (d : BitVec 7) (nw : BitVec 1) (v : Lanes) : (Ply.produce p d nw v).occ = p.occ := by
  unfold Ply.produce
  dsimp only
  split
  · rfl
  · exact Ply.putV_occ ..
@[simp] theorem Ply.produce_fflags (p : Ply) (d : BitVec 7) (nw : BitVec 1) (v : Lanes) : (Ply.produce p d nw v).fflags = p.fflags := by
  unfold Ply.produce
  dsimp only
  split
  · rfl
  · exact Ply.putV_fflags ..
@[simp] theorem Ply.produce_frnd (p : Ply) (d : BitVec 7) (nw : BitVec 1) (v : Lanes) : (Ply.produce p d nw v).frnd = p.frnd := by
  unfold Ply.produce
  dsimp only
  split
  · rfl
  · exact Ply.putV_frnd ..
@[simp] theorem Ply.produce_yc (p : Ply) (d : BitVec 7) (nw : BitVec 1) (v : Lanes) : (Ply.produce p d nw v).yc = p.yc := by
  unfold Ply.produce
  dsimp only
  split
  · rfl
  · exact Ply.putV_yc ..
@[simp] theorem Ply.produce_ydl (p : Ply) (d : BitVec 7) (nw : BitVec 1) (v : Lanes) : (Ply.produce p d nw v).ydl = p.ydl := by
  unfold Ply.produce
  dsimp only
  split
  · rfl
  · exact Ply.putV_ydl ..
@[simp] theorem Ply.produce_scope (p : Ply) (d : BitVec 7) (nw : BitVec 1) (v : Lanes) : (Ply.produce p d nw v).scope = p.scope := by
  unfold Ply.produce
  dsimp only
  split
  · rfl
  · exact Ply.putV_scope ..
@[simp] theorem Ply.produce_rpr (p : Ply) (d : BitVec 7) (nw : BitVec 1) (v : Lanes) : (Ply.produce p d nw v).rpr = p.rpr := by
  unfold Ply.produce
  dsimp only
  split
  · rfl
  · exact Ply.putV_rpr ..
@[simp] theorem Ply.produce_pgw (p : Ply) (d : BitVec 7) (nw : BitVec 1) (v : Lanes) : (Ply.produce p d nw v).pgw = p.pgw := by
  unfold Ply.produce
  dsimp only
  split
  · rfl
  · exact Ply.putV_pgw ..
@[simp] theorem Ply.produce_cnt (p : Ply) (d : BitVec 7) (nw : BitVec 1) (v : Lanes) : (Ply.produce p d nw v).cnt = p.cnt := by
  unfold Ply.produce
  dsimp only
  split
  · rfl
  · exact Ply.putV_cnt ..
@[simp] theorem Ply.produce_flattol (p : Ply) (d : BitVec 7) (nw : BitVec 1) (v : Lanes) : (Ply.produce p d nw v).flattol = p.flattol := by
  unfold Ply.produce
  dsimp only
  split
  · rfl
  · exact Ply.putV_flattol ..
@[simp] theorem Ply.produce_epc (p : Ply) (d : BitVec 7) (nw : BitVec 1) (v : Lanes) : (Ply.produce p d nw v).epc = p.epc := by
  unfold Ply.produce
  dsimp only
  split
  · rfl
  · exact Ply.putV_epc ..
@[simp] theorem Ply.produce_ecause (p : Ply) (d : BitVec 7) (nw : BitVec 1) (v : Lanes) : (Ply.produce p d nw v).ecause = p.ecause := by
  unfold Ply.produce
  dsimp only
  split
  · rfl
  · exact Ply.putV_ecause ..
@[simp] theorem Ply.produce_eaddr (p : Ply) (d : BitVec 7) (nw : BitVec 1) (v : Lanes) : (Ply.produce p d nw v).eaddr = p.eaddr := by
  unfold Ply.produce
  dsimp only
  split
  · rfl
  · exact Ply.putV_eaddr ..
@[simp] theorem Ply.produce_elane (p : Ply) (d : BitVec 7) (nw : BitVec 1) (v : Lanes) : (Ply.produce p d nw v).elane = p.elane := by
  unfold Ply.produce
  dsimp only
  split
  · rfl
  · exact Ply.putV_elane ..
@[simp] theorem Ply.produce_erun (p : Ply) (d : BitVec 7) (nw : BitVec 1) (v : Lanes) : (Ply.produce p d nw v).erun = p.erun := by
  unfold Ply.produce
  dsimp only
  split
  · rfl
  · exact Ply.putV_erun ..
@[simp] theorem Ply.produce_tvec (p : Ply) (d : BitVec 7) (nw : BitVec 1) (v : Lanes) : (Ply.produce p d nw v).tvec = p.tvec := by
  unfold Ply.produce
  dsimp only
  split
  · rfl
  · exact Ply.putV_tvec ..
@[simp] theorem Ply.produce_ssave (p : Ply) (d : BitVec 7) (nw : BitVec 1) (v : Lanes) : (Ply.produce p d nw v).ssave = p.ssave := by
  unfold Ply.produce
  dsimp only
  split
  · rfl
  · exact Ply.putV_ssave ..
@[simp] theorem Ply.produce_lanes (p : Ply) (d : BitVec 7) (nw : BitVec 1) (v : Lanes) : (Ply.produce p d nw v).lanes = p.lanes := by
  unfold Ply.produce
  dsimp only
  split
  · rfl
  · exact Ply.putV_lanes ..
@[simp] theorem Ply.produce_windowBase (p : Ply) (d : BitVec 7) (nw : BitVec 1) (v : Lanes) : (Ply.produce p d nw v).windowBase = p.windowBase := by
  unfold Ply.produce
  dsimp only
  split
  · rfl
  · exact Ply.putV_windowBase ..
@[simp] theorem Ply.produce_windowSize (p : Ply) (d : BitVec 7) (nw : BitVec 1) (v : Lanes) : (Ply.produce p d nw v).windowSize = p.windowSize := by
  unfold Ply.produce
  dsimp only
  split
  · rfl
  · exact Ply.putV_windowSize ..
@[simp] theorem Ply.produce_lsq (p : Ply) (d : BitVec 7) (nw : BitVec 1) (v : Lanes) : (Ply.produce p d nw v).lsq = p.lsq := by
  unfold Ply.produce
  dsimp only
  split
  · rfl
  · exact Ply.putV_lsq ..
@[simp] theorem Ply.produce_hubq (p : Ply) (d : BitVec 7) (nw : BitVec 1) (v : Lanes) : (Ply.produce p d nw v).hubq = p.hubq := by
  unfold Ply.produce
  dsimp only
  split
  · rfl
  · exact Ply.putV_hubq ..
@[simp] theorem Ply.produce_failures (p : Ply) (d : BitVec 7) (nw : BitVec 1) (v : Lanes) : (Ply.produce p d nw v).failures = p.failures := by
  unfold Ply.produce
  dsimp only
  split
  · rfl
  · exact Ply.putV_failures ..
@[simp] theorem Ply.produce_ctx (p : Ply) (d : BitVec 7) (nw : BitVec 1) (v : Lanes) : (Ply.produce p d nw v).ctx = p.ctx := by
  unfold Ply.produce
  dsimp only
  split
  · rfl
  · exact Ply.putV_ctx ..
@[simp] theorem Ply.produce_stxOld (p : Ply) (d : BitVec 7) (nw : BitVec 1) (v : Lanes) : (Ply.produce p d nw v).stxOld = p.stxOld := by
  unfold Ply.produce
  dsimp only
  split
  · rfl
  · exact Ply.putV_stxOld ..
@[simp] theorem Ply.produce_cgw (p : Ply) (d : BitVec 7) (nw : BitVec 1) (v : Lanes) : (Ply.produce p d nw v).cgw = p.cgw := by
  unfold Ply.produce
  dsimp only
  split
  · rfl
  · exact Ply.putV_cgw ..

/-! ## Ply.deliver -/

@[simp] theorem Ply.deliver_uid (p : Ply) (a : DWord) (n : Nat) (c : Cause) : (Ply.deliver p a n c).uid = p.uid := Ply.setCur_uid ..
@[simp] theorem Ply.deliver_core (p : Ply) (a : DWord) (n : Nat) (c : Cause) : (Ply.deliver p a n c).core = p.core := Ply.setCur_core ..
@[simp] theorem Ply.deliver_pipe (p : Ply) (a : DWord) (n : Nat) (c : Cause) : (Ply.deliver p a n c).pipe = p.pipe := Ply.setCur_pipe ..
@[simp] theorem Ply.deliver_age (p : Ply) (a : DWord) (n : Nat) (c : Cause) : (Ply.deliver p a n c).age = p.age := Ply.setCur_age ..
@[simp] theorem Ply.deliver_plyid (p : Ply) (a : DWord) (n : Nat) (c : Cause) : (Ply.deliver p a n c).plyid = p.plyid := Ply.setCur_plyid ..
@[simp] theorem Ply.deliver_tenant (p : Ply) (a : DWord) (n : Nat) (c : Cause) : (Ply.deliver p a n c).tenant = p.tenant := Ply.setCur_tenant ..
@[simp] theorem Ply.deliver_role (p : Ply) (a : DWord) (n : Nat) (c : Cause) : (Ply.deliver p a n c).role = p.role := Ply.setCur_role ..
@[simp] theorem Ply.deliver_gangsize (p : Ply) (a : DWord) (n : Nat) (c : Cause) : (Ply.deliver p a n c).gangsize = p.gangsize := Ply.setCur_gangsize ..
@[simp] theorem Ply.deliver_gang (p : Ply) (a : DWord) (n : Nat) (c : Cause) : (Ply.deliver p a n c).gang = p.gang := Ply.setCur_gang ..
@[simp] theorem Ply.deliver_management (p : Ply) (a : DWord) (n : Nat) (c : Cause) : (Ply.deliver p a n c).management = p.management := Ply.setCur_management ..
@[simp] theorem Ply.deliver_header (p : Ply) (a : DWord) (n : Nat) (c : Cause) : (Ply.deliver p a n c).header = p.header := Ply.setCur_header ..
@[simp] theorem Ply.deliver_entry (p : Ply) (a : DWord) (n : Nat) (c : Cause) : (Ply.deliver p a n c).entry = p.entry := Ply.setCur_entry ..
@[simp] theorem Ply.deliver_paint (p : Ply) (a : DWord) (n : Nat) (c : Cause) : (Ply.deliver p a n c).paint = p.paint := Ply.setCur_paint ..
@[simp] theorem Ply.deliver_cls (p : Ply) (a : DWord) (n : Nat) (c : Cause) : (Ply.deliver p a n c).cls = p.cls := Ply.setCur_cls ..
@[simp] theorem Ply.deliver_deadline (p : Ply) (a : DWord) (n : Nat) (c : Cause) : (Ply.deliver p a n c).deadline = p.deadline := Ply.setCur_deadline ..
@[simp] theorem Ply.deliver_charge (p : Ply) (a : DWord) (n : Nat) (c : Cause) : (Ply.deliver p a n c).charge = p.charge := Ply.setCur_charge ..
@[simp] theorem Ply.deliver_demand (p : Ply) (a : DWord) (n : Nat) (c : Cause) : (Ply.deliver p a n c).demand = p.demand := Ply.setCur_demand ..
@[simp] theorem Ply.deliver_heat (p : Ply) (a : DWord) (n : Nat) (c : Cause) : (Ply.deliver p a n c).heat = p.heat := Ply.setCur_heat ..
@[simp] theorem Ply.deliver_marked (p : Ply) (a : DWord) (n : Nat) (c : Cause) : (Ply.deliver p a n c).marked = p.marked := Ply.setCur_marked ..
@[simp] theorem Ply.deliver_firing (p : Ply) (a : DWord) (n : Nat) (c : Cause) : (Ply.deliver p a n c).firing = p.firing := Ply.setCur_firing ..
@[simp] theorem Ply.deliver_fixedCore (p : Ply) (a : DWord) (n : Nat) (c : Cause) : (Ply.deliver p a n c).fixedCore = p.fixedCore := Ply.setCur_fixedCore ..
@[simp] theorem Ply.deliver_group (p : Ply) (a : DWord) (n : Nat) (c : Cause) : (Ply.deliver p a n c).group = p.group := Ply.setCur_group ..
@[simp] theorem Ply.deliver_sregs (p : Ply) (a : DWord) (n : Nat) (c : Cause) : (Ply.deliver p a n c).sregs = p.sregs := Ply.setCur_sregs ..
@[simp] theorem Ply.deliver_vregs (p : Ply) (a : DWord) (n : Nat) (c : Cause) : (Ply.deliver p a n c).vregs = p.vregs := Ply.setCur_vregs ..
@[simp] theorem Ply.deliver_tiles (p : Ply) (a : DWord) (n : Nat) (c : Cause) : (Ply.deliver p a n c).tiles = p.tiles := Ply.setCur_tiles ..
@[simp] theorem Ply.deliver_slot (p : Ply) (a : DWord) (n : Nat) (c : Cause) : (Ply.deliver p a n c).slot = p.slot := Ply.setCur_slot ..
@[simp] theorem Ply.deliver_stalled (p : Ply) (a : DWord) (n : Nat) (c : Cause) : (Ply.deliver p a n c).stalled = p.stalled := Ply.setCur_stalled ..
@[simp] theorem Ply.deliver_resumes (p : Ply) (a : DWord) (n : Nat) (c : Cause) : (Ply.deliver p a n c).resumes = p.resumes := Ply.setCur_resumes ..
@[simp] theorem Ply.deliver_runSince (p : Ply) (a : DWord) (n : Nat) (c : Cause) : (Ply.deliver p a n c).runSince = p.runSince := Ply.setCur_runSince ..
@[simp] theorem Ply.deliver_dstack (p : Ply) (a : DWord) (n : Nat) (c : Cause) : (Ply.deliver p a n c).dstack = p.dstack := Ply.setCur_dstack ..
@[simp] theorem Ply.deliver_frames (p : Ply) (a : DWord) (n : Nat) (c : Cause) : (Ply.deliver p a n c).frames = p.frames := Ply.setCur_frames ..
@[simp] theorem Ply.deliver_occ (p : Ply) (a : DWord) (n : Nat) (c : Cause) : (Ply.deliver p a n c).occ = p.occ := Ply.setCur_occ ..
@[simp] theorem Ply.deliver_fflags (p : Ply) (a : DWord) (n : Nat) (c : Cause) : (Ply.deliver p a n c).fflags = p.fflags := Ply.setCur_fflags ..
@[simp] theorem Ply.deliver_frnd (p : Ply) (a : DWord) (n : Nat) (c : Cause) : (Ply.deliver p a n c).frnd = p.frnd := Ply.setCur_frnd ..
@[simp] theorem Ply.deliver_yc (p : Ply) (a : DWord) (n : Nat) (c : Cause) : (Ply.deliver p a n c).yc = p.yc := Ply.setCur_yc ..
@[simp] theorem Ply.deliver_ydl (p : Ply) (a : DWord) (n : Nat) (c : Cause) : (Ply.deliver p a n c).ydl = p.ydl := Ply.setCur_ydl ..
@[simp] theorem Ply.deliver_scope (p : Ply) (a : DWord) (n : Nat) (c : Cause) : (Ply.deliver p a n c).scope = p.scope := Ply.setCur_scope ..
@[simp] theorem Ply.deliver_rpr (p : Ply) (a : DWord) (n : Nat) (c : Cause) : (Ply.deliver p a n c).rpr = p.rpr := Ply.setCur_rpr ..
@[simp] theorem Ply.deliver_pgw (p : Ply) (a : DWord) (n : Nat) (c : Cause) : (Ply.deliver p a n c).pgw = p.pgw := Ply.setCur_pgw ..
@[simp] theorem Ply.deliver_cnt (p : Ply) (a : DWord) (n : Nat) (c : Cause) : (Ply.deliver p a n c).cnt = p.cnt := Ply.setCur_cnt ..
@[simp] theorem Ply.deliver_flattol (p : Ply) (a : DWord) (n : Nat) (c : Cause) : (Ply.deliver p a n c).flattol = p.flattol := Ply.setCur_flattol ..
@[simp] theorem Ply.deliver_tvec (p : Ply) (a : DWord) (n : Nat) (c : Cause) : (Ply.deliver p a n c).tvec = p.tvec := Ply.setCur_tvec ..
@[simp] theorem Ply.deliver_ssave (p : Ply) (a : DWord) (n : Nat) (c : Cause) : (Ply.deliver p a n c).ssave = p.ssave := Ply.setCur_ssave ..
@[simp] theorem Ply.deliver_lanes (p : Ply) (a : DWord) (n : Nat) (c : Cause) : (Ply.deliver p a n c).lanes = p.lanes := Ply.setCur_lanes ..
@[simp] theorem Ply.deliver_windowBase (p : Ply) (a : DWord) (n : Nat) (c : Cause) : (Ply.deliver p a n c).windowBase = p.windowBase := Ply.setCur_windowBase ..
@[simp] theorem Ply.deliver_windowSize (p : Ply) (a : DWord) (n : Nat) (c : Cause) : (Ply.deliver p a n c).windowSize = p.windowSize := Ply.setCur_windowSize ..
@[simp] theorem Ply.deliver_lsq (p : Ply) (a : DWord) (n : Nat) (c : Cause) : (Ply.deliver p a n c).lsq = p.lsq := Ply.setCur_lsq ..
@[simp] theorem Ply.deliver_hubq (p : Ply) (a : DWord) (n : Nat) (c : Cause) : (Ply.deliver p a n c).hubq = p.hubq := Ply.setCur_hubq ..
@[simp] theorem Ply.deliver_failures (p : Ply) (a : DWord) (n : Nat) (c : Cause) : (Ply.deliver p a n c).failures = p.failures := Ply.setCur_failures ..
@[simp] theorem Ply.deliver_ctx (p : Ply) (a : DWord) (n : Nat) (c : Cause) : (Ply.deliver p a n c).ctx = p.ctx := Ply.setCur_ctx ..
@[simp] theorem Ply.deliver_stxOld (p : Ply) (a : DWord) (n : Nat) (c : Cause) : (Ply.deliver p a n c).stxOld = p.stxOld := Ply.setCur_stxOld ..
@[simp] theorem Ply.deliver_cgw (p : Ply) (a : DWord) (n : Nat) (c : Cause) : (Ply.deliver p a n c).cgw = p.cgw := Ply.setCur_cgw ..

/-! ## Ply.eret -/

@[simp] theorem Ply.eret_uid (p : Ply) : (Ply.eret p).uid = p.uid := Ply.setCur_uid ..
@[simp] theorem Ply.eret_core (p : Ply) : (Ply.eret p).core = p.core := Ply.setCur_core ..
@[simp] theorem Ply.eret_pipe (p : Ply) : (Ply.eret p).pipe = p.pipe := Ply.setCur_pipe ..
@[simp] theorem Ply.eret_age (p : Ply) : (Ply.eret p).age = p.age := Ply.setCur_age ..
@[simp] theorem Ply.eret_plyid (p : Ply) : (Ply.eret p).plyid = p.plyid := Ply.setCur_plyid ..
@[simp] theorem Ply.eret_tenant (p : Ply) : (Ply.eret p).tenant = p.tenant := Ply.setCur_tenant ..
@[simp] theorem Ply.eret_role (p : Ply) : (Ply.eret p).role = p.role := Ply.setCur_role ..
@[simp] theorem Ply.eret_gangsize (p : Ply) : (Ply.eret p).gangsize = p.gangsize := Ply.setCur_gangsize ..
@[simp] theorem Ply.eret_gang (p : Ply) : (Ply.eret p).gang = p.gang := Ply.setCur_gang ..
@[simp] theorem Ply.eret_management (p : Ply) : (Ply.eret p).management = p.management := Ply.setCur_management ..
@[simp] theorem Ply.eret_header (p : Ply) : (Ply.eret p).header = p.header := Ply.setCur_header ..
@[simp] theorem Ply.eret_entry (p : Ply) : (Ply.eret p).entry = p.entry := Ply.setCur_entry ..
@[simp] theorem Ply.eret_paint (p : Ply) : (Ply.eret p).paint = p.paint := Ply.setCur_paint ..
@[simp] theorem Ply.eret_cls (p : Ply) : (Ply.eret p).cls = p.cls := Ply.setCur_cls ..
@[simp] theorem Ply.eret_deadline (p : Ply) : (Ply.eret p).deadline = p.deadline := Ply.setCur_deadline ..
@[simp] theorem Ply.eret_charge (p : Ply) : (Ply.eret p).charge = p.charge := Ply.setCur_charge ..
@[simp] theorem Ply.eret_demand (p : Ply) : (Ply.eret p).demand = p.demand := Ply.setCur_demand ..
@[simp] theorem Ply.eret_heat (p : Ply) : (Ply.eret p).heat = p.heat := Ply.setCur_heat ..
@[simp] theorem Ply.eret_marked (p : Ply) : (Ply.eret p).marked = p.marked := Ply.setCur_marked ..
@[simp] theorem Ply.eret_firing (p : Ply) : (Ply.eret p).firing = p.firing := Ply.setCur_firing ..
@[simp] theorem Ply.eret_fixedCore (p : Ply) : (Ply.eret p).fixedCore = p.fixedCore := Ply.setCur_fixedCore ..
@[simp] theorem Ply.eret_group (p : Ply) : (Ply.eret p).group = p.group := Ply.setCur_group ..
@[simp] theorem Ply.eret_sregs (p : Ply) : (Ply.eret p).sregs = p.sregs := Ply.setCur_sregs ..
@[simp] theorem Ply.eret_vregs (p : Ply) : (Ply.eret p).vregs = p.vregs := Ply.setCur_vregs ..
@[simp] theorem Ply.eret_tiles (p : Ply) : (Ply.eret p).tiles = p.tiles := Ply.setCur_tiles ..
@[simp] theorem Ply.eret_slot (p : Ply) : (Ply.eret p).slot = p.slot := Ply.setCur_slot ..
@[simp] theorem Ply.eret_stalled (p : Ply) : (Ply.eret p).stalled = p.stalled := Ply.setCur_stalled ..
@[simp] theorem Ply.eret_resumes (p : Ply) : (Ply.eret p).resumes = p.resumes := Ply.setCur_resumes ..
@[simp] theorem Ply.eret_runSince (p : Ply) : (Ply.eret p).runSince = p.runSince := Ply.setCur_runSince ..
@[simp] theorem Ply.eret_dstack (p : Ply) : (Ply.eret p).dstack = p.dstack := Ply.setCur_dstack ..
@[simp] theorem Ply.eret_frames (p : Ply) : (Ply.eret p).frames = p.frames := Ply.setCur_frames ..
@[simp] theorem Ply.eret_savedLatches (p : Ply) : (Ply.eret p).savedLatches = p.savedLatches := Ply.setCur_savedLatches ..
@[simp] theorem Ply.eret_trapSlot (p : Ply) : (Ply.eret p).trapSlot = p.trapSlot := Ply.setCur_trapSlot ..
@[simp] theorem Ply.eret_trapEpc (p : Ply) : (Ply.eret p).trapEpc = p.trapEpc := Ply.setCur_trapEpc ..
@[simp] theorem Ply.eret_trapErun (p : Ply) : (Ply.eret p).trapErun = p.trapErun := Ply.setCur_trapErun ..
@[simp] theorem Ply.eret_trapTransfer (p : Ply) : (Ply.eret p).trapTransfer = p.trapTransfer := Ply.setCur_trapTransfer ..
@[simp] theorem Ply.eret_occ (p : Ply) : (Ply.eret p).occ = p.occ := Ply.setCur_occ ..
@[simp] theorem Ply.eret_fflags (p : Ply) : (Ply.eret p).fflags = p.fflags := Ply.setCur_fflags ..
@[simp] theorem Ply.eret_frnd (p : Ply) : (Ply.eret p).frnd = p.frnd := Ply.setCur_frnd ..
@[simp] theorem Ply.eret_yc (p : Ply) : (Ply.eret p).yc = p.yc := Ply.setCur_yc ..
@[simp] theorem Ply.eret_ydl (p : Ply) : (Ply.eret p).ydl = p.ydl := Ply.setCur_ydl ..
@[simp] theorem Ply.eret_scope (p : Ply) : (Ply.eret p).scope = p.scope := Ply.setCur_scope ..
@[simp] theorem Ply.eret_rpr (p : Ply) : (Ply.eret p).rpr = p.rpr := Ply.setCur_rpr ..
@[simp] theorem Ply.eret_pgw (p : Ply) : (Ply.eret p).pgw = p.pgw := Ply.setCur_pgw ..
@[simp] theorem Ply.eret_cnt (p : Ply) : (Ply.eret p).cnt = p.cnt := Ply.setCur_cnt ..
@[simp] theorem Ply.eret_flattol (p : Ply) : (Ply.eret p).flattol = p.flattol := Ply.setCur_flattol ..
@[simp] theorem Ply.eret_epc (p : Ply) : (Ply.eret p).epc = p.epc := Ply.setCur_epc ..
@[simp] theorem Ply.eret_ecause (p : Ply) : (Ply.eret p).ecause = p.ecause := Ply.setCur_ecause ..
@[simp] theorem Ply.eret_eaddr (p : Ply) : (Ply.eret p).eaddr = p.eaddr := Ply.setCur_eaddr ..
@[simp] theorem Ply.eret_elane (p : Ply) : (Ply.eret p).elane = p.elane := Ply.setCur_elane ..
@[simp] theorem Ply.eret_erun (p : Ply) : (Ply.eret p).erun = p.erun := Ply.setCur_erun ..
@[simp] theorem Ply.eret_tvec (p : Ply) : (Ply.eret p).tvec = p.tvec := Ply.setCur_tvec ..
@[simp] theorem Ply.eret_ssave (p : Ply) : (Ply.eret p).ssave = p.ssave := Ply.setCur_ssave ..
@[simp] theorem Ply.eret_lanes (p : Ply) : (Ply.eret p).lanes = p.lanes := Ply.setCur_lanes ..
@[simp] theorem Ply.eret_windowBase (p : Ply) : (Ply.eret p).windowBase = p.windowBase := Ply.setCur_windowBase ..
@[simp] theorem Ply.eret_windowSize (p : Ply) : (Ply.eret p).windowSize = p.windowSize := Ply.setCur_windowSize ..
@[simp] theorem Ply.eret_lsq (p : Ply) : (Ply.eret p).lsq = p.lsq := Ply.setCur_lsq ..
@[simp] theorem Ply.eret_hubq (p : Ply) : (Ply.eret p).hubq = p.hubq := Ply.setCur_hubq ..
@[simp] theorem Ply.eret_failures (p : Ply) : (Ply.eret p).failures = p.failures := Ply.setCur_failures ..
@[simp] theorem Ply.eret_ctx (p : Ply) : (Ply.eret p).ctx = p.ctx := Ply.setCur_ctx ..
@[simp] theorem Ply.eret_stxOld (p : Ply) : (Ply.eret p).stxOld = p.stxOld := Ply.setCur_stxOld ..
@[simp] theorem Ply.eret_cgw (p : Ply) : (Ply.eret p).cgw = p.cgw := Ply.setCur_cgw ..

/-! ## State.done -/

@[simp] theorem State.done_plies (s : State) : (State.done s).plies = s.plies := rfl
@[simp] theorem State.done_ghosts (s : State) : (State.done s).ghosts = s.ghosts := rfl
@[simp] theorem State.done_issue (s : State) : (State.done s).issue = s.issue := rfl
@[simp] theorem State.done_mem (s : State) : (State.done s).mem = s.mem := rfl
@[simp] theorem State.done_stores (s : State) : (State.done s).stores = s.stores := rfl
@[simp] theorem State.done_homeLeases (s : State) : (State.done s).homeLeases = s.homeLeases := rfl
@[simp] theorem State.done_l2Leases (s : State) : (State.done s).l2Leases = s.l2Leases := rfl
@[simp] theorem State.done_l1Leases (s : State) : (State.done s).l1Leases = s.l1Leases := rfl
@[simp] theorem State.done_recent (s : State) : (State.done s).recent = s.recent := rfl
@[simp] theorem State.done_failing (s : State) : (State.done s).failing = s.failing := rfl
@[simp] theorem State.done_tlb (s : State) : (State.done s).tlb = s.tlb := rfl
@[simp] theorem State.done_headers (s : State) : (State.done s).headers = s.headers := rfl
@[simp] theorem State.done_cores (s : State) : (State.done s).cores = s.cores := rfl
@[simp] theorem State.done_clusters (s : State) : (State.done s).clusters = s.clusters := rfl
@[simp] theorem State.done_vaults (s : State) : (State.done s).vaults = s.vaults := rfl
@[simp] theorem State.done_fifos (s : State) : (State.done s).fifos = s.fifos := rfl
@[simp] theorem State.done_dies (s : State) : (State.done s).dies = s.dies := rfl
@[simp] theorem State.done_tenants (s : State) : (State.done s).tenants = s.tenants := rfl
@[simp] theorem State.done_reports (s : State) : (State.done s).reports = s.reports := rfl
@[simp] theorem State.done_scopes (s : State) : (State.done s).scopes = s.scopes := rfl
@[simp] theorem State.done_released (s : State) : (State.done s).released = s.released := rfl
@[simp] theorem State.done_counted (s : State) : (State.done s).counted = s.counted := rfl
@[simp] theorem State.done_arrivals (s : State) : (State.done s).arrivals = s.arrivals := rfl
@[simp] theorem State.done_departures (s : State) : (State.done s).departures = s.departures := rfl
@[simp] theorem State.done_broadcasts (s : State) : (State.done s).broadcasts = s.broadcasts := rfl
@[simp] theorem State.done_transit (s : State) : (State.done s).transit = s.transit := rfl
@[simp] theorem State.done_pieces (s : State) : (State.done s).pieces = s.pieces := rfl
@[simp] theorem State.done_firings (s : State) : (State.done s).firings = s.firings := rfl
@[simp] theorem State.done_saved (s : State) : (State.done s).saved = s.saved := rfl
@[simp] theorem State.done_fabric (s : State) : (State.done s).fabric = s.fabric := rfl
@[simp] theorem State.done_outgoing (s : State) : (State.done s).outgoing = s.outgoing := rfl
@[simp] theorem State.done_firmware (s : State) : (State.done s).firmware = s.firmware := rfl
@[simp] theorem State.done_selPart (s : State) : (State.done s).selPart = s.selPart := rfl
@[simp] theorem State.done_selCluster (s : State) : (State.done s).selCluster = s.selCluster := rfl
@[simp] theorem State.done_selReg (s : State) : (State.done s).selReg = s.selReg := rfl
@[simp] theorem State.done_endpoint (s : State) : (State.done s).endpoint = s.endpoint := rfl
@[simp] theorem State.done_ptime (s : State) : (State.done s).ptime = s.ptime := rfl
@[simp] theorem State.done_saveAreas (s : State) : (State.done s).saveAreas = s.saveAreas := rfl
@[simp] theorem State.done_loads (s : State) : (State.done s).loads = s.loads := rfl
@[simp] theorem State.done_landings (s : State) : (State.done s).landings = s.landings := rfl
@[simp] theorem State.done_trapReports (s : State) : (State.done s).trapReports = s.trapReports := rfl
@[simp] theorem State.done_agenda (s : State) : (State.done s).agenda = s.agenda := rfl
@[simp] theorem State.done_tick (s : State) : (State.done s).tick = s.tick := rfl
@[simp] theorem State.done_seq (s : State) : (State.done s).seq = s.seq := rfl

/-! ## State.setS -/

@[simp] theorem State.setS_plies (s : State) (a : BitVec 6) (w : Word) : (State.setS s a w).plies = s.plies := rfl
@[simp] theorem State.setS_ghosts (s : State) (a : BitVec 6) (w : Word) : (State.setS s a w).ghosts = s.ghosts := rfl
@[simp] theorem State.setS_issue (s : State) (a : BitVec 6) (w : Word) : (State.setS s a w).issue = s.issue := rfl
@[simp] theorem State.setS_mem (s : State) (a : BitVec 6) (w : Word) : (State.setS s a w).mem = s.mem := rfl
@[simp] theorem State.setS_stores (s : State) (a : BitVec 6) (w : Word) : (State.setS s a w).stores = s.stores := rfl
@[simp] theorem State.setS_homeLeases (s : State) (a : BitVec 6) (w : Word) : (State.setS s a w).homeLeases = s.homeLeases := rfl
@[simp] theorem State.setS_l2Leases (s : State) (a : BitVec 6) (w : Word) : (State.setS s a w).l2Leases = s.l2Leases := rfl
@[simp] theorem State.setS_l1Leases (s : State) (a : BitVec 6) (w : Word) : (State.setS s a w).l1Leases = s.l1Leases := rfl
@[simp] theorem State.setS_recent (s : State) (a : BitVec 6) (w : Word) : (State.setS s a w).recent = s.recent := rfl
@[simp] theorem State.setS_failing (s : State) (a : BitVec 6) (w : Word) : (State.setS s a w).failing = s.failing := rfl
@[simp] theorem State.setS_tlb (s : State) (a : BitVec 6) (w : Word) : (State.setS s a w).tlb = s.tlb := rfl
@[simp] theorem State.setS_headers (s : State) (a : BitVec 6) (w : Word) : (State.setS s a w).headers = s.headers := rfl
@[simp] theorem State.setS_cores (s : State) (a : BitVec 6) (w : Word) : (State.setS s a w).cores = s.cores := rfl
@[simp] theorem State.setS_clusters (s : State) (a : BitVec 6) (w : Word) : (State.setS s a w).clusters = s.clusters := rfl
@[simp] theorem State.setS_vaults (s : State) (a : BitVec 6) (w : Word) : (State.setS s a w).vaults = s.vaults := rfl
@[simp] theorem State.setS_fifos (s : State) (a : BitVec 6) (w : Word) : (State.setS s a w).fifos = s.fifos := rfl
@[simp] theorem State.setS_dies (s : State) (a : BitVec 6) (w : Word) : (State.setS s a w).dies = s.dies := rfl
@[simp] theorem State.setS_tenants (s : State) (a : BitVec 6) (w : Word) : (State.setS s a w).tenants = s.tenants := rfl
@[simp] theorem State.setS_reports (s : State) (a : BitVec 6) (w : Word) : (State.setS s a w).reports = s.reports := rfl
@[simp] theorem State.setS_scopes (s : State) (a : BitVec 6) (w : Word) : (State.setS s a w).scopes = s.scopes := rfl
@[simp] theorem State.setS_released (s : State) (a : BitVec 6) (w : Word) : (State.setS s a w).released = s.released := rfl
@[simp] theorem State.setS_counted (s : State) (a : BitVec 6) (w : Word) : (State.setS s a w).counted = s.counted := rfl
@[simp] theorem State.setS_arrivals (s : State) (a : BitVec 6) (w : Word) : (State.setS s a w).arrivals = s.arrivals := rfl
@[simp] theorem State.setS_departures (s : State) (a : BitVec 6) (w : Word) : (State.setS s a w).departures = s.departures := rfl
@[simp] theorem State.setS_broadcasts (s : State) (a : BitVec 6) (w : Word) : (State.setS s a w).broadcasts = s.broadcasts := rfl
@[simp] theorem State.setS_transit (s : State) (a : BitVec 6) (w : Word) : (State.setS s a w).transit = s.transit := rfl
@[simp] theorem State.setS_pieces (s : State) (a : BitVec 6) (w : Word) : (State.setS s a w).pieces = s.pieces := rfl
@[simp] theorem State.setS_firings (s : State) (a : BitVec 6) (w : Word) : (State.setS s a w).firings = s.firings := rfl
@[simp] theorem State.setS_saved (s : State) (a : BitVec 6) (w : Word) : (State.setS s a w).saved = s.saved := rfl
@[simp] theorem State.setS_fabric (s : State) (a : BitVec 6) (w : Word) : (State.setS s a w).fabric = s.fabric := rfl
@[simp] theorem State.setS_outgoing (s : State) (a : BitVec 6) (w : Word) : (State.setS s a w).outgoing = s.outgoing := rfl
@[simp] theorem State.setS_firmware (s : State) (a : BitVec 6) (w : Word) : (State.setS s a w).firmware = s.firmware := rfl
@[simp] theorem State.setS_selPart (s : State) (a : BitVec 6) (w : Word) : (State.setS s a w).selPart = s.selPart := rfl
@[simp] theorem State.setS_selCluster (s : State) (a : BitVec 6) (w : Word) : (State.setS s a w).selCluster = s.selCluster := rfl
@[simp] theorem State.setS_selReg (s : State) (a : BitVec 6) (w : Word) : (State.setS s a w).selReg = s.selReg := rfl
@[simp] theorem State.setS_endpoint (s : State) (a : BitVec 6) (w : Word) : (State.setS s a w).endpoint = s.endpoint := rfl
@[simp] theorem State.setS_ptime (s : State) (a : BitVec 6) (w : Word) : (State.setS s a w).ptime = s.ptime := rfl
@[simp] theorem State.setS_saveAreas (s : State) (a : BitVec 6) (w : Word) : (State.setS s a w).saveAreas = s.saveAreas := rfl
@[simp] theorem State.setS_loads (s : State) (a : BitVec 6) (w : Word) : (State.setS s a w).loads = s.loads := rfl
@[simp] theorem State.setS_landings (s : State) (a : BitVec 6) (w : Word) : (State.setS s a w).landings = s.landings := rfl
@[simp] theorem State.setS_trapReports (s : State) (a : BitVec 6) (w : Word) : (State.setS s a w).trapReports = s.trapReports := rfl
@[simp] theorem State.setS_agenda (s : State) (a : BitVec 6) (w : Word) : (State.setS s a w).agenda = s.agenda := rfl
@[simp] theorem State.setS_tick (s : State) (a : BitVec 6) (w : Word) : (State.setS s a w).tick = s.tick := rfl
@[simp] theorem State.setS_seq (s : State) (a : BitVec 6) (w : Word) : (State.setS s a w).seq = s.seq := rfl

/-! ## State.setS64 -/

@[simp] theorem State.setS64_plies (s : State) (a : BitVec 6) (x : DWord) : (State.setS64 s a x).plies = s.plies := rfl
@[simp] theorem State.setS64_ghosts (s : State) (a : BitVec 6) (x : DWord) : (State.setS64 s a x).ghosts = s.ghosts := rfl
@[simp] theorem State.setS64_issue (s : State) (a : BitVec 6) (x : DWord) : (State.setS64 s a x).issue = s.issue := rfl
@[simp] theorem State.setS64_mem (s : State) (a : BitVec 6) (x : DWord) : (State.setS64 s a x).mem = s.mem := rfl
@[simp] theorem State.setS64_stores (s : State) (a : BitVec 6) (x : DWord) : (State.setS64 s a x).stores = s.stores := rfl
@[simp] theorem State.setS64_homeLeases (s : State) (a : BitVec 6) (x : DWord) : (State.setS64 s a x).homeLeases = s.homeLeases := rfl
@[simp] theorem State.setS64_l2Leases (s : State) (a : BitVec 6) (x : DWord) : (State.setS64 s a x).l2Leases = s.l2Leases := rfl
@[simp] theorem State.setS64_l1Leases (s : State) (a : BitVec 6) (x : DWord) : (State.setS64 s a x).l1Leases = s.l1Leases := rfl
@[simp] theorem State.setS64_recent (s : State) (a : BitVec 6) (x : DWord) : (State.setS64 s a x).recent = s.recent := rfl
@[simp] theorem State.setS64_failing (s : State) (a : BitVec 6) (x : DWord) : (State.setS64 s a x).failing = s.failing := rfl
@[simp] theorem State.setS64_tlb (s : State) (a : BitVec 6) (x : DWord) : (State.setS64 s a x).tlb = s.tlb := rfl
@[simp] theorem State.setS64_headers (s : State) (a : BitVec 6) (x : DWord) : (State.setS64 s a x).headers = s.headers := rfl
@[simp] theorem State.setS64_cores (s : State) (a : BitVec 6) (x : DWord) : (State.setS64 s a x).cores = s.cores := rfl
@[simp] theorem State.setS64_clusters (s : State) (a : BitVec 6) (x : DWord) : (State.setS64 s a x).clusters = s.clusters := rfl
@[simp] theorem State.setS64_vaults (s : State) (a : BitVec 6) (x : DWord) : (State.setS64 s a x).vaults = s.vaults := rfl
@[simp] theorem State.setS64_fifos (s : State) (a : BitVec 6) (x : DWord) : (State.setS64 s a x).fifos = s.fifos := rfl
@[simp] theorem State.setS64_dies (s : State) (a : BitVec 6) (x : DWord) : (State.setS64 s a x).dies = s.dies := rfl
@[simp] theorem State.setS64_tenants (s : State) (a : BitVec 6) (x : DWord) : (State.setS64 s a x).tenants = s.tenants := rfl
@[simp] theorem State.setS64_reports (s : State) (a : BitVec 6) (x : DWord) : (State.setS64 s a x).reports = s.reports := rfl
@[simp] theorem State.setS64_scopes (s : State) (a : BitVec 6) (x : DWord) : (State.setS64 s a x).scopes = s.scopes := rfl
@[simp] theorem State.setS64_released (s : State) (a : BitVec 6) (x : DWord) : (State.setS64 s a x).released = s.released := rfl
@[simp] theorem State.setS64_counted (s : State) (a : BitVec 6) (x : DWord) : (State.setS64 s a x).counted = s.counted := rfl
@[simp] theorem State.setS64_arrivals (s : State) (a : BitVec 6) (x : DWord) : (State.setS64 s a x).arrivals = s.arrivals := rfl
@[simp] theorem State.setS64_departures (s : State) (a : BitVec 6) (x : DWord) : (State.setS64 s a x).departures = s.departures := rfl
@[simp] theorem State.setS64_broadcasts (s : State) (a : BitVec 6) (x : DWord) : (State.setS64 s a x).broadcasts = s.broadcasts := rfl
@[simp] theorem State.setS64_transit (s : State) (a : BitVec 6) (x : DWord) : (State.setS64 s a x).transit = s.transit := rfl
@[simp] theorem State.setS64_pieces (s : State) (a : BitVec 6) (x : DWord) : (State.setS64 s a x).pieces = s.pieces := rfl
@[simp] theorem State.setS64_firings (s : State) (a : BitVec 6) (x : DWord) : (State.setS64 s a x).firings = s.firings := rfl
@[simp] theorem State.setS64_saved (s : State) (a : BitVec 6) (x : DWord) : (State.setS64 s a x).saved = s.saved := rfl
@[simp] theorem State.setS64_fabric (s : State) (a : BitVec 6) (x : DWord) : (State.setS64 s a x).fabric = s.fabric := rfl
@[simp] theorem State.setS64_outgoing (s : State) (a : BitVec 6) (x : DWord) : (State.setS64 s a x).outgoing = s.outgoing := rfl
@[simp] theorem State.setS64_firmware (s : State) (a : BitVec 6) (x : DWord) : (State.setS64 s a x).firmware = s.firmware := rfl
@[simp] theorem State.setS64_selPart (s : State) (a : BitVec 6) (x : DWord) : (State.setS64 s a x).selPart = s.selPart := rfl
@[simp] theorem State.setS64_selCluster (s : State) (a : BitVec 6) (x : DWord) : (State.setS64 s a x).selCluster = s.selCluster := rfl
@[simp] theorem State.setS64_selReg (s : State) (a : BitVec 6) (x : DWord) : (State.setS64 s a x).selReg = s.selReg := rfl
@[simp] theorem State.setS64_endpoint (s : State) (a : BitVec 6) (x : DWord) : (State.setS64 s a x).endpoint = s.endpoint := rfl
@[simp] theorem State.setS64_ptime (s : State) (a : BitVec 6) (x : DWord) : (State.setS64 s a x).ptime = s.ptime := rfl
@[simp] theorem State.setS64_saveAreas (s : State) (a : BitVec 6) (x : DWord) : (State.setS64 s a x).saveAreas = s.saveAreas := rfl
@[simp] theorem State.setS64_loads (s : State) (a : BitVec 6) (x : DWord) : (State.setS64 s a x).loads = s.loads := rfl
@[simp] theorem State.setS64_landings (s : State) (a : BitVec 6) (x : DWord) : (State.setS64 s a x).landings = s.landings := rfl
@[simp] theorem State.setS64_trapReports (s : State) (a : BitVec 6) (x : DWord) : (State.setS64 s a x).trapReports = s.trapReports := rfl
@[simp] theorem State.setS64_agenda (s : State) (a : BitVec 6) (x : DWord) : (State.setS64 s a x).agenda = s.agenda := rfl
@[simp] theorem State.setS64_tick (s : State) (a : BitVec 6) (x : DWord) : (State.setS64 s a x).tick = s.tick := rfl
@[simp] theorem State.setS64_seq (s : State) (a : BitVec 6) (x : DWord) : (State.setS64 s a x).seq = s.seq := rfl

/-! ## State.setTriple -/

@[simp] theorem State.setTriple_plies (s : State) (a : BitVec 6) (m : Mask) : (State.setTriple s a m).plies = s.plies := rfl
@[simp] theorem State.setTriple_ghosts (s : State) (a : BitVec 6) (m : Mask) : (State.setTriple s a m).ghosts = s.ghosts := rfl
@[simp] theorem State.setTriple_issue (s : State) (a : BitVec 6) (m : Mask) : (State.setTriple s a m).issue = s.issue := rfl
@[simp] theorem State.setTriple_mem (s : State) (a : BitVec 6) (m : Mask) : (State.setTriple s a m).mem = s.mem := rfl
@[simp] theorem State.setTriple_stores (s : State) (a : BitVec 6) (m : Mask) : (State.setTriple s a m).stores = s.stores := rfl
@[simp] theorem State.setTriple_homeLeases (s : State) (a : BitVec 6) (m : Mask) : (State.setTriple s a m).homeLeases = s.homeLeases := rfl
@[simp] theorem State.setTriple_l2Leases (s : State) (a : BitVec 6) (m : Mask) : (State.setTriple s a m).l2Leases = s.l2Leases := rfl
@[simp] theorem State.setTriple_l1Leases (s : State) (a : BitVec 6) (m : Mask) : (State.setTriple s a m).l1Leases = s.l1Leases := rfl
@[simp] theorem State.setTriple_recent (s : State) (a : BitVec 6) (m : Mask) : (State.setTriple s a m).recent = s.recent := rfl
@[simp] theorem State.setTriple_failing (s : State) (a : BitVec 6) (m : Mask) : (State.setTriple s a m).failing = s.failing := rfl
@[simp] theorem State.setTriple_tlb (s : State) (a : BitVec 6) (m : Mask) : (State.setTriple s a m).tlb = s.tlb := rfl
@[simp] theorem State.setTriple_headers (s : State) (a : BitVec 6) (m : Mask) : (State.setTriple s a m).headers = s.headers := rfl
@[simp] theorem State.setTriple_cores (s : State) (a : BitVec 6) (m : Mask) : (State.setTriple s a m).cores = s.cores := rfl
@[simp] theorem State.setTriple_clusters (s : State) (a : BitVec 6) (m : Mask) : (State.setTriple s a m).clusters = s.clusters := rfl
@[simp] theorem State.setTriple_vaults (s : State) (a : BitVec 6) (m : Mask) : (State.setTriple s a m).vaults = s.vaults := rfl
@[simp] theorem State.setTriple_fifos (s : State) (a : BitVec 6) (m : Mask) : (State.setTriple s a m).fifos = s.fifos := rfl
@[simp] theorem State.setTriple_dies (s : State) (a : BitVec 6) (m : Mask) : (State.setTriple s a m).dies = s.dies := rfl
@[simp] theorem State.setTriple_tenants (s : State) (a : BitVec 6) (m : Mask) : (State.setTriple s a m).tenants = s.tenants := rfl
@[simp] theorem State.setTriple_reports (s : State) (a : BitVec 6) (m : Mask) : (State.setTriple s a m).reports = s.reports := rfl
@[simp] theorem State.setTriple_scopes (s : State) (a : BitVec 6) (m : Mask) : (State.setTriple s a m).scopes = s.scopes := rfl
@[simp] theorem State.setTriple_released (s : State) (a : BitVec 6) (m : Mask) : (State.setTriple s a m).released = s.released := rfl
@[simp] theorem State.setTriple_counted (s : State) (a : BitVec 6) (m : Mask) : (State.setTriple s a m).counted = s.counted := rfl
@[simp] theorem State.setTriple_arrivals (s : State) (a : BitVec 6) (m : Mask) : (State.setTriple s a m).arrivals = s.arrivals := rfl
@[simp] theorem State.setTriple_departures (s : State) (a : BitVec 6) (m : Mask) : (State.setTriple s a m).departures = s.departures := rfl
@[simp] theorem State.setTriple_broadcasts (s : State) (a : BitVec 6) (m : Mask) : (State.setTriple s a m).broadcasts = s.broadcasts := rfl
@[simp] theorem State.setTriple_transit (s : State) (a : BitVec 6) (m : Mask) : (State.setTriple s a m).transit = s.transit := rfl
@[simp] theorem State.setTriple_pieces (s : State) (a : BitVec 6) (m : Mask) : (State.setTriple s a m).pieces = s.pieces := rfl
@[simp] theorem State.setTriple_firings (s : State) (a : BitVec 6) (m : Mask) : (State.setTriple s a m).firings = s.firings := rfl
@[simp] theorem State.setTriple_saved (s : State) (a : BitVec 6) (m : Mask) : (State.setTriple s a m).saved = s.saved := rfl
@[simp] theorem State.setTriple_fabric (s : State) (a : BitVec 6) (m : Mask) : (State.setTriple s a m).fabric = s.fabric := rfl
@[simp] theorem State.setTriple_outgoing (s : State) (a : BitVec 6) (m : Mask) : (State.setTriple s a m).outgoing = s.outgoing := rfl
@[simp] theorem State.setTriple_firmware (s : State) (a : BitVec 6) (m : Mask) : (State.setTriple s a m).firmware = s.firmware := rfl
@[simp] theorem State.setTriple_selPart (s : State) (a : BitVec 6) (m : Mask) : (State.setTriple s a m).selPart = s.selPart := rfl
@[simp] theorem State.setTriple_selCluster (s : State) (a : BitVec 6) (m : Mask) : (State.setTriple s a m).selCluster = s.selCluster := rfl
@[simp] theorem State.setTriple_selReg (s : State) (a : BitVec 6) (m : Mask) : (State.setTriple s a m).selReg = s.selReg := rfl
@[simp] theorem State.setTriple_endpoint (s : State) (a : BitVec 6) (m : Mask) : (State.setTriple s a m).endpoint = s.endpoint := rfl
@[simp] theorem State.setTriple_ptime (s : State) (a : BitVec 6) (m : Mask) : (State.setTriple s a m).ptime = s.ptime := rfl
@[simp] theorem State.setTriple_saveAreas (s : State) (a : BitVec 6) (m : Mask) : (State.setTriple s a m).saveAreas = s.saveAreas := rfl
@[simp] theorem State.setTriple_loads (s : State) (a : BitVec 6) (m : Mask) : (State.setTriple s a m).loads = s.loads := rfl
@[simp] theorem State.setTriple_landings (s : State) (a : BitVec 6) (m : Mask) : (State.setTriple s a m).landings = s.landings := rfl
@[simp] theorem State.setTriple_trapReports (s : State) (a : BitVec 6) (m : Mask) : (State.setTriple s a m).trapReports = s.trapReports := rfl
@[simp] theorem State.setTriple_agenda (s : State) (a : BitVec 6) (m : Mask) : (State.setTriple s a m).agenda = s.agenda := rfl
@[simp] theorem State.setTriple_tick (s : State) (a : BitVec 6) (m : Mask) : (State.setTriple s a m).tick = s.tick := rfl
@[simp] theorem State.setTriple_seq (s : State) (a : BitVec 6) (m : Mask) : (State.setTriple s a m).seq = s.seq := rfl

/-! ## State.wait -/

@[simp] theorem State.wait_plies (s : State) (w : Wait) : (State.wait s w).plies = s.plies := rfl
@[simp] theorem State.wait_ghosts (s : State) (w : Wait) : (State.wait s w).ghosts = s.ghosts := rfl
@[simp] theorem State.wait_issue (s : State) (w : Wait) : (State.wait s w).issue = s.issue := rfl
@[simp] theorem State.wait_mem (s : State) (w : Wait) : (State.wait s w).mem = s.mem := rfl
@[simp] theorem State.wait_stores (s : State) (w : Wait) : (State.wait s w).stores = s.stores := rfl
@[simp] theorem State.wait_homeLeases (s : State) (w : Wait) : (State.wait s w).homeLeases = s.homeLeases := rfl
@[simp] theorem State.wait_l2Leases (s : State) (w : Wait) : (State.wait s w).l2Leases = s.l2Leases := rfl
@[simp] theorem State.wait_l1Leases (s : State) (w : Wait) : (State.wait s w).l1Leases = s.l1Leases := rfl
@[simp] theorem State.wait_recent (s : State) (w : Wait) : (State.wait s w).recent = s.recent := rfl
@[simp] theorem State.wait_failing (s : State) (w : Wait) : (State.wait s w).failing = s.failing := rfl
@[simp] theorem State.wait_tlb (s : State) (w : Wait) : (State.wait s w).tlb = s.tlb := rfl
@[simp] theorem State.wait_headers (s : State) (w : Wait) : (State.wait s w).headers = s.headers := rfl
@[simp] theorem State.wait_cores (s : State) (w : Wait) : (State.wait s w).cores = s.cores := rfl
@[simp] theorem State.wait_clusters (s : State) (w : Wait) : (State.wait s w).clusters = s.clusters := rfl
@[simp] theorem State.wait_vaults (s : State) (w : Wait) : (State.wait s w).vaults = s.vaults := rfl
@[simp] theorem State.wait_fifos (s : State) (w : Wait) : (State.wait s w).fifos = s.fifos := rfl
@[simp] theorem State.wait_dies (s : State) (w : Wait) : (State.wait s w).dies = s.dies := rfl
@[simp] theorem State.wait_tenants (s : State) (w : Wait) : (State.wait s w).tenants = s.tenants := rfl
@[simp] theorem State.wait_reports (s : State) (w : Wait) : (State.wait s w).reports = s.reports := rfl
@[simp] theorem State.wait_scopes (s : State) (w : Wait) : (State.wait s w).scopes = s.scopes := rfl
@[simp] theorem State.wait_released (s : State) (w : Wait) : (State.wait s w).released = s.released := rfl
@[simp] theorem State.wait_counted (s : State) (w : Wait) : (State.wait s w).counted = s.counted := rfl
@[simp] theorem State.wait_arrivals (s : State) (w : Wait) : (State.wait s w).arrivals = s.arrivals := rfl
@[simp] theorem State.wait_departures (s : State) (w : Wait) : (State.wait s w).departures = s.departures := rfl
@[simp] theorem State.wait_broadcasts (s : State) (w : Wait) : (State.wait s w).broadcasts = s.broadcasts := rfl
@[simp] theorem State.wait_transit (s : State) (w : Wait) : (State.wait s w).transit = s.transit := rfl
@[simp] theorem State.wait_pieces (s : State) (w : Wait) : (State.wait s w).pieces = s.pieces := rfl
@[simp] theorem State.wait_firings (s : State) (w : Wait) : (State.wait s w).firings = s.firings := rfl
@[simp] theorem State.wait_saved (s : State) (w : Wait) : (State.wait s w).saved = s.saved := rfl
@[simp] theorem State.wait_fabric (s : State) (w : Wait) : (State.wait s w).fabric = s.fabric := rfl
@[simp] theorem State.wait_outgoing (s : State) (w : Wait) : (State.wait s w).outgoing = s.outgoing := rfl
@[simp] theorem State.wait_firmware (s : State) (w : Wait) : (State.wait s w).firmware = s.firmware := rfl
@[simp] theorem State.wait_selPart (s : State) (w : Wait) : (State.wait s w).selPart = s.selPart := rfl
@[simp] theorem State.wait_selCluster (s : State) (w : Wait) : (State.wait s w).selCluster = s.selCluster := rfl
@[simp] theorem State.wait_selReg (s : State) (w : Wait) : (State.wait s w).selReg = s.selReg := rfl
@[simp] theorem State.wait_endpoint (s : State) (w : Wait) : (State.wait s w).endpoint = s.endpoint := rfl
@[simp] theorem State.wait_ptime (s : State) (w : Wait) : (State.wait s w).ptime = s.ptime := rfl
@[simp] theorem State.wait_saveAreas (s : State) (w : Wait) : (State.wait s w).saveAreas = s.saveAreas := rfl
@[simp] theorem State.wait_loads (s : State) (w : Wait) : (State.wait s w).loads = s.loads := rfl
@[simp] theorem State.wait_landings (s : State) (w : Wait) : (State.wait s w).landings = s.landings := rfl
@[simp] theorem State.wait_trapReports (s : State) (w : Wait) : (State.wait s w).trapReports = s.trapReports := rfl
@[simp] theorem State.wait_agenda (s : State) (w : Wait) : (State.wait s w).agenda = s.agenda := rfl
@[simp] theorem State.wait_tick (s : State) (w : Wait) : (State.wait s w).tick = s.tick := rfl
@[simp] theorem State.wait_seq (s : State) (w : Wait) : (State.wait s w).seq = s.seq := rfl

/-! ## State.vresult -/

@[simp] theorem State.vresult_plies (s : State) (d : BitVec 7) (nw : BitVec 1) (f : Nat → Word) : (State.vresult s d nw f).plies = s.plies := rfl
@[simp] theorem State.vresult_ghosts (s : State) (d : BitVec 7) (nw : BitVec 1) (f : Nat → Word) : (State.vresult s d nw f).ghosts = s.ghosts := rfl
@[simp] theorem State.vresult_issue (s : State) (d : BitVec 7) (nw : BitVec 1) (f : Nat → Word) : (State.vresult s d nw f).issue = s.issue := rfl
@[simp] theorem State.vresult_mem (s : State) (d : BitVec 7) (nw : BitVec 1) (f : Nat → Word) : (State.vresult s d nw f).mem = s.mem := rfl
@[simp] theorem State.vresult_stores (s : State) (d : BitVec 7) (nw : BitVec 1) (f : Nat → Word) : (State.vresult s d nw f).stores = s.stores := rfl
@[simp] theorem State.vresult_homeLeases (s : State) (d : BitVec 7) (nw : BitVec 1) (f : Nat → Word) : (State.vresult s d nw f).homeLeases = s.homeLeases := rfl
@[simp] theorem State.vresult_l2Leases (s : State) (d : BitVec 7) (nw : BitVec 1) (f : Nat → Word) : (State.vresult s d nw f).l2Leases = s.l2Leases := rfl
@[simp] theorem State.vresult_l1Leases (s : State) (d : BitVec 7) (nw : BitVec 1) (f : Nat → Word) : (State.vresult s d nw f).l1Leases = s.l1Leases := rfl
@[simp] theorem State.vresult_recent (s : State) (d : BitVec 7) (nw : BitVec 1) (f : Nat → Word) : (State.vresult s d nw f).recent = s.recent := rfl
@[simp] theorem State.vresult_failing (s : State) (d : BitVec 7) (nw : BitVec 1) (f : Nat → Word) : (State.vresult s d nw f).failing = s.failing := rfl
@[simp] theorem State.vresult_tlb (s : State) (d : BitVec 7) (nw : BitVec 1) (f : Nat → Word) : (State.vresult s d nw f).tlb = s.tlb := rfl
@[simp] theorem State.vresult_headers (s : State) (d : BitVec 7) (nw : BitVec 1) (f : Nat → Word) : (State.vresult s d nw f).headers = s.headers := rfl
@[simp] theorem State.vresult_cores (s : State) (d : BitVec 7) (nw : BitVec 1) (f : Nat → Word) : (State.vresult s d nw f).cores = s.cores := rfl
@[simp] theorem State.vresult_clusters (s : State) (d : BitVec 7) (nw : BitVec 1) (f : Nat → Word) : (State.vresult s d nw f).clusters = s.clusters := rfl
@[simp] theorem State.vresult_vaults (s : State) (d : BitVec 7) (nw : BitVec 1) (f : Nat → Word) : (State.vresult s d nw f).vaults = s.vaults := rfl
@[simp] theorem State.vresult_fifos (s : State) (d : BitVec 7) (nw : BitVec 1) (f : Nat → Word) : (State.vresult s d nw f).fifos = s.fifos := rfl
@[simp] theorem State.vresult_dies (s : State) (d : BitVec 7) (nw : BitVec 1) (f : Nat → Word) : (State.vresult s d nw f).dies = s.dies := rfl
@[simp] theorem State.vresult_tenants (s : State) (d : BitVec 7) (nw : BitVec 1) (f : Nat → Word) : (State.vresult s d nw f).tenants = s.tenants := rfl
@[simp] theorem State.vresult_reports (s : State) (d : BitVec 7) (nw : BitVec 1) (f : Nat → Word) : (State.vresult s d nw f).reports = s.reports := rfl
@[simp] theorem State.vresult_scopes (s : State) (d : BitVec 7) (nw : BitVec 1) (f : Nat → Word) : (State.vresult s d nw f).scopes = s.scopes := rfl
@[simp] theorem State.vresult_released (s : State) (d : BitVec 7) (nw : BitVec 1) (f : Nat → Word) : (State.vresult s d nw f).released = s.released := rfl
@[simp] theorem State.vresult_counted (s : State) (d : BitVec 7) (nw : BitVec 1) (f : Nat → Word) : (State.vresult s d nw f).counted = s.counted := rfl
@[simp] theorem State.vresult_arrivals (s : State) (d : BitVec 7) (nw : BitVec 1) (f : Nat → Word) : (State.vresult s d nw f).arrivals = s.arrivals := rfl
@[simp] theorem State.vresult_departures (s : State) (d : BitVec 7) (nw : BitVec 1) (f : Nat → Word) : (State.vresult s d nw f).departures = s.departures := rfl
@[simp] theorem State.vresult_broadcasts (s : State) (d : BitVec 7) (nw : BitVec 1) (f : Nat → Word) : (State.vresult s d nw f).broadcasts = s.broadcasts := rfl
@[simp] theorem State.vresult_transit (s : State) (d : BitVec 7) (nw : BitVec 1) (f : Nat → Word) : (State.vresult s d nw f).transit = s.transit := rfl
@[simp] theorem State.vresult_pieces (s : State) (d : BitVec 7) (nw : BitVec 1) (f : Nat → Word) : (State.vresult s d nw f).pieces = s.pieces := rfl
@[simp] theorem State.vresult_firings (s : State) (d : BitVec 7) (nw : BitVec 1) (f : Nat → Word) : (State.vresult s d nw f).firings = s.firings := rfl
@[simp] theorem State.vresult_saved (s : State) (d : BitVec 7) (nw : BitVec 1) (f : Nat → Word) : (State.vresult s d nw f).saved = s.saved := rfl
@[simp] theorem State.vresult_fabric (s : State) (d : BitVec 7) (nw : BitVec 1) (f : Nat → Word) : (State.vresult s d nw f).fabric = s.fabric := rfl
@[simp] theorem State.vresult_outgoing (s : State) (d : BitVec 7) (nw : BitVec 1) (f : Nat → Word) : (State.vresult s d nw f).outgoing = s.outgoing := rfl
@[simp] theorem State.vresult_firmware (s : State) (d : BitVec 7) (nw : BitVec 1) (f : Nat → Word) : (State.vresult s d nw f).firmware = s.firmware := rfl
@[simp] theorem State.vresult_selPart (s : State) (d : BitVec 7) (nw : BitVec 1) (f : Nat → Word) : (State.vresult s d nw f).selPart = s.selPart := rfl
@[simp] theorem State.vresult_selCluster (s : State) (d : BitVec 7) (nw : BitVec 1) (f : Nat → Word) : (State.vresult s d nw f).selCluster = s.selCluster := rfl
@[simp] theorem State.vresult_selReg (s : State) (d : BitVec 7) (nw : BitVec 1) (f : Nat → Word) : (State.vresult s d nw f).selReg = s.selReg := rfl
@[simp] theorem State.vresult_endpoint (s : State) (d : BitVec 7) (nw : BitVec 1) (f : Nat → Word) : (State.vresult s d nw f).endpoint = s.endpoint := rfl
@[simp] theorem State.vresult_ptime (s : State) (d : BitVec 7) (nw : BitVec 1) (f : Nat → Word) : (State.vresult s d nw f).ptime = s.ptime := rfl
@[simp] theorem State.vresult_saveAreas (s : State) (d : BitVec 7) (nw : BitVec 1) (f : Nat → Word) : (State.vresult s d nw f).saveAreas = s.saveAreas := rfl
@[simp] theorem State.vresult_loads (s : State) (d : BitVec 7) (nw : BitVec 1) (f : Nat → Word) : (State.vresult s d nw f).loads = s.loads := rfl
@[simp] theorem State.vresult_landings (s : State) (d : BitVec 7) (nw : BitVec 1) (f : Nat → Word) : (State.vresult s d nw f).landings = s.landings := rfl
@[simp] theorem State.vresult_trapReports (s : State) (d : BitVec 7) (nw : BitVec 1) (f : Nat → Word) : (State.vresult s d nw f).trapReports = s.trapReports := rfl
@[simp] theorem State.vresult_agenda (s : State) (d : BitVec 7) (nw : BitVec 1) (f : Nat → Word) : (State.vresult s d nw f).agenda = s.agenda := rfl
@[simp] theorem State.vresult_tick (s : State) (d : BitVec 7) (nw : BitVec 1) (f : Nat → Word) : (State.vresult s d nw f).tick = s.tick := rfl
@[simp] theorem State.vresult_seq (s : State) (d : BitVec 7) (nw : BitVec 1) (f : Nat → Word) : (State.vresult s d nw f).seq = s.seq := rfl

/-! ## State.sresult -/

@[simp] theorem State.sresult_plies (s : State) (d : BitVec 6) (w : Word) : (State.sresult s d w).plies = s.plies := rfl
@[simp] theorem State.sresult_ghosts (s : State) (d : BitVec 6) (w : Word) : (State.sresult s d w).ghosts = s.ghosts := rfl
@[simp] theorem State.sresult_issue (s : State) (d : BitVec 6) (w : Word) : (State.sresult s d w).issue = s.issue := rfl
@[simp] theorem State.sresult_mem (s : State) (d : BitVec 6) (w : Word) : (State.sresult s d w).mem = s.mem := rfl
@[simp] theorem State.sresult_stores (s : State) (d : BitVec 6) (w : Word) : (State.sresult s d w).stores = s.stores := rfl
@[simp] theorem State.sresult_homeLeases (s : State) (d : BitVec 6) (w : Word) : (State.sresult s d w).homeLeases = s.homeLeases := rfl
@[simp] theorem State.sresult_l2Leases (s : State) (d : BitVec 6) (w : Word) : (State.sresult s d w).l2Leases = s.l2Leases := rfl
@[simp] theorem State.sresult_l1Leases (s : State) (d : BitVec 6) (w : Word) : (State.sresult s d w).l1Leases = s.l1Leases := rfl
@[simp] theorem State.sresult_recent (s : State) (d : BitVec 6) (w : Word) : (State.sresult s d w).recent = s.recent := rfl
@[simp] theorem State.sresult_failing (s : State) (d : BitVec 6) (w : Word) : (State.sresult s d w).failing = s.failing := rfl
@[simp] theorem State.sresult_tlb (s : State) (d : BitVec 6) (w : Word) : (State.sresult s d w).tlb = s.tlb := rfl
@[simp] theorem State.sresult_headers (s : State) (d : BitVec 6) (w : Word) : (State.sresult s d w).headers = s.headers := rfl
@[simp] theorem State.sresult_cores (s : State) (d : BitVec 6) (w : Word) : (State.sresult s d w).cores = s.cores := rfl
@[simp] theorem State.sresult_clusters (s : State) (d : BitVec 6) (w : Word) : (State.sresult s d w).clusters = s.clusters := rfl
@[simp] theorem State.sresult_vaults (s : State) (d : BitVec 6) (w : Word) : (State.sresult s d w).vaults = s.vaults := rfl
@[simp] theorem State.sresult_fifos (s : State) (d : BitVec 6) (w : Word) : (State.sresult s d w).fifos = s.fifos := rfl
@[simp] theorem State.sresult_dies (s : State) (d : BitVec 6) (w : Word) : (State.sresult s d w).dies = s.dies := rfl
@[simp] theorem State.sresult_tenants (s : State) (d : BitVec 6) (w : Word) : (State.sresult s d w).tenants = s.tenants := rfl
@[simp] theorem State.sresult_reports (s : State) (d : BitVec 6) (w : Word) : (State.sresult s d w).reports = s.reports := rfl
@[simp] theorem State.sresult_scopes (s : State) (d : BitVec 6) (w : Word) : (State.sresult s d w).scopes = s.scopes := rfl
@[simp] theorem State.sresult_released (s : State) (d : BitVec 6) (w : Word) : (State.sresult s d w).released = s.released := rfl
@[simp] theorem State.sresult_counted (s : State) (d : BitVec 6) (w : Word) : (State.sresult s d w).counted = s.counted := rfl
@[simp] theorem State.sresult_arrivals (s : State) (d : BitVec 6) (w : Word) : (State.sresult s d w).arrivals = s.arrivals := rfl
@[simp] theorem State.sresult_departures (s : State) (d : BitVec 6) (w : Word) : (State.sresult s d w).departures = s.departures := rfl
@[simp] theorem State.sresult_broadcasts (s : State) (d : BitVec 6) (w : Word) : (State.sresult s d w).broadcasts = s.broadcasts := rfl
@[simp] theorem State.sresult_transit (s : State) (d : BitVec 6) (w : Word) : (State.sresult s d w).transit = s.transit := rfl
@[simp] theorem State.sresult_pieces (s : State) (d : BitVec 6) (w : Word) : (State.sresult s d w).pieces = s.pieces := rfl
@[simp] theorem State.sresult_firings (s : State) (d : BitVec 6) (w : Word) : (State.sresult s d w).firings = s.firings := rfl
@[simp] theorem State.sresult_saved (s : State) (d : BitVec 6) (w : Word) : (State.sresult s d w).saved = s.saved := rfl
@[simp] theorem State.sresult_fabric (s : State) (d : BitVec 6) (w : Word) : (State.sresult s d w).fabric = s.fabric := rfl
@[simp] theorem State.sresult_outgoing (s : State) (d : BitVec 6) (w : Word) : (State.sresult s d w).outgoing = s.outgoing := rfl
@[simp] theorem State.sresult_firmware (s : State) (d : BitVec 6) (w : Word) : (State.sresult s d w).firmware = s.firmware := rfl
@[simp] theorem State.sresult_selPart (s : State) (d : BitVec 6) (w : Word) : (State.sresult s d w).selPart = s.selPart := rfl
@[simp] theorem State.sresult_selCluster (s : State) (d : BitVec 6) (w : Word) : (State.sresult s d w).selCluster = s.selCluster := rfl
@[simp] theorem State.sresult_selReg (s : State) (d : BitVec 6) (w : Word) : (State.sresult s d w).selReg = s.selReg := rfl
@[simp] theorem State.sresult_endpoint (s : State) (d : BitVec 6) (w : Word) : (State.sresult s d w).endpoint = s.endpoint := rfl
@[simp] theorem State.sresult_ptime (s : State) (d : BitVec 6) (w : Word) : (State.sresult s d w).ptime = s.ptime := rfl
@[simp] theorem State.sresult_saveAreas (s : State) (d : BitVec 6) (w : Word) : (State.sresult s d w).saveAreas = s.saveAreas := rfl
@[simp] theorem State.sresult_loads (s : State) (d : BitVec 6) (w : Word) : (State.sresult s d w).loads = s.loads := rfl
@[simp] theorem State.sresult_landings (s : State) (d : BitVec 6) (w : Word) : (State.sresult s d w).landings = s.landings := rfl
@[simp] theorem State.sresult_trapReports (s : State) (d : BitVec 6) (w : Word) : (State.sresult s d w).trapReports = s.trapReports := rfl
@[simp] theorem State.sresult_agenda (s : State) (d : BitVec 6) (w : Word) : (State.sresult s d w).agenda = s.agenda := rfl
@[simp] theorem State.sresult_tick (s : State) (d : BitVec 6) (w : Word) : (State.sresult s d w).tick = s.tick := rfl
@[simp] theorem State.sresult_seq (s : State) (d : BitVec 6) (w : Word) : (State.sresult s d w).seq = s.seq := rfl

/-! ## State.sresult64 -/

@[simp] theorem State.sresult64_plies (s : State) (d : BitVec 6) (x : DWord) : (State.sresult64 s d x).plies = s.plies := rfl
@[simp] theorem State.sresult64_ghosts (s : State) (d : BitVec 6) (x : DWord) : (State.sresult64 s d x).ghosts = s.ghosts := rfl
@[simp] theorem State.sresult64_issue (s : State) (d : BitVec 6) (x : DWord) : (State.sresult64 s d x).issue = s.issue := rfl
@[simp] theorem State.sresult64_mem (s : State) (d : BitVec 6) (x : DWord) : (State.sresult64 s d x).mem = s.mem := rfl
@[simp] theorem State.sresult64_stores (s : State) (d : BitVec 6) (x : DWord) : (State.sresult64 s d x).stores = s.stores := rfl
@[simp] theorem State.sresult64_homeLeases (s : State) (d : BitVec 6) (x : DWord) : (State.sresult64 s d x).homeLeases = s.homeLeases := rfl
@[simp] theorem State.sresult64_l2Leases (s : State) (d : BitVec 6) (x : DWord) : (State.sresult64 s d x).l2Leases = s.l2Leases := rfl
@[simp] theorem State.sresult64_l1Leases (s : State) (d : BitVec 6) (x : DWord) : (State.sresult64 s d x).l1Leases = s.l1Leases := rfl
@[simp] theorem State.sresult64_recent (s : State) (d : BitVec 6) (x : DWord) : (State.sresult64 s d x).recent = s.recent := rfl
@[simp] theorem State.sresult64_failing (s : State) (d : BitVec 6) (x : DWord) : (State.sresult64 s d x).failing = s.failing := rfl
@[simp] theorem State.sresult64_tlb (s : State) (d : BitVec 6) (x : DWord) : (State.sresult64 s d x).tlb = s.tlb := rfl
@[simp] theorem State.sresult64_headers (s : State) (d : BitVec 6) (x : DWord) : (State.sresult64 s d x).headers = s.headers := rfl
@[simp] theorem State.sresult64_cores (s : State) (d : BitVec 6) (x : DWord) : (State.sresult64 s d x).cores = s.cores := rfl
@[simp] theorem State.sresult64_clusters (s : State) (d : BitVec 6) (x : DWord) : (State.sresult64 s d x).clusters = s.clusters := rfl
@[simp] theorem State.sresult64_vaults (s : State) (d : BitVec 6) (x : DWord) : (State.sresult64 s d x).vaults = s.vaults := rfl
@[simp] theorem State.sresult64_fifos (s : State) (d : BitVec 6) (x : DWord) : (State.sresult64 s d x).fifos = s.fifos := rfl
@[simp] theorem State.sresult64_dies (s : State) (d : BitVec 6) (x : DWord) : (State.sresult64 s d x).dies = s.dies := rfl
@[simp] theorem State.sresult64_tenants (s : State) (d : BitVec 6) (x : DWord) : (State.sresult64 s d x).tenants = s.tenants := rfl
@[simp] theorem State.sresult64_reports (s : State) (d : BitVec 6) (x : DWord) : (State.sresult64 s d x).reports = s.reports := rfl
@[simp] theorem State.sresult64_scopes (s : State) (d : BitVec 6) (x : DWord) : (State.sresult64 s d x).scopes = s.scopes := rfl
@[simp] theorem State.sresult64_released (s : State) (d : BitVec 6) (x : DWord) : (State.sresult64 s d x).released = s.released := rfl
@[simp] theorem State.sresult64_counted (s : State) (d : BitVec 6) (x : DWord) : (State.sresult64 s d x).counted = s.counted := rfl
@[simp] theorem State.sresult64_arrivals (s : State) (d : BitVec 6) (x : DWord) : (State.sresult64 s d x).arrivals = s.arrivals := rfl
@[simp] theorem State.sresult64_departures (s : State) (d : BitVec 6) (x : DWord) : (State.sresult64 s d x).departures = s.departures := rfl
@[simp] theorem State.sresult64_broadcasts (s : State) (d : BitVec 6) (x : DWord) : (State.sresult64 s d x).broadcasts = s.broadcasts := rfl
@[simp] theorem State.sresult64_transit (s : State) (d : BitVec 6) (x : DWord) : (State.sresult64 s d x).transit = s.transit := rfl
@[simp] theorem State.sresult64_pieces (s : State) (d : BitVec 6) (x : DWord) : (State.sresult64 s d x).pieces = s.pieces := rfl
@[simp] theorem State.sresult64_firings (s : State) (d : BitVec 6) (x : DWord) : (State.sresult64 s d x).firings = s.firings := rfl
@[simp] theorem State.sresult64_saved (s : State) (d : BitVec 6) (x : DWord) : (State.sresult64 s d x).saved = s.saved := rfl
@[simp] theorem State.sresult64_fabric (s : State) (d : BitVec 6) (x : DWord) : (State.sresult64 s d x).fabric = s.fabric := rfl
@[simp] theorem State.sresult64_outgoing (s : State) (d : BitVec 6) (x : DWord) : (State.sresult64 s d x).outgoing = s.outgoing := rfl
@[simp] theorem State.sresult64_firmware (s : State) (d : BitVec 6) (x : DWord) : (State.sresult64 s d x).firmware = s.firmware := rfl
@[simp] theorem State.sresult64_selPart (s : State) (d : BitVec 6) (x : DWord) : (State.sresult64 s d x).selPart = s.selPart := rfl
@[simp] theorem State.sresult64_selCluster (s : State) (d : BitVec 6) (x : DWord) : (State.sresult64 s d x).selCluster = s.selCluster := rfl
@[simp] theorem State.sresult64_selReg (s : State) (d : BitVec 6) (x : DWord) : (State.sresult64 s d x).selReg = s.selReg := rfl
@[simp] theorem State.sresult64_endpoint (s : State) (d : BitVec 6) (x : DWord) : (State.sresult64 s d x).endpoint = s.endpoint := rfl
@[simp] theorem State.sresult64_ptime (s : State) (d : BitVec 6) (x : DWord) : (State.sresult64 s d x).ptime = s.ptime := rfl
@[simp] theorem State.sresult64_saveAreas (s : State) (d : BitVec 6) (x : DWord) : (State.sresult64 s d x).saveAreas = s.saveAreas := rfl
@[simp] theorem State.sresult64_loads (s : State) (d : BitVec 6) (x : DWord) : (State.sresult64 s d x).loads = s.loads := rfl
@[simp] theorem State.sresult64_landings (s : State) (d : BitVec 6) (x : DWord) : (State.sresult64 s d x).landings = s.landings := rfl
@[simp] theorem State.sresult64_trapReports (s : State) (d : BitVec 6) (x : DWord) : (State.sresult64 s d x).trapReports = s.trapReports := rfl
@[simp] theorem State.sresult64_agenda (s : State) (d : BitVec 6) (x : DWord) : (State.sresult64 s d x).agenda = s.agenda := rfl
@[simp] theorem State.sresult64_tick (s : State) (d : BitVec 6) (x : DWord) : (State.sresult64 s d x).tick = s.tick := rfl
@[simp] theorem State.sresult64_seq (s : State) (d : BitVec 6) (x : DWord) : (State.sresult64 s d x).seq = s.seq := rfl

/-! ## State.setCore -/

@[simp] theorem State.setCore_ply (s : State) (k : Nat) (c : Core) : (State.setCore s k c).ply = s.ply := rfl
@[simp] theorem State.setCore_plies (s : State) (k : Nat) (c : Core) : (State.setCore s k c).plies = s.plies := rfl
@[simp] theorem State.setCore_ghosts (s : State) (k : Nat) (c : Core) : (State.setCore s k c).ghosts = s.ghosts := rfl
@[simp] theorem State.setCore_issue (s : State) (k : Nat) (c : Core) : (State.setCore s k c).issue = s.issue := rfl
@[simp] theorem State.setCore_mem (s : State) (k : Nat) (c : Core) : (State.setCore s k c).mem = s.mem := rfl
@[simp] theorem State.setCore_stores (s : State) (k : Nat) (c : Core) : (State.setCore s k c).stores = s.stores := rfl
@[simp] theorem State.setCore_homeLeases (s : State) (k : Nat) (c : Core) : (State.setCore s k c).homeLeases = s.homeLeases := rfl
@[simp] theorem State.setCore_l2Leases (s : State) (k : Nat) (c : Core) : (State.setCore s k c).l2Leases = s.l2Leases := rfl
@[simp] theorem State.setCore_l1Leases (s : State) (k : Nat) (c : Core) : (State.setCore s k c).l1Leases = s.l1Leases := rfl
@[simp] theorem State.setCore_recent (s : State) (k : Nat) (c : Core) : (State.setCore s k c).recent = s.recent := rfl
@[simp] theorem State.setCore_failing (s : State) (k : Nat) (c : Core) : (State.setCore s k c).failing = s.failing := rfl
@[simp] theorem State.setCore_tlb (s : State) (k : Nat) (c : Core) : (State.setCore s k c).tlb = s.tlb := rfl
@[simp] theorem State.setCore_headers (s : State) (k : Nat) (c : Core) : (State.setCore s k c).headers = s.headers := rfl
@[simp] theorem State.setCore_clusters (s : State) (k : Nat) (c : Core) : (State.setCore s k c).clusters = s.clusters := rfl
@[simp] theorem State.setCore_vaults (s : State) (k : Nat) (c : Core) : (State.setCore s k c).vaults = s.vaults := rfl
@[simp] theorem State.setCore_fifos (s : State) (k : Nat) (c : Core) : (State.setCore s k c).fifos = s.fifos := rfl
@[simp] theorem State.setCore_dies (s : State) (k : Nat) (c : Core) : (State.setCore s k c).dies = s.dies := rfl
@[simp] theorem State.setCore_tenants (s : State) (k : Nat) (c : Core) : (State.setCore s k c).tenants = s.tenants := rfl
@[simp] theorem State.setCore_reports (s : State) (k : Nat) (c : Core) : (State.setCore s k c).reports = s.reports := rfl
@[simp] theorem State.setCore_scopes (s : State) (k : Nat) (c : Core) : (State.setCore s k c).scopes = s.scopes := rfl
@[simp] theorem State.setCore_released (s : State) (k : Nat) (c : Core) : (State.setCore s k c).released = s.released := rfl
@[simp] theorem State.setCore_counted (s : State) (k : Nat) (c : Core) : (State.setCore s k c).counted = s.counted := rfl
@[simp] theorem State.setCore_arrivals (s : State) (k : Nat) (c : Core) : (State.setCore s k c).arrivals = s.arrivals := rfl
@[simp] theorem State.setCore_departures (s : State) (k : Nat) (c : Core) : (State.setCore s k c).departures = s.departures := rfl
@[simp] theorem State.setCore_broadcasts (s : State) (k : Nat) (c : Core) : (State.setCore s k c).broadcasts = s.broadcasts := rfl
@[simp] theorem State.setCore_transit (s : State) (k : Nat) (c : Core) : (State.setCore s k c).transit = s.transit := rfl
@[simp] theorem State.setCore_pieces (s : State) (k : Nat) (c : Core) : (State.setCore s k c).pieces = s.pieces := rfl
@[simp] theorem State.setCore_firings (s : State) (k : Nat) (c : Core) : (State.setCore s k c).firings = s.firings := rfl
@[simp] theorem State.setCore_saved (s : State) (k : Nat) (c : Core) : (State.setCore s k c).saved = s.saved := rfl
@[simp] theorem State.setCore_fabric (s : State) (k : Nat) (c : Core) : (State.setCore s k c).fabric = s.fabric := rfl
@[simp] theorem State.setCore_outgoing (s : State) (k : Nat) (c : Core) : (State.setCore s k c).outgoing = s.outgoing := rfl
@[simp] theorem State.setCore_firmware (s : State) (k : Nat) (c : Core) : (State.setCore s k c).firmware = s.firmware := rfl
@[simp] theorem State.setCore_selPart (s : State) (k : Nat) (c : Core) : (State.setCore s k c).selPart = s.selPart := rfl
@[simp] theorem State.setCore_selCluster (s : State) (k : Nat) (c : Core) : (State.setCore s k c).selCluster = s.selCluster := rfl
@[simp] theorem State.setCore_selReg (s : State) (k : Nat) (c : Core) : (State.setCore s k c).selReg = s.selReg := rfl
@[simp] theorem State.setCore_endpoint (s : State) (k : Nat) (c : Core) : (State.setCore s k c).endpoint = s.endpoint := rfl
@[simp] theorem State.setCore_ptime (s : State) (k : Nat) (c : Core) : (State.setCore s k c).ptime = s.ptime := rfl
@[simp] theorem State.setCore_saveAreas (s : State) (k : Nat) (c : Core) : (State.setCore s k c).saveAreas = s.saveAreas := rfl
@[simp] theorem State.setCore_loads (s : State) (k : Nat) (c : Core) : (State.setCore s k c).loads = s.loads := rfl
@[simp] theorem State.setCore_landings (s : State) (k : Nat) (c : Core) : (State.setCore s k c).landings = s.landings := rfl
@[simp] theorem State.setCore_trapReports (s : State) (k : Nat) (c : Core) : (State.setCore s k c).trapReports = s.trapReports := rfl
@[simp] theorem State.setCore_agenda (s : State) (k : Nat) (c : Core) : (State.setCore s k c).agenda = s.agenda := rfl
@[simp] theorem State.setCore_tick (s : State) (k : Nat) (c : Core) : (State.setCore s k c).tick = s.tick := rfl
@[simp] theorem State.setCore_seq (s : State) (k : Nat) (c : Core) : (State.setCore s k c).seq = s.seq := rfl

/-! ## State.modCore -/

@[simp] theorem State.modCore_ply (s : State) (k : Nat) (f : Core → Core) : (State.modCore s k f).ply = s.ply := rfl
@[simp] theorem State.modCore_plies (s : State) (k : Nat) (f : Core → Core) : (State.modCore s k f).plies = s.plies := rfl
@[simp] theorem State.modCore_ghosts (s : State) (k : Nat) (f : Core → Core) : (State.modCore s k f).ghosts = s.ghosts := rfl
@[simp] theorem State.modCore_issue (s : State) (k : Nat) (f : Core → Core) : (State.modCore s k f).issue = s.issue := rfl
@[simp] theorem State.modCore_mem (s : State) (k : Nat) (f : Core → Core) : (State.modCore s k f).mem = s.mem := rfl
@[simp] theorem State.modCore_stores (s : State) (k : Nat) (f : Core → Core) : (State.modCore s k f).stores = s.stores := rfl
@[simp] theorem State.modCore_homeLeases (s : State) (k : Nat) (f : Core → Core) : (State.modCore s k f).homeLeases = s.homeLeases := rfl
@[simp] theorem State.modCore_l2Leases (s : State) (k : Nat) (f : Core → Core) : (State.modCore s k f).l2Leases = s.l2Leases := rfl
@[simp] theorem State.modCore_l1Leases (s : State) (k : Nat) (f : Core → Core) : (State.modCore s k f).l1Leases = s.l1Leases := rfl
@[simp] theorem State.modCore_recent (s : State) (k : Nat) (f : Core → Core) : (State.modCore s k f).recent = s.recent := rfl
@[simp] theorem State.modCore_failing (s : State) (k : Nat) (f : Core → Core) : (State.modCore s k f).failing = s.failing := rfl
@[simp] theorem State.modCore_tlb (s : State) (k : Nat) (f : Core → Core) : (State.modCore s k f).tlb = s.tlb := rfl
@[simp] theorem State.modCore_headers (s : State) (k : Nat) (f : Core → Core) : (State.modCore s k f).headers = s.headers := rfl
@[simp] theorem State.modCore_clusters (s : State) (k : Nat) (f : Core → Core) : (State.modCore s k f).clusters = s.clusters := rfl
@[simp] theorem State.modCore_vaults (s : State) (k : Nat) (f : Core → Core) : (State.modCore s k f).vaults = s.vaults := rfl
@[simp] theorem State.modCore_fifos (s : State) (k : Nat) (f : Core → Core) : (State.modCore s k f).fifos = s.fifos := rfl
@[simp] theorem State.modCore_dies (s : State) (k : Nat) (f : Core → Core) : (State.modCore s k f).dies = s.dies := rfl
@[simp] theorem State.modCore_tenants (s : State) (k : Nat) (f : Core → Core) : (State.modCore s k f).tenants = s.tenants := rfl
@[simp] theorem State.modCore_reports (s : State) (k : Nat) (f : Core → Core) : (State.modCore s k f).reports = s.reports := rfl
@[simp] theorem State.modCore_scopes (s : State) (k : Nat) (f : Core → Core) : (State.modCore s k f).scopes = s.scopes := rfl
@[simp] theorem State.modCore_released (s : State) (k : Nat) (f : Core → Core) : (State.modCore s k f).released = s.released := rfl
@[simp] theorem State.modCore_counted (s : State) (k : Nat) (f : Core → Core) : (State.modCore s k f).counted = s.counted := rfl
@[simp] theorem State.modCore_arrivals (s : State) (k : Nat) (f : Core → Core) : (State.modCore s k f).arrivals = s.arrivals := rfl
@[simp] theorem State.modCore_departures (s : State) (k : Nat) (f : Core → Core) : (State.modCore s k f).departures = s.departures := rfl
@[simp] theorem State.modCore_broadcasts (s : State) (k : Nat) (f : Core → Core) : (State.modCore s k f).broadcasts = s.broadcasts := rfl
@[simp] theorem State.modCore_transit (s : State) (k : Nat) (f : Core → Core) : (State.modCore s k f).transit = s.transit := rfl
@[simp] theorem State.modCore_pieces (s : State) (k : Nat) (f : Core → Core) : (State.modCore s k f).pieces = s.pieces := rfl
@[simp] theorem State.modCore_firings (s : State) (k : Nat) (f : Core → Core) : (State.modCore s k f).firings = s.firings := rfl
@[simp] theorem State.modCore_saved (s : State) (k : Nat) (f : Core → Core) : (State.modCore s k f).saved = s.saved := rfl
@[simp] theorem State.modCore_fabric (s : State) (k : Nat) (f : Core → Core) : (State.modCore s k f).fabric = s.fabric := rfl
@[simp] theorem State.modCore_outgoing (s : State) (k : Nat) (f : Core → Core) : (State.modCore s k f).outgoing = s.outgoing := rfl
@[simp] theorem State.modCore_firmware (s : State) (k : Nat) (f : Core → Core) : (State.modCore s k f).firmware = s.firmware := rfl
@[simp] theorem State.modCore_selPart (s : State) (k : Nat) (f : Core → Core) : (State.modCore s k f).selPart = s.selPart := rfl
@[simp] theorem State.modCore_selCluster (s : State) (k : Nat) (f : Core → Core) : (State.modCore s k f).selCluster = s.selCluster := rfl
@[simp] theorem State.modCore_selReg (s : State) (k : Nat) (f : Core → Core) : (State.modCore s k f).selReg = s.selReg := rfl
@[simp] theorem State.modCore_endpoint (s : State) (k : Nat) (f : Core → Core) : (State.modCore s k f).endpoint = s.endpoint := rfl
@[simp] theorem State.modCore_ptime (s : State) (k : Nat) (f : Core → Core) : (State.modCore s k f).ptime = s.ptime := rfl
@[simp] theorem State.modCore_saveAreas (s : State) (k : Nat) (f : Core → Core) : (State.modCore s k f).saveAreas = s.saveAreas := rfl
@[simp] theorem State.modCore_loads (s : State) (k : Nat) (f : Core → Core) : (State.modCore s k f).loads = s.loads := rfl
@[simp] theorem State.modCore_landings (s : State) (k : Nat) (f : Core → Core) : (State.modCore s k f).landings = s.landings := rfl
@[simp] theorem State.modCore_trapReports (s : State) (k : Nat) (f : Core → Core) : (State.modCore s k f).trapReports = s.trapReports := rfl
@[simp] theorem State.modCore_agenda (s : State) (k : Nat) (f : Core → Core) : (State.modCore s k f).agenda = s.agenda := rfl
@[simp] theorem State.modCore_tick (s : State) (k : Nat) (f : Core → Core) : (State.modCore s k f).tick = s.tick := rfl
@[simp] theorem State.modCore_seq (s : State) (k : Nat) (f : Core → Core) : (State.modCore s k f).seq = s.seq := rfl

/-! ## State.setCluster -/

@[simp] theorem State.setCluster_ply (s : State) (k : Nat) (c : Cluster) : (State.setCluster s k c).ply = s.ply := rfl
@[simp] theorem State.setCluster_plies (s : State) (k : Nat) (c : Cluster) : (State.setCluster s k c).plies = s.plies := rfl
@[simp] theorem State.setCluster_ghosts (s : State) (k : Nat) (c : Cluster) : (State.setCluster s k c).ghosts = s.ghosts := rfl
@[simp] theorem State.setCluster_issue (s : State) (k : Nat) (c : Cluster) : (State.setCluster s k c).issue = s.issue := rfl
@[simp] theorem State.setCluster_mem (s : State) (k : Nat) (c : Cluster) : (State.setCluster s k c).mem = s.mem := rfl
@[simp] theorem State.setCluster_stores (s : State) (k : Nat) (c : Cluster) : (State.setCluster s k c).stores = s.stores := rfl
@[simp] theorem State.setCluster_homeLeases (s : State) (k : Nat) (c : Cluster) : (State.setCluster s k c).homeLeases = s.homeLeases := rfl
@[simp] theorem State.setCluster_l2Leases (s : State) (k : Nat) (c : Cluster) : (State.setCluster s k c).l2Leases = s.l2Leases := rfl
@[simp] theorem State.setCluster_l1Leases (s : State) (k : Nat) (c : Cluster) : (State.setCluster s k c).l1Leases = s.l1Leases := rfl
@[simp] theorem State.setCluster_recent (s : State) (k : Nat) (c : Cluster) : (State.setCluster s k c).recent = s.recent := rfl
@[simp] theorem State.setCluster_failing (s : State) (k : Nat) (c : Cluster) : (State.setCluster s k c).failing = s.failing := rfl
@[simp] theorem State.setCluster_tlb (s : State) (k : Nat) (c : Cluster) : (State.setCluster s k c).tlb = s.tlb := rfl
@[simp] theorem State.setCluster_headers (s : State) (k : Nat) (c : Cluster) : (State.setCluster s k c).headers = s.headers := rfl
@[simp] theorem State.setCluster_cores (s : State) (k : Nat) (c : Cluster) : (State.setCluster s k c).cores = s.cores := rfl
@[simp] theorem State.setCluster_vaults (s : State) (k : Nat) (c : Cluster) : (State.setCluster s k c).vaults = s.vaults := rfl
@[simp] theorem State.setCluster_fifos (s : State) (k : Nat) (c : Cluster) : (State.setCluster s k c).fifos = s.fifos := rfl
@[simp] theorem State.setCluster_dies (s : State) (k : Nat) (c : Cluster) : (State.setCluster s k c).dies = s.dies := rfl
@[simp] theorem State.setCluster_tenants (s : State) (k : Nat) (c : Cluster) : (State.setCluster s k c).tenants = s.tenants := rfl
@[simp] theorem State.setCluster_reports (s : State) (k : Nat) (c : Cluster) : (State.setCluster s k c).reports = s.reports := rfl
@[simp] theorem State.setCluster_scopes (s : State) (k : Nat) (c : Cluster) : (State.setCluster s k c).scopes = s.scopes := rfl
@[simp] theorem State.setCluster_released (s : State) (k : Nat) (c : Cluster) : (State.setCluster s k c).released = s.released := rfl
@[simp] theorem State.setCluster_counted (s : State) (k : Nat) (c : Cluster) : (State.setCluster s k c).counted = s.counted := rfl
@[simp] theorem State.setCluster_arrivals (s : State) (k : Nat) (c : Cluster) : (State.setCluster s k c).arrivals = s.arrivals := rfl
@[simp] theorem State.setCluster_departures (s : State) (k : Nat) (c : Cluster) : (State.setCluster s k c).departures = s.departures := rfl
@[simp] theorem State.setCluster_broadcasts (s : State) (k : Nat) (c : Cluster) : (State.setCluster s k c).broadcasts = s.broadcasts := rfl
@[simp] theorem State.setCluster_transit (s : State) (k : Nat) (c : Cluster) : (State.setCluster s k c).transit = s.transit := rfl
@[simp] theorem State.setCluster_pieces (s : State) (k : Nat) (c : Cluster) : (State.setCluster s k c).pieces = s.pieces := rfl
@[simp] theorem State.setCluster_firings (s : State) (k : Nat) (c : Cluster) : (State.setCluster s k c).firings = s.firings := rfl
@[simp] theorem State.setCluster_saved (s : State) (k : Nat) (c : Cluster) : (State.setCluster s k c).saved = s.saved := rfl
@[simp] theorem State.setCluster_fabric (s : State) (k : Nat) (c : Cluster) : (State.setCluster s k c).fabric = s.fabric := rfl
@[simp] theorem State.setCluster_outgoing (s : State) (k : Nat) (c : Cluster) : (State.setCluster s k c).outgoing = s.outgoing := rfl
@[simp] theorem State.setCluster_firmware (s : State) (k : Nat) (c : Cluster) : (State.setCluster s k c).firmware = s.firmware := rfl
@[simp] theorem State.setCluster_selPart (s : State) (k : Nat) (c : Cluster) : (State.setCluster s k c).selPart = s.selPart := rfl
@[simp] theorem State.setCluster_selCluster (s : State) (k : Nat) (c : Cluster) : (State.setCluster s k c).selCluster = s.selCluster := rfl
@[simp] theorem State.setCluster_selReg (s : State) (k : Nat) (c : Cluster) : (State.setCluster s k c).selReg = s.selReg := rfl
@[simp] theorem State.setCluster_endpoint (s : State) (k : Nat) (c : Cluster) : (State.setCluster s k c).endpoint = s.endpoint := rfl
@[simp] theorem State.setCluster_ptime (s : State) (k : Nat) (c : Cluster) : (State.setCluster s k c).ptime = s.ptime := rfl
@[simp] theorem State.setCluster_saveAreas (s : State) (k : Nat) (c : Cluster) : (State.setCluster s k c).saveAreas = s.saveAreas := rfl
@[simp] theorem State.setCluster_loads (s : State) (k : Nat) (c : Cluster) : (State.setCluster s k c).loads = s.loads := rfl
@[simp] theorem State.setCluster_landings (s : State) (k : Nat) (c : Cluster) : (State.setCluster s k c).landings = s.landings := rfl
@[simp] theorem State.setCluster_trapReports (s : State) (k : Nat) (c : Cluster) : (State.setCluster s k c).trapReports = s.trapReports := rfl
@[simp] theorem State.setCluster_agenda (s : State) (k : Nat) (c : Cluster) : (State.setCluster s k c).agenda = s.agenda := rfl
@[simp] theorem State.setCluster_tick (s : State) (k : Nat) (c : Cluster) : (State.setCluster s k c).tick = s.tick := rfl
@[simp] theorem State.setCluster_seq (s : State) (k : Nat) (c : Cluster) : (State.setCluster s k c).seq = s.seq := rfl

/-! ## State.modCluster -/

@[simp] theorem State.modCluster_ply (s : State) (k : Nat) (f : Cluster → Cluster) : (State.modCluster s k f).ply = s.ply := rfl
@[simp] theorem State.modCluster_plies (s : State) (k : Nat) (f : Cluster → Cluster) : (State.modCluster s k f).plies = s.plies := rfl
@[simp] theorem State.modCluster_ghosts (s : State) (k : Nat) (f : Cluster → Cluster) : (State.modCluster s k f).ghosts = s.ghosts := rfl
@[simp] theorem State.modCluster_issue (s : State) (k : Nat) (f : Cluster → Cluster) : (State.modCluster s k f).issue = s.issue := rfl
@[simp] theorem State.modCluster_mem (s : State) (k : Nat) (f : Cluster → Cluster) : (State.modCluster s k f).mem = s.mem := rfl
@[simp] theorem State.modCluster_stores (s : State) (k : Nat) (f : Cluster → Cluster) : (State.modCluster s k f).stores = s.stores := rfl
@[simp] theorem State.modCluster_homeLeases (s : State) (k : Nat) (f : Cluster → Cluster) : (State.modCluster s k f).homeLeases = s.homeLeases := rfl
@[simp] theorem State.modCluster_l2Leases (s : State) (k : Nat) (f : Cluster → Cluster) : (State.modCluster s k f).l2Leases = s.l2Leases := rfl
@[simp] theorem State.modCluster_l1Leases (s : State) (k : Nat) (f : Cluster → Cluster) : (State.modCluster s k f).l1Leases = s.l1Leases := rfl
@[simp] theorem State.modCluster_recent (s : State) (k : Nat) (f : Cluster → Cluster) : (State.modCluster s k f).recent = s.recent := rfl
@[simp] theorem State.modCluster_failing (s : State) (k : Nat) (f : Cluster → Cluster) : (State.modCluster s k f).failing = s.failing := rfl
@[simp] theorem State.modCluster_tlb (s : State) (k : Nat) (f : Cluster → Cluster) : (State.modCluster s k f).tlb = s.tlb := rfl
@[simp] theorem State.modCluster_headers (s : State) (k : Nat) (f : Cluster → Cluster) : (State.modCluster s k f).headers = s.headers := rfl
@[simp] theorem State.modCluster_cores (s : State) (k : Nat) (f : Cluster → Cluster) : (State.modCluster s k f).cores = s.cores := rfl
@[simp] theorem State.modCluster_vaults (s : State) (k : Nat) (f : Cluster → Cluster) : (State.modCluster s k f).vaults = s.vaults := rfl
@[simp] theorem State.modCluster_fifos (s : State) (k : Nat) (f : Cluster → Cluster) : (State.modCluster s k f).fifos = s.fifos := rfl
@[simp] theorem State.modCluster_dies (s : State) (k : Nat) (f : Cluster → Cluster) : (State.modCluster s k f).dies = s.dies := rfl
@[simp] theorem State.modCluster_tenants (s : State) (k : Nat) (f : Cluster → Cluster) : (State.modCluster s k f).tenants = s.tenants := rfl
@[simp] theorem State.modCluster_reports (s : State) (k : Nat) (f : Cluster → Cluster) : (State.modCluster s k f).reports = s.reports := rfl
@[simp] theorem State.modCluster_scopes (s : State) (k : Nat) (f : Cluster → Cluster) : (State.modCluster s k f).scopes = s.scopes := rfl
@[simp] theorem State.modCluster_released (s : State) (k : Nat) (f : Cluster → Cluster) : (State.modCluster s k f).released = s.released := rfl
@[simp] theorem State.modCluster_counted (s : State) (k : Nat) (f : Cluster → Cluster) : (State.modCluster s k f).counted = s.counted := rfl
@[simp] theorem State.modCluster_arrivals (s : State) (k : Nat) (f : Cluster → Cluster) : (State.modCluster s k f).arrivals = s.arrivals := rfl
@[simp] theorem State.modCluster_departures (s : State) (k : Nat) (f : Cluster → Cluster) : (State.modCluster s k f).departures = s.departures := rfl
@[simp] theorem State.modCluster_broadcasts (s : State) (k : Nat) (f : Cluster → Cluster) : (State.modCluster s k f).broadcasts = s.broadcasts := rfl
@[simp] theorem State.modCluster_transit (s : State) (k : Nat) (f : Cluster → Cluster) : (State.modCluster s k f).transit = s.transit := rfl
@[simp] theorem State.modCluster_pieces (s : State) (k : Nat) (f : Cluster → Cluster) : (State.modCluster s k f).pieces = s.pieces := rfl
@[simp] theorem State.modCluster_firings (s : State) (k : Nat) (f : Cluster → Cluster) : (State.modCluster s k f).firings = s.firings := rfl
@[simp] theorem State.modCluster_saved (s : State) (k : Nat) (f : Cluster → Cluster) : (State.modCluster s k f).saved = s.saved := rfl
@[simp] theorem State.modCluster_fabric (s : State) (k : Nat) (f : Cluster → Cluster) : (State.modCluster s k f).fabric = s.fabric := rfl
@[simp] theorem State.modCluster_outgoing (s : State) (k : Nat) (f : Cluster → Cluster) : (State.modCluster s k f).outgoing = s.outgoing := rfl
@[simp] theorem State.modCluster_firmware (s : State) (k : Nat) (f : Cluster → Cluster) : (State.modCluster s k f).firmware = s.firmware := rfl
@[simp] theorem State.modCluster_selPart (s : State) (k : Nat) (f : Cluster → Cluster) : (State.modCluster s k f).selPart = s.selPart := rfl
@[simp] theorem State.modCluster_selCluster (s : State) (k : Nat) (f : Cluster → Cluster) : (State.modCluster s k f).selCluster = s.selCluster := rfl
@[simp] theorem State.modCluster_selReg (s : State) (k : Nat) (f : Cluster → Cluster) : (State.modCluster s k f).selReg = s.selReg := rfl
@[simp] theorem State.modCluster_endpoint (s : State) (k : Nat) (f : Cluster → Cluster) : (State.modCluster s k f).endpoint = s.endpoint := rfl
@[simp] theorem State.modCluster_ptime (s : State) (k : Nat) (f : Cluster → Cluster) : (State.modCluster s k f).ptime = s.ptime := rfl
@[simp] theorem State.modCluster_saveAreas (s : State) (k : Nat) (f : Cluster → Cluster) : (State.modCluster s k f).saveAreas = s.saveAreas := rfl
@[simp] theorem State.modCluster_loads (s : State) (k : Nat) (f : Cluster → Cluster) : (State.modCluster s k f).loads = s.loads := rfl
@[simp] theorem State.modCluster_landings (s : State) (k : Nat) (f : Cluster → Cluster) : (State.modCluster s k f).landings = s.landings := rfl
@[simp] theorem State.modCluster_trapReports (s : State) (k : Nat) (f : Cluster → Cluster) : (State.modCluster s k f).trapReports = s.trapReports := rfl
@[simp] theorem State.modCluster_agenda (s : State) (k : Nat) (f : Cluster → Cluster) : (State.modCluster s k f).agenda = s.agenda := rfl
@[simp] theorem State.modCluster_tick (s : State) (k : Nat) (f : Cluster → Cluster) : (State.modCluster s k f).tick = s.tick := rfl
@[simp] theorem State.modCluster_seq (s : State) (k : Nat) (f : Cluster → Cluster) : (State.modCluster s k f).seq = s.seq := rfl

/-! ## State.setVault -/

@[simp] theorem State.setVault_ply (s : State) (k : Nat) (c : Vault) : (State.setVault s k c).ply = s.ply := rfl
@[simp] theorem State.setVault_plies (s : State) (k : Nat) (c : Vault) : (State.setVault s k c).plies = s.plies := rfl
@[simp] theorem State.setVault_ghosts (s : State) (k : Nat) (c : Vault) : (State.setVault s k c).ghosts = s.ghosts := rfl
@[simp] theorem State.setVault_issue (s : State) (k : Nat) (c : Vault) : (State.setVault s k c).issue = s.issue := rfl
@[simp] theorem State.setVault_mem (s : State) (k : Nat) (c : Vault) : (State.setVault s k c).mem = s.mem := rfl
@[simp] theorem State.setVault_stores (s : State) (k : Nat) (c : Vault) : (State.setVault s k c).stores = s.stores := rfl
@[simp] theorem State.setVault_homeLeases (s : State) (k : Nat) (c : Vault) : (State.setVault s k c).homeLeases = s.homeLeases := rfl
@[simp] theorem State.setVault_l2Leases (s : State) (k : Nat) (c : Vault) : (State.setVault s k c).l2Leases = s.l2Leases := rfl
@[simp] theorem State.setVault_l1Leases (s : State) (k : Nat) (c : Vault) : (State.setVault s k c).l1Leases = s.l1Leases := rfl
@[simp] theorem State.setVault_recent (s : State) (k : Nat) (c : Vault) : (State.setVault s k c).recent = s.recent := rfl
@[simp] theorem State.setVault_failing (s : State) (k : Nat) (c : Vault) : (State.setVault s k c).failing = s.failing := rfl
@[simp] theorem State.setVault_tlb (s : State) (k : Nat) (c : Vault) : (State.setVault s k c).tlb = s.tlb := rfl
@[simp] theorem State.setVault_headers (s : State) (k : Nat) (c : Vault) : (State.setVault s k c).headers = s.headers := rfl
@[simp] theorem State.setVault_cores (s : State) (k : Nat) (c : Vault) : (State.setVault s k c).cores = s.cores := rfl
@[simp] theorem State.setVault_clusters (s : State) (k : Nat) (c : Vault) : (State.setVault s k c).clusters = s.clusters := rfl
@[simp] theorem State.setVault_fifos (s : State) (k : Nat) (c : Vault) : (State.setVault s k c).fifos = s.fifos := rfl
@[simp] theorem State.setVault_dies (s : State) (k : Nat) (c : Vault) : (State.setVault s k c).dies = s.dies := rfl
@[simp] theorem State.setVault_tenants (s : State) (k : Nat) (c : Vault) : (State.setVault s k c).tenants = s.tenants := rfl
@[simp] theorem State.setVault_reports (s : State) (k : Nat) (c : Vault) : (State.setVault s k c).reports = s.reports := rfl
@[simp] theorem State.setVault_scopes (s : State) (k : Nat) (c : Vault) : (State.setVault s k c).scopes = s.scopes := rfl
@[simp] theorem State.setVault_released (s : State) (k : Nat) (c : Vault) : (State.setVault s k c).released = s.released := rfl
@[simp] theorem State.setVault_counted (s : State) (k : Nat) (c : Vault) : (State.setVault s k c).counted = s.counted := rfl
@[simp] theorem State.setVault_arrivals (s : State) (k : Nat) (c : Vault) : (State.setVault s k c).arrivals = s.arrivals := rfl
@[simp] theorem State.setVault_departures (s : State) (k : Nat) (c : Vault) : (State.setVault s k c).departures = s.departures := rfl
@[simp] theorem State.setVault_broadcasts (s : State) (k : Nat) (c : Vault) : (State.setVault s k c).broadcasts = s.broadcasts := rfl
@[simp] theorem State.setVault_transit (s : State) (k : Nat) (c : Vault) : (State.setVault s k c).transit = s.transit := rfl
@[simp] theorem State.setVault_pieces (s : State) (k : Nat) (c : Vault) : (State.setVault s k c).pieces = s.pieces := rfl
@[simp] theorem State.setVault_firings (s : State) (k : Nat) (c : Vault) : (State.setVault s k c).firings = s.firings := rfl
@[simp] theorem State.setVault_saved (s : State) (k : Nat) (c : Vault) : (State.setVault s k c).saved = s.saved := rfl
@[simp] theorem State.setVault_fabric (s : State) (k : Nat) (c : Vault) : (State.setVault s k c).fabric = s.fabric := rfl
@[simp] theorem State.setVault_outgoing (s : State) (k : Nat) (c : Vault) : (State.setVault s k c).outgoing = s.outgoing := rfl
@[simp] theorem State.setVault_firmware (s : State) (k : Nat) (c : Vault) : (State.setVault s k c).firmware = s.firmware := rfl
@[simp] theorem State.setVault_selPart (s : State) (k : Nat) (c : Vault) : (State.setVault s k c).selPart = s.selPart := rfl
@[simp] theorem State.setVault_selCluster (s : State) (k : Nat) (c : Vault) : (State.setVault s k c).selCluster = s.selCluster := rfl
@[simp] theorem State.setVault_selReg (s : State) (k : Nat) (c : Vault) : (State.setVault s k c).selReg = s.selReg := rfl
@[simp] theorem State.setVault_endpoint (s : State) (k : Nat) (c : Vault) : (State.setVault s k c).endpoint = s.endpoint := rfl
@[simp] theorem State.setVault_ptime (s : State) (k : Nat) (c : Vault) : (State.setVault s k c).ptime = s.ptime := rfl
@[simp] theorem State.setVault_saveAreas (s : State) (k : Nat) (c : Vault) : (State.setVault s k c).saveAreas = s.saveAreas := rfl
@[simp] theorem State.setVault_loads (s : State) (k : Nat) (c : Vault) : (State.setVault s k c).loads = s.loads := rfl
@[simp] theorem State.setVault_landings (s : State) (k : Nat) (c : Vault) : (State.setVault s k c).landings = s.landings := rfl
@[simp] theorem State.setVault_trapReports (s : State) (k : Nat) (c : Vault) : (State.setVault s k c).trapReports = s.trapReports := rfl
@[simp] theorem State.setVault_agenda (s : State) (k : Nat) (c : Vault) : (State.setVault s k c).agenda = s.agenda := rfl
@[simp] theorem State.setVault_tick (s : State) (k : Nat) (c : Vault) : (State.setVault s k c).tick = s.tick := rfl
@[simp] theorem State.setVault_seq (s : State) (k : Nat) (c : Vault) : (State.setVault s k c).seq = s.seq := rfl

/-! ## State.modVault -/

@[simp] theorem State.modVault_ply (s : State) (k : Nat) (f : Vault → Vault) : (State.modVault s k f).ply = s.ply := rfl
@[simp] theorem State.modVault_plies (s : State) (k : Nat) (f : Vault → Vault) : (State.modVault s k f).plies = s.plies := rfl
@[simp] theorem State.modVault_ghosts (s : State) (k : Nat) (f : Vault → Vault) : (State.modVault s k f).ghosts = s.ghosts := rfl
@[simp] theorem State.modVault_issue (s : State) (k : Nat) (f : Vault → Vault) : (State.modVault s k f).issue = s.issue := rfl
@[simp] theorem State.modVault_mem (s : State) (k : Nat) (f : Vault → Vault) : (State.modVault s k f).mem = s.mem := rfl
@[simp] theorem State.modVault_stores (s : State) (k : Nat) (f : Vault → Vault) : (State.modVault s k f).stores = s.stores := rfl
@[simp] theorem State.modVault_homeLeases (s : State) (k : Nat) (f : Vault → Vault) : (State.modVault s k f).homeLeases = s.homeLeases := rfl
@[simp] theorem State.modVault_l2Leases (s : State) (k : Nat) (f : Vault → Vault) : (State.modVault s k f).l2Leases = s.l2Leases := rfl
@[simp] theorem State.modVault_l1Leases (s : State) (k : Nat) (f : Vault → Vault) : (State.modVault s k f).l1Leases = s.l1Leases := rfl
@[simp] theorem State.modVault_recent (s : State) (k : Nat) (f : Vault → Vault) : (State.modVault s k f).recent = s.recent := rfl
@[simp] theorem State.modVault_failing (s : State) (k : Nat) (f : Vault → Vault) : (State.modVault s k f).failing = s.failing := rfl
@[simp] theorem State.modVault_tlb (s : State) (k : Nat) (f : Vault → Vault) : (State.modVault s k f).tlb = s.tlb := rfl
@[simp] theorem State.modVault_headers (s : State) (k : Nat) (f : Vault → Vault) : (State.modVault s k f).headers = s.headers := rfl
@[simp] theorem State.modVault_cores (s : State) (k : Nat) (f : Vault → Vault) : (State.modVault s k f).cores = s.cores := rfl
@[simp] theorem State.modVault_clusters (s : State) (k : Nat) (f : Vault → Vault) : (State.modVault s k f).clusters = s.clusters := rfl
@[simp] theorem State.modVault_fifos (s : State) (k : Nat) (f : Vault → Vault) : (State.modVault s k f).fifos = s.fifos := rfl
@[simp] theorem State.modVault_dies (s : State) (k : Nat) (f : Vault → Vault) : (State.modVault s k f).dies = s.dies := rfl
@[simp] theorem State.modVault_tenants (s : State) (k : Nat) (f : Vault → Vault) : (State.modVault s k f).tenants = s.tenants := rfl
@[simp] theorem State.modVault_reports (s : State) (k : Nat) (f : Vault → Vault) : (State.modVault s k f).reports = s.reports := rfl
@[simp] theorem State.modVault_scopes (s : State) (k : Nat) (f : Vault → Vault) : (State.modVault s k f).scopes = s.scopes := rfl
@[simp] theorem State.modVault_released (s : State) (k : Nat) (f : Vault → Vault) : (State.modVault s k f).released = s.released := rfl
@[simp] theorem State.modVault_counted (s : State) (k : Nat) (f : Vault → Vault) : (State.modVault s k f).counted = s.counted := rfl
@[simp] theorem State.modVault_arrivals (s : State) (k : Nat) (f : Vault → Vault) : (State.modVault s k f).arrivals = s.arrivals := rfl
@[simp] theorem State.modVault_departures (s : State) (k : Nat) (f : Vault → Vault) : (State.modVault s k f).departures = s.departures := rfl
@[simp] theorem State.modVault_broadcasts (s : State) (k : Nat) (f : Vault → Vault) : (State.modVault s k f).broadcasts = s.broadcasts := rfl
@[simp] theorem State.modVault_transit (s : State) (k : Nat) (f : Vault → Vault) : (State.modVault s k f).transit = s.transit := rfl
@[simp] theorem State.modVault_pieces (s : State) (k : Nat) (f : Vault → Vault) : (State.modVault s k f).pieces = s.pieces := rfl
@[simp] theorem State.modVault_firings (s : State) (k : Nat) (f : Vault → Vault) : (State.modVault s k f).firings = s.firings := rfl
@[simp] theorem State.modVault_saved (s : State) (k : Nat) (f : Vault → Vault) : (State.modVault s k f).saved = s.saved := rfl
@[simp] theorem State.modVault_fabric (s : State) (k : Nat) (f : Vault → Vault) : (State.modVault s k f).fabric = s.fabric := rfl
@[simp] theorem State.modVault_outgoing (s : State) (k : Nat) (f : Vault → Vault) : (State.modVault s k f).outgoing = s.outgoing := rfl
@[simp] theorem State.modVault_firmware (s : State) (k : Nat) (f : Vault → Vault) : (State.modVault s k f).firmware = s.firmware := rfl
@[simp] theorem State.modVault_selPart (s : State) (k : Nat) (f : Vault → Vault) : (State.modVault s k f).selPart = s.selPart := rfl
@[simp] theorem State.modVault_selCluster (s : State) (k : Nat) (f : Vault → Vault) : (State.modVault s k f).selCluster = s.selCluster := rfl
@[simp] theorem State.modVault_selReg (s : State) (k : Nat) (f : Vault → Vault) : (State.modVault s k f).selReg = s.selReg := rfl
@[simp] theorem State.modVault_endpoint (s : State) (k : Nat) (f : Vault → Vault) : (State.modVault s k f).endpoint = s.endpoint := rfl
@[simp] theorem State.modVault_ptime (s : State) (k : Nat) (f : Vault → Vault) : (State.modVault s k f).ptime = s.ptime := rfl
@[simp] theorem State.modVault_saveAreas (s : State) (k : Nat) (f : Vault → Vault) : (State.modVault s k f).saveAreas = s.saveAreas := rfl
@[simp] theorem State.modVault_loads (s : State) (k : Nat) (f : Vault → Vault) : (State.modVault s k f).loads = s.loads := rfl
@[simp] theorem State.modVault_landings (s : State) (k : Nat) (f : Vault → Vault) : (State.modVault s k f).landings = s.landings := rfl
@[simp] theorem State.modVault_trapReports (s : State) (k : Nat) (f : Vault → Vault) : (State.modVault s k f).trapReports = s.trapReports := rfl
@[simp] theorem State.modVault_agenda (s : State) (k : Nat) (f : Vault → Vault) : (State.modVault s k f).agenda = s.agenda := rfl
@[simp] theorem State.modVault_tick (s : State) (k : Nat) (f : Vault → Vault) : (State.modVault s k f).tick = s.tick := rfl
@[simp] theorem State.modVault_seq (s : State) (k : Nat) (f : Vault → Vault) : (State.modVault s k f).seq = s.seq := rfl

/-! ## State.setTenant -/

@[simp] theorem State.setTenant_ply (s : State) (k : Nat) (c : Tenant) : (State.setTenant s k c).ply = s.ply := rfl
@[simp] theorem State.setTenant_plies (s : State) (k : Nat) (c : Tenant) : (State.setTenant s k c).plies = s.plies := rfl
@[simp] theorem State.setTenant_ghosts (s : State) (k : Nat) (c : Tenant) : (State.setTenant s k c).ghosts = s.ghosts := rfl
@[simp] theorem State.setTenant_issue (s : State) (k : Nat) (c : Tenant) : (State.setTenant s k c).issue = s.issue := rfl
@[simp] theorem State.setTenant_mem (s : State) (k : Nat) (c : Tenant) : (State.setTenant s k c).mem = s.mem := rfl
@[simp] theorem State.setTenant_stores (s : State) (k : Nat) (c : Tenant) : (State.setTenant s k c).stores = s.stores := rfl
@[simp] theorem State.setTenant_homeLeases (s : State) (k : Nat) (c : Tenant) : (State.setTenant s k c).homeLeases = s.homeLeases := rfl
@[simp] theorem State.setTenant_l2Leases (s : State) (k : Nat) (c : Tenant) : (State.setTenant s k c).l2Leases = s.l2Leases := rfl
@[simp] theorem State.setTenant_l1Leases (s : State) (k : Nat) (c : Tenant) : (State.setTenant s k c).l1Leases = s.l1Leases := rfl
@[simp] theorem State.setTenant_recent (s : State) (k : Nat) (c : Tenant) : (State.setTenant s k c).recent = s.recent := rfl
@[simp] theorem State.setTenant_failing (s : State) (k : Nat) (c : Tenant) : (State.setTenant s k c).failing = s.failing := rfl
@[simp] theorem State.setTenant_tlb (s : State) (k : Nat) (c : Tenant) : (State.setTenant s k c).tlb = s.tlb := rfl
@[simp] theorem State.setTenant_headers (s : State) (k : Nat) (c : Tenant) : (State.setTenant s k c).headers = s.headers := rfl
@[simp] theorem State.setTenant_cores (s : State) (k : Nat) (c : Tenant) : (State.setTenant s k c).cores = s.cores := rfl
@[simp] theorem State.setTenant_clusters (s : State) (k : Nat) (c : Tenant) : (State.setTenant s k c).clusters = s.clusters := rfl
@[simp] theorem State.setTenant_vaults (s : State) (k : Nat) (c : Tenant) : (State.setTenant s k c).vaults = s.vaults := rfl
@[simp] theorem State.setTenant_fifos (s : State) (k : Nat) (c : Tenant) : (State.setTenant s k c).fifos = s.fifos := rfl
@[simp] theorem State.setTenant_dies (s : State) (k : Nat) (c : Tenant) : (State.setTenant s k c).dies = s.dies := rfl
@[simp] theorem State.setTenant_reports (s : State) (k : Nat) (c : Tenant) : (State.setTenant s k c).reports = s.reports := rfl
@[simp] theorem State.setTenant_scopes (s : State) (k : Nat) (c : Tenant) : (State.setTenant s k c).scopes = s.scopes := rfl
@[simp] theorem State.setTenant_released (s : State) (k : Nat) (c : Tenant) : (State.setTenant s k c).released = s.released := rfl
@[simp] theorem State.setTenant_counted (s : State) (k : Nat) (c : Tenant) : (State.setTenant s k c).counted = s.counted := rfl
@[simp] theorem State.setTenant_arrivals (s : State) (k : Nat) (c : Tenant) : (State.setTenant s k c).arrivals = s.arrivals := rfl
@[simp] theorem State.setTenant_departures (s : State) (k : Nat) (c : Tenant) : (State.setTenant s k c).departures = s.departures := rfl
@[simp] theorem State.setTenant_broadcasts (s : State) (k : Nat) (c : Tenant) : (State.setTenant s k c).broadcasts = s.broadcasts := rfl
@[simp] theorem State.setTenant_transit (s : State) (k : Nat) (c : Tenant) : (State.setTenant s k c).transit = s.transit := rfl
@[simp] theorem State.setTenant_pieces (s : State) (k : Nat) (c : Tenant) : (State.setTenant s k c).pieces = s.pieces := rfl
@[simp] theorem State.setTenant_firings (s : State) (k : Nat) (c : Tenant) : (State.setTenant s k c).firings = s.firings := rfl
@[simp] theorem State.setTenant_saved (s : State) (k : Nat) (c : Tenant) : (State.setTenant s k c).saved = s.saved := rfl
@[simp] theorem State.setTenant_fabric (s : State) (k : Nat) (c : Tenant) : (State.setTenant s k c).fabric = s.fabric := rfl
@[simp] theorem State.setTenant_outgoing (s : State) (k : Nat) (c : Tenant) : (State.setTenant s k c).outgoing = s.outgoing := rfl
@[simp] theorem State.setTenant_firmware (s : State) (k : Nat) (c : Tenant) : (State.setTenant s k c).firmware = s.firmware := rfl
@[simp] theorem State.setTenant_selPart (s : State) (k : Nat) (c : Tenant) : (State.setTenant s k c).selPart = s.selPart := rfl
@[simp] theorem State.setTenant_selCluster (s : State) (k : Nat) (c : Tenant) : (State.setTenant s k c).selCluster = s.selCluster := rfl
@[simp] theorem State.setTenant_selReg (s : State) (k : Nat) (c : Tenant) : (State.setTenant s k c).selReg = s.selReg := rfl
@[simp] theorem State.setTenant_endpoint (s : State) (k : Nat) (c : Tenant) : (State.setTenant s k c).endpoint = s.endpoint := rfl
@[simp] theorem State.setTenant_ptime (s : State) (k : Nat) (c : Tenant) : (State.setTenant s k c).ptime = s.ptime := rfl
@[simp] theorem State.setTenant_saveAreas (s : State) (k : Nat) (c : Tenant) : (State.setTenant s k c).saveAreas = s.saveAreas := rfl
@[simp] theorem State.setTenant_loads (s : State) (k : Nat) (c : Tenant) : (State.setTenant s k c).loads = s.loads := rfl
@[simp] theorem State.setTenant_landings (s : State) (k : Nat) (c : Tenant) : (State.setTenant s k c).landings = s.landings := rfl
@[simp] theorem State.setTenant_trapReports (s : State) (k : Nat) (c : Tenant) : (State.setTenant s k c).trapReports = s.trapReports := rfl
@[simp] theorem State.setTenant_agenda (s : State) (k : Nat) (c : Tenant) : (State.setTenant s k c).agenda = s.agenda := rfl
@[simp] theorem State.setTenant_tick (s : State) (k : Nat) (c : Tenant) : (State.setTenant s k c).tick = s.tick := rfl
@[simp] theorem State.setTenant_seq (s : State) (k : Nat) (c : Tenant) : (State.setTenant s k c).seq = s.seq := rfl

/-! ## State.modTenant -/

@[simp] theorem State.modTenant_ply (s : State) (k : Nat) (f : Tenant → Tenant) : (State.modTenant s k f).ply = s.ply := rfl
@[simp] theorem State.modTenant_plies (s : State) (k : Nat) (f : Tenant → Tenant) : (State.modTenant s k f).plies = s.plies := rfl
@[simp] theorem State.modTenant_ghosts (s : State) (k : Nat) (f : Tenant → Tenant) : (State.modTenant s k f).ghosts = s.ghosts := rfl
@[simp] theorem State.modTenant_issue (s : State) (k : Nat) (f : Tenant → Tenant) : (State.modTenant s k f).issue = s.issue := rfl
@[simp] theorem State.modTenant_mem (s : State) (k : Nat) (f : Tenant → Tenant) : (State.modTenant s k f).mem = s.mem := rfl
@[simp] theorem State.modTenant_stores (s : State) (k : Nat) (f : Tenant → Tenant) : (State.modTenant s k f).stores = s.stores := rfl
@[simp] theorem State.modTenant_homeLeases (s : State) (k : Nat) (f : Tenant → Tenant) : (State.modTenant s k f).homeLeases = s.homeLeases := rfl
@[simp] theorem State.modTenant_l2Leases (s : State) (k : Nat) (f : Tenant → Tenant) : (State.modTenant s k f).l2Leases = s.l2Leases := rfl
@[simp] theorem State.modTenant_l1Leases (s : State) (k : Nat) (f : Tenant → Tenant) : (State.modTenant s k f).l1Leases = s.l1Leases := rfl
@[simp] theorem State.modTenant_recent (s : State) (k : Nat) (f : Tenant → Tenant) : (State.modTenant s k f).recent = s.recent := rfl
@[simp] theorem State.modTenant_failing (s : State) (k : Nat) (f : Tenant → Tenant) : (State.modTenant s k f).failing = s.failing := rfl
@[simp] theorem State.modTenant_tlb (s : State) (k : Nat) (f : Tenant → Tenant) : (State.modTenant s k f).tlb = s.tlb := rfl
@[simp] theorem State.modTenant_headers (s : State) (k : Nat) (f : Tenant → Tenant) : (State.modTenant s k f).headers = s.headers := rfl
@[simp] theorem State.modTenant_cores (s : State) (k : Nat) (f : Tenant → Tenant) : (State.modTenant s k f).cores = s.cores := rfl
@[simp] theorem State.modTenant_clusters (s : State) (k : Nat) (f : Tenant → Tenant) : (State.modTenant s k f).clusters = s.clusters := rfl
@[simp] theorem State.modTenant_vaults (s : State) (k : Nat) (f : Tenant → Tenant) : (State.modTenant s k f).vaults = s.vaults := rfl
@[simp] theorem State.modTenant_fifos (s : State) (k : Nat) (f : Tenant → Tenant) : (State.modTenant s k f).fifos = s.fifos := rfl
@[simp] theorem State.modTenant_dies (s : State) (k : Nat) (f : Tenant → Tenant) : (State.modTenant s k f).dies = s.dies := rfl
@[simp] theorem State.modTenant_reports (s : State) (k : Nat) (f : Tenant → Tenant) : (State.modTenant s k f).reports = s.reports := rfl
@[simp] theorem State.modTenant_scopes (s : State) (k : Nat) (f : Tenant → Tenant) : (State.modTenant s k f).scopes = s.scopes := rfl
@[simp] theorem State.modTenant_released (s : State) (k : Nat) (f : Tenant → Tenant) : (State.modTenant s k f).released = s.released := rfl
@[simp] theorem State.modTenant_counted (s : State) (k : Nat) (f : Tenant → Tenant) : (State.modTenant s k f).counted = s.counted := rfl
@[simp] theorem State.modTenant_arrivals (s : State) (k : Nat) (f : Tenant → Tenant) : (State.modTenant s k f).arrivals = s.arrivals := rfl
@[simp] theorem State.modTenant_departures (s : State) (k : Nat) (f : Tenant → Tenant) : (State.modTenant s k f).departures = s.departures := rfl
@[simp] theorem State.modTenant_broadcasts (s : State) (k : Nat) (f : Tenant → Tenant) : (State.modTenant s k f).broadcasts = s.broadcasts := rfl
@[simp] theorem State.modTenant_transit (s : State) (k : Nat) (f : Tenant → Tenant) : (State.modTenant s k f).transit = s.transit := rfl
@[simp] theorem State.modTenant_pieces (s : State) (k : Nat) (f : Tenant → Tenant) : (State.modTenant s k f).pieces = s.pieces := rfl
@[simp] theorem State.modTenant_firings (s : State) (k : Nat) (f : Tenant → Tenant) : (State.modTenant s k f).firings = s.firings := rfl
@[simp] theorem State.modTenant_saved (s : State) (k : Nat) (f : Tenant → Tenant) : (State.modTenant s k f).saved = s.saved := rfl
@[simp] theorem State.modTenant_fabric (s : State) (k : Nat) (f : Tenant → Tenant) : (State.modTenant s k f).fabric = s.fabric := rfl
@[simp] theorem State.modTenant_outgoing (s : State) (k : Nat) (f : Tenant → Tenant) : (State.modTenant s k f).outgoing = s.outgoing := rfl
@[simp] theorem State.modTenant_firmware (s : State) (k : Nat) (f : Tenant → Tenant) : (State.modTenant s k f).firmware = s.firmware := rfl
@[simp] theorem State.modTenant_selPart (s : State) (k : Nat) (f : Tenant → Tenant) : (State.modTenant s k f).selPart = s.selPart := rfl
@[simp] theorem State.modTenant_selCluster (s : State) (k : Nat) (f : Tenant → Tenant) : (State.modTenant s k f).selCluster = s.selCluster := rfl
@[simp] theorem State.modTenant_selReg (s : State) (k : Nat) (f : Tenant → Tenant) : (State.modTenant s k f).selReg = s.selReg := rfl
@[simp] theorem State.modTenant_endpoint (s : State) (k : Nat) (f : Tenant → Tenant) : (State.modTenant s k f).endpoint = s.endpoint := rfl
@[simp] theorem State.modTenant_ptime (s : State) (k : Nat) (f : Tenant → Tenant) : (State.modTenant s k f).ptime = s.ptime := rfl
@[simp] theorem State.modTenant_saveAreas (s : State) (k : Nat) (f : Tenant → Tenant) : (State.modTenant s k f).saveAreas = s.saveAreas := rfl
@[simp] theorem State.modTenant_loads (s : State) (k : Nat) (f : Tenant → Tenant) : (State.modTenant s k f).loads = s.loads := rfl
@[simp] theorem State.modTenant_landings (s : State) (k : Nat) (f : Tenant → Tenant) : (State.modTenant s k f).landings = s.landings := rfl
@[simp] theorem State.modTenant_trapReports (s : State) (k : Nat) (f : Tenant → Tenant) : (State.modTenant s k f).trapReports = s.trapReports := rfl
@[simp] theorem State.modTenant_agenda (s : State) (k : Nat) (f : Tenant → Tenant) : (State.modTenant s k f).agenda = s.agenda := rfl
@[simp] theorem State.modTenant_tick (s : State) (k : Nat) (f : Tenant → Tenant) : (State.modTenant s k f).tick = s.tick := rfl
@[simp] theorem State.modTenant_seq (s : State) (k : Nat) (f : Tenant → Tenant) : (State.modTenant s k f).seq = s.seq := rfl

/-! ## State.setFifo -/

@[simp] theorem State.setFifo_ply (s : State) (k : Nat) (c : Fifos) : (State.setFifo s k c).ply = s.ply := rfl
@[simp] theorem State.setFifo_plies (s : State) (k : Nat) (c : Fifos) : (State.setFifo s k c).plies = s.plies := rfl
@[simp] theorem State.setFifo_ghosts (s : State) (k : Nat) (c : Fifos) : (State.setFifo s k c).ghosts = s.ghosts := rfl
@[simp] theorem State.setFifo_issue (s : State) (k : Nat) (c : Fifos) : (State.setFifo s k c).issue = s.issue := rfl
@[simp] theorem State.setFifo_mem (s : State) (k : Nat) (c : Fifos) : (State.setFifo s k c).mem = s.mem := rfl
@[simp] theorem State.setFifo_stores (s : State) (k : Nat) (c : Fifos) : (State.setFifo s k c).stores = s.stores := rfl
@[simp] theorem State.setFifo_homeLeases (s : State) (k : Nat) (c : Fifos) : (State.setFifo s k c).homeLeases = s.homeLeases := rfl
@[simp] theorem State.setFifo_l2Leases (s : State) (k : Nat) (c : Fifos) : (State.setFifo s k c).l2Leases = s.l2Leases := rfl
@[simp] theorem State.setFifo_l1Leases (s : State) (k : Nat) (c : Fifos) : (State.setFifo s k c).l1Leases = s.l1Leases := rfl
@[simp] theorem State.setFifo_recent (s : State) (k : Nat) (c : Fifos) : (State.setFifo s k c).recent = s.recent := rfl
@[simp] theorem State.setFifo_failing (s : State) (k : Nat) (c : Fifos) : (State.setFifo s k c).failing = s.failing := rfl
@[simp] theorem State.setFifo_tlb (s : State) (k : Nat) (c : Fifos) : (State.setFifo s k c).tlb = s.tlb := rfl
@[simp] theorem State.setFifo_headers (s : State) (k : Nat) (c : Fifos) : (State.setFifo s k c).headers = s.headers := rfl
@[simp] theorem State.setFifo_cores (s : State) (k : Nat) (c : Fifos) : (State.setFifo s k c).cores = s.cores := rfl
@[simp] theorem State.setFifo_clusters (s : State) (k : Nat) (c : Fifos) : (State.setFifo s k c).clusters = s.clusters := rfl
@[simp] theorem State.setFifo_vaults (s : State) (k : Nat) (c : Fifos) : (State.setFifo s k c).vaults = s.vaults := rfl
@[simp] theorem State.setFifo_dies (s : State) (k : Nat) (c : Fifos) : (State.setFifo s k c).dies = s.dies := rfl
@[simp] theorem State.setFifo_tenants (s : State) (k : Nat) (c : Fifos) : (State.setFifo s k c).tenants = s.tenants := rfl
@[simp] theorem State.setFifo_reports (s : State) (k : Nat) (c : Fifos) : (State.setFifo s k c).reports = s.reports := rfl
@[simp] theorem State.setFifo_scopes (s : State) (k : Nat) (c : Fifos) : (State.setFifo s k c).scopes = s.scopes := rfl
@[simp] theorem State.setFifo_released (s : State) (k : Nat) (c : Fifos) : (State.setFifo s k c).released = s.released := rfl
@[simp] theorem State.setFifo_counted (s : State) (k : Nat) (c : Fifos) : (State.setFifo s k c).counted = s.counted := rfl
@[simp] theorem State.setFifo_arrivals (s : State) (k : Nat) (c : Fifos) : (State.setFifo s k c).arrivals = s.arrivals := rfl
@[simp] theorem State.setFifo_departures (s : State) (k : Nat) (c : Fifos) : (State.setFifo s k c).departures = s.departures := rfl
@[simp] theorem State.setFifo_broadcasts (s : State) (k : Nat) (c : Fifos) : (State.setFifo s k c).broadcasts = s.broadcasts := rfl
@[simp] theorem State.setFifo_transit (s : State) (k : Nat) (c : Fifos) : (State.setFifo s k c).transit = s.transit := rfl
@[simp] theorem State.setFifo_pieces (s : State) (k : Nat) (c : Fifos) : (State.setFifo s k c).pieces = s.pieces := rfl
@[simp] theorem State.setFifo_firings (s : State) (k : Nat) (c : Fifos) : (State.setFifo s k c).firings = s.firings := rfl
@[simp] theorem State.setFifo_saved (s : State) (k : Nat) (c : Fifos) : (State.setFifo s k c).saved = s.saved := rfl
@[simp] theorem State.setFifo_fabric (s : State) (k : Nat) (c : Fifos) : (State.setFifo s k c).fabric = s.fabric := rfl
@[simp] theorem State.setFifo_outgoing (s : State) (k : Nat) (c : Fifos) : (State.setFifo s k c).outgoing = s.outgoing := rfl
@[simp] theorem State.setFifo_firmware (s : State) (k : Nat) (c : Fifos) : (State.setFifo s k c).firmware = s.firmware := rfl
@[simp] theorem State.setFifo_selPart (s : State) (k : Nat) (c : Fifos) : (State.setFifo s k c).selPart = s.selPart := rfl
@[simp] theorem State.setFifo_selCluster (s : State) (k : Nat) (c : Fifos) : (State.setFifo s k c).selCluster = s.selCluster := rfl
@[simp] theorem State.setFifo_selReg (s : State) (k : Nat) (c : Fifos) : (State.setFifo s k c).selReg = s.selReg := rfl
@[simp] theorem State.setFifo_endpoint (s : State) (k : Nat) (c : Fifos) : (State.setFifo s k c).endpoint = s.endpoint := rfl
@[simp] theorem State.setFifo_ptime (s : State) (k : Nat) (c : Fifos) : (State.setFifo s k c).ptime = s.ptime := rfl
@[simp] theorem State.setFifo_saveAreas (s : State) (k : Nat) (c : Fifos) : (State.setFifo s k c).saveAreas = s.saveAreas := rfl
@[simp] theorem State.setFifo_loads (s : State) (k : Nat) (c : Fifos) : (State.setFifo s k c).loads = s.loads := rfl
@[simp] theorem State.setFifo_landings (s : State) (k : Nat) (c : Fifos) : (State.setFifo s k c).landings = s.landings := rfl
@[simp] theorem State.setFifo_trapReports (s : State) (k : Nat) (c : Fifos) : (State.setFifo s k c).trapReports = s.trapReports := rfl
@[simp] theorem State.setFifo_agenda (s : State) (k : Nat) (c : Fifos) : (State.setFifo s k c).agenda = s.agenda := rfl
@[simp] theorem State.setFifo_tick (s : State) (k : Nat) (c : Fifos) : (State.setFifo s k c).tick = s.tick := rfl
@[simp] theorem State.setFifo_seq (s : State) (k : Nat) (c : Fifos) : (State.setFifo s k c).seq = s.seq := rfl

/-! ## State.setDie -/

@[simp] theorem State.setDie_ply (s : State) (k : Nat) (c : DiePower) : (State.setDie s k c).ply = s.ply := rfl
@[simp] theorem State.setDie_plies (s : State) (k : Nat) (c : DiePower) : (State.setDie s k c).plies = s.plies := rfl
@[simp] theorem State.setDie_ghosts (s : State) (k : Nat) (c : DiePower) : (State.setDie s k c).ghosts = s.ghosts := rfl
@[simp] theorem State.setDie_issue (s : State) (k : Nat) (c : DiePower) : (State.setDie s k c).issue = s.issue := rfl
@[simp] theorem State.setDie_mem (s : State) (k : Nat) (c : DiePower) : (State.setDie s k c).mem = s.mem := rfl
@[simp] theorem State.setDie_stores (s : State) (k : Nat) (c : DiePower) : (State.setDie s k c).stores = s.stores := rfl
@[simp] theorem State.setDie_homeLeases (s : State) (k : Nat) (c : DiePower) : (State.setDie s k c).homeLeases = s.homeLeases := rfl
@[simp] theorem State.setDie_l2Leases (s : State) (k : Nat) (c : DiePower) : (State.setDie s k c).l2Leases = s.l2Leases := rfl
@[simp] theorem State.setDie_l1Leases (s : State) (k : Nat) (c : DiePower) : (State.setDie s k c).l1Leases = s.l1Leases := rfl
@[simp] theorem State.setDie_recent (s : State) (k : Nat) (c : DiePower) : (State.setDie s k c).recent = s.recent := rfl
@[simp] theorem State.setDie_failing (s : State) (k : Nat) (c : DiePower) : (State.setDie s k c).failing = s.failing := rfl
@[simp] theorem State.setDie_tlb (s : State) (k : Nat) (c : DiePower) : (State.setDie s k c).tlb = s.tlb := rfl
@[simp] theorem State.setDie_headers (s : State) (k : Nat) (c : DiePower) : (State.setDie s k c).headers = s.headers := rfl
@[simp] theorem State.setDie_cores (s : State) (k : Nat) (c : DiePower) : (State.setDie s k c).cores = s.cores := rfl
@[simp] theorem State.setDie_clusters (s : State) (k : Nat) (c : DiePower) : (State.setDie s k c).clusters = s.clusters := rfl
@[simp] theorem State.setDie_vaults (s : State) (k : Nat) (c : DiePower) : (State.setDie s k c).vaults = s.vaults := rfl
@[simp] theorem State.setDie_fifos (s : State) (k : Nat) (c : DiePower) : (State.setDie s k c).fifos = s.fifos := rfl
@[simp] theorem State.setDie_tenants (s : State) (k : Nat) (c : DiePower) : (State.setDie s k c).tenants = s.tenants := rfl
@[simp] theorem State.setDie_reports (s : State) (k : Nat) (c : DiePower) : (State.setDie s k c).reports = s.reports := rfl
@[simp] theorem State.setDie_scopes (s : State) (k : Nat) (c : DiePower) : (State.setDie s k c).scopes = s.scopes := rfl
@[simp] theorem State.setDie_released (s : State) (k : Nat) (c : DiePower) : (State.setDie s k c).released = s.released := rfl
@[simp] theorem State.setDie_counted (s : State) (k : Nat) (c : DiePower) : (State.setDie s k c).counted = s.counted := rfl
@[simp] theorem State.setDie_arrivals (s : State) (k : Nat) (c : DiePower) : (State.setDie s k c).arrivals = s.arrivals := rfl
@[simp] theorem State.setDie_departures (s : State) (k : Nat) (c : DiePower) : (State.setDie s k c).departures = s.departures := rfl
@[simp] theorem State.setDie_broadcasts (s : State) (k : Nat) (c : DiePower) : (State.setDie s k c).broadcasts = s.broadcasts := rfl
@[simp] theorem State.setDie_transit (s : State) (k : Nat) (c : DiePower) : (State.setDie s k c).transit = s.transit := rfl
@[simp] theorem State.setDie_pieces (s : State) (k : Nat) (c : DiePower) : (State.setDie s k c).pieces = s.pieces := rfl
@[simp] theorem State.setDie_firings (s : State) (k : Nat) (c : DiePower) : (State.setDie s k c).firings = s.firings := rfl
@[simp] theorem State.setDie_saved (s : State) (k : Nat) (c : DiePower) : (State.setDie s k c).saved = s.saved := rfl
@[simp] theorem State.setDie_fabric (s : State) (k : Nat) (c : DiePower) : (State.setDie s k c).fabric = s.fabric := rfl
@[simp] theorem State.setDie_outgoing (s : State) (k : Nat) (c : DiePower) : (State.setDie s k c).outgoing = s.outgoing := rfl
@[simp] theorem State.setDie_firmware (s : State) (k : Nat) (c : DiePower) : (State.setDie s k c).firmware = s.firmware := rfl
@[simp] theorem State.setDie_selPart (s : State) (k : Nat) (c : DiePower) : (State.setDie s k c).selPart = s.selPart := rfl
@[simp] theorem State.setDie_selCluster (s : State) (k : Nat) (c : DiePower) : (State.setDie s k c).selCluster = s.selCluster := rfl
@[simp] theorem State.setDie_selReg (s : State) (k : Nat) (c : DiePower) : (State.setDie s k c).selReg = s.selReg := rfl
@[simp] theorem State.setDie_endpoint (s : State) (k : Nat) (c : DiePower) : (State.setDie s k c).endpoint = s.endpoint := rfl
@[simp] theorem State.setDie_ptime (s : State) (k : Nat) (c : DiePower) : (State.setDie s k c).ptime = s.ptime := rfl
@[simp] theorem State.setDie_saveAreas (s : State) (k : Nat) (c : DiePower) : (State.setDie s k c).saveAreas = s.saveAreas := rfl
@[simp] theorem State.setDie_loads (s : State) (k : Nat) (c : DiePower) : (State.setDie s k c).loads = s.loads := rfl
@[simp] theorem State.setDie_landings (s : State) (k : Nat) (c : DiePower) : (State.setDie s k c).landings = s.landings := rfl
@[simp] theorem State.setDie_trapReports (s : State) (k : Nat) (c : DiePower) : (State.setDie s k c).trapReports = s.trapReports := rfl
@[simp] theorem State.setDie_agenda (s : State) (k : Nat) (c : DiePower) : (State.setDie s k c).agenda = s.agenda := rfl
@[simp] theorem State.setDie_tick (s : State) (k : Nat) (c : DiePower) : (State.setDie s k c).tick = s.tick := rfl
@[simp] theorem State.setDie_seq (s : State) (k : Nat) (c : DiePower) : (State.setDie s k c).seq = s.seq := rfl

/-! ## State.elapse -/

@[simp] theorem State.elapse_ply (s : State) : (State.elapse s).ply = s.ply := rfl
@[simp] theorem State.elapse_plies (s : State) : (State.elapse s).plies = s.plies := rfl
@[simp] theorem State.elapse_ghosts (s : State) : (State.elapse s).ghosts = s.ghosts := rfl
@[simp] theorem State.elapse_issue (s : State) : (State.elapse s).issue = s.issue := rfl
@[simp] theorem State.elapse_mem (s : State) : (State.elapse s).mem = s.mem := rfl
@[simp] theorem State.elapse_stores (s : State) : (State.elapse s).stores = s.stores := rfl
@[simp] theorem State.elapse_homeLeases (s : State) : (State.elapse s).homeLeases = s.homeLeases := rfl
@[simp] theorem State.elapse_l2Leases (s : State) : (State.elapse s).l2Leases = s.l2Leases := rfl
@[simp] theorem State.elapse_l1Leases (s : State) : (State.elapse s).l1Leases = s.l1Leases := rfl
@[simp] theorem State.elapse_recent (s : State) : (State.elapse s).recent = s.recent := rfl
@[simp] theorem State.elapse_failing (s : State) : (State.elapse s).failing = s.failing := rfl
@[simp] theorem State.elapse_tlb (s : State) : (State.elapse s).tlb = s.tlb := rfl
@[simp] theorem State.elapse_headers (s : State) : (State.elapse s).headers = s.headers := rfl
@[simp] theorem State.elapse_cores (s : State) : (State.elapse s).cores = s.cores := rfl
@[simp] theorem State.elapse_clusters (s : State) : (State.elapse s).clusters = s.clusters := rfl
@[simp] theorem State.elapse_vaults (s : State) : (State.elapse s).vaults = s.vaults := rfl
@[simp] theorem State.elapse_fifos (s : State) : (State.elapse s).fifos = s.fifos := rfl
@[simp] theorem State.elapse_dies (s : State) : (State.elapse s).dies = s.dies := rfl
@[simp] theorem State.elapse_tenants (s : State) : (State.elapse s).tenants = s.tenants := rfl
@[simp] theorem State.elapse_reports (s : State) : (State.elapse s).reports = s.reports := rfl
@[simp] theorem State.elapse_scopes (s : State) : (State.elapse s).scopes = s.scopes := rfl
@[simp] theorem State.elapse_released (s : State) : (State.elapse s).released = s.released := rfl
@[simp] theorem State.elapse_counted (s : State) : (State.elapse s).counted = s.counted := rfl
@[simp] theorem State.elapse_arrivals (s : State) : (State.elapse s).arrivals = s.arrivals := rfl
@[simp] theorem State.elapse_departures (s : State) : (State.elapse s).departures = s.departures := rfl
@[simp] theorem State.elapse_broadcasts (s : State) : (State.elapse s).broadcasts = s.broadcasts := rfl
@[simp] theorem State.elapse_transit (s : State) : (State.elapse s).transit = s.transit := rfl
@[simp] theorem State.elapse_pieces (s : State) : (State.elapse s).pieces = s.pieces := rfl
@[simp] theorem State.elapse_firings (s : State) : (State.elapse s).firings = s.firings := rfl
@[simp] theorem State.elapse_saved (s : State) : (State.elapse s).saved = s.saved := rfl
@[simp] theorem State.elapse_fabric (s : State) : (State.elapse s).fabric = s.fabric := rfl
@[simp] theorem State.elapse_outgoing (s : State) : (State.elapse s).outgoing = s.outgoing := rfl
@[simp] theorem State.elapse_firmware (s : State) : (State.elapse s).firmware = s.firmware := rfl
@[simp] theorem State.elapse_selPart (s : State) : (State.elapse s).selPart = s.selPart := rfl
@[simp] theorem State.elapse_selCluster (s : State) : (State.elapse s).selCluster = s.selCluster := rfl
@[simp] theorem State.elapse_selReg (s : State) : (State.elapse s).selReg = s.selReg := rfl
@[simp] theorem State.elapse_endpoint (s : State) : (State.elapse s).endpoint = s.endpoint := rfl
@[simp] theorem State.elapse_saveAreas (s : State) : (State.elapse s).saveAreas = s.saveAreas := rfl
@[simp] theorem State.elapse_loads (s : State) : (State.elapse s).loads = s.loads := rfl
@[simp] theorem State.elapse_landings (s : State) : (State.elapse s).landings = s.landings := rfl
@[simp] theorem State.elapse_trapReports (s : State) : (State.elapse s).trapReports = s.trapReports := rfl
@[simp] theorem State.elapse_agenda (s : State) : (State.elapse s).agenda = s.agenda := rfl
@[simp] theorem State.elapse_seq (s : State) : (State.elapse s).seq = s.seq := rfl

/-! ## What an update puts there -/

@[simp] theorem State.setCore_core (s : State) (k : Nat) (c : Core) : (s.setCore k c).core k = c := tget_tset_same ..
@[simp] theorem State.setCluster_cluster (s : State) (k : Nat) (c : Cluster) : (s.setCluster k c).cluster k = c := tget_tset_same ..
@[simp] theorem State.setVault_vault (s : State) (k : Nat) (c : Vault) : (s.setVault k c).vault k = c := tget_tset_same ..
@[simp] theorem State.setTenant_tenant (s : State) (k : Nat) (c : Tenant) : (s.setTenant k c).tenant k = c := tget_tset_same ..
@[simp] theorem State.setFifo_fifo (s : State) (k : Nat) (c : Fifos) : (s.setFifo k c).fifo k = c := tget_tset_same ..
@[simp] theorem State.setDie_die (s : State) (k : Nat) (c : DiePower) : (s.setDie k c).die k = c := tget_tset_same ..

@[simp] theorem Ply.setPath_path (p : Ply) (k : Nat) (q : Path) : (p.setPath k q).path k = q := by
  unfold Ply.setPath Ply.path
  by_cases h : (k == 0) = true <;> simp [h]

@[simp] theorem Ply.setCur_cur (p : Ply) (q : Path) : (p.setCur q).cur = q := by
  unfold Ply.cur
  rw [Ply.setCur_slot]
  exact Ply.setPath_path ..

@[simp] theorem Ply.advance_cur_pc (p : Ply) (i : Issue) :
    (p.advance i).cur.pc = pc60 (i.first + BitVec.ofNat 64 (4 * i.words)) := by
  have h : (p.advance i).cur = (p.setCur { p.cur with
      pc := pc60 (i.first + BitVec.ofNat 64 (4 * i.words))
      hprio := (match i.hprio with | some h => some (BitVec.ofNat 2 h.toNat) | none => p.cur.hprio) }).cur := rfl
  rw [h, Ply.setCur_cur]

@[simp] theorem State.ok_eq (s : State) : s.ok = .next s := rfl

/-- Each outcome of a meaning that answers next is that one state. -/
@[simp] theorem next_inj (s t : State) : ((.next s : Outcome) = .next t) ↔ s = t :=
  ⟨fun h => by injection h, fun h => by rw [h]⟩

end Sys2Proof.Machine
end

