-- ==== Sys2Proof/Laws/Frame.lean ====
section
/-!
SUPPORT. The physical memory's frame: every operation of the machine but the completion of a store (COMPLETION_TIME), a
load's header writes and image (LOAD_REQUEST) and PACKAGE_POWER_ON leaves the performed contents of memory, `State.mem`,
as they are. One lemma per operation.
-/

namespace Sys2Proof.Machine

theorem keep_foldl {α β σ : Type} (g : σ → β) (f : σ → α → σ) (h : ∀ s x, g (f s x) = g s) (l : List α) (s : σ) :
    g (l.foldl f s) = g s := by
  induction l generalizing s with
  | nil => rfl
  | cons x l ih => rw [List.foldl_cons, ih, h]
theorem foldl_mem {α : Type} (f : State → α → State) (l : List α) (s : State) (h : ∀ s x, (f s x).mem = s.mem) :
    (l.foldl f s).mem = s.mem := keep_foldl State.mem f h l s
theorem foldl1_mem {α β : Type} (f : State × β → α → State × β) (l : List α) (s : State × β) (h : ∀ s x, (f s x).1.mem = s.1.mem) :
    (l.foldl f s).1.mem = s.1.mem := keep_foldl (fun s => s.1.mem) f h l s
theorem foldl2_mem {α β : Type} (f : β × State → α → β × State) (l : List α) (s : β × State) (h : ∀ s x, (f s x).2.mem = s.2.mem) :
    (l.foldl f s).2.mem = s.2.mem := keep_foldl (fun s => s.2.mem) f h l s

@[simp] theorem State.modPly_mem (s : State) (uid : Nat) (f : Ply → Ply) : (State.modPly s uid f).mem = s.mem := by
  unfold State.modPly
  repeat' split
  all_goals simp
@[simp] theorem State.modAny_mem (s : State) (uid : Nat) (f : Ply → Ply) : (State.modAny s uid f).mem = s.mem := by
  simp [State.modAny]
@[simp] theorem State.fresh_mem (s : State) : (State.fresh s).2.mem = s.mem := by
  simp [State.fresh]
@[simp] theorem State.fromUnit_mem (s before : State) : (State.fromUnit s before).mem = s.mem := rfl
@[simp] theorem State.evictLine_mem (s : State) (c : CacheLine) : (State.evictLine s c).mem = s.mem := by
  unfold State.evictLine
  repeat'
    first
    | with_reducible rfl
    | assumption
    | (with_reducible apply Eq.trans (foldl_mem _ _ _ ?_))
    | (with_reducible apply Eq.trans (foldl1_mem _ _ _ ?_))
    | (with_reducible apply Eq.trans (foldl2_mem _ _ _ ?_))
    | (intro _)
    | (dsimp only)
    | (simp only [*])
    | (simp [*])
    | split
@[simp] theorem State.makeRoom_mem (s : State) (line : Nat) : (State.makeRoom s line).mem = s.mem := by
  unfold State.makeRoom
  repeat'
    first
    | with_reducible rfl
    | assumption
    | (with_reducible apply Eq.trans (foldl_mem _ _ _ ?_))
    | (with_reducible apply Eq.trans (foldl1_mem _ _ _ ?_))
    | (with_reducible apply Eq.trans (foldl2_mem _ _ _ ?_))
    | (intro _)
    | (dsimp only)
    | (simp only [*])
    | (simp [*])
    | split
@[simp] theorem State.fillLine_mem (s : State) (tenant line : Nat) (allocate : Bool) : (State.fillLine s tenant line allocate).mem = s.mem := by
  unfold State.fillLine
  repeat'
    first
    | with_reducible rfl
    | assumption
    | (with_reducible apply Eq.trans (foldl_mem _ _ _ ?_))
    | (with_reducible apply Eq.trans (foldl1_mem _ _ _ ?_))
    | (with_reducible apply Eq.trans (foldl2_mem _ _ _ ?_))
    | (intro _)
    | (dsimp only)
    | (simp only [*])
    | (simp [*])
    | split
@[simp] theorem State.hitLine_mem (s : State) (tenant : Nat) (c : CacheLine) : (State.hitLine s tenant c).mem = s.mem := by
  unfold State.hitLine
  repeat'
    first
    | with_reducible rfl
    | assumption
    | (with_reducible apply Eq.trans (foldl_mem _ _ _ ?_))
    | (with_reducible apply Eq.trans (foldl1_mem _ _ _ ?_))
    | (with_reducible apply Eq.trans (foldl2_mem _ _ _ ?_))
    | (intro _)
    | (dsimp only)
    | (simp only [*])
    | (simp [*])
    | split
@[simp] theorem State.homeRead_mem (s : State) (tenant line policy : Nat) : (State.homeRead s tenant line policy).mem = s.mem := by
  unfold State.homeRead
  repeat'
    first
    | with_reducible rfl
    | assumption
    | (with_reducible apply Eq.trans (foldl_mem _ _ _ ?_))
    | (with_reducible apply Eq.trans (foldl1_mem _ _ _ ?_))
    | (with_reducible apply Eq.trans (foldl2_mem _ _ _ ?_))
    | (intro _)
    | (dsimp only)
    | (simp only [*])
    | (simp [*])
    | split
@[simp] theorem State.dirtyLine_mem (s : State) (tenant line : Nat) : (State.dirtyLine s tenant line).mem = s.mem := by
  unfold State.dirtyLine
  repeat'
    first
    | with_reducible rfl
    | assumption
    | (with_reducible apply Eq.trans (foldl_mem _ _ _ ?_))
    | (with_reducible apply Eq.trans (foldl1_mem _ _ _ ?_))
    | (with_reducible apply Eq.trans (foldl2_mem _ _ _ ?_))
    | (intro _)
    | (dsimp only)
    | (simp only [*])
    | (simp [*])
    | split
@[simp] theorem State.homeStore_mem (s : State) (tenant line policy : Nat) : (State.homeStore s tenant line policy).mem = s.mem := by
  unfold State.homeStore
  repeat'
    first
    | with_reducible rfl
    | assumption
    | (with_reducible apply Eq.trans (foldl_mem _ _ _ ?_))
    | (with_reducible apply Eq.trans (foldl1_mem _ _ _ ?_))
    | (with_reducible apply Eq.trans (foldl2_mem _ _ _ ?_))
    | (intro _)
    | (dsimp only)
    | (simp only [*])
    | (simp [*])
    | split
@[simp] theorem State.homeAtomic_mem (s : State) (tenant line policy : Nat) : (State.homeAtomic s tenant line policy).mem = s.mem := by
  unfold State.homeAtomic
  repeat'
    first
    | with_reducible rfl
    | assumption
    | (with_reducible apply Eq.trans (foldl_mem _ _ _ ?_))
    | (with_reducible apply Eq.trans (foldl1_mem _ _ _ ?_))
    | (with_reducible apply Eq.trans (foldl2_mem _ _ _ ?_))
    | (intro _)
    | (dsimp only)
    | (simp only [*])
    | (simp [*])
    | split
@[simp] theorem State.takeL2_mem (s : State) (tenant cluster policy line : Nat) : (State.takeL2 s tenant cluster policy line).mem = s.mem := by
  unfold State.takeL2
  repeat'
    first
    | with_reducible rfl
    | assumption
    | (with_reducible apply Eq.trans (foldl_mem _ _ _ ?_))
    | (with_reducible apply Eq.trans (foldl1_mem _ _ _ ?_))
    | (with_reducible apply Eq.trans (foldl2_mem _ _ _ ?_))
    | (intro _)
    | (dsimp only)
    | (simp only [*])
    | (simp [*])
    | split
@[simp] theorem State.takeLease_mem (s : State) (tenant core policy line : Nat) : (State.takeLease s tenant core policy line).mem = s.mem := by
  unfold State.takeLease
  repeat'
    first
    | with_reducible rfl
    | assumption
    | (with_reducible apply Eq.trans (foldl_mem _ _ _ ?_))
    | (with_reducible apply Eq.trans (foldl1_mem _ _ _ ?_))
    | (with_reducible apply Eq.trans (foldl2_mem _ _ _ ?_))
    | (intro _)
    | (dsimp only)
    | (simp only [*])
    | (simp [*])
    | split
@[simp] theorem State.takeLeases_mem (s : State) (tenant core policy : Nat) (pas : List Nat) : (State.takeLeases s tenant core policy pas).mem = s.mem := by
  unfold State.takeLeases
  repeat'
    first
    | with_reducible rfl
    | assumption
    | (with_reducible apply Eq.trans (foldl_mem _ _ _ ?_))
    | (with_reducible apply Eq.trans (foldl1_mem _ _ _ ?_))
    | (with_reducible apply Eq.trans (foldl2_mem _ _ _ ?_))
    | (intro _)
    | (dsimp only)
    | (simp only [*])
    | (simp [*])
    | split
@[simp] theorem State.arriveAs_mem (s : State) (uid core cluster tenant policy floor : Nat) (scopes : List (BitVec 24)) (pa : Nat) (data : List Byte) (charged : Bool) : (State.arriveAs s uid core cluster tenant policy floor scopes pa data charged).mem = s.mem := by
  unfold State.arriveAs
  repeat'
    first
    | with_reducible rfl
    | assumption
    | (with_reducible apply Eq.trans (foldl_mem _ _ _ ?_))
    | (with_reducible apply Eq.trans (foldl1_mem _ _ _ ?_))
    | (with_reducible apply Eq.trans (foldl2_mem _ _ _ ?_))
    | (intro _)
    | (dsimp only)
    | (simp only [*])
    | (simp [*])
    | split
@[simp] theorem State.stamp_mem (s before : State) (seq : Nat) : (State.stamp s before seq).mem = s.mem := by
  simp [State.stamp]
@[simp] theorem State.arrive_mem (s : State) (uid core tenant policy floor : Nat) (scopes : List (BitVec 24)) (pa : Nat) (data : List Byte) : (State.arrive s uid core tenant policy floor scopes pa data).mem = s.mem := by
  simp [State.arrive]
@[simp] theorem State.arriveN_mem (s : State) (uid core tenant policy floor : Nat) (scopes : List (BitVec 24)) (pa : Nat) (data : List Byte) : (State.arriveN s uid core tenant policy floor scopes pa data).mem = s.mem := by
  unfold State.arriveN
  repeat'
    first
    | with_reducible rfl
    | assumption
    | (with_reducible apply Eq.trans (foldl_mem _ _ _ ?_))
    | (with_reducible apply Eq.trans (foldl1_mem _ _ _ ?_))
    | (with_reducible apply Eq.trans (foldl2_mem _ _ _ ?_))
    | (intro _)
    | (dsimp only)
    | (simp only [*])
    | (simp [*])
    | split
@[simp] theorem State.chargeWalk_mem (s : State) (tenant va : Nat) : (State.chargeWalk s tenant va).mem = s.mem := by
  unfold State.chargeWalk
  repeat'
    first
    | with_reducible rfl
    | assumption
    | (with_reducible apply Eq.trans (foldl_mem _ _ _ ?_))
    | (with_reducible apply Eq.trans (foldl1_mem _ _ _ ?_))
    | (with_reducible apply Eq.trans (foldl2_mem _ _ _ ?_))
    | (intro _)
    | (dsimp only)
    | (simp only [*])
    | (simp [*])
    | split
@[simp] theorem State.fillTlb_mem (s : State) (tenant : Nat) (vas : List DWord) : (State.fillTlb s tenant vas).mem = s.mem := by
  unfold State.fillTlb
  repeat'
    first
    | with_reducible rfl
    | assumption
    | (with_reducible apply Eq.trans (foldl_mem _ _ _ ?_))
    | (with_reducible apply Eq.trans (foldl1_mem _ _ _ ?_))
    | (with_reducible apply Eq.trans (foldl2_mem _ _ _ ?_))
    | (intro _)
    | (dsimp only)
    | (simp only [*])
    | (simp [*])
    | split
@[simp] theorem State.hubReads_mem (s : State) (tenant : Nat) (va : DWord) (n : Nat) : (State.hubReads s tenant va n).mem = s.mem := by
  unfold State.hubReads
  repeat'
    first
    | with_reducible rfl
    | assumption
    | (with_reducible apply Eq.trans (foldl_mem _ _ _ ?_))
    | (with_reducible apply Eq.trans (foldl1_mem _ _ _ ?_))
    | (with_reducible apply Eq.trans (foldl2_mem _ _ _ ?_))
    | (intro _)
    | (dsimp only)
    | (simp only [*])
    | (simp [*])
    | split
@[simp] theorem State.writeVirt_mem (s : State) (uid core tenant : Nat) (va : DWord) (data : List Byte) : (State.writeVirt s uid core tenant va data).mem = s.mem := by
  unfold State.writeVirt
  repeat'
    first
    | with_reducible rfl
    | assumption
    | (with_reducible apply Eq.trans (foldl_mem _ _ _ ?_))
    | (with_reducible apply Eq.trans (foldl1_mem _ _ _ ?_))
    | (with_reducible apply Eq.trans (foldl2_mem _ _ _ ?_))
    | (intro _)
    | (dsimp only)
    | (simp only [*])
    | (simp [*])
    | split
@[simp] theorem State.localWrite_mem (s : State) (core : Nat) (sp : Space) (a : Nat) (d : List Byte) : (State.localWrite s core sp a d).mem = s.mem := by
  simp [State.localWrite]
@[simp] theorem State.writeKept_mem (s : State) (core : Nat) (sp : Space) (a : Nat) (d : List Byte) (lost : Nat → Bool) :
    (State.writeKept s core sp a d lost).mem = s.mem := by
  unfold State.writeKept
  split
  · refine foldl_mem _ _ _ fun s x => ?_
    dsimp only
    split
    · rfl
    · exact State.localWrite_mem ..
  · exact State.localWrite_mem ..
@[simp] theorem State.patchStx_mem (s : State) (core : Nat) (sp : Space) (a : Nat) (d : List Byte) :
    (State.patchStx s core sp a d).mem = s.mem := rfl
@[simp] theorem State.engineWrite_mem (s : State) (o : EngineOp) (core : Nat) (sp : Space) (a : Nat) (d : List Byte) (pair : Bool) : (State.engineWrite s o core sp a d pair).mem = s.mem := by
  unfold State.engineWrite
  extract_lets old lost t u
  have h : u.mem = s.mem := by
    simp only [u]
    split
    · exact State.writeKept_mem ..
    · exact (State.patchStx_mem ..).trans (State.writeKept_mem ..)
  split
  · rw [State.modCore_mem, h]
  · exact h
@[simp] theorem State.stxWrite_mem (s : State) (uid seq core a : Nat) (d : List Byte) :
    (State.stxWrite s uid seq core a d).mem = s.mem := by
  unfold State.stxWrite
  extract_lets un lost old t u
  have h : u.mem = s.mem := by
    simp only [u]
    split
    · exact State.writeKept_mem ..
    · rw [State.modCore_mem]; exact State.writeKept_mem ..
  rw [State.modAny_mem, h]
@[simp] theorem State.seeWrites_mem (s : State) (uid core cls : Nat) : (State.seeWrites s uid core cls).mem = s.mem := by
  unfold State.seeWrites
  extract_lets seen
  split
  · exact State.modCore_mem ..
  · rfl
@[simp] theorem State.seeCredited_mem (s : State) (core leaf : Nat) : (State.seeCredited s core leaf).mem = s.mem := by
  unfold State.seeCredited
  extract_lets seen
  split <;> rfl
@[simp] theorem State.fenceOthers_mem (s : State) (p : Ply) (f : Nat) : (State.fenceOthers s p f).mem = s.mem := by
  unfold State.fenceOthers
  repeat'
    first
    | with_reducible rfl
    | assumption
    | (with_reducible apply Eq.trans (foldl_mem _ _ _ ?_))
    | (with_reducible apply Eq.trans (foldl1_mem _ _ _ ?_))
    | (with_reducible apply Eq.trans (foldl2_mem _ _ _ ?_))
    | (intro _)
    | (dsimp only)
    | (simp only [*])
    | (simp [*])
    | split
@[simp] theorem State.setLeaf_mem (s : State) (core leaf : Nat) (l : Leaf) : (State.setLeaf s core leaf l).mem = s.mem := by
  simp [State.setLeaf]
@[simp] theorem State.setRoot_mem (s : State) (cluster root : Nat) (r : Root) : (State.setRoot s cluster root r).mem = s.mem := by
  simp [State.setRoot]
@[simp] theorem State.enqueue_mem (s : State) (uid slot : Nat) (pc : DWord) (k : MemKind) : (State.enqueue s uid slot pc k).mem = s.mem := by
  simp [State.enqueue]
@[simp] theorem State.returnFromLeaf_mem (s : State) (uid scope : Nat) : (State.returnFromLeaf s uid scope).mem = s.mem := by
  simp [State.returnFromLeaf]
@[simp] theorem State.releaseTo_mem (s : State) (core leaf release width : Nat) (order : List Nat) (due : List (Ply × Nat)) : (State.releaseTo s core leaf release width order due).mem = s.mem := by
  unfold State.releaseTo
  repeat'
    first
    | with_reducible rfl
    | assumption
    | (with_reducible apply Eq.trans (foldl_mem _ _ _ ?_))
    | (with_reducible apply Eq.trans (foldl1_mem _ _ _ ?_))
    | (with_reducible apply Eq.trans (foldl2_mem _ _ _ ?_))
    | (intro _)
    | (dsimp only)
    | (simp only [*])
    | (simp [*])
    | split
@[simp] theorem State.releaseWaiters_mem (s : State) (core leaf : Nat) (reset : Bool) : (State.releaseWaiters s core leaf reset).mem = s.mem := by
  unfold State.releaseWaiters
  repeat'
    first
    | with_reducible rfl
    | assumption
    | (with_reducible apply Eq.trans (foldl_mem _ _ _ ?_))
    | (with_reducible apply Eq.trans (foldl1_mem _ _ _ ?_))
    | (with_reducible apply Eq.trans (foldl2_mem _ _ _ ?_))
    | (intro _)
    | (dsimp only)
    | (simp only [*])
    | (simp [*])
    | split
@[simp] theorem State.forgetArrivals_mem (s : State) (core leaf : Nat) (phase : BitVec 16) : (State.forgetArrivals s core leaf phase).mem = s.mem := by
  simp [State.forgetArrivals]
@[simp] theorem State.advanceLeaf_mem (s : State) (core leaf : Nat) : (State.advanceLeaf s core leaf).mem = s.mem := by
  unfold State.advanceLeaf
  dsimp only
  split <;> simp
@[simp] theorem State.flipRoot_mem (s : State) (cluster root : Nat) : (State.flipRoot s cluster root).mem = s.mem := by
  unfold State.flipRoot
  repeat'
    first
    | with_reducible rfl
    | assumption
    | (with_reducible apply Eq.trans (foldl_mem _ _ _ ?_))
    | (with_reducible apply Eq.trans (foldl1_mem _ _ _ ?_))
    | (with_reducible apply Eq.trans (foldl2_mem _ _ _ ?_))
    | (intro _)
    | (dsimp only)
    | (simp only [*])
    | (simp [*])
    | split
@[simp] theorem State.unlink_mem (s : State) (core leaf : Nat) : (State.unlink s core leaf).mem = s.mem := by
  unfold State.unlink
  repeat'
    first
    | with_reducible rfl
    | assumption
    | (with_reducible apply Eq.trans (foldl_mem _ _ _ ?_))
    | (with_reducible apply Eq.trans (foldl1_mem _ _ _ ?_))
    | (with_reducible apply Eq.trans (foldl2_mem _ _ _ ?_))
    | (intro _)
    | (dsimp only)
    | (simp only [*])
    | (simp [*])
    | split
@[simp] theorem State.resetLeaf_mem (s : State) (core leaf : Nat) : (State.resetLeaf s core leaf).mem = s.mem := by
  simp [State.resetLeaf]
@[simp] theorem State.beginReset_mem (s : State) (core leaf : Nat) : (State.beginReset s core leaf).mem = s.mem := by
  unfold State.beginReset
  repeat'
    first
    | with_reducible rfl
    | assumption
    | (with_reducible apply Eq.trans (foldl_mem _ _ _ ?_))
    | (with_reducible apply Eq.trans (foldl1_mem _ _ _ ?_))
    | (with_reducible apply Eq.trans (foldl2_mem _ _ _ ?_))
    | (intro _)
    | (dsimp only)
    | (simp only [*])
    | (simp [*])
    | split
@[simp] theorem State.settleLeaf_mem (s : State) (core leaf : Nat) : (State.settleLeaf s core leaf).mem = s.mem := by
  unfold State.settleLeaf
  repeat'
    first
    | with_reducible rfl
    | assumption
    | (with_reducible apply Eq.trans (foldl_mem _ _ _ ?_))
    | (with_reducible apply Eq.trans (foldl1_mem _ _ _ ?_))
    | (with_reducible apply Eq.trans (foldl2_mem _ _ _ ?_))
    | (intro _)
    | (dsimp only)
    | (simp only [*])
    | (simp [*])
    | split
@[simp] theorem State.creditLeaf_mem (s : State) (core leaf : Nat) (n : Int) : (State.creditLeaf s core leaf n).mem = s.mem := by
  simp [State.creditLeaf]
@[simp] theorem State.applyDeparture_mem (s : State) (d : Departure) : (State.applyDeparture s d).mem = s.mem := by
  unfold State.applyDeparture
  dsimp only
  split <;> simp
@[simp] theorem State.runDepartures_mem (s : State) : (State.runDepartures s).mem = s.mem := by
  unfold State.runDepartures
  repeat'
    first
    | with_reducible rfl
    | assumption
    | (with_reducible apply Eq.trans (foldl_mem _ _ _ ?_))
    | (with_reducible apply Eq.trans (foldl1_mem _ _ _ ?_))
    | (with_reducible apply Eq.trans (foldl2_mem _ _ _ ?_))
    | (intro _)
    | (dsimp only)
    | (simp only [*])
    | (simp [*])
    | split
@[simp] theorem State.answer_mem (s : State) (uid : Nat) (h : HubOp) (ws : List (BitVec 6 × Word)) : (State.answer s uid h ws).mem = s.mem := by
  simp [State.answer]
@[simp] theorem State.answerBara_mem (s : State) (uid seq : Nat) (phase : BitVec 16) : (State.answerBara s uid seq phase).mem = s.mem := by
  unfold State.answerBara
  repeat' split
  all_goals simp
@[simp] theorem State.withdraw_mem (s : State) (uid lane : Nat) : (State.withdraw s uid lane).mem = s.mem := by
  unfold State.withdraw
  repeat'
    first
    | with_reducible rfl
    | assumption
    | (with_reducible apply Eq.trans (foldl_mem _ _ _ ?_))
    | (with_reducible apply Eq.trans (foldl1_mem _ _ _ ?_))
    | (with_reducible apply Eq.trans (foldl2_mem _ _ _ ?_))
    | (intro _)
    | (dsimp only)
    | (simp only [*])
    | (simp [*])
    | split
@[simp] theorem State.departLane_mem (s : State) (uid lane : Nat) : (State.departLane s uid lane).mem = s.mem := by
  unfold State.departLane
  repeat'
    first
    | with_reducible rfl
    | assumption
    | (with_reducible apply Eq.trans (foldl_mem _ _ _ ?_))
    | (with_reducible apply Eq.trans (foldl1_mem _ _ _ ?_))
    | (with_reducible apply Eq.trans (foldl2_mem _ _ _ ?_))
    | (intro _)
    | (dsimp only)
    | (simp only [*])
    | (simp [*])
    | split
@[simp] theorem State.countArrival_mem (s : State) (a : Arrival) : (State.countArrival s a).mem = s.mem := by
  unfold State.countArrival
  repeat' split
  all_goals simp
@[simp] theorem State.modScope_mem (s : State) (tenant : Nat) (id : BitVec 24) (f : Scope → Scope) : (State.modScope s tenant id f).mem = s.mem := by
  simp [State.modScope]
@[simp] theorem State.writeScope_mem (s : State) (tenant : Nat) (id : BitVec 24) : (State.writeScope s tenant id).mem = s.mem := by
  unfold State.writeScope
  repeat' split
  all_goals simp
@[simp] theorem State.cancelBelow_mem (s : State) (tenant : Nat) (id : BitVec 24) : (State.cancelBelow s tenant id).mem = s.mem := by
  unfold State.cancelBelow
  repeat'
    first
    | with_reducible rfl
    | assumption
    | (with_reducible apply Eq.trans (foldl_mem _ _ _ ?_))
    | (with_reducible apply Eq.trans (foldl1_mem _ _ _ ?_))
    | (with_reducible apply Eq.trans (foldl2_mem _ _ _ ?_))
    | (intro _)
    | (dsimp only)
    | (simp only [*])
    | (simp [*])
    | split
@[simp] theorem State.broadcast_mem (s : State) (tenant : Nat) (id : BitVec 24) : (State.broadcast s tenant id).mem = s.mem := by
  simp [State.broadcast]
@[simp] theorem State.cancelScope_mem (s : State) (tenant : Nat) (id : BitVec 24) : (State.cancelScope s tenant id).mem = s.mem := by
  unfold State.cancelScope
  repeat' split
  all_goals simp
@[simp] theorem State.faultScope_mem (s : State) (tenant : Nat) (id : BitVec 24) (causeWord : Word) : (State.faultScope s tenant id causeWord).mem = s.mem := by
  unfold State.faultScope
  repeat' split
  all_goals simp
@[simp] theorem State.countEnd_mem (s : State) (tenant : Nat) (id : BitVec 24) : (State.countEnd s tenant id).mem = s.mem := by
  simp [State.countEnd]
@[simp] theorem State.faultRecord_mem (s : State) (tenant : Nat) (f : FaultRecord) : (State.faultRecord s tenant f).mem = s.mem := by
  unfold State.faultRecord
  repeat'
    first
    | with_reducible rfl
    | assumption
    | (with_reducible apply Eq.trans (foldl_mem _ _ _ ?_))
    | (with_reducible apply Eq.trans (foldl1_mem _ _ _ ?_))
    | (with_reducible apply Eq.trans (foldl2_mem _ _ _ ?_))
    | (intro _)
    | (dsimp only)
    | (simp only [*])
    | (simp [*])
    | split
@[simp] theorem State.faultWork_mem (s : State) (tenant : Nat) (scope : BitVec 24) (causeWord : Word) (core : Nat) (pc : DWord) : (State.faultWork s tenant scope causeWord core pc).mem = s.mem := by
  unfold State.faultWork
  repeat'
    first
    | with_reducible rfl
    | assumption
    | (with_reducible apply Eq.trans (foldl_mem _ _ _ ?_))
    | (with_reducible apply Eq.trans (foldl1_mem _ _ _ ?_))
    | (with_reducible apply Eq.trans (foldl2_mem _ _ _ ?_))
    | (intro _)
    | (dsimp only)
    | (simp only [*])
    | (simp [*])
    | split
@[simp] theorem State.complete_mem (s : State) (seq : Nat) : (State.complete s seq).mem = s.mem := by
  simp [State.complete]
@[simp] theorem State.failOp_mem (s : State) (seq : Nat) (f : Failure) : (State.failOp s seq f).mem = s.mem := by
  simp [State.failOp]
@[simp] theorem State.settleEntries_mem (s : State) (core : Nat) : (State.settleEntries s core).mem = s.mem := by
  unfold State.settleEntries
  repeat'
    first
    | with_reducible rfl
    | assumption
    | (with_reducible apply Eq.trans (foldl_mem _ _ _ ?_))
    | (with_reducible apply Eq.trans (foldl1_mem _ _ _ ?_))
    | (with_reducible apply Eq.trans (foldl2_mem _ _ _ ?_))
    | (intro _)
    | (dsimp only)
    | (simp only [*])
    | (simp [*])
    | split
@[simp] theorem State.paintTaskOver_mem (s : State) (tag : Option Tag) : (State.paintTaskOver s tag).mem = s.mem := by
  unfold State.paintTaskOver
  repeat' split
  all_goals simp
@[simp] theorem State.cancelCopies_mem (s : State) (uid lane : Nat) : (State.cancelCopies s uid lane).mem = s.mem := by
  unfold State.cancelCopies
  extract_lets mine f drop g s1 s2
  exact Eq.trans (foldl_mem _ _ _ fun s x => State.complete_mem ..) rfl
@[simp] theorem State.endLane_mem (s : State) (uid lane : Nat) (killed : Bool) : (State.endLane s uid lane killed).mem = s.mem := by
  unfold State.endLane
  repeat' split
  all_goals simp
@[simp] theorem State.releaseWindows_mem (s : State) (core : Nat) : (State.releaseWindows s core).mem = s.mem := by
  unfold State.releaseWindows
  repeat'
    first
    | with_reducible rfl
    | assumption
    | (with_reducible apply Eq.trans (foldl_mem _ _ _ ?_))
    | (with_reducible apply Eq.trans (foldl1_mem _ _ _ ?_))
    | (with_reducible apply Eq.trans (foldl2_mem _ _ _ ?_))
    | (intro _)
    | (dsimp only)
    | (simp only [*])
    | (simp [*])
    | split
@[simp] theorem State.releaseFor_mem (s : State) (uid : Nat) : (State.releaseFor s uid).mem = s.mem := by
  unfold State.releaseFor
  split
  · rfl
  · exact foldl_mem _ _ _ fun s x => State.releaseWindows_mem s x
@[simp] theorem State.reap_mem (s : State) : (State.reap s).mem = s.mem := by
  simp [State.reap]
@[simp] theorem State.settleFiring_mem (s : State) (id : Nat) : (State.settleFiring s id).mem = s.mem := by
  unfold State.settleFiring
  repeat' split
  all_goals simp
@[simp] theorem State.retire_mem (s : State) (uid : Nat) : (State.retire s uid).mem = s.mem := by
  unfold State.retire
  repeat'
    first
    | with_reducible rfl
    | assumption
    | (with_reducible apply Eq.trans (foldl_mem _ _ _ ?_))
    | (with_reducible apply Eq.trans (foldl1_mem _ _ _ ?_))
    | (with_reducible apply Eq.trans (foldl2_mem _ _ _ ?_))
    | (intro _)
    | (dsimp only)
    | (simp only [*])
    | (simp [*])
    | split
@[simp] theorem State.retireIfEmpty_mem (s : State) (uid : Nat) : (State.retireIfEmpty s uid).mem = s.mem := by
  unfold State.retireIfEmpty
  repeat' split
  all_goals simp
@[simp] theorem State.endByFault_mem (s : State) (uid : Nat) (lanes : Mask) (causeWord : Word) (pc va : DWord) (pa : Nat) : (State.endByFault s uid lanes causeWord pc va pa).mem = s.mem := by
  unfold State.endByFault
  repeat'
    first
    | with_reducible rfl
    | assumption
    | (with_reducible apply Eq.trans (foldl_mem _ _ _ ?_))
    | (with_reducible apply Eq.trans (foldl1_mem _ _ _ ?_))
    | (with_reducible apply Eq.trans (foldl2_mem _ _ _ ?_))
    | (intro _)
    | (dsimp only)
    | (simp only [*])
    | (simp [*])
    | split
@[simp] theorem State.kill_mem (s : State) (uid : Nat) (lanes : Mask) : (State.kill s uid lanes).mem = s.mem := by
  unfold State.kill
  repeat'
    first
    | with_reducible rfl
    | assumption
    | (with_reducible apply Eq.trans (foldl_mem _ _ _ ?_))
    | (with_reducible apply Eq.trans (foldl1_mem _ _ _ ?_))
    | (with_reducible apply Eq.trans (foldl2_mem _ _ _ ?_))
    | (intro _)
    | (dsimp only)
    | (simp only [*])
    | (simp [*])
    | split
@[simp] theorem State.sendTask_mem (s : State) (core : Nat) (t : Task) (stolen : Bool) : (State.sendTask s core t stolen).mem = s.mem := by
  simp [State.sendTask]
@[simp] theorem State.discardTask_mem (s : State) (t : Task) : (State.discardTask s t).mem = s.mem := by
  simp [State.discardTask]
@[simp] theorem State.raiseAt_mem (s : State) (p : Ply) (put : State → Ply → State) (first : DWord) (words : Nat) (c : Cause) (faults : List Cause) (h_put : ∀ t x0, (put t x0).mem = t.mem) : (State.raiseAt s p put first words c faults).mem = s.mem := by
  unfold State.raiseAt
  extract_lets c' s1
  have h1 : s1.mem = s.mem := by
    simp only [s1]
    split
    · exact foldl_mem _ _ _ fun s x => State.chargeWalk_mem ..
    · rfl
  clear_value s1 c'
  split
  · exact (State.endByFault_mem ..).trans h1
  · split
    · exact (State.endByFault_mem ..).trans h1
    · split
      · exact (State.writeVirt_mem ..).trans ((h_put ..).trans h1)
      · exact (h_put ..).trans h1
@[simp] theorem State.raise_mem (s : State) (c : Cause) (faults : List Cause) : (State.raise s c faults).mem = s.mem := by
  simp [State.raise]
@[simp] theorem State.raiseWaiting_mem (s : State) (uid : Nat) (c : Cause) (faults : List Cause) : (State.raiseWaiting s uid c faults).mem = s.mem := by
  unfold State.raiseWaiting
  repeat' split
  all_goals simp
@[simp] theorem State.raisePriv_mem (s : State) (sub : Nat) : (State.raisePriv s sub).mem = s.mem := by
  simp [State.raisePriv]
@[simp] theorem State.raiseConverge_mem (s : State) : (State.raiseConverge s).mem = s.mem := by
  simp [State.raiseConverge]
@[simp] theorem State.raiseRegrange_mem (s : State) : (State.raiseRegrange s).mem = s.mem := by
  simp [State.raiseRegrange]
@[simp] theorem State.raiseLatch_mem (s : State) : (State.raiseLatch s).mem = s.mem := by
  simp [State.raiseLatch]
@[simp] theorem State.checkV_mem (s : State) (codes : List (BitVec 7)) (k : State) (hk : k.mem = s.mem) : (State.checkV s codes k).mem = s.mem := by
  unfold State.checkV
  repeat'
    first
    | with_reducible rfl
    | assumption
    | (with_reducible apply Eq.trans (foldl_mem _ _ _ ?_))
    | (with_reducible apply Eq.trans (foldl1_mem _ _ _ ?_))
    | (with_reducible apply Eq.trans (foldl2_mem _ _ _ ?_))
    | (intro _)
    | (dsimp only)
    | (simp only [*])
    | (simp [*])
    | split
@[simp] theorem State.checkRun_mem (s : State) (v : BitVec 7) (n : Nat) (k : State) (hk : k.mem = s.mem) : (State.checkRun s v n k).mem = s.mem := by
  unfold State.checkRun
  repeat'
    first
    | with_reducible rfl
    | assumption
    | (with_reducible apply Eq.trans (foldl_mem _ _ _ ?_))
    | (with_reducible apply Eq.trans (foldl1_mem _ _ _ ?_))
    | (with_reducible apply Eq.trans (foldl2_mem _ _ _ ?_))
    | (with_reducible apply State.checkV_mem)
    | (intro _)
    | (dsimp only)
    | (simp only [*])
    | (simp [*])
    | split
@[simp] theorem State.checkTile_mem (s : State) (t : Nat) (k : State) (hk : k.mem = s.mem) : (State.checkTile s t k).mem = s.mem := by
  unfold State.checkTile
  repeat'
    first
    | with_reducible rfl
    | assumption
    | (with_reducible apply Eq.trans (foldl_mem _ _ _ ?_))
    | (with_reducible apply Eq.trans (foldl1_mem _ _ _ ?_))
    | (with_reducible apply Eq.trans (foldl2_mem _ _ _ ?_))
    | (with_reducible apply State.checkV_mem)
    | (with_reducible apply State.checkRun_mem)
    | (intro _)
    | (dsimp only)
    | (simp only [*])
    | (simp [*])
    | split
@[simp] theorem State.vmap1_mem (s : State) (d a : BitVec 7) (nw : BitVec 1) (f : Word → Word) : (State.vmap1 s d a nw f).mem = s.mem := by
  unfold State.vmap1
  exact State.checkV_mem _ _ _ rfl
@[simp] theorem State.vmap2_mem (s : State) (d a b : BitVec 7) (nw : BitVec 1) (f : Word → Word → Word) : (State.vmap2 s d a b nw f).mem = s.mem := by
  unfold State.vmap2
  exact State.checkV_mem _ _ _ rfl
@[simp] theorem State.vmap3_mem (s : State) (d a b : BitVec 7) (nw : BitVec 1) (f : Word → Word → Word → Word) : (State.vmap3 s d a b nw f).mem = s.mem := by
  unfold State.vmap3
  exact State.checkV_mem _ _ _ rfl
@[simp] theorem State.raiseFlags_mem (s : State) (f : BitVec 6) : (State.raiseFlags s f).mem = s.mem := by
  simp [State.raiseFlags]
@[simp] theorem State.queueMem_mem (s : State) (k : MemKind) : (State.queueMem s k).mem = s.mem := by
  simp [State.queueMem]
@[simp] theorem State.settleLsq_mem (s : State) (uid : Nat) : (State.settleLsq s uid).mem = s.mem := by
  unfold State.settleLsq
  repeat'
    first
    | with_reducible rfl
    | assumption
    | (with_reducible apply Eq.trans (foldl_mem _ _ _ ?_))
    | (with_reducible apply Eq.trans (foldl1_mem _ _ _ ?_))
    | (with_reducible apply Eq.trans (foldl2_mem _ _ _ ?_))
    | (with_reducible apply State.checkV_mem)
    | (with_reducible apply State.checkRun_mem)
    | (intro _)
    | (dsimp only)
    | (simp only [*])
    | (simp [*])
    | split
@[simp] theorem State.removeMem_mem (s : State) (uid seq : Nat) : (State.removeMem s uid seq).mem = s.mem := by
  simp [State.removeMem]
@[simp] theorem State.memerrLanes_mem (s : State) (uid : Nat) (pc : DWord) (consumer n : Nat) (bad : List LaneAddr) (whole : Bool) : (State.memerrLanes s uid pc consumer n bad whole).mem = s.mem := by
  unfold State.memerrLanes
  repeat' split
  all_goals simp
@[simp] theorem State.storesLost_mem (s : State) (p : Ply) (e : MemOp) (lost : List LaneAddr) : (State.storesLost s p e lost).mem = s.mem := by
  unfold State.storesLost
  repeat'
    first
    | with_reducible rfl
    | assumption
    | (with_reducible apply Eq.trans (foldl_mem _ _ _ ?_))
    | (with_reducible apply Eq.trans (foldl1_mem _ _ _ ?_))
    | (with_reducible apply Eq.trans (foldl2_mem _ _ _ ?_))
    | (intro _)
    | (dsimp only)
    | (simp only [*])
    | (simp [*])
    | split
@[simp] theorem State.performLoad_mem (s : State) (p : Ply) (e : MemOp) (v : BitVec 7) (z : Nat) (ls : List LaneAddr) (policy : Nat) : (State.performLoad s p e v z ls policy).mem = s.mem := by
  simp [State.performLoad]
@[simp] theorem State.performLoadX_mem (s : State) (p : Ply) (e : MemOp) (v : BitVec 7) (z : Nat) (ls : List (Space × LaneAddr)) : (State.performLoadX s p e v z ls).mem = s.mem := by
  simp [State.performLoadX]
@[simp] theorem State.performLds_mem (s : State) (p : Ply) (e : MemOp) (d : BitVec 6) (wide : Bool) (l : LaneAddr) (policy : Nat) : (State.performLds s p e d wide l policy).mem = s.mem := by
  unfold State.performLds
  dsimp only
  repeat' split
  all_goals simp only [State.memerrLanes_mem, State.removeMem_mem, State.modAny_mem, State.takeLeases_mem]
@[simp] theorem State.performFill_mem (s : State) (p : Ply) (e : MemOp) (v : Nat) (active : Mask) (taken : List (List Byte)) (bad : Option LaneAddr) : (State.performFill s p e v active taken bad).mem = s.mem := by
  unfold State.performFill
  split
  · rw [State.removeMem_mem, State.modAny_mem]
  · rw [State.endByFault_mem, State.removeMem_mem]
@[simp] theorem State.performTex_mem (s : State) (p : Ply) (e : MemOp) (kind : TexKind) (d : BitVec 7) (fmt chan : Nat) (loc : Bool) (ls : List TexLane) (policy : Nat) : (State.performTex s p e kind d fmt chan loc ls policy).mem = s.mem := by
  unfold State.performTex
  repeat' split
  all_goals simp
@[simp] theorem State.performRead_mem (s : State) (p : Ply) (e : MemOp) : (State.performRead s p e).mem = s.mem := by
  unfold State.performRead
  repeat' split
  all_goals simp
@[simp] theorem State.performStore_mem (s : State) (p : Ply) (e : MemOp) (ls : List LaneStore) (policy : Nat) : (State.performStore s p e ls policy).mem = s.mem := by
  unfold State.performStore
  repeat'
    first
    | with_reducible rfl
    | assumption
    | (with_reducible apply Eq.trans (foldl_mem _ _ _ ?_))
    | (with_reducible apply Eq.trans (foldl1_mem _ _ _ ?_))
    | (with_reducible apply Eq.trans (foldl2_mem _ _ _ ?_))
    | (with_reducible apply State.checkV_mem)
    | (with_reducible apply State.checkRun_mem)
    | (intro _)
    | (dsimp only)
    | (simp only [*])
    | (simp [*])
    | split
@[simp] theorem State.performStoreX_mem (s : State) (p : Ply) (e : MemOp) (ls : List LaneStore) (byMcvst : Bool) : (State.performStoreX s p e ls byMcvst).mem = s.mem := by
  unfold State.performStoreX
  repeat'
    first
    | with_reducible rfl
    | assumption
    | (with_reducible apply Eq.trans (foldl_mem _ _ _ ?_))
    | (with_reducible apply Eq.trans (foldl1_mem _ _ _ ?_))
    | (with_reducible apply Eq.trans (foldl2_mem _ _ _ ?_))
    | (with_reducible apply State.checkV_mem)
    | (with_reducible apply State.checkRun_mem)
    | (intro _)
    | (dsimp only)
    | (simp only [*])
    | (simp [*])
    | split
@[simp] theorem State.answerLoad_mem (s : State) (l : Loading) : (State.answerLoad s l).mem = s.mem := by
  unfold State.answerLoad
  repeat'
    first
    | with_reducible rfl
    | assumption
    | (with_reducible apply Eq.trans (foldl_mem _ _ _ ?_))
    | (with_reducible apply Eq.trans (foldl1_mem _ _ _ ?_))
    | (with_reducible apply Eq.trans (foldl2_mem _ _ _ ?_))
    | (intro _)
    | (dsimp only)
    | (simp only [*])
    | (simp [*])
    | split
@[simp] theorem State.answerLoads_mem (s : State) : (State.answerLoads s).mem = s.mem := by
  unfold State.answerLoads
  repeat'
    first
    | with_reducible rfl
    | assumption
    | (with_reducible apply Eq.trans (foldl_mem _ _ _ ?_))
    | (with_reducible apply Eq.trans (foldl1_mem _ _ _ ?_))
    | (with_reducible apply Eq.trans (foldl2_mem _ _ _ ?_))
    | (intro _)
    | (dsimp only)
    | (simp only [*])
    | (simp [*])
    | split
@[simp] theorem State.texIssue_mem (s : State) (kind : TexKind) (d c : BitVec 7) (b : BitVec 6) : (State.texIssue s kind d c b).mem = s.mem := by
  unfold State.texIssue
  dsimp only
  apply State.checkRun_mem
  apply State.checkRun_mem
  split
  · exact State.raise_mem ..
  split
  · exact State.raise_mem ..
  split
  · exact State.raise_mem ..
  repeat' split
  all_goals simp only [State.done_mem, State.queueMem_mem, State.fillTlb_mem]
@[simp] theorem State.atomWrite_mem (s : State) (p : Ply) (scope policy : Nat) (scopes : List (BitVec 24)) (pa : Nat) (d : List Byte) : (State.atomWrite s p scope policy scopes pa d).mem = s.mem := by
  unfold State.atomWrite
  repeat' split
  · exact State.arriveAs_mem ..
  · exact State.arriveAs_mem ..
  · rw [State.fromUnit_mem, State.arriveAs_mem, State.homeAtomic_mem]
@[simp] theorem State.atomRequest_mem (s : State) (p : Ply) (op scope policy pa : Nat) (ls : List AtomLane) : (State.atomRequest s p op scope policy pa ls).1.mem = s.mem := by
  unfold State.atomRequest
  repeat'
    first
    | with_reducible rfl
    | assumption
    | (with_reducible apply Eq.trans (foldl_mem _ _ _ ?_))
    | (with_reducible apply Eq.trans (foldl1_mem _ _ _ ?_))
    | (with_reducible apply Eq.trans (foldl2_mem _ _ _ ?_))
    | (with_reducible apply State.checkV_mem)
    | (with_reducible apply State.checkRun_mem)
    | (intro _)
    | (dsimp only)
    | (simp only [*])
    | (simp [*])
    | split
@[simp] theorem State.performAtom_mem (s : State) (p : Ply) (e : MemOp) (op : Nat) (ret : Bool) (v : BitVec 7) (scope : Nat) (ls : List AtomLane) (policy : Nat) : (State.performAtom s p e op ret v scope ls policy).mem = s.mem := by
  unfold State.performAtom
  repeat'
    first
    | with_reducible rfl
    | assumption
    | (with_reducible apply Eq.trans (foldl_mem _ _ _ ?_))
    | (with_reducible apply Eq.trans (foldl1_mem _ _ _ ?_))
    | (with_reducible apply Eq.trans (foldl2_mem _ _ _ ?_))
    | (with_reducible apply State.checkV_mem)
    | (with_reducible apply State.checkRun_mem)
    | (intro _)
    | (dsimp only)
    | (simp only [*])
    | (simp [*])
    | split
@[simp] theorem State.acceptFaddd_mem (s : State) (p : Ply) (l : AtomLane) (core leaf : Nat) (phase : BitVec 16) : (State.acceptFaddd s p l core leaf phase).mem = s.mem := by
  unfold State.acceptFaddd
  repeat'
    first
    | with_reducible rfl
    | assumption
    | (with_reducible apply Eq.trans (foldl_mem _ _ _ ?_))
    | (with_reducible apply Eq.trans (foldl1_mem _ _ _ ?_))
    | (with_reducible apply Eq.trans (foldl2_mem _ _ _ ?_))
    | (with_reducible apply State.checkV_mem)
    | (with_reducible apply State.checkRun_mem)
    | (intro _)
    | (dsimp only)
    | (simp only [*])
    | (simp [*])
    | split
@[simp] theorem State.runFaddd_mem (s : State) (ply seq : Nat) : (State.runFaddd s ply seq).mem = s.mem := by
  unfold State.runFaddd
  repeat'
    first
    | with_reducible rfl
    | assumption
    | (with_reducible apply Eq.trans (foldl_mem _ _ _ ?_))
    | (with_reducible apply Eq.trans (foldl1_mem _ _ _ ?_))
    | (with_reducible apply Eq.trans (foldl2_mem _ _ _ ?_))
    | (with_reducible apply State.checkV_mem)
    | (with_reducible apply State.checkRun_mem)
    | (intro _)
    | (dsimp only)
    | (simp only [*])
    | (simp [*])
    | split
@[simp] theorem State.endMakers_mem (s : State) (f : FElement) (word : Word) : (State.endMakers s f word).mem = s.mem := by
  unfold State.endMakers
  repeat'
    first
    | with_reducible rfl
    | assumption
    | (with_reducible apply Eq.trans (foldl_mem _ _ _ ?_))
    | (with_reducible apply Eq.trans (foldl1_mem _ _ _ ?_))
    | (with_reducible apply Eq.trans (foldl2_mem _ _ _ ?_))
    | (with_reducible apply State.checkV_mem)
    | (with_reducible apply State.checkRun_mem)
    | (intro _)
    | (dsimp only)
    | (simp only [*])
    | (simp [*])
    | split
@[simp] theorem State.closeElement_mem (s : State) (f : FElement) : (State.closeElement s f).mem = s.mem := by
  unfold State.closeElement
  split
  · exact State.endMakers_mem ..
  · dsimp only
    rw [State.fromUnit_mem, State.arriveAs_mem, State.homeAtomic_mem]
@[simp] theorem State.windowClose_mem (s : State) (core leaf phase : Nat) : (State.windowClose s core leaf phase).mem = s.mem := by
  unfold State.windowClose
  dsimp only
  split
  · split
    · rw [State.setLeaf_mem]
      exact Eq.trans (foldl_mem _ _ _ fun s x => State.closeElement_mem s x) rfl
    · rfl
  · split
    · rw [State.runDepartures_mem]
      split
      · rw [State.beginReset_mem, State.setLeaf_mem]
      · split
        · rw [State.settleLeaf_mem, State.advanceLeaf_mem, State.setLeaf_mem]
        · rw [State.setLeaf_mem]
    · rfl
@[simp] theorem State.atomIssue_mem (s : State) (op : Nat) (v : BitVec 7) (p : BitVec 6) (x : BitVec 7) (r : BitVec 1) : (State.atomIssue s op v p x r).mem = s.mem := by
  unfold State.atomIssue
  repeat'
    first
    | with_reducible rfl
    | assumption
    | (with_reducible apply Eq.trans (foldl_mem _ _ _ ?_))
    | (with_reducible apply Eq.trans (foldl1_mem _ _ _ ?_))
    | (with_reducible apply Eq.trans (foldl2_mem _ _ _ ?_))
    | (with_reducible apply State.checkV_mem)
    | (with_reducible apply State.checkRun_mem)
    | (intro _)
    | (dsimp only)
    | (simp only [*])
    | (simp [*])
    | split
@[simp] theorem State.fadddIssue_mem (s : State) (v : BitVec 7) (p : BitVec 6) (x : BitVec 7) : (State.fadddIssue s v p x).mem = s.mem := by
  unfold State.fadddIssue
  repeat'
    first
    | with_reducible rfl
    | assumption
    | (with_reducible apply Eq.trans (foldl_mem _ _ _ ?_))
    | (with_reducible apply Eq.trans (foldl1_mem _ _ _ ?_))
    | (with_reducible apply Eq.trans (foldl2_mem _ _ _ ?_))
    | (with_reducible apply State.checkV_mem)
    | (with_reducible apply State.checkRun_mem)
    | (intro _)
    | (dsimp only)
    | (simp only [*])
    | (simp [*])
    | split
@[simp] theorem State.awake_mem (s : State) : (State.awake s).mem = s.mem := by
  unfold State.awake
  repeat'
    first
    | with_reducible rfl
    | assumption
    | (with_reducible apply Eq.trans (foldl_mem _ _ _ ?_))
    | (with_reducible apply Eq.trans (foldl1_mem _ _ _ ?_))
    | (with_reducible apply Eq.trans (foldl2_mem _ _ _ ?_))
    | (intro _)
    | (dsimp only)
    | (simp only [*])
    | (simp [*])
    | split
@[simp] theorem State.goto'_mem (s : State) (target : DWord) (reg : Bool) (before : State → State) (h_before : ∀ t, (before t).mem = t.mem) : (State.goto' s target reg before).mem = s.mem := by
  unfold State.goto'
  repeat'
    first
    | with_reducible rfl
    | assumption
    | (with_reducible apply Eq.trans (foldl_mem _ _ _ ?_))
    | (with_reducible apply Eq.trans (foldl1_mem _ _ _ ?_))
    | (with_reducible apply Eq.trans (foldl2_mem _ _ _ ?_))
    | (with_reducible apply State.checkV_mem)
    | (with_reducible apply State.checkRun_mem)
    | (intro _)
    | (dsimp only)
    | (simp only [*])
    | (simp [*])
    | split
@[simp] theorem State.fallThrough_mem (s : State) : (State.fallThrough s).mem = s.mem := by
  simp [State.fallThrough]
@[simp] theorem State.branch_mem (s : State) (o : BitVec 16) (taken : Bool) : (State.branch s o taken).mem = s.mem := by
  unfold State.branch
  repeat' split
  all_goals simp
@[simp] theorem State.link_mem (s : State) : (State.link s).mem = s.mem := by
  simp [State.link]
@[simp] theorem State.pushRecord_mem (s : State) (ws : List Word) : (State.pushRecord s ws).mem = s.mem := by
  simp [State.pushRecord]
@[simp] theorem State.popRecord_mem (s : State) (k : Nat) : (State.popRecord s k).mem = s.mem := by
  unfold State.popRecord
  repeat' split
  all_goals simp
@[simp] theorem State.popRecords_mem (s : State) : (State.popRecords s).mem = s.mem := by
  unfold State.popRecords
  repeat'
    first
    | with_reducible rfl
    | assumption
    | (with_reducible apply Eq.trans (foldl_mem _ _ _ ?_))
    | (with_reducible apply Eq.trans (foldl1_mem _ _ _ ?_))
    | (with_reducible apply Eq.trans (foldl2_mem _ _ _ ?_))
    | (with_reducible apply State.checkV_mem)
    | (with_reducible apply State.checkRun_mem)
    | (intro _)
    | (dsimp only)
    | (simp only [*])
    | (simp [*])
    | split
@[simp] theorem State.split_mem (s : State) (tkn : Mask) (target join : DWord) (awaited : List Nat) : (State.split s tkn target join awaited).mem = s.mem := by
  unfold State.split
  repeat'
    first
    | with_reducible rfl
    | assumption
    | (with_reducible apply Eq.trans (foldl_mem _ _ _ ?_))
    | (with_reducible apply Eq.trans (foldl1_mem _ _ _ ?_))
    | (with_reducible apply Eq.trans (foldl2_mem _ _ _ ?_))
    | (with_reducible apply State.checkV_mem)
    | (with_reducible apply State.checkRun_mem)
    | (intro _)
    | (dsimp only)
    | (simp only [*])
    | (simp [*])
    | split
@[simp] theorem State.endOfRun_mem (s : State) (codes : List (BitVec 7)) : (State.endOfRun s codes).mem = s.mem := by
  unfold State.endOfRun
  repeat'
    first
    | with_reducible rfl
    | assumption
    | (with_reducible apply Eq.trans (foldl_mem _ _ _ ?_))
    | (with_reducible apply Eq.trans (foldl1_mem _ _ _ ?_))
    | (with_reducible apply Eq.trans (foldl2_mem _ _ _ ?_))
    | (with_reducible apply State.checkV_mem)
    | (with_reducible apply State.checkRun_mem)
    | (intro _)
    | (dsimp only)
    | (simp only [*])
    | (simp [*])
    | split
@[simp] theorem State.setSpecial_mem (s : State) (i : Nat) (v : DWord) : (State.setSpecial s i v).mem = s.mem := by
  unfold State.setSpecial
  repeat'
    first
    | with_reducible rfl
    | assumption
    | (with_reducible apply Eq.trans (foldl_mem _ _ _ ?_))
    | (with_reducible apply Eq.trans (foldl1_mem _ _ _ ?_))
    | (with_reducible apply Eq.trans (foldl2_mem _ _ _ ?_))
    | (with_reducible apply State.checkV_mem)
    | (with_reducible apply State.checkRun_mem)
    | (intro _)
    | (dsimp only)
    | (simp only [*])
    | (simp [*])
    | split
@[simp] theorem State.pushHub_mem (s : State) (k : HubKind) : (State.pushHub s k).mem = s.mem := by
  simp [State.pushHub]
@[simp] theorem State.savePly_mem (s : State) (p : Ply) (live : Nat) (atWait gated : Bool) : (State.savePly s p live atWait gated).mem = s.mem := by
  unfold State.savePly
  repeat'
    first
    | with_reducible rfl
    | assumption
    | (with_reducible apply Eq.trans (foldl_mem _ _ _ ?_))
    | (with_reducible apply Eq.trans (foldl1_mem _ _ _ ?_))
    | (with_reducible apply Eq.trans (foldl2_mem _ _ _ ?_))
    | (with_reducible apply State.checkV_mem)
    | (with_reducible apply State.checkRun_mem)
    | (with_reducible apply State.checkMma_mem)
    | (intro _)
    | (dsimp only)
    | (simp only [*])
    | (simp [*])
    | split
@[simp] theorem State.saveAtWait_mem (s : State) : (State.saveAtWait s).mem = s.mem := by
  simp [State.saveAtWait]
@[simp] theorem State.beginWait_mem (s : State) (w : Wait) (before : State → State) (h_before : ∀ t, (before t).mem = t.mem) : (State.beginWait s w before).mem = s.mem := by
  unfold State.beginWait
  repeat'
    first
    | with_reducible rfl
    | assumption
    | (with_reducible apply Eq.trans (foldl_mem _ _ _ ?_))
    | (with_reducible apply Eq.trans (foldl1_mem _ _ _ ?_))
    | (with_reducible apply Eq.trans (foldl2_mem _ _ _ ?_))
    | (with_reducible apply State.checkV_mem)
    | (with_reducible apply State.checkRun_mem)
    | (with_reducible apply State.checkMma_mem)
    | (intro _)
    | (dsimp only)
    | (simp only [*])
    | (simp [*])
    | split
@[simp] theorem State.loadContext_mem (s : State) (rs : List (Nat × List Byte)) : (State.loadContext s rs).mem = s.mem := by
  unfold State.loadContext
  repeat'
    first
    | with_reducible rfl
    | assumption
    | (with_reducible apply Eq.trans (foldl_mem _ _ _ ?_))
    | (with_reducible apply Eq.trans (foldl1_mem _ _ _ ?_))
    | (with_reducible apply Eq.trans (foldl2_mem _ _ _ ?_))
    | (with_reducible apply State.checkV_mem)
    | (with_reducible apply State.checkRun_mem)
    | (with_reducible apply State.checkMma_mem)
    | (intro _)
    | (dsimp only)
    | (simp only [*])
    | (simp [*])
    | split
@[simp] theorem State.leaveMtx_mem (s : State) (core seq : Nat) : (State.leaveMtx s core seq).mem = s.mem := by
  simp [State.leaveMtx]
@[simp] theorem State.runMma_mem (s : State) (p : Ply) (o : MtxOp) (planes : Option Nat) (fa fb : Nat) (z int : Bool) (a b : Operand) (user : Bool) (start : Nat × Nat) : (State.runMma s p o planes fa fb z int a b user start).mem = s.mem := by
  unfold State.runMma
  extract_lets r0 nb pa pb r s1 s2 rpr s3 waits
  have h : s3.mem = s.mem := by
    simp only [s3, s2, s1]
    rw [State.modAny_mem, State.leaveMtx_mem, State.takeLeases_mem, State.fillTlb_mem]
  clear_value s3 r
  split
  · split
    · exact (State.raiseWaiting_mem ..).trans h
    · exact h
  · exact (State.endByFault_mem ..).trans h
  · split
    · exact (State.modPly_mem ..).trans h
    · exact h
@[simp] theorem State.runMtx_mem (s : State) (core : Nat) : (State.runMtx s core).mem = s.mem := by
  unfold State.runMtx
  repeat' split
  all_goals simp
@[simp] theorem State.queueMtx_mem (s : State) (n tile : Nat) (k : MtxKind) : (State.queueMtx s n tile k).mem = s.mem := by
  simp [State.queueMtx]
@[simp] theorem State.checkMma_mem (s : State) (tile : Nat) (k : State) (hk : k.mem = s.mem) : (State.checkMma s tile k).mem = s.mem := by
  unfold State.checkMma
  repeat'
    first
    | with_reducible rfl
    | assumption
    | (with_reducible apply Eq.trans (foldl_mem _ _ _ ?_))
    | (with_reducible apply Eq.trans (foldl1_mem _ _ _ ?_))
    | (with_reducible apply Eq.trans (foldl2_mem _ _ _ ?_))
    | (with_reducible apply State.checkV_mem)
    | (with_reducible apply State.checkRun_mem)
    | (intro _)
    | (dsimp only)
    | (simp only [*])
    | (simp [*])
    | split
@[simp] theorem State.mmaIssue_mem (s : State) (t : BitVec 3) (planes : Option Nat) (fa fb : Nat) (g h : BitVec 6) (z : BitVec 1) : (State.mmaIssue s t planes fa fb g h z).mem = s.mem := by
  unfold State.mmaIssue
  repeat'
    first
    | with_reducible rfl
    | assumption
    | (with_reducible apply Eq.trans (foldl_mem _ _ _ ?_))
    | (with_reducible apply Eq.trans (foldl1_mem _ _ _ ?_))
    | (with_reducible apply Eq.trans (foldl2_mem _ _ _ ?_))
    | (with_reducible apply State.checkV_mem)
    | (with_reducible apply State.checkRun_mem)
    | (with_reducible apply State.checkMma_mem)
    | (intro _)
    | (dsimp only)
    | (simp only [*])
    | (simp [*])
    | split
@[simp] theorem State.mtxIssue_mem (s : State) (t : BitVec 3) (k : MtxKind) : (State.mtxIssue s t k).mem = s.mem := by
  simp [State.mtxIssue]
@[simp] theorem State.checkSlice_mem (s : State) (t : BitVec 3) (v : Nat) (k : State) (hk : k.mem = s.mem) : (State.checkSlice s t v k).mem = s.mem := by
  unfold State.checkSlice
  repeat'
    first
    | with_reducible rfl
    | assumption
    | (with_reducible apply Eq.trans (foldl_mem _ _ _ ?_))
    | (with_reducible apply Eq.trans (foldl1_mem _ _ _ ?_))
    | (with_reducible apply Eq.trans (foldl2_mem _ _ _ ?_))
    | (with_reducible apply State.checkV_mem)
    | (with_reducible apply State.checkRun_mem)
    | (with_reducible apply State.checkMma_mem)
    | (intro _)
    | (dsimp only)
    | (simp only [*])
    | (simp [*])
    | split
@[simp] theorem State.mcvstIssue_mem (s : State) (t : BitVec 3) (fmt : Nat) (i32 sat : Bool) (g : BitVec 6) : (State.mcvstIssue s t fmt i32 sat g).mem = s.mem := by
  unfold State.mcvstIssue
  repeat'
    first
    | with_reducible rfl
    | assumption
    | (with_reducible apply Eq.trans (foldl_mem _ _ _ ?_))
    | (with_reducible apply Eq.trans (foldl1_mem _ _ _ ?_))
    | (with_reducible apply Eq.trans (foldl2_mem _ _ _ ?_))
    | (with_reducible apply State.checkV_mem)
    | (with_reducible apply State.checkRun_mem)
    | (with_reducible apply State.checkMma_mem)
    | (intro _)
    | (dsimp only)
    | (simp only [*])
    | (simp [*])
    | split
@[simp] theorem State.killHere_mem (s : State) (lost k : State → State) (h_lost : ∀ t, (lost t).mem = t.mem) (h_k : ∀ t, (k t).mem = t.mem) : (State.killHere s lost k).mem = s.mem := by
  unfold State.killHere
  repeat'
    first
    | with_reducible rfl
    | assumption
    | (with_reducible apply Eq.trans (foldl_mem _ _ _ ?_))
    | (with_reducible apply Eq.trans (foldl1_mem _ _ _ ?_))
    | (with_reducible apply Eq.trans (foldl2_mem _ _ _ ?_))
    | (with_reducible apply State.checkV_mem)
    | (with_reducible apply State.checkRun_mem)
    | (with_reducible apply State.checkMma_mem)
    | (intro _)
    | (dsimp only)
    | (simp only [*])
    | (simp [*])
    | split
@[simp] theorem State.countOp_mem (s : State) (cls : Nat) (scopes : List (BitVec 24)) : (State.countOp s cls scopes).2.mem = s.mem := by
  simp [State.countOp]
@[simp] theorem State.creditUnwritten_mem (s : State) (o : CopyOp) : (State.creditUnwritten s o).mem = s.mem := by
  unfold State.creditUnwritten
  split
  · exact foldl_mem _ _ _ fun s x => State.creditLeaf_mem ..
  · rfl
@[simp] theorem State.creditRest_mem (s : State) (o : FabricOp) : (State.creditRest s o).mem = s.mem := by
  unfold State.creditRest
  repeat'
    first
    | with_reducible rfl
    | assumption
    | (with_reducible apply Eq.trans (foldl_mem _ _ _ ?_))
    | (with_reducible apply Eq.trans (foldl1_mem _ _ _ ?_))
    | (with_reducible apply Eq.trans (foldl2_mem _ _ _ ?_))
    | (intro _)
    | (dsimp only)
    | (simp only [*])
    | (simp [*])
    | split
@[simp] theorem State.retireOp_mem (s : State) (uid cls : Nat) : (State.retireOp s uid cls).mem = s.mem := by
  unfold State.retireOp
  split
  · rfl
  · split
    · extract_lets left gets s1 s2 s3
      have h : s3.mem = s.mem := by
        simp only [s3]
        exact Eq.trans (foldl_mem _ _ _ fun s x => State.creditRest_mem ..)
          (Eq.trans (foldl_mem _ _ _ fun s x => State.creditUnwritten_mem ..) (State.modAny_mem ..))
      split
      · rw [State.faultRecord_mem, h]
      · exact h
    · rfl
@[simp] theorem State.foundCounter_mem (s : State) (cls : Nat) (k : State → State) (h_k : ∀ t, (k t).mem = t.mem) : (State.foundCounter s cls k).mem = s.mem := by
  unfold State.foundCounter
  repeat'
    first
    | with_reducible rfl
    | assumption
    | (with_reducible apply Eq.trans (foldl_mem _ _ _ ?_))
    | (with_reducible apply Eq.trans (foldl1_mem _ _ _ ?_))
    | (with_reducible apply Eq.trans (foldl2_mem _ _ _ ?_))
    | (with_reducible apply State.checkV_mem)
    | (with_reducible apply State.checkRun_mem)
    | (with_reducible apply State.checkMma_mem)
    | (intro _)
    | (dsimp only)
    | (simp only [*])
    | (simp [*])
    | split
@[simp] theorem State.returnWaitc_mem (s : State) (uid : Nat) : (State.returnWaitc s uid).mem = s.mem := by
  unfold State.returnWaitc
  repeat' split
  all_goals simp
@[simp] theorem State.writeShape_mem (s : State) (tenant slot : Nat) (r : Shape) : (State.writeShape s tenant slot r).2.mem = s.mem := by
  simp [State.writeShape]
@[simp] theorem State.releaseShape_mem (s : State) (tenant : Nat) (h : Word) : (State.releaseShape s tenant h).mem = s.mem := by
  unfold State.releaseShape
  repeat' split
  all_goals simp
@[simp] theorem State.writeUnits_mem (s : State) (o : EngineOp) (core tenant policy : Nat) (scope : List (BitVec 24)) (us : List UnitRead) : (State.writeUnits s o core tenant policy scope us).2.mem = s.mem := by
  unfold State.writeUnits
  repeat'
    first
    | with_reducible rfl
    | assumption
    | (with_reducible apply Eq.trans (foldl_mem _ _ _ ?_))
    | (with_reducible apply Eq.trans (foldl1_mem _ _ _ ?_))
    | (with_reducible apply Eq.trans (foldl2_mem _ _ _ ?_))
    | (with_reducible apply State.checkV_mem)
    | (with_reducible apply State.checkRun_mem)
    | (with_reducible apply State.checkMma_mem)
    | (intro _)
    | (dsimp only)
    | (simp only [*])
    | (simp [*])
    | split
@[simp] theorem State.modCopy_mem (s : State) (core seq : Nat) (f : CopyOp → CopyOp) : (State.modCopy s core seq f).mem = s.mem := by
  simp [State.modCopy]
@[simp] theorem State.runLcp_mem (s : State) (p : Ply) (o : CopyOp) (n : Nat) (ls : List LaneCopy) (policy : Nat) : (State.runLcp s p o n ls policy).mem = s.mem := by
  unfold State.runLcp
  repeat'
    first
    | with_reducible rfl
    | assumption
    | (with_reducible apply Eq.trans (foldl_mem _ _ _ ?_))
    | (with_reducible apply Eq.trans (foldl1_mem _ _ _ ?_))
    | (with_reducible apply Eq.trans (foldl2_mem _ _ _ ?_))
    | (with_reducible apply State.checkV_mem)
    | (with_reducible apply State.checkRun_mem)
    | (with_reducible apply State.checkMma_mem)
    | (intro _)
    | (dsimp only)
    | (simp only [*])
    | (simp [*])
    | split
@[simp] theorem State.noteFailure_mem (s : State) (seq : Nat) (f : Failure) : (State.noteFailure s seq f).mem = s.mem := rfl
@[simp] theorem State.runTcopy_mem (s : State) (p : Ply) (o : CopyOp) : (State.runTcopy s p o).mem = s.mem := by
  unfold State.runTcopy
  extract_lets us rs rs' stuck fault bad whole keep kept s1 s2 since
  have h : (s2.writeUnits o.engine p.core p.tenant 0 [o.scope] kept).2.mem = s.mem := by
    rw [State.writeUnits_mem]
    exact (State.takeLeases_mem ..).trans (State.fillTlb_mem ..)
  generalize s2.writeUnits o.engine p.core p.tenant 0 [o.scope] kept = w at h
  clear_value kept keep whole
  clear_value bad fault
  dsimp only
  rcases bad with _ | ⟨va, pa⟩
  · rcases fault with _ | c
    · exact (State.modCopy_mem ..).trans h
    · dsimp only
      split
      · exact (State.modCopy_mem ..).trans h
      · exact (State.noteFailure_mem ..).trans ((State.modCopy_mem ..).trans h)
  · exact (State.endByFault_mem ..).trans ((State.modCopy_mem ..).trans h)
@[simp] theorem State.payOwed_mem (s : State) (core : Nat) (o : CopyOp) : (State.payOwed s core o).mem = s.mem := by
  unfold State.payOwed
  repeat'
    first
    | with_reducible rfl
    | assumption
    | (with_reducible apply Eq.trans (foldl_mem _ _ _ ?_))
    | (with_reducible apply Eq.trans (foldl1_mem _ _ _ ?_))
    | (with_reducible apply Eq.trans (foldl2_mem _ _ _ ?_))
    | (intro _)
    | (dsimp only)
    | (simp only [*])
    | (simp [*])
    | split
@[simp] theorem State.runCopy_mem (s : State) (core seq : Nat) : (State.runCopy s core seq).mem = s.mem := by
  unfold State.runCopy
  repeat' split
  all_goals simp
@[simp] theorem State.queueCopy_mem (s : State) (cls lane : Nat) (scope : BitVec 24) (scopes : List (BitVec 24)) (k : CopyKind) : (State.queueCopy s cls lane scope scopes k).mem = s.mem := by
  simp [State.queueCopy]
@[simp] theorem State.tcopyIssue_mem (s : State) (g : BitVec 6) (x : Bool) : (State.tcopyIssue s g x).mem = s.mem := by
  unfold State.tcopyIssue
  repeat'
    first
    | with_reducible rfl
    | assumption
    | (with_reducible apply Eq.trans (foldl_mem _ _ _ ?_))
    | (with_reducible apply Eq.trans (foldl1_mem _ _ _ ?_))
    | (with_reducible apply Eq.trans (foldl2_mem _ _ _ ?_))
    | (with_reducible apply State.checkV_mem)
    | (with_reducible apply State.checkRun_mem)
    | (with_reducible apply State.checkMma_mem)
    | (intro _)
    | (dsimp only)
    | (simp only [*])
    | (simp [*])
    | split
@[simp] theorem State.requestVoltage_mem (s : State) : (State.requestVoltage s).mem = s.mem := by
  unfold State.requestVoltage
  repeat'
    first
    | with_reducible rfl
    | assumption
    | (with_reducible apply Eq.trans (foldl_mem _ _ _ ?_))
    | (with_reducible apply Eq.trans (foldl1_mem _ _ _ ?_))
    | (with_reducible apply Eq.trans (foldl2_mem _ _ _ ?_))
    | (intro _)
    | (dsimp only)
    | (simp only [*])
    | (simp [*])
    | split
@[simp] theorem State.requestStep_mem (s : State) (cluster : Nat) : (State.requestStep s cluster).mem = s.mem := by
  simp [State.requestStep]
@[simp] theorem State.rotate_mem (s : State) (vault : Nat) : (State.rotate s vault).mem = s.mem := by
  unfold State.rotate
  repeat'
    first
    | with_reducible rfl
    | assumption
    | (with_reducible apply Eq.trans (foldl_mem _ _ _ ?_))
    | (with_reducible apply Eq.trans (foldl1_mem _ _ _ ?_))
    | (with_reducible apply Eq.trans (foldl2_mem _ _ _ ?_))
    | (with_reducible apply State.checkV_mem)
    | (with_reducible apply State.checkRun_mem)
    | (with_reducible apply State.checkMma_mem)
    | (intro _)
    | (dsimp only)
    | (simp only [*])
    | (simp [*])
    | split
@[simp] theorem State.readSensor_mem (s : State) (vault : Nat) (temp : BitVec 16) : (State.readSensor s vault temp).mem = s.mem := by
  unfold State.readSensor
  repeat'
    first
    | with_reducible rfl
    | assumption
    | (with_reducible apply Eq.trans (foldl_mem _ _ _ ?_))
    | (with_reducible apply Eq.trans (foldl1_mem _ _ _ ?_))
    | (with_reducible apply Eq.trans (foldl2_mem _ _ _ ?_))
    | (with_reducible apply State.checkV_mem)
    | (with_reducible apply State.checkRun_mem)
    | (with_reducible apply State.checkMma_mem)
    | (intro _)
    | (dsimp only)
    | (simp only [*])
    | (simp [*])
    | split
@[simp] theorem State.faultScopes_mem (s : State) (tenant : Nat) (scopes : List (BitVec 24)) (w : Word) : (State.faultScopes s tenant scopes w).mem = s.mem := by
  unfold State.faultScopes
  repeat'
    first
    | with_reducible rfl
    | assumption
    | (with_reducible apply Eq.trans (foldl_mem _ _ _ ?_))
    | (with_reducible apply Eq.trans (foldl1_mem _ _ _ ?_))
    | (with_reducible apply Eq.trans (foldl2_mem _ _ _ ?_))
    | (with_reducible apply State.checkV_mem)
    | (with_reducible apply State.checkRun_mem)
    | (with_reducible apply State.checkMma_mem)
    | (intro _)
    | (dsimp only)
    | (simp only [*])
    | (simp [*])
    | split
@[simp] theorem State.dropLeaf_mem (s : State) (core leaf : Nat) : (State.dropLeaf s core leaf).mem = s.mem := by
  simp [State.dropLeaf]
@[simp] theorem State.strike_mem (s : State) (site : ErrorSite) : (State.strike s site).mem = s.mem := by
  unfold State.strike
  repeat'
    first
    | with_reducible rfl
    | assumption
    | (with_reducible apply Eq.trans (foldl_mem _ _ _ ?_))
    | (with_reducible apply Eq.trans (foldl1_mem _ _ _ ?_))
    | (with_reducible apply Eq.trans (foldl2_mem _ _ _ ?_))
    | (with_reducible apply State.checkV_mem)
    | (with_reducible apply State.checkRun_mem)
    | (with_reducible apply State.checkMma_mem)
    | (intro _)
    | (dsimp only)
    | (simp only [*])
    | (simp [*])
    | split
@[simp] theorem State.checkEntry_mem (s : State) (entry : DWord) (k : State) (hk : k.mem = s.mem) : (State.checkEntry s entry k).mem = s.mem := by
  unfold State.checkEntry
  repeat'
    first
    | with_reducible rfl
    | assumption
    | (with_reducible apply Eq.trans (foldl_mem _ _ _ ?_))
    | (with_reducible apply Eq.trans (foldl1_mem _ _ _ ?_))
    | (with_reducible apply Eq.trans (foldl2_mem _ _ _ ?_))
    | (with_reducible apply State.checkV_mem)
    | (with_reducible apply State.checkRun_mem)
    | (with_reducible apply State.checkMma_mem)
    | (intro _)
    | (dsimp only)
    | (simp only [*])
    | (simp [*])
    | split
@[simp] theorem State.keepHeader_mem (s : State) (core : Nat) (entry : DWord) (h : Header) : (State.keepHeader s core entry h).mem = s.mem := by
  simp [State.keepHeader]
@[simp] theorem State.formPly_mem (s : State) (t : Start) (block : Option (List Byte)) : (State.formPly s t block).2.mem = s.mem := by
  unfold State.formPly
  repeat'
    first
    | with_reducible rfl
    | assumption
    | (with_reducible apply Eq.trans (foldl_mem _ _ _ ?_))
    | (with_reducible apply Eq.trans (foldl1_mem _ _ _ ?_))
    | (with_reducible apply Eq.trans (foldl2_mem _ _ _ ?_))
    | (with_reducible apply State.checkV_mem)
    | (with_reducible apply State.checkRun_mem)
    | (with_reducible apply State.checkMma_mem)
    | (intro _)
    | (dsimp only)
    | (simp only [*])
    | (simp [*])
    | split
@[simp] theorem State.refuseTask_mem (s : State) (core : Nat) (t : Task) : (State.refuseTask s core t).mem = s.mem := by
  simp [State.refuseTask]
@[simp] theorem State.overflowUnit_mem (s : State) (core : Nat) (ts : List Task) : (State.overflowUnit s core ts).mem = s.mem := by
  unfold State.overflowUnit
  repeat'
    first
    | with_reducible rfl
    | assumption
    | (with_reducible apply Eq.trans (foldl_mem _ _ _ ?_))
    | (with_reducible apply Eq.trans (foldl1_mem _ _ _ ?_))
    | (with_reducible apply Eq.trans (foldl2_mem _ _ _ ?_))
    | (intro _)
    | (dsimp only)
    | (simp only [*])
    | (simp [*])
    | split
@[simp] theorem State.storeUnit_mem (s : State) (core : Nat) (ts : List Task) : (State.storeUnit s core ts).mem = s.mem := by
  unfold State.storeUnit
  repeat'
    first
    | with_reducible rfl
    | assumption
    | (with_reducible apply Eq.trans (foldl_mem _ _ _ ?_))
    | (with_reducible apply Eq.trans (foldl1_mem _ _ _ ?_))
    | (with_reducible apply Eq.trans (foldl2_mem _ _ _ ?_))
    | (with_reducible apply State.checkV_mem)
    | (with_reducible apply State.checkRun_mem)
    | (with_reducible apply State.checkMma_mem)
    | (intro _)
    | (dsimp only)
    | (simp only [*])
    | (simp [*])
    | split
@[simp] theorem State.storeTask_mem (s : State) (core : Nat) (t : Task) : (State.storeTask s core t).mem = s.mem := by
  simp [State.storeTask]
@[simp] theorem State.tidyBins_mem (s : State) (core : Nat) : (State.tidyBins s core).mem = s.mem := by
  simp [State.tidyBins]
@[simp] theorem State.arriveTask_mem (s : State) (index : Nat) : (State.arriveTask s index).mem = s.mem := by
  unfold State.arriveTask
  repeat'
    first
    | with_reducible rfl
    | assumption
    | (with_reducible apply Eq.trans (foldl_mem _ _ _ ?_))
    | (with_reducible apply Eq.trans (foldl1_mem _ _ _ ?_))
    | (with_reducible apply Eq.trans (foldl2_mem _ _ _ ?_))
    | (with_reducible apply State.checkV_mem)
    | (with_reducible apply State.checkRun_mem)
    | (with_reducible apply State.checkMma_mem)
    | (intro _)
    | (dsimp only)
    | (simp only [*])
    | (simp [*])
    | split
@[simp] theorem State.setBin_mem (s : State) (core : Nat) (b : Bin) (ts : List Task) : (State.setBin s core b ts).mem = s.mem := by
  simp [State.setBin]
@[simp] theorem State.formationFault_mem (s : State) (core tenant : Nat) (entry : DWord) (ts : List Task) (w : Word) : (State.formationFault s core tenant entry ts w).mem = s.mem := by
  unfold State.formationFault
  repeat'
    first
    | with_reducible rfl
    | assumption
    | (with_reducible apply Eq.trans (foldl_mem _ _ _ ?_))
    | (with_reducible apply Eq.trans (foldl1_mem _ _ _ ?_))
    | (with_reducible apply Eq.trans (foldl2_mem _ _ _ ?_))
    | (with_reducible apply State.checkV_mem)
    | (with_reducible apply State.checkRun_mem)
    | (with_reducible apply State.checkMma_mem)
    | (intro _)
    | (dsimp only)
    | (simp only [*])
    | (simp [*])
    | split
theorem State.tryBin_mem (s : State) (core : Nat) (b : Bin) : ∀ t, s.tryBin core b = some t → t.mem = s.mem := by
  unfold State.tryBin
  dsimp only
  repeat' split
  all_goals intro t h
  all_goals first
    | cases h; done
    | (injection h with h; subst h; simp; exact (foldl_mem _ _ _ fun s x => State.discardTask_mem ..).trans (by simp))
@[simp] theorem State.spawnLanes_mem (s : State) (k : State → State) (h_k : ∀ t, (k t).mem = t.mem) : (State.spawnLanes s k).mem = s.mem := by
  unfold State.spawnLanes
  repeat'
    first
    | with_reducible rfl
    | assumption
    | (with_reducible apply Eq.trans (foldl_mem _ _ _ ?_))
    | (with_reducible apply Eq.trans (foldl1_mem _ _ _ ?_))
    | (with_reducible apply Eq.trans (foldl2_mem _ _ _ ?_))
    | (with_reducible apply State.checkV_mem)
    | (with_reducible apply State.checkRun_mem)
    | (with_reducible apply State.checkMma_mem)
    | (intro _)
    | (dsimp only)
    | (simp only [*])
    | (simp [*])
    | split
@[simp] theorem State.spawnEach_mem (s : State) (entry : DWord) (a : BitVec 7) (scope place : Nat → Word) : (State.spawnEach s entry a scope place).mem = s.mem := by
  unfold State.spawnEach
  repeat'
    first
    | with_reducible rfl
    | assumption
    | (with_reducible apply Eq.trans (foldl_mem _ _ _ ?_))
    | (with_reducible apply Eq.trans (foldl1_mem _ _ _ ?_))
    | (with_reducible apply Eq.trans (foldl2_mem _ _ _ ?_))
    | (with_reducible apply State.checkV_mem)
    | (with_reducible apply State.checkRun_mem)
    | (with_reducible apply State.checkMma_mem)
    | (intro _)
    | (dsimp only)
    | (simp only [*])
    | (simp [*])
    | split
@[simp] theorem State.returnSpawnr_mem (s : State) (uid : Nat) : (State.returnSpawnr s uid).mem = s.mem := by
  unfold State.returnSpawnr
  repeat'
    first
    | with_reducible rfl
    | assumption
    | (with_reducible apply Eq.trans (foldl_mem _ _ _ ?_))
    | (with_reducible apply Eq.trans (foldl1_mem _ _ _ ?_))
    | (with_reducible apply Eq.trans (foldl2_mem _ _ _ ?_))
    | (with_reducible apply State.checkV_mem)
    | (with_reducible apply State.checkRun_mem)
    | (with_reducible apply State.checkMma_mem)
    | (intro _)
    | (dsimp only)
    | (simp only [*])
    | (simp [*])
    | split
@[simp] theorem State.registerTasks_mem (s : State) (tasks : List (Nat × Task)) : (State.registerTasks s tasks).mem = s.mem := by
  unfold State.registerTasks
  repeat'
    first
    | with_reducible rfl
    | assumption
    | (with_reducible apply Eq.trans (foldl_mem _ _ _ ?_))
    | (with_reducible apply Eq.trans (foldl1_mem _ _ _ ?_))
    | (with_reducible apply Eq.trans (foldl2_mem _ _ _ ?_))
    | (with_reducible apply State.checkV_mem)
    | (with_reducible apply State.checkRun_mem)
    | (with_reducible apply State.checkMma_mem)
    | (intro _)
    | (dsimp only)
    | (simp only [*])
    | (simp [*])
    | split
@[simp] theorem State.grantClaim_mem (s : State) (uid : Nat) : (State.grantClaim s uid).mem = s.mem := by
  unfold State.grantClaim
  repeat'
    first
    | with_reducible rfl
    | assumption
    | (with_reducible apply Eq.trans (foldl_mem _ _ _ ?_))
    | (with_reducible apply Eq.trans (foldl1_mem _ _ _ ?_))
    | (with_reducible apply Eq.trans (foldl2_mem _ _ _ ?_))
    | (with_reducible apply State.checkV_mem)
    | (with_reducible apply State.checkRun_mem)
    | (with_reducible apply State.checkMma_mem)
    | (intro _)
    | (dsimp only)
    | (simp only [*])
    | (simp [*])
    | split
@[simp] theorem State.failClaim_mem (s : State) (core : Nat) : (State.failClaim s core).mem = s.mem := by
  unfold State.failClaim
  repeat'
    first
    | with_reducible rfl
    | assumption
    | (with_reducible apply Eq.trans (foldl_mem _ _ _ ?_))
    | (with_reducible apply Eq.trans (foldl1_mem _ _ _ ?_))
    | (with_reducible apply Eq.trans (foldl2_mem _ _ _ ?_))
    | (with_reducible apply State.checkV_mem)
    | (with_reducible apply State.checkRun_mem)
    | (with_reducible apply State.checkMma_mem)
    | (intro _)
    | (dsimp only)
    | (simp only [*])
    | (simp [*])
    | split
@[simp] theorem State.yielded_mem (s : State) (deadline : BitVec 8) : (State.yielded s deadline).mem = s.mem := by
  simp [State.yielded]
@[simp] theorem State.atHub_mem (s : State) (k : HubKind) (now : State → State) (h_now : ∀ t, (now t).mem = t.mem) : (State.atHub s k now).mem = s.mem := by
  unfold State.atHub
  repeat'
    first
    | with_reducible rfl
    | assumption
    | (with_reducible apply Eq.trans (foldl_mem _ _ _ ?_))
    | (with_reducible apply Eq.trans (foldl1_mem _ _ _ ?_))
    | (with_reducible apply Eq.trans (foldl2_mem _ _ _ ?_))
    | (with_reducible apply State.checkV_mem)
    | (with_reducible apply State.checkRun_mem)
    | (with_reducible apply State.checkMma_mem)
    | (intro _)
    | (dsimp only)
    | (simp only [*])
    | (simp [*])
    | split
@[simp] theorem State.returnScpst_mem (s : State) (uid : Nat) : (State.returnScpst s uid).mem = s.mem := by
  unfold State.returnScpst
  repeat'
    first
    | with_reducible rfl
    | assumption
    | (with_reducible apply Eq.trans (foldl_mem _ _ _ ?_))
    | (with_reducible apply Eq.trans (foldl1_mem _ _ _ ?_))
    | (with_reducible apply Eq.trans (foldl2_mem _ _ _ ?_))
    | (with_reducible apply State.checkV_mem)
    | (with_reducible apply State.checkRun_mem)
    | (with_reducible apply State.checkMma_mem)
    | (intro _)
    | (dsimp only)
    | (simp only [*])
    | (simp [*])
    | split
@[simp] theorem State.flushReleased_mem (s : State) (tenant : Nat) (id : BitVec 24) : (State.flushReleased s tenant id).mem = s.mem := by
  unfold State.flushReleased
  repeat'
    first
    | with_reducible rfl
    | assumption
    | (with_reducible apply Eq.trans (foldl_mem _ _ _ ?_))
    | (with_reducible apply Eq.trans (foldl1_mem _ _ _ ?_))
    | (with_reducible apply Eq.trans (foldl2_mem _ _ _ ?_))
    | (with_reducible apply State.checkV_mem)
    | (with_reducible apply State.checkRun_mem)
    | (with_reducible apply State.checkMma_mem)
    | (intro _)
    | (dsimp only)
    | (simp only [*])
    | (simp [*])
    | split
@[simp] theorem State.openScope_mem (s : State) (tenant core : Nat) (address : DWord) (parent : BitVec 24) (nowhere : Bool) : (State.openScope s tenant core address parent nowhere).2.mem = s.mem := by
  unfold State.openScope
  repeat'
    first
    | with_reducible rfl
    | assumption
    | (with_reducible apply Eq.trans (foldl_mem _ _ _ ?_))
    | (with_reducible apply Eq.trans (foldl1_mem _ _ _ ?_))
    | (with_reducible apply Eq.trans (foldl2_mem _ _ _ ?_))
    | (with_reducible apply State.checkV_mem)
    | (with_reducible apply State.checkRun_mem)
    | (with_reducible apply State.checkMma_mem)
    | (intro _)
    | (dsimp only)
    | (simp only [*])
    | (simp [*])
    | split
@[simp] theorem State.loseWait_mem (s : State) (p : Ply) : (State.loseWait s p).mem = s.mem := by
  unfold State.loseWait
  repeat'
    first
    | with_reducible rfl
    | assumption
    | (with_reducible apply Eq.trans (foldl_mem _ _ _ ?_))
    | (with_reducible apply Eq.trans (foldl1_mem _ _ _ ?_))
    | (with_reducible apply Eq.trans (foldl2_mem _ _ _ ?_))
    | (with_reducible apply State.checkV_mem)
    | (with_reducible apply State.checkRun_mem)
    | (with_reducible apply State.checkMma_mem)
    | (intro _)
    | (dsimp only)
    | (simp only [*])
    | (simp [*])
    | split
@[simp] theorem State.killWaiting_mem (s : State) (uid : Nat) : (State.killWaiting s uid).mem = s.mem := by
  unfold State.killWaiting
  repeat'
    first
    | with_reducible rfl
    | assumption
    | (with_reducible apply Eq.trans (foldl_mem _ _ _ ?_))
    | (with_reducible apply Eq.trans (foldl1_mem _ _ _ ?_))
    | (with_reducible apply Eq.trans (foldl2_mem _ _ _ ?_))
    | (with_reducible apply State.checkV_mem)
    | (with_reducible apply State.checkRun_mem)
    | (with_reducible apply State.checkMma_mem)
    | (intro _)
    | (dsimp only)
    | (simp only [*])
    | (simp [*])
    | split
@[simp] theorem State.hear_mem (s : State) (core index : Nat) : (State.hear s core index).mem = s.mem := by
  unfold State.hear
  repeat'
    first
    | with_reducible rfl
    | assumption
    | (with_reducible apply Eq.trans (foldl_mem _ _ _ ?_))
    | (with_reducible apply Eq.trans (foldl1_mem _ _ _ ?_))
    | (with_reducible apply Eq.trans (foldl2_mem _ _ _ ?_))
    | (with_reducible apply State.checkV_mem)
    | (with_reducible apply State.checkRun_mem)
    | (with_reducible apply State.checkMma_mem)
    | (intro _)
    | (dsimp only)
    | (simp only [*])
    | (simp [*])
    | split
@[simp] theorem State.releaseScope_mem (s : State) (c : Scope) (w : Word) : (State.releaseScope s c w).mem = s.mem := by
  simp [State.releaseScope]
@[simp] theorem State.notifyScope_mem (s : State) (c : Scope) : (State.notifyScope s c).mem = s.mem := by
  unfold State.notifyScope
  repeat'
    first
    | with_reducible rfl
    | assumption
    | (with_reducible apply Eq.trans (foldl_mem _ _ _ ?_))
    | (with_reducible apply Eq.trans (foldl1_mem _ _ _ ?_))
    | (with_reducible apply Eq.trans (foldl2_mem _ _ _ ?_))
    | (with_reducible apply State.checkV_mem)
    | (with_reducible apply State.checkRun_mem)
    | (with_reducible apply State.checkMma_mem)
    | (intro _)
    | (dsimp only)
    | (simp only [*])
    | (simp [*])
    | split
@[simp] theorem State.releaseWritten_mem (s : State) : (State.releaseWritten s).mem = s.mem := by
  unfold State.releaseWritten
  repeat'
    first
    | with_reducible rfl
    | assumption
    | (with_reducible apply Eq.trans (foldl_mem _ _ _ ?_))
    | (with_reducible apply Eq.trans (foldl1_mem _ _ _ ?_))
    | (with_reducible apply Eq.trans (foldl2_mem _ _ _ ?_))
    | (intro _)
    | (dsimp only)
    | (simp only [*])
    | (simp [*])
    | split
@[simp] theorem State.drainScope_mem (s : State) (tenant : Nat) (id : BitVec 24) : (State.drainScope s tenant id).mem = s.mem := by
  unfold State.drainScope
  repeat'
    first
    | with_reducible rfl
    | assumption
    | (with_reducible apply Eq.trans (foldl_mem _ _ _ ?_))
    | (with_reducible apply Eq.trans (foldl1_mem _ _ _ ?_))
    | (with_reducible apply Eq.trans (foldl2_mem _ _ _ ?_))
    | (with_reducible apply State.checkV_mem)
    | (with_reducible apply State.checkRun_mem)
    | (with_reducible apply State.checkMma_mem)
    | (intro _)
    | (dsimp only)
    | (simp only [*])
    | (simp [*])
    | split
@[simp] theorem State.sealScope_mem (s : State) (tenant : Nat) (id : BitVec 24) : (State.sealScope s tenant id).mem = s.mem := by
  unfold State.sealScope
  repeat'
    first
    | with_reducible rfl
    | assumption
    | (with_reducible apply Eq.trans (foldl_mem _ _ _ ?_))
    | (with_reducible apply Eq.trans (foldl1_mem _ _ _ ?_))
    | (with_reducible apply Eq.trans (foldl2_mem _ _ _ ?_))
    | (with_reducible apply State.checkV_mem)
    | (with_reducible apply State.checkRun_mem)
    | (with_reducible apply State.checkMma_mem)
    | (intro _)
    | (dsimp only)
    | (simp only [*])
    | (simp [*])
    | split
@[simp] theorem State.steal_mem (s : State) (thief victim : Nat) : (State.steal s thief victim).mem = s.mem := by
  unfold State.steal
  repeat'
    first
    | with_reducible rfl
    | assumption
    | (with_reducible apply Eq.trans (foldl_mem _ _ _ ?_))
    | (with_reducible apply Eq.trans (foldl1_mem _ _ _ ?_))
    | (with_reducible apply Eq.trans (foldl2_mem _ _ _ ?_))
    | (with_reducible apply State.checkV_mem)
    | (with_reducible apply State.checkRun_mem)
    | (with_reducible apply State.checkMma_mem)
    | (intro _)
    | (dsimp only)
    | (simp only [*])
    | (simp [*])
    | split
@[simp] theorem State.probe_mem (s : State) (core : Nat) : (State.probe s core).mem = s.mem := by
  unfold State.probe
  repeat'
    first
    | with_reducible rfl
    | assumption
    | (with_reducible apply Eq.trans (foldl_mem _ _ _ ?_))
    | (with_reducible apply Eq.trans (foldl1_mem _ _ _ ?_))
    | (with_reducible apply Eq.trans (foldl2_mem _ _ _ ?_))
    | (with_reducible apply State.checkV_mem)
    | (with_reducible apply State.checkRun_mem)
    | (with_reducible apply State.checkMma_mem)
    | (intro _)
    | (dsimp only)
    | (simp only [*])
    | (simp [*])
    | split
@[simp] theorem State.advanceFiring_mem (s : State) (id n running : Nat) : (State.advanceFiring s id n running).mem = s.mem := by
  unfold State.advanceFiring
  repeat'
    first
    | with_reducible rfl
    | assumption
    | (with_reducible apply Eq.trans (foldl_mem _ _ _ ?_))
    | (with_reducible apply Eq.trans (foldl1_mem _ _ _ ?_))
    | (with_reducible apply Eq.trans (foldl2_mem _ _ _ ?_))
    | (with_reducible apply State.checkV_mem)
    | (with_reducible apply State.checkRun_mem)
    | (with_reducible apply State.checkMma_mem)
    | (intro _)
    | (dsimp only)
    | (simp only [*])
    | (simp [*])
    | split
@[simp] theorem State.dropFiring_mem (s : State) (f : Firing) : (State.dropFiring s f).mem = s.mem := by
  simp [State.dropFiring]
@[simp] theorem State.faultLaunch_mem (s : State) (f : Firing) (core : Nat) (w : Word) : (State.faultLaunch s f core w).mem = s.mem := by
  simp [State.faultLaunch]
@[simp] theorem State.formMember_mem (s : State) (f : Firing) (core : Nat) (h : Header) (base sw charge m : Nat) : (State.formMember s f core h base sw charge m).mem = s.mem := by
  unfold State.formMember
  repeat'
    first
    | with_reducible rfl
    | assumption
    | (with_reducible apply Eq.trans (foldl_mem _ _ _ ?_))
    | (with_reducible apply Eq.trans (foldl1_mem _ _ _ ?_))
    | (with_reducible apply Eq.trans (foldl2_mem _ _ _ ?_))
    | (with_reducible apply State.checkV_mem)
    | (with_reducible apply State.checkRun_mem)
    | (with_reducible apply State.checkMma_mem)
    | (intro _)
    | (dsimp only)
    | (simp only [*])
    | (simp [*])
    | split
@[simp] theorem State.unmark_mem (s : State) (id : Nat) : (State.unmark s id).mem = s.mem := by
  simp [State.unmark]
@[simp] theorem State.formLaunch_mem (s : State) (f : Firing) (core : Nat) : (State.formLaunch s f core).mem = s.mem := by
  unfold State.formLaunch
  repeat'
    first
    | with_reducible rfl
    | assumption
    | (with_reducible apply Eq.trans (foldl_mem _ _ _ ?_))
    | (with_reducible apply Eq.trans (foldl1_mem _ _ _ ?_))
    | (with_reducible apply Eq.trans (foldl2_mem _ _ _ ?_))
    | (with_reducible apply State.checkV_mem)
    | (with_reducible apply State.checkRun_mem)
    | (with_reducible apply State.checkMma_mem)
    | (intro _)
    | (dsimp only)
    | (simp only [*])
    | (simp [*])
    | split
@[simp] theorem State.restore_mem (s : State) (v : Saved) (core : Nat) (checked : Bool) : (State.restore s v core checked).mem = s.mem := by
  unfold State.restore
  repeat'
    first
    | with_reducible rfl
    | assumption
    | (with_reducible apply Eq.trans (foldl_mem _ _ _ ?_))
    | (with_reducible apply Eq.trans (foldl1_mem _ _ _ ?_))
    | (with_reducible apply Eq.trans (foldl2_mem _ _ _ ?_))
    | (with_reducible apply State.checkV_mem)
    | (with_reducible apply State.checkRun_mem)
    | (with_reducible apply State.checkMma_mem)
    | (intro _)
    | (dsimp only)
    | (simp only [*])
    | (simp [*])
    | split
@[simp] theorem State.formBin_mem (s : State) (core : Nat) : (State.formBin s core).mem = s.mem := by
  unfold State.formBin
  split
  · split
    · cases h : s.tryBin core _ with
      | none => rfl
      | some t => exact State.tryBin_mem _ _ _ _ h
    · rfl
  · rfl
@[simp] theorem State.formGang_mem (s : State) (core id : Nat) : (State.formGang s core id).mem = s.mem := by
  unfold State.formGang
  repeat'
    first
    | with_reducible rfl
    | assumption
    | (with_reducible apply Eq.trans (foldl_mem _ _ _ ?_))
    | (with_reducible apply Eq.trans (foldl1_mem _ _ _ ?_))
    | (with_reducible apply Eq.trans (foldl2_mem _ _ _ ?_))
    | (with_reducible apply State.checkV_mem)
    | (with_reducible apply State.checkRun_mem)
    | (with_reducible apply State.checkMma_mem)
    | (intro _)
    | (dsimp only)
    | (simp only [*])
    | (simp [*])
    | split
@[simp] theorem State.restoreNext_mem (s : State) (core index : Nat) : (State.restoreNext s core index).mem = s.mem := by
  unfold State.restoreNext
  repeat'
    first
    | with_reducible rfl
    | assumption
    | (with_reducible apply Eq.trans (foldl_mem _ _ _ ?_))
    | (with_reducible apply Eq.trans (foldl1_mem _ _ _ ?_))
    | (with_reducible apply Eq.trans (foldl2_mem _ _ _ ?_))
    | (with_reducible apply State.checkV_mem)
    | (with_reducible apply State.checkRun_mem)
    | (with_reducible apply State.checkMma_mem)
    | (intro _)
    | (dsimp only)
    | (simp only [*])
    | (simp [*])
    | split
@[simp] theorem State.mark_mem (s : State) (core id : Nat) : (State.mark s core id).mem = s.mem := by
  unfold State.mark
  repeat'
    first
    | with_reducible rfl
    | assumption
    | (with_reducible apply Eq.trans (foldl_mem _ _ _ ?_))
    | (with_reducible apply Eq.trans (foldl1_mem _ _ _ ?_))
    | (with_reducible apply Eq.trans (foldl2_mem _ _ _ ?_))
    | (with_reducible apply State.checkV_mem)
    | (with_reducible apply State.checkRun_mem)
    | (with_reducible apply State.checkMma_mem)
    | (intro _)
    | (dsimp only)
    | (simp only [*])
    | (simp [*])
    | split
@[simp] theorem State.modQueue_mem (s : State) (tenant k : Nat) (f : Queue → Queue) : (State.modQueue s tenant k f).mem = s.mem := by
  simp [State.modQueue]
@[simp] theorem State.launchFault_mem (s : State) (tenant detail : Nat) (pc : DWord) : (State.launchFault s tenant detail pc).mem = s.mem := by
  simp [State.launchFault]
@[simp] theorem State.checkOverrun_mem (s : State) (tenant k : Nat) : (State.checkOverrun s tenant k).mem = s.mem := by
  unfold State.checkOverrun
  repeat'
    first
    | with_reducible rfl
    | assumption
    | (with_reducible apply Eq.trans (foldl_mem _ _ _ ?_))
    | (with_reducible apply Eq.trans (foldl1_mem _ _ _ ?_))
    | (with_reducible apply Eq.trans (foldl2_mem _ _ _ ?_))
    | (with_reducible apply State.checkV_mem)
    | (with_reducible apply State.checkRun_mem)
    | (with_reducible apply State.checkMma_mem)
    | (intro _)
    | (dsimp only)
    | (simp only [*])
    | (simp [*])
    | split
@[simp] theorem State.report_mem (s : State) (tenant k : Nat) : (State.report s tenant k).mem = s.mem := by
  unfold State.report
  dsimp only
  split <;> simp
@[simp] theorem State.fire_mem (s : State) (tenant : Nat) (r : Record) (cls : Nat) (queue : Option Nat) (landing : Option DWord) (args : DWord) (time : Nat) : (State.fire s tenant r cls queue landing args time).mem = s.mem := by
  simp [State.fire]
@[simp] theorem State.fireNext_mem (s : State) (tenant k : Nat) : (State.fireNext s tenant k).mem = s.mem := by
  unfold State.fireNext
  repeat'
    first
    | with_reducible rfl
    | assumption
    | (with_reducible apply Eq.trans (foldl_mem _ _ _ ?_))
    | (with_reducible apply Eq.trans (foldl1_mem _ _ _ ?_))
    | (with_reducible apply Eq.trans (foldl2_mem _ _ _ ?_))
    | (with_reducible apply State.checkV_mem)
    | (with_reducible apply State.checkRun_mem)
    | (with_reducible apply State.checkMma_mem)
    | (intro _)
    | (dsimp only)
    | (simp only [*])
    | (simp [*])
    | split
@[simp] theorem State.rewriteQueue_mem (s : State) (tenant queue : Nat) (bytes : List Byte) : (State.rewriteQueue s tenant queue bytes).mem = s.mem := by
  simp [State.rewriteQueue]
@[simp] theorem State.queueFabric_mem (s : State) (lane : Nat) (k : FabricKind) : (State.queueFabric s lane k).mem = s.mem := by
  simp [State.queueFabric]
@[simp] theorem State.fabricIssue_mem (s : State) (g : BitVec 6) (store : Bool) (check : Except Cause FabricKind) : (State.fabricIssue s g store check).mem = s.mem := by
  unfold State.fabricIssue
  repeat'
    first
    | with_reducible rfl
    | assumption
    | (with_reducible apply Eq.trans (foldl_mem _ _ _ ?_))
    | (with_reducible apply Eq.trans (foldl1_mem _ _ _ ?_))
    | (with_reducible apply Eq.trans (foldl2_mem _ _ _ ?_))
    | (with_reducible apply State.checkV_mem)
    | (with_reducible apply State.checkRun_mem)
    | (with_reducible apply State.checkMma_mem)
    | (intro _)
    | (dsimp only)
    | (simp only [*])
    | (simp [*])
    | split
@[simp] theorem State.modFabric_mem (s : State) (seq : Nat) (f : FabricOp → FabricOp) : (State.modFabric s seq f).mem = s.mem := by
  simp [State.modFabric]
@[simp] theorem State.writeLocal_mem (s : State) (o : FabricOp) (r : LocalRange) (d : List Byte) : (State.writeLocal s o r d).2.mem = s.mem := by
  unfold State.writeLocal
  repeat'
    first
    | with_reducible rfl
    | assumption
    | (with_reducible apply Eq.trans (foldl_mem _ _ _ ?_))
    | (with_reducible apply Eq.trans (foldl1_mem _ _ _ ?_))
    | (with_reducible apply Eq.trans (foldl2_mem _ _ _ ?_))
    | (with_reducible apply State.checkV_mem)
    | (with_reducible apply State.checkRun_mem)
    | (with_reducible apply State.checkMma_mem)
    | (intro _)
    | (dsimp only)
    | (simp only [*])
    | (simp [*])
    | split
@[simp] theorem State.hubStore_mem (s : State) (tenant : Nat) (va : DWord) (d : List Byte) : (State.hubStore s tenant va d).2.mem = s.mem := by
  simp [State.hubStore]
@[simp] theorem State.failedMoves_mem (s : State) (o : FabricOp) (reason : Nat) : (State.failedMoves s o reason).mem = s.mem := by
  unfold State.failedMoves
  split
  · split
    · exact State.writeLocal_mem ..
    · split
      · split
        · exact foldl_mem _ _ _ fun s x => State.hubStore_mem ..
        · rfl
      · rfl
    · rfl
  · split
    · exact State.modFabric_mem ..
    · rfl
@[simp] theorem State.failFabric_mem (s : State) (o : FabricOp) (f : Failure) : (State.failFabric s o f).mem = s.mem := by
  unfold State.failFabric
  repeat'
    first
    | with_reducible rfl
    | assumption
    | (with_reducible apply Eq.trans (foldl_mem _ _ _ ?_))
    | (with_reducible apply Eq.trans (foldl1_mem _ _ _ ?_))
    | (with_reducible apply Eq.trans (foldl2_mem _ _ _ ?_))
    | (with_reducible apply State.checkV_mem)
    | (with_reducible apply State.checkRun_mem)
    | (with_reducible apply State.checkMma_mem)
    | (intro _)
    | (dsimp only)
    | (simp only [*])
    | (simp [*])
    | split
@[simp] theorem State.send_mem (s : State) (o : FabricOp) : (State.send s o).mem = s.mem := by
  unfold State.send
  repeat'
    first
    | with_reducible rfl
    | assumption
    | (with_reducible apply Eq.trans (foldl_mem _ _ _ ?_))
    | (with_reducible apply Eq.trans (foldl1_mem _ _ _ ?_))
    | (with_reducible apply Eq.trans (foldl2_mem _ _ _ ?_))
    | (with_reducible apply State.checkV_mem)
    | (with_reducible apply State.checkRun_mem)
    | (with_reducible apply State.checkMma_mem)
    | (intro _)
    | (dsimp only)
    | (simp only [*])
    | (simp [*])
    | split
@[simp] theorem State.answerFabric_mem (s : State) (o : FabricOp) (a : FabricAnswer) : (State.answerFabric s o a).mem = s.mem := by
  unfold State.answerFabric
  repeat'
    first
    | with_reducible rfl
    | assumption
    | (with_reducible apply Eq.trans (foldl_mem _ _ _ ?_))
    | (with_reducible apply Eq.trans (foldl1_mem _ _ _ ?_))
    | (with_reducible apply Eq.trans (foldl2_mem _ _ _ ?_))
    | (with_reducible apply State.checkV_mem)
    | (with_reducible apply State.checkRun_mem)
    | (with_reducible apply State.checkMma_mem)
    | (intro _)
    | (dsimp only)
    | (simp only [*])
    | (simp [*])
    | split
@[simp] theorem State.endFabric_mem (s : State) (o : FabricOp) : (State.endFabric s o).mem = s.mem := by
  unfold State.endFabric
  repeat'
    first
    | with_reducible rfl
    | assumption
    | (with_reducible apply Eq.trans (foldl_mem _ _ _ ?_))
    | (with_reducible apply Eq.trans (foldl1_mem _ _ _ ?_))
    | (with_reducible apply Eq.trans (foldl2_mem _ _ _ ?_))
    | (with_reducible apply State.checkV_mem)
    | (with_reducible apply State.checkRun_mem)
    | (with_reducible apply State.checkMma_mem)
    | (intro _)
    | (dsimp only)
    | (simp only [*])
    | (simp [*])
    | split
@[simp] theorem State.payFabric_mem (s : State) (o : FabricOp) : (State.payFabric s o).mem = s.mem := by
  unfold State.payFabric
  repeat'
    first
    | with_reducible rfl
    | assumption
    | (with_reducible apply Eq.trans (foldl_mem _ _ _ ?_))
    | (with_reducible apply Eq.trans (foldl1_mem _ _ _ ?_))
    | (with_reducible apply Eq.trans (foldl2_mem _ _ _ ?_))
    | (intro _)
    | (dsimp only)
    | (simp only [*])
    | (simp [*])
    | split
@[simp] theorem State.retireFabric_mem (s : State) (seq : Nat) (a : FabricAnswer) : (State.retireFabric s seq a).mem = s.mem := by
  unfold State.retireFabric
  repeat'
    first
    | with_reducible rfl
    | assumption
    | (with_reducible apply Eq.trans (foldl_mem _ _ _ ?_))
    | (with_reducible apply Eq.trans (foldl1_mem _ _ _ ?_))
    | (with_reducible apply Eq.trans (foldl2_mem _ _ _ ?_))
    | (with_reducible apply State.checkV_mem)
    | (with_reducible apply State.checkRun_mem)
    | (with_reducible apply State.checkMma_mem)
    | (intro _)
    | (dsimp only)
    | (simp only [*])
    | (simp [*])
    | split
@[simp] theorem State.timeoutFabric_mem (s : State) (seq : Nat) : (State.timeoutFabric s seq).mem = s.mem := by
  unfold State.timeoutFabric
  repeat'
    first
    | with_reducible rfl
    | assumption
    | (with_reducible apply Eq.trans (foldl_mem _ _ _ ?_))
    | (with_reducible apply Eq.trans (foldl1_mem _ _ _ ?_))
    | (with_reducible apply Eq.trans (foldl2_mem _ _ _ ?_))
    | (with_reducible apply State.checkV_mem)
    | (with_reducible apply State.checkRun_mem)
    | (with_reducible apply State.checkMma_mem)
    | (intro _)
    | (dsimp only)
    | (simp only [*])
    | (simp [*])
    | split
@[simp] theorem State.answerLoop_mem (s : State) (pick : FabricOp → Bool) (a : FabricAnswer) (due : Nat) : (State.answerLoop s pick a due).mem = s.mem := by
  unfold State.answerLoop
  repeat'
    first
    | with_reducible rfl
    | assumption
    | (with_reducible apply Eq.trans (foldl_mem _ _ _ ?_))
    | (with_reducible apply Eq.trans (foldl1_mem _ _ _ ?_))
    | (with_reducible apply Eq.trans (foldl2_mem _ _ _ ?_))
    | (with_reducible apply State.checkV_mem)
    | (with_reducible apply State.checkRun_mem)
    | (with_reducible apply State.checkMma_mem)
    | (intro _)
    | (dsimp only)
    | (simp only [*])
    | (simp [*])
    | split
@[simp] theorem State.reportRefusal_mem (s : State) (tenant source : Nat) : (State.reportRefusal s tenant source).mem = s.mem := by
  simp [State.reportRefusal]
@[simp] theorem State.remotePut_mem (s : State) (tenant source job region offset : Nat) (data : List Byte) : (State.remotePut s tenant source job region offset data).mem = s.mem := by
  unfold State.remotePut
  repeat'
    first
    | with_reducible rfl
    | assumption
    | (with_reducible apply Eq.trans (foldl_mem _ _ _ ?_))
    | (with_reducible apply Eq.trans (foldl1_mem _ _ _ ?_))
    | (with_reducible apply Eq.trans (foldl2_mem _ _ _ ?_))
    | (with_reducible apply State.checkV_mem)
    | (with_reducible apply State.checkRun_mem)
    | (with_reducible apply State.checkMma_mem)
    | (intro _)
    | (dsimp only)
    | (simp only [*])
    | (simp [*])
    | split
@[simp] theorem State.remoteGet_mem (s : State) (tenant source job region offset length : Nat) : (State.remoteGet s tenant source job region offset length).mem = s.mem := by
  unfold State.remoteGet
  repeat'
    first
    | with_reducible rfl
    | assumption
    | (with_reducible apply Eq.trans (foldl_mem _ _ _ ?_))
    | (with_reducible apply Eq.trans (foldl1_mem _ _ _ ?_))
    | (with_reducible apply Eq.trans (foldl2_mem _ _ _ ?_))
    | (with_reducible apply State.checkV_mem)
    | (with_reducible apply State.checkRun_mem)
    | (with_reducible apply State.checkMma_mem)
    | (intro _)
    | (dsimp only)
    | (simp only [*])
    | (simp [*])
    | split
@[simp] theorem State.arm_mem (s : State) (tenant : Nat) (w : List Word) : (State.arm s tenant w).2.mem = s.mem := by
  unfold State.arm
  repeat'
    first
    | with_reducible rfl
    | assumption
    | (with_reducible apply Eq.trans (foldl_mem _ _ _ ?_))
    | (with_reducible apply Eq.trans (foldl1_mem _ _ _ ?_))
    | (with_reducible apply Eq.trans (foldl2_mem _ _ _ ?_))
    | (with_reducible apply State.checkV_mem)
    | (with_reducible apply State.checkRun_mem)
    | (with_reducible apply State.checkMma_mem)
    | (intro _)
    | (dsimp only)
    | (simp only [*])
    | (simp [*])
    | split
@[simp] theorem State.disarm_mem (s : State) (tenant : Nat) (tag : DWord) : (State.disarm s tenant tag).2.mem = s.mem := by
  unfold State.disarm
  repeat'
    first
    | with_reducible rfl
    | assumption
    | (with_reducible apply Eq.trans (foldl_mem _ _ _ ?_))
    | (with_reducible apply Eq.trans (foldl1_mem _ _ _ ?_))
    | (with_reducible apply Eq.trans (foldl2_mem _ _ _ ?_))
    | (with_reducible apply State.checkV_mem)
    | (with_reducible apply State.checkRun_mem)
    | (with_reducible apply State.checkMma_mem)
    | (intro _)
    | (dsimp only)
    | (simp only [*])
    | (simp [*])
    | split
@[simp] theorem State.fireLanding_mem (s : State) (l : Landing) : (State.fireLanding s l).mem = s.mem := by
  unfold State.fireLanding
  repeat'
    first
    | with_reducible rfl
    | assumption
    | (with_reducible apply Eq.trans (foldl_mem _ _ _ ?_))
    | (with_reducible apply Eq.trans (foldl1_mem _ _ _ ?_))
    | (with_reducible apply Eq.trans (foldl2_mem _ _ _ ?_))
    | (intro _)
    | (dsimp only)
    | (simp only [*])
    | (simp [*])
    | split
@[simp] theorem State.fireLanded_mem (s : State) : (State.fireLanded s).mem = s.mem := by
  unfold State.fireLanded
  repeat'
    first
    | with_reducible rfl
    | assumption
    | (with_reducible apply Eq.trans (foldl_mem _ _ _ ?_))
    | (with_reducible apply Eq.trans (foldl1_mem _ _ _ ?_))
    | (with_reducible apply Eq.trans (foldl2_mem _ _ _ ?_))
    | (intro _)
    | (dsimp only)
    | (simp only [*])
    | (simp [*])
    | split
@[simp] theorem State.land_mem (s : State) (m : Message) : (State.land s m).mem = s.mem := by
  unfold State.land
  repeat'
    first
    | with_reducible rfl
    | assumption
    | (with_reducible apply Eq.trans (foldl_mem _ _ _ ?_))
    | (with_reducible apply Eq.trans (foldl1_mem _ _ _ ?_))
    | (with_reducible apply Eq.trans (foldl2_mem _ _ _ ?_))
    | (with_reducible apply State.checkV_mem)
    | (with_reducible apply State.checkRun_mem)
    | (with_reducible apply State.checkMma_mem)
    | (intro _)
    | (dsimp only)
    | (simp only [*])
    | (simp [*])
    | split
@[simp] theorem State.collIssue_mem (s : State) (g : BitVec 6) : (State.collIssue s g).mem = s.mem := by
  unfold State.collIssue
  repeat'
    first
    | with_reducible rfl
    | assumption
    | (with_reducible apply Eq.trans (foldl_mem _ _ _ ?_))
    | (with_reducible apply Eq.trans (foldl1_mem _ _ _ ?_))
    | (with_reducible apply Eq.trans (foldl2_mem _ _ _ ?_))
    | (with_reducible apply State.checkV_mem)
    | (with_reducible apply State.checkRun_mem)
    | (with_reducible apply State.checkMma_mem)
    | (intro _)
    | (dsimp only)
    | (simp only [*])
    | (simp [*])
    | split
@[simp] theorem State.endColl_mem (s : State) (seq : Nat) (members : List Contribution) : (State.endColl s seq members).mem = s.mem := by
  unfold State.endColl
  repeat'
    first
    | with_reducible rfl
    | assumption
    | (with_reducible apply Eq.trans (foldl_mem _ _ _ ?_))
    | (with_reducible apply Eq.trans (foldl1_mem _ _ _ ?_))
    | (with_reducible apply Eq.trans (foldl2_mem _ _ _ ?_))
    | (with_reducible apply State.checkV_mem)
    | (with_reducible apply State.checkRun_mem)
    | (with_reducible apply State.checkMma_mem)
    | (intro _)
    | (dsimp only)
    | (simp only [*])
    | (simp [*])
    | split
@[simp] theorem State.timeoutColl_mem (s : State) (seq first : Nat) : (State.timeoutColl s seq first).mem = s.mem := by
  unfold State.timeoutColl
  repeat'
    first
    | with_reducible rfl
    | assumption
    | (with_reducible apply Eq.trans (foldl_mem _ _ _ ?_))
    | (with_reducible apply Eq.trans (foldl1_mem _ _ _ ?_))
    | (with_reducible apply Eq.trans (foldl2_mem _ _ _ ?_))
    | (with_reducible apply State.checkV_mem)
    | (with_reducible apply State.checkRun_mem)
    | (with_reducible apply State.checkMma_mem)
    | (intro _)
    | (dsimp only)
    | (simp only [*])
    | (simp [*])
    | split
@[simp] theorem State.controlSlack_mem (s : State) (tenant a b : Nat) : (State.controlSlack s tenant a b).mem = s.mem := by
  unfold State.controlSlack
  repeat'
    first
    | with_reducible rfl
    | assumption
    | (with_reducible apply Eq.trans (foldl_mem _ _ _ ?_))
    | (with_reducible apply Eq.trans (foldl1_mem _ _ _ ?_))
    | (with_reducible apply Eq.trans (foldl2_mem _ _ _ ?_))
    | (with_reducible apply State.checkV_mem)
    | (with_reducible apply State.checkRun_mem)
    | (with_reducible apply State.checkMma_mem)
    | (intro _)
    | (dsimp only)
    | (simp only [*])
    | (simp [*])
    | split
@[simp] theorem State.setPushFifo_mem (s : State) (core : Nat) (l : List (Lanes × Bool)) : (State.setPushFifo s core l).mem = s.mem := by
  simp [State.setPushFifo]
@[simp] theorem State.setPopFifo_mem (s : State) (core : Nat) (l : List (Lanes × Bool)) : (State.setPopFifo s core l).mem = s.mem := by
  simp [State.setPopFifo]
@[simp] theorem State.pushEntry_mem (s : State) (core : Nat) (v : Lanes) : (State.pushEntry s core v).mem = s.mem := by
  simp [State.pushEntry]
@[simp] theorem State.popEntry_mem (s : State) (p : Ply) (v : BitVec 7) (pc : DWord) (put : State → (Ply → Ply) → State) (h_put : ∀ t x0, (put t x0).mem = t.mem) : (State.popEntry s p v pc put).mem = s.mem := by
  unfold State.popEntry
  repeat'
    first
    | with_reducible rfl
    | assumption
    | (with_reducible apply Eq.trans (foldl_mem _ _ _ ?_))
    | (with_reducible apply Eq.trans (foldl1_mem _ _ _ ?_))
    | (with_reducible apply Eq.trans (foldl2_mem _ _ _ ?_))
    | (with_reducible apply State.checkV_mem)
    | (with_reducible apply State.checkRun_mem)
    | (with_reducible apply State.checkMma_mem)
    | (intro _)
    | (dsimp only)
    | (simp only [*])
    | (simp [*])
    | split
@[simp] theorem State.resumeFifo_mem (s : State) (uid : Nat) : (State.resumeFifo s uid).mem = s.mem := by
  unfold State.resumeFifo
  repeat'
    first
    | with_reducible rfl
    | assumption
    | (with_reducible apply Eq.trans (foldl_mem _ _ _ ?_))
    | (with_reducible apply Eq.trans (foldl1_mem _ _ _ ?_))
    | (with_reducible apply Eq.trans (foldl2_mem _ _ _ ?_))
    | (with_reducible apply State.checkV_mem)
    | (with_reducible apply State.checkRun_mem)
    | (with_reducible apply State.checkMma_mem)
    | (intro _)
    | (dsimp only)
    | (simp only [*])
    | (simp [*])
    | split
@[simp] theorem State.addTab_mem (s : State) (o : EngineOp) (core at' width : Nat) (value : Int) : (State.addTab s o core at' width value).mem = s.mem := by
  simp [State.addTab]
@[simp] theorem State.deposit_mem (s : State) (core : Nat) (o : PathOp) (scope : BitVec 24) (w : Nat) (adds : List TabAdd) : (State.deposit s core o scope w adds).mem = s.mem := by
  unfold State.deposit
  repeat'
    first
    | with_reducible rfl
    | assumption
    | (with_reducible apply Eq.trans (foldl_mem _ _ _ ?_))
    | (with_reducible apply Eq.trans (foldl1_mem _ _ _ ?_))
    | (with_reducible apply Eq.trans (foldl2_mem _ _ _ ?_))
    | (with_reducible apply State.checkV_mem)
    | (with_reducible apply State.checkRun_mem)
    | (with_reducible apply State.checkMma_mem)
    | (intro _)
    | (dsimp only)
    | (simp only [*])
    | (simp [*])
    | split
@[simp] theorem State.runDeposit_mem (s : State) (core : Nat) : (State.runDeposit s core).mem = s.mem := by
  unfold State.runDeposit
  repeat'
    first
    | with_reducible rfl
    | assumption
    | (with_reducible apply Eq.trans (foldl_mem _ _ _ ?_))
    | (with_reducible apply Eq.trans (foldl1_mem _ _ _ ?_))
    | (with_reducible apply Eq.trans (foldl2_mem _ _ _ ?_))
    | (with_reducible apply State.checkV_mem)
    | (with_reducible apply State.checkRun_mem)
    | (with_reducible apply State.checkMma_mem)
    | (intro _)
    | (dsimp only)
    | (simp only [*])
    | (simp [*])
    | split
@[simp] theorem State.runPiece_mem (s : State) (index : Nat) : (State.runPiece s index).mem = s.mem := by
  unfold State.runPiece
  repeat'
    first
    | with_reducible rfl
    | assumption
    | (with_reducible apply Eq.trans (foldl_mem _ _ _ ?_))
    | (with_reducible apply Eq.trans (foldl1_mem _ _ _ ?_))
    | (with_reducible apply Eq.trans (foldl2_mem _ _ _ ?_))
    | (with_reducible apply State.checkV_mem)
    | (with_reducible apply State.checkRun_mem)
    | (with_reducible apply State.checkMma_mem)
    | (intro _)
    | (dsimp only)
    | (simp only [*])
    | (simp [*])
    | split
@[simp] theorem State.queuePath_mem (s : State) (seq : Nat) (k : PathKind) : (State.queuePath s seq k).mem = s.mem := by
  simp [State.queuePath]
@[simp] theorem State.segment_mem (s : State) (k : PathKind) (start final : Int × Int) : (State.segment s k start final).mem = s.mem := by
  unfold State.segment
  repeat'
    first
    | with_reducible rfl
    | assumption
    | (with_reducible apply Eq.trans (foldl_mem _ _ _ ?_))
    | (with_reducible apply Eq.trans (foldl1_mem _ _ _ ?_))
    | (with_reducible apply Eq.trans (foldl2_mem _ _ _ ?_))
    | (with_reducible apply State.checkV_mem)
    | (with_reducible apply State.checkRun_mem)
    | (with_reducible apply State.checkMma_mem)
    | (intro _)
    | (dsimp only)
    | (simp only [*])
    | (simp [*])
    | split
@[simp] theorem State.pushCommit_mem (s : State) (core tenant : Nat) (scope : BitVec 24) (m : Commit) : (State.pushCommit s core tenant scope m).mem = s.mem := by
  unfold State.pushCommit
  repeat'
    first
    | with_reducible rfl
    | assumption
    | (with_reducible apply Eq.trans (foldl_mem _ _ _ ?_))
    | (with_reducible apply Eq.trans (foldl1_mem _ _ _ ?_))
    | (with_reducible apply Eq.trans (foldl2_mem _ _ _ ?_))
    | (with_reducible apply State.checkV_mem)
    | (with_reducible apply State.checkRun_mem)
    | (with_reducible apply State.checkMma_mem)
    | (intro _)
    | (dsimp only)
    | (simp only [*])
    | (simp [*])
    | split
@[simp] theorem State.withTile_mem (s : State) (t : Word) (k : Nat → Nat → Nat → State) (h_k : ∀ x0 x1 x2, (k x0 x1 x2).mem = s.mem) : (State.withTile s t k).mem = s.mem := by
  unfold State.withTile
  repeat'
    first
    | with_reducible rfl
    | assumption
    | (with_reducible apply Eq.trans (foldl_mem _ _ _ ?_))
    | (with_reducible apply Eq.trans (foldl1_mem _ _ _ ?_))
    | (with_reducible apply Eq.trans (foldl2_mem _ _ _ ?_))
    | (with_reducible apply State.checkV_mem)
    | (with_reducible apply State.checkRun_mem)
    | (with_reducible apply State.checkMma_mem)
    | (intro _)
    | (dsimp only)
    | (simp only [*])
    | (simp [*])
    | split
@[simp] theorem State.withBlock_mem (s : State) (t : Word) (layer : BitVec 16) (k : TileRef → State) (h_k : ∀ x0, (k x0).mem = s.mem) : (State.withBlock s t layer k).mem = s.mem := by
  unfold State.withBlock
  split
  · apply State.withTile_mem
    intro w ty tx
    dsimp only
    split
    · exact State.raise_mem ..
    · split
      · exact State.raise_mem ..
      · exact h_k _
  · exact State.raise_mem ..
@[simp] theorem State.withSolid_mem (s : State) (k : State) (hk : k.mem = s.mem) : (State.withSolid s k).mem = s.mem := by
  unfold State.withSolid
  repeat'
    first
    | with_reducible rfl
    | assumption
    | (with_reducible apply Eq.trans (foldl_mem _ _ _ ?_))
    | (with_reducible apply Eq.trans (foldl1_mem _ _ _ ?_))
    | (with_reducible apply Eq.trans (foldl2_mem _ _ _ ?_))
    | (with_reducible apply State.checkV_mem)
    | (with_reducible apply State.checkRun_mem)
    | (with_reducible apply State.checkMma_mem)
    | (intro _)
    | (dsimp only)
    | (simp only [*])
    | (simp [*])
    | split
@[simp] theorem State.raisePathDepth_mem (s : State) (t : TileRef) : (State.raisePathDepth s t).mem = s.mem := by
  simp [State.raisePathDepth]
@[simp] theorem State.writeHeader_mem (s : State) (t : TileRef) (depth : Nat) (layer : BitVec 16) : (State.writeHeader s t depth layer).mem = s.mem := by
  unfold State.writeHeader
  repeat'
    first
    | with_reducible rfl
    | assumption
    | (with_reducible apply Eq.trans (foldl_mem _ _ _ ?_))
    | (with_reducible apply Eq.trans (foldl1_mem _ _ _ ?_))
    | (with_reducible apply Eq.trans (foldl2_mem _ _ _ ?_))
    | (with_reducible apply State.checkV_mem)
    | (with_reducible apply State.checkRun_mem)
    | (with_reducible apply State.checkMma_mem)
    | (intro _)
    | (dsimp only)
    | (simp only [*])
    | (simp [*])
    | split
@[simp] theorem State.takeEntry_mem (s : State) (t : TileRef) (kind : EntryKind) (depth : Nat) (layer : BitVec 16) (k : State → Nat → State) (h_k : ∀ t x0, (k t x0).mem = t.mem) : (State.takeEntry s t kind depth layer k).mem = s.mem := by
  unfold State.takeEntry
  repeat'
    first
    | with_reducible rfl
    | assumption
    | (with_reducible apply Eq.trans (foldl_mem _ _ _ ?_))
    | (with_reducible apply Eq.trans (foldl1_mem _ _ _ ?_))
    | (with_reducible apply Eq.trans (foldl2_mem _ _ _ ?_))
    | (with_reducible apply State.checkV_mem)
    | (with_reducible apply State.checkRun_mem)
    | (with_reducible apply State.checkMma_mem)
    | (intro _)
    | (dsimp only)
    | (simp only [*])
    | (simp [*])
    | split
@[simp] theorem State.storePaint_mem (s : State) (core tenant entry : Nat) (scope : BitVec 24) (units : List (List Task)) : (State.storePaint s core tenant entry scope units).mem = s.mem := by
  unfold State.storePaint
  repeat'
    first
    | with_reducible rfl
    | assumption
    | (with_reducible apply Eq.trans (foldl_mem _ _ _ ?_))
    | (with_reducible apply Eq.trans (foldl1_mem _ _ _ ?_))
    | (with_reducible apply Eq.trans (foldl2_mem _ _ _ ?_))
    | (with_reducible apply State.checkV_mem)
    | (with_reducible apply State.checkRun_mem)
    | (with_reducible apply State.checkMma_mem)
    | (intro _)
    | (dsimp only)
    | (simp only [*])
    | (simp [*])
    | split
@[simp] theorem State.markScanned_mem (s : State) (core entry : Nat) (plane : List Nat) : (State.markScanned s core entry plane).mem = s.mem := by
  simp [State.markScanned]
@[simp] theorem State.runScan_mem (s : State) (core : Nat) : (State.runScan s core).mem = s.mem := by
  unfold State.runScan
  repeat'
    first
    | with_reducible rfl
    | assumption
    | (with_reducible apply Eq.trans (foldl_mem _ _ _ ?_))
    | (with_reducible apply Eq.trans (foldl1_mem _ _ _ ?_))
    | (with_reducible apply Eq.trans (foldl2_mem _ _ _ ?_))
    | (with_reducible apply State.checkV_mem)
    | (with_reducible apply State.checkRun_mem)
    | (with_reducible apply State.checkMma_mem)
    | (intro _)
    | (dsimp only)
    | (simp only [*])
    | (simp [*])
    | split
@[simp] theorem State.runCell_mem (s : State) (core : Nat) : (State.runCell s core).mem = s.mem := by
  unfold State.runCell
  repeat'
    first
    | with_reducible rfl
    | assumption
    | (with_reducible apply Eq.trans (foldl_mem _ _ _ ?_))
    | (with_reducible apply Eq.trans (foldl1_mem _ _ _ ?_))
    | (with_reducible apply Eq.trans (foldl2_mem _ _ _ ?_))
    | (with_reducible apply State.checkV_mem)
    | (with_reducible apply State.checkRun_mem)
    | (with_reducible apply State.checkMma_mem)
    | (intro _)
    | (dsimp only)
    | (simp only [*])
    | (simp [*])
    | split
@[simp] theorem State.performCommit_mem (s : State) (core : Nat) (e : CommitEntry) (m : Commit) : (State.performCommit s core e m).mem = s.mem := by
  simp [State.performCommit]
@[simp] theorem State.performClip_mem (s : State) (core : Nat) (e : CommitEntry) : (State.performClip s core e).mem = s.mem := by
  unfold State.performClip
  repeat'
    first
    | with_reducible rfl
    | assumption
    | (with_reducible apply Eq.trans (foldl_mem _ _ _ ?_))
    | (with_reducible apply Eq.trans (foldl1_mem _ _ _ ?_))
    | (with_reducible apply Eq.trans (foldl2_mem _ _ _ ?_))
    | (with_reducible apply State.checkV_mem)
    | (with_reducible apply State.checkRun_mem)
    | (with_reducible apply State.checkMma_mem)
    | (intro _)
    | (dsimp only)
    | (simp only [*])
    | (simp [*])
    | split
@[simp] theorem State.runCommit_mem (s : State) (core index : Nat) : (State.runCommit s core index).mem = s.mem := by
  unfold State.runCommit
  repeat'
    first
    | with_reducible rfl
    | assumption
    | (with_reducible apply Eq.trans (foldl_mem _ _ _ ?_))
    | (with_reducible apply Eq.trans (foldl1_mem _ _ _ ?_))
    | (with_reducible apply Eq.trans (foldl2_mem _ _ _ ?_))
    | (with_reducible apply State.checkV_mem)
    | (with_reducible apply State.checkRun_mem)
    | (with_reducible apply State.checkMma_mem)
    | (intro _)
    | (dsimp only)
    | (simp only [*])
    | (simp [*])
    | split
@[simp] theorem State.writeCcr_mem (s : State) (cluster : Nat) (w : Word) : (State.writeCcr s cluster w).mem = s.mem := by
  simp [State.writeCcr]
@[simp] theorem State.putPart_mem (s : State) (cluster : Nat) (part : Option (BitVec 4)) : (State.putPart s cluster part).mem = s.mem := by
  unfold State.putPart
  repeat'
    first
    | with_reducible rfl
    | assumption
    | (with_reducible apply Eq.trans (foldl_mem _ _ _ ?_))
    | (with_reducible apply Eq.trans (foldl1_mem _ _ _ ?_))
    | (with_reducible apply Eq.trans (foldl2_mem _ _ _ ?_))
    | (with_reducible apply State.checkV_mem)
    | (with_reducible apply State.checkRun_mem)
    | (with_reducible apply State.checkMma_mem)
    | (intro _)
    | (dsimp only)
    | (simp only [*])
    | (simp [*])
    | split
@[simp] theorem State.moveCluster_mem (s : State) (cluster : Nat) (part : Option (BitVec 4)) : (State.moveCluster s cluster part).2.mem = s.mem := by
  unfold State.moveCluster
  repeat'
    first
    | with_reducible rfl
    | assumption
    | (with_reducible apply Eq.trans (foldl_mem _ _ _ ?_))
    | (with_reducible apply Eq.trans (foldl1_mem _ _ _ ?_))
    | (with_reducible apply Eq.trans (foldl2_mem _ _ _ ?_))
    | (with_reducible apply State.checkV_mem)
    | (with_reducible apply State.checkRun_mem)
    | (with_reducible apply State.checkMma_mem)
    | (intro _)
    | (dsimp only)
    | (simp only [*])
    | (simp [*])
    | split
@[simp] theorem State.writePartition_mem (s : State) (w : Word) : (State.writePartition s w).mem = s.mem := by
  unfold State.writePartition
  repeat'
    first
    | with_reducible rfl
    | assumption
    | (with_reducible apply Eq.trans (foldl_mem _ _ _ ?_))
    | (with_reducible apply Eq.trans (foldl1_mem _ _ _ ?_))
    | (with_reducible apply Eq.trans (foldl2_mem _ _ _ ?_))
    | (with_reducible apply State.checkV_mem)
    | (with_reducible apply State.checkRun_mem)
    | (with_reducible apply State.checkMma_mem)
    | (intro _)
    | (dsimp only)
    | (simp only [*])
    | (simp [*])
    | split
@[simp] theorem State.moveRegulator_mem (s : State) (cluster : Nat) (r : BitVec 2) : (State.moveRegulator s cluster r).2.mem = s.mem := by
  unfold State.moveRegulator
  repeat'
    first
    | with_reducible rfl
    | assumption
    | (with_reducible apply Eq.trans (foldl_mem _ _ _ ?_))
    | (with_reducible apply Eq.trans (foldl1_mem _ _ _ ?_))
    | (with_reducible apply Eq.trans (foldl2_mem _ _ _ ?_))
    | (with_reducible apply State.checkV_mem)
    | (with_reducible apply State.checkRun_mem)
    | (with_reducible apply State.checkMma_mem)
    | (intro _)
    | (dsimp only)
    | (simp only [*])
    | (simp [*])
    | split
@[simp] theorem State.writeRegsel_mem (s : State) (w : Word) : (State.writeRegsel s w).mem = s.mem := by
  simp [State.writeRegsel]
@[simp] theorem State.endTenant_mem (s : State) (tenant : Nat) : (State.endTenant s tenant).mem = s.mem := by
  unfold State.endTenant
  repeat'
    first
    | with_reducible rfl
    | assumption
    | (with_reducible apply Eq.trans (foldl_mem _ _ _ ?_))
    | (with_reducible apply Eq.trans (foldl1_mem _ _ _ ?_))
    | (with_reducible apply Eq.trans (foldl2_mem _ _ _ ?_))
    | (with_reducible apply State.checkV_mem)
    | (with_reducible apply State.checkRun_mem)
    | (with_reducible apply State.checkMma_mem)
    | (intro _)
    | (dsimp only)
    | (simp only [*])
    | (simp [*])
    | split
@[simp] theorem State.endScopes_mem (s : State) (tenant : Nat) : (State.endScopes s tenant).mem = s.mem := by
  unfold State.endScopes
  repeat'
    first
    | with_reducible rfl
    | assumption
    | (with_reducible apply Eq.trans (foldl_mem _ _ _ ?_))
    | (with_reducible apply Eq.trans (foldl1_mem _ _ _ ?_))
    | (with_reducible apply Eq.trans (foldl2_mem _ _ _ ?_))
    | (with_reducible apply State.checkV_mem)
    | (with_reducible apply State.checkRun_mem)
    | (with_reducible apply State.checkMma_mem)
    | (intro _)
    | (dsimp only)
    | (simp only [*])
    | (simp [*])
    | split
@[simp] theorem State.resetPartition_mem (s : State) (tenant : Nat) : (State.resetPartition s tenant).mem = s.mem := by
  unfold State.resetPartition
  repeat'
    first
    | with_reducible rfl
    | assumption
    | (with_reducible apply Eq.trans (foldl_mem _ _ _ ?_))
    | (with_reducible apply Eq.trans (foldl1_mem _ _ _ ?_))
    | (with_reducible apply Eq.trans (foldl2_mem _ _ _ ?_))
    | (with_reducible apply State.checkV_mem)
    | (with_reducible apply State.checkRun_mem)
    | (with_reducible apply State.checkMma_mem)
    | (intro _)
    | (dsimp only)
    | (simp only [*])
    | (simp [*])
    | split
@[simp] theorem State.setRetiring_mem (s : State) (u : Unit') : (State.setRetiring s u).mem = s.mem := by
  unfold State.setRetiring
  repeat'
    first
    | with_reducible rfl
    | assumption
    | (with_reducible apply Eq.trans (foldl_mem _ _ _ ?_))
    | (with_reducible apply Eq.trans (foldl1_mem _ _ _ ?_))
    | (with_reducible apply Eq.trans (foldl2_mem _ _ _ ?_))
    | (with_reducible apply State.checkV_mem)
    | (with_reducible apply State.checkRun_mem)
    | (with_reducible apply State.checkMma_mem)
    | (intro _)
    | (dsimp only)
    | (simp only [*])
    | (simp [*])
    | split
@[simp] theorem State.setRetired_mem (s : State) (u : Unit') : (State.setRetired s u).mem = s.mem := by
  unfold State.setRetired
  repeat'
    first
    | with_reducible rfl
    | assumption
    | (with_reducible apply Eq.trans (foldl_mem _ _ _ ?_))
    | (with_reducible apply Eq.trans (foldl1_mem _ _ _ ?_))
    | (with_reducible apply Eq.trans (foldl2_mem _ _ _ ?_))
    | (with_reducible apply State.checkV_mem)
    | (with_reducible apply State.checkRun_mem)
    | (with_reducible apply State.checkMma_mem)
    | (intro _)
    | (dsimp only)
    | (simp only [*])
    | (simp [*])
    | split
@[simp] theorem State.retireUnit_mem (s : State) (u : Unit') : (State.retireUnit s u).mem = s.mem := by
  unfold State.retireUnit
  repeat'
    first
    | with_reducible rfl
    | assumption
    | (with_reducible apply Eq.trans (foldl_mem _ _ _ ?_))
    | (with_reducible apply Eq.trans (foldl1_mem _ _ _ ?_))
    | (with_reducible apply Eq.trans (foldl2_mem _ _ _ ?_))
    | (with_reducible apply State.checkV_mem)
    | (with_reducible apply State.checkRun_mem)
    | (with_reducible apply State.checkMma_mem)
    | (intro _)
    | (dsimp only)
    | (simp only [*])
    | (simp [*])
    | split
@[simp] theorem State.retireWorn_mem (s : State) (kind number : Nat) : (State.retireWorn s kind number).mem = s.mem := by
  unfold State.retireWorn
  repeat'
    first
    | with_reducible rfl
    | assumption
    | (with_reducible apply Eq.trans (foldl_mem _ _ _ ?_))
    | (with_reducible apply Eq.trans (foldl1_mem _ _ _ ?_))
    | (with_reducible apply Eq.trans (foldl2_mem _ _ _ ?_))
    | (with_reducible apply State.checkV_mem)
    | (with_reducible apply State.checkRun_mem)
    | (with_reducible apply State.checkMma_mem)
    | (intro _)
    | (dsimp only)
    | (simp only [*])
    | (simp [*])
    | split
@[simp] theorem State.request'_mem (s : State) (tenant : Nat) (b : List Byte) : (State.request' s tenant b).2.mem = s.mem := by
  unfold State.request'
  repeat'
    first
    | with_reducible rfl
    | assumption
    | (with_reducible apply Eq.trans (foldl_mem _ _ _ ?_))
    | (with_reducible apply Eq.trans (foldl1_mem _ _ _ ?_))
    | (with_reducible apply Eq.trans (foldl2_mem _ _ _ ?_))
    | (with_reducible apply State.checkV_mem)
    | (with_reducible apply State.checkRun_mem)
    | (with_reducible apply State.checkMma_mem)
    | (intro _)
    | (dsimp only)
    | (simp only [*])
    | (simp [*])
    | split
@[simp] theorem State.answerSmc_mem (s : State) (uid : Nat) (h : HubOp) (tenant : Nat) (d : BitVec 6) (address : DWord) : (State.answerSmc s uid h tenant d address).mem = s.mem := by
  unfold State.answerSmc
  repeat'
    first
    | with_reducible rfl
    | assumption
    | (with_reducible apply Eq.trans (foldl_mem _ _ _ ?_))
    | (with_reducible apply Eq.trans (foldl1_mem _ _ _ ?_))
    | (with_reducible apply Eq.trans (foldl2_mem _ _ _ ?_))
    | (with_reducible apply State.checkV_mem)
    | (with_reducible apply State.checkRun_mem)
    | (with_reducible apply State.checkMma_mem)
    | (intro _)
    | (dsimp only)
    | (simp only [*])
    | (simp [*])
    | split
@[simp] theorem State.smc_mem (s : State) (d a : BitVec 6) : (State.smc s d a).mem = s.mem := by
  unfold State.smc
  repeat'
    first
    | with_reducible rfl
    | assumption
    | (with_reducible apply Eq.trans (foldl_mem _ _ _ ?_))
    | (with_reducible apply Eq.trans (foldl1_mem _ _ _ ?_))
    | (with_reducible apply Eq.trans (foldl2_mem _ _ _ ?_))
    | (with_reducible apply State.checkV_mem)
    | (with_reducible apply State.checkRun_mem)
    | (with_reducible apply State.checkMma_mem)
    | (intro _)
    | (dsimp only)
    | (simp only [*])
    | (simp [*])
    | split
@[simp] theorem State.restoreGated_mem (s : State) (tower : Nat) : (State.restoreGated s tower).mem = s.mem := by
  unfold State.restoreGated
  repeat'
    first
    | with_reducible rfl
    | assumption
    | (with_reducible apply Eq.trans (foldl_mem _ _ _ ?_))
    | (with_reducible apply Eq.trans (foldl1_mem _ _ _ ?_))
    | (with_reducible apply Eq.trans (foldl2_mem _ _ _ ?_))
    | (with_reducible apply State.checkV_mem)
    | (with_reducible apply State.checkRun_mem)
    | (with_reducible apply State.checkMma_mem)
    | (intro _)
    | (dsimp only)
    | (simp only [*])
    | (simp [*])
    | split
@[simp] theorem State.answerPwrq_mem (s : State) (uid seq status : Nat) : (State.answerPwrq s uid seq status).mem = s.mem := by
  unfold State.answerPwrq
  repeat'
    first
    | with_reducible rfl
    | assumption
    | (with_reducible apply Eq.trans (foldl_mem _ _ _ ?_))
    | (with_reducible apply Eq.trans (foldl1_mem _ _ _ ?_))
    | (with_reducible apply Eq.trans (foldl2_mem _ _ _ ?_))
    | (with_reducible apply State.checkV_mem)
    | (with_reducible apply State.checkRun_mem)
    | (with_reducible apply State.checkMma_mem)
    | (intro _)
    | (dsimp only)
    | (simp only [*])
    | (simp [*])
    | split
@[simp] theorem State.holdPwrq_mem (s : State) (uid seq : Nat) : (State.holdPwrq s uid seq).mem = s.mem := by
  simp [State.holdPwrq]
@[simp] theorem State.power_mem (s : State) (uid seq : Nat) (gate : Bool) (tower : Nat) : (State.power s uid seq gate tower).mem = s.mem := by
  unfold State.power
  repeat'
    first
    | with_reducible rfl
    | assumption
    | (with_reducible apply Eq.trans (foldl_mem _ _ _ ?_))
    | (with_reducible apply Eq.trans (foldl1_mem _ _ _ ?_))
    | (with_reducible apply Eq.trans (foldl2_mem _ _ _ ?_))
    | (with_reducible apply State.checkV_mem)
    | (with_reducible apply State.checkRun_mem)
    | (with_reducible apply State.checkMma_mem)
    | (intro _)
    | (dsimp only)
    | (simp only [*])
    | (simp [*])
    | split
@[simp] theorem State.pwrq_mem (s : State) (d a : BitVec 6) : (State.pwrq s d a).mem = s.mem := by
  unfold State.pwrq
  repeat'
    first
    | with_reducible rfl
    | assumption
    | (with_reducible apply Eq.trans (foldl_mem _ _ _ ?_))
    | (with_reducible apply Eq.trans (foldl1_mem _ _ _ ?_))
    | (with_reducible apply Eq.trans (foldl2_mem _ _ _ ?_))
    | (with_reducible apply State.checkV_mem)
    | (with_reducible apply State.checkRun_mem)
    | (with_reducible apply State.checkMma_mem)
    | (intro _)
    | (dsimp only)
    | (simp only [*])
    | (simp [*])
    | split
@[simp] theorem State.gateDie_mem (s : State) (tower : Nat) : (State.gateDie s tower).mem = s.mem := by
  unfold State.gateDie
  repeat'
    first
    | with_reducible rfl
    | assumption
    | (with_reducible apply Eq.trans (foldl_mem _ _ _ ?_))
    | (with_reducible apply Eq.trans (foldl1_mem _ _ _ ?_))
    | (with_reducible apply Eq.trans (foldl2_mem _ _ _ ?_))
    | (with_reducible apply State.checkV_mem)
    | (with_reducible apply State.checkRun_mem)
    | (with_reducible apply State.checkMma_mem)
    | (intro _)
    | (dsimp only)
    | (simp only [*])
    | (simp [*])
    | split
@[simp] theorem State.powerUp_mem (s : State) (tower : Nat) : (State.powerUp s tower).mem = s.mem := by
  unfold State.powerUp
  repeat'
    first
    | with_reducible rfl
    | assumption
    | (with_reducible apply Eq.trans (foldl_mem _ _ _ ?_))
    | (with_reducible apply Eq.trans (foldl1_mem _ _ _ ?_))
    | (with_reducible apply Eq.trans (foldl2_mem _ _ _ ?_))
    | (with_reducible apply State.checkV_mem)
    | (with_reducible apply State.checkRun_mem)
    | (with_reducible apply State.checkMma_mem)
    | (intro _)
    | (dsimp only)
    | (simp only [*])
    | (simp [*])
    | split
@[simp] theorem State.dropTlb_mem (s : State) (tenant : Nat) (all : Bool) (va : Nat) : (State.dropTlb s tenant all va).mem = s.mem := by
  simp [State.dropTlb]
@[simp] theorem State.returnTlbinv_mem (s : State) (uid : Nat) : (State.returnTlbinv s uid).mem = s.mem := by
  unfold State.returnTlbinv
  repeat'
    first
    | with_reducible rfl
    | assumption
    | (with_reducible apply Eq.trans (foldl_mem _ _ _ ?_))
    | (with_reducible apply Eq.trans (foldl1_mem _ _ _ ?_))
    | (with_reducible apply Eq.trans (foldl2_mem _ _ _ ?_))
    | (with_reducible apply State.checkV_mem)
    | (with_reducible apply State.checkRun_mem)
    | (with_reducible apply State.checkMma_mem)
    | (intro _)
    | (dsimp only)
    | (simp only [*])
    | (simp [*])
    | split
theorem State.configWord_mem (s : State) (off : Nat) (w : Word) : ∀ t, s.configWord off w = some t → t.mem = s.mem := by
  unfold State.configWord
  dsimp only
  repeat' split
  all_goals intro t h
  all_goals first | (injection h with h; subst h; (first | rfl | simp)) | (obtain ⟨x, -, rfl⟩ := Option.map_eq_some_iff.mp h; (first | rfl | simp)) | cases h
theorem State.configure_mem (s : State) (off : Nat) (b : List Byte) : ∀ t, s.configure off b = some t → t.mem = s.mem := by
  unfold State.configure
  intro t h
  dsimp only at h
  split at h
  · cases h
  · split at h
    · injection h with h; subst h; (first | rfl | simp)
    · split at h
      · exact State.configWord_mem _ _ _ _ h
      · split at h
        · rename_i h2
          injection h with h
          subst h
          rw [State.configWord_mem _ _ _ _ h2]
          cases h1 : s.configWord off (bytesWord (List.take 4 b)) with
          | none => rfl
          | some u => exact State.configWord_mem _ _ _ _ h1
        · exact State.configWord_mem _ _ _ _ h
@[simp] theorem State.recover_mem (s : State) (image : BootImage) : (State.recover s image).mem = s.mem := by
  unfold State.recover
  repeat'
    first
    | with_reducible rfl
    | assumption
    | (with_reducible apply Eq.trans (foldl_mem _ _ _ ?_))
    | (with_reducible apply Eq.trans (foldl1_mem _ _ _ ?_))
    | (with_reducible apply Eq.trans (foldl2_mem _ _ _ ?_))
    | (with_reducible apply State.checkV_mem)
    | (with_reducible apply State.checkRun_mem)
    | (with_reducible apply State.checkMma_mem)
    | (intro _)
    | (dsimp only)
    | (simp only [*])
    | (simp [*])
    | split
@[simp] theorem State.withLeaf_mem (s : State) (b : BitVec 6) (k : Nat → Nat → State) (h_k : ∀ x0 x1, (k x0 x1).mem = s.mem) : (State.withLeaf s b k).mem = s.mem := by
  unfold State.withLeaf
  repeat'
    first
    | with_reducible rfl
    | assumption
    | (with_reducible apply Eq.trans (foldl_mem _ _ _ ?_))
    | (with_reducible apply Eq.trans (foldl1_mem _ _ _ ?_))
    | (with_reducible apply Eq.trans (foldl2_mem _ _ _ ?_))
    | (with_reducible apply State.checkV_mem)
    | (with_reducible apply State.checkRun_mem)
    | (with_reducible apply State.checkMma_mem)
    | (intro _)
    | (dsimp only)
    | (simp only [*])
    | (simp [*])
    | split
@[simp] theorem State.beginArrival_mem (s : State) (seq core leaf : Nat) (waits : Bool) : (State.beginArrival s seq core leaf waits).mem = s.mem := by
  simp [State.beginArrival]
@[simp] theorem State.link'_mem (s : State) (core leaf : Nat) (root : Option Nat) : (State.link' s core leaf root).mem = s.mem := by
  unfold State.link'
  repeat'
    first
    | with_reducible rfl
    | assumption
    | (with_reducible apply Eq.trans (foldl_mem _ _ _ ?_))
    | (with_reducible apply Eq.trans (foldl1_mem _ _ _ ?_))
    | (with_reducible apply Eq.trans (foldl2_mem _ _ _ ?_))
    | (with_reducible apply State.checkV_mem)
    | (with_reducible apply State.checkRun_mem)
    | (with_reducible apply State.checkMma_mem)
    | (intro _)
    | (dsimp only)
    | (simp only [*])
    | (simp [*])
    | split
@[simp] theorem State.arriveLeaf_mem (s : State) (seq : Nat) : (State.arriveLeaf s seq).mem = s.mem := by
  unfold State.arriveLeaf
  repeat' split
  all_goals simp
@[simp] theorem State.reportLeaf_mem (s : State) (core leaf : Nat) : (State.reportLeaf s core leaf).mem = s.mem := by
  unfold State.reportLeaf
  repeat'
    first
    | with_reducible rfl
    | assumption
    | (with_reducible apply Eq.trans (foldl_mem _ _ _ ?_))
    | (with_reducible apply Eq.trans (foldl1_mem _ _ _ ?_))
    | (with_reducible apply Eq.trans (foldl2_mem _ _ _ ?_))
    | (with_reducible apply State.checkV_mem)
    | (with_reducible apply State.checkRun_mem)
    | (with_reducible apply State.checkMma_mem)
    | (intro _)
    | (dsimp only)
    | (simp only [*])
    | (simp [*])
    | split
@[simp] theorem State.releaseNext_mem (s : State) (cluster : Nat) : (State.releaseNext s cluster).mem = s.mem := by
  unfold State.releaseNext
  repeat'
    first
    | with_reducible rfl
    | assumption
    | (with_reducible apply Eq.trans (foldl_mem _ _ _ ?_))
    | (with_reducible apply Eq.trans (foldl1_mem _ _ _ ?_))
    | (with_reducible apply Eq.trans (foldl2_mem _ _ _ ?_))
    | (with_reducible apply State.checkV_mem)
    | (with_reducible apply State.checkRun_mem)
    | (with_reducible apply State.checkMma_mem)
    | (intro _)
    | (dsimp only)
    | (simp only [*])
    | (simp [*])
    | split
@[simp] theorem State.bring_mem (s : State) (p : Ply) : (State.bring s p).mem = s.mem := by
  unfold State.bring
  repeat'
    first
    | with_reducible rfl
    | assumption
    | (with_reducible apply Eq.trans (foldl_mem _ _ _ ?_))
    | (with_reducible apply Eq.trans (foldl1_mem _ _ _ ?_))
    | (with_reducible apply Eq.trans (foldl2_mem _ _ _ ?_))
    | (with_reducible apply State.checkV_mem)
    | (with_reducible apply State.checkRun_mem)
    | (with_reducible apply State.checkMma_mem)
    | (intro _)
    | (dsimp only)
    | (simp only [*])
    | (simp [*])
    | split
@[simp] theorem State.choosePath_mem (s : State) (core pipe : Nat) : (State.choosePath s core pipe).mem = s.mem := by
  unfold State.choosePath
  repeat'
    first
    | with_reducible rfl
    | assumption
    | (with_reducible apply Eq.trans (foldl_mem _ _ _ ?_))
    | (with_reducible apply Eq.trans (foldl1_mem _ _ _ ?_))
    | (with_reducible apply Eq.trans (foldl2_mem _ _ _ ?_))
    | (with_reducible apply State.checkV_mem)
    | (with_reducible apply State.checkRun_mem)
    | (with_reducible apply State.checkMma_mem)
    | (intro _)
    | (dsimp only)
    | (simp only [*])
    | (simp [*])
    | split
@[simp] theorem State.answerHub_mem (s : State) (p : Ply) (h : HubOp) : (State.answerHub s p h).mem = s.mem := by
  unfold State.answerHub
  repeat'
    first
    | with_reducible rfl
    | assumption
    | (with_reducible apply Eq.trans (foldl_mem _ _ _ ?_))
    | (with_reducible apply Eq.trans (foldl1_mem _ _ _ ?_))
    | (with_reducible apply Eq.trans (foldl2_mem _ _ _ ?_))
    | (with_reducible apply State.checkV_mem)
    | (with_reducible apply State.checkRun_mem)
    | (with_reducible apply State.checkMma_mem)
    | (intro _)
    | (dsimp only)
    | (simp only [*])
    | (simp [*])
    | split
@[simp] theorem State.takeResult_mem (s : State) (uid seq : Nat) : (State.takeResult s uid seq).mem = s.mem := by
  unfold State.takeResult
  repeat'
    first
    | with_reducible rfl
    | assumption
    | (with_reducible apply Eq.trans (foldl_mem _ _ _ ?_))
    | (with_reducible apply Eq.trans (foldl1_mem _ _ _ ?_))
    | (with_reducible apply Eq.trans (foldl2_mem _ _ _ ?_))
    | (with_reducible apply State.checkV_mem)
    | (with_reducible apply State.checkRun_mem)
    | (with_reducible apply State.checkMma_mem)
    | (intro _)
    | (dsimp only)
    | (simp only [*])
    | (simp [*])
    | split
@[simp] theorem State.fresult_mem (s : State) (d : BitVec 7) (nw : BitVec 1) (f : Nat → Word × BitVec 6) : (State.fresult s d nw f).mem = s.mem := by
  simp [State.fresult]
@[simp] theorem State.fmap1_mem (s : State) (d a : BitVec 7) (nw : BitVec 1) (f : Nat → Nat × BitVec 6) : (State.fmap1 s d a nw f).mem = s.mem := by
  unfold State.fmap1
  repeat'
    first
    | with_reducible rfl
    | assumption
    | (with_reducible apply Eq.trans (foldl_mem _ _ _ ?_))
    | (with_reducible apply Eq.trans (foldl1_mem _ _ _ ?_))
    | (with_reducible apply Eq.trans (foldl2_mem _ _ _ ?_))
    | (with_reducible apply State.checkV_mem)
    | (with_reducible apply State.checkRun_mem)
    | (intro _)
    | (dsimp only)
    | (simp only [*])
    | (simp [*])
    | split
@[simp] theorem State.fmap2_mem (s : State) (d a b : BitVec 7) (nw : BitVec 1) (f : Nat → Nat → Nat × BitVec 6) : (State.fmap2 s d a b nw f).mem = s.mem := by
  unfold State.fmap2
  repeat'
    first
    | with_reducible rfl
    | assumption
    | (with_reducible apply Eq.trans (foldl_mem _ _ _ ?_))
    | (with_reducible apply Eq.trans (foldl1_mem _ _ _ ?_))
    | (with_reducible apply Eq.trans (foldl2_mem _ _ _ ?_))
    | (with_reducible apply State.checkV_mem)
    | (with_reducible apply State.checkRun_mem)
    | (intro _)
    | (dsimp only)
    | (simp only [*])
    | (simp [*])
    | split
@[simp] theorem State.fmap3_mem (s : State) (d a b : BitVec 7) (nw : BitVec 1) (f : Nat → Nat → Nat → Nat × BitVec 6) : (State.fmap3 s d a b nw f).mem = s.mem := by
  unfold State.fmap3
  repeat'
    first
    | with_reducible rfl
    | assumption
    | (with_reducible apply Eq.trans (foldl_mem _ _ _ ?_))
    | (with_reducible apply Eq.trans (foldl1_mem _ _ _ ?_))
    | (with_reducible apply Eq.trans (foldl2_mem _ _ _ ?_))
    | (with_reducible apply State.checkV_mem)
    | (with_reducible apply State.checkRun_mem)
    | (intro _)
    | (dsimp only)
    | (simp only [*])
    | (simp [*])
    | split
@[simp] theorem State.lmap_mem (s : State) (d a : BitVec 7) (w : BitVec 1) (f : Lanes → Nat → Word) : (State.lmap s d a w f).mem = s.mem := by
  unfold State.lmap
  exact State.checkV_mem _ _ _ rfl
@[simp] theorem State.deriv_mem (s : State) (d a : BitVec 7) (w : BitVec 1) (p q : Nat → Nat) : (State.deriv s d a w p q).mem = s.mem := by
  unfold State.deriv
  repeat'
    first
    | with_reducible rfl
    | assumption
    | (with_reducible apply Eq.trans (foldl_mem _ _ _ ?_))
    | (with_reducible apply Eq.trans (foldl1_mem _ _ _ ?_))
    | (with_reducible apply Eq.trans (foldl2_mem _ _ _ ?_))
    | (with_reducible apply State.checkV_mem)
    | (with_reducible apply State.checkRun_mem)
    | (intro _)
    | (dsimp only)
    | (simp only [*])
    | (simp [*])
    | split
@[simp] theorem State.answerAfter_mem (s : State) (l : Loading) : (State.answerAfter s l).mem = s.mem := by
  unfold State.answerAfter
  repeat'
    first
    | with_reducible rfl
    | assumption
    | (with_reducible apply Eq.trans (foldl_mem _ _ _ ?_))
    | (with_reducible apply Eq.trans (foldl1_mem _ _ _ ?_))
    | (with_reducible apply Eq.trans (foldl2_mem _ _ _ ?_))
    | (intro _)
    | (dsimp only)
    | (simp only [*])
    | (simp [*])
    | split
@[simp] theorem State.loadReport_mem (s : State) (tenant : Nat) (r : LoadReport) : (State.loadReport s tenant r).mem = s.mem := by
  simp [State.loadReport]
@[simp] theorem State.unload_mem (s : State) (tenant address : Nat) : (State.unload s tenant address).mem = s.mem := by
  unfold State.unload
  repeat'
    first
    | with_reducible rfl
    | assumption
    | (with_reducible apply Eq.trans (foldl_mem _ _ _ ?_))
    | (with_reducible apply Eq.trans (foldl1_mem _ _ _ ?_))
    | (with_reducible apply Eq.trans (foldl2_mem _ _ _ ?_))
    | (with_reducible apply State.checkV_mem)
    | (with_reducible apply State.checkRun_mem)
    | (with_reducible apply State.checkMma_mem)
    | (intro _)
    | (dsimp only)
    | (simp only [*])
    | (simp [*])
    | split
@[simp] theorem State.salu2_mem (s : State) (d a b : BitVec 6) (f : Word → Word → Word) : (State.salu2 s d a b f).mem = s.mem := by
  simp [State.salu2]
@[simp] theorem State.salu1_mem (s : State) (d a : BitVec 6) (f : Word → Word) : (State.salu1 s d a f).mem = s.mem := by
  simp [State.salu1]
@[simp] theorem State.simm_mem (s : State) (d a : BitVec 6) (i : BitVec 11) (f : Word → Word → Word) : (State.simm s d a i f).mem = s.mem := by
  simp [State.simm]
@[simp] theorem State.mask2_mem (s : State) (d a b : BitVec 6) (f : Mask → Mask → Mask) : (State.mask2 s d a b f).mem = s.mem := by
  simp [State.mask2]
@[simp] theorem State.raiseRunlen_mem (s : State) : (State.raiseRunlen s).mem = s.mem := by
  simp [State.raiseRunlen]

end Sys2Proof.Machine
end

