-- ==== Sys2Proof/Laws/Memory.lean ====
section
/-!
SUPPORT. The laws of a sparse memory: every operation keeps the canonical form; a read after a write gives the byte written
there and, everywhere else, the byte that stood there.
-/
namespace Sys2Proof.Machine

/-! ## Canonical form -/

@[simp] theorem Memory.wfFrom_nil (lo : Nat) : Memory.wfFrom lo [] = true := rfl

theorem Memory.wfFrom_cons (lo k : Nat) (c : Byte) (m : Memory) :
    Memory.wfFrom lo ((k, c) :: m) = true ↔ lo ≤ k ∧ c ≠ 0#8 ∧ Memory.wfFrom (k + 1) m = true := by
  simp [Memory.wfFrom, and_assoc]

/-- A memory that rises from lo rises from any lower address. -/
theorem Memory.wfFrom_mono {lo lo' : Nat} {m : Memory} (h : Memory.wfFrom lo m = true) (hl : lo' ≤ lo) :
    Memory.wfFrom lo' m = true := by
  cases m with
  | nil => rfl
  | cons p m =>
    obtain ⟨k, c⟩ := p
    rw [Memory.wfFrom_cons] at h ⊢
    exact ⟨Nat.le_trans hl h.1, h.2⟩

/-- Below its first address a canonical memory reads as zero. -/
theorem Memory.read_below {lo : Nat} {m : Memory} (h : Memory.wfFrom lo m = true) {a : Nat} (ha : a < lo) : m.read a = 0#8 := by
  cases m with
  | nil => rfl
  | cons p m =>
    obtain ⟨k, c⟩ := p
    rw [Memory.wfFrom_cons] at h
    have h1 : (k == a) = false := beq_eq_false_iff_ne.mpr (by omega)
    simp [Memory.read, h1, show a < k by omega]

/-! ## One byte -/

theorem Memory.write_wfFrom {lo : Nat} {m : Memory} (h : Memory.wfFrom lo m = true) {a : Nat} (ha : lo ≤ a) (b : Byte) :
    Memory.wfFrom lo (m.write a b) = true := by
  induction m generalizing lo with
  | nil =>
    by_cases hb : b = 0#8
    · simp [Memory.write, hb]
    · simp [Memory.write, hb, Memory.wfFrom_cons, ha]
  | cons p m ih =>
    obtain ⟨k, c⟩ := p
    rw [Memory.wfFrom_cons] at h
    unfold Memory.write
    by_cases h1 : k = a
    · subst h1
      by_cases hb : b = 0#8
      · simpa [hb] using Memory.wfFrom_mono h.2.2 (by omega)
      · simpa [hb, Memory.wfFrom_cons] using ⟨ha, h.2.2⟩
    · by_cases h2 : a < k
      · by_cases hb : b = 0#8
        · simpa [h1, h2, hb, Memory.wfFrom_cons] using h
        · have h3 : Memory.wfFrom (a + 1) ((k, c) :: m) = true := by
            rw [Memory.wfFrom_cons]; exact ⟨h2, h.2⟩
          simpa [h1, h2, hb, Memory.wfFrom_cons lo] using And.intro ha h3
      · simpa [h1, h2, Memory.wfFrom_cons] using ⟨h.1, h.2.1, ih h.2.2 (by omega)⟩

/-- A write keeps the canonical form. -/
theorem Memory.write_wf {m : Memory} (h : m.wf = true) (a : Nat) (b : Byte) : (m.write a b).wf = true :=
  Memory.write_wfFrom h (Nat.zero_le a) b

theorem Memory.read_writeFrom {lo : Nat} {m : Memory} (h : Memory.wfFrom lo m = true) (a x : Nat) (b : Byte) :
    (m.write a b).read x = if x = a then b else m.read x := by
  induction m generalizing lo with
  | nil =>
    by_cases hb : b = 0#8
    · simp [Memory.write, Memory.read, hb]
    · by_cases hx : x = a
      · simp [Memory.write, Memory.read, hb, hx]
      · simp [Memory.write, Memory.read, hb, hx, Ne.symm hx]
  | cons p m ih =>
    obtain ⟨k, c⟩ := p
    rw [Memory.wfFrom_cons] at h
    have low : ∀ {y}, y < k + 1 → Memory.read m y = 0#8 := fun hy => Memory.read_below h.2.2 hy
    unfold Memory.write
    by_cases h1 : k = a
    · subst h1
      by_cases hx : x = k
      · subst hx
        by_cases hb : b = 0#8 <;> simp [hb, Memory.read, low]
      · by_cases hb : b = 0#8
        · by_cases h3 : x < k
          · simp [hb, hx, Memory.read, Ne.symm hx, h3, low (Nat.lt_succ_of_lt h3)]
          · simp [hb, hx, Memory.read, Ne.symm hx, h3]
        · simp [hb, hx, Memory.read, Ne.symm hx]
    · by_cases h2 : a < k
      · by_cases hb : b = 0#8
        · by_cases hx : x = a
          · subst hx
            simp [h1, h2, hb, Memory.read]
          · simp [h1, h2, hb, hx]
        · by_cases hx : x = a
          · subst hx
            simp [h1, h2, hb, Memory.read]
          · by_cases h3 : x < a
            · simp [h1, h2, hb, hx, Memory.read, Ne.symm hx, h3, show ¬ k = x by omega, show x < k by omega]
            · simp [h1, h2, hb, hx, Memory.read, Ne.symm hx, h3]
      · simp only [h1, h2, beq_iff_eq, if_false, Memory.read]
        rw [ih h.2.2]
        by_cases hx : x = a
        · subst hx
          simp [h1, h2]
        · simp [hx]

/-- A read after a write gives the byte written at that address, and the byte that stood there at every other. -/
theorem Memory.read_write {m : Memory} (h : m.wf = true) (a x : Nat) (b : Byte) :
    (m.write a b).read x = if x = a then b else m.read x := Memory.read_writeFrom h a x b

/-! ## Runs of bytes -/

theorem Memory.above_wfFrom {lo : Nat} {m : Memory} (h : Memory.wfFrom lo m = true) (a : Nat) :
    Memory.wfFrom a (m.above a) = true := by
  induction m generalizing lo with
  | nil => rfl
  | cons p m ih =>
    obtain ⟨k, c⟩ := p
    rw [Memory.wfFrom_cons] at h
    unfold Memory.above
    by_cases hk : k < a
    · simpa [hk] using ih h.2.2
    · simpa [hk, Memory.wfFrom_cons] using ⟨by omega, h.2.1, h.2.2⟩

theorem Memory.read_above {lo : Nat} {m : Memory} (h : Memory.wfFrom lo m = true) (a : Nat) {x : Nat} (hx : a ≤ x) :
    (m.above a).read x = m.read x := by
  induction m generalizing lo with
  | nil => rfl
  | cons p m ih =>
    obtain ⟨k, c⟩ := p
    rw [Memory.wfFrom_cons] at h
    unfold Memory.above
    by_cases hk : k < a
    · rw [if_pos hk, ih h.2.2]
      simp [Memory.read, show ¬ k = x by omega, show ¬ x < k by omega]
    · rw [if_neg hk]

/-- The bytes from a on are the bytes read one by one. -/
theorem Memory.front_eq {a : Nat} {m : Memory} (h : Memory.wfFrom a m = true) (n : Nat) :
    m.front a n = (List.range' a n).map m.read := by
  induction n generalizing a m with
  | zero => simp [Memory.front]
  | succ n ih =>
    rw [List.range'_succ, List.map_cons]
    cases m with
    | nil => simpa [Memory.front, Memory.read] using ih (a := a + 1) (m := []) rfl
    | cons p m =>
      obtain ⟨k, c⟩ := p
      rw [Memory.wfFrom_cons] at h
      unfold Memory.front
      by_cases hk : k = a
      · subst hk
        have e : (List.range' (k + 1) n).map (Memory.read ((k, c) :: m)) = (List.range' (k + 1) n).map (Memory.read m) := by
          apply List.map_congr_left
          intro x hx
          have := (List.mem_range'_1.mp hx).1
          simp [Memory.read, show ¬ k = x by omega, show ¬ x < k by omega]
        simp only [beq_self_eq_true, if_true, e]
        rw [ih h.2.2]
        simp [Memory.read]
      · have hw : Memory.wfFrom (a + 1) ((k, c) :: m) = true := (Memory.wfFrom_cons ..).mpr ⟨by omega, h.2⟩
        rw [if_neg (by simpa using hk), ih hw]
        simp [Memory.read, hk, show a < k by omega]

theorem Memory.readN_eq {m : Memory} (h : m.wf = true) (a n : Nat) : m.readN a n = (List.range' a n).map m.read := by
  unfold Memory.readN
  rw [Memory.front_eq (Memory.above_wfFrom h a)]
  exact List.map_congr_left fun x hx => Memory.read_above h a (List.mem_range'_1.mp hx).1

theorem Memory.lay_wfFrom {lo : Nat} {m : Memory} (h : Memory.wfFrom lo m = true) (bs : List Byte) {a : Nat} (ha : a ≤ lo) :
    Memory.wfFrom a (Memory.lay bs a m) = true := by
  induction bs generalizing a lo m with
  | nil => exact Memory.wfFrom_mono h ha
  | cons b bs ih =>
    have hr := ih (Memory.above_wfFrom h (a + 1)) (Nat.le_refl _)
    unfold Memory.lay
    by_cases hb : b = 0#8
    · simpa [hb] using Memory.wfFrom_mono hr (Nat.le_succ a)
    · simpa [hb, Memory.wfFrom_cons] using hr

theorem Memory.read_lay {a : Nat} {m : Memory} (h : Memory.wfFrom a m = true) (bs : List Byte) {x : Nat} (hx : a ≤ x) :
    (Memory.lay bs a m).read x = (bs[x - a]?).getD (m.read x) := by
  induction bs generalizing a m with
  | nil => simp [Memory.lay]
  | cons b bs ih =>
    have hw := Memory.above_wfFrom h (a + 1)
    unfold Memory.lay
    by_cases hxa : x = a
    · subst hxa
      by_cases hb : b = 0#8
      · simp [hb, Memory.read_below (Memory.lay_wfFrom hw bs (Nat.le_refl _)) (Nat.lt_succ_self x)]
      · simp [hb, Memory.read]
    · have e : x - a = (x - (a + 1)) + 1 := by omega
      have hr := ih hw (show a + 1 ≤ x by omega)
      rw [Memory.read_above h (a + 1) (by omega)] at hr
      rw [e, List.getElem?_cons_succ]
      by_cases hb : b = 0#8
      · simpa [hb] using hr
      · simpa [hb, Memory.read, show ¬ a = x by omega, show ¬ x < a by omega] using hr

theorem Memory.writeN_wfFrom {lo : Nat} {m : Memory} (h : Memory.wfFrom lo m = true) {a : Nat} (ha : lo ≤ a) (bs : List Byte) :
    Memory.wfFrom lo (m.writeN a bs) = true := by
  induction m generalizing lo with
  | nil => exact Memory.wfFrom_mono (Memory.lay_wfFrom (lo := a) rfl bs (Nat.le_refl a)) ha
  | cons p m ih =>
    obtain ⟨k, c⟩ := p
    rw [Memory.wfFrom_cons] at h
    unfold Memory.writeN
    by_cases hk : k < a
    · rw [if_pos hk, Memory.wfFrom_cons]
      exact ⟨h.1, h.2.1, ih h.2.2 hk⟩
    · rw [if_neg hk]
      have hw : Memory.wfFrom a ((k, c) :: m) = true := (Memory.wfFrom_cons ..).mpr ⟨by omega, h.2⟩
      exact Memory.wfFrom_mono (Memory.lay_wfFrom hw bs (Nat.le_refl a)) ha

/-- A write of any length keeps the canonical form. -/
theorem Memory.writeN_wf {m : Memory} (h : m.wf = true) (a : Nat) (bs : List Byte) : (m.writeN a bs).wf = true :=
  Memory.writeN_wfFrom h (Nat.zero_le a) bs

theorem Memory.read_writeNFrom {lo : Nat} {m : Memory} (h : Memory.wfFrom lo m = true) (a x : Nat) (bs : List Byte) :
    (m.writeN a bs).read x = if a ≤ x then (bs[x - a]?).getD (m.read x) else m.read x := by
  induction m generalizing lo with
  | nil =>
    unfold Memory.writeN
    by_cases hx : a ≤ x
    · rw [if_pos hx, Memory.read_lay rfl bs hx]
    · rw [if_neg hx, Memory.read_below (Memory.lay_wfFrom (lo := a) rfl bs (Nat.le_refl a)) (by omega)]
      rfl
  | cons p m ih =>
    obtain ⟨k, c⟩ := p
    rw [Memory.wfFrom_cons] at h
    unfold Memory.writeN
    by_cases hk : k < a
    · rw [if_pos hk]
      simp only [Memory.read]
      by_cases h1 : k = x
      · subst h1
        simp [show ¬ a ≤ k by omega]
      · by_cases h2 : x < k
        · simp [h1, h2, show ¬ a ≤ x by omega]
        · simpa [h1, h2] using ih h.2.2
    · rw [if_neg hk]
      have hw : Memory.wfFrom a ((k, c) :: m) = true := (Memory.wfFrom_cons ..).mpr ⟨by omega, h.2⟩
      by_cases hx : a ≤ x
      · rw [if_pos hx, Memory.read_lay hw bs hx]
      · rw [if_neg hx, Memory.read_below (Memory.lay_wfFrom hw bs (Nat.le_refl a)) (by omega),
          Memory.read_below hw (by omega)]

/-- A read after a write of bytes from a gives the byte laid at that address, and elsewhere the byte that stood there. -/
theorem Memory.read_writeN {m : Memory} (h : m.wf = true) (a x : Nat) (bs : List Byte) :
    (m.writeN a bs).read x = if a ≤ x then (bs[x - a]?).getD (m.read x) else m.read x := Memory.read_writeNFrom h a x bs

theorem Memory.read_writeN_outside {m : Memory} (h : m.wf = true) {a x : Nat} {bs : List Byte}
    (hx : x < a ∨ a + bs.length ≤ x) : (m.writeN a bs).read x = m.read x := by
  rw [Memory.read_writeN h]
  by_cases ha : a ≤ x
  · rw [if_pos ha, List.getElem?_eq_none (by omega)]
    rfl
  · rw [if_neg ha]

end Sys2Proof.Machine
end

