-- ==== Sys2Proof/Laws/Operands.lean ====
section
/-!
SUPPORT. What the shared operations over operands do, once each: a scalar, a pair and a triple as they read after a write, the
progress of a unit, a latch-producing result, the checks of the vector fields.
-/
namespace Sys2Proof

/-! ## Masks and lanes -/

theorem bitsBelow_lt (p : Nat → Bool) (n : Nat) : bitsBelow p n < 2 ^ n := by
  induction n with
  | zero => simp [bitsBelow]
  | succ n ih =>
    have h : bitsBelow p (n + 1) = bitsBelow p n + if p n then 2 ^ n else 0 := rfl
    rw [h, Nat.pow_succ]
    split <;> omega

theorem testBit_bitsBelow (p : Nat → Bool) (n i : Nat) : (bitsBelow p n).testBit i = (decide (i < n) && p i) := by
  induction n with
  | zero => simp [bitsBelow]
  | succ n ih =>
    have h : bitsBelow p (n + 1) = bitsBelow p n + if p n then 2 ^ n else 0 := rfl
    rw [h]
    by_cases hp : p n = true
    · rw [if_pos hp, Nat.add_comm, ← Nat.mul_one (2 ^ n), Nat.testBit_two_pow_mul_add _ (bitsBelow_lt p n), ih]
      by_cases hi : i < n
      · simp [hi, Nat.lt_succ_of_lt hi]
      · by_cases he : i = n
        · subst he
          simp [hp]
        · have : ¬ i < n + 1 := by omega
          have hs : Nat.testBit 1 (i - n) = false := by
            rw [Bool.eq_false_iff, ne_eq, Nat.testBit_one_eq_true_iff_self_eq_zero]
            omega
          simp [hi, this, hs]
    · rw [if_neg hp, Nat.add_zero, ih]
      by_cases he : i = n
      · subst he
        simp [hp]
      · have : (i < n + 1) = (i < n) := by
          apply propext
          omega
        simp [this]

@[simp] theorem maskOf_has (p : Nat → Bool) (i : Nat) : (maskOf p).has i = (decide (i < 96) && p i) := by
  unfold maskOf Mask.has
  rw [BitVec.getLsbD_ofNat, testBit_bitsBelow]
  by_cases h : i < 96 <;> simp [h]

theorem Mask.ofWords_toNat (a b c : Word) :
    (Mask.ofWords a b c).toNat = a.toNat + b.toNat * 2 ^ 32 + c.toNat * 2 ^ 64 := by
  have := a.isLt
  have := b.isLt
  have := c.isLt
  unfold Mask.ofWords
  rw [BitVec.toNat_ofNat, Nat.mod_eq_of_lt]
  omega

@[simp] theorem Mask.ofWords_word0 (a b c : Word) : Mask.word (Mask.ofWords a b c) 0 = a := by
  have := a.isLt
  apply BitVec.eq_of_toNat_eq
  unfold Mask.word
  rw [Mask.ofWords_toNat, BitVec.toNat_ofNat]
  omega

@[simp] theorem Mask.ofWords_word1 (a b c : Word) : Mask.word (Mask.ofWords a b c) 1 = b := by
  have := a.isLt
  have := b.isLt
  apply BitVec.eq_of_toNat_eq
  unfold Mask.word
  rw [Mask.ofWords_toNat, BitVec.toNat_ofNat]
  omega

@[simp] theorem Mask.ofWords_word2 (a b c : Word) : Mask.word (Mask.ofWords a b c) 2 = c := by
  have := a.isLt
  have := b.isLt
  have := c.isLt
  apply BitVec.eq_of_toNat_eq
  unfold Mask.word
  rw [Mask.ofWords_toNat, BitVec.toNat_ofNat]
  omega

@[simp] theorem Mask.ofWords_words (m : Mask) : Mask.ofWords (Mask.word m 0) (Mask.word m 1) (Mask.word m 2) = m := by
  have := m.isLt
  apply BitVec.eq_of_toNat_eq
  rw [Mask.ofWords_toNat]
  unfold Mask.word
  simp only [BitVec.toNat_ofNat]
  omega

@[simp] theorem Lanes.gen_at (f : Nat → Word) (i : Nat) : (Lanes.gen f).at i = if i < 96 then f i else 0 := by
  unfold Lanes.at Lanes.gen
  by_cases h : i < 96 <;> simp [h]

@[simp] theorem Lanes.zero_at (i : Nat) : Lanes.zero.at i = 0 := by
  unfold Lanes.at Lanes.zero
  by_cases h : i < 96 <;> simp [h]

@[simp] theorem Lanes.put_at (v : Lanes) (k : Nat) (w : Word) (i : Nat) :
    (v.put k w).at i = if i = k ∧ k < 96 then w else v.at i := by
  unfold Lanes.at Lanes.put
  by_cases hk : k < 96 <;> by_cases hi : i < 96 <;> simp [hk, hi]
  · by_cases h : i = k
    · subst h
      simp
    · simp [h, Vector.getElem_set_ne, Ne.symm h]
  · intro h
    omega

end Sys2Proof

namespace Sys2Proof.Machine

/-! ## Progress -/

@[simp] theorem Ply.advance_pos (p : Ply) (i : Issue) : (p.advance i).pos = p.pos + i.words := rfl
@[simp] theorem Ply.advance_yc (p : Ply) (i : Issue) : (p.advance i).yc = p.yc + BitVec.ofNat 14 i.words := rfl

theorem Ply.setCur_other (p : Ply) (q : Path) : (p.setCur q).path p.other = p.path p.other := by
  unfold Ply.setCur Ply.setPath Ply.path Ply.other
  by_cases h : p.slot = 0
  · simp [h]
  · simp [h, show 1 - p.slot = 0 by omega]

theorem Ply.advance_cur (p : Ply) (i : Issue) : (p.advance i).cur =
    { p.cur with
      pc := pc60 (i.first + BitVec.ofNat 64 (4 * i.words))
      hprio := match i.hprio with
        | some h => some (BitVec.ofNat 2 h.toNat)
        | none => p.cur.hprio } := Ply.setCur_cur ..

theorem Ply.advance_other (p : Ply) (i : Issue) : (p.advance i).path p.other = p.path p.other := Ply.setCur_other ..

/-! ## Scalars -/

@[simp] theorem State.done_ply (s : State) : s.done.ply = s.ply.advance s.issue := rfl
@[simp] theorem State.setS_ply (s : State) (d : BitVec 6) (w : Word) : (s.setS d w).ply = s.ply.putS s.ply.slot d w := rfl

/-- Every scalar after a write (R75, R98). -/
theorem Ply.getS_putS (p : Ply) (k : Nat) (d : BitVec 6) (w : Word) (r : BitVec 6) :
    (p.putS k d w).getS k r =
      if r = d ∧ d ≠ 0 then
        if 60 ≤ d.toNat ∧ d.toNat ≤ 62 then w &&& Mask.word (p.path k).member (d.toNat - 60) else w
      else p.getS k r := by
  unfold Ply.putS
  by_cases hd : d = 0#6
  · simp [hd]
  · have hd' : (d == 0) = false := beq_eq_false_iff_ne.mpr hd
    simp only [hd', Bool.false_eq_true, if_false]
    by_cases hm : 60 ≤ d.toNat ∧ d.toNat ≤ 62
    · have hmm : (60 ≤ d.toNat && d.toNat ≤ 62) = true := by simpa using hm
      simp only [hm.1, hm.2, decide_true, Bool.and_true, if_true]
      unfold Ply.getS
      by_cases hr0 : r = 0#6
      · subst hr0
        rw [if_neg fun h : 0#6 = d ∧ d ≠ 0 => hd h.1.symm]
        simp
      · have hr' : (r == 0) = false := beq_eq_false_iff_ne.mpr hr0
        simp only [hr', Bool.false_eq_true, if_false]
        by_cases hrm : 60 ≤ r.toNat ∧ r.toNat ≤ 62
        · simp only [hrm.1, hrm.2, decide_true, Bool.and_true, if_true, Ply.setPath_path]
          by_cases hrd : r = d
          · subst hrd
            have : r.toNat - 60 = 0 ∨ r.toNat - 60 = 1 ∨ r.toNat - 60 = 2 := by omega
            rcases this with h | h | h <;> simp [h, hd]
          · have hne : r.toNat ≠ d.toNat := fun h => hrd (BitVec.eq_of_toNat_eq h)
            have : r.toNat - 60 = 0 ∨ r.toNat - 60 = 1 ∨ r.toNat - 60 = 2 := by omega
            rcases this with h | h | h <;> rw [h] <;> simp [hrd] <;> omega
        · have hf : (decide (60 ≤ r.toNat) && decide (r.toNat ≤ 62)) = false := by
            simpa [Bool.and_eq_false_iff, Nat.not_le] using fun h => Nat.not_le.mp fun h2 => hrm ⟨h, h2⟩
          have hrd : r ≠ d := fun h => hrm (h ▸ hm)
          simp [hf, hrd]
    · have hf : (decide (60 ≤ d.toNat) && decide (d.toNat ≤ 62)) = false := by
        simpa [Bool.and_eq_false_iff, Nat.not_le] using fun h => Nat.not_le.mp fun h2 => hm ⟨h, h2⟩
      simp only [hf, Bool.false_eq_true, if_false]
      unfold Ply.getS
      by_cases hr0 : r = 0#6
      · subst hr0
        rw [if_neg fun h : 0#6 = d ∧ d ≠ 0 => hd h.1.symm]
        simp
      · have hr' : (r == 0) = false := beq_eq_false_iff_ne.mpr hr0
        simp only [hr', Bool.false_eq_true, if_false]
        by_cases hrm : 60 ≤ r.toNat ∧ r.toNat ≤ 62
        · have hrd : r ≠ d := fun h => hm (h ▸ hrm)
          simp only [hrm.1, hrm.2, decide_true, Bool.and_true, if_true]
          simp only [hrd, false_and, if_false]
          rfl
        · have hf2 : (decide (60 ≤ r.toNat) && decide (r.toNat ≤ 62)) = false := by
            simpa [Bool.and_eq_false_iff, Nat.not_le] using fun h => Nat.not_le.mp fun h2 => hrm ⟨h, h2⟩
          simp only [hf2, Bool.false_eq_true, if_false]
          by_cases hrd : r = d
          · subst hrd
            simp [hd, hm, show r.toNat < 64 from r.isLt]
          · have hne : d.toNat ≠ r.toNat := fun h => hrd (BitVec.eq_of_toNat_eq h.symm)
            simp [hrd, hne]

theorem State.setS_S (s : State) (d : BitVec 6) (w : Word) (r : BitVec 6) : (s.setS d w).S r = s.afterWrite d w r := by
  unfold State.S State.afterWrite State.path Ply.cur
  rw [State.setS_ply, Ply.putS_slot, Ply.getS_putS]
  rfl

/-- A write to a scalar touches of the paths only the activity of the one that issues. -/
theorem Ply.putS_path (p : Ply) (k : Nat) (d : BitVec 6) (w : Word) :
    (p.putS k d w).path k = { p.path k with active := ((p.putS k d w).path k).active } := by
  unfold Ply.putS
  by_cases hd : (d == 0) = true
  · rw [if_pos hd]
  · by_cases hm : (decide (60 ≤ d.toNat) && decide (d.toNat ≤ 62)) = true
    · rw [if_neg hd, if_pos hm]
      simp
    · rw [if_neg hd, if_neg hm]
      rfl

theorem Ply.putS_other (p : Ply) (d : BitVec 6) (w : Word) : (p.putS p.slot d w).path p.other = p.path p.other := by
  unfold Ply.putS
  by_cases hd : (d == 0) = true
  · rw [if_pos hd]
  · by_cases hm : (decide (60 ≤ d.toNat) && decide (d.toNat ≤ 62)) = true
    · rw [if_neg hd, if_pos hm]
      exact Ply.setCur_other p _
    · rw [if_neg hd, if_neg hm]
      rfl

/-- A write to a scalar changes of the ply only its scalars and its paths. -/
theorem Ply.putS_frame (p : Ply) (k : Nat) (d : BitVec 6) (w : Word) :
    p.putS k d w = { p with
      sregs := (p.putS k d w).sregs, path0 := (p.putS k d w).path0, path1 := (p.putS k d w).path1 } := by
  unfold Ply.putS
  by_cases hd : (d == 0) = true
  · rw [if_pos hd]
  · by_cases hm : (decide (60 ≤ d.toNat) && decide (d.toNat ≤ 62)) = true
    · rw [if_neg hd, if_pos hm]
      unfold Ply.setPath
      by_cases hk : (k == 0) = true <;> simp [hk]
    · rw [if_neg hd, if_neg hm]

/-- The end of a unit changes of the ply only the issuing path, the run position and %yc. -/
theorem Ply.advance_frame (p : Ply) (i : Issue) :
    p.advance i = { p with
      path0 := (p.advance i).path0, path1 := (p.advance i).path1, pos := p.pos + i.words
      yc := p.yc + BitVec.ofNat 14 i.words } := by
  unfold Ply.advance Ply.setCur Ply.setPath
  by_cases hk : (p.slot == 0) = true <;> simp [hk]

theorem SameMemory.of_eq {s t : State} (hm : t.mem = s.mem) (hs : t.stores = s.stores) (hn : t.ptime = s.ptime)
    (hc : t.cores = s.cores) : SameMemory s t := by
  constructor
  · intro core pa
    unfold State.seen State.now
    rw [hm, hs, hn]
  · intro core sp a
    unfold State.localByte State.core
    rw [hc]

/-- A state that differs in the issuing ply alone. -/
theorem OnlyPly.of_ply (s : State) (p : Ply) : OnlyPly s { s with ply := p } :=
  ⟨rfl, SameMemory.of_eq rfl rfl rfl rfl⟩

theorem Ply.getS_advance (p : Ply) (i : Issue) (r : BitVec 6) : (p.advance i).getS p.slot r = p.getS p.slot r := by
  have h : ((p.advance i).path p.slot).active = (p.path p.slot).active := by
    have := Ply.advance_cur p i
    unfold Ply.cur at this
    rw [Ply.advance_slot] at this
    rw [this]
  unfold Ply.getS
  rw [h, Ply.advance_sregs]

theorem State.done_S (s : State) (r : BitVec 6) : s.done.S r = s.S r := by
  unfold State.S
  rw [State.done_ply, Ply.advance_slot]
  exact Ply.getS_advance ..

/-- A unit whose effect leaves the ply p, with the scalars and the issuing path's activity free, and completes. -/
theorem ScalarFrame.of_ply {s : State} {p : Ply} (hslot : p.slot = s.ply.slot)
    (hp : p = { s.ply with sregs := p.sregs, path0 := p.path0, path1 := p.path1 })
    (hcur : p.path s.ply.slot = { s.path with active := (p.path s.ply.slot).active })
    (hoth : p.path s.ply.other = s.ply.path s.ply.other) : ScalarFrame s (State.done { s with ply := p }) := by
  have hother : p.other = s.ply.other := by
    unfold Ply.other
    rw [hslot]
  have hc : p.cur = { s.path with active := p.cur.active } := by
    unfold Ply.cur
    rw [hslot]
    exact hcur
  refine ⟨⟨rfl, SameMemory.of_eq rfl rfl rfl rfl⟩, ⟨?_, ?_, ?_, ?_⟩, ⟨?_, ?_⟩, ?_⟩
  · exact (Ply.advance_slot ..).trans hslot
  · exact Ply.advance_cur_pc ..
  · have : p.pos = s.ply.pos := by rw [hp]
    exact congrArg (· + s.issue.words) this
  · have : p.yc = s.ply.yc := by rw [hp]
    exact congrArg (· + BitVec.ofNat 14 s.issue.words) this
  · have h : (State.done { s with ply := p }).path = (p.advance s.issue).cur := rfl
    rw [h, Ply.advance_cur, hc]
  · have h1 : (State.done { s with ply := p }).ply.other = s.ply.other := by
      unfold Ply.other
      rw [State.done_ply, Ply.advance_slot]
      exact congrArg (1 - ·) hslot
    rw [h1, ← hother]
    exact (Ply.advance_other p s.issue).trans (hother ▸ hoth)
  · have h : (State.done { s with ply := p }).ply = p.advance s.issue := rfl
    rw [h, Ply.advance_frame]
    generalize (p.advance s.issue).path0 = a
    generalize (p.advance s.issue).path1 = b
    rw [hp]

/-- A scalar result is written, the unit completes, and nothing else changes (R118, R119). -/
theorem State.sresult_writes (s : State) (d : BitVec 6) (w : Word) : WritesScalar s (s.sresult d w) d w := by
  refine ⟨ScalarFrame.of_ply (p := s.ply.putS s.ply.slot d w) (Ply.putS_slot ..) (Ply.putS_frame ..) (Ply.putS_path ..)
    (Ply.putS_other ..), fun r => ?_⟩
  exact (State.done_S ..).trans (State.setS_S ..)

/-- A pair result is written low word first (R123). -/
theorem State.sresult64_writes (s : State) (d : BitVec 6) (x : DWord) : WritesPair s (s.sresult64 d x) d x := by
  have hs : (s.setS d (loWord x)).ply.slot = s.ply.slot := Ply.putS_slot ..
  have hp : (s.setS64 d x).ply = (s.ply.putS s.ply.slot d (loWord x)).putS s.ply.slot (d + 1) (hiWord x) := by
    unfold State.setS64
    rw [State.setS_ply, hs, State.setS_ply]
  have hlo : loWord x = x.extractLsb' 0 32 := by
    apply BitVec.eq_of_getLsbD_eq
    intro i hi
    simp [loWord, hi]
  have hhi : hiWord x = x.extractLsb' 32 32 := by
    apply BitVec.eq_of_getLsbD_eq
    intro i hi
    simp [hiWord, hi]
  refine ⟨?_, fun r => ?_⟩
  · have := ScalarFrame.of_ply (s := s) (p := (s.setS64 d x).ply) (by rw [hp, Ply.putS_slot, Ply.putS_slot])
      (by
        rw [hp, Ply.putS_frame]
        generalize ((s.ply.putS s.ply.slot d (loWord x)).putS s.ply.slot (d + 1) (hiWord x)).sregs = a
        generalize ((s.ply.putS s.ply.slot d (loWord x)).putS s.ply.slot (d + 1) (hiWord x)).path0 = b
        generalize ((s.ply.putS s.ply.slot d (loWord x)).putS s.ply.slot (d + 1) (hiWord x)).path1 = c
        rw [Ply.putS_frame])
      (by rw [hp, Ply.putS_path, Ply.putS_path]; rfl)
      (by
        rw [hp]
        have h1 := Ply.putS_other (s.ply.putS s.ply.slot d (loWord x)) (d + 1) (hiWord x)
        unfold Ply.other at h1 ⊢
        rw [Ply.putS_slot] at h1
        rw [h1]
        exact Ply.putS_other ..)
    exact this
  · have h : (s.sresult64 d x).S r = (s.setS64 d x).S r := State.done_S ..
    have hm : (s.setS d (loWord x)).path.member = s.path.member := by
      have h1 : (s.setS d (loWord x)).path = (s.ply.putS s.ply.slot d (loWord x)).path s.ply.slot := by
        unfold State.path Ply.cur
        rw [hs]
        rfl
      rw [h1, Ply.putS_path]
      rfl
    rw [h]
    unfold State.setS64
    rw [State.setS_S, ← hlo, ← hhi]
    have hsame : (s.setS d (loWord x)).afterWrite (d + 1) (hiWord x) r =
        if r = d + 1 ∧ d + 1 ≠ 0 then
          if 60 ≤ (d + 1).toNat ∧ (d + 1).toNat ≤ 62 then hiWord x &&& Mask.word s.path.member ((d + 1).toNat - 60)
          else hiWord x
        else s.afterWrite d (loWord x) r := by
      unfold State.afterWrite
      rw [hm, State.setS_S]
      rfl
    rw [hsame]
    by_cases hr : r = d + 1
    · have hne : r ≠ d := by
        rw [hr]
        intro h
        have h1 := congrArg BitVec.toNat h
        have h2 := d.isLt
        simp only [BitVec.toNat_add, BitVec.reduceToNat] at h1
        omega
      rw [if_pos hr]
      unfold State.afterWrite
      rw [if_neg fun h : r = d ∧ d ≠ 0 => hne h.1]
    · rw [if_neg hr, if_neg fun h : r = d + 1 ∧ d + 1 ≠ 0 => hr h.1]

end Sys2Proof.Machine
end

