-- ==== Sys2Proof/Laws/Vectors.lean ====
section
/-!
SUPPORT. What the shared operations over vector registers do: the checks of the fields of a unit, a result that enters the
latches and a register, the flags of a float result.
-/
namespace Sys2Proof.Machine

/-- Fields that can be read pass the checks of R92 (R76, R95, R96). -/
theorem State.checkV_ready {s : State} {codes : List (BitVec 7)} (h : VectorReady s codes) (k : State) :
    s.checkV codes k = k := by
  have h1 : codes.any s.ply.outOfRange = false := by
    rw [List.any_eq_false]
    intro c hc
    simp only [Ply.outOfRange, Ply.vcount, Bool.and_eq_true, decide_eq_true_eq]
    rintro ⟨h1, h2⟩
    have := (h c hc).1 h1
    have h3 := of_decide_eq_true h2
    omega
  have h2 : codes.any s.ply.emptyLatch = false := by
    rw [List.any_eq_false]
    intro c hc
    simp only [Ply.emptyLatch, Bool.and_eq_true, decide_eq_true_eq]
    rintro ⟨⟨h1, h2⟩, h3⟩
    have := (h c hc).2 h1 h2
    omega
  unfold State.checkV
  rw [h1, h2]
  rfl

/-- A field that cannot be read raises REGRANGE, and an empty latch LATCH (R88, R92). -/
theorem State.checkV_regrange {s : State} {codes : List (BitVec 7)} (h : codes.any s.ply.outOfRange = true) (k : State) :
    s.checkV codes k = s.raiseRegrange := by
  unfold State.checkV
  rw [if_pos h]

theorem State.checkV_latch {s : State} {codes : List (BitVec 7)} (h : codes.any s.ply.outOfRange = false)
    (hl : codes.any s.ply.emptyLatch = true) (k : State) : s.checkV codes k = s.raiseLatch := by
  unfold State.checkV
  rw [if_neg (by simp [h]), if_pos hl]

@[simp] theorem State.merged_at (s : State) (d : BitVec 7) (f : Nat → Word) (i : Nat) :
    (s.merged d f).at i = if i < 96 then (if s.active.has i then f i else (s.V d).at i) else 0 := by
  unfold State.merged
  exact Lanes.gen_at ..

/-- Every vector register after a result has entered the latches and V[d] (R76, R77, R96). -/
theorem Ply.getV_produce {p : Ply} {d : BitVec 7} (hd : d.toNat ≤ 119 → d.toNat < p.vregs.length) (nw : BitVec 1) (v : Lanes)
    {r : BitVec 7} (hr : r.toNat ≤ 119) : (p.produce d nw v).getV r = if r = d ∧ nw = 0 then v else p.getV r := by
  have h1 : ∀ x : BitVec 1, x = 0 ∨ x = 1 := by decide
  rcases h1 nw with h | h
  · subst h
    unfold Ply.produce
    have : ((0 : BitVec 1) == 1) = false := rfl
    simp only [this, Bool.false_eq_true, if_false]
    unfold Ply.putV
    by_cases hd2 : d.toNat ≤ 119
    · rw [if_pos hd2]
      unfold Ply.getV listSet
      simp only [hr, if_true]
      by_cases hrd : r = d
      · subst hrd
        simp [hd hd2]
      · have : d.toNat ≠ r.toNat := fun h => hrd (BitVec.eq_of_toNat_eq h.symm)
        simp [hrd, List.getElem?_set_ne this]
    · rw [if_neg hd2]
      have hrd : r ≠ d := fun h => hd2 (h ▸ hr)
      unfold Ply.getV
      simp [hr, hrd]
  · subst h
    unfold Ply.produce Ply.getV
    simp [hr]

theorem Ply.latches_produce (p : Ply) (d : BitVec 7) (nw : BitVec 1) (v : Lanes) :
    (p.produce d nw v).latches = (v :: p.latches).take 4 := by
  unfold Ply.produce
  dsimp only
  split
  · rfl
  · unfold Ply.putV
    split <;> rfl

theorem Ply.produce_frame (p : Ply) (d : BitVec 7) (nw : BitVec 1) (v : Lanes) :
    p.produce d nw v = { p with vregs := (p.produce d nw v).vregs, latches := (p.produce d nw v).latches } := by
  unfold Ply.produce
  dsimp only
  split
  · rfl
  · unfold Ply.putV
    split <;> rfl

/-- The latches read as codes 120 to 123 (R76, R96). -/
theorem Ply.getV_latch (p : Ply) {k : Nat} (hk : k < 4) :
    p.getV (BitVec.ofNat 7 (120 + k)) = (p.latches[k]?).getD Lanes.zero := by
  have hm : (BitVec.ofNat 7 (120 + k)).toNat = 120 + k := by
    rw [BitVec.toNat_ofNat]
    omega
  unfold Ply.getV
  simp only [hm]
  rw [if_neg (by omega), if_pos (by omega), Nat.add_sub_cancel_left]

theorem Ply.advance_getV (p : Ply) (i : Issue) (c : BitVec 7) : (p.advance i).getV c = p.getV c := by
  unfold Ply.getV
  rw [Ply.advance_vregs, Ply.advance_latches, Ply.advance_occ]

/-- The frame of a unit that leaves a ply with new vector registers, latches and flags, and completes. -/
theorem VectorFrame.of_ply {s : State} {p : Ply}
    (hp : p = { s.ply with vregs := p.vregs, latches := p.latches, fflags := p.fflags }) :
    VectorFrame s (State.done { s with ply := p }) := by
  have hslot : p.slot = s.ply.slot := by rw [hp]
  have hcur : p.cur = s.path := by
    rw [hp]
    rfl
  have hother : p.other = s.ply.other := by
    rw [hp]
    rfl
  have hs : (State.done { s with ply := p }).path = (p.advance s.issue).cur := rfl
  refine ⟨⟨rfl, SameMemory.of_eq rfl rfl rfl rfl⟩, ⟨?_, ?_, ?_, ?_⟩, ⟨?_, ?_⟩, ?_, ?_⟩
  · exact (Ply.advance_slot ..).trans hslot
  · exact Ply.advance_cur_pc ..
  · have : p.pos = s.ply.pos := by rw [hp]
    exact congrArg (· + s.issue.words) this
  · have : p.yc = s.ply.yc := by rw [hp]
    exact congrArg (· + BitVec.ofNat 14 s.issue.words) this
  · rw [hs, Ply.advance_cur, hcur]
  · have h1 : (State.done { s with ply := p }).ply.other = p.other := by
      unfold Ply.other
      rw [State.done_ply, Ply.advance_slot]
    rw [h1]
    refine (Ply.advance_other p s.issue).trans ?_
    rw [hp]
    rfl
  · rw [hs, Ply.advance_cur, hcur]
  · have h : (State.done { s with ply := p }).ply = p.advance s.issue := rfl
    rw [h, Ply.advance_frame]
    generalize (p.advance s.issue).path0 = a
    generalize (p.advance s.issue).path1 = b
    rw [hp]

/-- A latch-producing result with flags g enters the latches and V[d], and the unit completes (R77, R117, R138). -/
theorem State.produce_writes (s : State) {d : BitVec 7} (hd : d.toNat ≤ 119 → d.toNat < s.ply.vregs.length) (nw : BitVec 1)
    (f : Nat → Word) (g : BitVec 6) :
    WritesVector s (State.done { s with ply := { s.ply.produce d nw (s.merged d f) with fflags := g } }) d nw f := by
  have hV : ∀ c, (State.done { s with ply := { s.ply.produce d nw (s.merged d f) with fflags := g } }).V c =
      (s.ply.produce d nw (s.merged d f)).getV c := fun c => Ply.advance_getV ..
  have hl := Ply.latches_produce s.ply d nw (s.merged d f)
  refine ⟨VectorFrame.of_ply ?_, ?_, ?_, ?_, ?_⟩
  · rw [Ply.produce_frame]
  · intro i hi
    rw [hV]
    have := Ply.getV_latch (s.ply.produce d nw (s.merged d f)) (k := 0) (by decide)
    rw [show (120 : BitVec 7) = BitVec.ofNat 7 (120 + 0) from rfl, this, hl]
    simp [hi]
  · intro k hk
    rw [hV, show 121 + k = 120 + (k + 1) by omega, Ply.getV_latch _ (by omega), hl]
    unfold State.V
    rw [Ply.getV_latch _ (by omega), List.getElem?_take_of_lt (by omega), List.getElem?_cons_succ]
  · have : (State.done { s with ply := { s.ply.produce d nw (s.merged d f) with fflags := g } }).ply.latches =
        (s.ply.produce d nw (s.merged d f)).latches := Ply.advance_latches ..
    rw [this, hl, List.length_take, List.length_cons]
  · intro r hr i hi
    rw [hV, Ply.getV_produce hd nw _ hr]
    by_cases h : r = d ∧ nw = 0
    · rw [if_pos h, if_pos h]
      simp [hi]
    · rw [if_neg h, if_neg h]
      rfl

theorem State.vresult_writes (s : State) {d : BitVec 7} (hd : d.toNat ≤ 119 → d.toNat < s.ply.vregs.length) (nw : BitVec 1)
    (f : Nat → Word) : WritesVector s (s.vresult d nw f) d nw f := by
  have h : s.vresult d nw f =
      State.done { s with ply := { s.ply.produce d nw (s.merged d f) with fflags := s.ply.fflags } } := by
    unfold State.vresult
    rw [← Ply.produce_fflags s.ply d nw (s.merged d f)]
  rw [h]
  exact State.produce_writes s hd nw f _

@[simp] theorem State.vresult_fflags (s : State) (d : BitVec 7) (nw : BitVec 1) (f : Nat → Word) :
    (s.vresult d nw f).ply.fflags = s.ply.fflags := by
  unfold State.vresult
  rw [State.done_ply, Ply.advance_fflags]
  exact Ply.produce_fflags ..

/-- A bit of flags ORed over the lanes below n. -/
theorem getLsbD_foldl_or (g : Nat → BitVec 6) (k n : Nat) (a : BitVec 6) :
    ((List.range n).foldl (fun a i => a ||| g i) a).getLsbD k = true ↔
      a.getLsbD k = true ∨ ∃ i, i < n ∧ (g i).getLsbD k = true := by
  induction n with
  | zero => simp
  | succ n ih =>
    rw [List.range_succ, List.foldl_append]
    simp only [List.foldl_cons, List.foldl_nil, BitVec.getLsbD_or, Bool.or_eq_true, ih]
    constructor
    · rintro ((h | ⟨i, hi, h⟩) | h)
      · exact .inl h
      · exact .inr ⟨i, by omega, h⟩
      · exact .inr ⟨n, by omega, h⟩
    · rintro (h | ⟨i, hi, h⟩)
      · exact .inl (.inl h)
      · by_cases he : i = n
        · exact .inr (he ▸ h)
        · exact .inl (.inr ⟨i, by omega, h⟩)

end Sys2Proof.Machine
end

