-- ==== Sys2Proof/Laws/Traps.lean ====
section
/-!
SUPPORT. What taking a trap does (R165), what the end of a unit does around a decided transfer (R158), and the checks that
raise REGRANGE, LATCH and PRIV.
-/
namespace Sys2Proof.Machine

theorem Ply.setCur_frame (p : Ply) (q : Path) :
    p.setCur q = { p with path0 := (p.setCur q).path0, path1 := (p.setCur q).path1 } := by
  unfold Ply.setCur Ply.setPath
  by_cases h : (p.slot == 0) = true <;> simp [h]

theorem Ply.cur_eq (p : Ply) : p.cur = p.path p.slot := rfl

/-- Delivery writes the trap registers and starts the handler (R165). -/
theorem Ply.deliver_enters {s t : State} (c : Cause) (now : Nat) (first : DWord) (words : Nat)
    (ht : t.ply = { s.ply.deliver first words c with runSince := now }) :
    EntersHandler s t (if c.code = 6 then first + BitVec.ofNat 64 (4 * words) else first)
      (if c.code = 6 then s.ply.pos + words else s.ply.pos) c.code c.sub c.detail c.addr c.lane := by
  have hb : (c.code == 6) = decide (c.code = 6) := rfl
  have hslot : t.ply.slot = s.ply.slot := by
    rw [ht]
    exact Ply.deliver_slot s.ply first words c
  have hcur : t.path = { s.path with pc := s.ply.tvec, wait := .none, waitWords := 0, waitPrio := none, transfer := .none } := by
    unfold State.path Ply.cur
    rw [hslot, ht]
    exact Ply.setPath_path ..
  refine ⟨?_, ?_, ?_, ?_, ?_, ?_, ?_, ?_, ?_, ?_, hcur, ?_, ?_⟩
  · rw [ht]
    simp [Ply.deliver, hb]
  · rw [ht]
    simp [Ply.deliver, hb]
  all_goals try (rw [ht]; rfl)
  · have ho : t.ply.other = s.ply.other := by
      unfold Ply.other
      rw [hslot]
    rw [ho, ht]
    exact Ply.setCur_other s.ply _
  · rw [ht]
    unfold Ply.deliver
    dsimp only
    rw [Ply.setCur_frame]

/-- A cause without a batch record is delivered at user privilege and changes nothing outside the ply. -/
theorem State.raise_traps {s : State} {c : Cause} (hu : s.ply.supervisor = false) (hg : c.given = true)
    (hp : c.isPage = false) (h21 : c.code ≠ 0x21) (faults : List Cause) :
    TakesTrap s (s.raise c faults) (if c.code = 6 then s.issue.first + BitVec.ofNat 64 (4 * s.issue.words) else s.issue.first)
      (if c.code = 6 then s.ply.pos + s.issue.words else s.ply.pos) c.code c.sub c.detail c.addr c.lane := by
  have h : s.raise c faults =
      { s with ply := { s.ply.deliver s.issue.first s.issue.words c with runSince := s.now } } := by
    unfold State.raise State.raiseAt
    simp [hu, hg, hp, h21]
  rw [h]
  exact ⟨OnlyPly.of_ply .., Ply.deliver_enters c s.now _ _ rfl⟩

/-- A cause whose %eaddr is the instruction word (R169). -/
theorem State.raise_word {s : State} (hu : s.ply.supervisor = false) (code sub : Nat) (h6 : code ≠ 6) (hA : code ≠ 0x0A)
    (hB : code ≠ 0x0B) (h21 : code ≠ 0x21) (faults : List Cause) : TrapsWithWord s (s.raise (cause code sub s.theWord) faults) code sub := by
  have hp : (cause code sub s.theWord).isPage = false := by
    have h1 : (cause code sub s.theWord).code = code := rfl
    unfold Cause.isPage
    rw [h1]
    simp [hA, hB]
  have := State.raise_traps (c := cause code sub s.theWord) hu rfl hp h21 faults
  have h1 : (cause code sub s.theWord).code = code := rfl
  rw [h1, if_neg h6, if_neg h6] at this
  exact this

/-- A unit that leaves the issuing path with a decided transfer, and completes (R158). -/
theorem Decides.of_setCur (s : State) (tr : Transfer) :
    Decides s (State.done { s with ply := s.ply.setCur { s.path with transfer := tr } }) tr := by
  have hs : (State.done { s with ply := s.ply.setCur { s.path with transfer := tr } }).ply =
      (s.ply.setCur { s.path with transfer := tr }).advance s.issue := rfl
  have hslot : ((s.ply.setCur { s.path with transfer := tr }).advance s.issue).slot = s.ply.slot := by simp
  refine ⟨OnlyPly.of_ply .., ⟨?_, ?_, ?_, ?_⟩, ?_, ?_, ?_⟩
  · rw [hs, hslot]
  · exact Ply.advance_cur_pc ..
  · rw [hs, Ply.advance_pos, Ply.setCur_pos]
  · rw [hs, Ply.advance_yc, Ply.setCur_yc]
  · have h : (State.done { s with ply := s.ply.setCur { s.path with transfer := tr } }).path =
        ((s.ply.setCur { s.path with transfer := tr }).advance s.issue).cur := rfl
    rw [h, Ply.advance_cur, Ply.setCur_cur]
  · rw [hs]
    have ho : ((s.ply.setCur { s.path with transfer := tr }).advance s.issue).other = s.ply.other := by
      unfold Ply.other
      rw [hslot]
    have ho2 : (s.ply.setCur { s.path with transfer := tr }).other = s.ply.other := by
      unfold Ply.other
      rw [Ply.setCur_slot]
    rw [ho, ← ho2, Ply.advance_other, ho2]
    exact Ply.setCur_other ..
  · rw [hs, Ply.advance_frame, Ply.setCur_frame]

end Sys2Proof.Machine
end

