-- ==== Sys2Proof/Tests/Slice0.lean ====
section
/-!
SUPPORT. Tests: the encodings of spec/03 word by word, the refusals of WellFormed, worked examples of spec/, and for every
obligation with hypotheses a concrete state and operands that meet them.
-/
open Sys2Proof Sys2Proof.Machine Sys2Proof.Claim

namespace Sys2Proof.Demo

/-! ## Small states -/

/-- A ply of 96 tasks in its first run, which stands at 0x10000; the first 256 GiB map to themselves (log 18). -/
def base : State :=
  { State.reset with
    ply := Ply.placed' 1
    mem := Memory.place [] 0x9C000000
    tenants := [(0, { Tenant.reset with ptroot := 0x4000 })]
    issue := { Issue.empty with first := 0x10000, words := 1, word := 0x9C000000 }
    seq := 1 }
/-- The state with the issuing ply changed. -/
def State.withPly (s : Machine.State) (f : Ply → Ply) : Machine.State := { s with ply := f s.ply }
/-- Scalars of the first path take values. -/
def State.scalars (s : Machine.State) (l : List (BitVec 6 × Word)) : Machine.State :=
  l.foldl (fun s x => { s with ply := s.ply.putS s.ply.slot x.1 x.2 }) s
/-- The first path changed. -/
def State.onPath (s : Machine.State) (f : Path → Path) : Machine.State := State.withPly s fun p => { p with path0 := f p.path0 }
/-- One occupied, active lane. -/
def solo : Machine.State := State.withPly base fun p => { p with occ := 1, path0 := { p.path0 with member := 1, active := 1 } }
/-- No active lane. -/
def still : Machine.State := State.withPly base fun p => { p with path0 := { p.path0 with active := 0 } }
/-- Supervisor privilege. -/
def super : Machine.State := State.withPly base fun p => { p with supervisor := true }
/-- The first path waits. -/
def waiting (w : Wait) (s : Machine.State := base) : Machine.State :=
  State.onPath s fun q => { q with wait := w, waitWords := 1 }

end Sys2Proof.Demo

namespace Sys2Proof.Tests

-- one theorem after the other: checking them side by side takes a thread for each
set_option Elab.async false
open Sys2Proof.Demo

/-! ## Witnesses: integer, vector, float, lanes -/

def oneLatch : Machine.State := State.withPly base fun p => { p with latches := [Lanes.zero] }
def eight : Machine.State := State.withPly base fun p => { p with vregs := p.vregs.take 8 }

theorem ready_of (s : Machine.State) (l : List (BitVec 7)) (h : (l.all fun c =>
    (!decide (c.toNat ≤ 119) || decide (c.toNat < s.ply.vregs.length)) &&
    (!(decide (120 ≤ c.toNat) && decide (c.toNat ≤ 123)) || decide (c.toNat - 120 < s.ply.latches.length))) = true) :
    VectorReady s l := by
  intro c hc
  have := List.all_eq_true.mp h c hc
  simp at this
  omega

theorem witness_VectorIntegerResults :
    VectorReady base [119, 0, 126] ∧ VectorReady base [124, 119] ∧ VectorReady oneLatch [0, 120, 120] ∧
    (eight.ply.supervisor = false ∧ ∃ c ∈ [(8 : BitVec 7), 0, 0], c.toNat ≤ 119 ∧ eight.ply.vregs.length ≤ c.toNat) ∧
    (∀ c ∈ [(0 : BitVec 7), 121, 1], c.toNat ≤ 119 → c.toNat < oneLatch.ply.vregs.length) ∧
    (∃ c ∈ [(121 : BitVec 7), 1], 120 ≤ c.toNat ∧ c.toNat ≤ 123 ∧ oneLatch.ply.latches.length ≤ c.toNat - 120) := by
  refine ⟨ready_of _ _ ?_, ready_of _ _ ?_, ready_of _ _ ?_, ?_, ?_, ?_⟩ <;> decide +kernel
theorem witness_VectorImmediateResults : VectorReady base [119, 0] ∧ VectorReady base [124] := by
  refine ⟨ready_of _ _ ?_, ready_of _ _ ?_⟩ <;> decide +kernel
theorem witness_MoveResults : VectorReady base [0] ∧ VectorReady oneLatch [120] := by
  refine ⟨ready_of _ _ ?_, ready_of _ _ ?_⟩ <;> decide +kernel
theorem witness_FloatResults : VectorReady base [119, 0, 126] ∧ VectorReady oneLatch [1, 120] := by
  refine ⟨ready_of _ _ ?_, ready_of _ _ ?_⟩ <;> decide +kernel
theorem witness_ConversionResults :
    ((19 : BitVec 5).toNat < 20 ∧ VectorReady base [119, 0]) ∧ (20 ≤ (20 : BitVec 5).toNat ∧ VectorReady base [0, 119]) := by
  refine ⟨⟨?_, ready_of _ _ ?_⟩, ?_, ready_of _ _ ?_⟩ <;> decide +kernel
theorem witness_RoundingModes : 0 < 1 := by decide
theorem witness_LaneResults : ((95 : BitVec 7).toNat ≤ 95 ∧ VectorReady base [119, 0]) ∧ VectorReady base [124, 0, 126] := by
  refine ⟨⟨?_, ready_of _ _ ?_⟩, ready_of _ _ ?_⟩ <;> decide +kernel

/-! ## Witnesses: control, traps, special registers -/

def backwards : Machine.State := { base with issue := { base.issue with first := 0 } }
def targets : Machine.State := State.scalars base [(4, 0x20000), (6, 0x20002), (9, 0xF0000000)]
theorem witness_TransferResults :
    (canonical (relativeTarget base (0xFFFF : BitVec 16))) ∧ ¬canonical (relativeTarget backwards (0xFFFF : BitVec 16)) ∧
    backwards.ply.supervisor = false ∧ canonical (relativeTarget base (5 : BitVec 26)) ∧
    (canonical (targets.S64 4) ∧ (targets.S64 4).toNat % 4 = 0) ∧
    (canonical (targets.S64 6) ∧ (targets.S64 6).toNat % 4 ≠ 0 ∧ targets.ply.supervisor = false) ∧ ¬canonical (targets.S64 8) := by
  unfold canonical; decide +kernel

def split : Machine.State := State.scalars base [(20, 1)]
def full : Machine.State := State.withPly split fun p => { p with
  path1 := { p.path0 with member := 1 }, dstack := List.replicate 64 ⟨0, []⟩ }
theorem witness_DivergenceDecisions :
    (base.triple 20 &&& base.path.active = 0) ∧
    (base.triple 56 &&& base.path.active ≠ 0 ∧ canonical (wordAddress base + BitVec.ofInt 64 (4 * (5 : BitVec 10).toInt)) ∧
      base.path.member &&& ~~~(base.triple 56 &&& base.path.active) = 0) ∧
    (split.triple 20 &&& split.path.active ≠ 0 ∧ canonical (wordAddress split + BitVec.ofInt 64 (4 * (5 : BitVec 10).toInt)) ∧
      split.path.member &&& ~~~(split.triple 20 &&& split.path.active) ≠ 0 ∧ (split.ply.path split.ply.other).member = 0) ∧
    (backwards.triple 56 &&& backwards.path.active ≠ 0 ∧
      ¬canonical (wordAddress backwards + BitVec.ofInt 64 (4 * (0x3FF : BitVec 10).toInt)) ∧ backwards.ply.supervisor = false) ∧
    (full.triple 20 &&& full.path.active ≠ 0 ∧ canonical (wordAddress full + BitVec.ofInt 64 (4 * (5 : BitVec 10).toInt)) ∧
      full.path.member &&& ~~~(full.triple 20 &&& full.path.active) ≠ 0 ∧
      (full.ply.path full.ply.other).member ≠ 0 ∧ full.ply.dstack.length = 64 ∧ full.ply.supervisor = false) := by
  unfold canonical; decide +kernel

def jumping (tr : Transfer) (parked : Bool := false) : Machine.State :=
  State.withPly base fun p => { p with
    path0 := { p.path0 with transfer := tr, frame := some 7 }
    frames := [⟨7, 0x30000, Mask.full, parked, 1, 1, none⟩] }
def frameless : Machine.State := State.onPath base fun q => { q with transfer := .join }
/-- The split of lane 0, with a path in the other slot or not; one record is stacked. -/
def splitting (busy : Bool) : Machine.State :=
  State.withPly (jumping (.split 1 0x20000 0x30000)) fun p => { p with
    path1 := if busy then { p.path0 with transfer := .none } else p.path1
    dstack := [⟨0x100000, List.replicate 12 1⟩] }
theorem witness_EndOfRun :
    (¬codesInRange eight [8, 124, 124] ∧ eight.ply.supervisor = false) ∧ codesInRange base [119, 120, 124] ∧
    base.path.transfer = .none ∧ (jumping (.goto 0x20000)).path.transfer = .goto 0x20000 ∧
    (∀ b, (splitting b).path.transfer = .split 1 0x20000 0x30000 ∧ (splitting b).ply.slot ≤ 1 ∧
      (splitting b).ply.frames.length ≤ 95 ∧ (((splitting b).ply.path (splitting b).ply.other).member = 0 ↔ b = false)) ∧
    (frameless.path.transfer = .join ∧ frameless.path.frame = none) ∧
    (∀ b, let s := jumping .join b
      let f : Frame := ⟨7, 0x30000, Mask.full, b, 1, 1, none⟩
      s.path.transfer = .join ∧ s.path.frame = some f.index ∧ s.ply.frames.find? (fun g => g.index == f.index) = some f ∧
        f.parked = b) ∧
    -- a record that a free slot takes
    ((splitting false).ply.path 1).member = 0 ∧ (splitting false).ply.dstack = [] ++ [⟨0x100000, List.replicate 12 1⟩] := by
  unfold codesInRange; refine ⟨⟨?_, ?_⟩, ?_, ?_, ?_, ?_, ?_, ?_, ?_, ?_⟩ <;> decide +kernel
theorem witness_TrapsAndReturn : base.ply.supervisor = false ∧ super.ply.supervisor = true := by decide +kernel
theorem witness_SpecialRegisters :
    (reaches base 0xFF ∧ (0xFF : BitVec 12).toNat ∉ [0x000, 0x016, 0x100, 0x104, 0x108, 0x10A, 0x200]) ∧
    (reaches base 0x016 ∧ (2 : BitVec 6) ≠ 0 ∧ (0x016 : BitVec 12).toNat ∈ [0x016, 0x100, 0x104, 0x108, 0x10A]) ∧
    (reaches super 0x1FF ∧ reaches super 0x10A ∧ ¬reaches super 0x200 ∧ ¬reaches base 0x100 ∧ base.ply.supervisor = false) ∧
    (¬reaches base 0x200 ∧ super.ply.supervisor = true) ∧
    ((0x025 : BitVec 12).toNat = 0x025 ∧ ¬(101 % 128 = 0 ∨ 100 < 100 % 128)) ∧
    (base.ply.core < 512 ∧ base.ply.tenant < 16 ∧ base.ply.vregs.length ≤ 120 ∧ base.ply.tiles.length ≤ 8 ∧
      base.ply.dstack.length ≤ 64 ∧ base.ply.slot ≤ 1) := by
  unfold reaches; decide +kernel

/-! ## Witnesses: memory accesses -/

def isOk {α : Type} [DecidableEq α] (e : Except Cause α) (a : α) : Bool :=
  match e with
  | .ok b => b == a
  | .error _ => false
theorem isOk_eq {α : Type} [DecidableEq α] {e : Except Cause α} {a : α} (h : isOk e a = true) : e = .ok a := by
  cases e <;> simp_all [isOk]
theorem reaches_of {s : Machine.State} {acc : Access} {n : Nat} {va : DWord} {lane pa : Nat}
    (h : (decide (va.toNat < 2 ^ 60) && decide (va.toNat % n = 0) && isOk (s.translate s.ply.tenant acc va lane) pa) = true) :
    Reaches s acc n va lane pa := by
  simp only [Bool.and_eq_true, decide_eq_true_eq] at h
  exact ⟨h.1.1, h.1.2, isOk_eq h.2⟩

/-- One lane, and a window of XBUF of 0x1000 bytes; s4:s5 = 0x20000, s6:s7 = 0x40000000000 (not mapped), s8:s9 = 2^60. -/
def loads : Machine.State := State.withPly
  (State.scalars solo [(4, 0x20000), (7, 0x400), (9, 0x10000000), (10, 0x0FF0), (11, 0xC0000000)])
  fun p => { p with windowBase := 0x8000, windowSize := 0x1000 }

theorem loads_lanes : activeLanes loads = [0] ∧ storingLanes loads = [0] := by decide +kernel
theorem witness_LoadIssue :
    (RunReady loads 116 4 ∧ VectorReady loads [124] ∧
      ∀ i ∈ activeLanes loads, Reaches loads .read 16 (laneAddress loads 4 124 3 i) i 0x20000) ∧
    (RunReady loads 124 4 ∧
      ∀ i ∈ activeLanes loads, ReachesLocal loads false 16 (laneOffset loads 10 124 3 i) .xbuf 0x8FF0) ∧
    Reaches loads .read 8 (scalarAddress loads 4 (0x7F8 : BitVec 11)) 127 0x1FFF8 := by
  refine ⟨⟨Or.inr (by decide +kernel), ready_of _ _ (by decide +kernel), ?_⟩, ⟨Or.inl rfl, ?_⟩, reaches_of (by decide +kernel)⟩
  · rw [loads_lanes.1]; intro i hi; rw [List.mem_singleton.mp hi]; exact reaches_of (by decide +kernel)
  · rw [loads_lanes.1]; intro i hi; rw [List.mem_singleton.mp hi]; unfold ReachesLocal; decide +kernel
theorem witness_StoreIssue :
    (∀ i ∈ storingLanes loads, Reaches loads .write 16 (laneAddress loads 4 124 3 i) i 0x20000) ∧
    (∀ i ∈ storingLanes loads, ReachesLocal loads true 16 (laneOffset loads 10 124 3 i) .xbuf 0x8FF0) ∧
    Reaches loads .write 8 (scalarAddress loads 4 0) 127 0x20000 := by
  refine ⟨?_, ?_, reaches_of (by decide +kernel)⟩
  · rw [loads_lanes.2]; intro i hi; rw [List.mem_singleton.mp hi]; exact reaches_of (by decide +kernel)
  · rw [loads_lanes.2]; intro i hi; rw [List.mem_singleton.mp hi]; unfold ReachesLocal; decide +kernel

theorem fails_at_zero (acc : Access) (n : Nat) (ea : Nat → DWord) : FailsFirst loads acc n [0] ea 0 :=
  ⟨by simp, fun j hj h => by simp at hj; omega⟩
theorem witness_AccessFaults :
    (0x0B = 0x0A ∨ 0x0B = 0x0B) ∧ loads.ply.supervisor = false ∧
    loads.range loads.ply.tenant .write (loads.ply.ssave + 0x300) 128 = .ok [(0x100300, 128)] ∧ 0x100300 % 128 = 0 ∧
    FailsFirst loads .read 4 [0] (laneAddress loads 8 124 0) 0 ∧ ¬canonical (laneAddress loads 8 124 0 0) ∧
    (canonical (scalarAddress loads 4 (2 : BitVec 11)) ∧ (scalarAddress loads 4 (2 : BitVec 11)).toNat % 4 ≠ 0) ∧
    (canonical (laneAddress loads 6 124 0 0) ∧ (laneAddress loads 6 124 0 0).toNat % 4 = 0 ∧
      loads.page loads.ply.tenant .read ((laneAddress loads 6 124 0 0).toNat / 65536) = .error (0x0A, 1)) := by
  refine ⟨by decide, by decide +kernel, isOk_eq (by decide +kernel), by decide, fails_at_zero _ _ _, ?_, ?_, ?_, ?_, ?_⟩
  · unfold canonical; decide +kernel
  · unfold canonical; decide +kernel
  · unfold canonical; decide +kernel
  · decide +kernel
  · rfl

/-- One access in the queue. -/
def op (k : MemKind) : MemOp := ⟨5, 0, 0x10000, k⟩
def queued (k : MemKind) : Machine.State := State.withPly loads fun p => { p with lsq := [op k] }
theorem mayPerform_of (k : MemKind) (h : (queued k).performable (queued k).ply (op k) = true) :
    MayPerform (queued k) 5 (op k) := ⟨by simp [queued, State.withPly, loads]; decide +kernel, by simp [queued, State.withPly, op], h⟩

def load16 : MemKind := .load 116 5 [⟨0, 0x20000, 0x20000⟩] 0
def loadX16 : MemKind := .loadX 116 5 [(.xbuf, ⟨0, 0x0FF0, 0x8FF0⟩)]
def lds64 : MemKind := .lds 20 true ⟨96, 0x20000, 0x20000⟩ 0
theorem witness_LoadResults :
    (MayPerform (queued load16) 5 (op load16) ∧ 5 ≤ 5 ∧ RunReady (queued load16) 116 (registersOf 5) ∧ [0].Nodup ∧
      (queued load16).consumesBad (queued load16).ply 5 0 0x20000 16 = false) ∧
    (MayPerform (queued loadX16) 5 (op loadX16) ∧ RunReady (queued loadX16) 116 (registersOf 5)) ∧
    (MayPerform (queued lds64) 5 (op lds64) ∧ (op lds64).slot = (queued lds64).ply.slot ∧
      (queued lds64).consumesBad (queued lds64).ply 5 96 0x20000 8 = false) := by
  refine ⟨⟨mayPerform_of _ ?_, ?_, Or.inr ?_, ?_, ?_⟩, ⟨mayPerform_of _ ?_, Or.inr ?_⟩, mayPerform_of _ ?_, ?_, ?_⟩ <;>
    decide +kernel

def store4 : MemKind := .store [⟨0, 0x20000, 0x20000, [1, 2, 3, 4]⟩, ⟨1, 0x2007C, 0x2007C, [5, 6, 7, 8]⟩] 0
def storeX4 : MemKind := .storeX [⟨0, 0x10, 0x8010, [1, 2, 3, 4]⟩] false
def pending (n t : Nat) : PendingStore := ⟨n, 0, n, 0, 0, 0, 0x20000, [n], t, t, false, 0, false, []⟩
def stored : Machine.State := { base with stores := [pending 3 0, pending 4 9] }
theorem witness_StoresPerformed :
    (MayPerform (queued store4) 5 (op store4) ∧ (queued store4).ply.core < 512 ∧
      Claim.InLine 0x20000 [1, 2, 3, 4] ∧ Claim.InLine 0x2007C [5, 6, 7, 8] ∧
      ((queued store4).vault (vaultOfPa 0x20000)).retired = false ∧ ((queued store4).vault (vaultOfPa 0x2007C)).retired = false) ∧
    (stored.stores = [] ++ pending 3 0 :: [pending 4 9] ∧ MemoryOk stored ∧ (pending 3 0).time ≤ stored.now ∧
      (pending 4 9).seq ≠ (pending 3 0).seq ∧ (pending 3 0).seq < (pending 4 9).seq ∧ (pending 3 0).ctime ≤ stored.now ∧
      stored.loads = [] ∧ stored.landings = [] ∧ (stored.scopes.all fun c => c.due.isNone) = true) ∧
    (MayPerform (queued storeX4) 5 (op storeX4) ∧ (((queued storeX4).core (queued storeX4).ply.core).space .xbuf).wf = true ∧
      ((queued storeX4).core (queued storeX4).ply.core).unseen = [] ∧ (queued storeX4).ghosts = []) := by
  refine ⟨⟨mayPerform_of _ ?_, ?_, ?_, ?_, ?_, ?_⟩, ⟨rfl, ?_, ?_, ?_, ?_, ?_, ?_, ?_, ?_⟩, mayPerform_of _ ?_, ?_, ?_, ?_⟩ <;>
    first | (unfold Claim.InLine; decide +kernel) | (unfold MemoryOk; decide +kernel) | decide +kernel

/-- An image of 4 × 4 texels at s20:s21. -/
def image (lo hi fmt : Word) : Machine.State := State.scalars loads [(20, lo), (21, hi), (22, 0x00030003), (23, 0x100 + fmt)]
theorem image_lanes : activeLanes (image 0x40000 0 0) = [0] := by decide +kernel
def texels : MemKind := .tex .nearest 0 0 0 false [⟨0, [⟨0, 0x40000, 0x40000⟩], 0, 0⟩] 0
theorem witness_TextureIssue :
    CoordsReady (image 0x40000 0 0) 8 ∧ RunReady (image 0x40000 0 0) 0 (texRegisters .nearest 0 0) ∧
    (let g := imageAt (image 0x40000 0 0) 20;
      texAccepts .nearest g.fmt g.chan g.layout = true ∧ g.base.toNat % 16 = 0 ∧ activeLanes (image 0x40000 0 0) ≠ [] ∧
      g.base.getLsbD 63 = false ∧ ∀ l ∈ activeLanes (image 0x40000 0 0), ∀ o ∈ (texelsOf (image 0x40000 0 0) .nearest 8 g l).1,
        Reaches (image 0x40000 0 0) .read 1 (g.base + BitVec.ofNat 64 o) l 0x40000) ∧
    -- an image in the window, one that leaves it, one that is not aligned, one of a format that TEXB does not take
    (let s := image 0x100 0x80000000 0;
      let g := imageAt s 20;
      texAccepts .nearest g.fmt g.chan g.layout = true ∧ g.base.getLsbD 63 = true ∧ g.base.toNat / 2 ^ 21 % 2 ^ 42 = 0 ∧
      (texelsOf s .nearest 8 g 0).1 = [0] ∧ g.base.toNat % 2 ^ 21 + 0 + texelBytes g.fmt g.chan ≤ s.ply.windowSize ∧
      s.ply.windowSize ≤ 2 ^ 21) ∧
    (let s := image 0x1000 0x80000000 0;
      let g := imageAt s 20;
      s.ply.supervisor = false ∧ g.base.getLsbD 63 = true ∧ g.base.toNat / 2 ^ 21 % 2 ^ 42 = 0 ∧ (activeLanes s).head? = some 0 ∧
      (texelsOf s .nearest 8 g 0).1.head? = some 0 ∧ s.ply.windowSize < g.base.toNat % 2 ^ 21 + 0 + texelBytes g.fmt g.chan ∧
      g.base.toNat % 2 ^ 21 + 0 < 2 ^ 30) ∧
    (imageAt (image 0x40004 0 0) 20).base.toNat % 16 ≠ 0 ∧
    (let g := imageAt (image 0x40000 0 15) 20;
      texAccepts .bilinear g.fmt g.chan g.layout ≠ true ∧ RunReady (image 0x40000 0 15) 0 4 ∧
      (image 0x40000 0 15).ply.supervisor = false) ∧
    (MayPerform (queued texels) 5 (op texels) ∧ RunReady (queued texels) 0 (texRegisters .nearest 0 0) ∧
      (queued texels).consumesBad (queued texels).ply 5 0 0x40000 (texelBytes 0 0) = false) ∧
    (16384, Value.nan 0) ∈ [(16384, Value.nan 0)] := by
  refine ⟨Or.inr ?_, Or.inr ?_, ⟨?_, ?_, ?_, ?_, ?_⟩, ⟨?_, ?_, ?_, ?_, ?_, ?_⟩, ⟨?_, ?_, ?_, ?_, ?_, ?_, ?_⟩, ?_,
    ⟨?_, Or.inr ?_, ?_⟩, ⟨mayPerform_of _ ?_, Or.inr ?_, ?_⟩, List.mem_singleton.mpr rfl⟩
  case refine_7 =>
    rw [image_lanes]; intro l hl; rw [List.mem_singleton.mp hl]
    have h : (texelsOf (image 0x40000 0 0) .nearest 8 (imageAt (image 0x40000 0 0) 20) 0).1 = [0] := by decide +kernel
    rw [h]; intro o ho; rw [List.mem_singleton.mp ho]; exact reaches_of (by decide +kernel)
  all_goals decide +kernel

/-! ## Witnesses: slots, fences, atomics -/

def fill1 : MemKind := .fill 8 [⟨97, 0x20000, 0x20000⟩] (Mask.full) [leBytes 8 4] none
/-- The slot at 0x20000 has no format. -/
def noFormat : Machine.State := { loads with mem := loads.mem.write 0x20000 5 }
theorem witness_SpillAndFill :
    ((112 : BitVec 7).toNat + (7 : BitVec 3).toNat + 1 ≤ loads.ply.vregs.length ∧ (112 : BitVec 7).toNat + (7 : BitVec 3).toNat < 120 ∧
      SlotsReach loads .write (loads.S64 4) ((7 : BitVec 3).toNat + 1) (fun j => 0x20000 + 512 * j) ∧
      SlotsReach loads .read (loads.S64 4) ((7 : BitVec 3).toNat + 1) (fun j => 0x20000 + 512 * j) ∧
      ∀ j, j < (7 : BitVec 3).toNat + 1 → formatByte loads (0x20000 + 512 * j) ≤ 4 ∧
        ∀ k, loads.consumesBad loads.ply (loads.seq + 1) 97 (0x20000 + 512 * j) k = false) ∧
    ((loads.S64 10).toNat % 512 ≠ 0 ∧ loads.ply.supervisor = false) ∧
    (SlotsReach noFormat .read (noFormat.S64 4) 1 (fun j => 0x20000 + 512 * j) ∧ noFormat.ply.supervisor = false ∧
      4 < formatByte noFormat 0x20000) ∧
    (MayPerform (queued fill1) 5 (op fill1) ∧ 8 + [leBytes 8 4].length ≤ (queued fill1).ply.vregs.length) := by
  have all (P : Nat → Prop) (h : P 0 ∧ P 1 ∧ P 2 ∧ P 3 ∧ P 4 ∧ P 5 ∧ P 6 ∧ P 7) : ∀ j, j < (7 : BitVec 3).toNat + 1 → P j := by
    intro j hj; have : j < 8 := hj
    match j, this with
    | 0, _ => exact h.1
    | 1, _ => exact h.2.1
    | 2, _ => exact h.2.2.1
    | 3, _ => exact h.2.2.2.1
    | 4, _ => exact h.2.2.2.2.1
    | 5, _ => exact h.2.2.2.2.2.1
    | 6, _ => exact h.2.2.2.2.2.2.1
    | 7, _ => exact h.2.2.2.2.2.2.2
  refine ⟨⟨by decide +kernel, by decide, ⟨by decide +kernel, ?_⟩, ⟨by decide +kernel, ?_⟩, ?_⟩, by decide +kernel, ⟨⟨by decide +kernel, ?_⟩, by decide +kernel, by decide +kernel⟩,
    mayPerform_of _ (by decide +kernel), by decide +kernel⟩
  · apply all; refine ⟨?_, ?_, ?_, ?_, ?_, ?_, ?_, ?_⟩ <;> exact reaches_of (by decide +kernel)
  · apply all; refine ⟨?_, ?_, ?_, ?_, ?_, ?_, ?_, ?_⟩ <;> exact reaches_of (by decide +kernel)
  · intro j hj
    refine ⟨?_, fun k => ?_⟩
    · revert j; apply all; decide +kernel
    · unfold State.consumesBad State.bad; simp [loads, solo, State.withPly, State.scalars, base, State.reset, State.vault, tget]
      exact fun _ => rfl
  · intro j hj; have : j = 0 := by omega
    subst this; exact reaches_of (by decide +kernel)

def fenced : Machine.State := State.withPly loads fun p => { p with
  lsq := [⟨1, 0, 0x10000, storeX4⟩, ⟨2, 0, 0x10000, store4⟩, ⟨3, 0, 0x10000, .fence true true 1⟩, ⟨5, 0, 0x10000, lds64⟩] }
theorem witness_Fences :
    fenced.ply.uid ≠ 0 ∧ (store4.isStore = true ∧ storeX4.isStoreX = true ∧ lds64.takesValue = true) ∧
    (⟨2, 0, 0x10000, store4⟩ ∈ fenced.ply.lsq ∧ ⟨3, 0, 0x10000, .fence true true 1⟩ ∈ fenced.ply.lsq ∧ 2 < 3 ∧ 3 < 5 ∧ 1 ≤ 1) := by
  decide +kernel
def lengths : Machine.State := State.scalars loads [(12, 0x80)]
theorem witness_CacheControl :
    loads.S 14 = 0 ∧ lengths.S 12 ≠ 0 ∧ (lengths.S64 4).toNat % 65536 + (lengths.S 12).toNat ≤ 65536 ∧
    Reaches lengths .read 1 (lengths.S64 4) 127 0x20000 := by
  refine ⟨?_, ?_, ?_, reaches_of ?_⟩ <;> decide +kernel

def enrolled (arrived : List (Nat × Nat × BitVec 16 × Nat) := []) : Machine.State := State.withPly loads fun p =>
  { p with lanes := p.lanes.set 0 { LaneInfo.empty with leaf := some (0, 3), arrivals := arrived } }
theorem enrolled_lanes : storingLanes (enrolled) = [0] := by decide +kernel
theorem witness_AtomicIssue :
    (RunReady loads 118 2 ∧ VectorReady loads [124] ∧ (∀ i ∈ storingLanes loads, Reaches loads .write 8 (laneAddress loads 4 124 0 i) i 0x20000)) ∧
    (RunReady (enrolled) 119 1 ∧ (∀ i ∈ storingLanes (enrolled), Reaches (enrolled) .write 4 (laneAddress (enrolled) 4 124 0 i) i 0x20000) ∧
      ∀ i ∈ storingLanes (enrolled), ((enrolled).ply.info i).leaf = some (0, 3)) ∧
    ¬hasArrived ((enrolled).ply.info 0) 0 3 (openPhase ((enrolled).leaf 0 3)) ∧
    hasArrived ((enrolled [(0, 3, 0, 1)]).ply.info 0) 0 3 (openPhase ((enrolled [(0, 3, 0, 1)]).leaf 0 3)) ∧
    (0 ∈ storingLanes loads ∧ (loads.ply.info 0).leaf = none ∧ loads.ply.supervisor = false) := by
  refine ⟨⟨Or.inr (by decide +kernel), ready_of _ _ (by decide +kernel), ?_⟩, ⟨Or.inr (by decide +kernel), ?_, ?_⟩, ?_, ⟨1, by decide +kernel, by decide⟩,
    ?_, by decide +kernel, by decide +kernel⟩
  · rw [loads_lanes.2]; intro i hi; rw [List.mem_singleton.mp hi]; exact reaches_of (by decide +kernel)
  · rw [enrolled_lanes]; intro i hi; rw [List.mem_singleton.mp hi]; exact reaches_of (by decide +kernel)
  · rw [enrolled_lanes]; intro i hi; rw [List.mem_singleton.mp hi]; decide +kernel
  · have h : ((enrolled).ply.info 0).arrivals = [] := by decide +kernel
    rintro ⟨k, hk, -⟩; rw [h] at hk; cases hk
  · rw [loads_lanes.2]; simp

def element (_n pa : Nat) (k : Nat) : AtomLane := ⟨k, BitVec.ofNat 64 pa, pa, 7, 9, false⟩
def atomKind (o : Nat) (lanes : List Nat) : MemKind := .atom o true 8 3 (lanes.map (element 4 0x20000)) 0
theorem one_element (o n : Nat) (ls : List Nat) (h : (!ls.isEmpty && decide ls.Nodup && ls.all fun i => decide (i < 96) &&
      !(queued (atomKind o ls)).consumesBad (queued (atomKind o ls)).ply 5 i 0x20000 n) = true) :
    OneElement (queued (atomKind o ls)) (op (atomKind o ls)) n 0x20000 (ls.map (element 4 0x20000)) := by
  simp only [Bool.and_eq_true, decide_eq_true_eq, List.all_eq_true] at h
  refine ⟨?_, ?_, ?_⟩
  · have := h.1.1; cases ls <;> simp_all
  · rw [List.map_map]; have : (fun a : AtomLane => a.lane) ∘ element 4 0x20000 = id := by funext k; rfl
    rw [this, List.map_id]; exact h.1.2
  · intro l hl; obtain ⟨i, hi, rfl⟩ := List.mem_map.mp hl; have := h.2 i hi
    refine ⟨rfl, this.1, rfl, ?_⟩; simpa [element, op] using this.2
theorem witness_AtomicResults :
    (MayPerform (queued (atomKind 0 [0, 95])) 5 (op (atomKind 0 [0, 95])) ∧ 3 ≤ 3 ∧ RunReady (queued (atomKind 0 [0, 95])) 8 1 ∧
      OneElement (queued (atomKind 0 [0, 95])) (op (atomKind 0 [0, 95])) 4 0x20000 ([0, 95].map (element 4 0x20000))) ∧
    (MayPerform (queued (atomKind 18 [0])) 5 (op (atomKind 18 [0])) ∧ RunReady (queued (atomKind 18 [0])) 8 2 ∧
      OneElement (queued (atomKind 18 [0])) (op (atomKind 18 [0])) 8 0x20000 ([0].map (element 4 0x20000))) ∧
    (MayPerform (queued (atomKind 15 [0, 95])) 5 (op (atomKind 15 [0, 95])) ∧
      OneElement (queued (atomKind 15 [0, 95])) (op (atomKind 15 [0, 95])) 4 0x20000 ([0, 95].map (element 4 0x20000))) ∧
    (MayPerform (queued (atomKind 16 [0])) 5 (op (atomKind 16 [0])) ∧
      OneElement (queued (atomKind 16 [0])) (op (atomKind 16 [0])) 4 0x20000 ([0].map (element 4 0x20000))) ∧
    (MayPerform (queued (atomKind 14 [0])) 5 (op (atomKind 14 [0])) ∧
      OneElement (queued (atomKind 14 [0])) (op (atomKind 14 [0])) 8 0x20000 ([0].map (element 4 0x20000))) := by
  refine ⟨⟨mayPerform_of _ ?_, ?_, Or.inr ?_, one_element _ _ _ ?_⟩, ⟨mayPerform_of _ ?_, Or.inr ?_, one_element _ _ _ ?_⟩,
    ⟨mayPerform_of _ ?_, one_element _ _ _ ?_⟩, ⟨mayPerform_of _ ?_, one_element _ _ _ ?_⟩, mayPerform_of _ ?_, one_element _ _ _ ?_⟩ <;>
    decide +kernel

def add1 : AtomLane := ⟨0, 0x20000, 0x20000, 0x3F800000, 0, false⟩
def faddd1 : MemKind := .faddd [(add1, 0, 3, 0)]
def window1 (l : List Contrib) (x : Option Exact := none) : FElement := ⟨0, 3, 0, 0x20000, 0x20000, 0, l, x, [], false⟩
def contribution : Contrib := ⟨96, 0x40000000, 9, 0⟩
def withWindow (s : Machine.State) (f : FElement) : Machine.State :=
  { s with vaults := [(vaultOfPa 0x20000, { Vault.reset with elements := [f] })] }
def leaf3 (l : Leaf) (s : Machine.State) : Machine.State := { s with cores := [(0, { Core.reset 0 with leaves := [(3, l)] })] }
/-- The states of the window: one contribution, 16 of them, the accumulator of none. -/
def windowWith (k : Nat) : FElement :=
  if k = 0 then window1 [contribution] else if k = 1 then window1 (List.replicate 16 contribution)
  else window1 [] (some ⟨0, false, false, false, true⟩)
theorem witness_DeterministicAdd :
    (MayPerform (queued faddd1) 5 (op faddd1) ∧ (queued faddd1).departures = [] ∧
      (0 : BitVec 16) = openPhase ((queued faddd1).leaf 0 3) ∧ ((queued faddd1).vault (vaultOfPa 0x20000)).elements = []) ∧
    (∀ k, k < 3 → (withWindow (queued faddd1) (windowWith k)).ply.uid ≠ 0 ∧
      (withWindow (queued faddd1) (windowWith k)).ply.lsq.find? (fun o => o.seq == 5) = some (op faddd1) ∧
      (withWindow (queued faddd1) (windowWith k)).performable (withWindow (queued faddd1) (windowWith k)).ply (op faddd1) = true ∧
      ((withWindow (queued faddd1) (windowWith k)).vault (vaultOfPa 0x20000)).elements = [] ++ windowWith k :: []) ∧
    ((windowWith 0).exact = none ∧ (windowWith 0).list.length < 16 ∧ (windowWith 0).list.Pairwise (fun a b => Contrib.before b a = false) ∧
      (windowWith 1).exact = none ∧ (windowWith 1).list.length = 16 ∧
      ∃ x, (windowWith 2).exact = some x ∧ Accumulates x []) ∧
    (∀ r, let s := leaf3 { Leaf.idle with done := !r, resetting := r } (withWindow base (window1 [contribution]));
      (s.leaf 0 3).closing = none ∧ ((s.leaf 0 3).done = true ∨ (s.leaf 0 3).resetting = true) ∧
      closingElements s 0 3 = [window1 [contribution]] ∧ (window1 [contribution]).failed = false ∧ s.bad 0x20000 4 = false) ∧
    (let s := leaf3 { Leaf.idle with expected := 1, done := true, closing := some 0 } base;
      (s.leaf 0 3).closing = some 0 ∧ 0 ≤ s.now ∧ s.departures = [] ∧ (s.leaf 0 3).resetting = false ∧ (s.leaf 0 3).done = true ∧
      (s.leaf 0 3).root = none ∧ (s.leaf 0 3).next.toNat < (s.leaf 0 3).expected.toNat) ∧
    ((leaf3 { Leaf.idle with root := some 0, closing := some 0 } base).leaf 0 3).root ≠ none ∧
    (let s := leaf3 { Leaf.idle with resetting := true, closing := some 0 } base;
      (s.leaf 0 3).closing = some 0 ∧ (s.leaf 0 3).resetting = true ∧ (s.leaf 0 3).root = none ∧ s.vaults = []) := by
  refine ⟨⟨mayPerform_of _ ?_, ?_, ?_, ?_⟩, ?_, ⟨?_, ?_, ?_, ?_, ?_, _, rfl, rfl, ?_, ?_, ?_⟩, ?_, ?_, ?_, ?_⟩
  case refine_11 | refine_12 | refine_13 => simp
  all_goals decide +kernel

/-! ## Witnesses: the matrix engine and the context -/

def tiled (k : MtxKind) : Machine.State :=
  { base with cores := [(0, { Core.reset 0 with mtxq := [⟨5, 1, 0, 0x10000, 0, 7, k, 0⟩] })] }
def head (k : MtxKind) : MtxOp := ⟨5, 1, 0, 0x10000, 0, 7, k, 0⟩
theorem engineHead_of (k : MtxKind) (h : (tiled k).engineReady (tiled k).ply 5 k.global = true) : EngineHead (tiled k) (head k) [] := by
  refine ⟨?_, ?_, ?_, ?_, h, ?_⟩
  · simp [tiled, base, Ply.placed']
  · rfl
  · rfl
  · simp
  · show 7 < (Ply.placed' 1).tiles.length
    decide +kernel

/-- Groups of local operands at s20 and s24, of MCVST's address at s28, and a window. -/
def operands : Machine.State := State.withPly
  (State.scalars base [(20, 0x0), (21, 0x80000000), (22, 512), (24, 0), (25, 0xA0000000), (26, 512), (28, 0x20000), (30, 256), (32, 0x40000), (34, 512)])
  fun p => { p with windowBase := 0, windowSize := 0x10000 }
def byLocal : Operand := ⟨true, 0, 0x8000000000000000, 512, none⟩
def weights : Operand := ⟨true, 0, 0xA000000000000000, 512, none⟩
def byGlobal : Operand := ⟨false, 0, 0x40000, 512, none⟩
theorem witness_MatrixIssue :
    (TileReady operands 7 ∧ 2 * (56 : BitVec 6).toNat + 8 ≤ operands.ply.vregs.length) ∧
    (Converged operands ∧ (∀ q ∈ (operands.core operands.ply.core).mtxq, q.uid ≠ operands.ply.uid) ∧
      Describes operands 20 96 0 operands.ply.windowSize operands.ply.windowBase byLocal ∧ Describes operands 24 64 1 2097152 0 weights ∧
      Describes operands 32 96 0 operands.ply.windowSize operands.ply.windowBase byGlobal ∧ byGlobal.loc = false) ∧
    (TileReady still 7 ∧ ¬Converged still ∧ still.ply.supervisor = false) ∧
    (TileReady loads 7 ∧ (loads.S64 4).getLsbD 63 = false ∧ (loads.S64 4).toNat % 16 = 0 ∧ (loads.S (4 + 2)).toNat % 16 = 0 ∧
      storingLanes loads ≠ [] ∧
      ∀ m ∈ storingLanes loads, (loads.S64 4 + BitVec.ofInt 64 (m * (loads.S (4 + 2)).toInt)).toNat % 65536 + 128 ≤ 65536 ∧
        Reaches loads .write 1 (loads.S64 4 + BitVec.ofInt 64 (m * (loads.S (4 + 2)).toInt)) m 0x20000) ∧
    (let s := image 0x100 0x80000000 0;
      (s.S64 20).getLsbD 63 = true ∧ (s.S64 20).toNat % 16 = 0 ∧ (s.S64 30).toNat % 16 = 0 ∧
        (s.S64 20).toNat / 2 ^ 21 % 2 ^ 42 = 0 ∧ storingLanes s = [0] ∧ (s.S64 20).toNat % 2 ^ 21 + 128 ≤ s.ply.windowSize) ∧
    ((operands.S64 28).getLsbD 63 = false ∧ storingLanes (State.withPly loads fun p => { p with occ := 0 }) = []) := by
  refine ⟨⟨⟨?_, ?_⟩, ?_⟩, ⟨⟨?_, ?_⟩, ?_, ⟨?_, ?_, ?_, ?_, ?_, ?_⟩, ⟨?_, ?_, ?_, ?_, ?_, ?_⟩, ⟨?_, ?_, ?_, ?_, ?_, ?_⟩, ?_⟩, ⟨⟨?_, ?_⟩, ?_, ?_⟩,
    ⟨⟨?_, ?_⟩, ?_, ?_, ?_, ?_, ?_⟩, ?_, ?_⟩ <;>
    first | decide +kernel | (unfold canonical; decide +kernel) | (unfold Converged; decide +kernel) | skip
  rw [loads_lanes.2]; intro m hm; rw [List.mem_singleton.mp hm]
  exact ⟨by decide +kernel, reaches_of (by decide +kernel)⟩

def mcvst1 : MtxKind := .mcvst 0 false true
def rowStores : List LaneStore := [⟨0, 0x20000, 0x20000, zeros 128⟩]
def rows : Machine.State := State.withPly (tiled mcvst1) fun p => { p with lsq := [⟨5, 0, 0x10000, .store rowStores 0⟩] }
def int8 : MtxKind := .mma none 5 5 true byLocal weights true (0, 0)
/-- A's rows stand in a page that is not mapped; the path waits for the engine. -/
def unmapped : Operand := ⟨false, 0, 0x40000000000, 512, none⟩
def far : MtxKind := .mma (some 2) 5 0 true unmapped weights true (0, 0)
def stopped : Machine.State := State.onPath (tiled far) fun q => { q with wait := .engine 5, waitWords := 1 }
theorem local_reaches (s : Machine.State) (pa : DWord → Nat) (o : Operand) (h : o.loc = true) (r k : Nat) : OperandReaches s pa o r k := Or.inl h
theorem settled_tiled (s : Machine.State) (o : MtxOp) (hs : s.stale s.ply.core = []) (hw : ∀ sp, ((s.core s.ply.core).space sp).wf = true)
    (h : s.recent = [] ∧ s.stores = [] ∧ s.failing = [] ∧ s.vaults = []) : OperandsSettled s o :=
  ⟨hs, hw, h.1, by rw [h.2.1]; simp, h.2.2.1, fun k => by simp [State.vault, h.2.2.2, tget]; rfl⟩
theorem witness_MatrixResults :
    EngineHead (tiled .mzero) (head .mzero) [] ∧ EngineHead (tiled (.mrd 112 7 1)) (head (.mrd 112 7 1)) [] ∧
    (112 + 8 ≤ (tiled (.mrd 112 7 1)).ply.vregs.length ∧ (tiled (.mrd 112 7 1)).ply.vregs.length ≤ 120) ∧
    (EngineHead (tiled (.mwr 7 (List.replicate 8 Lanes.zero) 1)) (head (.mwr 7 (List.replicate 8 Lanes.zero) 1)) [] ∧
      (List.replicate 8 Lanes.zero).length = 8 ∧ (plyTile (tiled .mzero).ply 7).length = 64) ∧
    (EngineHead rows (head mcvst1) [] ∧ (rows.ply.lsq = [⟨5, 0, 0x10000, .store rowStores 0⟩]) ∧
      (∀ l ∈ rowStores, l.data.length = 64 * 2) ∧ (plyTile rows.ply 7).length = 64) ∧
    (EngineHead (tiled int8) (head int8) [] ∧ (5, 5) ∈ formatPairs ∧ OperandsSettled (tiled int8) (head int8) ∧
      (∀ r k, OperandReaches (tiled int8) (fun _ => 0) byLocal r k ∧ OperandReaches (tiled int8) (fun _ => 0) weights r k) ∧
      (tiled int8).path.wait ≠ .engine 5) ∧
    (EngineHead stopped (head far) [] ∧ OperandsSettled stopped (head far) ∧ stopped.path.wait = .engine 5 ∧
      stopped.ply.supervisor = false ∧ canonical 0x40000000000 ∧
      stopped.page stopped.ply.tenant .read ((0x40000000000 : DWord).toNat / 65536) = .error (0x0A, 1) ∧
      (0x40000000000 : DWord) = rowStart unmapped 0 + BitVec.ofNat 64 0 ∧
      ∀ r i, r / 8 = 0 → i < 128 → ¬(rowStart unmapped r + BitVec.ofNat 64 i).toNat < (0x40000000000 : DWord).toNat) := by
  refine ⟨engineHead_of _ ?_, engineHead_of _ ?_, ?_, ⟨engineHead_of _ ?_, ?_, ?_⟩, ⟨⟨?_, rfl, rfl, ?_, ?_, ?_⟩, ?_, ?_, ?_⟩,
    ⟨engineHead_of _ ?_, ?_, settled_tiled _ _ ?_ ?_ ?_, fun r k => ⟨local_reaches _ _ _ rfl r k, local_reaches _ _ _ rfl r k⟩, ?_⟩,
    ⟨?_, rfl, rfl, ?_, ?_, ?_⟩, settled_tiled _ _ ?_ ?_ ?_, ?_, ?_, ?_, ?_, ?_, ?_⟩ <;>
    first | decide +kernel | (unfold canonical; decide +kernel) | rfl | skip
  · intro sp; cases sp <;> decide +kernel
  · intro sp; cases sp <;> decide +kernel
  · have h : ∀ r, r < 8 → ∀ i, i < 128 → ¬(rowStart unmapped r + BitVec.ofNat 64 i).toNat < (0x40000000000 : DWord).toNat := by decide +kernel
    intro r i hr hi; exact h r (by omega) i hi

/-- A supervisor ply without registers and tiles. -/
def bare : Machine.State := State.withPly super fun p => { p with vregs := [], tiles := [] }
def saved (o : Nat) : List Byte :=
  match bare.readVirt 0 0 (bare.ply.ssave + BitVec.ofNat 64 o) (if o = 0x1000 then 4560 else ((bare.ply.regions 0 true).lookup o).elim 0 List.length) with
  | .ok b => b
  | .error _ => []
theorem frame_length : bare.ply.frameBytes.length = 4560 := by
  have h : bare.ply.frameBytes = (List.range 95).flatMap fun _ => zeros 48 := rfl
  rw [h, List.length_flatMap]; decide +kernel
theorem saved_frames : bare.readVirt 0 0 (bare.ply.ssave + BitVec.ofNat 64 0x1000) 4560 = .ok (saved 0x1000) ∧ (saved 0x1000).length = 4560 := by
  have hr : bare.range 0 .read (bare.ply.ssave + BitVec.ofNat 64 0x1000) 4560 = .ok [(0x101000, 4560)] := isOk_eq (by decide +kernel)
  have hv : bare.readVirt 0 0 (bare.ply.ssave + BitVec.ofNat 64 0x1000) 4560 = .ok (bare.mem.readN 0x101000 4560) := by
    unfold State.readVirt; rw [hr]
    simp [State.seenN, bare, super, State.withPly, base, State.reset]
  have hs : saved 0x1000 = bare.mem.readN 0x101000 4560 := by
    unfold saved; rw [if_pos rfl, hv]
  rw [hv, hs]
  exact ⟨rfl, by rw [Memory.readN_eq (by decide +kernel)]; simp⟩
theorem witness_ContextSaveRestore :
    (super.ply.supervisor = true ∧ ∃ ls, bare.regionStores (bare.ply.interrupted.regions bare.ply.vregs.length true) = .ok ls) ∧
    (119 ≤ base.ply.vregs.length ∧ base.ply.tiles.length ≤ 8) ∧
    (bare.ply.supervisor = true ∧ bare.ply.vregs.length ≤ 119 ∧
      (∀ x ∈ bare.ply.regions bare.ply.vregs.length true,
        bare.readVirt bare.ply.core bare.ply.tenant (bare.ply.ssave + BitVec.ofNat 64 x.1) x.2.length = .ok (saved x.1) ∧
          (saved x.1).length = x.2.length) ∧
      num (saved 0x180) 0x5C 4 = bare.ply.vregs.length ∧ num (saved 0x180) 0x60 4 = bare.ply.tiles.length) ∧
    base.ply.supervisor = false := by
  refine ⟨⟨by decide +kernel, ?_⟩, by decide +kernel, ⟨by decide +kernel, by decide +kernel, ?_, by decide +kernel, by decide +kernel⟩, by decide +kernel⟩
  · have h : (match bare.regionStores (bare.ply.interrupted.regions bare.ply.vregs.length true) with
        | .ok _ => true
        | .error _ => false) = true := by decide +kernel
    cases hx : bare.regionStores (bare.ply.interrupted.regions bare.ply.vregs.length true) with
    | error c => rw [hx] at h; cases h
    | ok ls => exact ⟨ls, rfl⟩
  · have h : ((bare.ply.regions bare.ply.vregs.length true).all fun x => x.1 == 0x1000 ||
        isOk (bare.readVirt bare.ply.core bare.ply.tenant (bare.ply.ssave + BitVec.ofNat 64 x.1) x.2.length) (saved x.1) &&
          (saved x.1).length == x.2.length) = true := by decide +kernel
    have h2 : ∀ x ∈ bare.ply.regions bare.ply.vregs.length true, x.1 = 0x1000 → x.2 = bare.ply.frameBytes := by
      intro x hx hk
      have hv : bare.ply.vregs = [] := rfl
      have ht : bare.ply.tiles = [] := rfl
      simp only [Ply.regions, hv, ht, if_true, List.take_nil, List.zipIdx_nil, List.map_nil, List.append_nil, List.cons_append,
        List.nil_append, List.mem_cons, List.not_mem_nil, or_false] at hx
      rcases hx with h | h | h | h | h <;> rw [h] at hk ⊢ <;> simp at hk ⊢
    intro x hx
    have := List.all_eq_true.mp h x hx
    simp only [Bool.and_eq_true, Bool.or_eq_true, beq_iff_eq] at this
    rcases this with h1 | h1
    · rw [h2 x hx h1, h1, frame_length]; exact saved_frames
    · exact ⟨isOk_eq h1.1, h1.2⟩

/-! ## Witnesses: counted waits, barriers, copies, FIFOs, heat -/

def count (c : Bool) (f : Option Failure) : Counted := ⟨5, 1, 1, c, f, [], 0⟩
def classes (l : List Counted) (n : BitVec 16) (fs : List Failure) : Machine.State :=
  { State.withPly base fun p => { p with cnt := p.cnt.set 1 n, failures := fs } with counted := l }
theorem witness_CountedWaits :
    (let s := classes [count true none] 1 []; s.ply.uid ≠ 0 ∧ (∀ p ∈ s.ghosts, p.uid ≠ s.ply.uid) ∧ s.ply.occ ≠ 0 ∧
      s.counted.find? (fun x => x.uid == s.ply.uid && x.cls == 1) = some (count true none) ∧
      (∀ x ∈ s.cores, ∀ o ∈ x.2.copyq, o.seq = 5 → o.unwritten = []) ∧ s.fabric = []) ∧
    (Lives base ∧ counter base.ply 1 ≤ 0 ∧ firstFailure base.ply 1 = none) ∧
    (let s := classes [] 3 []; Lives s ∧ 2 < counter s.ply 1) ∧
    (let s := classes [] 0 [⟨1, 2, 0x20000⟩]; Lives s ∧ counter s.ply 1 ≤ 0 ∧ firstFailure s.ply 1 = some ⟨1, 2, 0x20000⟩ ∧
      s.ply.supervisor = false) ∧
    (let s := waiting (.waitc 1 0); s.ply.uid ≠ 0 ∧ s.path.wait = .waitc 1 0 ∧ counter s.ply 1 ≤ 0 ∧ firstFailure s.ply 1 = none) := by
  refine ⟨?_, ⟨⟨?_, ?_⟩, ?_, ?_⟩, ⟨⟨?_, ?_⟩, ?_⟩, ⟨⟨?_, ?_⟩, ?_, ?_, ?_⟩, ?_⟩ <;> decide +kernel

/-- s4 names leaf 31 of core 7 and holds phase 0 as well, s6 a count, s7 root 31 and that count. -/
def leaf31 (l : Leaf) (s : Machine.State := base) : Machine.State :=
  { State.scalars s [(4, 255), (6, 0x1234), (7, 0x9F001234)] with cores := [(7, { Core.reset 7 with leaves := [(31, l)] })] }
theorem free31 : ¬InUse (leaf31 Leaf.idle) 7 31 := by
  have hp : (leaf31 Leaf.idle).everyPly = [(leaf31 Leaf.idle).ply] := by decide +kernel
  have h0 : (leaf31 Leaf.idle).ply.path0.wait = .none := by decide +kernel
  have h1 : (leaf31 Leaf.idle).ply.path1.wait = .none := by decide +kernel
  have hl : ∀ i, i < 96 → ((leaf31 Leaf.idle).ply.info i).leaf ≠ some (7, 31) := by decide +kernel
  rintro (h | h | ⟨p, hq, h⟩)
  · exact absurd h (by decide +kernel)
  · exact absurd h (by decide +kernel)
  · rw [hp] at hq; obtain rfl := List.mem_singleton.mp hq
    rcases h with h | h | ⟨i, hi, h⟩
    · rw [h0] at h; exact h
    · rw [h1] at h; exact h
    · exact hl i hi h
theorem witness_BarrierInstructions :
    NamesLeaf (leaf31 Leaf.idle) 4 7 31 ∧ storingLanes (leaf31 Leaf.idle still) = [] ∧ storingLanes (leaf31 Leaf.idle solo) = [0] ∧
    ((solo.ply.info 0).leaf = none) ∧ Lives (leaf31 Leaf.idle) ∧
    (((leaf31 Leaf.idle).S 6).extractLsb' 0 16 ≠ ((leaf31 Leaf.idle).leaf 7 31).phase) ∧
    (((leaf31 Leaf.idle).S 5).extractLsb' 0 16 = ((leaf31 Leaf.idle).leaf 7 31).phase) ∧
    ((leaf31 Leaf.idle).leaf 7 31).bytes + (leaf31 Leaf.idle).S 6 ≠ 0 ∧
    (¬InUse (leaf31 Leaf.idle) 7 31 ∧ ((leaf31 Leaf.idle).S 6).toNat / 2 ^ 16 = 0 ∧
      ((leaf31 Leaf.idle).S 7).toNat / 2 ^ 16 = 2 ^ 15 + 31 * 2 ^ 8 ∧ ((leaf31 Leaf.idle).leaf 7 31).root = none ∧
      ((leaf31 Leaf.idle).leaf 7 31).closing = none) ∧
    (let s := leaf31 { Leaf.idle with arrived := 1 }; NamesLeaf s 4 7 31 ∧ InUse s 7 31 ∧ s.ply.supervisor = false) := by
  refine ⟨⟨?_, ?_, ?_, ?_⟩, ?_, ?_, ?_, ⟨?_, ?_⟩, ?_, ?_, ?_, ⟨free31, ?_, ?_, ?_, ?_⟩, ⟨?_, ?_, ?_, ?_⟩, Or.inl ?_, ?_⟩ <;>
    decide +kernel

def arrival (w : Bool) : Arrival := ⟨5, 1, 0, 3, [0, 1], 1, w⟩
def arriving (l : Leaf) (w : Bool) : Machine.State :=
  let s := leaf3 l base
  { State.withPly s fun p => { p with hubq := if w then [] else [⟨5, p.slot, .bara 20⟩] } with arrivals := [arrival w] }
def linked (r : Root) (l : Leaf) : Machine.State :=
  { leaf3 { l with root := some 2 } base with clusters := [(0, { Cluster.reset with roots := [(2, r)] })] }
def done1 : Leaf := { Leaf.idle with expected := 1, arrived := 1, done := true }
theorem witness_BarrierEvents :
    (∀ d, let s := arriving { Leaf.idle with expected := 3, done := d } false; FreeArrival s (arrival false) ∧
      ¬Completes (counted s (arrival false)) ∧ s.ply.hubq.find? (fun h => h.seq == 5) = some ⟨5, s.ply.slot, .bara 20⟩) ∧
    (∀ d, let s := arriving { Leaf.idle with expected := 3, done := d } true; FreeArrival s (arrival true) ∧
      ¬Completes (counted s (arrival true))) ∧
    (∀ r, r = none ∨ r = some 2 → let s := arriving { Leaf.idle with expected := 2, root := r } false;
      FreeArrival s (arrival false) ∧ Completes (counted s (arrival false)) ∧ (s.leaf 0 3).root = r ∧
      s.hasWindow 0 3 (s.leaf 0 3).phase = false) ∧
    (let s := linked { Root.idle with linked := 2 } done1; s.mayReport 0 3 = true ∧ (s.leaf 0 3).root = some 2 ∧
      (s.root 0 2).reported + 1 ≠ (s.root 0 2).linked) ∧
    (let s := linked { Root.idle with linked := 1 } done1; s.mayReport 0 3 = true ∧ (s.leaf 0 3).root = some 2 ∧
      (s.root 0 2).reported + 1 = (s.root 0 2).linked) ∧
    (let s := linked Root.idle { done1 with flip := true }; (s.leaf 0 3).flip = true ∧ (s.leaf 0 3).root ≠ none ∧ s.departures = []) ∧
    (let s := waiting (.released 0 3 1 9 0); s.ply.uid ≠ 0 ∧ s.waves 0 = [(s.ply.uid, 1, 9, 0)]) := by
  unfold FreeArrival Completes
  refine ⟨?_, ?_, ?_, ?_, ?_, ?_, ?_⟩
  case refine_3 => rintro r (rfl | rfl) <;> decide +kernel
  all_goals decide +kernel

/-- A record of one FP8 element at an address, in a local space or not. -/
def shape1 (base : DWord) (ctl : BitVec 16 := 0x4000) : Shape := ⟨base, [1, 1, 1, 1, 1, 1], [0, 0, 0, 0, 0, 0], 0, 0, 0, ctl⟩
/-- The handles of two records at s20 and s21, and a barrier word at s23. -/
def shapes (a b : Shape) (bar : Word := 0) : Machine.State :=
  { State.scalars loads [(20, 0x00000001), (21, 0x00100001), (23, bar)] with
    tenants := [(0, { (loads.tenant 0) with shapes := [(0, 1, some a), (1, 1, some b)] })] }
def inWindow : Shape := shape1 0x5000000000000FFF
def inSbuf : Shape := shape1 0x5000000080000000
/-- The only tuple of extents of 1. -/
theorem only_tuple {t : List Nat} {n : Nat} (h : InWalk t (List.replicate n 1)) : t = List.replicate n 0 := by
  obtain ⟨hl, hk⟩ := h
  rw [List.length_replicate] at hl hk
  refine List.ext_getElem (by simpa using hl) fun k h1 h2 => ?_
  have := hk k (by omega)
  rw [List.getD_eq_getElem _ _ (by omega), List.getD_eq_getElem _ _ (by simpa using (by omega : k < n))] at this
  simp at this ⊢
  omega
/-- A record of one element reaches beyond its space exactly where its address does. -/
theorem beyond_one (s : Machine.State) (r : InEffect) (hu : r.unit = 1) (hx : r.ext = List.replicate 6 1)
    (hs : r.stride = List.replicate 6 0) (o : Nat) :
    BeyondEnd s r o (fun _ => True) ↔ locOf r.shape = true ∧ o = (walkFor s r).base.toNat % 2 ^ 32 ∧ sizeOfSpace s r.shape ≤ o := by
  have hd : distanceOf (walkFor s r) (List.replicate 6 0) = 0 := by
    unfold distanceOf walkFor; rw [hs]; rfl
  have ho : offsetOf (walkFor s r) (List.replicate 6 0) = (walkFor s r).base.toNat % 2 ^ 32 := by
    unfold offsetOf; rw [hd]; omega
  unfold BeyondEnd
  rw [hx, hu]
  constructor
  · rintro ⟨h, t, ht, -, i, hi, rfl, hb⟩
    rw [only_tuple ht, ho] at hb ⊢
    obtain rfl : i = 0 := by omega
    exact ⟨h, rfl, hb⟩
  · rintro ⟨h, rfl, hb⟩
    refine ⟨h, List.replicate 6 0, ⟨by simp, by decide⟩, trivial, 0, by omega, ?_, hb⟩
    rw [ho]; rfl
/-- The check of order 6 of two such records. -/
def farOne (s : Machine.State) (a b : Shape) (o : Nat) : Prop :=
  BeyondEnd s (asSource a) o (fun _ => True) ∨ BeyondEnd s (asDest b) o (fun _ => True)
theorem far_one (s : Machine.State) (a b : Shape) (o : Nat) (ha : fmtOf a = 5 ∧ a.ext = List.replicate 6 1 ∧ a.stride = List.replicate 6 0)
    (hb : fmtOf b = 5 ∧ b.ext = List.replicate 6 1 ∧ b.stride = List.replicate 6 0 ∧ blkOf b = 0) :
    farOne s a b o ↔ (locOf a = true ∧ o = (walkFor s (asSource a)).base.toNat % 2 ^ 32 ∧ sizeOfSpace s a ≤ o) ∨
      locOf b = true ∧ o = (walkFor s (asSource b)).base.toNat % 2 ^ 32 ∧ sizeOfSpace s b ≤ o := by
  have hd : asDest b = asSource b := by unfold asDest; simp [hb.2.2.2]
  unfold farOne
  rw [hd, beyond_one s (asSource a) (by simp [asSource, Claim.unitOf, ha.1]) ha.2.1 ha.2.2,
    beyond_one s (asSource b) (by simp [asSource, Claim.unitOf, hb.1]) hb.2.1 hb.2.2.1]
  rfl

/-- SHAPEW's operands at s12 and s13, and a request of it that the hub may answer. -/
def shaper (a o : Word) : Machine.State := State.scalars loads [(12, a), (13, o)]
def requested (k : HubKind) : Machine.State := State.withPly loads fun p => { p with hubq := [⟨5, p.slot, k⟩] }
def atEnd : Shape := shape1 0x5000000000001000
theorem in_window (o : Nat) : ¬farOne (shapes inWindow inSbuf) inWindow inSbuf o := by
  rw [far_one _ _ _ _ (by decide) (by decide)]
  have h : (walkFor (shapes inWindow inSbuf) (asSource inWindow)).base.toNat % 2 ^ 32 = 0xFFF := by decide +kernel
  have g : (walkFor (shapes inWindow inSbuf) (asSource inSbuf)).base.toNat % 2 ^ 32 = 0 := by decide +kernel
  have h' : sizeOfSpace (shapes inWindow inSbuf) inWindow = 0x1000 := by decide +kernel
  have g' : sizeOfSpace (shapes inWindow inSbuf) inSbuf = 131072 := by decide +kernel
  rw [h, g, h', g']
  omega
theorem at_end : farOne (shapes atEnd inSbuf) atEnd inSbuf 0x1000 := by
  rw [far_one _ _ _ _ (by decide) (by decide)]
  left; decide +kernel
/-- The checks of orders 2 to 5 pass for a copy from the window to SBUF. -/
theorem early_pass (x : Bool) (soff bar : Word) (a : Shape) (ha : a = inWindow ∨ a = atEnd) :
    ∀ c ∈ (copyChecks (shapes a inSbuf) x soff bar a inSbuf none).take 7, ¬c.fails := by
  intro c hc
  simp only [copyChecks, Option.toList, List.map_nil, List.map_cons, List.cons_append, List.nil_append, List.take_succ_cons,
    List.take_zero, List.mem_cons, List.not_mem_nil, or_false] at hc
  rcases ha with rfl | rfl <;> rcases hc with rfl | rfl | rfl | rfl | rfl | rfl | rfl
  case inl.inl | inr.inl =>
    rintro (h | ⟨r, (rfl | rfl), h⟩ | h | h | ⟨-, h⟩ | ⟨r, h, -⟩ | ⟨⟨-, h⟩, -⟩)
    any_goals first | (cases h; done) | exact absurd h (by decide +kernel)
  all_goals first | (dsimp only; decide +kernel) | (rintro ⟨⟨-, h⟩, -⟩; exact absurd h (by decide +kernel))
theorem witness_CopyIssue :
    ((loads.S 12).toNat < 4096 ∧ (loads.S 12).toNat / 2 ^ 30 = 0 ∧ (loads.S 12).toNat % 64 = 0 ∧ (loads.S 12).toNat + 64 ≤ loads.ply.windowSize) ∧
    -- the five checks of SHAPEW, each met first
    (∀ x ∈ [(4096, 0, 0), (4095, 0xC0000000, 1), (4095, 0x40000000, 2), (4095, 4, 3), (4095, 0x1000, 4)],
      let s := shaper (BitVec.ofNat 32 x.1) (BitVec.ofNat 32 x.2.1);
      s.ply.supervisor = false ∧ (x.2.2 = 0 ↔ 4096 ≤ (s.S 12).toNat) ∧ (x.2.2 = 1 ↔ (s.S 13).toNat / 2 ^ 30 = 3) ∧
      (x.2.2 = 1 ∨ x.2.2 = 2 ↔ (s.S 13).toNat / 2 ^ 30 ≠ 0) ∧ (x.2.2 = 3 ↔ (s.S 13).toNat % 64 ≠ 0) ∧
      (x.2.2 = 4 → s.ply.windowSize < (s.S 13).toNat + 64)) ∧
    (∀ k ∈ [HubKind.shapew 20 4095 0x8FC0, .shaperel 0x00000001], FirstRequest (requested k) k 5) ∧
    ((requested (.shapew 20 4095 0x8FC0)).ply.tenant < 16 ∧ (requested (.shapew 20 4095 0x8FC0)).ply.lsq = [] ∧
      (((requested (.shapew 20 4095 0x8FC0)).core (requested (.shapew 20 4095 0x8FC0)).ply.core).space .xbuf).wf = true) ∧
    ((118 : BitVec 7).toNat + 2 ≤ loads.ply.vregs.length ∧ ∀ l ∈ storingLanes loads,
      CopyEnd loads (loads.S64 12) ((loads.V ((118 : BitVec 7) + 1)).at l) false 16 l (.glob 0) 0 ∧
      CopyEnd loads (loads.S64 10) ((loads.V 118).at l) true 16 l (.loc .sbuf 0xFF0) 0xFF0) ∧
    (storingLanes (State.withPly loads fun p => { p with occ := 0 }) = [] ∧
      loads.shapeOf loads.ply.tenant (loads.S 20) = none ∧ loads.ply.supervisor = false) ∧
    (let s := shapes inWindow inSbuf;
      storingLanes s = 0 :: [] ∧ s.shapeOf s.ply.tenant (s.S 20) = some inWindow ∧ s.shapeOf s.ply.tenant (s.S 21) = some inSbuf ∧
      s.shapeOf s.ply.tenant 0x00200001 = none ∧ ¬usesScales true inWindow inSbuf ∧
      allPass (copyChecks s true (s.S 22) (s.S 23) inWindow inSbuf none)) ∧
    -- the first check of R225 that fails: of order 2, of order 6 (the byte beyond the window), of order 7
    (∀ s, ∃ c l2, copyChecks s false 0 0 inWindow (shape1 0x4000000080000000) none = [] ++ c :: l2 ∧ c.code = 0x0E ∧ c.sub = 8 ∧ c.fails) ∧
    (∃ l1 c l2, copyChecks (shapes atEnd inSbuf) false 0 0 atEnd inSbuf none = l1 ++ c :: l2 ∧ (∀ b ∈ l1, ¬b.fails) ∧
        c.code = 0x0C ∧ c.sub = 0 ∧ c.fails) ∧
    (∃ l1 c l2, copyChecks (shapes inWindow inSbuf) false 0 0x80000100 inWindow inSbuf none = l1 ++ c :: l2 ∧ (∀ b ∈ l1, ¬b.fails) ∧ c.code = 0x0E ∧
        c.sub = 11 ∧ c.fails) ∧
    (let s := State.scalars (shapes { inWindow with scale := 0x00200001 } { inSbuf with ctl := 0x4400 }) [];
      usesScales true { inWindow with scale := 0x00200001 } { inSbuf with ctl := 0x4400 } ∧
        s.shapeOf s.ply.tenant 0x00200001 = none ∧ s.ply.supervisor = false) ∧
    ((∀ e ∈ [4, 1, 1, 1, 1, 1], 0 < e) ∧ 2 ≤ [4, 1, 1, 1, 1, 1].length) := by
  have hm : Reaches loads .read 16 (loads.S64 12 + ((loads.V ((118 : BitVec 7) + 1)).at 0).signExtend 64) 0 0 := reaches_of (by decide +kernel)
  have far0 (x : Bool) (soff bar : Word) : ¬∃ o, farOne (shapes inWindow inSbuf) inWindow inSbuf o ∨ ∃ r ∈ ([] : List InEffect),
      BeyondEnd (shapes inWindow inSbuf) r o fun t => t.getD 0 0 < 8 ∧ t.getD 1 0 < if blkOf inSbuf = 1 then 96 else 64 := by
    rintro ⟨o, h | ⟨r, hr, -⟩⟩
    · exact in_window o h
    · cases hr
  have pass (x : Bool) (soff bar : Word) : ∀ c ∈ (copyChecks (shapes inWindow inSbuf) x soff bar inWindow inSbuf none).take 9, ¬c.fails := by
    intro c hc
    rw [show (9 : Nat) = 7 + 2 from rfl, List.take_add, List.mem_append] at hc
    rcases hc with hc | hc
    · exact early_pass x soff bar _ (Or.inl rfl) c hc
    · simp only [copyChecks, Option.toList, List.map_nil, List.map_cons, List.cons_append, List.nil_append, List.drop_succ_cons,
        List.drop_zero, List.take_succ_cons, List.take_zero, List.mem_cons, List.not_mem_nil, or_false] at hc
      rcases hc with rfl | rfl
      · rintro ⟨o, h⟩
        refine far0 x soff bar ⟨o, ?_⟩
        rcases h with h | h | ⟨r, h, -⟩
        · exact Or.inl (Or.inl h)
        · exact Or.inl (Or.inr h)
        · cases h
      · rintro ⟨⟨-, h⟩, -⟩; exact absurd h (by decide +kernel)
  refine ⟨by decide +kernel, by decide +kernel, ?_, by decide +kernel, ⟨by decide +kernel, ?_⟩, by decide +kernel,
    ⟨by decide +kernel, by decide +kernel, by decide +kernel, by decide +kernel, by unfold usesScales; decide +kernel, ?_⟩, ?_, ?_, ?_,
    by unfold usesScales; decide +kernel, by decide⟩
  · intro k hk; simp only [List.mem_cons, List.not_mem_nil, or_false] at hk
    rcases hk with rfl | rfl <;> exact ⟨by decide +kernel, by decide +kernel, [], by decide +kernel, by simp⟩
  · rw [loads_lanes.2]; intro l hl; rw [List.mem_singleton.mp hl]; refine ⟨?_, ?_⟩
    · unfold CopyEnd; rw [if_neg (by decide +kernel)]; exact ⟨by decide +kernel, hm⟩
    · unfold CopyEnd; rw [if_pos (by decide +kernel)]
      exact ⟨by decide +kernel, by decide +kernel, .sbuf, rfl, Or.inl rfl, by decide +kernel, by decide +kernel, by decide +kernel⟩
  · intro c hc
    rw [← List.take_append_drop 9 (copyChecks _ _ _ _ _ _ _), List.mem_append] at hc
    rcases hc with hc | hc
    · exact pass _ _ _ c hc
    · simp only [copyChecks, Option.toList, List.map_nil, List.map_cons, List.cons_append, List.nil_append, List.drop_succ_cons,
        List.drop_zero, List.mem_cons, List.not_mem_nil, or_false] at hc
      rw [hc]; dsimp only; decide +kernel
  · intro s; exact ⟨_, _, rfl, rfl, rfl, Or.inl (by decide)⟩
  · exact ⟨(copyChecks (shapes atEnd inSbuf) false 0 0 atEnd inSbuf none).take 7, _,
      (copyChecks (shapes atEnd inSbuf) false 0 0 atEnd inSbuf none).drop 8, rfl, early_pass false 0 0 atEnd (Or.inr rfl), rfl, rfl, 0x1000, at_end.elim Or.inl (fun h => Or.inr (Or.inl h))⟩
  · exact ⟨(copyChecks (shapes inWindow inSbuf) false 0 0x80000100 inWindow inSbuf none).take 9, _,
      (copyChecks (shapes inWindow inSbuf) false 0 0x80000100 inWindow inSbuf none).drop 10, rfl, pass false 0 _, rfl, rfl, by decide, Or.inr (by decide +kernel)⟩

def lcp1 (due : Option Nat) : CopyOp := ⟨5, 1, 0x10000, 0, 127, 0, .lcp 4 [⟨0, .loc .wbuf 0, .loc .xbuf 0x8000, 0, 0x8000⟩] 0, false, false, due, [], []⟩
def walk1 (sp : Space) (o : Nat) : Walk := ⟨some sp, o, 0, [4, 1, 1, 1, 1], [1, 0, 0, 0, 0]⟩
def tcopy1 (begun : Bool) : CopyOp :=
  ⟨5, 1, 0x10000, 0, 0, 0, .tcopy 1 (walk1 .xbuf 0x8000) (walk1 .sbuf 0) false [0] none none, false, begun, none, [], []⟩
def copying (o : CopyOp) : Machine.State :=
  { loads with cores := [(0, { Core.reset 0 with copyq := [o] })], counted := [⟨5, 1, 0, false, none, [], 0⟩], seq := 5 }
theorem witness_CopyEngine :
    ((tcopy1 false).begun = false ∧ (tcopy1 true).begun = true) ∧
    (∀ o ∈ [lcp1 none, tcopy1 false, tcopy1 true], let s := copying o; s.ply.uid ≠ 0 ∧ o.uid = s.ply.uid ∧
      (s.core s.ply.core).copyq.find? (fun x => x.seq == 5) = some o ∧ o.due = none ∧ o.cancelled = false ∧
      s.copyHeld s.ply.core o = false ∧ s.engineReady s.ply 5 true = true ∧ s.stale s.ply.core = [] ∧
      (∀ sp, ((s.core s.ply.core).space sp).wf = true) ∧
      (∀ u ∈ o.kind.units, isLocalPlace u.dst ∧ ∀ p, u.src = some p → isLocalPlace p) ∧ overlapping o.kind.units = false ∧
      ∀ q ∈ s.stores, q.seq ≤ s.seq) ∧
    (let s := copying (lcp1 (some 0)); s.ply.uid ≠ 0 ∧ (s.core s.ply.core).copyq.find? (fun x => x.seq == 5) = some (lcp1 (some 0)) ∧
      0 ≤ s.now ∧ (lcp1 (some 0)).kind.credits = none ∧ ∃ c ∈ s.counted, c.seq = 5 ∧ c.complete = false) := by
  have sp (s : Machine.State) (h : ((s.core s.ply.core).xbuf.wf && (s.core s.ply.core).wbuf.wf && (s.core s.ply.core).sbuf.wf) = true) :
      ∀ x, ((s.core s.ply.core).space x).wf = true := by
    simp only [Bool.and_eq_true] at h; intro x; cases x
    · exact h.1.1
    · exact h.1.2
    · exact h.2
  have u (us : List CopyUnit) (h : (us.all fun u => (match u.dst with | .loc _ _ => true | _ => false) && match u.src with | some (.loc _ _) => true | _ => false) = true) :
      ∀ u ∈ us, isLocalPlace u.dst ∧ ∀ p, u.src = some p → isLocalPlace p := by
    intro u hu; have := List.all_eq_true.mp h u hu; obtain ⟨d, x, pad, n⟩ := u; cases d <;> cases x with
    | none => simp_all
    | some p => cases p <;> simp_all [isLocalPlace]
  refine ⟨by decide, ?_, by decide +kernel⟩
  intro o ho; simp only [List.mem_cons, List.not_mem_nil, or_false] at ho
  rcases ho with rfl | rfl | rfl <;>
    exact ⟨by decide +kernel, by decide +kernel, by decide +kernel, by decide +kernel, by decide +kernel, by decide +kernel, by decide +kernel, by decide +kernel,
      sp _ (by decide +kernel), u _ (by decide +kernel), by decide +kernel, by decide +kernel⟩

def fifo (up down : Nat) (s : Machine.State := base) : Machine.State :=
  { s with fifos := [(0, { s.fifo 0 with up := List.replicate up (Lanes.zero, false), down := List.replicate down (Lanes.zero, false) })] }
theorem witness_VerticalFifos :
    (VectorReady base [119] ∧ base.partnerAbsent base.ply.core = false ∧ Lives base ∧ (base.pushFifo base.ply.core).length < 16 ∧
      base.pushersWait base.ply.core = false ∧ base.popFifo base.ply.core = []) ∧
    (16 ≤ ((fifo 16 1).pushFifo base.ply.core).length ∧ Lives (fifo 16 1) ∧ (fifo 16 1).partnerAbsent base.ply.core = false ∧
      (fifo 16 1).popFifo base.ply.core = (Lanes.zero, false) :: []) ∧
    (let s := { base with cores := [(64, { Core.reset 64 with retired := true })] };
      s.partnerAbsent s.ply.core = true ∧ s.ply.supervisor = false) ∧
    (let s := waiting (.vfpush 119); s.ply.uid ≠ 0 ∧ s.path.wait = .vfpush 119 ∧ (s.pushFifo s.ply.core).length < 16 ∧ s.firstPusher s.ply = true) ∧
    (let s := fifo 16 1 (waiting (.vfpop 119)); s.ply.uid ≠ 0 ∧ s.path.wait = .vfpop 119 ∧ s.popFifo s.ply.core = (Lanes.zero, false) :: [] ∧
      (119 : BitVec 7).toNat < s.ply.vregs.length) := by
  refine ⟨⟨ready_of _ _ ?_, ?_, ⟨?_, ?_⟩, ?_, ?_, ?_⟩, ⟨?_, ⟨?_, ?_⟩, ?_, ?_⟩, ?_, ?_, ?_⟩ <;> decide +kernel
theorem witness_ClockHeatAndErrors :
    ((base.cluster 0).volt = false ∧ base.inFlight 0 = false) ∧ (copying (lcp1 none)).inFlight 0 = true ∧
    ((base.vault 0).readings < 32000 / 32000 ∧ base.now / 32000 ≤ (base.vault 0).readings) ∧
    base.failing.contains (0x20003 / 8 * 8) = false := by decide +kernel

/-! ## Witnesses: tasks, claims, ends -/

/-- One lane; s4:s5 = 0x20000 where one record of 32 bytes stands, s12 = 1, s13 = 257, s14:s15 = 0x20008. -/
def spawns : Machine.State :=
  let s := State.scalars loads [(12, 1), (13, 257), (14, 0x20008), (16, 0x40000000)]
  { s with mem := s.mem.writeN 0x20000 (taskRecord 0x10000 #v[1, 2, 3, 4] 1 5 2) }
theorem spawns_lanes : storingLanes spawns = [0] := by decide +kernel
theorem witness_SpawnIssue :
    (119 ≤ spawns.ply.vregs.length ∧ (114 : BitVec 7).toNat + 6 ≤ spawns.ply.vregs.length ∧
      spawns.cancelledLanes spawns.ply &&& spawns.counted' = 0 ∧ spawns.ply.occ ≠ 0) ∧
    (storingLanes spawns ≠ [] ∧ IsEntry (spawns.S64 4) ∧ (∀ l ∈ storingLanes spawns, (spawns.S 20).toNat < 2 ^ 24 ∧
      PlacementOk spawns (spawns.S 21))) ∧
    (canonical (spawns.S64 14) ∧ (spawns.S64 14).toNat % 64 ≠ 0 ∧ spawns.ply.supervisor = false) ∧
    (∃ l ∈ storingLanes spawns, ¬PlacementOk spawns (spawns.S (15 + 1))) ∧
    ((116 : BitVec 7).toNat ≤ 119 ∧ (State.withPly spawns fun p => { p with vregs := p.vregs.take 112 }).ply.vregs.length < (116 : BitVec 7).toNat + 4) ∧
    (spawns.S 12 ≠ 0 ∧ (spawns.S 12).toNat ≤ 256 ∧ (spawns.S64 4).toNat % 32 = 0 ∧ 256 < (spawns.S 13).toNat ∧ (spawns.S64 14).toNat % 32 ≠ 0) ∧
    (let s := waiting (.spawnr 4 12 20) spawns; NoRequest s 9 ∧ s.path.wait = .spawnr 4 12 20 ∧
      (∀ o ∈ s.ply.lsq, o.kind.isStore = true → o.kind.isAtom = true) ∧ PlacementOk s (s.S 20) ∧
      ∀ j, j < (s.S 12).toNat → IsEntry 0x10000 ∧ Reaches s .read 32 (s.S64 4 + BitVec.ofNat 64 (32 * j)) 127 0x20000 ∧
        s.bad 0x20000 32 = false ∧ s.seenN s.ply.core 0x20000 32 = taskRecord 0x10000 #v[1, 2, 3, 4] 1 5 2) := by
  have place (w : Word) (h : (w.getLsbD 30 == false && w.toNat / 2 ^ 25 % 8 == 0 && w.getLsbD 31 == false) = true) (s : Machine.State) : PlacementOk s w := by
    simp only [Bool.and_eq_true, beq_iff_eq] at h
    exact ⟨h.1.1, h.1.2, fun x => by rw [h.2] at x; cases x⟩
  refine ⟨by decide +kernel, ⟨?_, ⟨by decide +kernel, by decide +kernel⟩, ?_⟩, ⟨?_, by decide +kernel, by decide +kernel⟩, ?_, by decide +kernel, by decide +kernel, ⟨?_, ?_⟩, ?_, ?_, ?_, ?_⟩
  · rw [spawns_lanes]; decide
  · intro l _; exact ⟨by decide +kernel, place _ (by decide +kernel) _⟩
  · unfold canonical; decide +kernel
  · rw [spawns_lanes]; refine ⟨0, List.mem_singleton.mpr rfl, fun h => ?_⟩; exact absurd h.1 (by decide +kernel)
  · decide +kernel
  · refine ⟨?_, ?_, ?_⟩ <;> decide +kernel
  · decide +kernel
  · decide +kernel
  · exact place _ (by decide +kernel) _
  · intro j hj
    have hn : ((waiting (.spawnr 4 12 20) spawns).S 12).toNat = 1 := by decide +kernel
    rw [hn] at hj; have : j = 0 := by omega
    subst this
    exact ⟨⟨by decide +kernel, by decide +kernel⟩, reaches_of (by decide +kernel), by decide +kernel, by decide +kernel⟩

/-- s12 holds 8, s13 1, s14 9. -/
def claims : Machine.State := State.withPly (State.scalars solo [(12, 8), (13, 1), (14, 9)]) fun p => { p with vregs := p.vregs.take 112 }
/-- Two plies of 120 registers and 8 tiles and one of 120 and 1 stand beside a ply of 112 and 7. -/
def crowd (w : Wait) (s : Machine.State) : Machine.State :=
  let p := { s.ply with path0 := { s.ply.path0 with wait := w } }
  { State.withPly s fun _ => { p with age := 5 } with plies :=
    [{ p with uid := 2, vregs := List.replicate 120 Lanes.zero, tiles := List.replicate 8 (List.replicate 64 Lanes.zero) },
     { p with uid := 3, vregs := List.replicate 120 Lanes.zero, tiles := List.replicate 8 (List.replicate 64 Lanes.zero) },
     { p with uid := 4, vregs := List.replicate 120 Lanes.zero, tiles := List.replicate 1 (List.replicate 64 Lanes.zero) }] }
def seven : Machine.State := State.withPly claims fun p => { p with tiles := p.tiles.take 7 }
theorem witness_ClaimAndGive :
    (Lives claims ∧ (claims.S 0).toNat = 0 ∧ (claims.S 14).toNat ≠ 0 ∧ ¬Counts 0 (claims.S 14).toNat ∧
      most 1 < held claims.ply 1 + (claims.S 13).toNat) ∧
    ((claims.S 12).toNat ≠ 0 ∧ Counts 0 (claims.S 12).toNat ∧ held claims.ply 0 + (claims.S 12).toNat ≤ most 0 ∧
      poolCost 0 (claims.S 12).toNat ≤ claims.freeRegs claims.ply.core ∧ claims.fittingClaims claims.ply.core = []) ∧
    (let s := crowd .none seven; Lives s ∧ (s.S 13).toNat ≠ 0 ∧ Counts 1 (s.S 13).toNat ∧
      held s.ply 1 + (s.S 13).toNat ≤ most 1 ∧ s.freeRegs s.ply.core < poolCost 1 (s.S 13).toNat) ∧
    (Counts 0 (claims.S 12).toNat ∧ (claims.S 12).toNat + least 0 ≤ held claims.ply 0 ∧ held claims.ply 1 < (claims.S 14).toNat + least 1) ∧
    (let s := waiting (.claim 20 ((0 : BitVec 1) == 1) 8) claims; s.ply.uid ≠ 0 ∧ s.path.wait = .claim 20 ((0 : BitVec 1) == 1) 8 ∧
      ∃ l, s.fittingClaims s.ply.core = s.ply :: l) ∧
    (let s := crowd (.claim 20 true 1) seven; s.ply.uid ≠ 0 ∧ s.claimStuck s.ply.core = true ∧ s.path.wait = .claim 20 true 1 ∧
      (∀ q ∈ s.onCore s.ply.core, q = s.ply ∨ q.age < s.ply.age) ∧ s.ply.management = false) := by
  refine ⟨⟨⟨?_, ?_⟩, ?_, ?_, ?_, ?_⟩, ⟨?_, Or.inr ?_, ?_, ?_, ?_⟩, ⟨⟨?_, ?_⟩, ?_, Or.inl rfl, ?_, ?_⟩, ⟨Or.inr ?_, ?_, ?_⟩, ⟨?_, ?_, [], ?_⟩,
    ?_, ?_, ?_, ?_, ?_⟩ <;> first | decide +kernel | (unfold Counts; decide +kernel)

/-- A ply on the upper core 64, whose tower gates. -/
def gated : Machine.State :=
  { State.withPly base fun p => { p with core := 64 } with
    dies := (State.reset.dies.filter fun d => d.1 != dieOf 64) ++ [(dieOf 64, .gating 0 0)] }
theorem witness_EndsAndYields :
    (Named base ∧ Unbound base ∧ base.cancelledLanes base.ply &&& base.path.member = 0 ∧ (∀ a ∈ base.arrivals, a.uid ≠ base.ply.uid) ∧
      storingLanes base ≠ [] ∧ base.ply.occ &&& ~~~base.path.active = 0 ∧ base.ply.failures = [] ∧ base.ply.firing = none) ∧
    storingLanes still = [] ∧
    (let s := State.onPath base fun q => { q with active := 1 }; Named s ∧ Unbound s ∧ s.cancelledLanes s.ply &&& s.path.member = 0 ∧
      s.ply.occ &&& ~~~s.path.active ≠ 0) ∧
    (claims.ply.vregs.length < (113 : BitVec 7).toNat ∧ claims.ply.supervisor = false) ∧
    ((16 : BitVec 7).toNat ≤ base.ply.vregs.length ∧ base.ply.uid ≠ 0 ∧ base.ply.occ ≠ 0 ∧ base.cancelledLanes base.ply = 0 ∧ base.ply.dstack = [] ∧
      base.path.transfer = .none ∧ base.ply.marked = none ∧ base.gating base.ply.core = false) ∧
    -- a rotation that has ended
    (let s := State.withPly base fun p => { p with marked := some 0, charge := 0 }; s.ply.marked = some 0 ∧
      s.vaultCharge (vaultOf s.ply.core) ≤ (s.vault (vaultOf s.ply.core)).limit) ∧
    (let s := gated; s.gating s.ply.core = true ∧ s.ply.gangsize = 1 ∧ s.ply.supervisor = false ∧ s.ply.ctx.state ≠ .opened ∧
      (s.ply.cnt[3]?).getD 0 = 0 ∧ s.ply.occ ≠ 0 ∧ s.cancelledLanes s.ply = 0) := by
  have u (s : Machine.State) (h : s.ply.lanes = base.ply.lanes) : Unbound s := by
    intro i hi; have : s.ply.info i = LaneInfo.empty := by
      unfold Ply.info; rw [h]; show ((Vector.replicate 96 LaneInfo.empty)[i]?).getD _ = _; simp [hi]
    rw [this]; exact ⟨rfl, rfl⟩
  refine ⟨⟨⟨?_, ?_, ?_, ?_⟩, u _ rfl, ?_, ?_, ?_, ?_, ?_, ?_⟩, ?_, ⟨⟨?_, ?_, ?_, ?_⟩, u _ rfl, ?_, ?_⟩, ?_, ?_, ?_, ?_⟩ <;> decide +kernel

/-! ## Witnesses: scopes, cancellation, tasks in the store -/

def okWith {α : Type} (e : Except Cause α) : Bool :=
  match e with
  | .ok _ => true
  | .error _ => false
theorem error_of {α : Type} {e : Except Cause α} (h : okWith e = false) : ∃ c, e = .error c := by
  cases e <;> simp_all [okWith]
def scope7 (st : ScopeState) (sealed : Bool) (notify : Nat) (cont : DWord) : Scope :=
  ⟨0, 7, 0, st, sealed, 0, 0, 0, 0, 0, cont, 0, notify, 0x20000, 0, none⟩
/-- s12 = 7, s13 holds more than an identifier, s20:s21 the address 0x20000. -/
def inScope (l : List Scope) (s : Machine.State := base) : Machine.State :=
  { State.scalars s [(12, 7), (13, 0x01000000), (20, 0x20000)] with scopes := l }
theorem witness_ScopeInstructions :
    (let s := inScope []; (s.S 12).toNat < 2 ^ 24 ∧ 2 ^ 24 ≤ (s.S 13).toNat ∧ s.ply.hubq = [] ∧ NotLive s (named s (s.S 12)) ∧ Lives s ∧
      s.scopeOf s.ply.tenant (named s (s.S 12)) = none) ∧
    (State.withPly (inScope []) fun p => { p with hubq := [⟨4, 0, .ptime 20⟩] }).ply.hubq ≠ [] ∧
    (∀ st ∈ [ScopeState.opened, .faulted], let s := inScope [scope7 st false 0 0];
      named s (s.S 12) = 7 ∧ ScopesDiffer s ∧ s.scopeOf s.ply.tenant 7 = some (scope7 st false 0 0) ∧ ¬NotLive s 7 ∧
        ∀ x ∈ s.released, (x.1, x.2.1) ≠ (s.ply.tenant, (7 : BitVec 24))) ∧
    -- SCOPCL: sealed already, or a state that it does not change; not drained; drained; CANCEL of a scope that is not open
    ((scope7 .closed true 0 0).state = .closed ∧ (scope7 .opened true 0 0).sealed' = true ∧
      (inScope [{ scope7 .opened false 0 0 with live := 1 }]).drained { scope7 .opened false 0 0 with live := 1 } = false ∧
      (inScope [scope7 .opened false 0 0]).drained (scope7 .opened false 0 0) = true ∧
      (∀ x ∈ [scope7 .opened false 0 0], x.due.isNone = true) ∧ (scope7 .faulted false 0 0).state ≠ .opened) ∧
    (let s := inScope [scope7 .opened false 0 0] (waiting (.scpst 20 7)); s.path.wait = .scpst 20 7 ∧ s.ply.hubq = [] ∧ ¬NotLive s 7) ∧
    (let s := inScope [] (waiting (.scpst 20 7)); s.ply.uid ≠ 0 ∧ s.path.wait = .scpst 20 7 ∧ s.ply.hubq = [] ∧ NotLive s 7 ∧
      (∀ x ∈ s.released, (x.1, x.2.1) ≠ (s.ply.tenant, (7 : BitVec 24))) ∧
      ({ s with released := [(0, 7, 0x703)] } : Machine.State).released.find? (fun x => x.1 == s.ply.tenant && x.2.1 == (7 : BitVec 24)) =
        some (s.ply.tenant, 7, 0x703)) := by
  refine ⟨⟨?_, ?_, ?_, ?_, ⟨?_, ?_⟩, ?_⟩, ?_, ?_, ?_, ?_, ?_, ?_, ?_, ?_, ?_, ?_⟩ <;>
    first | decide +kernel | (unfold NotLive; decide +kernel) | (unfold NotLive ScopesDiffer; decide +kernel)

def asked (k : HubKind) (s : Machine.State := inScope []) : Machine.State := State.withPly s fun p => { p with hubq := [⟨9, p.slot, k⟩] }
theorem asked_of (k : HubKind) (s : Machine.State)
    (h : (decide (s.ply.uid ≠ 0) && s.plies.isEmpty && s.ghosts.isEmpty && s.saved.isEmpty && s.ply.lsq.isEmpty &&
      (asked k s).answerable (asked k s).ply ⟨9, s.ply.slot, k⟩) = true) : Asked (asked k s) ⟨9, s.ply.slot, k⟩ := by
  simp only [Bool.and_eq_true, decide_eq_true_eq, List.isEmpty_iff] at h
  obtain ⟨⟨⟨⟨⟨h1, h2⟩, h3⟩, h4⟩, h5⟩, h6⟩ := h
  refine ⟨⟨h1, ?_, ?_, ?_⟩, ?_, ?_, h6, rfl⟩
  · intro q hq; have : q ∈ s.plies := hq; rw [h2] at this; cases this
  · intro q hq; have : q ∈ s.ghosts := hq; rw [h3] at this; cases this
  · intro q hq; have : q ∈ s.saved := hq; rw [h4] at this; cases this
  · intro q hq; have : q ∈ s.ply.lsq := hq; rw [h5] at this; cases this
  · simp [asked, State.withPly]
/-- The record of scope 9 stands at 0x20000. -/
def opening (l : List Scope) (share : Nat) : Machine.State :=
  let s := inScope l
  { s with
    mem := s.mem.writeN 0x20000 (scopeRecord 9 0x10000 5 1 (zeros 28) (zeros 4))
    tenants := [(0, { s.tenant 0 with share := share })] }
def openKind (p : BitVec 24) (nowhere : Bool) : HubKind := .scopen 20 0x20000 p nowhere
def task1 : Task := ⟨0x10000, #v[0, 0, 0, 0], 7, 0, 0, 1, 0, 0, false, 0, none, none, none, false, none⟩
theorem witness_HubAnswers :
    Asked (asked (.ptime 20)) ⟨9, base.ply.slot, .ptime 20⟩ ∧ Asked (asked (.scpst 20 7)) ⟨9, base.ply.slot, .scpst 20 7⟩ ∧
    (NotLive (asked (.scpst 20 7)) 7 ∧ (inScope [scope7 .opened true 0 0]).scopeOf base.ply.tenant 7 = some (scope7 .opened true 0 0)) ∧
    (Asked (asked (openKind 0 false) (opening [] 4096)) ⟨9, base.ply.slot, openKind 0 false⟩ ∧
      Reaches (asked (openKind 0 false) (opening [] 4096)) .write 64 0x20000 127 0x20000 ∧
      num ((asked (openKind 0 false)).phys 0x20000 64) 0 1 ≠ 1 ∧
      (asked (openKind 0 false) (opening [] 4096)).phys 0x20000 64 = scopeRecord 9 0x10000 5 1 (zeros 28) (zeros 4)) ∧
    (∃ c, (asked (openKind 0 false)).translate base.ply.tenant .write 0x40000000000 = .error c) ∧
    (let s := opening [] 4096; ¬(s.scopeOf s.ply.tenant 9).isSome = true ∧ ParentOk s 0 ∧
      (s.scopes.filter fun q => q.tenant == s.ply.tenant).length < (s.tenant s.ply.tenant).share ∧
      ∀ z ∈ s.released, (z.1, z.2.1) ≠ (s.ply.tenant, (9 : BitVec 24))) ∧
    (let s := opening [{ scope7 .opened false 0 0 with id := 9 }] 4096; (s.scopeOf s.ply.tenant 9).isSome = true) ∧
    (let s := opening [scope7 .opened true 0 0] 1; ¬ParentOk s 7 ∧ ¬(s.scopes.filter fun q => q.tenant == s.ply.tenant).length < (s.tenant s.ply.tenant).share) ∧
    (let s := inScope [scope7 .opened false 0 0]; Asked (asked (.spawn [(0, task1)]) s) ⟨9, base.ply.slot, .spawn [(0, task1)]⟩ ∧
      ScopesDiffer s ∧ Accepts s task1) ∧
    (∀ k ∈ [HubKind.cancel 7, .scopcl 7], Asked (asked k) ⟨9, base.ply.slot, k⟩) ∧
    (let s := inScope [{ scope7 .opened false 0 0 with live := 1 }];
      s.scopeOf s.ply.tenant 7 = some { scope7 .opened false 0 0 with live := 1 } ∧
        s.drained { scope7 .opened false 0 0 with live := 1 } = false) := by
  refine ⟨asked_of _ _ ?_, asked_of _ _ ?_, ⟨?_, ?_⟩, ⟨asked_of _ _ ?_, reaches_of ?_, ?_, ?_⟩, ?_, ⟨?_, Or.inl rfl, ?_, ?_⟩, ?_, ⟨?_, ?_⟩,
    ⟨asked_of _ _ ?_, ?_, Or.inr ⟨scope7 .opened false 0 0, ?_, ?_, ?_, ?_⟩⟩, ?_, ?_⟩ <;>
    first | decide +kernel | (unfold NotLive; decide +kernel) | (unfold ScopesDiffer; decide +kernel) | skip
  · exact error_of (by decide +kernel)
  · intro h
    have hs : (opening [scope7 .opened true 0 0] 1).scopeOf 0 7 = some (scope7 .opened true 0 0) := by decide +kernel
    rcases h with h | ⟨x, hx, _, h3⟩
    · exact absurd h (by decide)
    · have ht : (opening [scope7 .opened true 0 0] 1).ply.tenant = 0 := by decide +kernel
      rw [ht, hs] at hx; cases hx; exact absurd h3 (by decide)
  · intro k hk; simp only [List.mem_cons, List.not_mem_nil, or_false] at hk
    rcases hk with rfl | rfl <;> exact asked_of _ _ (by decide +kernel)

/-- Its core has heard the cancellation of the root's lanes' scope 7; every lane's task is in scope 7. -/
def cancelled : Machine.State :=
  { State.withPly solo fun p => { p with lanes := p.lanes.set 0 { LaneInfo.empty with scope := 7 } } with
    scopes := [{ scope7 .cancelling false 0 0 with live := 1 }], cores := [(0, { Core.reset 0 with heard := [(0, 7)] })] }
def heardSome : Machine.State := { base with broadcasts := [⟨0, 7, [0, 1]⟩], ply := { base.ply with running := false } }
theorem witness_CancelAndDrain :
    (heardSome.broadcasts[0]? = some ⟨0, 7, [0, 1]⟩ ∧ 0 ∈ [0, 1] ∧ ∀ p ∈ heardSome.onCore 0, (heardSome.plyOf p.uid).running = false) ∧
    (storingLanes cancelled ≠ [] ∧ (16 : BitVec 7).toNat ≤ cancelled.ply.vregs.length ∧ cancelled.path.transfer = .none ∧
      Named cancelled ∧ Unbound cancelled ∧ AllCancelled cancelled ∧ cancelled.ply.failures = [] ∧ cancelled.ply.firing = none ∧
      ∀ x ∈ cancelled.arrivals, x.uid ≠ cancelled.ply.uid) ∧
    (∀ n ∈ [0, 1, 2], let s := inScope [scope7 .opened true n 0x10000]; ScopesDiffer s ∧
      s.scopeOf 0 (BitVec.ofNat 24 7) = some (scope7 .opened true n 0x10000) ∧ s.drained (scope7 .opened true n 0x10000) = true ∧
      s.scopeCancelled 0 (scope7 .opened true n 0x10000).parent = false) ∧
    (let s := inScope [scope7 .faulted false 0 0]; ScopesDiffer s ∧ s.drained (scope7 .faulted false 0 0) = true) ∧
    -- a parent that is cancelled takes no continuation
    (let s := inScope [{ scope7 .opened true 1 0x10000 with parent := 9 }, { scope7 .cancelling false 0 0 with id := 9 }];
      ∃ x ∈ s.scopes, x.tenant = 0 ∧ x.id ≠ 7 ∧ (x.state = .cancelling ∨ x.state = .faulted) ∧ s.under 0 x.id 9 = true) ∧
    -- a record whose time has come, and one whose time has not
    (∀ e ∈ [0, 5], let s := { inScope [{ scope7 .closed true 0 0 with due := some e }] with stores := [pending 3 0] };
      s.stores.find? (fun x => x.seq == 3) = some (pending 3 0) ∧ (pending 3 0).time ≤ s.now ∧ s.landings = [] ∧ ScopesDiffer s ∧
      { scope7 .closed true 0 0 with due := some e } ∈ s.scopes ∧ ∀ r ∈ s.stores, lineOf r.pa = lineOf (pending 3 0).pa → 3 ≤ r.seq) := by
  have u : Unbound cancelled := by
    intro i hi
    have h : ∀ j : Fin 96, (cancelled.ply.info j).leaf = none ∧ (cancelled.ply.info j).commit = none := by decide +kernel
    exact h ⟨i, hi⟩
  refine ⟨⟨?_, ?_, ?_⟩, ⟨?_, ?_, ?_, ⟨?_, ?_, ?_, ?_⟩, u, ⟨?_, ?_, ?_⟩, ?_, ?_, ?_⟩, ?_, ?_, ?_, ?_⟩ <;>
    first | decide +kernel | (unfold ScopesDiffer; decide +kernel)

def transit1 : Transit := ⟨0, { task1 with arrival := 3 }, false⟩
def bin (n : Nat) (l : List Task) : Bin := ⟨n, 0, 0x10000, false, l⟩
def coming (k : Core) (l : List Scope := []) : Machine.State := { base with transit := [transit1], cores := [(0, k)], scopes := l }
def fullStore (cap : Word) (l : List Task) : Core :=
  { Core.reset 0 with bins := [{ bin 0 (List.replicate 8192 task1) with entry := 0x20000 }], overflow := l, taskCap := cap }
theorem stored_of (c : Core) (b : Bin) (h : c.bins = [b]) : c.stored = b.tasks.length := by simp [Core.stored, h]
theorem full_bin (n : Nat) (l : List Scope) (k : Core) (h : k.bins = [{ bin 0 (List.replicate n task1) with entry := 0x20000 }]) :
    ((coming k l).core 0).stored = n := by
  have : ((coming k l).core 0) = k := rfl
  rw [this, stored_of _ _ h]; simp [bin]
theorem full_stored (cap : Word) (l : List Scope) : ((coming (fullStore cap []) l).core 0).stored = 8192 := full_bin 8192 l _ rfl
/-- The bin of another entry is full, and the overflow list is at 0x20000. -/
def spilling : Machine.State := coming { fullStore 1 [] with taskBase := 0x20000 }
/-- Nor is there room in the overflow list; the fault ring of 2 records stands at 0x30000, its tail word at 0x20000. -/
def ringed : Machine.State :=
  { coming (fullStore 0 []) with
    tenants := [(0, { base.tenant 0 with ringBase := 0x30000, ringLog2 := 1, ringTail := 0x20000 })] }
theorem witness_TaskStore :
    (let x : Transit := { transit1 with stolen := true };
      [x, x][1]? = some x ∧ x.stolen = true ∧ ∃ y ∈ [x, x].take 1, y.stolen = true ∧ y.core = x.core) ∧
    (let s := { coming { Core.reset 0 with heard := [(0, 7)] } with scopes := [scope7 .cancelling false 0 0] };
      s.transit[0]? = some transit1 ∧ transit1.stolen = false ∧ transit1.task.commit = none ∧
      s.heardCancel 0 transit1.task.tenant transit1.task.scope = true ∧ ScopesDiffer s) ∧
    (let s := coming { Core.reset 0 with bins := [bin 0 [task1]] }; s.heardCancel 0 0 7 = false ∧
      (s.core 0).bins = [] ++ [bin 0 [task1]] ++ [] ∧ (s.core 0).stored < 8192) ∧
    (let s := coming { Core.reset 0 with bins := [{ bin 0 [task1] with entry := 0x20000 }] }; (s.core 0).stored < 8192 ∧
      (∀ b ∈ (s.core 0).bins, ¬(b.entry = transit1.task.entry ∧ b.tenant = transit1.task.tenant)) ∧ 1 < 64 ∧
      (∀ b ∈ (s.core 0).bins, b.number ≠ 1) ∧ ∀ m, m < 1 → ∃ b ∈ (s.core 0).bins, b.number = m) ∧
    (8192 ≤ (spilling.core 0).stored ∧ (spilling.core 0).overflow.length < (spilling.core 0).taskCap.toNat ∧
      canonical ((spilling.core 0).taskBase + BitVec.ofNat 64 (32 * 0)) ∧
      ((spilling.core 0).taskBase + BitVec.ofNat 64 (32 * 0)).toNat % 32 = 0 ∧
      spilling.translate 0 .write ((spilling.core 0).taskBase + BitVec.ofNat 64 (32 * 0)) = .ok 0x20000) ∧
    (let s := coming (fullStore 0 []) [scope7 .opened false 0 0]; 8192 ≤ (s.core 0).stored ∧ (s.core 0).taskCap.toNat ≤ (s.core 0).overflow.length ∧
      ScopesDiffer s ∧ s.scopeOf 0 7 = some (scope7 .opened false 0 0)) ∧
    (8192 ≤ (ringed.core 0).stored ∧ ringed.scopeOf 0 7 = none ∧ RingRoom ringed 0 0 0 0x20000 0x30000) ∧
    (∃ c, ({ ringed with tenants := [(0, { ringed.tenant 0 with ringTail := 0x40000000000 })] } : Machine.State).range 0 .read
      ({ ringed.tenant 0 with ringTail := 0x40000000000 } : Tenant).ringTail 8 = .error c) ∧
    ({ base with clusters := [(0, { Cluster.reset with part := some 0 })] } : Machine.State).mayProbe 0 = true := by
  refine ⟨?_, ⟨?_, ?_, ?_, ?_, ?_⟩, ⟨?_, ?_, ?_⟩, ⟨?_, ?_, ?_, ?_, ?_⟩, ⟨?_, ?_, ?_, ?_, isOk_eq ?_⟩, ⟨?_, ?_, ?_, ?_⟩,
    ⟨?_, ?_, ?_, ?_, isOk_eq ?_, isOk_eq ?_, ?_, ?_, ?_, ?_, isOk_eq ?_⟩, ?_, ?_⟩ <;>
    first | exact Nat.le_of_eq (full_stored _ _).symm | decide +kernel | (unfold ScopesDiffer; decide +kernel) |
      (unfold canonical; decide +kernel) | skip
  exact error_of (by decide +kernel)
/-! ## Witnesses: paths -/

/-- The n-th check of a table is the first that fails. -/
def FirstFails (cs : List Check) (n : Nat) : Prop := (∀ b ∈ cs.take n, ¬b.fails) ∧ ∃ c, cs[n]? = some c ∧ c.fails
theorem FirstFails.raises {cs : List Check} {n : Nat} (h : FirstFails cs n) :
    ∃ l1 c l2, cs = l1 ++ c :: l2 ∧ (∀ b ∈ l1, ¬b.fails) ∧ c.fails := by
  obtain ⟨h1, c, h2, h3⟩ := h
  obtain ⟨hn, rfl⟩ := List.getElem?_eq_some_iff.mp h2
  exact ⟨cs.take n, cs[n], cs.drop (n + 1), by simp, h1, h3⟩

def view1 : View := ⟨65536, 0, 0, 0, 65536, 0, 0, 0⟩
def params1 : PathParams := ⟨0x20000, 0, false, 0, 0, 5, 0, 4160, 1, 1, 0⟩
def ctx1 (st : PathState) : PathCtx := ⟨st, params1, [view1], [view1], [(0, 0)], [(4096, 0)], true⟩
/-- s16 … s23 hold the parameters of params1, s24 … s29 three points, s12 = 0 a tile, s13 = 5 a layer; the window holds one tile. -/
def drawing (st : PathState) (xbuf : Memory := []) (s : Machine.State := loads) : Machine.State :=
  let s := State.scalars s [(16, 0x20000), (19, 5), (21, 0x1001), (22, 4160), (13, 5), (11, 1)]
  { State.withPly s fun p => { p with windowBase := 0x8000, windowSize := 0x10000, ctx := ctx1 st } with
    cores := [(0, { Core.reset 0 with xbuf := xbuf, windows := [⟨1, 0x8000, 0x10000⟩] })] }
/-- A view of a quarter turn and an offset, as PVIEW reads it at 0x20 of the window. -/
def view2 : View := ⟨0, -65536, 7, 65536, 0, -9, -3, 3⟩
/-- A view at 0x20 of the window, its last four bytes p. -/
def viewed (k a : Word) (p : Byte := 0) (st : PathState := .none) : Machine.State :=
  State.scalars (drawing st (Memory.writeN [] 0x8020 ((viewBytes view2).take 28 ++ [p]))) [(12, k), (13, a)]

theorem begin_passes : allPass (beginChecks (drawing .none) 16) := by
  unfold allPass
  simp only [beginChecks, List.forall_mem_cons, List.not_mem_nil, IsEmpty.forall_iff, implies_true, and_true]
  unfold canonical ReservedZero; decide +kernel
/-- Scalars that make the checks of PBEGIN fail one after the other. -/
def beginCases : List (Nat × BitVec 6 × Word) :=
  [(1, 17, 0x10000000), (2, 16, 0x20008), (3, 19, 0x200000), (4, 20, 0xC0000000), (5, 22, 0xC0000000), (6, 20, 0x40000000),
    (7, 22, 0x40000000), (8, 20, 4), (9, 22, 4), (10, 20, 0xFFC0), (11, 22, 0xFFC0)]
theorem begin_fails : ∀ x ∈ beginCases, FirstFails (beginChecks (State.scalars (drawing .closed) [x.2]) 16) x.1 := by
  intro x hx
  simp only [beginCases, List.mem_cons, List.not_mem_nil, or_false] at hx
  rcases hx with rfl | rfl | rfl | rfl | rfl | rfl | rfl | rfl | rfl | rfl | rfl <;>
    refine ⟨?_, _, rfl, ?_⟩ <;>
    simp only [beginChecks, List.take_succ_cons, List.take_zero, List.forall_mem_cons, List.not_mem_nil, IsEmpty.forall_iff, implies_true, and_true] <;>
    (try unfold canonical) <;> (try unfold ReservedZero) <;> decide +kernel
theorem view_pads (k a : Word) (h : k.toNat = 1 ∧ (List.range 4).all (fun j =>
    (scalarBytes (viewed k a) ((viewed k a).ply.windowBase + a.toNat) 32).getD (28 + j) 0 == 0) = true) :
    ¬∃ i, i < k.toNat ∧ ∃ j, 28 ≤ j ∧ j < 32 ∧
      (scalarBytes (viewed k a) ((viewed k a).ply.windowBase + a.toNat) (32 * k.toNat)).getD (32 * i + j) 0 ≠ 0 := by
  rw [h.1]
  rintro ⟨i, hi, j, hj, hk, hb⟩
  obtain rfl : i = 0 := by omega
  have := List.all_eq_true.mp h.2 (j - 28) (List.mem_range.mpr (by omega))
  rw [show 28 + (j - 28) = j by omega, beq_iff_eq] at this
  exact hb (by rw [show 32 * 0 + j = j by omega]; exact this)
theorem view_passes : allPass (viewChecks (viewed 1 0x20) 12 13) := by
  unfold allPass
  simp only [viewChecks, List.forall_mem_cons, List.not_mem_nil, IsEmpty.forall_iff, implies_true, and_true]
  have h12 : (viewed 1 0x20).S 12 = 1 := by decide +kernel
  have h13 : (viewed 1 0x20).S 13 = 0x20 := by decide +kernel
  rw [h12, h13]
  refine ⟨by decide +kernel, by decide, by decide, by decide, by decide, by decide +kernel, view_pads 1 0x20 (by decide +kernel)⟩
def viewCases : List (Nat × Word × Word × Byte) :=
  [(1, 129, 0x20, 0), (2, 1, 0xC0000000, 0), (3, 1, 0x40000000, 0), (4, 1, 4, 0), (5, 1, 0x10000, 0)]
theorem view_fails : ∀ x ∈ viewCases, FirstFails (viewChecks (viewed x.2.1 x.2.2.1 x.2.2.2) 12 13) x.1 := by
  intro x hx
  simp only [viewCases, List.mem_cons, List.not_mem_nil, or_false] at hx
  rcases hx with rfl | rfl | rfl | rfl | rfl <;>
    refine ⟨?_, _, rfl, ?_⟩ <;>
    simp only [viewChecks, List.take_succ_cons, List.take_zero, List.forall_mem_cons, List.not_mem_nil, IsEmpty.forall_iff, implies_true, and_true] <;>
    decide +kernel
theorem view_reserved : FirstFails (viewChecks (viewed 1 0x20 9) 12 13) 6 := by
  refine ⟨?_, _, rfl, 0, ?_, 28, by omega, by omega, ?_⟩
  · simp only [viewChecks, List.take_succ_cons, List.take_zero, List.forall_mem_cons, List.not_mem_nil, IsEmpty.forall_iff, implies_true, and_true]
    decide +kernel
  all_goals decide +kernel
theorem witness_PathBuilding :
    allPass (beginChecks (drawing .none) 16) ∧ FirstFails (beginChecks (drawing .opened) 16) 0 ∧
    (∀ x ∈ beginCases, FirstFails (beginChecks (State.scalars (drawing .closed) [x.2]) 16) x.1) ∧
    allPass (viewChecks (viewed 1 0x20) 12 13) ∧ FirstFails (viewChecks (viewed 1 0x20 0 .opened) 12 13) 0 ∧
    (∀ x ∈ viewCases, FirstFails (viewChecks (viewed x.2.1 x.2.2.1 x.2.2.2) 12 13) x.1) ∧
    FirstFails (viewChecks (viewed 1 0x20 9) 12 13) 6 ∧
    (let s := viewed 1 0x20; [view2].length = (s.S 12).toNat ∧ ViewOk view2 ∧
      [view2].flatMap viewBytes = scalarBytes s (s.ply.windowBase + (s.S 13).toNat) (32 * [view2].length)) ∧
    ((drawing .none).ply.supervisor = false ∧ (drawing .opened).ply.ctx.state = .opened ∧ (drawing .opened).ply.group = none ∧
      (drawing .none).ply.ctx.state ≠ .opened ∧ (State.withPly (drawing .opened) fun p => { p with group := some (0, 1) }).ply.group ≠ none) := by
  refine ⟨begin_passes, ⟨by simp, _, rfl, by decide +kernel⟩, begin_fails, view_passes, ⟨by simp, _, rfl, by decide +kernel⟩, view_fails,
    view_reserved, ⟨?_, ⟨?_, ?_⟩, ?_⟩, ?_⟩ <;> decide +kernel

theorem well_formed {s : Machine.State} {block : Nat} (h : (decide (xnum s (block + 2048) 4 ≤ 8) && decide (xnum s (block + 2052) 4 ≤ 8) &&
      decide (xnum s (block + 2056) 4 < 2 ^ 17) && decide (xnum s (block + 2056) 4 = 0 ∨ 2 ^ 16 ≤ xnum s (block + 2056) 4) &&
      (List.range 52).all fun i => xbyte s (block + (2060 + i)) == 0) = true) : ¬Malformed s block := by
  simp only [Bool.and_eq_true, decide_eq_true_eq, List.all_eq_true, beq_iff_eq, List.mem_range] at h
  obtain ⟨⟨⟨⟨h1, h2⟩, h3⟩, h4⟩, h5⟩ := h
  rintro (h | h | h | h | ⟨i, hi, hj, h⟩)
  · omega
  · omega
  · omega
  · omega
  · have := h5 (i - 2060) (by omega)
    rw [show 2060 + (i - 2060) = i by omega] at this
    exact h this
/-- The header of the one tile: issued and committed depth d, top layer 3. -/
def depth (d : Byte) : Memory := Memory.writeN [] (0x8000 + 4160 + 2048) [d, 0, 0, 0, d, 0, 0, 0, 3, 0, 1, 0]
/-- Tile 0 of a path that is closed, its header at depth d; a colour of 8 bytes in XBUF where it is solid. -/
def tile (d : Byte) (parg : Option Word := none) : Machine.State :=
  State.withPly (drawing .closed (depth d)) fun p => { p with ctx := { p.ctx with
    params := { params1 with solid := parg.isSome, parg := parg.getD 0 } } }
theorem no_owner (s : Machine.State) (h : s.ply.group = none) (x : Nat → Nat → Prop) : ¬∃ c sw, s.ply.group = some (c, sw) ∧ x c sw := by
  rintro ⟨c, sw, hg, -⟩; rw [h] at hg; cases hg
theorem tile_passes : ∀ d ∈ [(0 : Byte), 1, 8], allPass (blockChecks (tile d) 0 5 ++ colourChecks (tile d)) := by
  intro d hd
  unfold allPass
  simp only [blockChecks, colourChecks, tileChecks, List.cons_append, List.nil_append, List.forall_mem_cons, List.not_mem_nil,
    IsEmpty.forall_iff, implies_true, and_true]
  simp only [List.mem_cons, List.not_mem_nil, or_false] at hd
  rcases hd with rfl | rfl | rfl <;>
    refine ⟨by decide +kernel, by decide +kernel, no_owner _ rfl _, well_formed (by decide +kernel), by decide +kernel, by decide +kernel,
      by decide +kernel, by decide +kernel, by decide +kernel⟩
/-- The solid colours that are refused: another space, not XBUF, not aligned, beyond the window. -/
theorem colour_fails : ∀ x ∈ [(5, (0xC0000000 : Word)), (6, 0x40000000), (7, 4), (8, 0x10000)],
    FirstFails (blockChecks (tile 1 (some x.2)) 0 5 ++ colourChecks (tile 1 (some x.2))) x.1 := by
  intro x hx
  simp only [List.mem_cons, List.not_mem_nil, or_false] at hx
  rcases hx with rfl | rfl | rfl | rfl <;>
    refine ⟨?_, _, rfl, ?_⟩ <;>
    simp only [blockChecks, colourChecks, tileChecks, List.cons_append, List.nil_append, List.take_succ_cons, List.take_zero,
      List.forall_mem_cons, List.not_mem_nil, IsEmpty.forall_iff, implies_true, and_true] <;>
    first | decide +kernel | (refine ⟨by decide +kernel, by decide +kernel, no_owner _ rfl _, well_formed (by decide +kernel), ?_⟩; decide +kernel)
/-- The tile does not exist; another core owns it; its header is malformed; its top layer lies above. -/
theorem block_fails :
    FirstFails (blockChecks (drawing .none) 0 5) 0 ∧ FirstFails (blockChecks (tile 1) 0x01000000 5) 1 ∧
    FirstFails (blockChecks (State.withPly (tile 1) fun p => { p with core := 1, group := some (0, 0) }) 0 5) 2 ∧
    FirstFails (blockChecks (tile 9) 0 5) 3 ∧ FirstFails (blockChecks (tile 1) 0 2) 4 := by
  refine ⟨⟨by simp, _, rfl, by decide +kernel⟩, ⟨?_, _, rfl, by decide +kernel⟩, ⟨?_, _, rfl, 0, 0, rfl, by decide +kernel⟩,
    ⟨?_, _, rfl, Or.inl (by decide +kernel)⟩, ⟨?_, _, rfl, by decide +kernel⟩⟩ <;>
    simp only [blockChecks, tileChecks, List.cons_append, List.nil_append, List.take_succ_cons, List.take_zero,
      List.forall_mem_cons, List.not_mem_nil, IsEmpty.forall_iff, implies_true, and_true] <;>
    first
      | decide +kernel
      | exact ⟨by decide +kernel, by decide +kernel, no_owner _ rfl _⟩
      | exact ⟨by decide +kernel, by decide +kernel, no_owner _ rfl _, well_formed (by decide +kernel)⟩
def entry1 (k : EntryKind) (live : Nat := 0) : CommitEntry := ⟨4, 8, 1, 1, 0x8000 + 4160, 5, k, 0, true, live, List.replicate 256 131072, 0, 0⟩
/-- A paint task of entry 4, which has one task left. -/
def painting : Machine.State :=
  let s := State.withPly (drawing .closed) fun p => { p with
    paint := true, lanes := p.lanes.set 0 { LaneInfo.empty with commit := some ⟨0, 4, 17, 100⟩ } }
  { s with cores := [(0, { s.core 0 with entries := [entry1 .scan 1] })] }
/-- The unit and its overflow list are full. -/
def crowded : Machine.State := { tile 1 with cores := [(0, { (tile 1).core 0 with entries := List.replicate 256 (entry1 .scan 1), commitCap := 0 })] }
theorem witness_PathTiles :
    (∀ d ∈ [(0 : Byte), 1, 8], Settled (tile d) ∧ (tile d).S 12 = 0 ∧ ((tile d).S 13).extractLsb' 0 16 = 5 ∧
      issuedDepth (tile d) 0 = d.toNat ∧ ¬(256 ≤ ((tile d).core (tile d).ply.core).entries.length)) ∧
    (∀ d ∈ [(0 : Byte), 1, 8], allPass (blockChecks (tile d) 0 5 ++ colourChecks (tile d))) ∧
    -- PCLIP at depth 8 and PUNCLIP at depth 0 take PATHDEPTH, at 1 neither
    ((∃ c, depthCheck (tile 8) 0 8 = [c] ∧ c.fails) ∧ (∃ c, depthCheck (tile 0) 0 0 = [c] ∧ c.fails) ∧
      allPass (depthCheck (tile 1) 0 8) ∧ allPass (depthCheck (tile 1) 0 0) ∧ (tile 8).ply.ctx.views[(0 : Word).toNat / 2 ^ 24]? = some view1) ∧
    (256 ≤ (crowded.core crowded.ply.core).entries.length ∧
      (crowded.core crowded.ply.core).commitCap.toNat ≤ (crowded.core crowded.ply.core).commitOverflow) ∧
    (FirstFails (blockChecks (drawing .none) 0 5) 0 ∧ FirstFails (blockChecks (tile 1) 0x01000000 5) 1 ∧
      FirstFails (blockChecks (State.withPly (tile 1) fun p => { p with core := 1, group := some (0, 0) }) 0 5) 2 ∧
      FirstFails (blockChecks (tile 9) 0 5) 3 ∧ FirstFails (blockChecks (tile 1) 0 2) 4) ∧
    (∀ x ∈ [(5, (0xC0000000 : Word)), (6, 0x40000000), (7, 4), (8, 0x10000)],
      FirstFails (blockChecks (tile 1 (some x.2)) 0 5 ++ colourChecks (tile 1 (some x.2))) x.1) ∧
    -- PCELL and PBLEND
    ((118 : BitVec 7).toNat + 2 ≤ (tile 1).ply.vregs.length ∧ (tile 1).ply.ctx.state ≠ .none ∧ allPass (tileChecks (tile 1) 0) ∧
      (State.onPath (drawing .none) id).ply.ctx.state ≠ .closed) ∧
    ((113 : BitVec 7).toNat ≤ 119 ∧ (State.withPly (tile 1) fun p => { p with vregs := p.vregs.take 112 }).ply.vregs.length < (113 : BitVec 7).toNat + 2) ∧
    ((118 : BitVec 7).toNat + 2 ≤ painting.ply.vregs.length ∧ painting.ply.paint = true ∧ (∀ core, NoneRetires painting core) ∧
      (∀ i g, (painting.ply.info i).commit = some g → ∀ e ∈ (painting.core g.core).entries.drop 256, e.id ≠ g.entry) ∧
      (painting.ply.info 0).commit = some ⟨0, 4, 17, 100⟩ ∧ entry1 .scan 1 ∈ (painting.core 0).entries) ∧
    ((drawing .closed).ply.paint = false ∧ (drawing .closed).ply.supervisor = false) := by
  have none (k : Nat) : k = 0 ∨ (painting.core k).entries = [] := by
    by_cases h : k = 0
    · exact Or.inl h
    · right
      show ((tget (Core.reset k) k [(0, _)])).entries = []
      simp [tget, Ne.symm h]; rfl
  have drop (k : Nat) : (painting.core k).entries.drop 256 = [] := by
    rcases none k with rfl | h
    · decide +kernel
    · rw [h]; rfl
  refine ⟨?_, tile_passes, ⟨⟨_, rfl, by decide +kernel⟩, ⟨_, rfl, by decide +kernel⟩, ?_, ?_, by decide +kernel⟩, by decide +kernel, block_fails, colour_fails,
    ⟨by decide +kernel, by decide +kernel, ?_, by decide +kernel⟩, by decide +kernel,
    ⟨by decide +kernel, by decide +kernel, ?_, ?_, by decide +kernel, by decide +kernel⟩, by decide +kernel⟩
  · unfold Settled; decide +kernel
  · unfold allPass; simp only [depthCheck, List.forall_mem_cons, List.not_mem_nil, IsEmpty.forall_iff, implies_true, and_true]; decide +kernel
  · unfold allPass; simp only [depthCheck, List.forall_mem_cons, List.not_mem_nil, IsEmpty.forall_iff, implies_true, and_true]; decide +kernel
  · unfold allPass
    simp only [tileChecks, List.forall_mem_cons, List.not_mem_nil, IsEmpty.forall_iff, implies_true, and_true]
    exact ⟨by decide +kernel, no_owner _ rfl _⟩
  · intro k e he hk hs
    rcases none k with rfl | h
    · left; rw [show (painting.core 0).entries = [entry1 .scan 1] from rfl] at he
      rw [List.mem_singleton.mp he]; decide
    · rw [h] at he; cases he
  · intro i g _ e he; rw [drop] at he; cases he

def pathop (k : PathKind) (group : Option (Nat × Nat) := none) : PathOp := ⟨9, 1, 0, k, ctx1 .opened, 2, 0, group, 1, 0⟩
/-- A path unit with one instruction queued; the header of the paint entry 0x20000 has flags f. -/
def unit1 (o : PathOp) (f : Byte := 0) : Machine.State :=
  let s := drawing .closed
  { s with mem := s.mem.writeN 0x1FFC0 [8, 0, f, 16], cores := [(0, { s.core 0 with pathq := [o], entries := [entry1 .scan] })] }
def scanning (clip forms : Bool) (scope : BitVec 24 := 0) : PathOp :=
  pathop (.scan 0 0 0 4 clip scope forms (if forms then some (List.replicate 8 0) else none))
def committing (k : EntryKind) (live : Nat := 0) : Machine.State :=
  let s := drawing .closed (depth 1)
  { s with cores := [(0, { s.core 0 with entries := [entry1 k live], commits := [⟨4, 17, 100, [1, 2, 3, 4]⟩] })] }
/-- Two paint tasks, of which the path's one ends. -/
def ending (live : Nat) : Machine.State :=
  let s := State.withPly (drawing .closed) fun p => { p with
    paint := true, occ := 3, path0 := { p.path0 with member := 3, active := 1 }
    lanes := p.lanes.set 0 { LaneInfo.empty with commit := some ⟨0, 4, 17, 100⟩ } }
  { s with cores := [(0, { s.core 0 with entries := [entry1 .scan live] })] }
theorem one_code : IsRational (fp16.value 0x3C00) 1 ∧ IsRational (fp16.value 0) 0 ∧ IsRational (fp32.value 0x3F800000) 1 := by
  refine ⟨⟨false, 1024, -10, by decide, by norm_num⟩, ⟨false, 0, -24, by decide, by norm_num⟩, ⟨false, 2 ^ 23, -23, by decide, by norm_num⟩⟩
theorem rounds_one : RoundsTo fp32 1 0x3F800000 :=
  Or.inr ⟨false, 1, 0, by decide, by norm_num, by decide +kernel⟩
theorem witness_PathUnit :
    -- a blend of two pixels that are numbers, and one of a NaN
    (let x : List Nat := [0x3C00, 0x3C00, 0x3C00, 0x3C00];
      x.length = 4 ∧ (∀ y ∈ x ++ x, y < 2 ^ 16) ∧ IsRational (fp16.value (x.getD 0 0)) 1 ∧ IsRational (fp16.value (x.getD 3 0)) 1 ∧
      RoundsTo fp32 (1 * ((131072 : ℚ) / 131072 * ((131072 : ℚ) / 131072))) 0x3F800000 ∧ IsRational (fp32.value 0x3F800000) 1 ∧
      RoundsTo fp32 (blended 0 1 1 1 1 1) 0x3F800000 ∧ nanValue (fp16.value 0x7E00)) ∧
    (∀ k ∈ [PathKind.line (0, 0) (4096, 4096), .quad (0, 0) (1, 5) (4096, 4096) 4, .pend], let s := unit1 (pathop k);
      SettledOn s 0 ∧ (s.core 0).pathq = pathop k :: [] ∧ (pathop k).group = none ∧ s.windowOf 0 (pathop k).gang = some 0x8000) ∧
    (let o := pathop .pend (some (0, 1)); SettledOn (unit1 o) 0 ∧ ((unit1 o).core 0).pathq = o :: [] ∧ o.group = some (0, 1)) ∧
    (let s := { drawing .closed with pieces := [⟨0, 1, 1, 9, 0, [(0, 8, 5)], 0⟩] };
      s.pieces[0]? = some ⟨0, 1, 1, 9, 0, [(0, 8, 5)], 0⟩ ∧ SettledOn s 0 ∧ s.windowOf 0 1 = some 0x8000 ∧
      ∀ q ∈ s.pieces.take 0, q.uid ≠ 1 ∨ q.owner ≠ 0) ∧
    -- scans: of a clip, of a path without lanes, of one that forms tasks, with quads and without
    (∀ x ∈ [(true, false), (false, false), (false, true)], let s := unit1 (scanning x.1 x.2); SettledOn s 0 ∧
      (s.core 0).pathq = scanning x.1 x.2 :: [] ∧ s.windowOf 0 1 = some 0x8000 ∧
      (∀ e ∈ (s.core 0).entries, e.kind = .scan → e.scanned = true → e.live = 0 → (s.core 0).commits = []) ∧
      (∀ e ∈ (s.core 0).entries.drop 256, e.id ≠ 4)) ∧
    (∀ f ∈ [(0 : Byte), 1], (unit1 (scanning false true) f).headerFor 0 0 params1.entry = .ok ⟨8, 0, f == 1, false, 16, 0⟩) ∧
    (let s := unit1 (scanning false true); s.accepts 0 0 = true ∧ s.heardCancel 0 0 0 = false ∧ s.accepts 0 5 = false ∧
      BinRoom s 0 0 params1.entry 256) ∧
    (let o := pathop (.pcell 118 0 0 0 15 Mask.full); let s := unit1 o; SettledOn s 0 ∧ s.ply.uid = 1 ∧ s.ply.core = 0 ∧
      (∀ e ∈ s.ply.lsq, e.seq ≠ 9) ∧ (∀ h ∈ s.ply.hubq, h.seq ≠ 9) ∧ (s.core 0).pathq = o :: [] ∧ s.windowOf 0 1 = some 0x8000 ∧
      (118 : BitVec 7).toNat + 2 ≤ s.ply.vregs.length ∧ s.pieces = [] ∧ ∀ k, ∀ q ∈ (s.core k).pathq, q.uid = 1) ∧
    (∀ n, n < 3 → let s := committing .scan n; SettledOn s 0 ∧ (s.core 0).commits[0]? = some ⟨4, 17, 100, [1, 2, 3, 4]⟩ ∧
      (s.core 0).entries.find? (fun x => x.id == 4) = some (entry1 .scan n) ∧ (s.core 0).entryWaits (entry1 .scan n) = false ∧
      (s.core 0).commits.eraseIdx 0 = []) ∧
    (∀ k ∈ [EntryKind.clip, .unclip], let s := committing k; SettledOn s 0 ∧ (s.core 0).entries[0]? = some (entry1 k) ∧
      (entry1 k).scanned = true ∧ (s.core 0).entryWaits (entry1 k) = false ∧ (entry1 k).kind ≠ .scan) ∧
    (∀ n, n < 3 → let s := ending n; Named s ∧ storingLanes s = [0] ∧ s.ply.occ &&& ~~~s.path.active ≠ 0 ∧ s.cancelledLanes s.ply = 0 ∧
      (s.ply.info 0).leaf = none ∧ (s.ply.info 0).commit = some ⟨0, 4, 17, 100⟩ ∧ (s.core 0).entries = [entry1 .scan n] ∧
      (entry1 .scan n).scanned = true ∧ (s.core 0).commits = []) := by
  have q (k : Nat) : ∀ o ∈ ((unit1 (pathop (.pcell 118 0 0 0 15 Mask.full))).core k).pathq, o.uid = 1 := by
    by_cases h : k = 0
    · subst h; decide +kernel
    · intro o ho
      have hk : ((unit1 (pathop (.pcell 118 0 0 0 15 Mask.full))).core k).pathq = [] := by
        show ((tget (Core.reset k) k [(0, _)])).pathq = []
        simp [tget, Ne.symm h]; rfl
      rw [hk] at ho; cases ho
  have hf (b : Byte) (hb : b = 0 ∨ b = 1) : (unit1 (scanning false true) b).headerFor 0 0 params1.entry = .ok ⟨8, 0, b == 1, false, 16, 0⟩ := by
    have h : (match (unit1 (scanning false true) b).headerFor 0 0 params1.entry with
        | .ok x => x == ⟨8, 0, b == 1, false, 16, 0⟩
        | .error _ => false) = true := by rcases hb with rfl | rfl <;> decide +kernel
    cases hx : (unit1 (scanning false true) b).headerFor 0 0 params1.entry <;> rw [hx] at h <;> simp_all
  refine ⟨⟨rfl, by decide, one_code.1, one_code.1, ?_, one_code.2.2, ?_, false, by decide⟩, ?_, ?_, ?_, ?_, ?_, ⟨?_, ?_, ?_, ?_, Or.inr ⟨0, ?_, ?_⟩⟩,
    ⟨?_, ?_, ?_, ?_, ?_, ?_, ?_, ?_, ?_, q⟩, ?_, ?_, ?_⟩
  case refine_1 => rw [show (1 : ℚ) * (131072 / 131072 * (131072 / 131072)) = 1 by norm_num]; exact rounds_one
  case refine_2 => rw [show blended 0 1 1 1 1 1 = 1 by unfold blended; norm_num]; exact rounds_one
  all_goals first | decide +kernel | (unfold SettledOn; decide +kernel) | (unfold Named; decide +kernel)

/-! ## Witnesses: formation, launches, management -/

/-- Cluster 0 in tenant 0's partition; the header of entry 0x10000 and three save areas. -/
def hosting : Machine.State :=
  { base with
    mem := base.mem.writeN 0xFFC0 ([8, 1, 1, 16] ++ leBytes 4 256)
    clusters := [(0, { Cluster.reset with part := some 0 })], saveAreas := [0x300000, 0x400000, 0x500000] }
def due (e : DWord) : Bin := ⟨3, 0, e, true, [{ task1 with entry := e }]⟩
def binned (e : DWord) : Machine.State := { hosting with cores := [(0, { Core.reset 0 with bins := [due e] })], scopes := [{ scope7 .opened false 0 0 with live := 1 }] }
def record1 : Record := ⟨0x10000, 0x20000, #v[1, 2, 3, 4], 0, 0, 0, 0, 5, [⟨2, 1, 0, 1, 1, 0⟩]⟩
def firing1 (scope : BitVec 24) : Firing := ⟨9, 0, { record1 with scope := scope }, 1, 0, 0, 2, 0, none, none, 0x20000, [], []⟩
def firing (scope : BitVec 24) : Machine.State := { hosting with firings := [firing1 scope], scopes := [scope7 .cancelling false 0 0] }
/-- A ply that was saved with no region. -/
def saved1 : Saved := ⟨{ base.ply with uid := 2, core := 3, fixedCore := true, running := false }, [], false, false, 0⟩
/-- A quad of which one pixel is painted. -/
def quad4 : List Task :=
  let x : Task := { task1 with scope := 0, fixed := true, quad := some 4 }
  { x with commit := some ⟨0, 4, 17, 100⟩ } :: List.replicate 3 { x with helper := true }
def painted : Bin := ⟨3, 0, 0x10000, true, quad4⟩
def quads : Machine.State := { hosting with cores := [(0, { Core.reset 0 with bins := [painted] })] }
def saving : Machine.State := { hosting with saved := [saved1] }
theorem witness_Formations :
    (NextBin (binned 0x10000) 0 (due 0x10000) ∧ PlainBin (binned 0x10000) 0 (due 0x10000) ∧ (binned 0x10000).headerFor 0 0 0x10000 = .ok ⟨8, 1, true, false, 16, 256⟩) ∧
    (NextBin quads 0 painted ∧ QuadBin painted [quad4] ∧ (∀ u ∈ [quad4], ∃ x ∈ u, (pixelLane quads 0 x).2.2 = true) ∧
      quads.headerFor 0 0 0x10000 = .ok ⟨8, 1, true, false, 16, 256⟩) ∧
    (NextBin (binned 0x20000) 0 (due 0x20000) ∧ PlainBin (binned 0x20000) 0 (due 0x20000) ∧ (∃ w, (binned 0x20000).headerFor 0 0 0x20000 = .error w) ∧ (∀ x ∈ (due 0x20000).tasks, x.scope = 7) ∧
      (∀ x ∈ (due 0x20000).tasks, x.tenant = (due 0x20000).tenant) ∧ ScopesDiffer (binned 0x20000) ∧
      ∃ y, (binned 0x20000).scopeOf 0 7 = some y ∧ y.state = .opened) ∧
    (NextLaunch (firing 0) 1 (firing1 0) ∧ (firing 0).headerFor 1 0 0x10000 = .ok ⟨8, 1, true, false, 16, 256⟩ ∧
      ((firing 0).hosts 1 2 ⟨8, 1, true, false, 16, 256⟩ 0 0).isSome = true ∧
      ∀ p ∈ (firing 0).ply :: (firing 0).plies, p.marked ≠ some 9) ∧
    ((firing 7).firings.find? (fun x => x.id == 9) = some (firing1 7) ∧ (firing1 7).next < (firing1 7).total ∧
      (firing 7).scopeCancelled 0 (firing1 7).record.scope = true) ∧
    (saving.nextPlacing 3 = some (.restore 0) ∧ saving.saved[0]? = some saved1 ∧ (saving.restoreNeeds saved1 3 true).isSome = true ∧
      saved1.atWait = false ∧ ∀ r ∈ saved1.image, saving.readVirt 3 0 (saved1.ply.ssave + BitVec.ofNat 64 r.1) r.2.length = .ok r.2) ∧
    ((base.ply :: base.plies).map (·.uid)).Nodup := by
  have ok {α : Type} [DecidableEq α] (e : Except Word α) (a : α) (h : (match e with | .ok b => b == a | .error _ => false) = true) : e = .ok a := by
    cases e <;> simp_all
  have err {α : Type} (e : Except Word α) (h : (match e with | .ok _ => false | .error _ => true) = true) : ∃ w, e = .error w := by
    cases e with
    | ok a => cases h
    | error w => exact ⟨w, rfl⟩
  refine ⟨⟨⟨?_, ?_, ?_, ?_⟩, ⟨?_, ?_⟩, ok _ _ ?_⟩, ⟨⟨?_, ?_, ?_, ?_⟩, ⟨rfl, List.forall_mem_singleton.mpr ⟨rfl, 4, ?_⟩, List.pairwise_singleton _ _⟩, ?_, ok _ _ ?_⟩, ⟨⟨?_, ?_, ?_, ?_⟩, ⟨?_, ?_⟩, err _ ?_, ?_, ?_, ?_, { scope7 .opened false 0 0 with live := 1 }, ?_, ?_⟩,
    ⟨⟨?_, ?_, ?_, ?_⟩, ok _ _ ?_, ?_, ?_⟩, ?_, ⟨?_, ?_, ?_, ?_, ?_⟩, ?_⟩ <;>
    first | decide +kernel | (unfold ScopesDiffer; decide +kernel) | (unfold PlainTask; decide +kernel)

def recordBytes (order : Nat) (scope : Nat) : List Byte :=
  leBytes 8 0x10000 ++ leBytes 8 0x20000 ++ zeros 16 ++ leBytes 4 scope ++ [0, 0, 0, 1] ++ leBytes 8 0 ++ [5] ++ zeros 15 ++
    [2, 0, 1, 0, BitVec.ofNat 8 order, 0] ++ zeros 58
/-- Queue 2 of tenant 0: a ring of four records at 0x30000, its tail line at 0x40000. -/
def queue (tail : Word) : Machine.State :=
  { hosting with
    mem := (hosting.mem.writeN 0x40000 (leBytes 4 tail.toNat ++ leBytes 4 7)).writeN 0x30080 (recordBytes 0x09 0)
    tenants := [(0, { (hosting.tenant 0) with queues := [(2, ⟨0x30000, 0x40000, 0x40080, 2, 1, 1, 0, 1, 3, 0, none⟩)] })] }
def queueAt (b : List Byte) : Machine.State := { queue 3 with mem := (queue 3).mem.writeN 0x30080 b }
theorem parse_ok (b : List Byte) (r : Record) (h : (match Record.parse b with | .ok x => x == r | .error _ => false) = true) : Record.parse b = .ok r := by
  cases hx : Record.parse b <;> simp_all
theorem witness_LaunchQueues :
    (let q := queueOf (queue 3) 0 2; (queue 3).readVirt noCore 0 q.tailAt 4 = .ok (leBytes 4 3) ∧ q.qdead ≠ 0 ∧
      (queue 3).readVirt noCore 0 q.qdead 8 = .ok (zeros 8) ∧ (BitVec.ofNat 32 (leNat (leBytes 4 3)) - q.head).toNat ≤ 2 ^ (q.log2.toNat % 16)) ∧
    (let q := queueOf (queue 9) 0 2; (queue 9).readVirt noCore 0 q.tailAt 4 = .ok (leBytes 4 9) ∧
      2 ^ (q.log2.toNat % 16) < (BitVec.ofNat 32 (leNat (leBytes 4 9)) - q.head).toNat ∧ q.ctl.getLsbD 1 = false) ∧
    (MayFire (queueOf (queue 3) 0 2) ∧ (queue 3).readVirt noCore 0 (recordAddress (queueOf (queue 3) 0 2)) 128 = .ok (recordBytes 0x09 0) ∧
      (∃ r, Record.parse (recordBytes 0x09 0) = .ok r ∧ (queue 3).scopeTakes 0 r.scope = true)) ∧
    (let s := queueAt (recordBytes 0x01 0); s.readVirt noCore 0 (recordAddress (queueOf s 0 2)) 128 = .ok (recordBytes 0x01 0) ∧
      ∃ d, Record.parse (recordBytes 0x01 0) = .error d) ∧
    (let s := queueAt (recordBytes 0x09 7); s.readVirt noCore 0 (recordAddress (queueOf s 0 2)) 128 = .ok (recordBytes 0x09 7) ∧
      ∃ r, Record.parse (recordBytes 0x09 7) = .ok r ∧ s.scopeTakes 0 r.scope = false) ∧
    (let b := zeros 8 ++ leBytes 8 0x40000 ++ zeros 48; b.length = 64 ∧
      (queue 3).readVirt noCore 0 (BitVec.ofNat 64 (num b 8 8) + 4) 4 = .ok (leBytes 4 7)) := by
  refine ⟨⟨isOk_eq ?_, ?_, isOk_eq ?_, ?_⟩, ⟨isOk_eq ?_, ?_, ?_⟩, ⟨⟨?_, ?_, ?_, ?_⟩, isOk_eq ?_, { record1 with arg := #v[0, 0, 0, 0] }, parse_ok _ _ ?_, ?_⟩,
    ⟨isOk_eq ?_, ?_⟩, ⟨isOk_eq ?_, { record1 with arg := #v[0, 0, 0, 0], scope := 7 }, parse_ok _ _ ?_, ?_⟩, ⟨?_, isOk_eq ?_⟩⟩ <;>
    first | decide +kernel | skip
  cases hx : Record.parse (recordBytes 0x01 0) with
  | error d => exact ⟨d, rfl⟩
  | ok r =>
    have h : (match Record.parse (recordBytes 0x01 0) with | .ok _ => true | .error _ => false) = false := by decide +kernel
    rw [hx] at h; cases h

def managing (b : List Byte) : Machine.State :=
  let s := State.withPly super fun p => { p with management := true, core := 512 }
  { s with mem := s.mem.writeN 0x20000 b }
def smc1 (b : List Byte) (f : Machine.State → Machine.State := id) : Machine.State := f (asked (.smc 20 0x20000) (managing b))
def assigned (c : BitVec 6) (s : Machine.State) : Machine.State :=
  { s with clusters := [(c.toNat, { Cluster.reset with part := some 1 })] }
/-- A ply of cluster 0 is resident. -/
def busy (s : Machine.State) : Machine.State := { s with plies := [{ base.ply with uid := 3 }] }
def gate (d : DiePower) (k : HubKind) : Machine.State :=
  { asked k (managing []) with dies := [(1, d)] }
/-- Two requests for power are held. -/
def twice : Machine.State :=
  State.withPly (gate .gated (.pwrq 20 false 0 true)) fun p => { p with hubq := p.hubq ++ [⟨10, p.slot, .pwrq 21 false 0 true⟩] }
/-- The fault ring of tenant 0: 2 records at 0x30000, its tail word at 0x28000. -/
def withRing (s : Machine.State) : Machine.State :=
  { s with tenants := [(0, { s.tenant 0 with ringBase := 0x30000, ringLog2 := 1, ringTail := 0x28000 })] }
def resets : List Byte := leBytes 4 3 ++ leBytes 4 0 ++ zeros 56
def attests : List Byte := leBytes 4 7 ++ (leBytes 8 0x30000 ++ zeros 32 ++ zeros 20)
theorem witness_ManagementRequests :
    Manages (managing []) ∧ base.ply.supervisor = false ∧
    (∀ code ∈ [1, 2, 4, 5, 6, 8, 9], Asked (smc1 (leBytes 4 code ++ zeros 60)) ⟨9, base.ply.slot, .smc 20 0x20000⟩ ∧
      (smc1 (leBytes 4 code ++ zeros 60)).readVirt noCore 0 0x20000 64 = .ok (leBytes 4 code ++ zeros 60)) ∧
    ((managing []).cluster 63).part = none ∧ (managing []).clusterBusy 63 = false ∧
    (managing []).otherReg (BitVec.ofNat 4 15) 63 ((managing []).cluster 63).chosenReg = false ∧
    ((busy (managing [])).cluster 0).part ≠ some (BitVec.ofNat 4 15) ∧ (busy (managing [])).clusterBusy 0 = true ∧
    (((List.range 16).filter fun k => k != 15).foldl (fun m k => m + ((managing []).tenant k).share) 0 + 4096 ≤ 65536 ∧
      65536 < ((List.range 16).filter fun k => k != 15).foldl (fun m k => m + ((managing []).tenant k).share) 0 + 4097) ∧
    (managing []).onCore 511 = [] ∧
    (let s := gate .powered (.pwrq 20 true 0 false); PowerAsked s ⟨9, base.ply.slot, .pwrq 20 true 0 false⟩ 20 true 0 ∧ s.die (upper 0) = .powered ∧
      ∀ p ∈ s.all, p.management = true ∨ dieOf p.core ≠ upper 0 ∨ p.gangsize.toNat < 2) ∧
    PowerAsked (gate .powered (.pwrq 20 false 0 false)) ⟨9, base.ply.slot, .pwrq 20 false 0 false⟩ 20 false 0 ∧
    (let s := gate (.gating 1 9) (.pwrq 20 true 0 true); s.ply.uid = 1 ∧ s.die (upper 0) = .gating 1 9 ∧ DieEmpty s (upper 0) ∧
      s.ply.hubq.find? (fun x => x.seq == 9) = some ⟨9, s.ply.slot, .pwrq 20 true 0 true⟩) ∧
    (let s := gate .gated (.pwrq 20 false 0 true); Named s ∧ s.die (upper 0) = .gated ∧ s.powerRequests 0 = [(s.ply.uid, 9)] ∧ s.saved = [] ∧
      s.ply.hubq.find? (fun x => x.seq == 9) = some ⟨9, s.ply.slot, .pwrq 20 false 0 true⟩) ∧
    (Named twice ∧ twice.die (upper 0) = .gated ∧ twice.saved = [] ∧ twice.powerRequests 0 = [(twice.ply.uid, 9), (twice.ply.uid, 10)] ∧
      twice.ply.hubq = [⟨9, twice.ply.slot, .pwrq 20 false 0 true⟩, ⟨10, twice.ply.slot, .pwrq 21 false 0 true⟩]) ∧
    -- the reset of partition 0, with a live scope and with a fault ring; the attestation
    (∀ l, l = [] ∨ l = [scope7 .opened false 0 0] → let s := asked (.smc 20 0x20000) (withRing { managing resets with scopes := l });
      Asked s ⟨9, s.ply.slot, .smc 20 0x20000⟩ ∧ s.ply.management = true ∧
        s.readVirt noCore s.ply.tenant 0x20000 64 = .ok (leBytes 4 3 ++ leBytes 4 0 ++ zeros 56) ∧ ScopesDiffer s ∧
        canonical (scope7 .opened false 0 0).address ∧ (scope7 .opened false 0 0).address.toNat % 64 = 0 ∧
        s.translate 0 .write (scope7 .opened false 0 0).address = .ok 0x20000 ∧ s.tlb = [] ∧ RingRoom s 0 0 0 0x28000 0x30000) ∧
    (let s := asked (.smc 20 0x20000) { managing attests with firmware := { base.firmware with digest := zeros 64 } };
      Asked s ⟨9, s.ply.slot, .smc 20 0x20000⟩ ∧ s.readVirt noCore s.ply.tenant 0x20000 64 = .ok attests ∧ canonical 0x30000 ∧
        s.translate s.ply.tenant .write 0x30000 = .ok 0x30000 ∧ s.firmware.digest.length = 64) ∧
    (super.ply.supervisor = true ∧ canonical (super.S64 4)) ∧
    (∀ all, let s := waiting (.tlbinv all 0x20000); s.ply.uid ≠ 0 ∧ s.path.wait = .tlbinv all 0x20000 ∧
      (∀ e ∈ s.ply.lsq, e.kind.isStore = false) ∧ s.ply.cgw ≤ s.now ∧ s.ply.pgw.toNat ≤ s.now ∧ ∀ q ∈ s.stores, q.uid ≠ s.ply.uid) := by
  refine ⟨⟨?_, ?_⟩, ?_, ?_, ?_, ?_, ?_, ?_, ?_, ⟨?_, ?_⟩, ?_, ⟨⟨asked_of _ _ ?_, rfl⟩, ?_, ?_⟩, ⟨asked_of _ _ ?_, rfl⟩, ⟨?_, ?_, ?_, ?_⟩, ?_, ?_, ?_, ?_, ⟨?_, ?_⟩, ?_⟩ <;>
    first | decide +kernel | (unfold Named; decide +kernel) | (unfold canonical; decide +kernel) | (unfold DieEmpty; decide +kernel) | skip
  · intro code hc
    refine ⟨asked_of _ _ ?_, isOk_eq ?_⟩
    · revert code; decide +kernel
    · revert code; decide +kernel
  · rintro l (rfl | rfl) <;>
      refine ⟨asked_of _ _ ?_, ?_, isOk_eq ?_, ?_, ?_, ?_, isOk_eq ?_, ?_, ?_, ?_, isOk_eq ?_, isOk_eq ?_, ?_, ?_, ?_, ?_, isOk_eq ?_⟩ <;>
      first | decide +kernel | (unfold canonical; decide +kernel) | (unfold ScopesDiffer; decide +kernel)
  · refine ⟨asked_of _ _ ?_, isOk_eq ?_, ?_, isOk_eq ?_, ?_⟩ <;>
      first | decide +kernel | (unfold canonical; decide +kernel)

def image0 (ok : Bool) (v : Nat) : BootImage := ⟨ok, v, [1, 2, 3]⟩
theorem witness_PackageControl :
    ((base.cluster 0).slackStep = 0 ∧ bitsOf 0x84041234 18 16 ≤ 4 ∧ ∀ k ∈ coresOf 0, (base.vault (vaultOf k)).rstep ≠ 3) ∧
    ((0xF000007F : Word).getLsbD 6 = true ∧ base.clusterBusy 63 = false ∧ base.otherReg 15 63 (base.cluster 63).chosenReg = false) ∧
    (let s := assigned 63 base; (0x1000003F : Word).getLsbD 6 = false ∧ s.clusterBusy 63 = false ∧ (s.cluster 63).part = some 1) ∧
    base.clusterBusy 0 = true ∧ (base.cluster 0).part = none ∧
    (let s := { base with cores := [(511, { Core.reset 511 with errors := 4 })] }; s.onCore 511 = [] ∧ 4 ≤ (s.core 511).errors) ∧
    (let s := { base with vaults := [(255, { Vault.reset with failGranules := 16 })] }; s.onCore (lowerCore 255) = [] ∧
      s.onCore (upperCore 255) = [] ∧ 16 ≤ (s.vault 255).failGranules) ∧
    (base.core 511).overflow = [] ∧ (0x4000 * 15 + 0x1010 + 4) % 4 = 0 ∧
    ((image0 true 3).signatureOk = true ∧ 3 ≤ (image0 true 3).version ∧ (image0 false 3).signatureOk = false) ∧
    (let s := { base with firmware := { base.firmware with recovery := true, rollback := 3 } }; s.firmware.recovery = true ∧
      s.firmware.rollback ≤ (image0 true 3).version) ∧ base.firmware.recovery = false ∧
    (({ base with vaults := [(255, { Vault.reset with counts := [(15, 3, 2, 1)] })] } : Machine.State).vault 255).counts.find?
      (fun e => e.1 == 15) = some (15, 3, 2, 1) := by
  refine ⟨⟨?_, ?_, ?_⟩, ?_, ?_, ?_, ?_, ?_, ?_, ?_, ?_, ?_, ?_, ?_, ?_⟩ <;> decide +kernel

/-! ## Witnesses: the fabric -/

/-- A group at s16: endpoint 5 of tenant 0, 8 bytes, region 3 (or a tag), offset 4, local address 0x20000 or 0x10 of the window. -/
def sending (loc : Bool) (l : List (BitVec 6 × Word) := []) : Machine.State :=
  State.scalars loads ([(16, 5), (17, 8), (18, 3), (19, 4), (20, if loc then 0x10 else 0x20000), (21, if loc then 0x80000000 else 0)] ++ l)
theorem sending_lanes (b : Bool) (l : List (BitVec 6 × Word)) (h : storingLanes (sending b l) = [0]) : storingLanes (sending b l) = 0 :: [] := h
def five : Target := ⟨5, 0, 0⟩
theorem targets_five (b : Bool) : Targets 5 b five := ⟨by decide, rfl, by decide, Or.inl (by decide)⟩
theorem range_glob (acc : Access) (al : Nat) (hal : al = 1 ∨ al = 4) (h : acc = .read ∨ acc = .write) :
    RangeAt (sending false) acc al 8 (gpair (sending false) 16 4) ⟨0x20000, none, [(0x20000, 8)], 8⟩ := by
  refine ⟨by decide +kernel, rfl, ?_⟩
  rw [if_neg (by decide), if_neg (by decide +kernel)]
  refine ⟨by unfold canonical; decide +kernel, ?_, rfl, isOk_eq ?_⟩
  · rcases hal with rfl | rfl <;> decide +kernel
  · rcases h with rfl | rfl <;> decide +kernel
theorem range_loc (acc : Access) (al : Nat) (hal : al = 1 ∨ al = 4) :
    RangeAt (sending true) acc al 8 (gpair (sending true) 16 4) ⟨0x8000000000000010, some 0x8010, [], 8⟩ := by
  refine ⟨by decide +kernel, rfl, ?_⟩
  rw [if_neg (by decide), if_pos (by decide +kernel)]
  refine ⟨by decide +kernel, ?_, by decide +kernel, ?_, rfl⟩
  · rcases hal with rfl | rfl <;> decide +kernel
  · show some _ = some _; congr 1
/-- Records of 64 FP32 elements of the window, and a communicator of this device alone. -/
def collective : Machine.State :=
  let s := State.scalars (sending true) [(16, 0), (17, 2), (18, 1), (19, 0x100001), (20, 0), (21, 0)]
  { State.withPly s fun p => { p with path0 := { p.path0 with member := Mask.full, active := Mask.full } } with
    tenants := [(0, { (s.tenant 0) with
      comms := [(2, ⟨[0], [1], false⟩)]
      shapes :=
        [(0, 1, some ⟨0, [2, 1, 1, 1, 1], [4, 0, 0, 0, 0], 0, 0, 0, 0x4000⟩),
         (1, 1, some ⟨0x20, [2, 1, 1, 1, 1], [4, 0, 0, 0, 0], 0, 0, 0, 0x4000⟩)] })] }
theorem no_leaf (s : Machine.State) (c : Option (Nat × Nat)) : ¬Credits s 0x8000FFFF c := by
  intro h; unfold Credits at h; rw [if_pos (by decide)] at h
  obtain ⟨core, leaf, _, h1, h2, h3, _⟩ := h
  have : (0x8000FFFF : Word).toNat = 2147549183 := by decide
  rw [this] at h1; omega
theorem coll_fails : ∃ c, base.collCheck 16 = .error c := error_of (by decide +kernel)
def isColl (e : Except Cause FabricKind) : Bool :=
  match e with
  | .ok (.coll _ _ _ _ _ _ _ _ _) => true
  | _ => false
theorem isColl_ex {e : Except Cause FabricKind} (h : isColl e = true) :
    ∃ kind op comm root src dst fmt units i, e = .ok (.coll kind op comm root src dst fmt units i) := by
  cases e with
  | error c => cases h
  | ok k =>
    cases k with
    | coll kind op comm root src dst fmt units i => exact ⟨kind, op, comm, root, src, dst, fmt, units, i, rfl⟩
    | _ => cases h
theorem witness_FabricIssue :
    storingLanes still = [] ∧
    (storingLanes (sending false) = 0 :: [] ∧ Targets (gword (sending false) 16 0) false five ∧ Targets (gword (sending false) 16 0) true five ∧
      (gword (sending false) 16 1).toNat ≤ 4032 ∧ gword (sending false) 16 6 = 0 ∧ gword (sending false) 16 7 = 0 ∧ Moves (sending false) 16 ∧
      Credits (sending false) (gword (sending false) 16 6) none) ∧
    (∀ b, storingLanes (sending b) = 0 :: [] ∧ ∃ r, RangeAt (sending b) .read 1 (gword (sending b) 16 1).toNat (gpair (sending b) 16 4) r ∧
      RangeAt (sending b) .read 4 (gword (sending b) 16 1).toNat (gpair (sending b) 16 4) r ∧
      RangeAt (sending b) .write 4 (gword (sending b) 16 1).toNat (gpair (sending b) 16 4) r) ∧
    (storingLanes (sending false [(16, 0xFFFFFFFF)]) = [0] ∧ ∀ b dest, ¬Targets (gword (sending false [(16, 0xFFFFFFFF)]) 16 0) b dest) ∧
    4032 < (gword (sending false [(17, 4096)]) 16 1).toNat ∧
    (let s := sending false [(20, 0x20002)]; canonical (gpair s 16 4) ∧ (gpair s 16 4).toNat % 4 ≠ 0 ∧ s.ply.supervisor = false) ∧
    (∀ c, ¬Credits (sending false [(22, 0x8000FFFF)]) (gword (sending false [(22, 0x8000FFFF)]) 16 6) c) ∧
    (base.path.member = Mask.full ∧ base.active = Mask.full ∧ (∃ c, base.collCheck 16 = .error c) ∧ solo.path.member ≠ Mask.full) ∧
    (collective.path.member = Mask.full ∧ collective.active = Mask.full ∧ storingLanes collective = 0 :: [] ∧
      ∃ kind op comm root src dst fmt units i, collective.collCheck 16 = .ok (.coll kind op comm root src dst fmt units i)) := by
  have l8 (b : Bool) : (gword (sending b) 16 1).toNat = 8 := by cases b <;> decide +kernel
  have bad : gword (sending false [(16, 0xFFFFFFFF)]) 16 0 = 0xFFFFFFFF := by decide +kernel
  have w5 : gword (sending false) 16 0 = 5 := by decide +kernel
  have wb : gword (sending false [(22, 0x8000FFFF)]) 16 6 = 0x8000FFFF := by decide +kernel
  refine ⟨?_, ⟨?_, ?_, ?_, ?_, ?_, ?_, ⟨?_, ?_, ?_, ?_, ?_, ?_⟩, ?_⟩, ?_, ⟨?_, ?_⟩, ?_, ⟨?_, ?_, ?_⟩, ?_, ⟨?_, ?_, ?_, ?_⟩, ⟨?_, ?_, ?_, ?_⟩⟩ <;>
    first | decide +kernel | (unfold canonical; decide +kernel) | skip
  · rw [w5]; exact targets_five _
  · rw [w5]; exact targets_five _
  · unfold Credits; rw [if_neg (by decide +kernel)]
  · intro b; rw [l8]; refine ⟨by cases b <;> decide +kernel, ?_⟩
    cases b
    · exact ⟨_, range_glob _ _ (Or.inl rfl) (Or.inl rfl), range_glob _ _ (Or.inr rfl) (Or.inl rfl), range_glob _ _ (Or.inr rfl) (Or.inr rfl)⟩
    · exact ⟨_, range_loc _ _ (Or.inl rfl), range_loc _ _ (Or.inr rfl), range_loc _ _ (Or.inr rfl)⟩
  · intro b dest h; rw [bad] at h; exact absurd h.1 (by decide)
  · intro c; rw [wb]; exact no_leaf _ c
  · exact coll_fails
  · exact isColl_ex (by decide +kernel)

def here (k : FabricKind) (a : Option FabricAnswer) : FabricOp := ⟨9, 1, 0, 0, 0, 0, 0, false, k, a, 0, [], 0⟩
def fabricWith (o : FabricOp) (s : Machine.State := drawing .none) : Machine.State :=
  { s with fabric := [o], counted := [⟨9, 1, 2, false, none, [], 0⟩] }
theorem own_of (k : FabricKind) (a : Option FabricAnswer) (s : Machine.State) (h : s.ply.uid = 1) : OwnFabric (fabricWith (here k a) s) 9 (here k a) := by
  refine ⟨?_, ?_, rfl, ?_⟩
  · show s.ply.uid ≠ 0; omega
  · exact h.symm
  · simp [fabricWith, here]
def range8 : LocalRange := ⟨0x8000000000000010, some 0x8010, [], 8⟩
def self (mode : Nat := 0) : Target := ⟨0, 0, mode⟩
def put (dest : Target) : FabricKind := .rput dest 3 4 range8
def get (dest : Target) : FabricKind := .rget dest 3 4 range8 none
def send (dest : Target) : FabricKind := .msend dest 7 range8
/-- Region 3 of tenant 0, open to every endpoint; the failing granule is at 0x20100. -/
def regioned (w : Bool) (o : List FabricOp := []) : Machine.State :=
  let s := drawing .none
  { s with
    tenants := [(0, { (s.tenant 0) with regions := [(3, ⟨0x20000, 0x1000, w, w, 0, 0⟩)] })], failing := [0x20100]
    fabric := o, counted := [⟨9, 1, 2, false, none, [], 0⟩] }
def armed1 (once : Bool) : Armed := ⟨7, record1, 0x30000, 1, once, 1, 0⟩
def message (job : Nat := 0) : Message := ⟨7, 5, 0, 2, job, zeros 8⟩
def landing (l : List Armed) (busy : List (DWord × Nat) := []) : Machine.State :=
  { queue 3 with tenants := [(0, { (queue 3).tenant 0 with armed := l, busySlots := busy })] }
/-- A message has landed; its slot is performed by ptime due, and a store completes. -/
def landed (due : Nat) (scope : BitVec 24 := 0) : Machine.State :=
  { landing [armed1 true] with
    landings := [⟨0, 0x30000, due, { record1 with scope := scope }, 1, 7, true⟩], stores := [pending 3 0] }
def arm (tag : DWord) (ring : Word := 0x50000) : List Word :=
  [tag.extractLsb' 0 32, tag.extractLsb' 32 32, 0x30080, 0, ring, 0, BitVec.ofNat 32 0, BitVec.ofNat 32 (2 * 1 + 0)]
theorem first_of (k : FabricKind) (s : Machine.State) (h : s.fabric = [here k none]) : FirstWaiting s (here k none) :=
  ⟨by show 1 ≠ 0; decide, rfl, [], [], h, fun q hq => by cases hq⟩
def slotRecord : Record := { record1 with arg := #v[0, 0, 0, 0] }
theorem witness_FabricOperations :
    (∀ k ∈ [put five, get five, send five], OwnFabric (fabricWith (here k (some (.done [])))) 9 (here k (some (.done []))) ∧
      OwnFabric (fabricWith (here k none)) 9 (here k none) ∧ (here k none).kind.target ≠ none ∧ (fabricWith (here k none)).mayBegin (here k none) = true ∧
      (here k none).owed = [] ∧ (fabricWith (here k none)).now < (0 : Nat) + 1000 * ((fabricWith (here k none)).tenant 0).fabto) ∧
    (let s := fabricWith (here (put five) none) { drawing .none with tick := 0, ptime := 50000000 };
      0 + 1000 * (s.tenant 0).fabto ≤ s.now) ∧
    (SettledOn (fabricWith (here (get five) none)) 0 ∧ (zeros 8).length = range8.length ∧ five.endpoint ≠ base.endpoint ∧
      SettledOn (fabricWith (here (put five) none)) 0) ∧
    (Grants (regioned true) 0 3 5 0 4 8 true ∧ zeros 8 ≠ [] ∧ 5 ≠ (regioned true).endpoint ∧
      (regioned true).range 0 .write (regionAt (regionOf (regioned true) 0 3) 4) 8 = .ok [(0x20004, 8)] ∧ (regioned true).bad 0x20004 8 = false ∧
      Grants (regioned true) 0 3 5 0 0x100 8 true ∧
      (regioned true).range 0 .read (regionAt (regionOf (regioned true) 0 3) 0x100) 8 = .ok [(0x20100, 8)] ∧ (regioned true).bad 0x20100 8 = true) ∧
    -- no region, another job, beyond it, not open
    (Refuses (regioned true) 0 4 5 0 4 8 true 3 ∧ Refuses (regioned true) 0 3 5 1 4 8 true 3 ∧ Refuses (regioned true) 0 3 5 0 0xFFC 8 true 4 ∧
      Refuses (regioned false) 0 3 5 0 4 8 (regionOf (regioned false) 0 3).write 5) ∧
    (∀ k ∈ [put self, get self, send self], FirstWaiting (regioned true [here k none]) (here k none) ∧ Loops (regioned true [here k none]) (here k none) 0) ∧
    -- a retried packet of a RUDI put
    (let o := here (put (self 2)) (some (.done [])); let s := regioned true [o];
      Grants s 0 3 0 0 4 8 true ∧ 0 = s.endpoint ∧ o ∈ s.fabric ∧ Loops s o 0 ∧ (∃ c ∈ s.counted, c.seq = o.seq ∧ c.complete = false) ∧
        (∀ q ∈ s.fabric, q.answer ≠ none) ∧ 0x20004 % 4 = 0 ∧ s.range 0 .write (regionAt (regionOf s 0 3) 4) 8 = .ok [(0x20004, 8)]) := by
  have ownDrawing (k : FabricKind) (a : Option FabricAnswer) : OwnFabric (fabricWith (here k a)) 9 (here k a) := own_of k a _ (by decide +kernel)
  refine ⟨?_, ?_, ⟨⟨?_, ?_⟩, ?_, ?_, ?_, ?_⟩, ⟨⟨?_, ?_, ?_⟩, ?_, ?_, isOk_eq ?_, ?_, ⟨?_, ?_, ?_⟩, isOk_eq ?_, ?_⟩,
    ⟨Or.inl ⟨?_, ?_⟩, Or.inl ⟨?_, ?_⟩, Or.inr (Or.inl ⟨?_, ?_, ?_⟩), Or.inr (Or.inr ⟨?_, ?_, ?_, ?_⟩)⟩, ?_,
    ⟨⟨?_, ?_, ?_⟩, ?_, ?_, ⟨self 2, ?_, ?_, ?_⟩, ?_, ?_, ?_, isOk_eq ?_⟩⟩ <;>
    first | decide +kernel | (unfold Absent; decide +kernel) | skip
  · intro k hk
    refine ⟨ownDrawing _ _, ownDrawing _ _, ?_, ?_, ?_, ?_⟩ <;> (simp only [List.mem_cons, List.not_mem_nil, or_false] at hk; rcases hk with rfl | rfl | rfl <;> decide +kernel)
  · intro k hk
    refine ⟨first_of _ _ rfl, self, ?_, ?_, rfl⟩ <;> (simp only [List.mem_cons, List.not_mem_nil, or_false] at hk; rcases hk with rfl | rfl | rfl <;> decide +kernel)
theorem witness_FabricTraffic :
    (∀ tag ∈ [(0x07 : DWord), 0xFF00000000000007], Asked (asked (.marm 20 (arm tag)) (landing [])) ⟨9, base.ply.slot, .marm 20 (arm tag)⟩ ∧
      ArmGroup (arm tag) tag 0x30080 0x50000 0 1 false ∧ armedAt (landing []) 0 tag = none) ∧
    (ArmGroup (arm 7 0x50001) 7 0x30080 0x50001 0 1 false ∧ (0x50001 : DWord).toNat % 4096 ≠ 0 ∧
      1024 ≤ (List.replicate 1024 (armed1 false)).length ∧ ((landing []).tenant 0).armed.length < 1024) ∧
    (∃ ps, (landing []).range 0 .write 0x50000 (4096 * 2 ^ 0) = .ok ps) ∧
    ((landing []).readVirt noCore 0 0x30080 128 = .ok (recordBytes 0x09 0) ∧ Record.parse (recordBytes 0x09 0) = .ok slotRecord) ∧
    armedAt (landing [armed1 false]) 0 7 ≠ none ∧
    (∀ l, Asked (asked (.mdisarm 20 7) (landing l)) ⟨9, base.ply.slot, .mdisarm 20 7⟩) ∧
    -- a message for another job, without an armed launch, to a busy slot, to a free one
    ((message 1).job ≠ ((landing []).tenant 0).job ∧ message.job = ((landing []).tenant 0).job) ∧
    (armedAt (landing []) 0 7 = none ∧ message.source ≠ (landing []).endpoint) ∧
    (∃ b ∈ ((landing [armed1 false] [(0x30000, 4)]).tenant 0).busySlots, b.1 = (armed1 false).ring + BitVec.ofNat 64 (4096 * 0)) ∧
    (∀ once, let s := landing [armed1 once]; armedAt s 0 7 = some (armed1 once) ∧ (s.tenant 0).busySlots = [] ∧
      message.source < 2 ^ 20 ∧ message.sender < 16 ∧ s.landings = [] ∧ (∀ x ∈ (s.tenant 0).armed, x.tag = 7 → x = armed1 once) ∧
      s.range 0 .write ((armed1 once).ring + BitVec.ofNat 64 (4096 * 0)) (64 + message.payload.length) = .ok [(0x30000, 64 + message.payload.length)]) ∧
    -- a slot whose writes are performed, for a launch whose scope takes it or does not, and one whose are not
    (∀ n ∈ [0, 5], let s := landed 0 (BitVec.ofNat 24 n); s.stores.find? (fun x => x.seq == 3) = some (pending 3 0) ∧ (pending 3 0).time ≤ s.now ∧
      (∀ r ∈ s.stores, lineOf r.pa = lineOf (pending 3 0).pa → 3 ≤ r.seq) ∧ s.loads = [] ∧ s.scopes = [] ∧ 0 ≤ s.now) ∧
    ((landed 0).scopeTakes 0 0 = true ∧ (landed 0).scopeTakes 0 5 = false ∧ (landed 9).now < 9) ∧
    -- a firing of a slot is over where its scope is cancelled
    (let f := { firing1 7 with landing := some 0x30000 }; let s := { firing 7 with firings := [f] };
      s.firings.find? (fun x => x.id == f.id) = some f ∧ f.next < f.total ∧ f.running = 0 ∧ s.scopeCancelled f.tenant f.record.scope = true) := by
  refine ⟨?_, ⟨⟨?_, ?_, ?_⟩, ?_, ?_, ?_⟩, ?_, ⟨isOk_eq ?_, parse_ok _ _ ?_⟩, ?_, ?_, ?_, ?_, ?_, ?_, ?_, ?_, ?_⟩ <;>
    first | decide +kernel | skip
  · intro tag ht
    simp only [List.mem_cons, List.not_mem_nil, or_false] at ht
    refine ⟨asked_of _ _ ?_, ⟨?_, by decide, by decide⟩, ?_⟩ <;> (rcases ht with rfl | rfl <;> decide +kernel)
  · exact ⟨_, isOk_eq (a := [(0x50000, 4096)]) (by decide +kernel)⟩
  · intro l; exact asked_of _ _ rfl

/-- This device reads and writes FP32 units of its window for the one member of communicator 2. -/
def walk4 (o : Nat) : Walk := ⟨some .xbuf, 0x8000, BitVec.ofNat 64 o, [2, 1, 1, 1, 1], [4, 0, 0, 0, 0]⟩
def collKind : FabricKind := .coll 0 0 2 0 (walk4 0) (walk4 0x20) 0 2 0
def folding (a : Option FabricAnswer) : Machine.State := fabricWith (here collKind a) collective
def member (units : Nat) (issued : Nat := 0) : Contribution := ⟨0, 0, 0, units, issued, zeros 8⟩
/-- Two members, this device the first. -/
def pairOfMembers (a : Option FabricAnswer) : Machine.State :=
  let s := folding a
  { s with tenants := [(0, { (s.tenant 0) with comms := [(2, ⟨[0, 1], [2], false⟩)] })] }
def slacking (window : List (Nat × Nat)) (now := 5) (at' := 0) (step := 0) : Machine.State :=
  { hosting with
    ptime := BitVec.ofNat 64 now
    clusters := [(0, { Cluster.reset with part := some 0, slackStep := step, slackAt := at' })]
    tenants := [(0, { (hosting.tenant 0) with slack := true, window := window })] }
/-- Sixteen instances, 100 ns apart, each with the same slack. -/
def sixteen (slack : Nat) : List (Nat × Nat) := (List.range 16).map fun k => (slack, 100 * k)
theorem interval_of (slack : Nat) : meanInterval (sixteen slack) = 100 := by
  simp [meanInterval, sixteen, List.range_succ]; norm_num
theorem slack_of (slack : Nat) : meanSlack (sixteen slack) = slack := by
  simp [meanSlack, sixteen, List.range_succ]; ring
theorem ready_instance (s : Machine.State) (h : ((s.comm 0 2).rank s.endpoint == some 0 && s.engineReady s.ply 9 true &&
      ((s.readUnits { s.ply with tenant := 0 } 9 ((walk4 0).unitsFrom 4)) ++ (s.readUnits { s.ply with tenant := 0 } 9 ((walk4 0x20).unitsTo 4))).all
        fun r => r.fault == none) = true) (ho : OwnFabric s 9 (here collKind none)) :
    InstanceReady s 9 (here collKind none) (s.comm 0 2) 0 4 (walk4 0) (walk4 0x20)
      (s.readUnits { s.ply with tenant := 0 } 9 ((walk4 0).unitsFrom 4)) (s.readUnits { s.ply with tenant := 0 } 9 ((walk4 0x20).unitsTo 4)) := by
  simp only [Bool.and_eq_true, beq_iff_eq, List.all_eq_true] at h
  exact ⟨ho, rfl, h.1.1, h.1.2, rfl, rfl, h.2⟩
theorem witness_Collectives :
    ((∀ q ∈ [2, 2], 0 < q) ∧ (∀ x ∈ [1, 2, 3, 4], x < 2 ^ 32) ∧ FoldsTo (fun a b => (a + b) % 2 ^ 32) [2, 2] [1, 2, 3, 4] 10) ∧
    Brings 4 2 [zeros 8, zeros 8] ∧ [zeros 8, zeros 8][1]? = some (zeros 8) ∧
    (let s := pairOfMembers none; InstanceReady s 9 (here collKind none) (s.comm 0 2) 0 4 (walk4 0) (walk4 0x20)
        (s.readUnits { s.ply with tenant := 0 } 9 ((walk4 0).unitsFrom 4)) (s.readUnits { s.ply with tenant := 0 } 9 ((walk4 0x20).unitsTo 4)) ∧
      [member 2, member 3].length = (s.comm 0 2).members.length ∧ [member 2, member 3][1]? = some (member 3) ∧ ¬Agrees (member 3) 0 0 0 2 ∧
      Agrees (member 2) 0 0 0 2 ∧ Timely s (here collKind none) [member 2, member 2] 0 ∧
      ¬Timely s (here collKind none) [member 2, member 2 (1000 * (s.tenant 0).colto + 1)] 0) ∧
    (let s := pairOfMembers none; (∀ r ∈ s.readUnits { s.ply with tenant := 0 } 9 ((walk4 0x20).unitsTo 4), isLocalPlace r.unit.dst) ∧
      (∀ sp, ((s.core 0).space sp).wf = true) ∧ s.stale 0 = [] ∧ ∀ q ∈ s.stores, q.seq ≤ s.seq) ∧
    (OwnFabric (folding (some (.done []))) 9 (here collKind (some (.done []))) ∧ 0 ≤ (folding (some (.done []))).now ∧
      OwnFabric (folding none) 9 (here collKind none)) ∧
    -- a member that is late, and one whose time is not over
    (let s := { folding none with ptime := BitVec.ofNat 64 (1000 * ((folding none).tenant 0).colto) };
      OwnFabric s 9 (here collKind none) ∧ 0 + 1000 * (s.tenant 0).colto ≤ s.now) ∧
    (folding none).now < 0 + 1000 * ((folding none).tenant 0).colto ∧
    -- slack control: slower, faster, as before, too early, off, a short window
    (let s := slacking (sixteen 50); (s.tenant 0).slack = true ∧ 16 ≤ (s.tenant 0).window.length ∧ 0 ∈ s.partClusters 0 ∧
      ((s.tenant 0).window.take 16 = sixteen 50 ∧ Measures (sixteen 50) 800 1500 ∧ ¬Measures (sixteen 50) 0 0 ∧ meanInterval (sixteen 50) < 10 * meanSlack (sixteen 50)) ∧
      (s.cluster 0).slackAt = 0 ∧ (s.cluster 0).step.toNat + (s.cluster 0).slackStep < 4) ∧
    (((slacking (sixteen 0) 5 0 1).tenant 0).window.take 16 = sixteen 0 ∧ meanSlack (sixteen 0) = 0) ∧
    (meanSlack (sixteen 5) ≠ 0 ∧ 10 * meanSlack (sixteen 5) ≤ meanInterval (sixteen 5)) ∧
    (let s := slacking (sixteen 50) 7 5 1; ¬((s.cluster 0).slackAt = 0 ∨ (s.cluster 0).slackAt + 2000000 ≤ s.now)) ∧
    ((base.tenant 0).slack = false ∧ ((slacking []).tenant 0).window.length < 16) := by
  refine ⟨⟨by decide, by decide, ?_⟩, ?_, rfl, ⟨ready_instance _ ?_ ⟨?_, ?_, rfl, ?_⟩, ?_, rfl, ?_, ?_, ?_, ?_⟩, ⟨?_, ?_, rfl, ?_⟩,
    ⟨⟨?_, ?_, rfl, ?_⟩, ?_, ?_, ?_, rfl, ?_⟩, ⟨⟨?_, ?_, rfl, ?_⟩, ?_⟩, ?_, ⟨?_, ?_, ?_, ⟨?_, ?_, ?_, ?_⟩, ?_, ?_⟩, ⟨?_, ?_⟩, ⟨?_, ?_⟩, ?_, ?_, ?_⟩ <;>
    first | decide +kernel | (unfold Agrees; decide +kernel) | (unfold Brings; decide +kernel) | (unfold Timely; decide +kernel) |
      (unfold Measures; decide +kernel) |
      (simp only [interval_of, slack_of]; norm_num; done) | skip
  · refine ⟨[[1, 2], [3, 4]], ⟨by decide, by decide, by decide⟩, [[3, 7]], ⟨by decide, by decide, by decide⟩, rfl⟩
  · intro r hr
    have h : (((pairOfMembers none).readUnits { (pairOfMembers none).ply with tenant := 0 } 9 ((walk4 0x20).unitsTo 4)).all fun r =>
      match r.unit.dst with | .loc _ _ => true | _ => false) = true := by decide +kernel
    have := List.all_eq_true.mp h r hr
    cases hd : r.unit.dst with
    | loc a b => exact True.intro
    | glob v => rw [hd] at this; cases this
  · intro sp; cases sp <;> decide +kernel

/-! ## Witnesses: the loader, the pipe, the machine -/

def elf (l : List Section) : ObjectFile := ⟨2, 1, 1, 0, 1, 0x4C4D, 1, ⟨.null, 0, 0, 0, 0, []⟩ :: l⟩
def text (d : List Byte) : Section := ⟨.text, 1, 6, 64, d.length, d⟩
/-- An entry header, and END at the entry. -/
def program : Section := text ([8, 0, 0, 16] ++ zeros 60 ++ leBytes 4 0x9C000000)
def entries (e : Nat) : Section := ⟨.entries, 0x70000001, 0, 8, 8, leBytes 8 e⟩
/-- Tables down to the page of virtual address 0. -/
def tabled : Machine.State :=
  { base with
    mem := ((base.mem.writeN 0x600000 (leBytes 8 0x604001)).writeN 0x604000 (leBytes 8 0x608001)).writeN 0x608000 (leBytes 8 0x60C001)
    tenants := [(0, { (base.tenant 0) with ptroot := 0x600000 })] }
def isLoaded (e : Except LoadReport (Writes × Machine.Image)) : Bool :=
  match e with
  | .ok _ => true
  | .error _ => false
theorem isLoaded_ex {e : Except LoadReport (Writes × Machine.Image)} (h : isLoaded e = true) : ∃ m i, e = .ok (m, i) := by
  cases e with
  | error r => cases h
  | ok x => exact ⟨x.1, x.2, rfl⟩
theorem notLoaded_ex {e : Except LoadReport (Writes × Machine.Image)} (h : isLoaded e = false) : ∃ r, e = .error r := by
  cases e with
  | error r => exact ⟨r, rfl⟩
  | ok x => cases h
def image1 (va : Nat) : Machine.Image := ⟨va, [(va, 0x700000, 5)], [], [], [va + 64]⟩
def loaded (va : Nat) : Machine.State := { base with tenants := [(0, { (base.tenant 0) with images := [image1 va] })] }
/-- A load whose writes are performed by ptime due, or a later request after it; a store completes. -/
def loading (due : Nat) : Machine.State := { base with stores := [pending 3 0], loads := [⟨0, some (image1 0), zeros 8, due⟩] }
def idle : Machine.State := { hosting with ply := { base.ply with running := false } }
def goingOn : Machine.State := { hosting with ply := { base.ply with running := true, resumes := true } }
def idleOther : Machine.State :=
  { idle with ply := { base.ply with running := false, pipe := 1 }, plies := [{ base.ply with uid := 3, running := false }] }
/-- The allowance is used up; the one lane's task is in scope 7. -/
def exhausted : Machine.State :=
  { State.withPly solo fun p => { p with ydl := 0, lanes := p.lanes.set 0 { LaneInfo.empty with scope := 7 } } with
    scopes := [{ scope7 .opened false 0 0 with live := 1 }] }
theorem used_entry : ((loaded 0x10000).usedEntries 0).contains 0x10000 := by decide +kernel
theorem used_entries : (((loaded 0x30000).usedEntries 0).all fun a => a == 0x10000) = true := by decide +kernel
/-- One relocation of .text. -/
def relocating (type : Nat) (w : Word) : ObjectFile :=
  elf [text (leBytes 4 w.toNat), ⟨.relaText, 4, 0, 8, 24, leBytes 8 0 ++ leBytes 8 type ++ zeros 8⟩]
theorem witness_Loader :
    ¬HeaderOk ⟨1, 1, 1, 0, 1, 0x4C4D, 1, []⟩ ∧ (HeaderOk ⟨2, 1, 1, 0, 1, 0x4C4D, 2, []⟩ ∧ ¬MachineOk ⟨2, 1, 1, 0, 1, 0x4C4D, 2, []⟩) ∧
    -- at once, or behind an earlier request
    (tabled.loads = [] ∧ (∃ l ∈ (loading 9).loads, l.tenant = 0) ∧ ∀ l ∈ (loading 9).loads, (loading 9).now < l.due) ∧
    (∃ r, tabled.loadObject 0 (elf [program, entries 128]) [⟨0, 0x700000⟩] [] = .error r) ∧
    (∃ m i, tabled.loadObject 0 (elf [program, entries 64]) [⟨0, 0x700000⟩] [] = .ok (m, i)) ∧
    (∀ q ∈ tabled.stores, q.seq ≤ tabled.seq) ∧
    (∀ due ∈ [0, 9], let s := loading due; s.stores.find? (fun x => x.seq == 3) = some (pending 3 0) ∧ (pending 3 0).time ≤ s.now ∧
      (∀ r ∈ s.stores, lineOf r.pa = lineOf (pending 3 0).pa → 3 ≤ r.seq) ∧ s.landings = [] ∧ (∀ c ∈ s.scopes, c.due = none) ∧
      s.loads = [⟨0, some (image1 0), zeros 8, due⟩]) ∧
    ((loading 9).now < 9 ∧ 0 ≤ (loading 0).now) ∧
    ((zeros 8).length = 4 + 4 ∧ (∀ m ∈ majorsI ++ majorsSI, Major (leBytes 4 (m * 2 ^ 26) ++ leBytes 4 (m * 2 ^ 26)) 0 m ∧
      Major (leBytes 4 (m * 2 ^ 26) ++ leBytes 4 (m * 2 ^ 26)) (0 + 4) m)) ∧
    (∃ r ∈ (relocating 17 0).relas, 17 ≤ r.type) ∧
    (∃ r ∈ (relocating 11 0x9C000000).relas, r.type = 11 ∧ Major (leBytes 4 0x9C000000) r.offset 0x27) := by
  refine ⟨?_, ⟨?_, ?_⟩, ⟨?_, ?_, ?_⟩, notLoaded_ex ?_, isLoaded_ex ?_, ?_, ?_, ⟨?_, ?_⟩, ⟨?_, ?_⟩, ?_, ?_⟩ <;>
    first | decide +kernel | (unfold HeaderOk; decide +kernel) | (unfold MachineOk; decide +kernel) | (unfold Major; decide +kernel) | skip
theorem witness_LoaderAndPipe :
    (((loaded 0x10000).tenant 0).images.find? (fun j => j.holds (BitVec.ofNat 64 0x10040)) = some (image1 0x10000) ∧
      (loaded 0x10000).loads = [] ∧
      ∃ a ∈ (loaded 0x10000).usedEntries 0, ∃ x ∈ (image1 0x10000).pages, a.toNat / 65536 * 65536 = x.1) ∧
    (((loaded 0x30000).tenant 0).images.find? (fun j => j.holds (BitVec.ofNat 64 0x30040)) = some (image1 0x30000) ∧
      (loaded 0x30000).loads = [] ∧
      (∀ a ∈ (loaded 0x30000).usedEntries 0, ∀ x ∈ (image1 0x30000).pages, a.toNat / 65536 * 65536 ≠ x.1) ∧
      ∀ j ∈ ((loaded 0x30000).tenant 0).images, ¬j.holds (BitVec.ofNat 64 0x30040) = true → ∀ a ∈ j.uses, ∀ e ∈ (image1 0x30000).exports, e.1 ≠ a) ∧
    (idle.ply.running = false ∧ NoneAwaits idle ∧ idle.nextPath 0 0 = some (idle.ply, 0) ∧ idle.nextPath 1 0 = none ∧ idle.onPipe 1 0 = []) ∧
    (goingOn.ply.running = true ∧ NoneAwaits goingOn ∧ goingOn.nextPath 0 0 = some (goingOn.ply, goingOn.ply.slot)) ∧
    (let p : Ply := { base.ply with uid := 3, running := false }; NoneAwaits idleOther ∧ idleOther.ply.uid ≠ 0 ∧ p.uid ≠ idleOther.ply.uid ∧
      p.running = false ∧ idleOther.nextPath 0 0 = some (p, 0)) ∧
    base.ply.yc.toNat + base.issue.words ≤ 64 * base.ply.ydl.toNat ∧
    (64 * exhausted.ply.ydl.toNat < exhausted.ply.yc.toNat + exhausted.issue.words ∧ Named exhausted ∧ Unbound exhausted ∧ exhausted.ply.occ ≠ 0 ∧
      exhausted.ply.failures = [] ∧ exhausted.ply.firing = none ∧ (∀ a ∈ exhausted.arrivals, a.uid ≠ exhausted.ply.uid) ∧ ScopesDiffer exhausted ∧
      (∀ i, i < 96 → exhausted.ply.occ.has i = true → laneScope exhausted i = 7) ∧
      ∃ x, exhausted.scopeOf 0 7 = some x ∧ x.state = .opened) := by
  have u : Unbound exhausted := by
    intro i hi
    have h : ∀ j : Fin 96, (exhausted.ply.info j).leaf = none ∧ (exhausted.ply.info j).commit = none := by decide +kernel
    exact h ⟨i, hi⟩
  have c : ∀ i, i < 96 → exhausted.ply.occ.has i = true → laneScope exhausted i = 7 := by
    intro i hi
    have h : ∀ j : Fin 96, exhausted.ply.occ.has j = true → laneScope exhausted j = 7 := by decide +kernel
    exact h ⟨i, hi⟩
  refine ⟨⟨?_, ?_, 0x10000, List.contains_iff_mem.mp used_entry, (0x10000, 0x700000, 5), ?_, ?_⟩,
    ⟨?_, ?_, fun a ha x hx => ?_, ?_⟩, ⟨?_, ?_, ?_, ?_, ?_⟩, ⟨?_, ?_, ?_⟩, ⟨?_, ?_, ?_, ?_, ?_⟩, ?_, ⟨?_, ?_, u, ?_, ?_, ?_, ?_, ?_, c,
    { scope7 .opened false 0 0 with live := 1 }, ?_, ?_⟩⟩ <;>
    first | decide +kernel | (unfold NoneAwaits; decide +kernel) | (unfold ScopesDiffer; decide +kernel) | (unfold Named; decide +kernel) | skip
  have h1 : a = 0x10000 := by simpa using List.all_eq_true.mp used_entries a ha
  have h2 : x = (0x30000, 0x700000, 5) := by simpa [image1] using hx
  rw [h1, h2]; decide

/-! ## Decoding: words written out from the encodings of spec/03 and of the instructions' entries -/

/-- A word decodes to an instruction, which is well formed and encodes to it. -/
noncomputable def reads (w : Nat) (i : Instr) : Bool :=
  match decode w with
  | .ok j => j == i && i.wf && encode i == some (BitVec.ofNat 32 w)
  | .error _ => false
theorem reads_eq {w : Nat} {i : Instr} (h : reads w i = true) : decode w = .ok i := by
  unfold reads at h; cases hx : decode w <;> simp_all
/-- A word is refused with a sub-code and a position. -/
noncomputable def refuses (w : Nat) (e : Illegal) : Bool :=
  match decode w with
  | .ok _ => false
  | .error x => x == e
theorem refuses_eq {w : Nat} {e : Illegal} (h : refuses w e = true) : decode w = .error e := by
  unfold refuses at h; cases hx : decode w <;> simp_all

theorem witness_MemoryStaysCanonical : MemoryOk base ∧ ∃ t, step base = .next t := by
  refine ⟨by unfold MemoryOk; decide +kernel, ?_⟩
  have h : (match step base with | .next _ => true | _ => false) = true := by decide +kernel
  cases hx : step base with
  | next t => exact ⟨t, rfl⟩
  | fault f => rw [hx] at h; cases h
  | refused r => rw [hx] at h; cases h
theorem witness_DecodeEncode :
    (Instr.sadd 20 21 22).wf = true ∧ encode (.sadd 20 21 22) = some 0x05455600 ∧ decode (0x05455600 : Word).toNat = .ok (.sadd 20 21 22) :=
  ⟨by decide +kernel, by decide +kernel, reads_eq (by decide +kernel)⟩

/-- The word w, and one after it, stand at the pc. -/
def fetching (w next : Word) (s : Machine.State := base) : Machine.State :=
  { s with mem := s.mem.writeN 0x10000 (wordBytes w ++ wordBytes next) }
def wordsAt (e : Except Cause Word) (w : Word) : Bool := isOk e w
theorem fetches_of (s : Machine.State) (w : Word) (h : (!isHint w.toNat && !isTransfer w.toNat && isOk (s.fetchAt s.path.pc) w) = true) :
    Fetches s [] w none := by
  simp only [Bool.and_eq_true, Bool.not_eq_true'] at h
  refine ⟨fun k x hx => (by cases hx), h.1.1, ?_, ?_⟩
  · show s.fetchAt (s.path.pc + BitVec.ofNat 64 (4 * 0)) = _
    rw [show s.path.pc + BitVec.ofNat 64 (4 * 0) = s.path.pc by simp]; exact isOk_eq h.2
  · rw [if_neg (by rw [h.1.2]; decide)]; done
theorem fetches_transfer (s : Machine.State) (w n : Word) (h : (!isHint w.toNat && isTransfer w.toNat && isOk (s.fetchAt s.path.pc) w &&
    isOk (s.fetchAt (s.path.pc + 4)) n) = true) : Fetches s [] w (some n) := by
  simp only [Bool.and_eq_true, Bool.not_eq_true'] at h
  refine ⟨fun k x hx => (by cases hx), h.1.1.1, ?_, ?_⟩
  · show s.fetchAt (s.path.pc + BitVec.ofNat 64 (4 * 0)) = _
    rw [show s.path.pc + BitVec.ofNat 64 (4 * 0) = s.path.pc by simp]; exact isOk_eq h.1.2
  · rw [if_pos h.1.1.2]; exact ⟨n, rfl, isOk_eq h.2⟩
theorem fetches_hinted (s : Machine.State) (h w : Word) (e : (isHint h.toNat && !isHint w.toNat && !isTransfer w.toNat && isOk (s.fetchAt s.path.pc) h &&
    isOk (s.fetchAt (s.path.pc + 4)) w) = true) : Fetches s [h] w none := by
  simp only [Bool.and_eq_true, Bool.not_eq_true'] at e
  refine ⟨fun k x hx => ?_, e.1.1.1.2, isOk_eq e.2, ?_⟩
  · match k, hx with
    | 0, hx =>
      injection hx with hx; subst hx
      exact ⟨e.1.1.1.1, by rw [show s.path.pc + BitVec.ofNat 64 (4 * 0) = s.path.pc by simp]; exact isOk_eq e.1.2⟩
    | k + 1, hx => cases hx
  · rw [if_neg (by rw [e.1.1.2]; decide)]
/-- A hint and SCMPI at a position. -/
def hinted (pos : Nat := 0) : Machine.State := State.withPly (fetching 0xFC400123 0x0D8517FD) fun p => { p with pos := pos }
def outside (s : Machine.State) : Machine.State := { s with ply := { s.ply with yc := 100, ydl := 1 } }
def lastPlace : Machine.State := State.withPly (fetching 0x9C000000 0) fun p => { p with pos := 24 }
def unmappedPc : Machine.State := State.onPath base fun q => { q with pc := 0x40000000000 }
/-- A word at the end of the mapped addresses. -/
def atEdge (w : Word) : Machine.State :=
  State.onPath { base with mem := base.mem.writeN 0x3FFFFFFFFC (wordBytes w) } fun q => { q with pc := 0x3FFFFFFFFC }
theorem edge_fetches (w : Word) (k : Nat) (x : Word) (hx : [w][k]? = some x) (h : isOk ((atEdge w).fetchAt 0x3FFFFFFFFC) w = true) :
    (atEdge w).fetchAt ((atEdge w).path.pc + BitVec.ofNat 64 (4 * k)) = .ok x := by
  match k, hx with
  | 0, hx => injection hx with hx; subst hx; exact isOk_eq h
  | k + 1, hx => cases hx
theorem witness_StepRunsDecoded :
    ({ base with agenda := [.sensorReading 0 0] } : Machine.State).agenda = .sensorReading 0 0 :: [] ∧
    (let s := fetching 0x05455600 0; Issues s ∧ Fetches s [] 0x05455600 none ∧ Fits s [] 0x05455600 ∧ Allows s (countedWords [] 0x05455600) ∧
      s.ply.stalled = false ∧ decode (0x05455600 : Word).toNat = .ok (.sadd 20 21 22) ∧ s.hazard (s.resolve (.sadd 20 21 22)) = false) ∧
    (let s := fetching 0x8054000A 0xF7E7CF80; Issues s ∧ Fetches s [] 0x8054000A (some 0xF7E7CF80) ∧ Fits s [] 0x8054000A ∧
      Allows s (countedWords [] 0x8054000A) ∧ decode (0x8054000A : Word).toNat = .ok (.brNz 20 10) ∧ isTrailerWord (0xF7E7CF80 : Word).toNat = true ∧
      s.hazard (s.resolve (.brNz 20 10)) = false) ∧
    (let s := hinted; Issues s ∧ Fetches s [0xFC400123] 0x0D8517FD none ∧ Fits s [0xFC400123] 0x0D8517FD ∧
      Allows s (countedWords [0xFC400123] 0x0D8517FD)) ∧
    (let s := hinted 24; Issues s ∧ Fetches s [0xFC400123] 0x0D8517FD none ∧ [(0xFC400123 : Word)].length < 2 ^ 58 ∧
      24 < s.ply.pos + [(0xFC400123 : Word)].length ∧ [(0xFC400123 : Word)] ≠ [] ∧ Allows s (countedWords [0xFC400123] 0x0D8517FD)) ∧
    (State.withPly (fetching 0x05455600 0) fun p => { p with stalled := true }).ply.stalled = true ∧
    (let s := fetching 0x05455615 0; Issues s ∧ Fetches s [] 0x05455615 none ∧ Fits s [] 0x05455615 ∧ Allows s (countedWords [] 0x05455615) ∧
      ∃ r, decodeUnit [] 0x05455615 none = .error r) ∧
    (let s := lastPlace; Issues s ∧ Fetches s [] 0x9C000000 none ∧ s.ply.pos = 24 ∧ isTrailerWord (0x9C000000 : Word).toNat = false ∧
      Allows s (countedWords [] 0x9C000000)) ∧
    (Issues unmappedPc ∧ ∃ c, unmappedPc.fetchAt unmappedPc.path.pc = .error c) ∧
    -- the word of a unit after its hint, and the word after a transfer, do not fetch
    (let s := atEdge 0xFC400123; Issues s ∧ (∀ (k : Nat) h, [(0xFC400123 : Word)][k]? = some h → isHint h.toNat = true ∧
        s.fetchAt (s.path.pc + BitVec.ofNat 64 (4 * k)) = .ok h) ∧ Allows s [(0xFC400123 : Word)].length ∧
      ∃ c, s.fetchAt (s.path.pc + BitVec.ofNat 64 (4 * [(0xFC400123 : Word)].length)) = .error c) ∧
    (let s := atEdge 0x8054000A; Issues s ∧ (∀ (k : Nat) h, ([] ++ [(0x8054000A : Word)])[k]? = some h →
        s.fetchAt (s.path.pc + BitVec.ofNat 64 (4 * k)) = .ok h) ∧ isHint (0x8054000A : Word).toNat = false ∧
      isTransfer (0x8054000A : Word).toNat = true ∧ Allows s (countedWords [] 0x8054000A) ∧
      ∃ c, s.fetchAt (s.path.pc + BitVec.ofNat 64 (4 * (0 + 1))) = .error c) ∧
    (let s := outside (fetching 0x9C000000 0); Issues s ∧ Fetches s [] 0x9C000000 none ∧ ¬Allows s (countedWords [] 0x9C000000)) ∧
    (State.reset.agenda = [] ∧ State.reset.all = [] ∧ State.reset.events = []) := by
  refine ⟨rfl, ⟨⟨?_, ?_, ?_, ?_, ?_⟩, fetches_of _ _ ?_, Or.inl ?_, ?_, ?_, ?_, ?_⟩,
    ⟨⟨?_, ?_, ?_, ?_, ?_⟩, fetches_transfer _ _ _ ?_, Or.inl ?_, ?_, ?_, ?_, ?_⟩,
    ⟨⟨?_, ?_, ?_, ?_, ?_⟩, fetches_hinted _ _ _ ?_, Or.inl ?_, ?_⟩, ⟨⟨?_, ?_, ?_, ?_, ?_⟩, fetches_hinted _ _ _ ?_, ?_, ?_, ?_, ?_⟩, ?_,
    ⟨⟨?_, ?_, ?_, ?_, ?_⟩, fetches_of _ _ ?_, Or.inl ?_, ?_, ?_⟩, ⟨⟨?_, ?_, ?_, ?_, ?_⟩, fetches_of _ _ ?_, ?_, ?_, ?_⟩,
    ⟨⟨?_, ?_, ?_, ?_, ?_⟩, error_of ?_⟩,
    ⟨⟨?_, ?_, ?_, ?_, ?_⟩, fun k h hx => ⟨?_, edge_fetches _ k h hx ?_⟩, ?_, error_of ?_⟩,
    ⟨⟨?_, ?_, ?_, ?_, ?_⟩, fun k h hx => edge_fetches _ k h hx ?_, ?_, ?_, ?_, error_of ?_⟩,
    ⟨⟨?_, ?_, ?_, ?_, ?_⟩, fetches_of _ _ ?_, ?_⟩, ?_, ?_, ?_⟩ <;>
    first | decide +kernel | (unfold Allows; decide +kernel) | exact reads_eq (by decide +kernel) | skip
  · have h : (match decodeUnit [] 0x05455615 none with | .ok _ => true | .error _ => false) = false := by decide +kernel
    cases hx : decodeUnit [] 0x05455615 none with
    | error r => exact ⟨r, rfl⟩
    | ok i => rw [hx] at h; cases h
  · match k, hx with
    | 0, hx => injection hx with hx; subst hx; decide +kernel
    | k + 1, hx => cases hx

/-! ### One word of each family, as the examples of spec/02, spec/03 and of the instructions' entries give it -/

theorem test_decode_words : (reads 0x05455600 (.sadd 20 21 22) ∧ reads 0x204F9060 (.vadd 9 121 3 0) ∧ reads 0x38182807 (.vshiSra 3 2 7) ∧
    reads 0x8054000A (.brNz 20 10) ∧ reads 0x9C400012 (.trap 0x12) ∧ reads 0xC8D45560 (.shapew 20 21 22) ∧
    reads 0xD41410C0 (.spawn 20 8 24) ∧ reads 0xDCD55000 (.pview 21 20) ∧ reads 0xE0D00000 (.rput 16) ∧ reads 0xE4140090 (.gets 20 9) ∧
    reads 0xF44F9F80 (.endRun 9 121 124) ∧ reads 0xF840C000 (.yield 16 24)) := by decide +kernel
theorem test_decode_scalar : reads 0x0D8517FD (.scmpiLt 24 20 0x7FD) ∧ reads 0x28204345 (.vaddi 4 4 0x345) ∧
    reads 0x3C37FFFF (.vli 6 0x7FFFF) ∧ reads 0x445780E2 (.vaddmin 10 120 7 0) := by decide +kernel
theorem test_decode_lanes : reads 0x64707F8C (.derivx 14 7 0) ∧ reads 0x64606116 (.lred 12 6 8 0) := by decide +kernel
theorem test_decode_control : reads 0x93001408 (.divb 48 5 8) ∧ reads 0x988C0000 (.ret 12) ∧ reads 0x94000000 .join ∧
    reads 0x9C000000 .nop ∧ reads 0x9C800000 .eret := by decide +kernel
theorem test_decode_memory : reads 0xBC945800 (.cinv 20 22) ∧ reads 0xBCD45900 (.cpref 20 22 1) ∧ reads 0xBC400000 .xfence ∧
    reads 0xBD2051C0 (.spill 64 40 7) := by decide +kernel
theorem test_decode_copies : reads 0xC8145844 (.lcp 20 22 8 2) ∧ reads 0xC8500000 (.tcopy 16) ∧ reads 0xC8900000 (.tcopyx 16) ∧
    reads 0xC9500000 (.waitc 1 0) ∧ reads 0xC9944000 (.cntr 20 1 0) := by decide +kernel
theorem test_decode_sync : reads 0xCC048000 (.vfpush 9) ∧ reads 0xCC448000 (.vfpop 9) ∧ reads 0xD0145400 (.bara 20 21) ∧
    reads 0xD0805400 (.baraw 21) := by decide +kernel
theorem test_decode_tasks : reads 0xD4D65C00 (.claim 22 23 0) ∧ reads 0xD5400000 .exit ∧ reads 0xD8185000 (.scopen 24 20 0) ∧
    reads 0xD8805000 (.cancel 20) ∧ reads 0xD8D45A00 (.scpstW 20 22) := by decide +kernel
theorem test_decode_paths : reads 0xDC100000 (.pbegin 16) ∧ reads 0xDC540000 (.psegl 20) ∧ reads 0xDC980000 (.psegq 24) ∧
    reads 0xDDD60000 (.pscan 22) ∧ reads 0xDD800000 .pend ∧ reads 0xDE440000 (.pblend 8) := by decide +kernel
theorem test_decode_fabric : reads 0xE0100000 (.msend 16) ∧ reads 0xE0585000 (.marm 24 20) ∧ reads 0xE0965000 (.mdisarm 22 20) ∧
    reads 0xE1180000 (.rget 24) ∧ reads 0xE1600000 (.collAllReduce 32) := by decide +kernel
theorem test_decode_system : reads 0xE4550110 (.sets 21 0x011) ∧ reads 0xE4940000 (.tlbinv 20) ∧ reads 0xE4804000 .tlbinvAll ∧
    reads 0xE4C00000 .ctxsv ∧ reads 0xE5000000 .ctxrs ∧ reads 0xE5545800 (.smcAssignCluster 20 22) ∧
    reads 0xE5945400 (.pwrqGate 20 21) := by decide +kernel

/-! ## WellFormed refuses an ill-formed term of each kind, and the decoder its word -/

theorem test_ill_formed : ∀ i ∈ [Instr.sadd64 21 0 0, .smov64 20 23, .fdiv 120 1 2 0, .vadd 1 125 2 0, .vadd 1 2 127 0, .ld 120 2 3 0 2 0],
    i.wf = false := by decide +kernel
theorem test_ill_formed_fields : ∀ i ∈ [Instr.divb 49 5 8, .mma 0 0 2 0 0 0, .tcopy 18, .rput 60, .pbegin 58, .gets 20 0x3FF,
    .endRun 125 124 124, .jmpr 13], i.wf = false := by decide +kernel
theorem test_refused_words : refuses 0x05455615 ⟨2, 8⟩ ∧ refuses 0xE0D10000 ⟨7, 16⟩ ∧ refuses 0xC8520000 ⟨7, 16⟩ ∧
    refuses 0xC9500001 ⟨2, 0⟩ := by decide +kernel

end Sys2Proof.Tests
end

namespace Sys2Proof.Machine

/-! ## The integer that each mode of R21 takes, by quotient and remainder -/

section
variable (neg : Bool) (m k : Nat)

theorem roundShift_inexact (mode : Mode) : (roundShift mode neg m k).2 = decide (m % 2 ^ k ≠ 0) := by
  simp [roundShift, bne, Bool.beq_eq_decide_eq]

theorem roundShift_nearestEven : (roundShift 0 neg m k).1 =
    if 2 ^ k < 2 * (m % 2 ^ k) ∨ 2 * (m % 2 ^ k) = 2 ^ k ∧ m / 2 ^ k % 2 = 1 then m / 2 ^ k + 1 else m / 2 ^ k := by
  simp [roundShift]

theorem roundShift_towardZero : (roundShift 1 neg m k).1 = m / 2 ^ k := rfl

/-- RUP of a positive value and RDN of a negative one go away from zero. -/
theorem roundShift_directedAway : (roundShift (if neg then 3 else 2) neg m k).1 =
    if m % 2 ^ k = 0 then m / 2 ^ k else m / 2 ^ k + 1 := by
  cases neg <;> simp [roundShift]

/-- RUP of a negative value and RDN of a positive one go toward zero. -/
theorem roundShift_directedToward : (roundShift (if neg then 2 else 3) neg m k).1 = m / 2 ^ k := by
  cases neg <;> simp [roundShift]

theorem roundShift_nearestAway : (roundShift 4 neg m k).1 =
    if 2 ^ k ≤ 2 * (m % 2 ^ k) then m / 2 ^ k + 1 else m / 2 ^ k := by
  simp [roundShift]

end

/-- Settles O9: each mode takes the quotient of m by 2^k or the next integer, as its remainder says. -/
theorem roundingModes : Obligations.RoundingModes := by
  unfold Obligations.RoundingModes
  intro neg m k _
  have split : m / 2 ^ k * 2 ^ k + m % 2 ^ k = m := Nat.div_add_mod' m (2 ^ k)
  have below : m % 2 ^ k < 2 ^ k := Nat.mod_lt m (Nat.two_pow_pos k)
  have next : (m / 2 ^ k + 1) * 2 ^ k = m / 2 ^ k * 2 ^ k + 2 ^ k := Nat.succ_mul ..
  refine ⟨roundShift_inexact neg m k, ?rne, ?rtz, ?away, ?toward, ?rna⟩
  case rtz => rw [roundShift_towardZero]; omega
  case toward => rw [roundShift_directedToward]; omega
  case away => rw [roundShift_directedAway]; split <;> omega
  case rne => rw [roundShift_nearestEven]; split <;> simp only [Nat.mul_assoc] <;> omega
  case rna => rw [roundShift_nearestAway]; split <;> simp only [Nat.mul_assoc] <;> omega

end Sys2Proof.Machine

namespace Sys2Proof.Machine
open Sys2Proof.Claim

/-! ## A main memory that is not in canonical form

State.seen reads main memory byte by byte, and the engine takes a block of a global operand as one run (Memory.readN). On a canonical
memory the two agree (Memory.readN_eq); they differ where an address is listed behind a lower one. -/

/-- Address 0x40181 is listed behind the lower 0x4017F. -/
def raggedCells : Memory := [(0x40180, 1), (0x4017F, 1), (0x40181, 1)]

/-- A global operand whose rows all start at 0x40000, and a local one whose columns all start at offset 0 of WBUF. -/
def raggedRows : Operand := ⟨false, 0, 0x40000, 0, none⟩
def sharedColumns : Operand := ⟨true, 0, 0xA000000000000000, 0, none⟩

/-- An MMA of two int8 operands into tile 0 that has only its last block to take: bytes 384 to 511 of rows 88 to 95. -/
def lastBlock : MtxOp := ⟨0, 1, 0, 0x10000, 0, 0, .mma none 5 5 false raggedRows sharedColumns true (11, 3), 0⟩

/-- The MMA heads the queue of core 0. Byte 385 of every column of B is 1 and the others of the block are 0, so that each element
grows by byte 385 of its row of A, the one at 0x40181. -/
def raggedState : State :=
  let s := State.reset.withFetchWord 32 0x9C000000
  { s with
    mem := s.mem ++ raggedCells
    cores := [(0, { Core.reset 0 with mtxq := [lastBlock], wbuf := [(385, 1)] })] }

theorem raggedState_not_memoryOk : ¬ MemoryOk raggedState := by
  unfold MemoryOk
  decide +kernel

/-- A read of the byte finds it; a run of bytes that reaches its address does not. -/
theorem raggedState_read_ne_readN : raggedState.mem.read 0x40181 = 1 ∧ raggedState.mem.readN 0x40180 2 = [1, 0] := by decide +kernel

/-! ## It meets the hypotheses of O29 -/

theorem translate_of_page {s : State} {tenant base : Nat} {acc : Access} {va : DWord} (lane : Nat)
    (h : s.page tenant acc (va.toNat / 65536) = .ok base) : s.translate tenant acc va lane = .ok (base + va.toNat % 65536) := by
  simp [State.translate, State.pages, Pages.translate, List.eraseDups_cons, h]

/-- 64 KiB page 4 maps to itself. -/
theorem raggedState_page : raggedState.page 0 .read 4 = .ok 0x40000 := rfl

theorem rowStart_raggedRows (r : Nat) : rowStart raggedRows r = 0x40000 := by
  simp [rowStart, raggedRows]

/-- Every byte of a row of A is reached, at the physical address that equals its virtual one. -/
theorem raggedRows_reaches (r : Nat) {k : Nat} (h : k < 512) : OperandReaches raggedState BitVec.toNat raggedRows r k := by
  have hva : (rowStart raggedRows r + BitVec.ofNat 64 k).toNat = 0x40000 + k := by
    rw [rowStart_raggedRows]
    bv_omega
  have hpage : raggedState.page 0 .read ((rowStart raggedRows r + BitVec.ofNat 64 k).toNat / 65536) = .ok 0x40000 := by
    rw [hva, show (0x40000 + k) / 65536 = 4 by omega, raggedState_page]
  refine Or.inr ⟨by unfold canonical; omega, Nat.mod_one _, ?_⟩
  exact (translate_of_page 127 hpage).trans (congrArg Except.ok (by omega))

theorem blocksOf_int8_within {k i : Nat} (hk : k < blocksOf 5) (hi : i < bytesOfBlock 5) : k * bytesOfBlock 5 + i < 512 := by
  have bytes : bytesOfBlock 5 = 128 := rfl
  have blocks : blocksOf 5 = 4 := rfl
  rw [bytes] at hi ⊢
  omega

theorem raggedState_head : EngineHead raggedState lastBlock [] :=
  ⟨by decide, rfl, rfl, by simp, by decide +kernel, by decide⟩

theorem raggedState_settled : OperandsSettled raggedState lastBlock :=
  ⟨rfl, fun sp => by cases sp <;> rfl, rfl, List.forall_mem_nil _, rfl, fun _ => rfl⟩

/-! ## The element of row 88 and column 0 -/

/-- The engine, which reads the rows of A as runs of bytes, adds nothing. -/
theorem raggedState_engine : tileAt (plyTile (raggedState.runMtx 0).reap.awake.ply 0) 0 88 = 0 := by decide +kernel

/-- Byte by byte the element grows by 1. -/
theorem raggedState_accumulated :
    accumulated raggedState lastBlock none 5 5 false raggedRows sharedColumns (11, 3) none BitVec.toNat 0 88 = 1 := by decide +kernel

theorem execMtxEngineExecute_eq (core : Nat) (s : State) : exec (.mtxEngineExecute core) s = .next (s.runMtx core).reap.awake := rfl

theorem plyTile_of_woken {p q : Ply} (h : WokenPly p q) (k : Nat) : plyTile q k = plyTile p k := by
  obtain ⟨-, -, hq⟩ := h
  rw [hq]
  rfl

/-- Refutes O29: raggedState completes an MMA whose element (88, 0) is 0, where the bytes of its operands, read one by one, come
to 1. Its main memory is not in canonical form (raggedState_not_memoryOk), which OperandsSettled asks of the local spaces alone. -/
theorem not_matrixResults : ¬ Obligations.MatrixResults := by
  unfold Obligations.MatrixResults
  rintro ⟨-, -, -, -, mma⟩
  obtain ⟨completes, -⟩ := mma lastBlock [] none 5 5 false true raggedRows sharedColumns (11, 3) raggedState BitVec.toNat
    raggedState_head rfl (Or.inl ⟨rfl, by decide⟩) raggedState_settled (by decide)
  obtain ⟨t, hexec, p, ⟨-, woken, -⟩, -, -, -, elements⟩ := completes fun g k ⟨_, hk, _⟩ =>
    ⟨fun r i _ hi => raggedRows_reaches r (blocksOf_int8_within hk hi), fun _ _ _ _ => Or.inl rfl⟩
  have ht : (raggedState.runMtx 0).reap.awake = t := Host.Outcome.next.inj ((execMtxEngineExecute_eq 0 raggedState).symm.trans hexec)
  have element : tileAt (plyTile t.ply 0) 0 88 = 1 := by
    rw [plyTile_of_woken woken]
    exact (elements 0 88 (by decide) (by decide)).trans raggedState_accumulated
  rw [← ht, raggedState_engine] at element
  exact absurd element (by decide)

end Sys2Proof.Machine

namespace Sys2Proof.Machine
open Sys2Proof.Claim

/-! ## The lease summaries that a store changes (R325, R328)

A store goes through the vault cache of its line. Where the set of a line that misses is full, a line leaves it, and what the home had
granted on that line enters the horizon of its 4 KiB. -/

/-- The lines of the vault cache in the set of a line. -/
def State.setLines (s : State) (line : Nat) : List CacheLine :=
  (s.vault (vaultOfPa (line * 128))).cache.filter fun c => setOf c.line == setOf line

theorem evictLine_homeLeases_ne_nil (s : State) (c : CacheLine) : (s.evictLine c).homeLeases ≠ [] := by
  simp [State.evictLine, setLease]

/-- Whichever line of a full set the free value takes, its horizon is kept. -/
theorem makeRoom_homeLeases_ne_nil {s : State} {line : Nat} (full : 16 ≤ (s.setLines line).length) :
    (s.makeRoom line).homeLeases ≠ [] := by
  unfold State.setLines at full
  unfold State.makeRoom
  simp only
  rw [if_neg (Nat.not_lt.mpr full), List.getElem?_eq_getElem (Nat.mod_lt _ (by omega))]
  exact evictLine_homeLeases_ne_nil _ _

/-- A store that misses allocates its line, and takes room for it. -/
theorem homeStore_homeLeases_of_miss {s : State} {line : Nat} (tenant : Nat)
    (miss : (s.vault (vaultOfPa (line * 128))).cached line = none) :
    (s.homeStore tenant line 0).homeLeases = (s.makeRoom line).homeLeases := by
  unfold State.homeStore
  rw [miss]
  rfl

/-- A store of the loader changes the lease summaries as its home's vault cache does. -/
theorem arrive_noCore_homeLeases (s : State) (tenant floor : Nat) (scopes : List (BitVec 24)) (pa : Nat) (data : List Byte) :
    (s.arrive 0 noCore tenant 0 floor scopes pa data).homeLeases =
      (State.homeStore { s with seq := s.seq + 1 } tenant (lineOf pa) 0).homeLeases := rfl

/-! ## The lease summaries as a load leaves them -/

theorem answerLoad_homeLeases (s : State) (l : Loading) : (s.answerLoad l).homeLeases = s.homeLeases := by
  unfold State.answerLoad
  cases l.image <;> rfl

theorem answerLoads_homeLeases (s : State) : s.answerLoads.homeLeases = s.homeLeases := by
  unfold State.answerLoads
  refine List.foldlRecOn (motive := fun t : State => t.homeLeases = s.homeLeases) _ _ rfl fun t ht l _ => ?_
  split
  · exact ht
  · exact (answerLoad_homeLeases t l).trans ht

theorem load_homeLeases {s : State} {n : Nat} {o : ObjectFile} {ps : List Placement} {tables : List Nat} {w : Writes} {i : Image}
    (areas : List Nat) (h : s.loadObject n o ps tables = .ok (w, i)) : (s.load n o ps tables areas).homeLeases =
      (State.storeImage { s with saveAreas := s.saveAreas ++ areas.map (BitVec.ofNat 64) } n w).homeLeases := by
  unfold State.load
  rw [h]
  exact answerLoads_homeLeases _

/-! ## A load whose stores turn a line out of a vault cache -/

/-- A program of one NOP, below it the entry header (R57). -/
def nopProgram : List Byte := [8, 0, 0, 16] ++ zeros 60 ++ leBytes 4 0x9C000000

/-- An object with the program and its one entry (R63). -/
def nopObject : ObjectFile :=
  ⟨2, 1, 1, 0, 1, 0x4C4D, 1, [⟨.null, 0, 0, 0, 0, []⟩, ⟨.text, 1, 6, 64, 68, nopProgram⟩,
    ⟨.entries, 0x70000001, 0, 8, 8, leBytes 8 64⟩]⟩

/-- The .text stands at virtual address 0, in the page at 0x700000. -/
def nopPlace : Placement := ⟨0, 0x700000⟩

/-- The load writes the page-table entry of the page and the program. -/
def nopEntry : List Byte := leBytes 8 (0x700000 + 5 * 8 + 5)
def nopWrites : Writes := [(0x60C000, nopEntry), (0x700000, nopProgram)]
def nopImage : Image := ⟨0, [(0, 0x700000, 5)], [], [], [64]⟩

/-- The tables of tenant 0 down to the one of virtual address 0 (R376). -/
def tableCells : Memory :=
  ((Memory.writeN [] 0x600000 (leBytes 8 0x604001)).writeN 0x604000 (leBytes 8 0x608001)).writeN 0x608000 (leBytes 8 0x60C001)

/-- No lease is granted, and set 0 of vault 0, the set of the program's line, holds 16 other lines. -/
def crowdedState : State :=
  { State.reset with
    mem := tableCells
    tenants := [(0, { Tenant.reset with ptroot := 0x600000 })]
    vaults := [(0, { Vault.reset with cache := (List.range 16).map fun k => ⟨1024 * k, false, 0, 0⟩ })] }

theorem crowdedState_memoryOk : MemoryOk crowdedState := by
  unfold MemoryOk
  decide +kernel

theorem crowdedState_loadObject : crowdedState.loadObject 0 nopObject [nopPlace] [] = .ok (nopWrites, nopImage) := rfl

/-- The page-table entry is on its way, and the program is the next store. -/
def mappedState : State :=
  let t := crowdedState.arrive 0 noCore 0 0 0 [] 0x60C000 nopEntry
  { t with seq := t.seq + 1 }

theorem mappedState_full : 16 ≤ (mappedState.setLines (lineOf 0x700000)).length := by decide +kernel

theorem mappedState_miss : (mappedState.vault (vaultOfPa (lineOf 0x700000 * 128))).cached (lineOf 0x700000) = none := by
  decide +kernel

/-- Both writes of the load are stores of one line each. -/
theorem storeImage_nopWrites (s : State) : s.storeImage 0 nopWrites =
    (s.arrive 0 noCore 0 0 0 [] 0x60C000 nopEntry).arrive 0 noCore 0 0 0 [] 0x700000 nopProgram := rfl

theorem crowdedState_load_homeLeases : (crowdedState.load 0 nopObject [nopPlace] [] []).homeLeases ≠ [] := by
  rw [load_homeLeases [] crowdedState_loadObject, storeImage_nopWrites, arrive_noCore_homeLeases]
  show (mappedState.homeStore 0 (lineOf 0x700000) 0).homeLeases ≠ []
  rw [homeStore_homeLeases_of_miss 0 mappedState_miss]
  exact makeRoom_homeLeases_ne_nil mappedState_full

theorem execLoadRequest_eq (n : Nat) (o : ObjectFile) (ps : List Placement) (tables areas : List Nat) (s : State) :
    exec (.loadRequest n o ps tables areas) s = .next (s.load n o ps tables areas) := rfl

/-- Refutes O55: its clause about a load that succeeds says what the stores of the image may change, and leaves out the lease
summaries of the homes. The load of nopObject in crowdedState turns a line out of a full set of vault 0, whose horizon is new. -/
theorem not_loaderAndPipe : ¬ Obligations.LoaderAndPipe := by
  unfold Obligations.LoaderAndPipe
  rintro ⟨-, -, -, succeeds, -⟩
  obtain ⟨t, hexec, -, -, -, -, new, -, -, bytes, frame, -⟩ :=
    succeeds 0 nopObject [nopPlace] [] [] nopWrites nopImage crowdedState crowdedState_loadObject rfl (List.forall_mem_nil _)
  have ht : crowdedState.load 0 nopObject [nopPlace] [] [] = t := Host.Outcome.next.inj ((execLoadRequest_eq ..).symm.trans hexec)
  have stored : new ≠ [] := by
    rintro rfl
    exact absurd (bytes 0x700000 0) (by decide)
  obtain ⟨unchanged, -⟩ := frame stored
  have same : t.homeLeases = [] := congrArg State.homeLeases unchanged
  exact crowdedState_load_homeLeases (ht ▸ same)

end Sys2Proof.Machine

/-!
SUPPORT, and the statement of the tier 3: a row of the encoding tables as fixed bits and places, read from a word and written
into one; with it the decoder and the encoder agree, row by row (R79 to R87).
-/
namespace Sys2Proof.Encoding

/-! ## A word bit by bit (R79 to R87) -/

theorem testBit_fieldNat (w hi lo i : Nat) : (fieldNat w hi lo).testBit i = (decide (i < hi + 1 - lo) && w.testBit (lo + i)) := by
  rw [fieldNat, Nat.testBit_mod_two_pow, Nat.testBit_div_two_pow, Nat.add_comm i]

theorem getElem_field {n w lo i : Nat} (h : i < n) : (field n w lo)[i] = w.testBit (lo + i) := by
  rw [field, ← BitVec.getLsbD_eq_getElem, BitVec.getLsbD_ofNat, Nat.testBit_div_two_pow, Nat.add_comm]
  simp [h]

theorem testBit_place {n : Nat} (x : BitVec n) (lo i : Nat) :
    (place x lo).testBit i = (decide (lo ≤ i) && x.getLsbD (i - lo)) := by
  rw [place, Nat.testBit_mul_two_pow, BitVec.testBit_toNat]

/-- Whether bit i lies in the place. -/
def inPlace (p : Nat × Nat) (i : Nat) : Bool := p.2 ≤ i && i < p.2 + p.1

theorem testBit_place_of_not_inPlace {n : Nat} (x : BitVec n) {lo i : Nat} (h : inPlace (n, lo) i = false) :
    (place x lo).testBit i = false := by
  rw [testBit_place]
  by_cases hi : lo ≤ i
  · have : n ≤ i - lo := by simp [inPlace, hi] at h; omega
    simp [BitVec.getLsbD_of_ge x _ this]
  · simp [hi]

theorem testBit_place_field (n w lo i : Nat) : (place (field n w lo) lo).testBit i = (inPlace (n, lo) i && w.testBit i) := by
  cases h : inPlace (n, lo) i
  · rw [testBit_place_of_not_inPlace _ h, Bool.false_and]
  · simp only [inPlace, Bool.and_eq_true, decide_eq_true_eq] at h
    rw [testBit_place, BitVec.getLsbD_eq_getElem (by omega), getElem_field, Nat.add_sub_cancel' h.1]
    simp [h.1]

/-- A field that is clear in a word is filled without a carry. -/
theorem add_place_eq_or {n lo y : Nat} (x : BitVec n) (clear : y / 2 ^ lo % 2 ^ n = 0) : y + place x lo = y ||| place x lo := by
  have low : y % 2 ^ lo < 2 ^ lo := Nat.mod_lt _ (by positivity)
  have middle : 2 ^ lo * x.toNat + y % 2 ^ lo < 2 ^ (lo + n) := by
    have : 2 ^ lo * (x.toNat + 1) ≤ 2 ^ lo * 2 ^ n := Nat.mul_le_mul_left _ x.isLt
    rw [pow_add]
    linarith
  have split : y = 2 ^ (lo + n) * (y / 2 ^ lo / 2 ^ n) + y % 2 ^ lo := by
    have h := Nat.div_add_mod (y / 2 ^ lo) (2 ^ n)
    rw [clear, Nat.add_zero] at h
    rw [pow_add, Nat.mul_assoc, h, Nat.div_add_mod]
  rw [place, Nat.mul_comm x.toNat]
  generalize y / 2 ^ lo / 2 ^ n = a at split
  generalize y % 2 ^ lo = b at split low middle
  subst split
  rw [Nat.add_assoc, Nat.add_comm b, Nat.two_pow_add_eq_or_of_lt middle, Nat.two_pow_add_eq_or_of_lt low,
    Nat.two_pow_add_eq_or_of_lt (low.trans_le (Nat.pow_le_pow_right (by norm_num) (by omega))), Nat.or_assoc, Nat.or_comm b]

theorem enc_nil (y : Nat) : enc y [] = some y := by simp [enc]

theorem enc_cons {n lo y : Nat} (x : BitVec n) (clear : y / 2 ^ lo % 2 ^ n = 0) (l : List Nat) :
    enc y (place x lo :: l) = enc (y ||| place x lo) l := by
  simp [enc, ← add_place_eq_or x clear, Nat.add_assoc]

/-! ## The fields of a row of the encoding tables -/

/-- A field of an instruction: its value and its place. -/
structure Slot where
  {width : Nat}
  value : BitVec width
  lo : Nat

def Slot.spot (s : Slot) : Nat × Nat := (s.width, s.lo)
def Slot.placed (s : Slot) : Nat := place s.value s.lo

/-- The places of a row do not overlap, in falling order, and its fixed bits leave them clear. -/
def laid (base : Nat) : List (Nat × Nat) → Bool
  | [] => true
  | p :: l => base / 2 ^ p.2 % 2 ^ p.1 == 0 && l.all (fun q => q.2 + q.1 ≤ p.2) && laid base l

theorem or_place_div_mod {n m lo lo' y : Nat} (x : BitVec n) (h : lo' + m ≤ lo) :
    (y ||| place x lo) / 2 ^ lo' % 2 ^ m = y / 2 ^ lo' % 2 ^ m := by
  apply Nat.eq_of_testBit_eq
  intro i
  by_cases hi : i < m
  · simp [Nat.testBit_mod_two_pow, Nat.testBit_div_two_pow,
      testBit_place_of_not_inPlace x (show inPlace (n, lo) (i + lo') = false by simp [inPlace]; omega)]
  · simp [Nat.testBit_mod_two_pow, hi]

theorem laid_or_place {n lo y : Nat} (x : BitVec n) {l : List (Nat × Nat)} (h : l.all (fun q => q.2 + q.1 ≤ lo) = true) :
    laid (y ||| place x lo) l = laid y l := by
  induction l with
  | nil => rfl
  | cons p l ih =>
    simp only [List.all_cons, Bool.and_eq_true, decide_eq_true_eq] at h
    simp only [laid, or_place_div_mod x h.1, ih h.2]

/-- The bits of a row's word: the fixed ones, and those of its fields. -/
theorem testBit_of_enc {slots : List Slot} {base n : Nat} (hl : laid base (slots.map Slot.spot) = true)
    (h : enc base (slots.map Slot.placed) = some n) (i : Nat) :
    n.testBit i = (base.testBit i || slots.any fun s => s.placed.testBit i) := by
  induction slots generalizing base with
  | nil =>
    rw [List.map_nil, enc_nil] at h
    simp [Option.some.inj h]
  | cons s slots ih =>
    simp only [List.map_cons, laid, Slot.spot, Bool.and_eq_true, beq_iff_eq] at hl
    obtain ⟨⟨clear, below⟩, hl⟩ := hl
    rw [List.map_cons, Slot.placed, enc_cons _ clear] at h
    rw [ih (by rwa [← laid_or_place s.value below] at hl) h]
    simp [Slot.placed, Bool.or_assoc]


/-- Bits [hi:lo] lie in none of the places. -/
def apart (ps : List (Nat × Nat)) (hi lo : Nat) : Bool := ps.all fun p => decide (hi < p.2) || decide (p.2 + p.1 ≤ lo)

theorem any_placed_eq_false {slots : List Slot} {hi lo i : Nat} (h : apart (slots.map Slot.spot) hi lo = true) (hlo : lo ≤ i)
    (hhi : i ≤ hi) : (slots.any fun s => s.placed.testBit i) = false := by
  rw [List.any_eq_false]
  intro s hs
  have := List.all_eq_true.mp h s.spot (List.mem_map_of_mem hs)
  change (decide (hi < s.lo) || decide (s.lo + s.width ≤ lo)) = true at this
  simp only [Bool.or_eq_true, decide_eq_true_eq] at this
  simp [Slot.placed, testBit_place_of_not_inPlace s.value (show inPlace (s.width, s.lo) i = false by simp [inPlace]; omega)]

/-- Bits that are apart from the fields are fixed. -/
theorem fieldNat_of_enc {slots : List Slot} {base n hi lo : Nat} (hl : laid base (slots.map Slot.spot) = true)
    (h : enc base (slots.map Slot.placed) = some n) (ha : apart (slots.map Slot.spot) hi lo = true) :
    fieldNat n hi lo = fieldNat base hi lo := by
  apply Nat.eq_of_testBit_eq
  intro i
  by_cases hi : i < hi + 1 - lo
  · rw [testBit_fieldNat, testBit_fieldNat, testBit_of_enc hl h, any_placed_eq_false ha (by omega) (by omega), Bool.or_false]
  · simp [testBit_fieldNat, hi]

/-- A field above the others is the one that was put there. -/
theorem field_of_enc_head {slots : List Slot} {base n : Nat} {s : Slot} (hl : laid base ((s :: slots).map Slot.spot) = true)
    (h : enc base ((s :: slots).map Slot.placed) = some n) : field s.width n s.lo = s.value := by
  have clear := hl
  simp only [List.map_cons, laid, Slot.spot, Bool.and_eq_true, beq_iff_eq] at clear
  obtain ⟨⟨clear, below⟩, -⟩ := clear
  ext j hj
  have fixed : base.testBit (s.lo + j) = false := by
    have := congrArg (Nat.testBit · j) clear
    simpa [Nat.testBit_mod_two_pow, Nat.testBit_div_two_pow, hj, Nat.add_comm j] using this
  have others : (slots.any fun t => t.placed.testBit (s.lo + j)) = false :=
    any_placed_eq_false (lo := s.lo) (hi := s.lo + j)
      (List.all_eq_true.mpr fun q hq => by simpa using Or.inr (of_decide_eq_true (List.all_eq_true.mp below q hq)))
      (by omega) le_rfl
  rw [getElem_field hj, testBit_of_enc hl h, fixed, List.any_cons, others, Slot.placed, testBit_place,
    ← BitVec.getLsbD_eq_getElem]
  simp

theorem field_of_enc {slots : List Slot} {base n : Nat} (hl : laid base (slots.map Slot.spot) = true)
    (h : enc base (slots.map Slot.placed) = some n) : ∀ s ∈ slots, field s.width n s.lo = s.value := by
  induction slots generalizing base with
  | nil => simp
  | cons s slots ih =>
    refine List.forall_mem_cons.mpr ⟨field_of_enc_head hl h, ?_⟩
    simp only [List.map_cons, laid, Slot.spot, Bool.and_eq_true, beq_iff_eq] at hl
    obtain ⟨⟨clear, below⟩, hl⟩ := hl
    rw [List.map_cons, Slot.placed, enc_cons _ clear] at h
    exact ih (by rwa [← laid_or_place s.value below] at hl) h

/-- The fixed bits leave the places clear. -/
theorem testBit_eq_false_of_laid {base i : Nat} {ps : List (Nat × Nat)} (hl : laid base ps = true)
    (h : ps.any (inPlace · i) = true) : base.testBit i = false := by
  induction ps with
  | nil => simp at h
  | cons p ps ih =>
    simp only [laid, Bool.and_eq_true, beq_iff_eq] at hl
    obtain ⟨⟨clear, -⟩, hl⟩ := hl
    rw [List.any_cons, Bool.or_eq_true] at h
    obtain h | h := h
    · simp only [inPlace, Bool.and_eq_true, decide_eq_true_eq] at h
      have := congrArg (Nat.testBit · (i - p.2)) clear
      simpa [Nat.testBit_mod_two_pow, Nat.testBit_div_two_pow, show i - p.2 < p.1 by omega, Nat.sub_add_cancel h.1] using this
    · exact ih hl h

/-- The places and the ranges of fixed bits make up a word of 32 bits. -/
def covers (base : Nat) (ps fixed : List (Nat × Nat)) : Bool :=
  laid base ps && decide (base < 2 ^ 32) &&
  (List.range 32).all fun i => ps.any (inPlace · i) || fixed.any fun r => decide (r.2 ≤ i) && decide (i ≤ r.1)

/-- The fields of a word with the fixed bits of a row make up that word again. -/
theorem enc_fields {base w : Nat} {ps fixed : List (Nat × Nat)} (hc : covers base ps fixed = true) (hw : w < 2 ^ 32)
    (hf : ∀ r ∈ fixed, fieldNat w r.1 r.2 = fieldNat base r.1 r.2) :
    enc base (ps.map fun p => place (field p.1 w p.2) p.2) = some w := by
  simp only [covers, Bool.and_eq_true, decide_eq_true_eq] at hc
  obtain ⟨⟨hl, hb⟩, hc⟩ := hc
  let slots : List Slot := ps.map fun p => ⟨field p.1 w p.2, p.2⟩
  have spots : slots.map Slot.spot = ps := by simp [slots, Function.comp_def, Slot.spot]
  have placed : slots.map Slot.placed = ps.map fun p => place (field p.1 w p.2) p.2 := by simp [slots, Slot.placed]
  obtain ⟨n, hn⟩ : ∃ n, enc base (slots.map Slot.placed) = some n := ⟨_, rfl⟩
  rw [← placed, hn, Option.some.injEq]
  apply Nat.eq_of_testBit_eq
  intro i
  have filled : (slots.any fun s => s.placed.testBit i) = (ps.any (inPlace · i) && w.testBit i) := by
    simp only [slots, List.any_map, Function.comp_def, Slot.placed, testBit_place_field]
    cases w.testBit i <;> simp
  rw [testBit_of_enc (by rwa [spots]) hn, filled]
  cases hin : ps.any (inPlace · i)
  · by_cases hi : i < 32
    · obtain ⟨r, hr, hlo, hhi⟩ : ∃ r ∈ fixed, r.2 ≤ i ∧ i ≤ r.1 := by
        have := List.all_eq_true.mp hc i (List.mem_range.mpr hi)
        simpa [hin] using this
      have same := congrArg (Nat.testBit · (i - r.2)) (hf r hr)
      simp only [testBit_fieldNat, Nat.add_sub_cancel' hlo, show i - r.2 < r.1 + 1 - r.2 by omega] at same
      simpa using same.symm
    · rw [Nat.testBit_lt_two_pow (hb.trans_le (Nat.pow_le_pow_right (by norm_num) (by omega))),
        Nat.testBit_lt_two_pow (hw.trans_le (Nat.pow_le_pow_right (by norm_num) (by omega)))]
      rfl
  · rw [testBit_eq_false_of_laid hl hin, Bool.false_or, Bool.true_and]

/-! ## Reading a row's word -/

/-- The row's word is one of 32 bits whose places do not overlap. -/
def fits (base : Nat) (ps : List (Nat × Nat)) : Bool :=
  laid base ps && decide (base < 2 ^ 32) && ps.all fun p => decide (p.2 + p.1 ≤ 32)

theorem lt_of_enc {slots : List Slot} {base n : Nat} (hf : fits base (slots.map Slot.spot) = true)
    (h : enc base (slots.map Slot.placed) = some n) : n < 2 ^ 32 := by
  simp only [fits, Bool.and_eq_true, decide_eq_true_eq] at hf
  obtain ⟨⟨hl, hb⟩, hp⟩ := hf
  apply Nat.lt_pow_two_of_testBit
  intro i hi
  rw [testBit_of_enc hl h, Nat.testBit_lt_two_pow (hb.trans_le (Nat.pow_le_pow_right (by norm_num) hi)), Bool.false_or,
    List.any_eq_false]
  intro s hs
  have : s.lo + s.width ≤ 32 := of_decide_eq_true (List.all_eq_true.mp hp s.spot (List.mem_map_of_mem hs))
  simp [Slot.placed, testBit_place_of_not_inPlace s.value (show inPlace (s.width, s.lo) i = false by simp [inPlace]; omega)]

/-- Apart from the places, a word holds the fixed bits of its row. -/
def Fixed (base n : Nat) (ps : List (Nat × Nat)) : Prop :=
  ∀ hi lo, apart ps hi lo = true → fieldNat n hi lo = fieldNat base hi lo

/-- The word of a row, read: of 32 bits, with the row's fields, and elsewhere with its fixed bits. -/
theorem read_of_enc (slots : List Slot) {base n : Nat} (h : enc base (slots.map Slot.placed) = some n)
    (hf : fits base (slots.map Slot.spot) = true) :
    n < 2 ^ 32 ∧ (∀ s ∈ slots, field s.width n s.lo = s.value) ∧ Fixed base n (slots.map Slot.spot) := by
  have hl : laid base (slots.map Slot.spot) = true := by
    simp only [fits, Bool.and_eq_true] at hf
    exact hf.1.1
  exact ⟨lt_of_enc hf h, field_of_enc hl h, fun _ _ ha => fieldNat_of_enc hl h ha⟩

section
variable {base n m₁ m₂ m₃ m₄ m₅ m₆ p₁ p₂ p₃ p₄ p₅ p₆ : Nat} {x₁ : BitVec m₁} {x₂ : BitVec m₂}
  {x₃ : BitVec m₃} {x₄ : BitVec m₄} {x₅ : BitVec m₅} {x₆ : BitVec m₆}

theorem read0 (h : enc base [] = some n) (hf : fits base [] = true) :
    n < 2 ^ 32 ∧ Fixed base n [] := by
  simpa [Slot.spot, and_assoc] using read_of_enc [] h hf
theorem read1 (h : enc base [place x₁ p₁] = some n) (hf : fits base [(m₁, p₁)] = true) :
    n < 2 ^ 32 ∧ field m₁ n p₁ = x₁ ∧ Fixed base n [(m₁, p₁)] := by
  simpa [Slot.spot, and_assoc] using read_of_enc [⟨x₁, p₁⟩] h hf
theorem read2 (h : enc base [place x₁ p₁, place x₂ p₂] = some n)
    (hf : fits base [(m₁, p₁), (m₂, p₂)] = true) :
    n < 2 ^ 32 ∧ field m₁ n p₁ = x₁ ∧ field m₂ n p₂ = x₂ ∧ Fixed base n [(m₁, p₁), (m₂, p₂)] := by
  simpa [Slot.spot, and_assoc] using read_of_enc [⟨x₁, p₁⟩, ⟨x₂, p₂⟩] h hf
theorem read3 (h : enc base [place x₁ p₁, place x₂ p₂, place x₃ p₃] = some n)
    (hf : fits base [(m₁, p₁), (m₂, p₂), (m₃, p₃)] = true) :
    n < 2 ^ 32 ∧ field m₁ n p₁ = x₁ ∧ field m₂ n p₂ = x₂ ∧ field m₃ n p₃ = x₃ ∧
      Fixed base n [(m₁, p₁), (m₂, p₂), (m₃, p₃)] := by
  simpa [Slot.spot, and_assoc] using read_of_enc [⟨x₁, p₁⟩, ⟨x₂, p₂⟩, ⟨x₃, p₃⟩] h hf
theorem read4 (h : enc base [place x₁ p₁, place x₂ p₂, place x₃ p₃, place x₄ p₄] = some n)
    (hf : fits base [(m₁, p₁), (m₂, p₂), (m₃, p₃), (m₄, p₄)] = true) :
    n < 2 ^ 32 ∧ field m₁ n p₁ = x₁ ∧ field m₂ n p₂ = x₂ ∧ field m₃ n p₃ = x₃ ∧ field m₄ n p₄ = x₄ ∧
      Fixed base n [(m₁, p₁), (m₂, p₂), (m₃, p₃), (m₄, p₄)] := by
  simpa [Slot.spot, and_assoc] using read_of_enc [⟨x₁, p₁⟩, ⟨x₂, p₂⟩, ⟨x₃, p₃⟩, ⟨x₄, p₄⟩] h hf
theorem read5 (h : enc base [place x₁ p₁, place x₂ p₂, place x₃ p₃, place x₄ p₄, place x₅ p₅] = some n)
    (hf : fits base [(m₁, p₁), (m₂, p₂), (m₃, p₃), (m₄, p₄), (m₅, p₅)] = true) :
    n < 2 ^ 32 ∧ field m₁ n p₁ = x₁ ∧ field m₂ n p₂ = x₂ ∧ field m₃ n p₃ = x₃ ∧ field m₄ n p₄ = x₄ ∧ field m₅ n p₅ = x₅ ∧
      Fixed base n [(m₁, p₁), (m₂, p₂), (m₃, p₃), (m₄, p₄), (m₅, p₅)] := by
  simpa [Slot.spot, and_assoc] using read_of_enc [⟨x₁, p₁⟩, ⟨x₂, p₂⟩, ⟨x₃, p₃⟩, ⟨x₄, p₄⟩, ⟨x₅, p₅⟩] h hf
theorem read6 (h : enc base [place x₁ p₁, place x₂ p₂, place x₃ p₃, place x₄ p₄, place x₅ p₅, place x₆ p₆] = some n)
    (hf : fits base [(m₁, p₁), (m₂, p₂), (m₃, p₃), (m₄, p₄), (m₅, p₅), (m₆, p₆)] = true) :
    n < 2 ^ 32 ∧ field m₁ n p₁ = x₁ ∧ field m₂ n p₂ = x₂ ∧ field m₃ n p₃ = x₃ ∧ field m₄ n p₄ = x₄ ∧
      field m₅ n p₅ = x₅ ∧ field m₆ n p₆ = x₆ ∧ Fixed base n [(m₁, p₁), (m₂, p₂), (m₃, p₃), (m₄, p₄), (m₅, p₅), (m₆, p₆)] := by
  simpa [Slot.spot, and_assoc] using read_of_enc [⟨x₁, p₁⟩, ⟨x₂, p₂⟩, ⟨x₃, p₃⟩, ⟨x₄, p₄⟩, ⟨x₅, p₅⟩, ⟨x₆, p₆⟩] h hf

end

/-- The checks that compare fixed bits hold of the word of a row. -/
theorem checks_ok {base n : Nat} {ps : List (Nat × Nat)} {cs : List FieldCheck} (rs : List (Nat × Nat)) (fx : Fixed base n ps)
    (ha : (rs.all fun r => apart ps r.1 r.2) = true)
    (hok : cs.map FieldCheck.ok = rs.map fun r => fieldNat n r.1 r.2 == fieldNat base r.1 r.2) : ∀ c ∈ cs, c.ok = true := by
  intro c hc
  have : c.ok ∈ rs.map fun r => fieldNat n r.1 r.2 == fieldNat base r.1 r.2 := hok ▸ List.mem_map_of_mem hc
  obtain ⟨r, hr, hrc⟩ := List.mem_map.mp this
  rw [← hrc, beq_iff_eq]
  exact fx r.1 r.2 (List.all_eq_true.mp ha r hr)

/-- A word spells an instruction: its tables select it, and their checks on the other bits hold. -/
def Spells (w : Nat) (i : Instr) : Prop := ∃ cs, parse w = some ⟨some i, cs⟩ ∧ ∀ c ∈ cs, c.ok = true

/-- A number that is written out is read by division. -/
theorem fieldNat_ofNat (b hi lo : Nat) :
    fieldNat (no_index (OfNat.ofNat b)) hi lo = (OfNat.ofNat b : Nat) / 2 ^ lo % 2 ^ (hi + 1 - lo) := rfl

/-! ## Decoded words are encoded (R79 to R87) -/

/-- A word's tables agree with the encoder: where its checks hold, the word is that of its instruction. -/
def EncodesTo (p : Parsed) (w : Nat) : Prop :=
  ∀ i, p.instr = some i → (∀ c ∈ p.checks, c.ok = true) → encodeNat i = some w

theorem encodesTo_unallocated (pos w : Nat) : EncodesTo (Parsed.unallocated pos) w := by
  rintro i ⟨⟩

/-- The checks that compare ranges of bits with a row's fixed bits say that the word has them there. -/
theorem fixed_of_checks {cs : List FieldCheck} {base w : Nat} {rs : List (Nat × Nat)} (ok : ∀ c ∈ cs, c.ok = true)
    (hok : cs.map FieldCheck.ok = rs.map fun r => fieldNat w r.1 r.2 == fieldNat base r.1 r.2) :
    ∀ r ∈ rs, fieldNat w r.1 r.2 = fieldNat base r.1 r.2 := by
  intro r hr
  obtain ⟨c, hc, hcr⟩ := List.mem_map.mp (hok ▸ List.mem_map_of_mem hr : (_ == _) ∈ cs.map FieldCheck.ok)
  exact beq_iff_eq.mp (hcr ▸ ok c hc)

/-- A row: the fields of the word and the ranges of its fixed bits make up the word. -/
theorem encodesTo_of_fixed {i : Instr} {cs : List FieldCheck} {base w : Nat} (ps rs : List (Nat × Nat)) (hw : w < 2 ^ 32)
    (hi : encodeNat i = enc base (ps.map fun p => place (field p.1 w p.2) p.2)) (hc : covers base ps rs = true)
    (hf : (∀ c ∈ cs, c.ok = true) → ∀ r ∈ rs, fieldNat w r.1 r.2 = fieldNat base r.1 r.2) : EncodesTo (Parsed.of i cs) w := by
  rintro _ ⟨⟩ ok
  rw [hi]
  exact enc_fields hc hw (hf ok)

/-- A row that fills a major. -/
theorem encodesTo_major {i : Instr} {cs : List FieldCheck} {base w : Nat} (ps rs : List (Nat × Nat)) (hw : w < 2 ^ 32)
    (he : encodeNat i = enc base (ps.map fun p => place (field p.1 w p.2) p.2)) (hm : fieldNat w 31 26 = fieldNat base 31 26)
    (hok : cs.map FieldCheck.ok = rs.map fun r => fieldNat w r.1 r.2 == fieldNat base r.1 r.2)
    (hc : covers base ps ((31, 26) :: rs) = true) : EncodesTo (Parsed.of i cs) w :=
  encodesTo_of_fixed ps _ hw he hc fun ok => List.forall_mem_cons.mpr ⟨hm, fixed_of_checks ok hok⟩

/-- A row whose fixed bits are the major, the code that selects it, and those that its checks compare. -/
theorem encodesTo_row {i : Instr} {cs : List FieldCheck} {base w hi lo : Nat} (ps rs : List (Nat × Nat)) (hw : w < 2 ^ 32)
    (he : encodeNat i = enc base (ps.map fun p => place (field p.1 w p.2) p.2)) (hm : fieldNat w 31 26 = fieldNat base 31 26)
    (hcode : fieldNat w hi lo = fieldNat base hi lo)
    (hok : cs.map FieldCheck.ok = rs.map fun r => fieldNat w r.1 r.2 == fieldNat base r.1 r.2)
    (hc : covers base ps ((31, 26) :: (hi, lo) :: rs) = true) : EncodesTo (Parsed.of i cs) w :=
  encodesTo_of_fixed ps _ hw he hc fun ok =>
    List.forall_mem_cons.mpr ⟨hm, List.forall_mem_cons.mpr ⟨hcode, fixed_of_checks ok hok⟩⟩

theorem fieldNat_bit_eq_one {w b : Nat} (h : ¬(fieldNat w b b == 0) = true) : fieldNat w b b = 1 := by
  rw [fieldNat, Nat.add_sub_cancel_left, beq_iff_eq, pow_one] at *
  omega

/-! ## Encoded words are read (R79 to R87) -/

/-- The word of an instruction is one of 32 bits, and spells it, or the row that the word alone names. -/
theorem spells_of_encodeNat {i : Instr} {n : Nat} (h : encodeNat i = some n) : n < 2 ^ 32 ∧ Spells n (Claim.spelled i) := by
  cases i with
  | sadd | ssub | smul | smulh | smulhu | sdiv | sdivu | srem | sremu | sand | sor | sxor | sandn | sshl | sshr | ssra |
  srol | smin | smax | sminu | smaxu | ssel | scmpEq | scmpNe | scmpLt | scmpLe | scmpLtu | scmpLeu | sadd64 | ssub64 |
  sshl64 | sshr64 =>
    obtain ⟨hn, rfl, rfl, rfl, fx⟩ := read3 h rfl
    rw [Spells, parse, fx 31 26 rfl, parseSalu, fx 7 0 rfl]
    exact ⟨hn, _, rfl, checks_ok [] fx rfl rfl⟩
  | sclz | sctz | spopc | sbrev | ssexb | ssexh | smov64 =>
    obtain ⟨hn, rfl, rfl, fx⟩ := read2 h rfl
    rw [Spells, parse, fx 31 26 rfl, parseSalu, fx 7 0 rfl]
    exact ⟨hn, _, rfl, checks_ok [(13, 8)] fx rfl rfl⟩
  | saddi | sandi | sori | sxori =>
    obtain ⟨hn, rfl, rfl, rfl, fx⟩ := read3 h rfl
    rw [Spells, parse, fx 31 26 rfl, parseSimm, fx 13 11 rfl]
    exact ⟨hn, _, rfl, checks_ok [] fx rfl rfl⟩
  | sshli | sshri | ssrai =>
    obtain ⟨hn, rfl, rfl, rfl, fx⟩ := read3 h rfl
    rw [Spells, parse, fx 31 26 rfl, parseSimm, fx 13 11 rfl]
    exact ⟨hn, _, rfl, checks_ok [(10, 5)] fx rfl rfl⟩
  | sli =>
    obtain ⟨hn, rfl, rfl, fx⟩ := read2 h rfl
    rw [Spells, parse, fx 31 26 rfl, parseSimm, fx 13 11 rfl]
    exact ⟨hn, _, rfl, checks_ok [(19, 14)] fx rfl rfl⟩
  | scmpiEq | scmpiNe | scmpiLt | scmpiLe | scmpiLtu | scmpiLeu | scmpiGt | scmpiGe =>
    obtain ⟨hn, rfl, rfl, rfl, fx⟩ := read3 h rfl
    rw [Spells, parse, fx 31 26 rfl, parseScmpi, fx 13 11 rfl]
    exact ⟨hn, _, rfl, checks_ok [] fx rfl rfl⟩
  | vadd | vsub | vmul | vmulh | vmulhu | vand | vor | vxor | vandn | vshl | vshr | vsra | vmin | vmax | vminu | vmaxu =>
    obtain ⟨hn, rfl, rfl, rfl, rfl, fx⟩ := read4 h rfl
    rw [Spells, parse, fx 31 26 rfl, parseVint1, fx 4 1 rfl]
    exact ⟨hn, _, rfl, checks_ok [] fx rfl rfl⟩
  | vadds | vsubs | vaddsu | vsubsu | vabsd | vpackb | vpackh | vlane =>
    obtain ⟨hn, rfl, rfl, rfl, rfl, fx⟩ := read4 h rfl
    rw [Spells, parse, fx 31 26 rfl, parseVint2, fx 4 1 rfl]
    exact ⟨hn, _, rfl, checks_ok [] fx rfl rfl⟩
  | vclz | vpopc | vbrev | vsexb | vsexh | vunpkb | vunpkh | vmov =>
    obtain ⟨hn, rfl, rfl, rfl, fx⟩ := read3 h rfl
    rw [Spells, parse, fx 31 26 rfl, parseVint2, fx 4 1 rfl]
    exact ⟨hn, _, rfl, checks_ok [(11, 5)] fx rfl rfl⟩
  | vaddi | vandi | vori | vxori =>
    obtain ⟨hn, rfl, rfl, rfl, fx⟩ := read3 h rfl
    rw [Spells, parse, fx 31 26 rfl]
    exact ⟨hn, _, rfl, checks_ok [] fx rfl rfl⟩
  | vshiShl | vshiShr | vshiSra | vshiRol =>
    obtain ⟨hn, rfl, rfl, rfl, fx⟩ := read3 h rfl
    rw [Spells, parse, fx 31 26 rfl, parseVshi, fx 11 10 rfl]
    exact ⟨hn, _, rfl, checks_ok [(9, 5)] fx rfl rfl⟩
  | vli =>
    obtain ⟨hn, rfl, rfl, fx⟩ := read2 h rfl
    rw [Spells, parse, fx 31 26 rfl]
    exact ⟨hn, _, rfl, checks_ok [] fx rfl rfl⟩
  | vcmpEq | vcmpNe | vcmpLt | vcmpLe | vcmpLtu | vcmpLeu | vcmpGt | vcmpGe | vcmpGtu | vcmpGeu =>
    obtain ⟨hn, rfl, rfl, rfl, rfl, fx⟩ := read4 h rfl
    rw [Spells, parse, fx 31 26 rfl, parseVcmp, fx 4 1 rfl]
    exact ⟨hn, _, rfl, checks_ok [] fx rfl rfl⟩
  | vmad | vaddmin | vaddminu | vaddmax | vsel | vdot4 | vdot4u | vbfi =>
    obtain ⟨hn, rfl, rfl, rfl, rfl, fx⟩ := read4 h rfl
    rw [Spells, parse, fx 31 26 rfl, parseVt, fx 4 1 rfl]
    exact ⟨hn, _, rfl, checks_ok [] fx rfl rfl⟩
  | fadd | fsub | fmul | fdiv | fmin | fmax | fminn | fmaxn | fcopysign =>
    obtain ⟨hn, rfl, rfl, rfl, rfl, fx⟩ := read4 h rfl
    rw [Spells, parse, fx 31 26 rfl, parseFalu, fx 4 1 rfl]
    exact ⟨hn, _, rfl, checks_ok [] fx rfl rfl⟩
  | fabs | fneg | ffloor | fceil | ftrunc | frint | fsqrt =>
    obtain ⟨hn, rfl, rfl, rfl, fx⟩ := read3 h rfl
    rw [Spells, parse, fx 31 26 rfl, parseFalu, fx 4 1 rfl]
    exact ⟨hn, _, rfl, checks_ok [(11, 5)] fx rfl rfl⟩
  | frcp | frsq | fexp2 | flog2 | fsin | fcos | ftanh | fsigm | fclass =>
    obtain ⟨hn, rfl, rfl, rfl, fx⟩ := read3 h rfl
    rw [Spells, parse, fx 31 26 rfl, parseFspec, fx 4 1 rfl]
    exact ⟨hn, _, rfl, checks_ok [(11, 5)] fx rfl rfl⟩
  | fma | fms | fnma | faddmin | faddmax =>
    obtain ⟨hn, rfl, rfl, rfl, rfl, fx⟩ := read4 h rfl
    rw [Spells, parse, fx 31 26 rfl, parseFt, fx 4 1 rfl]
    exact ⟨hn, _, rfl, checks_ok [] fx rfl rfl⟩
  | fcmpEq | fcmpNe | fcmpLt | fcmpLe | fcmpGt | fcmpGe | fcmpUn | fcmpOrd =>
    obtain ⟨hn, rfl, rfl, rfl, rfl, fx⟩ := read4 h rfl
    rw [Spells, parse, fx 31 26 rfl, parseFcmp, fx 4 1 rfl]
    exact ⟨hn, _, rfl, checks_ok [] fx rfl rfl⟩
  | fcvt =>
    obtain ⟨hn, rfl, rfl, rfl, rfl, rfl, rfl, fx⟩ := read6 h rfl
    rw [Spells, parse, fx 31 26 rfl, parseFcvt, fx 11 10 rfl]
    exact ⟨hn, _, rfl, checks_ok [] fx rfl rfl⟩
  | fcvti | icvtf =>
    obtain ⟨hn, rfl, rfl, rfl, rfl, rfl, fx⟩ := read5 h rfl
    rw [Spells, parse, fx 31 26 rfl, parseFcvt, fx 11 10 rfl]
    exact ⟨hn, _, rfl, checks_ok [(4, 4)] fx rfl rfl⟩
  | hadd2 | hsub2 | hmul2 | hfma2 | hmin2 | hmax2 | badd2 | bmul2 | bfma2 =>
    obtain ⟨hn, rfl, rfl, rfl, rfl, fx⟩ := read4 h rfl
    rw [Spells, parse, fx 31 26 rfl, parsePacked, fx 4 1 rfl]
    exact ⟨hn, _, rfl, checks_ok [] fx rfl rfl⟩
  | lshup | lshdn | lrot | lperm | lbcast | lquad | lmatch =>
    obtain ⟨hn, rfl, rfl, rfl, rfl, fx⟩ := read4 h rfl
    rw [Spells, parse, fx 31 26 rfl, parseLane, fx 4 1 rfl]
    exact ⟨hn, _, rfl, checks_ok [] fx rfl rfl⟩
  | derivx | derivy | derivxc | derivyc =>
    obtain ⟨hn, rfl, rfl, rfl, fx⟩ := read3 h rfl
    rw [Spells, parse, fx 31 26 rfl, parseLane, fx 4 1 rfl]
    exact ⟨hn, _, rfl, checks_ok [(11, 5)] fx rfl rfl⟩
  | lred =>
    obtain ⟨hn, rfl, rfl, rfl, rfl, fx⟩ := read4 h rfl
    rw [Spells, parse, fx 31 26 rfl, parseLane, fx 4 1 rfl]
    exact ⟨hn, _, rfl, checks_ok [(11, 9)] fx rfl rfl⟩
  | lscan =>
    obtain ⟨hn, rfl, rfl, rfl, rfl, rfl, fx⟩ := read5 h rfl
    rw [Spells, parse, fx 31 26 rfl, parseLane, fx 4 1 rfl]
    exact ⟨hn, _, rfl, checks_ok [(11, 10)] fx rfl rfl⟩
  | lvote =>
    obtain ⟨hn, rfl, rfl, rfl, rfl, fx⟩ := read4 h rfl
    rw [Spells, parse, fx 31 26 rfl, parseLane, fx 4 1 rfl]
    exact ⟨hn, _, rfl, checks_ok [(11, 7)] fx rfl rfl⟩
  | vbcast | mtov =>
    obtain ⟨hn, rfl, rfl, rfl, fx⟩ := read3 h rfl
    rw [Spells, parse, fx 31 26 rfl, parseMovx, fx 4 1 rfl]
    exact ⟨hn, _, rfl, checks_ok [(11, 5), (18, 18)] fx rfl rfl⟩
  | vextr =>
    obtain ⟨hn, rfl, rfl, rfl, fx⟩ := read3 h rfl
    rw [Spells, parse, fx 31 26 rfl, parseMovx, fx 4 1 rfl]
    exact ⟨hn, _, rfl, checks_ok [(0, 0), (25, 25), (11, 11)] fx rfl rfl⟩
  | vins =>
    obtain ⟨hn, rfl, rfl, rfl, rfl, fx⟩ := read4 h rfl
    rw [Spells, parse, fx 31 26 rfl, parseMovx, fx 4 1 rfl]
    exact ⟨hn, _, rfl, checks_ok [(18, 18), (11, 11)] fx rfl rfl⟩
  | mfromv =>
    obtain ⟨hn, rfl, rfl, fx⟩ := read2 h rfl
    rw [Spells, parse, fx 31 26 rfl, parseMovx, fx 4 1 rfl]
    exact ⟨hn, _, rfl, checks_ok [(0, 0), (11, 5), (25, 25)] fx rfl rfl⟩
  | mpopc | mffs =>
    obtain ⟨hn, rfl, rfl, fx⟩ := read2 h rfl
    rw [Spells, parse, fx 31 26 rfl, parseMovx, fx 4 1 rfl]
    exact ⟨hn, _, rfl, checks_ok [(0, 0), (11, 5), (25, 25), (18, 18)] fx rfl rfl⟩
  | mand | mor | mxor | mandn =>
    obtain ⟨hn, rfl, rfl, rfl, fx⟩ := read3 h rfl
    rw [Spells, parse, fx 31 26 rfl, parseMovx, fx 4 1 rfl]
    exact ⟨hn, _, rfl, checks_ok [(0, 0), (25, 25), (18, 18), (11, 11)] fx rfl rfl⟩
  | brZ | brNz | brLtz | brGez | brGtz | brLez =>
    obtain ⟨hn, rfl, rfl, fx⟩ := read2 h rfl
    rw [Spells, parse, fx 31 26 rfl, parseBr, fx 25 22 rfl]
    exact ⟨hn, _, rfl, checks_ok [] fx rfl rfl⟩
  | brmAny | brmNone | brmAll =>
    obtain ⟨hn, rfl, rfl, fx⟩ := read2 h rfl
    rw [Spells, parse, fx 31 26 rfl, parseBrm, fx 25 22 rfl]
    exact ⟨hn, _, rfl, checks_ok [] fx rfl rfl⟩
  | jmp | call =>
    obtain ⟨hn, rfl, fx⟩ := read1 h rfl
    rw [Spells, parse, fx 31 26 rfl]
    exact ⟨hn, _, rfl, checks_ok [] fx rfl rfl⟩
  | divb =>
    obtain ⟨hn, rfl, rfl, rfl, fx⟩ := read3 h rfl
    rw [Spells, parse, fx 31 26 rfl]
    exact ⟨hn, _, rfl, checks_ok [] fx rfl rfl⟩
  | join =>
    obtain ⟨hn, fx⟩ := read0 h rfl
    rw [Spells, parse, fx 31 26 rfl]
    exact ⟨hn, _, rfl, checks_ok [(25, 0)] fx rfl rfl⟩
  | jmpr | callr | ret =>
    obtain ⟨hn, rfl, fx⟩ := read1 h rfl
    rw [Spells, parse, fx 31 26 rfl, parseJump, fx 25 22 rfl]
    exact ⟨hn, _, rfl, checks_ok [(15, 0)] fx rfl rfl⟩
  | nop | eret =>
    obtain ⟨hn, fx⟩ := read0 h rfl
    rw [Spells, parse, fx 31 26 rfl, parseMisc, fx 25 22 rfl]
    exact ⟨hn, _, rfl, checks_ok [(21, 0)] fx rfl rfl⟩
  | trap =>
    obtain ⟨hn, rfl, fx⟩ := read1 h rfl
    rw [Spells, parse, fx 31 26 rfl, parseMisc, fx 25 22 rfl]
    exact ⟨hn, _, rfl, checks_ok [(21, 12)] fx rfl rfl⟩
  | ld | st =>
    obtain ⟨hn, rfl, rfl, rfl, rfl, rfl, rfl, fx⟩ := read6 h rfl
    rw [Spells, parse, fx 31 26 rfl]
    exact ⟨hn, _, rfl, checks_ok [] fx rfl rfl⟩
  | ldx | stx =>
    obtain ⟨hn, rfl, rfl, rfl, rfl, rfl, fx⟩ := read5 h rfl
    rw [Spells, parse, fx 31 26 rfl]
    exact ⟨hn, _, rfl, checks_ok [(0, 0)] fx rfl rfl⟩
  | lds =>
    obtain ⟨hn, rfl, rfl, rfl, rfl, rfl, fx⟩ := read5 h rfl
    rw [Spells, parse, fx 31 26 rfl, parseLds]
    exact ⟨hn, _, rfl, checks_ok [(13, 13)] fx rfl rfl⟩
  | sts =>
    obtain ⟨hn, rfl, rfl, rfl, rfl, rfl, fx⟩ := read5 h rfl
    rw [Spells, parse, fx 31 26 rfl, parseSts]
    exact ⟨hn, _, rfl, checks_ok [(13, 13)] fx rfl rfl⟩
  | texl | texb =>
    obtain ⟨hn, rfl, rfl, rfl, fx⟩ := read3 h rfl
    rw [Spells, parse, fx 31 26 rfl, parseTex, fx 25 22 rfl]
    exact ⟨hn, _, rfl, checks_ok [(1, 0)] fx rfl rfl⟩
  | fence | fenceRel | fenceAcq =>
    obtain ⟨hn, fx⟩ := read0 h rfl
    rw [Spells, parse, fx 31 26 rfl, parseMemctl, fx 25 22 rfl, parseFence, fx 21 20 rfl]
    exact ⟨hn, _, rfl, checks_ok [(19, 0)] fx rfl rfl⟩
  | xfence =>
    obtain ⟨hn, fx⟩ := read0 h rfl
    rw [Spells, parse, fx 31 26 rfl, parseMemctl, fx 25 22 rfl]
    exact ⟨hn, _, rfl, checks_ok [(21, 0)] fx rfl rfl⟩
  | cinv =>
    obtain ⟨hn, rfl, rfl, fx⟩ := read2 h rfl
    rw [Spells, parse, fx 31 26 rfl, parseMemctl, fx 25 22 rfl]
    exact ⟨hn, _, rfl, checks_ok [(9, 0)] fx rfl rfl⟩
  | cpref =>
    obtain ⟨hn, rfl, rfl, rfl, fx⟩ := read3 h rfl
    rw [Spells, parse, fx 31 26 rfl, parseMemctl, fx 25 22 rfl]
    exact ⟨hn, _, rfl, checks_ok [(7, 0)] fx rfl rfl⟩
  | spill | fill =>
    obtain ⟨hn, rfl, rfl, rfl, fx⟩ := read3 h rfl
    rw [Spells, parse, fx 31 26 rfl, parseMemctl, fx 25 22 rfl]
    exact ⟨hn, _, rfl, checks_ok [(5, 0)] fx rfl rfl⟩
  | atomAdd | atomSub | atomAnd | atomOr | atomXor | atomMin | atomMax | atomMinu | atomMaxu | atomXchg | atomCas |
  atomIncb | atomIncw | atomDecz | atomFaddl | atomFadd | atomFaddr | atomAdd64 | atomMax64 =>
    obtain ⟨hn, rfl, rfl, rfl, rfl, fx⟩ := read4 h rfl
    rw [Spells, parse, fx 31 26 rfl, parseAtom, fx 5 1 rfl]
    exact ⟨hn, _, rfl, checks_ok [] fx rfl rfl⟩
  | atomFaddd =>
    obtain ⟨hn, rfl, rfl, rfl, fx⟩ := read3 h rfl
    rw [Spells, parse, fx 31 26 rfl, parseAtom, fx 5 1 rfl]
    exact ⟨hn, _, rfl, checks_ok [(0, 0)] fx rfl rfl⟩
  | mma =>
    obtain ⟨hn, rfl, rfl, rfl, rfl, rfl, rfl, fx⟩ := read6 h rfl
    rw [Spells, parse, fx 31 26 rfl, parseMtx, fx 25 22 rfl]
    exact ⟨hn, _, rfl, checks_ok [] fx rfl rfl⟩
  | mmabp =>
    obtain ⟨hn, rfl, rfl, rfl, rfl, rfl, fx⟩ := read5 h rfl
    rw [Spells, parse, fx 31 26 rfl, parseMtx, fx 25 22 rfl]
    exact ⟨hn, _, rfl, by simp [fixed, fx 18 16 rfl, fieldNat_ofNat]⟩
  | mzero =>
    obtain ⟨hn, rfl, fx⟩ := read1 h rfl
    rw [Spells, parse, fx 31 26 rfl, parseMtx, fx 25 22 rfl]
    exact ⟨hn, _, rfl, checks_ok [(18, 16), (15, 13), (12, 7), (6, 1), (0, 0)] fx rfl rfl⟩
  | mrd | mwr =>
    obtain ⟨hn, rfl, rfl, rfl, fx⟩ := read3 h rfl
    rw [Spells, parse, fx 31 26 rfl, parseMtx, fx 25 22 rfl]
    exact ⟨hn, _, rfl, checks_ok [(18, 16), (15, 13), (0, 0)] fx rfl rfl⟩
  | mcvst =>
    obtain ⟨hn, rfl, rfl, rfl, rfl, rfl, fx⟩ := read5 h rfl
    rw [Spells, parse, fx 31 26 rfl, parseMtx, fx 25 22 rfl]
    exact ⟨hn, _, rfl, checks_ok [(6, 1)] fx rfl rfl⟩
  | lcp =>
    obtain ⟨hn, rfl, rfl, rfl, rfl, fx⟩ := read4 h rfl
    rw [Spells, parse, fx 31 26 rfl, parseCopy, fx 25 22 rfl]
    exact ⟨hn, _, rfl, checks_ok [(0, 0)] fx rfl rfl⟩
  | tcopy | tcopyx =>
    obtain ⟨hn, rfl, fx⟩ := read1 h rfl
    rw [Spells, parse, fx 31 26 rfl, parseCopy, fx 25 22 rfl]
    exact ⟨hn, _, rfl, checks_ok [(15, 0)] fx rfl rfl⟩
  | shapew =>
    obtain ⟨hn, rfl, rfl, rfl, fx⟩ := read3 h rfl
    rw [Spells, parse, fx 31 26 rfl, parseCopy, fx 25 22 rfl]
    exact ⟨hn, _, rfl, checks_ok [(3, 0)] fx rfl rfl⟩
  | shaperel =>
    obtain ⟨hn, rfl, fx⟩ := read1 h rfl
    rw [Spells, parse, fx 31 26 rfl, parseCopy, fx 25 22 rfl]
    exact ⟨hn, _, rfl, checks_ok [(21, 16), (9, 0)] fx rfl rfl⟩
  | waitc =>
    obtain ⟨hn, rfl, rfl, fx⟩ := read2 h rfl
    rw [Spells, parse, fx 31 26 rfl, parseCopy, fx 25 22 rfl]
    exact ⟨hn, _, rfl, checks_ok [(11, 0)] fx rfl rfl⟩
  | cntr =>
    obtain ⟨hn, rfl, rfl, rfl, fx⟩ := read3 h rfl
    rw [Spells, parse, fx 31 26 rfl, parseCopy, fx 25 22 rfl]
    exact ⟨hn, _, rfl, checks_ok [(5, 0)] fx rfl rfl⟩
  | vfpush | vfpop =>
    obtain ⟨hn, rfl, fx⟩ := read1 h rfl
    rw [Spells, parse, fx 31 26 rfl, parseVfifo, fx 25 22 rfl]
    exact ⟨hn, _, rfl, checks_ok [(14, 0)] fx rfl rfl⟩
  | bara | baraEnr =>
    obtain ⟨hn, rfl, rfl, fx⟩ := read2 h rfl
    rw [Spells, parse, fx 31 26 rfl, parseSync, fx 25 22 rfl, fx 9 9 rfl]
    exact ⟨hn, _, rfl, checks_ok [(8, 0)] fx rfl rfl⟩
  | barw | barx | barinit =>
    obtain ⟨hn, rfl, rfl, fx⟩ := read2 h rfl
    rw [Spells, parse, fx 31 26 rfl, parseSync, fx 25 22 rfl]
    exact ⟨hn, _, rfl, checks_ok [(9, 0)] fx rfl rfl⟩
  | baraw =>
    obtain ⟨hn, rfl, fx⟩ := read1 h rfl
    rw [Spells, parse, fx 31 26 rfl, parseSync, fx 25 22 rfl]
    exact ⟨hn, _, rfl, checks_ok [(21, 16), (9, 0)] fx rfl rfl⟩
  | spawn =>
    obtain ⟨hn, rfl, rfl, rfl, fx⟩ := read3 h rfl
    rw [Spells, parse, fx 31 26 rfl, parseTask, fx 25 22 rfl]
    exact ⟨hn, _, rfl, checks_ok [(2, 0)] fx rfl rfl⟩
  | spawnv =>
    obtain ⟨hn, rfl, rfl, fx⟩ := read2 h rfl
    rw [Spells, parse, fx 31 26 rfl, parseTask, fx 25 22 rfl]
    exact ⟨hn, _, rfl, checks_ok [(8, 0)] fx rfl rfl⟩
  | spawnr =>
    obtain ⟨hn, rfl, rfl, rfl, fx⟩ := read3 h rfl
    rw [Spells, parse, fx 31 26 rfl, parseTask, fx 25 22 rfl]
    exact ⟨hn, _, rfl, checks_ok [(3, 0)] fx rfl rfl⟩
  | claim | give =>
    obtain ⟨hn, rfl, rfl, rfl, fx⟩ := read3 h rfl
    rw [Spells, parse, fx 31 26 rfl, parseTask, fx 25 22 rfl]
    exact ⟨hn, _, rfl, checks_ok [(8, 0)] fx rfl rfl⟩
  | exit =>
    obtain ⟨hn, fx⟩ := read0 h rfl
    rw [Spells, parse, fx 31 26 rfl, parseTask, fx 25 22 rfl]
    exact ⟨hn, _, rfl, checks_ok [(21, 0)] fx rfl rfl⟩
  | scopen =>
    obtain ⟨hn, rfl, rfl, rfl, fx⟩ := read3 h rfl
    rw [Spells, parse, fx 31 26 rfl, parseScope, fx 25 22 rfl]
    exact ⟨hn, _, rfl, checks_ok [(3, 0)] fx rfl rfl⟩
  | scopcl | cancel =>
    obtain ⟨hn, rfl, fx⟩ := read1 h rfl
    rw [Spells, parse, fx 31 26 rfl, parseScope, fx 25 22 rfl]
    exact ⟨hn, _, rfl, checks_ok [(21, 16), (9, 0)] fx rfl rfl⟩
  | scpst | scpstW =>
    obtain ⟨hn, rfl, rfl, fx⟩ := read2 h rfl
    rw [Spells, parse, fx 31 26 rfl, parseScope, fx 25 22 rfl, fx 9 9 rfl]
    exact ⟨hn, _, rfl, checks_ok [(8, 0)] fx rfl rfl⟩
  | pbegin | psegl | psegq | pclip | pscan =>
    obtain ⟨hn, rfl, fx⟩ := read1 h rfl
    rw [Spells, parse, fx 31 26 rfl, parsePath, fx 25 22 rfl]
    exact ⟨hn, _, rfl, checks_ok [(15, 0)] fx rfl rfl⟩
  | pview | punclip =>
    obtain ⟨hn, rfl, rfl, fx⟩ := read2 h rfl
    rw [Spells, parse, fx 31 26 rfl, parsePath, fx 25 22 rfl]
    exact ⟨hn, _, rfl, checks_ok [(9, 0)] fx rfl rfl⟩
  | pend =>
    obtain ⟨hn, fx⟩ := read0 h rfl
    rw [Spells, parse, fx 31 26 rfl, parsePath, fx 25 22 rfl]
    exact ⟨hn, _, rfl, checks_ok [(21, 0)] fx rfl rfl⟩
  | pcell =>
    obtain ⟨hn, rfl, rfl, rfl, fx⟩ := read3 h rfl
    rw [Spells, parse, fx 31 26 rfl, parsePath, fx 25 22 rfl]
    exact ⟨hn, _, rfl, checks_ok [(2, 0)] fx rfl rfl⟩
  | pblend =>
    obtain ⟨hn, rfl, fx⟩ := read1 h rfl
    rw [Spells, parse, fx 31 26 rfl, parsePath, fx 25 22 rfl]
    exact ⟨hn, _, rfl, checks_ok [(14, 0)] fx rfl rfl⟩
  | msend | rput | rget | collAllReduce | collAllGather | collReduceScatter | collBroadcast =>
    obtain ⟨hn, rfl, fx⟩ := read1 h rfl
    rw [Spells, parse, fx 31 26 rfl, parseFab, fx 25 22 rfl]
    exact ⟨hn, _, rfl, checks_ok [(15, 0)] fx rfl rfl⟩
  | marm | mdisarm =>
    obtain ⟨hn, rfl, rfl, fx⟩ := read2 h rfl
    rw [Spells, parse, fx 31 26 rfl, parseFab, fx 25 22 rfl]
    exact ⟨hn, _, rfl, checks_ok [(9, 0)] fx rfl rfl⟩
  | gets | sets =>
    obtain ⟨hn, rfl, rfl, fx⟩ := read2 h rfl
    rw [Spells, parse, fx 31 26 rfl, parseSys, fx 25 22 rfl]
    exact ⟨hn, _, rfl, checks_ok [(3, 0)] fx rfl rfl⟩
  | tlbinv =>
    obtain ⟨hn, rfl, fx⟩ := read1 h rfl
    rw [Spells, parse, fx 31 26 rfl, parseSys, fx 25 22 rfl, parseTlbinv, fx 15 14 rfl]
    exact ⟨hn, _, rfl, checks_ok [(13, 0)] fx rfl rfl⟩
  | tlbinvAll =>
    obtain ⟨hn, fx⟩ := read0 h rfl
    rw [Spells, parse, fx 31 26 rfl, parseSys, fx 25 22 rfl, parseTlbinv, fx 15 14 rfl]
    exact ⟨hn, _, rfl, checks_ok [(21, 16), (13, 0)] fx rfl rfl⟩
  | ctxsv | ctxrs =>
    obtain ⟨hn, fx⟩ := read0 h rfl
    rw [Spells, parse, fx 31 26 rfl, parseSys, fx 25 22 rfl]
    exact ⟨hn, _, rfl, checks_ok [(21, 0)] fx rfl rfl⟩
  | smcAssignCluster | smcReleaseCluster | smcResetPartition | smcSetRoot | smcSetRegulator | smcSetScopeShare | smcAttest
  | smcRetireUnit | pwrqGate | pwrqPower =>
    obtain ⟨hn, rfl, rfl, fx⟩ := read2 h rfl
    rw [Spells, parse, fx 31 26 rfl, parseSys, fx 25 22 rfl]
    exact ⟨hn, _, rfl, checks_ok [(9, 0)] fx rfl rfl⟩
  | endRun =>
    obtain ⟨hn, rfl, rfl, rfl, fx⟩ := read3 h rfl
    rw [Spells, parse, fx 31 26 rfl]
    exact ⟨hn, _, rfl, checks_ok [(4, 0)] fx rfl rfl⟩
  | yield =>
    obtain ⟨hn, rfl, rfl, fx⟩ := read2 h rfl
    rw [Spells, parse, fx 31 26 rfl]
    exact ⟨hn, _, rfl, checks_ok [(10, 0)] fx rfl rfl⟩
  | _ => cases h

/-! ## Decoded words are encoded, major by major -/

theorem parseSalu_encodesTo {w : Nat} (hw : w < 2 ^ 32) (hm : fieldNat w 31 26 = 1) : EncodesTo (parseSalu w) w := by
  unfold parseSalu
  split
  case h_1 | h_2 | h_3 | h_4 | h_5 | h_6 | h_7 | h_8 | h_9 | h_10 | h_11 | h_12 | h_13 | h_14 | h_15 | h_16 | h_17 | h_18 |
    h_19 | h_20 | h_21 | h_28 | h_29 | h_30 | h_31 | h_32 | h_33 | h_34 | h_35 | h_36 | h_37 | h_38 =>
    exact encodesTo_row [(6, 20), (6, 14), (6, 8)] [] hw rfl hm ‹fieldNat w 7 0 = _› rfl rfl
  case h_22 | h_23 | h_24 | h_25 | h_26 | h_27 | h_39 =>
    exact encodesTo_row [(6, 20), (6, 14)] [(13, 8)] hw rfl hm ‹fieldNat w 7 0 = _› rfl rfl
  case h_40 => exact encodesTo_unallocated _ _

theorem parseSimm_encodesTo {w : Nat} (hw : w < 2 ^ 32) (hm : fieldNat w 31 26 = 2) : EncodesTo (parseSimm w) w := by
  unfold parseSimm
  split
  case h_1 | h_2 | h_3 | h_4 =>
    exact encodesTo_row [(6, 20), (6, 14), (11, 0)] [] hw rfl hm ‹fieldNat w 13 11 = _› rfl rfl
  case h_5 | h_6 | h_7 =>
    exact encodesTo_row [(6, 20), (6, 14), (5, 0)] [(10, 5)] hw rfl hm ‹fieldNat w 13 11 = _› rfl rfl
  case h_8 => exact encodesTo_row [(6, 20), (11, 0)] [(19, 14)] hw rfl hm ‹fieldNat w 13 11 = _› rfl rfl
  case h_9 => exact encodesTo_unallocated _ _

theorem parseScmpi_encodesTo {w : Nat} (hw : w < 2 ^ 32) (hm : fieldNat w 31 26 = 3) : EncodesTo (parseScmpi w) w := by
  unfold parseScmpi
  split
  case h_1 | h_2 | h_3 | h_4 | h_5 | h_6 | h_7 | h_8 =>
    exact encodesTo_row [(6, 20), (6, 14), (11, 0)] [] hw rfl hm ‹fieldNat w 13 11 = _› rfl rfl
  case h_9 => exact encodesTo_unallocated _ _

theorem parseVint1_encodesTo {w : Nat} (hw : w < 2 ^ 32) (hm : fieldNat w 31 26 = 8) : EncodesTo (parseVint1 w) w := by
  unfold parseVint1
  split
  case h_1 | h_2 | h_3 | h_4 | h_5 | h_6 | h_7 | h_8 | h_9 | h_10 | h_11 | h_12 | h_13 | h_14 | h_15 | h_16 =>
    exact encodesTo_row [(7, 19), (7, 12), (7, 5), (1, 0)] [] hw rfl hm ‹fieldNat w 4 1 = _› rfl rfl
  case h_17 => exact encodesTo_unallocated _ _

theorem parseVint2_encodesTo {w : Nat} (hw : w < 2 ^ 32) (hm : fieldNat w 31 26 = 9) : EncodesTo (parseVint2 w) w := by
  unfold parseVint2
  split
  case h_1 | h_2 | h_3 | h_4 | h_5 | h_11 | h_12 | h_16 =>
    exact encodesTo_row [(7, 19), (7, 12), (7, 5), (1, 0)] [] hw rfl hm ‹fieldNat w 4 1 = _› rfl rfl
  case h_6 | h_7 | h_8 | h_9 | h_10 | h_13 | h_14 | h_15 =>
    exact encodesTo_row [(7, 19), (7, 12), (1, 0)] [(11, 5)] hw rfl hm ‹fieldNat w 4 1 = _› rfl rfl
  case h_17 => exact encodesTo_unallocated _ _

theorem parseVshi_encodesTo {w : Nat} (hw : w < 2 ^ 32) (hm : fieldNat w 31 26 = 14) : EncodesTo (parseVshi w) w := by
  unfold parseVshi
  split
  case h_1 | h_2 | h_3 | h_4 =>
    exact encodesTo_row [(7, 19), (7, 12), (5, 0)] [(9, 5)] hw rfl hm ‹fieldNat w 11 10 = _› rfl rfl
  case h_5 => exact encodesTo_unallocated _ _

theorem parseVcmp_encodesTo {w : Nat} (hw : w < 2 ^ 32) (hm : fieldNat w 31 26 = 16) : EncodesTo (parseVcmp w) w := by
  unfold parseVcmp
  split
  case h_1 | h_2 | h_3 | h_4 | h_5 | h_6 | h_7 | h_8 | h_9 | h_10 =>
    exact encodesTo_row [(7, 19), (7, 12), (7, 5), (1, 0)] [] hw rfl hm ‹fieldNat w 4 1 = _› rfl rfl
  case h_11 => exact encodesTo_unallocated _ _

theorem parseVt_encodesTo {w : Nat} (hw : w < 2 ^ 32) (hm : fieldNat w 31 26 = 17) : EncodesTo (parseVt w) w := by
  unfold parseVt
  split
  case h_1 | h_2 | h_3 | h_4 | h_5 | h_6 | h_7 | h_8 =>
    exact encodesTo_row [(7, 19), (7, 12), (7, 5), (1, 0)] [] hw rfl hm ‹fieldNat w 4 1 = _› rfl rfl
  case h_9 => exact encodesTo_unallocated _ _

theorem parseFalu_encodesTo {w : Nat} (hw : w < 2 ^ 32) (hm : fieldNat w 31 26 = 18) : EncodesTo (parseFalu w) w := by
  unfold parseFalu
  split
  case h_1 | h_2 | h_3 | h_4 | h_5 | h_6 | h_7 | h_8 | h_9 =>
    exact encodesTo_row [(7, 19), (7, 12), (7, 5), (1, 0)] [] hw rfl hm ‹fieldNat w 4 1 = _› rfl rfl
  case h_10 | h_11 | h_12 | h_13 | h_14 | h_15 | h_16 =>
    exact encodesTo_row [(7, 19), (7, 12), (1, 0)] [(11, 5)] hw rfl hm ‹fieldNat w 4 1 = _› rfl rfl
  case h_17 => exact encodesTo_unallocated _ _

theorem parseFspec_encodesTo {w : Nat} (hw : w < 2 ^ 32) (hm : fieldNat w 31 26 = 19) : EncodesTo (parseFspec w) w := by
  unfold parseFspec
  split
  case h_1 | h_2 | h_3 | h_4 | h_5 | h_6 | h_7 | h_8 | h_9 =>
    exact encodesTo_row [(7, 19), (7, 12), (1, 0)] [(11, 5)] hw rfl hm ‹fieldNat w 4 1 = _› rfl rfl
  case h_10 => exact encodesTo_unallocated _ _

theorem parseFt_encodesTo {w : Nat} (hw : w < 2 ^ 32) (hm : fieldNat w 31 26 = 20) : EncodesTo (parseFt w) w := by
  unfold parseFt
  split
  case h_1 | h_2 | h_3 | h_4 | h_5 =>
    exact encodesTo_row [(7, 19), (7, 12), (7, 5), (1, 0)] [] hw rfl hm ‹fieldNat w 4 1 = _› rfl rfl
  case h_6 => exact encodesTo_unallocated _ _

theorem parseFcmp_encodesTo {w : Nat} (hw : w < 2 ^ 32) (hm : fieldNat w 31 26 = 21) : EncodesTo (parseFcmp w) w := by
  unfold parseFcmp
  split
  case h_1 | h_2 | h_3 | h_4 | h_5 | h_6 | h_7 | h_8 =>
    exact encodesTo_row [(7, 19), (7, 12), (7, 5), (1, 0)] [] hw rfl hm ‹fieldNat w 4 1 = _› rfl rfl
  case h_9 => exact encodesTo_unallocated _ _

theorem parseFcvt_encodesTo {w : Nat} (hw : w < 2 ^ 32) (hm : fieldNat w 31 26 = 22) : EncodesTo (parseFcvt w) w := by
  unfold parseFcvt
  split
  case h_1 =>
    exact encodesTo_row [(7, 19), (7, 12), (5, 5), (1, 4), (3, 1), (1, 0)] [] hw rfl hm ‹fieldNat w 11 10 = _› rfl rfl
  case h_2 | h_3 =>
    exact encodesTo_row [(7, 19), (7, 12), (5, 5), (3, 1), (1, 0)] [(4, 4)] hw rfl hm ‹fieldNat w 11 10 = _› rfl rfl
  case h_4 => exact encodesTo_unallocated _ _

theorem parsePacked_encodesTo {w : Nat} (hw : w < 2 ^ 32) (hm : fieldNat w 31 26 = 24) : EncodesTo (parsePacked w) w := by
  unfold parsePacked
  split
  case h_1 | h_2 | h_3 | h_4 | h_5 | h_6 | h_7 | h_8 | h_9 =>
    exact encodesTo_row [(7, 19), (7, 12), (7, 5), (1, 0)] [] hw rfl hm ‹fieldNat w 4 1 = _› rfl rfl
  case h_10 => exact encodesTo_unallocated _ _

theorem parseLane_encodesTo {w : Nat} (hw : w < 2 ^ 32) (hm : fieldNat w 31 26 = 25) : EncodesTo (parseLane w) w := by
  unfold parseLane
  split
  case h_1 | h_2 | h_3 | h_4 | h_5 | h_6 | h_11 =>
    exact encodesTo_row [(7, 19), (7, 12), (7, 5), (1, 0)] [] hw rfl hm ‹fieldNat w 4 1 = _› rfl rfl
  case h_7 | h_8 | h_9 | h_10 =>
    exact encodesTo_row [(7, 19), (7, 12), (1, 0)] [(11, 5)] hw rfl hm ‹fieldNat w 4 1 = _› rfl rfl
  case h_12 =>
    exact encodesTo_row [(7, 19), (7, 12), (4, 5), (1, 0)] [(11, 9)] hw rfl hm ‹fieldNat w 4 1 = _› rfl rfl
  case h_13 =>
    exact encodesTo_row [(7, 19), (7, 12), (1, 9), (4, 5), (1, 0)] [(11, 10)] hw rfl hm ‹fieldNat w 4 1 = _› rfl rfl
  case h_14 =>
    exact encodesTo_row [(7, 19), (7, 12), (2, 5), (1, 0)] [(11, 7)] hw rfl hm ‹fieldNat w 4 1 = _› rfl rfl
  case h_15 => exact encodesTo_unallocated _ _

theorem parseMovx_encodesTo {w : Nat} (hw : w < 2 ^ 32) (hm : fieldNat w 31 26 = 26) : EncodesTo (parseMovx w) w := by
  unfold parseMovx
  split
  case h_1 | h_5 =>
    exact encodesTo_row [(7, 19), (6, 12), (1, 0)] [(11, 5), (18, 18)] hw rfl hm ‹fieldNat w 4 1 = _› rfl rfl
  case h_2 =>
    exact encodesTo_row [(6, 19), (7, 12), (6, 5)] [(0, 0), (25, 25), (11, 11)] hw rfl hm ‹fieldNat w 4 1 = _› rfl rfl
  case h_3 =>
    exact encodesTo_row [(7, 19), (6, 12), (6, 5), (1, 0)] [(18, 18), (11, 11)] hw rfl hm ‹fieldNat w 4 1 = _› rfl rfl
  case h_4 =>
    exact encodesTo_row [(6, 19), (7, 12)] [(0, 0), (11, 5), (25, 25)] hw rfl hm ‹fieldNat w 4 1 = _› rfl rfl
  case h_6 | h_7 =>
    exact encodesTo_row [(6, 19), (6, 12)] [(0, 0), (11, 5), (25, 25), (18, 18)] hw rfl hm ‹fieldNat w 4 1 = _› rfl rfl
  case h_8 | h_9 | h_10 | h_11 =>
    exact encodesTo_row [(6, 19), (6, 12), (6, 5)] [(0, 0), (25, 25), (18, 18), (11, 11)] hw rfl hm ‹fieldNat w 4 1 = _› rfl rfl
  case h_12 => exact encodesTo_unallocated _ _

theorem parseBr_encodesTo {w : Nat} (hw : w < 2 ^ 32) (hm : fieldNat w 31 26 = 32) : EncodesTo (parseBr w) w := by
  unfold parseBr
  split
  case h_1 | h_2 | h_3 | h_4 | h_5 | h_6 =>
    exact encodesTo_row [(6, 16), (16, 0)] [] hw rfl hm ‹fieldNat w 25 22 = _› rfl rfl
  case h_7 => exact encodesTo_unallocated _ _

theorem parseBrm_encodesTo {w : Nat} (hw : w < 2 ^ 32) (hm : fieldNat w 31 26 = 33) : EncodesTo (parseBrm w) w := by
  unfold parseBrm
  split
  case h_1 | h_2 | h_3 => exact encodesTo_row [(6, 16), (16, 0)] [] hw rfl hm ‹fieldNat w 25 22 = _› rfl rfl
  case h_4 => exact encodesTo_unallocated _ _

theorem parseJump_encodesTo {w : Nat} (hw : w < 2 ^ 32) (hm : fieldNat w 31 26 = 38) : EncodesTo (parseJump w) w := by
  unfold parseJump
  split
  case h_1 | h_2 | h_3 => exact encodesTo_row [(6, 16)] [(15, 0)] hw rfl hm ‹fieldNat w 25 22 = _› rfl rfl
  case h_4 => exact encodesTo_unallocated _ _

theorem parseMisc_encodesTo {w : Nat} (hw : w < 2 ^ 32) (hm : fieldNat w 31 26 = 39) : EncodesTo (parseMisc w) w := by
  unfold parseMisc
  split
  case h_1 | h_3 => exact encodesTo_row [] [(21, 0)] hw rfl hm ‹fieldNat w 25 22 = _› rfl rfl
  case h_2 => exact encodesTo_row [(12, 0)] [(21, 12)] hw rfl hm ‹fieldNat w 25 22 = _› rfl rfl
  case h_4 => exact encodesTo_unallocated _ _

theorem parseLds_encodesTo {w : Nat} (hw : w < 2 ^ 32) (hm : fieldNat w 31 26 = 44) : EncodesTo (parseLds w) w := by
  unfold parseLds
  exact encodesTo_major [(6, 20), (6, 14), (1, 12), (1, 11), (11, 0)] [(13, 13)] hw rfl hm rfl rfl

theorem parseSts_encodesTo {w : Nat} (hw : w < 2 ^ 32) (hm : fieldNat w 31 26 = 45) : EncodesTo (parseSts w) w := by
  unfold parseSts
  exact encodesTo_major [(6, 20), (6, 14), (1, 12), (1, 11), (11, 0)] [(13, 13)] hw rfl hm rfl rfl

theorem parseTex_encodesTo {w : Nat} (hw : w < 2 ^ 32) (hm : fieldNat w 31 26 = 46) : EncodesTo (parseTex w) w := by
  unfold parseTex
  split
  case h_1 | h_2 =>
    exact encodesTo_row [(7, 15), (7, 8), (6, 2)] [(1, 0)] hw rfl hm ‹fieldNat w 25 22 = _› rfl rfl
  case h_3 => exact encodesTo_unallocated _ _

theorem parseFence_encodesTo {w : Nat} (hw : w < 2 ^ 32) (hm : fieldNat w 31 26 = 47)
    (hc : fieldNat w 25 22 = 0) : EncodesTo (parseFence w) w := by
  unfold parseFence
  split
  case h_1 | h_2 | h_3 =>
    exact encodesTo_of_fixed [] [(31, 26), (25, 22), (21, 20), (19, 0)] hw rfl rfl fun _ => by
        simp_all [zero, fixed, fieldNat_ofNat]
  case h_4 => rintro i ⟨⟩

theorem parseMemctl_encodesTo {w : Nat} (hw : w < 2 ^ 32) (hm : fieldNat w 31 26 = 47) : EncodesTo (parseMemctl w) w := by
  unfold parseMemctl
  split
  case h_1 => exact parseFence_encodesTo hw hm ‹_›
  case h_2 => exact encodesTo_row [] [(21, 0)] hw rfl hm ‹fieldNat w 25 22 = _› rfl rfl
  case h_3 => exact encodesTo_row [(6, 16), (6, 10)] [(9, 0)] hw rfl hm ‹fieldNat w 25 22 = _› rfl rfl
  case h_4 => exact encodesTo_row [(6, 16), (6, 10), (2, 8)] [(7, 0)] hw rfl hm ‹fieldNat w 25 22 = _› rfl rfl
  case h_5 | h_6 =>
    exact encodesTo_row [(7, 15), (6, 9), (3, 6)] [(5, 0)] hw rfl hm ‹fieldNat w 25 22 = _› rfl rfl
  case h_7 => exact encodesTo_unallocated _ _

theorem parseAtom_encodesTo {w : Nat} (hw : w < 2 ^ 32) (hm : fieldNat w 31 26 = 48) : EncodesTo (parseAtom w) w := by
  unfold parseAtom
  split
  case h_1 | h_2 | h_3 | h_4 | h_5 | h_6 | h_7 | h_8 | h_9 | h_10 | h_11 | h_12 | h_13 | h_14 | h_15 | h_16 | h_17 | h_19 |
    h_20 =>
    exact encodesTo_row [(7, 19), (6, 13), (7, 6), (1, 0)] [] hw rfl hm ‹fieldNat w 5 1 = _› rfl rfl
  case h_18 => exact encodesTo_row [(7, 19), (6, 13), (7, 6)] [(0, 0)] hw rfl hm ‹fieldNat w 5 1 = _› rfl rfl
  case h_21 => exact encodesTo_unallocated _ _

theorem parseMtx_encodesTo {w : Nat} (hw : w < 2 ^ 32) (hm : fieldNat w 31 26 = 49) : EncodesTo (parseMtx w) w := by
  unfold parseMtx
  split
  case h_1 =>
    exact encodesTo_row [(3, 19), (3, 16), (3, 13), (6, 7), (6, 1), (1, 0)] [] hw rfl hm ‹fieldNat w 25 22 = _› rfl rfl
  case h_2 =>
    exact encodesTo_of_fixed [(3, 19), (3, 13), (6, 7), (6, 1), (1, 0)] [(31, 26), (25, 22), (18, 16)] hw rfl rfl fun _ => by
        simp_all [fixed, fieldNat_ofNat]
  case h_3 =>
    exact encodesTo_row [(3, 19)] [(18, 16), (15, 13), (12, 7), (6, 1), (0, 0)] hw rfl hm ‹fieldNat w 25 22 = _› rfl rfl
  case h_4 | h_5 =>
    exact encodesTo_row [(3, 19), (6, 7), (6, 1)] [(18, 16), (15, 13), (0, 0)] hw rfl hm ‹fieldNat w 25 22 = _› rfl rfl
  case h_6 =>
    exact encodesTo_row [(3, 19), (3, 16), (3, 13), (6, 7), (1, 0)] [(6, 1)] hw rfl hm ‹fieldNat w 25 22 = _› rfl rfl
  case h_7 => exact encodesTo_unallocated _ _

theorem parseCopy_encodesTo {w : Nat} (hw : w < 2 ^ 32) (hm : fieldNat w 31 26 = 50) : EncodesTo (parseCopy w) w := by
  unfold parseCopy
  split
  case h_1 =>
    exact encodesTo_row [(6, 16), (6, 10), (7, 3), (2, 1)] [(0, 0)] hw rfl hm ‹fieldNat w 25 22 = _› rfl rfl
  case h_2 | h_3 => exact encodesTo_row [(6, 16)] [(15, 0)] hw rfl hm ‹fieldNat w 25 22 = _› rfl rfl
  case h_4 => exact encodesTo_row [(6, 16), (6, 10), (6, 4)] [(3, 0)] hw rfl hm ‹fieldNat w 25 22 = _› rfl rfl
  case h_5 => exact encodesTo_row [(6, 10)] [(21, 16), (9, 0)] hw rfl hm ‹fieldNat w 25 22 = _› rfl rfl
  case h_6 => exact encodesTo_row [(2, 20), (8, 12)] [(11, 0)] hw rfl hm ‹fieldNat w 25 22 = _› rfl rfl
  case h_7 => exact encodesTo_row [(6, 16), (2, 14), (8, 6)] [(5, 0)] hw rfl hm ‹fieldNat w 25 22 = _› rfl rfl
  case h_8 => exact encodesTo_unallocated _ _

theorem parseVfifo_encodesTo {w : Nat} (hw : w < 2 ^ 32) (hm : fieldNat w 31 26 = 51) : EncodesTo (parseVfifo w) w := by
  unfold parseVfifo
  split
  case h_1 | h_2 => exact encodesTo_row [(7, 15)] [(14, 0)] hw rfl hm ‹fieldNat w 25 22 = _› rfl rfl
  case h_3 => exact encodesTo_unallocated _ _

theorem parseSync_encodesTo {w : Nat} (hw : w < 2 ^ 32) (hm : fieldNat w 31 26 = 52) : EncodesTo (parseSync w) w := by
  unfold parseSync
  split
  case h_1 =>
    split
    · exact encodesTo_of_fixed [(6, 16), (6, 10)] [(31, 26), (25, 22), (9, 9), (8, 0)] hw rfl rfl fun _ => by
        simp_all [zero, fixed, fieldNat_ofNat]
    · exact encodesTo_of_fixed [(6, 16), (6, 10)] [(31, 26), (25, 22), (9, 9), (8, 0)] hw rfl rfl fun _ => by
        simp_all [zero, fixed, fieldNat_ofNat, fieldNat_bit_eq_one]
  case h_2 | h_4 | h_5 =>
    exact encodesTo_row [(6, 16), (6, 10)] [(9, 0)] hw rfl hm ‹fieldNat w 25 22 = _› rfl rfl
  case h_3 => exact encodesTo_row [(6, 10)] [(21, 16), (9, 0)] hw rfl hm ‹fieldNat w 25 22 = _› rfl rfl
  case h_6 => exact encodesTo_unallocated _ _

theorem parseTask_encodesTo {w : Nat} (hw : w < 2 ^ 32) (hm : fieldNat w 31 26 = 53) : EncodesTo (parseTask w) w := by
  unfold parseTask
  split
  case h_1 => exact encodesTo_row [(6, 16), (7, 9), (6, 3)] [(2, 0)] hw rfl hm ‹fieldNat w 25 22 = _› rfl rfl
  case h_2 => exact encodesTo_row [(6, 16), (7, 9)] [(8, 0)] hw rfl hm ‹fieldNat w 25 22 = _› rfl rfl
  case h_3 => exact encodesTo_row [(6, 16), (6, 10), (6, 4)] [(3, 0)] hw rfl hm ‹fieldNat w 25 22 = _› rfl rfl
  case h_4 | h_5 =>
    exact encodesTo_row [(6, 16), (6, 10), (1, 9)] [(8, 0)] hw rfl hm ‹fieldNat w 25 22 = _› rfl rfl
  case h_6 => exact encodesTo_row [] [(21, 0)] hw rfl hm ‹fieldNat w 25 22 = _› rfl rfl
  case h_7 => exact encodesTo_unallocated _ _

theorem parseScope_encodesTo {w : Nat} (hw : w < 2 ^ 32) (hm : fieldNat w 31 26 = 54) : EncodesTo (parseScope w) w := by
  unfold parseScope
  split
  case h_1 => exact encodesTo_row [(6, 16), (6, 10), (6, 4)] [(3, 0)] hw rfl hm ‹fieldNat w 25 22 = _› rfl rfl
  case h_2 | h_3 => exact encodesTo_row [(6, 10)] [(21, 16), (9, 0)] hw rfl hm ‹fieldNat w 25 22 = _› rfl rfl
  case h_4 =>
    split
    · exact encodesTo_of_fixed [(6, 16), (6, 10)] [(31, 26), (25, 22), (9, 9), (8, 0)] hw rfl rfl fun _ => by
        simp_all [zero, fixed, fieldNat_ofNat]
    · exact encodesTo_of_fixed [(6, 16), (6, 10)] [(31, 26), (25, 22), (9, 9), (8, 0)] hw rfl rfl fun _ => by
        simp_all [zero, fixed, fieldNat_ofNat, fieldNat_bit_eq_one]
  case h_5 => exact encodesTo_unallocated _ _

theorem parsePath_encodesTo {w : Nat} (hw : w < 2 ^ 32) (hm : fieldNat w 31 26 = 55) : EncodesTo (parsePath w) w := by
  unfold parsePath
  split
  case h_1 | h_2 | h_3 | h_5 | h_8 =>
    exact encodesTo_row [(6, 16)] [(15, 0)] hw rfl hm ‹fieldNat w 25 22 = _› rfl rfl
  case h_4 | h_6 => exact encodesTo_row [(6, 16), (6, 10)] [(9, 0)] hw rfl hm ‹fieldNat w 25 22 = _› rfl rfl
  case h_7 => exact encodesTo_row [] [(21, 0)] hw rfl hm ‹fieldNat w 25 22 = _› rfl rfl
  case h_9 => exact encodesTo_row [(7, 15), (6, 9), (6, 3)] [(2, 0)] hw rfl hm ‹fieldNat w 25 22 = _› rfl rfl
  case h_10 => exact encodesTo_row [(7, 15)] [(14, 0)] hw rfl hm ‹fieldNat w 25 22 = _› rfl rfl
  case h_11 => exact encodesTo_unallocated _ _

theorem parseFab_encodesTo {w : Nat} (hw : w < 2 ^ 32) (hm : fieldNat w 31 26 = 56) : EncodesTo (parseFab w) w := by
  unfold parseFab
  split
  case h_1 | h_4 | h_5 | h_6 => exact encodesTo_row [(6, 16)] [(15, 0)] hw rfl hm ‹fieldNat w 25 22 = _› rfl rfl
  case h_2 | h_3 => exact encodesTo_row [(6, 16), (6, 10)] [(9, 0)] hw rfl hm ‹fieldNat w 25 22 = _› rfl rfl
  case h_7 => exact encodesTo_unallocated _ _

theorem parseTlbinv_encodesTo {w : Nat} (hw : w < 2 ^ 32) (hm : fieldNat w 31 26 = 57)
    (hc : fieldNat w 25 22 = 2) : EncodesTo (parseTlbinv w) w := by
  unfold parseTlbinv
  split
  case h_1 =>
    exact encodesTo_of_fixed [(6, 16)] [(31, 26), (25, 22), (15, 14), (13, 0)] hw rfl rfl fun _ => by
        simp_all [zero, fixed, fieldNat_ofNat]
  case h_2 =>
    exact encodesTo_of_fixed [] [(31, 26), (25, 22), (21, 16), (15, 14), (13, 0)] hw rfl rfl fun _ => by
        simp_all [zero, fixed, fieldNat_ofNat]
  case h_3 => rintro i ⟨⟩

theorem parseSys_encodesTo {w : Nat} (hw : w < 2 ^ 32) (hm : fieldNat w 31 26 = 57) : EncodesTo (parseSys w) w := by
  unfold parseSys
  split
  case h_1 | h_2 => exact encodesTo_row [(6, 16), (12, 4)] [(3, 0)] hw rfl hm ‹fieldNat w 25 22 = _› rfl rfl
  case h_3 => exact parseTlbinv_encodesTo hw hm ‹_›
  case h_4 | h_5 => exact encodesTo_row [] [(21, 0)] hw rfl hm ‹fieldNat w 25 22 = _› rfl rfl
  case h_6 | h_7 => exact encodesTo_row [(6, 16), (6, 10)] [(9, 0)] hw rfl hm ‹fieldNat w 25 22 = _› rfl rfl
  case h_8 => exact encodesTo_unallocated _ _

/-- Where a word is parsed, its tables agree with the encoder. -/
theorem parse_encodesTo {w : Nat} (hw : w < 2 ^ 32) {p : Parsed} (hp : parse w = some p) : EncodesTo p w := by
  unfold parse at hp
  split at hp <;> cases hp
  case h_1 => exact parseSalu_encodesTo hw ‹_›
  case h_2 => exact parseSimm_encodesTo hw ‹_›
  case h_3 => exact parseScmpi_encodesTo hw ‹_›
  case h_4 => exact parseVint1_encodesTo hw ‹_›
  case h_5 => exact parseVint2_encodesTo hw ‹_›
  case h_6 | h_7 | h_8 | h_9 => exact encodesTo_major [(7, 19), (7, 12), (12, 0)] [] hw rfl ‹_› rfl rfl
  case h_10 => exact parseVshi_encodesTo hw ‹_›
  case h_11 => exact encodesTo_major [(7, 19), (19, 0)] [] hw rfl ‹_› rfl rfl
  case h_12 => exact parseVcmp_encodesTo hw ‹_›
  case h_13 => exact parseVt_encodesTo hw ‹_›
  case h_14 => exact parseFalu_encodesTo hw ‹_›
  case h_15 => exact parseFspec_encodesTo hw ‹_›
  case h_16 => exact parseFt_encodesTo hw ‹_›
  case h_17 => exact parseFcmp_encodesTo hw ‹_›
  case h_18 => exact parseFcvt_encodesTo hw ‹_›
  case h_19 => exact parsePacked_encodesTo hw ‹_›
  case h_20 => exact parseLane_encodesTo hw ‹_›
  case h_21 => exact parseMovx_encodesTo hw ‹_›
  case h_22 => exact parseBr_encodesTo hw ‹_›
  case h_23 => exact parseBrm_encodesTo hw ‹_›
  case h_24 | h_25 => exact encodesTo_major [(26, 0)] [] hw rfl ‹_› rfl rfl
  case h_26 => exact encodesTo_major [(6, 20), (10, 10), (10, 0)] [] hw rfl ‹_› rfl rfl
  case h_27 => exact encodesTo_major [] [(25, 0)] hw rfl ‹_› rfl rfl
  case h_28 => exact parseJump_encodesTo hw ‹_›
  case h_29 => exact parseMisc_encodesTo hw ‹_›
  case h_30 | h_31 => exact encodesTo_major [(7, 19), (6, 13), (7, 6), (2, 4), (3, 1), (1, 0)] [] hw rfl ‹_› rfl rfl
  case h_32 | h_33 => exact encodesTo_major [(7, 19), (6, 13), (7, 6), (2, 4), (3, 1)] [(0, 0)] hw rfl ‹_› rfl rfl
  case h_34 => exact parseLds_encodesTo hw ‹_›
  case h_35 => exact parseSts_encodesTo hw ‹_›
  case h_36 => exact parseTex_encodesTo hw ‹_›
  case h_37 => exact parseMemctl_encodesTo hw ‹_›
  case h_38 => exact parseAtom_encodesTo hw ‹_›
  case h_39 => exact parseMtx_encodesTo hw ‹_›
  case h_40 => exact parseCopy_encodesTo hw ‹_›
  case h_41 => exact parseVfifo_encodesTo hw ‹_›
  case h_42 => exact parseSync_encodesTo hw ‹_›
  case h_43 => exact parseTask_encodesTo hw ‹_›
  case h_44 => exact parseScope_encodesTo hw ‹_›
  case h_45 => exact parsePath_encodesTo hw ‹_›
  case h_46 => exact parseFab_encodesTo hw ‹_›
  case h_47 => exact parseSys_encodesTo hw ‹_›
  case h_48 => exact encodesTo_major [(7, 19), (7, 12), (7, 5)] [(4, 0)] hw rfl ‹_› rfl rfl
  case h_49 => exact encodesTo_major [(8, 18), (7, 11)] [(10, 0)] hw rfl ‹_› rfl rfl

/-- A word that spells an instruction is the word of it. -/
theorem encodeNat_of_spells {w : Nat} {i : Instr} (hw : w < 2 ^ 32) (h : Spells w i) : encodeNat i = some w := by
  obtain ⟨cs, hp, ok⟩ := h
  exact parse_encodesTo hw hp i rfl ok

/-! ## Decoding and encoding agree (R79 to R87) -/

/-- No check is reported exactly where every check holds. -/
theorem firstIllegal_eq_none {cs : List FieldCheck} : firstIllegal cs = none ↔ ∀ c ∈ cs, c.ok = true := by
  induction cs with
  | nil => simp [firstIllegal]
  | cons c cs ih =>
    unfold firstIllegal
    cases hc : c.ok with
    | true => simp [hc, ih]
    | false =>
      simp only [List.forall_mem_cons, hc, Bool.false_eq_true, false_and, iff_false, if_false]
      split
      · exact Option.some_ne_none _
      · split <;> exact Option.some_ne_none _

theorem wf_iff {i : Instr} : i.wf = true ↔ ∀ c ∈ i.checks, c.ok = true := List.all_eq_true

/-- The row that a word alone names has the checks of the instruction. -/
theorem checks_spelled (i : Instr) : (Claim.spelled i).checks = i.checks := by
  unfold Claim.spelled
  split <;> rfl

/-- What a word decodes to: the well-formed instruction that it spells. -/
theorem decode_eq_ok_iff {w : Nat} {i : Instr} : decode w = .ok i ↔ Spells w i ∧ i.wf = true := by
  unfold decode Spells
  rw [wf_iff]
  cases hp : parse w with
  | none => simp
  | some p =>
    obtain ⟨j, cs⟩ := p
    cases j with
    | none => simp
    | some j =>
      have ok := firstIllegal_eq_none (cs := cs ++ j.checks)
      rw [List.forall_mem_append] at ok
      cases hf : firstIllegal (cs ++ j.checks) with
      | none =>
        obtain ⟨hcs, hj⟩ := ok.mp hf
        simp only [hf, Except.ok.injEq]
        constructor
        · rintro rfl
          exact ⟨⟨cs, rfl, hcs⟩, hj⟩
        · rintro ⟨⟨_, ⟨⟩, _⟩, _⟩
          rfl
      | some e =>
        simp only [hf, reduceCtorEq, false_iff]
        rintro ⟨⟨_, ⟨⟩, hcs⟩, hj⟩
        exact absurd (ok.mpr ⟨hcs, hj⟩) (hf ▸ Option.some_ne_none e)

theorem encode_eq_some_iff {i : Instr} {w : Word} : encode i = some w ↔ encodeNat i = some w.toNat := by
  rw [encode, Option.map_eq_some_iff]
  constructor
  · rintro ⟨n, hn, rfl⟩
    rw [hn, BitVec.toNat_ofNat, Nat.mod_eq_of_lt (spells_of_encodeNat hn).1]
  · exact fun h => ⟨_, h, by simp⟩

/-- Settles O56: a row's word reads as the row, and a word that its tables read is rebuilt from its fields and fixed bits. -/
theorem decodeEncode : Obligations.DecodeEncode := by
  refine ⟨fun i w hi hw => ?_, fun w i h => ?_⟩
  · rw [decode_eq_ok_iff, wf_iff, checks_spelled, ← wf_iff]
    exact ⟨(spells_of_encodeNat (encode_eq_some_iff.mp hw)).2, hi⟩
  · obtain ⟨hs, hi⟩ := decode_eq_ok_iff.mp h
    exact ⟨hi, encode_eq_some_iff.mpr (encodeNat_of_spells w.isLt hs)⟩

end Sys2Proof.Encoding

/-!
SUPPORT, and the statements of the tier 1: what the issuing ply looks at next, as a function of the words at its pc, and a
step of the package as a function of what it looks at.
-/
namespace Sys2Proof.Machine
open Sys2Proof.Claim

/-! ## The words of a unit -/

/-- Words that stand at consecutive addresses, each of them a hint, are fetched as the hints of a unit. -/
theorem State.fetchUnit_append (s : State) (n : Nat) : ∀ (hints before : List Word) (a : DWord),
    (∀ k h, hints[k]? = some h → isHint h.toNat = true ∧ s.fetchAt (a + BitVec.ofNat 64 (4 * k)) = .ok h) →
    s.fetchUnit a before (hints.length + n) =
      s.fetchUnit (a + BitVec.ofNat 64 (4 * hints.length)) (before ++ hints) n
  | [], before, a, _ => by simp
  | h :: l, before, a, hl => by
    have h0 : isHint h.toNat = true ∧ s.fetchAt a = .ok h := by simpa using hl 0 h rfl
    have hstep (k : Nat) : a + 4 + BitVec.ofNat 64 (4 * k) = a + BitVec.ofNat 64 (4 * (k + 1)) := by
      rw [show 4 * (k + 1) = 4 + 4 * k by omega, BitVec.ofNat_add, BitVec.add_assoc]
      rfl
    have ih := State.fetchUnit_append s n l (before ++ [h]) (a + 4) fun k x hx => by
      rw [hstep]
      exact hl (k + 1) x hx
    rw [hstep, List.append_assoc] at ih
    rw [List.length_cons, show l.length + 1 + n = (l.length + n) + 1 by omega, State.fetchUnit, h0.2]
    simpa [h0.1] using ih

/-- A chain of hints and the word after it, which is no hint, are a unit. -/
theorem State.fetchUnit_unit {s : State} {hints : List Word} {w : Word} {a : DWord}
    (hl : ∀ k h, hints[k]? = some h → isHint h.toNat = true ∧ s.fetchAt (a + BitVec.ofNat 64 (4 * k)) = .ok h)
    (hw : isHint w.toNat = false) (hat : s.fetchAt (a + BitVec.ofNat 64 (4 * hints.length)) = .ok w) {fuel : Nat}
    (hf : hints.length < fuel) : s.fetchUnit a [] fuel = .unit hints w := by
  obtain ⟨n, rfl⟩ : ∃ n, fuel = hints.length + (n + 1) := ⟨fuel - hints.length - 1, by omega⟩
  rw [State.fetchUnit_append s _ hints [] _ hl, State.fetchUnit, hat]
  simp [hw]

theorem State.fetchUnit_of_fetches {s : State} {hints : List Word} {w : Word} {next : Option Word}
    (h : Fetches s hints w next) {fuel : Nat} (hf : hints.length < fuel) :
    s.fetchUnit s.path.pc [] fuel = .unit hints w := by
  obtain ⟨hhints, hword, hat, -⟩ := h
  exact State.fetchUnit_unit hhints hword hat hf

/-- A chain of hints whose next word does not fetch. -/
theorem State.fetchUnit_fault {s : State} {hints : List Word} {a : DWord} {c : Cause}
    (hl : ∀ k h, hints[k]? = some h → isHint h.toNat = true ∧ s.fetchAt (a + BitVec.ofNat 64 (4 * k)) = .ok h)
    (hc : s.fetchAt (a + BitVec.ofNat 64 (4 * hints.length)) = .error c) {fuel : Nat} (hf : hints.length < fuel) :
    s.fetchUnit a [] fuel = .fault hints.length c := by
  obtain ⟨n, rfl⟩ : ∃ n, fuel = hints.length + (n + 1) := ⟨fuel - hints.length - 1, by omega⟩
  rw [State.fetchUnit_append s _ hints [] _ hl, State.fetchUnit, hc]
  rfl

/-! ## What the issuing ply looks at -/

theorem Ply.exhausted_eq_true_iff (p : Ply) (k : Nat) : p.exhausted k = true ↔ ¬p.yc.toNat + k ≤ 64 * p.ydl.toNat := by
  rw [Ply.exhausted, decide_eq_true_eq]
  omega

theorem exhausted_of_allows {s : State} {k : Nat} (h : Allows s k) : s.ply.exhausted k = false := by
  rw [Bool.eq_false_iff, ne_eq, Ply.exhausted_eq_true_iff]
  exact not_not_intro h

/-- The words that count against the allowance, as State.look counts them. -/
theorem countedWords_eq (hints : List Word) (w : Word) :
    (if isYield w.toNat = true then hints.length else hints.length + 1) = countedWords hints w := rfl

/-- A unit within the allowance is judged by its words. -/
theorem State.look_unit {s : State} {hints : List Word} {w : Word}
    (hu : s.fetchUnit s.path.pc [] (2 ^ 58) = .unit hints w) (ha : Allows s (countedWords hints w)) :
    s.look = (issueOf s.path.pc hints w, s.verdict hints w) := by
  have he := exhausted_of_allows ha
  unfold State.path at hu
  unfold State.look
  simp only [hu, -Nat.reducePow, countedWords_eq, he, Bool.false_eq_true, if_false, State.path]

/-- A unit beyond the allowance ends in the watchdog. -/
theorem State.look_exhausted {s : State} {hints : List Word} {w : Word}
    (hu : s.fetchUnit s.path.pc [] (2 ^ 58) = .unit hints w) (ha : ¬Allows s (countedWords hints w)) :
    s.look = ({ issueOf s.path.pc hints w with words := countedWords hints w }, .stop (.watchdogDeadline s.ply.uid)) := by
  have he := (Ply.exhausted_eq_true_iff s.ply _).mpr ha
  unfold State.path at hu
  unfold State.look
  simp only [hu, -Nat.reducePow, countedWords_eq, he, if_true, State.path]

/-- A word that does not fetch, after hints within the allowance, is the fault of its unit. -/
theorem State.look_fault {s : State} {n : Nat} {c : Cause} (hu : s.fetchUnit s.path.pc [] (2 ^ 58) = .fault n c)
    (ha : n ≠ 0 → Allows s n) :
    s.look = ({ Issue.empty with first := s.path.pc, words := n }, .stop (.fetchFault c.code c.sub c.addr)) := by
  have he : (n != 0 && s.ply.exhausted n) = false := by
    by_cases hn : n = 0
    · simp [hn]
    · simp [exhausted_of_allows (ha hn)]
  unfold State.path at hu
  unfold State.look
  simp only [hu, -Nat.reducePow, he, Bool.false_eq_true, if_false, State.path]

theorem tooLong_of_fits {s : State} {hints : List Word} {w : Word} (h : Fits s hints w) :
    tooLong s.ply.pos hints w = false := by
  rw [tooLong]
  obtain h | ⟨rfl, ht⟩ := h
  · simp only [Bool.or_eq_false_iff, Bool.and_eq_false_iff, decide_eq_false_iff_not]
    exact ⟨.inl (by omega), .inl (by omega)⟩
  · simp [ht]

/-- A unit that fits has no more hints than fetchUnit reads. -/
theorem fits_length_lt {s : State} {hints : List Word} {w : Word} (h : Fits s hints w) : hints.length < 2 ^ 58 := by
  obtain h | ⟨rfl, -⟩ := h
  · omega
  · simp

theorem tooLong_of_beyond {s : State} {hints : List Word} {w : Word}
    (h : (24 ≤ s.ply.pos + hints.length ∧ isTrailerWord w.toNat = false) ∨ (24 < s.ply.pos + hints.length ∧ hints ≠ [])) :
    tooLong s.ply.pos hints w = true := by
  rw [tooLong]
  obtain ⟨h, ht⟩ | ⟨h, hh⟩ := h
  · simp [h, ht]
  · simp [h, hh]

/-- A unit whose words stand at the pc: RUNLEN comes first, then the first ILLEGAL condition or the instruction. -/
theorem State.verdict_of_fetches {s : State} {hints : List Word} {w : Word} {next : Option Word}
    (h : Fetches s hints w next) :
    s.verdict hints w =
      if tooLong s.ply.pos hints w then .runlen
      else match decodeUnit hints w next with
        | .error r => .stop (.illegalWord r.sub r.pos r.word r.other)
        | .ok i => .go (s.resolve i) := by
  obtain ⟨-, -, -, hnext⟩ := h
  unfold State.path at *
  unfold State.verdict
  by_cases ht : isTransfer w.toNat = true
  · rw [if_pos ht] at hnext
    obtain ⟨n, rfl, hn⟩ := hnext
    simp only [ht, if_true, hn] <;> rfl
  · rw [if_neg ht] at hnext
    subst hnext
    simp only [ht] <;> rfl

/-- A transfer whose next word does not fetch ends in that word's fault. -/
theorem State.verdict_fault {s : State} {hints : List Word} {w : Word} {c : Cause} (ht : isTransfer w.toNat = true)
    (hc : s.fetchAt (s.path.pc + BitVec.ofNat 64 (4 * (hints.length + 1))) = .error c) :
    s.verdict hints w = .stop (.fetchFault c.code c.sub c.addr) := by
  unfold State.path at *
  unfold State.verdict
  simp only [ht, if_true, hc]

/-- A word without hints decodes to the instruction that it spells, where what follows a transfer is a trailer. -/
theorem decodeUnit_nil {w : Word} {next : Option Word} {i : Instr} (hd : decode w.toNat = .ok i)
    (hn : ∀ n, next = some n → isTrailerWord n.toNat = true) : decodeUnit [] w next = .ok i := by
  unfold decodeUnit
  rw [hd]
  cases next with
  | none => simp [chainReport]
  | some n => simp [chainReport, hn n rfl]

/-! ## A step -/

theorem step_of_issues {s : State} (h : Issues s) : step s = s.issueNext := by
  obtain ⟨hagenda, huid, hrunning, hresumes, hwait⟩ := h
  have hi : s.issues = true := by
    simp [State.issues, Ply.resident, huid, hrunning, hresumes, show s.ply.cur.wait = .none from hwait]
  unfold step
  simp [hagenda, hi]

/-- The unit ends in the instruction that its words come to. -/
theorem step_stop {s : State} (h : Issues s) {i : Issue} {e : Instr} (hl : s.look = (i, .stop e)) :
    step s = exec e { s.elapse with issue := i } := by
  rw [step_of_issues h, State.issueNext, hl]

theorem step_runlen {s : State} (h : Issues s) {i : Issue} (hl : s.look = (i, .runlen)) :
    step s = .next (State.raiseRunlen { s.elapse with issue := i }) := by
  rw [step_of_issues h, State.issueNext, hl]
  rfl

theorem step_go {s : State} (h : Issues s) {i : Issue} {e : Instr} (hl : s.look = (i, .go e)) (hz : s.hazard e = false)
    (hs : s.ply.stalled = false) : step s = exec e { s.elapse with issue := i } := by
  rw [step_of_issues h, State.issueNext, hl]
  simp [hz, hs]

theorem step_pipeWaitEnd {s : State} (h : Issues s) {i : Issue} {e : Instr} (hl : s.look = (i, .go e))
    (hz : s.hazard e = false) (hs : s.ply.stalled = true) :
    step s = exec (.pipeWaitEnd s.ply.uid) { s.elapse with issue := i } := by
  rw [step_of_issues h, State.issueNext, hl]
  simp [hz, hs]

/-- Where no event is enabled, time alone passes. -/
theorem State.background_nil (s t : State) : s.background [] t = .next t := by
  simp [State.background, State.pick, State.ok]

theorem step_stalls {s : State} (h : Issues s) {i : Issue} {e : Instr} (hl : s.look = (i, .go e))
    (hz : s.hazard e = true) (he : s.events = []) :
    step s = .next { s.elapse with issue := i, ply := { s.ply with stalled := true } } := by
  rw [step_of_issues h, State.issueNext, hl]
  simp only [hz, he, if_true, State.background_nil]
  rfl

/-- The unit at the pc that decodes to an instruction is the one the issuing ply looks at. -/
theorem look_of_decodes {s : State} {hints : List Word} {w : Word} {next : Option Word} {i : Instr}
    (hf : Fetches s hints w next) (hfit : Fits s hints w) (ha : Allows s (countedWords hints w))
    (hd : decodeUnit hints w next = .ok i) : s.look = (issueOf s.path.pc hints w, .go (s.resolve i)) := by
  rw [State.look_unit (State.fetchUnit_of_fetches hf (fits_length_lt hfit)) ha, State.verdict_of_fetches hf,
    tooLong_of_fits hfit, hd]
  rfl

/-- Settles O60: a step is issueNext's answer to what the issuing ply looks at, and what it looks at is what the words at
its pc come to. -/
theorem stepRunsDecoded : Obligations.StepRunsDecoded := by
  refine ⟨fun s e l h => ?_, fun s w next i hi hf hfit ha hs hd hn hz => ?_,
    fun s hints w next i hi hf hfit ha hd => ?_, fun s hints w next r hi hf hfit ha hd => ?_,
    fun s hints w next hi hf hlen hlong ha => ?_, fun s c hi hc => ?_, fun s hints c hi hhints hlen ha hc => ?_,
    fun s hints w c hi hwords hhints hw ht hlen ha hc => ?_, fun s w next hi hf ha => ?_, fun s h hall he => ?_⟩
  · unfold step
    rw [h]
  · exact step_go hi (look_of_decodes hf hfit ha (decodeUnit_nil hd hn)) hz hs
  · have hl := look_of_decodes hf hfit ha hd
    exact ⟨fun hz hs => step_go hi hl hz hs, fun hz hs => step_pipeWaitEnd hi hl hz hs, fun hz he => step_stalls hi hl hz he⟩
  · refine step_stop hi ?_
    rw [State.look_unit (State.fetchUnit_of_fetches hf (fits_length_lt hfit)) ha, State.verdict_of_fetches hf,
      tooLong_of_fits hfit, hd]
    rfl
  · refine step_runlen hi ?_
    rw [State.look_unit (State.fetchUnit_of_fetches hf hlen) ha, State.verdict_of_fetches hf, tooLong_of_beyond hlong]
    rfl
  · have hu : s.fetchUnit s.path.pc [] (2 ^ 58) = .fault 0 c :=
      State.fetchUnit_fault (hints := []) (by simp) (by simpa using hc) (by simp)
    exact step_stop hi (State.look_fault hu (absurd rfl))
  · exact step_stop hi (State.look_fault (State.fetchUnit_fault hhints hc hlen) fun _ => ha)
  · have hu : s.fetchUnit s.path.pc [] (2 ^ 58) = .unit hints w := by
      refine State.fetchUnit_unit (fun k h hk => ⟨hhints h (List.mem_of_getElem? hk), hwords k h ?_⟩) hw ?_ hlen
      · rw [List.getElem?_append_left (List.getElem?_eq_some_iff.mp hk).1]
        exact hk
      · exact hwords hints.length w (by simp)
    refine step_stop hi ?_
    rw [State.look_unit hu ha, State.verdict_fault ht hc]
  · exact step_stop hi (State.look_exhausted (State.fetchUnit_of_fetches hf (by simp)) ha)
  · have hr : s.ply.resident = false := by
      by_contra hr
      simp [State.all, hr] at hall
    have hc : s.choices = [] := by simp [State.choices, hall]
    unfold step
    simp [h, State.issues, hr, hc, he, State.background_nil]

/-! ## The decoder on words written out -/

open Sys2Proof.Tests in
/-- Settles O57, by the decoder's answer on each of the words. -/
theorem decodeWords : Obligations.DecodeWords := by
  obtain ⟨h1, h2, h3, h4, h5, h6, h7, h8, h9, h10, h11, h12⟩ := test_decode_words
  obtain ⟨r1, r2, -, -⟩ := test_refused_words
  exact ⟨reads_eq h1, reads_eq h2, reads_eq h3, reads_eq h4, reads_eq h5, reads_eq h6, reads_eq h7, reads_eq h8, reads_eq h9,
    reads_eq h10, reads_eq h11, reads_eq h12, refuses_eq r1, refuses_eq r2⟩

end Sys2Proof.Machine

/-!
NOP, TRAP, ERET and the illegal words (R93, R164 to R167).
-/
namespace Sys2Proof.Machine
open Sys2Proof.Claim

/-! ## The arms of these instructions -/

theorem exec_nop (s : State) : exec .nop s = execNop s := rfl
theorem exec_trap (c : BitVec 12) (s : State) : exec (.trap c) s = execTrap c s := rfl
theorem exec_eret (s : State) : exec .eret s = execEret s := rfl
theorem exec_illegalWord (sub pos : Nat) (word other : Word) (s : State) :
    exec (.illegalWord sub pos word other) s = execIllegalWord sub pos word other s := rfl

/-! ## Addresses -/

theorem pc60_pc60 (a : DWord) : pc60 (pc60 a) = pc60 a := by
  unfold pc60
  rw [BitVec.and_assoc, BitVec.and_self]

/-- A trap register takes 60 bits of an address, whether or not it has been cut to them before. -/
theorem EntersHandler.of_pc60 {s t : State} {epc : DWord} {pos code sub detail lane : Nat} {eaddr : DWord}
    (h : EntersHandler s t epc pos code sub detail eaddr lane) :
    EntersHandler s t (pc60 epc) pos code sub detail eaddr lane := by
  obtain ⟨hepc, hrest⟩ := h
  exact ⟨hepc.trans (pc60_pc60 epc).symm, hrest⟩

/-! ## The scalars of a path -/

/-- A scalar reads alike in plies of the same scalars and the same activity of the path (R75). -/
theorem Ply.getS_congr {p q : Ply} {k : Nat} (hs : p.sregs = q.sregs) (ha : (p.path k).active = (q.path k).active)
    (r : BitVec 6) : p.getS k r = q.getS k r := by
  unfold Ply.getS
  rw [hs, ha]

/-! ## ERET -/

/-- The path that resumes goes on at %epc, with the transfer that the trap kept for it. -/
theorem Ply.eret_path (p : Ply) :
    p.eret.path p.slot = { p.cur with pc := p.epc, transfer := (p.eret.path p.slot).transfer } := by
  have h : p.eret.path p.slot = { p.cur with
      pc := p.epc, transfer := if p.epc == p.trapEpc && p.erun == p.trapErun then p.trapTransfer else .none } :=
    Ply.setPath_path ..
  rw [h]

theorem Ply.eret_path_other (p : Ply) : p.eret.path p.other = p.path p.other := Ply.setCur_other ..

/-- ERET changes of the ply only its privilege, its run and its issuing path (R167). -/
theorem Ply.eret_frame (p : Ply) :
    p.eret = { p with
      supervisor := false, running := true, pos := p.erun.toNat, latches := p.savedLatches
      path0 := p.eret.path0, path1 := p.eret.path1 } := by
  unfold Ply.eret
  dsimp only
  rw [Ply.setCur_frame]

/-- ERET leaves every scalar of the resuming path as it stood. -/
theorem Ply.getS_eret (p : Ply) (r : BitVec 6) : p.eret.getS p.slot r = p.getS p.slot r := by
  refine Ply.getS_congr (Ply.eret_sregs p) ?_ r
  rw [Ply.eret_path]
  rfl

/-- The next state of an ERET at supervisor privilege. -/
def State.eretDone (s : State) : State := { s with ply := { (s.ply.advance s.issue).eret with runSince := s.now } }

theorem execEret_supervisor {s : State} (hs : s.ply.supervisor = true) : execEret s = .next s.eretDone := by
  unfold execEret
  rw [if_pos hs]
  rfl

theorem execEret_user {s : State} (hs : s.ply.supervisor = false) : execEret s = .next s.raisePriv := by
  unfold execEret
  rw [hs]
  rfl

theorem State.eretDone_slot (s : State) : s.eretDone.ply.slot = s.ply.slot := by
  have h : s.eretDone.ply.slot = (s.ply.advance s.issue).eret.slot := rfl
  rw [h, Ply.eret_slot, Ply.advance_slot]

/-- Of the resuming path, ERET moves the pc, the transfer and the class of the next run. -/
theorem State.eretDone_path (s : State) :
    s.eretDone.path = { s.path with
      pc := s.ply.epc, transfer := s.eretDone.path.transfer, hprio := s.eretDone.path.hprio } := by
  have h : s.eretDone.path = (s.ply.advance s.issue).eret.path (s.ply.advance s.issue).slot := by
    unfold State.path Ply.cur
    rw [State.eretDone_slot, Ply.advance_slot]
    rfl
  rw [h, Ply.eret_path, Ply.advance_cur, Ply.advance_epc]
  rfl

theorem State.eretDone_path_other (s : State) :
    s.eretDone.ply.path s.eretDone.ply.other = s.ply.path s.ply.other := by
  have ho : s.eretDone.ply.other = (s.ply.advance s.issue).other := by
    unfold Ply.other
    rw [State.eretDone_slot, Ply.advance_slot]
  have hp : (s.ply.advance s.issue).other = s.ply.other := by
    unfold Ply.other
    rw [Ply.advance_slot]
  rw [ho, show s.eretDone.ply.path _ = (s.ply.advance s.issue).eret.path _ from rfl, Ply.eret_path_other, hp]
  exact Ply.advance_other ..

theorem State.eretDone_S (s : State) (r : BitVec 6) : s.eretDone.S r = s.S r := by
  have h : s.eretDone.S r = (s.ply.advance s.issue).eret.getS (s.ply.advance s.issue).slot r := by
    unfold State.S
    rw [State.eretDone_slot, Ply.advance_slot]
    rfl
  rw [h, Ply.getS_eret, Ply.advance_slot]
  exact Ply.getS_advance ..

theorem State.eretDone_frame (s : State) :
    s.eretDone.ply = { s.ply with
      supervisor := false, pos := s.eretDone.ply.pos, latches := s.eretDone.ply.latches, running := true
      path0 := s.eretDone.ply.path0, path1 := s.eretDone.ply.path1, yc := s.eretDone.ply.yc
      runSince := s.eretDone.ply.runSince } := by
  have h : s.eretDone.ply = { (s.ply.advance s.issue).eret with runSince := s.now } := rfl
  rw [h, Ply.eret_frame, Ply.advance_frame]

/-! ## The statement -/

/-- NOP is a unit without an effect. -/
theorem State.done_frame (s : State) : ScalarFrame s s.done :=
  ScalarFrame.of_ply (p := s.ply) rfl rfl rfl rfl

/-- Settles O14: NOP completes, TRAP, ERET at user privilege and an illegal word raise a cause that is delivered, and ERET at
supervisor privilege is stated field by field above. -/
theorem trapsAndReturn : Obligations.TrapsAndReturn := by
  refine ⟨fun s => ⟨s.done, exec_nop s, State.done_frame s, State.done_S s⟩, fun c s hu => ?_, fun s hu => ?_,
    fun sub pos word other s hu => ?_, fun s hs => ?_⟩
  · have ⟨honly, henters⟩ := State.raise_traps (c := ⟨0x06, 0, c.toNat, s.issue.at', 127, true⟩) hu rfl rfl
      (show (6 : Nat) ≠ 0x21 by decide) [⟨0x06, 0, c.toNat, s.issue.at', 127, true⟩]
    exact ⟨_, exec_trap c s, honly, henters.of_pc60⟩
  · exact ⟨s.raisePriv, (exec_eret s).trans (execEret_user hu),
      State.raise_word hu 0x02 0 (by decide) (by decide) (by decide) (by decide) _⟩
  · exact ⟨_, exec_illegalWord sub pos word other s, State.raise_traps hu rfl rfl (show (1 : Nat) ≠ 0x21 by decide) _⟩
  · have hpath := State.eretDone_path s
    refine ⟨s.eretDone, (exec_eret s).trans (execEret_supervisor hs), OnlyPly.of_ply .., rfl, ?_, ?_, ?_, rfl, ?_, ?_, ?_,
      State.eretDone_path_other s, State.eretDone_S s, State.eretDone_frame s⟩
    · rw [hpath]
    · exact congrArg BitVec.toNat (Ply.advance_erun ..)
    · exact Ply.advance_savedLatches ..
    · rw [hpath]
    · rw [hpath]
    · rw [hpath]

end Sys2Proof.Machine

/-!
SUPPORT. What reads and stores at the homes leave of the state (R328, R329): the caches and counters of the vaults and the lease
summaries of the homes change, and no translation depends on them.
-/
namespace Sys2Proof.Machine

/-! ## Work at the homes -/

/-- Only lines and counters of the vault caches, and the lease summaries of the homes, differ. -/
structure Charged (s t : State) : Prop where
  rest : t = { s with vaults := t.vaults, homeLeases := t.homeLeases }
  vault : ∀ k, t.vault k = { s.vault k with cache := (t.vault k).cache, counts := (t.vault k).counts }

namespace Charged

theorem refl (s : State) : Charged s s := ⟨rfl, fun _ => rfl⟩

theorem trans {s t u : State} (h₁ : Charged s t) (h₂ : Charged t u) : Charged s u where
  rest := by
    have h := h₂.rest
    rw [h₁.rest] at h
    exact h
  vault k := by
    have h := h₂.vault k
    rw [h₁.vault k] at h
    exact h

theorem mem {s t : State} (h : Charged s t) : t.mem = s.mem := by rw [h.rest]
theorem stores {s t : State} (h : Charged s t) : t.stores = s.stores := by rw [h.rest]
theorem ply {s t : State} (h : Charged s t) : t.ply = s.ply := by rw [h.rest]

theorem foldl {α : Type} {f : State → α → State} (hf : ∀ s x, Charged s (f s x)) (l : List α) (s : State) :
    Charged s (l.foldl f s) :=
  List.foldlRecOn l f (refl s) fun t ht x _ => ht.trans (hf t x)

end Charged

/-- A change of a vault's cache lines and counters is work at the homes. -/
theorem State.modVault_charged (s : State) (k : Nat) {f : Vault → Vault}
    (hf : ∀ v, f v = { v with cache := (f v).cache, counts := (f v).counts }) : Charged s (s.modVault k f) where
  rest := rfl
  vault n := by
    by_cases h : n = k
    · subst h
      rw [State.modVault, State.setVault_vault]
      exact hf _
    · have hn : (s.modVault k f).vault n = s.vault n := tget_tset_other _ _ h _
      rw [hn]

theorem State.evictLine_charged (s : State) (c : CacheLine) : Charged s (s.evictLine c) := by
  refine (State.modVault_charged s (vaultOfPa (c.line * 128)) (f := fun v =>
    let v := { v with cache := v.cache.filter fun d => d.line != c.line }
    if c.dirty then v.count c.owner 0 0 1 else v) fun v => ?_).trans ⟨rfl, fun _ => rfl⟩
  dsimp only
  split <;> rfl

theorem State.makeRoom_charged (s : State) (line : Nat) : Charged s (s.makeRoom line) := by
  unfold State.makeRoom
  dsimp only
  split
  · exact Charged.refl s
  · split
    · exact State.evictLine_charged s _
    · exact Charged.refl s

theorem State.fillLine_charged (s : State) (tenant line : Nat) (allocate : Bool) :
    Charged s (s.fillLine tenant line allocate) := by
  unfold State.fillLine
  dsimp only
  split
  · exact (State.makeRoom_charged s line).trans (State.modVault_charged _ _ fun _ => rfl)
  · exact State.modVault_charged s _ fun _ => rfl

theorem State.hitLine_charged (s : State) (tenant : Nat) (c : CacheLine) : Charged s (s.hitLine tenant c) := by
  unfold State.hitLine
  split
  · exact Charged.refl s
  · exact State.modVault_charged s _ fun _ => rfl

theorem State.homeRead_charged (s : State) (tenant line policy : Nat) : Charged s (s.homeRead tenant line policy) := by
  unfold State.homeRead
  split
  · exact State.hitLine_charged s tenant _
  · exact State.fillLine_charged s tenant line _

theorem State.dirtyLine_charged (s : State) (tenant line : Nat) : Charged s (s.dirtyLine tenant line) :=
  State.modVault_charged s _ fun _ => rfl

theorem State.homeStore_charged (s : State) (tenant line policy : Nat) : Charged s (s.homeStore tenant line policy) := by
  unfold State.homeStore
  split
  · exact (State.hitLine_charged s tenant _).trans (State.dirtyLine_charged _ tenant line)
  · split
    · exact Charged.refl s
    · exact (State.fillLine_charged s tenant line true).trans (State.dirtyLine_charged _ tenant line)

theorem State.chargeWalk_charged (s : State) (tenant va : Nat) : Charged s (s.chargeWalk tenant va) :=
  Charged.foldl (fun t l => State.homeRead_charged t tenant l 0) _ s

/-- A lease that an L2 takes is work at the homes beside the lease itself. -/
theorem State.takeL2_stores (s : State) (tenant cluster policy line : Nat) :
    (s.takeL2 tenant cluster policy line).stores = s.stores := by
  unfold State.takeL2
  split
  · rfl
  · exact (State.homeRead_charged s tenant line policy).stores

theorem State.takeL2_ply (s : State) (tenant cluster policy line : Nat) :
    (s.takeL2 tenant cluster policy line).ply = s.ply := by
  unfold State.takeL2
  split
  · rfl
  · exact (State.homeRead_charged s tenant line policy).ply

/-! ## Translations (R179, R376, R377) -/

/-- What a translation reads: memory as the walkers see it, the tables' roots, held translations, and which vaults are retired. -/
structure SameTables (s t : State) : Prop where
  mem : t.mem = s.mem
  stores : t.stores = s.stores
  ptime : t.ptime = s.ptime
  tick : t.tick = s.tick
  tlb : t.tlb = s.tlb
  tenants : t.tenants = s.tenants
  retired : ∀ k, (t.vault k).retired = (s.vault k).retired

theorem Charged.sameTables {s t : State} (h : Charged s t) : SameTables s t := by
  refine ⟨h.mem, h.stores, ?_, ?_, ?_, ?_, fun k => by rw [h.vault k]⟩ <;> rw [h.rest]

namespace SameTables

theorem of_ply (s : State) (p : Ply) : SameTables s { s with ply := p } := ⟨rfl, rfl, rfl, rfl, rfl, rfl, fun _ => rfl⟩

theorem trans {s t u : State} (h₁ : SameTables s t) (h₂ : SameTables t u) : SameTables s u :=
  ⟨h₂.mem.trans h₁.mem, h₂.stores.trans h₁.stores, h₂.ptime.trans h₁.ptime, h₂.tick.trans h₁.tick, h₂.tlb.trans h₁.tlb,
    h₂.tenants.trans h₁.tenants, fun k => (h₂.retired k).trans (h₁.retired k)⟩

section
variable {s t : State} (h : SameTables s t)
include h

theorem phys_eq (pa n : Nat) : t.phys pa n = s.phys pa n := by
  unfold State.phys State.seenN State.now
  rw [h.mem, h.stores, h.ptime]

theorem walk_eq (va fuel level table : Nat) : t.walk va fuel level table = s.walk va fuel level table := by
  induction fuel generalizing level table with
  | zero => rfl
  | succ n ih =>
    unfold State.walk
    simp only [h.phys_eq, h.retired, ih]

theorem leafOf_eq (tenant va : Nat) : t.leafOf tenant va = s.leafOf tenant va := by
  unfold State.leafOf State.held State.walkTenant State.tenant State.choose
  simp only [h.walk_eq, h.tlb, h.tenants, h.tick]

theorem page_eq (tenant : Nat) (acc : Access) (g : Nat) : t.page tenant acc g = s.page tenant acc g := by
  unfold State.page
  rw [h.leafOf_eq]

theorem translate_eq (tenant : Nat) (acc : Access) (va : DWord) (lane : Nat) :
    t.translate tenant acc va lane = s.translate tenant acc va lane := by
  unfold State.translate State.pages
  simp only [h.page_eq]

theorem range_eq (tenant : Nat) (acc : Access) (va : DWord) (n lane : Nat) :
    t.range tenant acc va n lane = s.range tenant acc va n lane := by
  unfold State.range
  simp only [h.translate_eq]

end
end SameTables

/-! ## A store that a unit makes on its own behalf -/

/-- A store of no ply: its home counts it and takes it in, and the L2 may take a lease on its line (R301, R326). -/
theorem State.arrive_eq (s : State) (core tenant policy floor : Nat) (scopes : List (BitVec 24)) (pa : Nat)
    (data : List Byte) : ∃ ct c, s.arrive 0 core tenant policy floor scopes pa data =
      let u := State.homeStore { s with seq := s.seq + 1 } tenant (lineOf pa) policy
      let v := { u with stores := u.stores ++
        [⟨s.seq + 1, 0, s.seq + 1, core, clusterOf core, tenant, pa, data, ct, c, false, policy, false, scopes⟩] }
      if clusterOf core < 64 && (policy == 0 || policy == 3) then v.takeL2 tenant (clusterOf core) policy (lineOf pa) else v :=
  ⟨_, _, rfl⟩

/-- The store that is on its way after one of at most a line (R326). -/
theorem State.arrive_stores (s : State) (core tenant policy floor : Nat) (scopes : List (BitVec 24)) (pa : Nat)
    (data : List Byte) : ∃ q : PendingStore, (s.arrive 0 core tenant policy floor scopes pa data).stores = s.stores ++ [q] ∧
      q.pa = pa ∧ q.core = core ∧ q.data = data := by
  obtain ⟨ct, c, h⟩ := State.arrive_eq s core tenant policy floor scopes pa data
  have hu := (State.homeStore_charged { s with seq := s.seq + 1 } tenant (lineOf pa) policy).stores
  refine ⟨⟨s.seq + 1, 0, s.seq + 1, core, clusterOf core, tenant, pa, data, ct, c, false, policy, false, scopes⟩, ?_, rfl, rfl,
    rfl⟩
  rw [h]
  dsimp only
  split
  · rw [State.takeL2_stores, hu]
  · rw [hu]

/-- A store of no ply leaves the issuing ply as it is. -/
theorem State.arrive_ply (s : State) (core tenant policy floor : Nat) (scopes : List (BitVec 24)) (pa : Nat)
    (data : List Byte) : (s.arrive 0 core tenant policy floor scopes pa data).ply = s.ply := by
  obtain ⟨ct, c, h⟩ := State.arrive_eq s core tenant policy floor scopes pa data
  have hu := (State.homeStore_charged { s with seq := s.seq + 1 } tenant (lineOf pa) policy).ply
  rw [h]
  dsimp only
  split
  · rw [State.takeL2_ply, hu]
  · rw [hu]

theorem State.arriveN_ply (s : State) (core tenant policy floor : Nat) (scopes : List (BitVec 24)) (pa : Nat)
    (data : List Byte) : (s.arriveN 0 core tenant policy floor scopes pa data).ply = s.ply :=
  keep_foldl State.ply _ (fun t (a, d) => State.arrive_ply t core tenant policy floor scopes a d) _ s

/-- A store into a virtual range leaves the issuing ply as it is. -/
theorem State.writeVirt_ply (s : State) (core tenant : Nat) (va : DWord) (data : List Byte) :
    (s.writeVirt 0 core tenant va data).ply = s.ply := by
  unfold State.writeVirt
  split
  · rfl
  · exact keep_foldl (fun x : State × List Byte => x.1.ply) _ (fun x (a, k) => State.arriveN_ply x.1 core tenant 0 0 [] a _) _ _

/-- One line of memory, stored at its physical address, is one store on its way. -/
theorem State.writeVirt_stores_of_line {s : State} {core tenant pa : Nat} {va : DWord} {data : List Byte}
    (hlen : data.length = 128) (hr : s.range tenant .write va 128 = .ok [(pa, 128)]) (hpa : pa % 128 = 0) :
    ∃ q : PendingStore, (s.writeVirt 0 core tenant va data).stores = s.stores ++ [q] ∧ q.pa = pa ∧ q.core = core ∧
      q.data = data := by
  have hcut : cutLines (128 + 1) pa data = [(pa, data)] := by
    have hne : data.isEmpty = false := by
      rw [List.isEmpty_eq_false_iff]
      rintro rfl
      exact absurd hlen (by decide)
    simp [cutLines, hne, hlen, hpa]
  have h : s.writeVirt 0 core tenant va data = s.arrive 0 core tenant 0 0 [] pa data := by
    unfold State.writeVirt
    rw [hlen, hr]
    simp only [List.foldl_cons, List.foldl_nil]
    unfold State.arriveN
    rw [List.take_of_length_le (by omega), hlen, hcut]
    rfl
  rw [h]
  exact State.arrive_stores ..

end Sys2Proof.Machine

/-!
Faults of a fetch and of a global access (R72, R165, R181, R186, R378).
-/
namespace Sys2Proof.Machine
open Sys2Proof.Claim

/-! ## The arms of these instructions -/

theorem exec_fetchFault (code sub : Nat) (a : DWord) (s : State) :
    exec (.fetchFault code sub a) s = execFetchFault code sub a s := rfl
theorem exec_ld (v : BitVec 7) (p : BitVec 6) (x : BitVec 7) (c : BitVec 2) (z : BitVec 3) (q : BitVec 1) (s : State) :
    exec (.ld v p x c z q) s = execLd v p x c z q s := rfl
theorem exec_st (v : BitVec 7) (p : BitVec 6) (x : BitVec 7) (c : BitVec 2) (z : BitVec 3) (q : BitVec 1) (s : State) :
    exec (.st v p x c z q) s = execSt v p x c z q s := rfl
theorem exec_lds (d p : BitVec 6) (q z : BitVec 1) (i : BitVec 11) (s : State) :
    exec (.lds d p q z i) s = execLds d p q z i s := rfl
theorem exec_sts (d p : BitVec 6) (q z : BitVec 1) (i : BitVec 11) (s : State) :
    exec (.sts d p q z i) s = execSts d p q z i s := rfl

/-! ## An XLATE or PROT that is delivered -/

/-- At user privilege the walks of the faults are charged, the handler is entered, and the batch record is stored (R165, R378). -/
theorem State.raise_page {s : State} {c : Cause} (hu : s.ply.supervisor = false) (hg : c.given = true) (hp : c.isPage = true)
    (h21 : c.code ≠ 0x21) (faults : List Cause) : ∃ u, Charged s u ∧ s.raise c faults =
      State.writeVirt { u with ply := { s.ply.deliver s.issue.first s.issue.words c with runSince := s.now } } 0 s.ply.core
        s.ply.tenant (s.ply.ssave + 0x300) (batchRecord faults) := by
  have hu' := Charged.foldl (fun t a => State.chargeWalk_charged t s.ply.tenant a)
    ((faults.map fun f => f.addr.toNat / 65536 * 65536).eraseDups) s
  refine ⟨_, hu', ?_⟩
  have hnow : ∀ t, Charged s t → t.now = s.now := fun t ht => by
    unfold State.now
    rw [ht.rest]
  have hc : (c.code == 0x21) = false := beq_eq_false_iff_ne.mpr h21
  unfold State.raise State.raiseAt
  simp only [hg, hp, hc, hu, if_true, Bool.false_eq_true, if_false, hnow _ hu']

theorem isPage_of_code {c : Cause} (h : c.code = 0x0A ∨ c.code = 0x0B) : c.isPage = true := by
  obtain h | h := h <;> simp [Cause.isPage, h]

/-- The handler of an XLATE or PROT, at the faulting address (R165). -/
theorem State.raise_page_enters {s : State} {code sub lane : Nat} (va : DWord) (hc : code = 0x0A ∨ code = 0x0B)
    (hu : s.ply.supervisor = false) (faults : List Cause) :
    EntersHandler s (s.raise (cause code sub va lane) faults) s.issue.first s.ply.pos code sub 0 va lane ∧
      (s.raise (cause code sub va lane) faults).mem = s.mem := by
  have hcode : (cause code sub va lane).code = code := rfl
  obtain ⟨u, hcharged, h⟩ := State.raise_page (c := cause code sub va lane) hu rfl (isPage_of_code hc)
    (by rw [hcode]; omega) faults
  rw [h]
  constructor
  · have henters := Ply.deliver_enters (s := s) (t := State.writeVirt { u with
        ply := { s.ply.deliver s.issue.first s.issue.words (cause code sub va lane) with runSince := s.now } } 0 s.ply.core
        s.ply.tenant (s.ply.ssave + 0x300) (batchRecord faults)) (cause code sub va lane) s.now s.issue.first s.issue.words
      (State.writeVirt_ply ..)
    have h6 : code ≠ 6 := by omega
    rw [hcode, if_neg h6, if_neg h6] at henters
    exact henters
  · rw [State.writeVirt_mem]
    exact hcharged.mem

/-! ## The batch record of one fault (R378) -/

theorem length_leBytes (n x : Nat) : (leBytes n x).length = n := by
  induction n generalizing x with
  | zero => rfl
  | succ n ih => simp [leBytes, ih]

theorem batchRecord_singleton (c : Cause) : batchRecord [c] =
    leBytes 4 1 ++ zeros 4 ++ leBytes 8 (c.addr.toNat / 65536 * 65536 + c.code * 256 + c.sub) ++ zeros 112 := by
  simp [batchRecord, sortBy, insertBy, length_leBytes]

theorem length_batchRecord_singleton (c : Cause) : (batchRecord [c]).length = 128 := by
  simp [batchRecord_singleton, length_leBytes, zeros]

/-- The record of one fault is one store on its way, where its line at the save area is writable. -/
theorem State.raise_page_stores {s : State} {c : Cause} {pa : Nat} (hu : s.ply.supervisor = false) (hg : c.given = true)
    (hp : c.isPage = true) (h21 : c.code ≠ 0x21) (hr : s.range s.ply.tenant .write (s.ply.ssave + 0x300) 128 = .ok [(pa, 128)])
    (hpa : pa % 128 = 0) :
    ∃ q : PendingStore, (s.raise c).stores = s.stores ++ [q] ∧ q.pa = pa ∧ q.core = s.ply.core ∧ q.data = batchRecord [c] := by
  obtain ⟨u, hcharged, h⟩ := State.raise_page hu hg hp h21 [c]
  have hsame := hcharged.sameTables.trans
    (SameTables.of_ply u { s.ply.deliver s.issue.first s.issue.words c with runSince := s.now })
  obtain ⟨q, hq, hrest⟩ := State.writeVirt_stores_of_line (core := s.ply.core) (length_batchRecord_singleton c)
    ((hsame.range_eq ..).trans hr) hpa
  refine ⟨q, ?_, hrest⟩
  rw [h, hq]
  exact congrArg (· ++ [q]) hcharged.stores

/-! ## The check of one access (R181) -/

theorem lookup_map_of_mem {β : Type} (f : Nat → β) {l : List Nat} {g : Nat} (h : g ∈ l) :
    (l.map fun g => (g, f g)).lookup g = some (f g) := by
  induction l with
  | nil => cases h
  | cons a l ih =>
    by_cases ha : g = a
    · subst ha
      exact List.lookup_cons_self
    · have hl : g ∈ l := (List.mem_cons.mp h).resolve_left ha
      simpa [List.lookup_cons, beq_eq_false_iff_ne.mpr ha] using ih hl

/-- The pages of a set of addresses translate each of them as its own page does. -/
theorem State.pages_translate {s : State} {tenant : Nat} {acc : Access} {vas : List DWord} {va : DWord} (h : va ∈ vas)
    (lane : Nat) : (s.pages tenant acc vas).translate va lane = s.translate tenant acc va lane := by
  have hlookup (l : List DWord) (hl : va ∈ l) :
      (s.pages tenant acc l).lookup (va.toNat / 65536) = some (s.page tenant acc (va.toNat / 65536)) :=
    lookup_map_of_mem _ (List.mem_eraseDups.mpr (List.mem_map.mpr ⟨va, hl, rfl⟩))
  unfold State.translate Pages.translate
  rw [hlookup vas h, hlookup [va] (List.mem_singleton.mpr rfl)]

theorem State.pages_check {s : State} {tenant : Nat} {acc : Access} {vas : List DWord} {va : DWord} (h : va ∈ vas)
    (n lane : Nat) : (s.pages tenant acc vas).check n va lane = s.checkGlobal tenant acc n va lane := by
  unfold State.checkGlobal Pages.check
  rw [State.pages_translate h, State.pages_translate (List.mem_singleton.mpr rfl)]

theorem translate_of_page_error {s : State} {tenant code sub : Nat} {acc : Access} {va : DWord} (lane : Nat)
    (h : s.page tenant acc (va.toNat / 65536) = .error (code, sub)) :
    s.translate tenant acc va lane = .error (cause code sub va lane) := by
  simp [State.translate, State.pages, Pages.translate, List.eraseDups_cons, h]

section
variable {s : State} {tenant n lane : Nat} {acc : Access} {va : DWord}

theorem State.checkGlobal_of_not_canonical (h : ¬canonical va) :
    s.checkGlobal tenant acc n va lane = .error (noncanon va lane) := by
  have h0 : va.toNat / 2 ^ 60 ≠ 0 := by
    unfold canonical at h
    omega
  simp only [State.checkGlobal, Pages.check, bne_iff_ne, h0, ne_eq, not_false_eq_true, if_true]

theorem State.checkGlobal_of_canonical (h : canonical va) : s.checkGlobal tenant acc n va lane =
    if va.toNat % n = 0 then s.translate tenant acc va lane else .error (align va lane) := by
  have h0 : va.toNat / 2 ^ 60 = 0 := by
    unfold canonical at h
    omega
  simp only [State.checkGlobal, Pages.check, bne_iff_ne, h0, ne_eq, not_true_eq_false, if_false, ite_not]
  rfl

end

theorem State.checkGlobal_of_reaches {s : State} {acc : Access} {n lane pa : Nat} {va : DWord}
    (h : Reaches s acc n va lane pa) : s.checkGlobal s.ply.tenant acc n va lane = .ok pa := by
  obtain ⟨hc, hn, ht⟩ := h
  rw [State.checkGlobal_of_canonical hc, if_pos hn, ht]

/-! ## The lowest lane whose check fails (R181) -/

/-- The lanes of an access report the cause of the lowest lane that fails. -/
theorem State.globalLanes_of_failsFirst {s : State} {acc : Access} {n k : Nat} {lanes : List Nat} {ea : Nat → DWord} {e : Cause}
    (hl : lanes.Pairwise (· < ·)) (hk : FailsFirst s acc n lanes ea k)
    (he : s.checkGlobal s.ply.tenant acc n (ea k) k = .error e) : ∃ all, s.globalLanes acc n lanes ea = .error (e, all) := by
  obtain ⟨hmem, hbefore⟩ := hk
  obtain ⟨l₁, l₂, rfl⟩ := List.append_of_mem hmem
  have hcheck {i : Nat} (hi : i ∈ l₁ ++ k :: l₂) : Pages.check (s.pages s.ply.tenant acc ((l₁ ++ k :: l₂).map ea)) n (ea i) i =
      s.checkGlobal s.ply.tenant acc n (ea i) i := State.pages_check (List.mem_map_of_mem hi) n i
  have hpass {i : Nat} (hi : i ∈ l₁) : ∃ pa, s.checkGlobal s.ply.tenant acc n (ea i) i = .ok pa := by
    have hlt : i < k := (List.pairwise_append.mp hl).2.2 i hi k List.mem_cons_self
    obtain ⟨pa, hpa⟩ := hbefore i (List.mem_append_left _ hi) hlt
    exact ⟨pa, State.checkGlobal_of_reaches hpa⟩
  unfold State.globalLanes
  dsimp only
  rw [List.map_append, List.filterMap_append, List.map_cons, List.filterMap_cons, hcheck hmem, he,
    List.filterMap_eq_nil_iff.mpr]
  · exact ⟨_, rfl⟩
  · intro x hx
    obtain ⟨i, hi, rfl⟩ := List.mem_map.mp hx
    obtain ⟨pa, hpa⟩ := hpass hi
    rw [hcheck (List.mem_append_left _ hi), hpa]

/-- The traps of an access that raises the first failing lane's cause. -/
theorem accessTraps_of_raise {i : Instr} {s : State} {acc : Access} {n : Nat} {lanes : List Nat} {ea : Nat → DWord}
    (h : ∀ k e, FailsFirst s acc n lanes ea k → s.checkGlobal s.ply.tenant acc n (ea k) k = .error e →
      ∃ all, exec i s = .next (s.raise e all)) : AccessTraps i s acc n lanes ea := by
  intro k hk hu
  refine ⟨fun hc => ?_, fun hc hn => ?_, fun hc hn code sub hcode _ hpage => ?_⟩
  · obtain ⟨all, hall⟩ := h k _ hk (State.checkGlobal_of_not_canonical hc)
    exact ⟨_, hall, State.raise_traps hu rfl rfl (show (9 : Nat) ≠ 0x21 by decide) all⟩
  · obtain ⟨all, hall⟩ := h k _ hk ((State.checkGlobal_of_canonical hc).trans (if_neg hn))
    exact ⟨_, hall, State.raise_traps hu rfl rfl (show (8 : Nat) ≠ 0x21 by decide) all⟩
  · obtain ⟨all, hall⟩ := h k _ hk
      ((State.checkGlobal_of_canonical hc).trans ((if_pos hn).trans (translate_of_page_error k hpage)))
    exact ⟨_, hall, State.raise_page_enters _ hcode hu all⟩

/-! ## Addresses and lanes as the rules give them (R90, R181, R186) -/

theorem scaleOf_eq (c : BitVec 2) : scaleOf c = scale c := by
  revert c
  decide

theorem sizeOf'_eq {z : Nat} (h : z ≤ 5) : sizeOf' z = bytesOf z := by
  revert h
  revert z
  decide

theorem sizeRegs_eq (z : Nat) : sizeRegs z = registersOf z := by
  simp [sizeRegs, registersOf]

theorem State.disp_eq (s : State) : s.disp = BitVec.ofInt 64 (displacement s) := by
  unfold State.disp displacement
  cases s.issue.himm with
  | none => rfl
  | some h => rfl

theorem State.ea_eq (s : State) (p : BitVec 6) (x : BitVec 7) (c : BitVec 2) : s.ea p x c = laneAddress s p x c := by
  funext i
  unfold State.ea laneAddress State.index
  rw [BitVec.ofInt_add, BitVec.ofInt_mul, BitVec.ofInt_natCast, State.disp_eq, scaleOf_eq, ← BitVec.add_assoc]
  rfl

theorem State.eaS_eq (s : State) (p : BitVec 6) (i : BitVec 11) : s.eaS p i = scalarAddress s p i := by
  unfold State.eaS scalarAddress State.imm11
  cases s.issue.himm with
  | none => exact congrArg (fun k => s.S64 p + BitVec.ofInt 64 k) (BitVec.toInt_signExtend_of_le (x := i) (by decide))
  | some h => rfl

theorem Mask.has_and (m n : Mask) (i : Nat) : (m &&& n).has i = (m.has i && n.has i) := by
  simp [Mask.has]

theorem State.storeLanes_eq (s : State) : s.storeLanes = storingLanes s := by
  unfold State.storeLanes storingLanes activeLanes Mask.lanes State.counted' State.active
  rw [List.filter_filter]
  exact List.filter_congr fun i _ => (Mask.has_and ..).trans (Bool.and_comm ..)

theorem activeLanes_pairwise (s : State) : (activeLanes s).Pairwise (· < ·) := List.pairwise_lt_range.filter _
theorem storingLanes_pairwise (s : State) : (storingLanes s).Pairwise (· < ·) := (activeLanes_pairwise s).filter _

theorem State.checkRun_ready {s : State} {v : BitVec 7} {n : Nat} (h : RunReady s v n) (k : State) : s.checkRun v n k = k := by
  have hf : (decide (v.toNat ≤ 119) && decide (s.ply.vcount < v.toNat + n)) = false := by
    rw [Bool.and_eq_false_iff, decide_eq_false_iff_not, decide_eq_false_iff_not]
    obtain rfl | ⟨h, -⟩ := h
    · exact .inl (by decide)
    · exact .inr (Nat.not_lt.mpr h)
  unfold State.checkRun
  rw [hf]
  rfl

/-! ## The statement -/

section
variable {s : State} {v : BitVec 7} {p : BitVec 6} {x : BitVec 7} {c : BitVec 2} {z : BitVec 3} (q : BitVec 1)
  (hz : z.toNat ≤ 5) (hv : RunReady s v (registersOf z.toNat)) (hx : VectorReady s [x])
include hz hv hx

/-- A load whose vector fields can be read raises the cause of its lowest failing lane. -/
theorem execLd_of_failsFirst {k : Nat} {e : Cause}
    (hk : FailsFirst s .read (bytesOf z.toNat) (activeLanes s) (laneAddress s p x c) k)
    (he : s.checkGlobal s.ply.tenant .read (bytesOf z.toNat) (laneAddress s p x c k) k = .error e) :
    ∃ all, execLd v p x c z q s = .next (s.raise e all) := by
  have hne : (activeLanes s).isEmpty = false := List.isEmpty_eq_false_iff.mpr (List.ne_nil_of_mem hk.1)
  obtain ⟨all, hall⟩ := State.globalLanes_of_failsFirst (activeLanes_pairwise s) hk he
  refine ⟨all, ?_⟩
  unfold execLd
  rw [sizeRegs_eq, State.checkRun_ready hv, State.checkV_ready hx, show s.loadLanes = activeLanes s from rfl, sizeOf'_eq hz,
    State.ea_eq]
  simp only [hne, hall]
  rfl

theorem execSt_of_failsFirst {k : Nat} {e : Cause}
    (hk : FailsFirst s .write (bytesOf z.toNat) (storingLanes s) (laneAddress s p x c) k)
    (he : s.checkGlobal s.ply.tenant .write (bytesOf z.toNat) (laneAddress s p x c k) k = .error e) :
    ∃ all, execSt v p x c z q s = .next (s.raise e all) := by
  have hne : (storingLanes s).isEmpty = false := List.isEmpty_eq_false_iff.mpr (List.ne_nil_of_mem hk.1)
  obtain ⟨all, hall⟩ := State.globalLanes_of_failsFirst (storingLanes_pairwise s) hk he
  refine ⟨all, ?_⟩
  unfold execSt
  rw [sizeRegs_eq, State.checkRun_ready hv, State.checkV_ready hx, State.storeLanes_eq, sizeOf'_eq hz, State.ea_eq]
  simp only [hne, hall]
  rfl

end

theorem execLds_of_error {d p : BitVec 6} (q : BitVec 1) {z : BitVec 1} {i : BitVec 11} {s : State} {e : Cause}
    (h : s.checkGlobal s.ply.tenant .read (if z = 1 then 8 else 4) (scalarAddress s p i) 127 = .error e) :
    execLds d p q z i s = .next (s.raise e) := by
  unfold execLds
  simp only [State.eaS_eq, beq_iff_eq, h]
  rfl

theorem execSts_of_error {d p : BitVec 6} (q : BitVec 1) {z : BitVec 1} {i : BitVec 11} {s : State} {e : Cause}
    (h : s.checkGlobal s.ply.tenant .write (if z = 1 then 8 else 4) (scalarAddress s p i) 127 = .error e) :
    execSts d p q z i s = .next (s.raise e) := by
  unfold execSts
  simp only [State.eaS_eq, beq_iff_eq, h]
  rfl

theorem execFetchFault_page {code sub : Nat} {a : DWord} {s : State} (h : code = 0x0A ∨ code = 0x0B) :
    execFetchFault code sub a s = .next (s.raise (cause code sub a)) := by
  have h21 : (code == 0x21) = false := beq_eq_false_iff_ne.mpr (by omega)
  unfold execFetchFault
  rw [h21]
  rfl

/-- Settles O18: a fetch raises its page's cause, whose record is one store; an access raises the cause of its first lane
that fails, and each cause is delivered. -/
theorem accessFaults : Obligations.AccessFaults := by
  refine ⟨fun code sub a s hcode hsub ha hu => ?_, fun v p x c z q s hz hv hx => ⟨?_, ?_⟩, fun d p q z i s => ⟨?_, ?_⟩⟩
  · obtain ⟨henters, hmem⟩ := State.raise_page_enters (sub := sub) a hcode hu [cause code sub a]
    refine ⟨_, (exec_fetchFault code sub a s).trans (execFetchFault_page hcode), henters, hmem, fun pa hr hpa => ?_⟩
    obtain ⟨r, hstores, hrpa, hcore, hdata⟩ := State.raise_page_stores (c := cause code sub a) hu rfl (isPage_of_code hcode)
      (show code ≠ 0x21 by omega) hr hpa
    exact ⟨r, hstores, hrpa, hcore, hdata.trans (batchRecord_singleton _)⟩
  · exact accessTraps_of_raise fun k e hk he => (exec_ld v p x c z q s) ▸ execLd_of_failsFirst q hz hv hx hk he
  · exact accessTraps_of_raise fun k e hk he => (exec_st v p x c z q s) ▸ execSt_of_failsFirst q hz hv hx hk he
  · refine accessTraps_of_raise fun k e hk he => ⟨_, (exec_lds d p q z i s).trans (execLds_of_error q ?_)⟩
    exact List.mem_singleton.mp hk.1 ▸ he
  · refine accessTraps_of_raise fun k e hk he => ⟨_, (exec_sts d p q z i s).trans (execSts_of_error q ?_)⟩
    exact List.mem_singleton.mp hk.1 ▸ he

end Sys2Proof.Machine

/-!
END: the trailer's codes, the transfer that takes effect, and the divergence records that are popped (R86, R102, R158,
R160 to R163).
-/
namespace Sys2Proof.Machine
open Sys2Proof.Claim

theorem exec_endRun (w x y : BitVec 7) (s : State) : exec (.endRun w x y) s = execEndRun w x y s := rfl

/-! ## Words in bytes and masks in words (R7, R97) -/

theorem leNat_div_mod (l : List Byte) (j : Nat) : leNat l / 256 ^ j % 256 = (l.getD j 0).toNat := by
  induction j generalizing l with
  | zero =>
    cases l with
    | nil => rfl
    | cons b l =>
      have := b.isLt
      simp only [leNat, pow_zero, Nat.div_one, List.getD_cons_zero]
      omega
  | succ j ih =>
    cases l with
    | nil => simp [leNat]
    | cons b l =>
      have hb : (b.toNat + 256 * leNat l) / 256 = leNat l := by
        have := b.isLt
        omega
      rw [leNat, pow_succ', ← Nat.div_div_eq_div_mul, hb, ih, List.getD_cons_succ]

theorem extract_byte_toNat {w : Nat} (x : BitVec w) (j : Nat) :
    (x.extractLsb' (8 * j) 8).toNat = x.toNat / 256 ^ j % 256 := by
  rw [BitVec.extractLsb'_toNat, Nat.shiftRight_eq_div_pow, pow_mul]
  rfl

theorem extract_bytesWord (l : List Byte) {j : Nat} (hj : j < 4) : (bytesWord l).extractLsb' (8 * j) 8 = l.getD j 0 := by
  apply BitVec.eq_of_toNat_eq
  have h32 : (2 : Nat) ^ 32 = 256 ^ j * 256 ^ (4 - j) := by
    rw [← pow_add, Nat.add_sub_cancel' hj.le]
    norm_num
  rw [extract_byte_toNat, ← leNat_div_mod, bytesWord, BitVec.toNat_ofNat, h32, Nat.mod_mul_right_div_self]
  exact Nat.mod_mod_of_dvd _ (dvd_pow_self 256 (by omega))

theorem getD_slice (b : List Byte) (o : Nat) {n j : Nat} (hj : j < n) : (slice b o n).getD j 0 = b.getD (o + j) 0 := by
  simp [slice, List.getD_eq_getElem?_getD, List.getElem?_take_of_lt hj]

theorem leBytes_eq_map (n x : Nat) : leBytes n x = (List.range n).map fun k => BitVec.ofNat 8 (x / 256 ^ k) := by
  induction n generalizing x with
  | zero => rfl
  | succ n ih =>
    rw [leBytes, ih, List.range_succ_eq_map, List.map_cons, List.map_map, pow_zero, Nat.div_one]
    refine congrArg _ (List.map_congr_left fun k _ => ?_)
    rw [Function.comp_apply, pow_succ', Nat.div_div_eq_div_mul]

theorem wordBytes_eq (w : Word) : wordBytes w = (List.range 4).map fun k => w.extractLsb' (8 * k) 8 := by
  rw [wordBytes, leBytes_eq_map]
  refine List.map_congr_left fun k _ => BitVec.eq_of_toNat_eq ?_
  rw [extract_byte_toNat, BitVec.toNat_ofNat]

theorem Mask.word_eq_extract (m : Mask) (k : Nat) : Mask.word m k = m.extractLsb' (32 * k) 32 := by
  apply BitVec.eq_of_toNat_eq
  rw [Mask.word, BitVec.toNat_ofNat, BitVec.extractLsb'_toNat, Nat.shiftRight_eq_div_pow]

/-- Lane i of a mask stands in bit i mod 32 of word i / 32. -/
theorem Mask.has_eq_word (m : Mask) (i : Nat) : m.has i = (Mask.word m (i / 32)).getLsbD (i % 32) := by
  rw [Mask.word_eq_extract, BitVec.getLsbD_extractLsb', Nat.div_add_mod, decide_eq_true (Nat.mod_lt i (by decide)), Bool.true_and]
  rfl

/-- A mask made of three words, each of them in a list of words. -/
theorem Mask.has_ofWords (g : Nat → Word) (o : Nat) {i : Nat} (hi : i < 96) :
    (Mask.ofWords (g o) (g (o + 1)) (g (o + 2))).has i = (g (o + i / 32)).getLsbD (i % 32) := by
  rw [Mask.has_eq_word]
  have h3 : i / 32 = 0 ∨ i / 32 = 1 ∨ i / 32 = 2 := by omega
  obtain h | h | h := h3 <;> rw [h]
  · rw [Mask.ofWords_word0, Nat.add_zero]
  · rw [Mask.ofWords_word1]
  · rw [Mask.ofWords_word2]

theorem loWord_eq (x : DWord) : loWord x = x.extractLsb' 0 32 := by
  simp [loWord, BitVec.extractLsb']

theorem hiWord_eq (x : DWord) : hiWord x = x.extractLsb' 32 32 := by
  simp [hiWord, BitVec.extractLsb', BitVec.truncate, BitVec.setWidth, BitVec.toNat_ushiftRight]

/-- A record is pushed as the rules lay it out (R102). -/
theorem recordWords_eq (target join : DWord) (lanes : Mask) (n : Nat) :
    recordWords target join lanes lanes (some n) = pushedWords target join lanes n := by
  simp [recordWords, pushedWords, loWord_eq, hiWord_eq, Mask.word_eq_extract]

/-! ## The pops (R102, R163) -/

theorem Path.isFree_iff (q : Path) : q.isFree = true ↔ q.member = 0 := by
  rw [Path.isFree, beq_iff_eq]

/-- Each word that a pop reads is memory's, or the one pushed where a program may have stored over it (R102). -/
theorem State.recordRead_word (s : State) (r : DivRecord) {k : Nat} (hk : k < 12) :
    RecordWord s r k ((s.recordRead r).getD k 0) := by
  unfold RecordWord State.recordRead
  dsimp only
  rw [show recordAt s.ply.ssave (s.ply.dstack.length - 1) =
    s.ply.ssave + 0x400 + BitVec.ofNat 64 (48 * (s.ply.dstack.length - 1)) from rfl]
  cases s.readVirt s.ply.core s.ply.tenant (s.ply.ssave + 0x400 + BitVec.ofNat 64 (48 * (s.ply.dstack.length - 1))) 48 with
  | error e => rfl
  | ok b =>
    have hnew (j : Nat) (hj : j < 4) : (bytesWord (slice b (4 * k) 4)).extractLsb' (8 * j) 8 = b.getD (4 * k + j) 0 :=
      (extract_bytesWord _ hj).trans (getD_slice b (4 * k) hj)
    have hget (f : Nat → Word) : ((List.range 12).map f).getD k 0 = f k := by
      simp [List.getD_eq_getElem?_getD, hk]
    dsimp only
    rw [hget]
    by_cases hb : r.base = s.ply.ssave
    · by_cases he : bytesWord (slice b (4 * k) 4) = r.words.getD k 0
      · simp only [he, bne_iff_ne, hb, ne_eq, not_true_eq_false, if_false, BEq.rfl, if_true]
        exact .inr ⟨trivial, trivial⟩
      · simp only [bne_iff_ne, hb, ne_eq, not_true_eq_false, if_false, beq_iff_eq, he]
        split
        · exact .inl hnew
        · exact .inr ⟨trivial, rfl⟩
    · simp only [bne_iff_ne, ne_eq, hb, not_false_eq_true, if_true]
      exact .inl hnew

/-- The path that the words of a record make (R102, R163). -/
def poppedPath (g : Nat → Word) (now : Nat) : Path :=
  { Path.free with
    pc := pc60 (pair (g 0) (g 1))
    member := Mask.ofWords (g 4) (g 5) (g 6)
    active := Mask.ofWords (g 7) (g 8) (g 9)
    frame := if (g 10).toNat % 256 == 0xFF then none else some ((g 10).toNat % 256)
    since := now }

theorem State.popRecord_of_nil {s : State} (h : s.ply.dstack = []) (k : Nat) : s.popRecord k = s := by
  unfold State.popRecord
  rw [h]
  rfl

theorem State.popRecord_of_append {s : State} {l : List DivRecord} {r : DivRecord} (h : s.ply.dstack = l ++ [r]) (k : Nat) :
    s.popRecord k = { s with
      ply := { s.ply.setPath k (poppedPath (fun n => (s.recordRead r).getD n 0) s.now) with dstack := l } } := by
  have h₁ : s.ply.dstack.getLast? = some r := by rw [h, List.getLast?_concat]
  have h₂ : s.ply.dstack.dropLast = l := by rw [h, List.dropLast_concat]
  unfold State.popRecord
  rw [h₁]
  dsimp only
  rw [h₂]
  rfl

theorem Ply.setPath_frame (p : Ply) (k : Nat) (q : Path) :
    p.setPath k q = { p with path0 := (p.setPath k q).path0, path1 := (p.setPath k q).path1 } := by
  unfold Ply.setPath
  split <;> rfl

theorem Ply.setPath_path_sub (p : Ply) {k : Nat} (hk : k ≤ 1) (q : Path) :
    (p.setPath k q).path (1 - k) = p.path (1 - k) := by
  obtain rfl | rfl : k = 0 ∨ k = 1 := by omega
  · rfl
  · rfl

/-- A slot takes the newest record where it is free (R163). -/
theorem State.popsInto (s : State) {k : Nat} (hk : k ≤ 1) :
    PopsInto k s (if (s.ply.path k).isFree then s.popRecord k else s) := by
  refine ⟨fun h => ?_, fun l r hm hl => ?_⟩
  · split
    · next hfree =>
      obtain hm | hd := h
      · exact absurd ((Path.isFree_iff _).mp hfree) hm
      · exact State.popRecord_of_nil hd k
    · rfl
  · have hpath : (({ s.ply.setPath k (poppedPath (fun n => (s.recordRead r).getD n 0) s.now) with dstack := l } : Ply).path k) =
        poppedPath (fun n => (s.recordRead r).getD n 0) s.now := Ply.setPath_path ..
    rw [if_pos ((Path.isFree_iff _).mpr hm), State.popRecord_of_append hl]
    refine ⟨fun n => (s.recordRead r).getD n 0, fun n hn => State.recordRead_word s r hn, ?_⟩
    dsimp only
    rw [hpath]
    refine ⟨rfl, fun i hi => ⟨?_, ?_⟩, ?_, rfl, rfl, rfl, Ply.setPath_path_sub s.ply hk _, ?_⟩
    · exact Mask.has_ofWords (fun n => (s.recordRead r).getD n 0) 4 hi
    · exact Mask.has_ofWords (fun n => (s.recordRead r).getD n 0) 7 hi
    · simp only [poppedPath, beq_iff_eq]
    · rw [Ply.setPath_frame]

theorem State.pops_popRecords (u : State) : Pops u u.popRecords :=
  ⟨_, State.popsInto u (k := 0) (by decide), State.popsInto _ (k := 1) (by decide)⟩

/-- The pops change of the ply only its paths and its records. -/
theorem State.popRecord_frame (s : State) (k : Nat) : (s.popRecord k).ply = { s.ply with
    path0 := (s.popRecord k).ply.path0, path1 := (s.popRecord k).ply.path1, dstack := (s.popRecord k).ply.dstack } := by
  unfold State.popRecord
  split
  · rfl
  · dsimp only
    rw [Ply.setPath_frame]

theorem State.popRecords_frame (s : State) : s.popRecords.ply = { s.ply with
    path0 := s.popRecords.ply.path0, path1 := s.popRecords.ply.path1, dstack := s.popRecords.ply.dstack } := by
  unfold State.popRecords
  dsimp only
  split <;> split
  · rw [State.popRecord_frame, State.popRecord_frame]
  · exact State.popRecord_frame ..
  · exact State.popRecord_frame ..
  · rfl

theorem RunOver.popRecords {s u : State} (h : RunOver s u) : RunOver s u.popRecords := by
  unfold RunOver
  rw [State.popRecords_frame]
  exact h

/-! ## The results that are awaited (R86, R104) -/

theorem Pending.named_iff (s : State) (r : Pending) (c : BitVec 7) :
    r.named s.ply.tiles.length c = true ↔ namesResult s r c := by
  unfold Pending.named namesResult
  dsimp only
  split
  · next h =>
    simp only [List.contains_iff_mem, h, true_and, Nat.not_le.mpr (show c.toNat < 120 by omega), false_and, or_false,
      show c.toNat ≠ 126 by omega]
  · next h =>
    split
    · next h' =>
      simp only [List.any_eq_true, Bool.and_eq_true, decide_eq_true_eq, beq_iff_eq, h, h', false_and, false_or, true_and,
        show 120 ≤ c.toNat by omega, show c.toNat ≠ 126 by omega, or_false]
    · next h' =>
      simp only [Bool.and_eq_true, beq_iff_eq, Bool.not_eq_true', List.isEmpty_eq_false_iff, h, h', false_and, and_false,
        false_or]

theorem State.mem_awaitedNow {s : State} {codes : List (BitVec 7)} {n : Nat} : n ∈ s.awaitedNow codes ↔
    ∃ r ∈ s.pending s.ply, r.seq = n ∧ ∃ c ∈ codes, (r.slot = s.ply.slot ∨ c = 126) ∧ namesResult s r c := by
  simp only [State.awaitedNow, List.mem_filterMap, Option.ite_none_right_eq_some, Option.some.injEq, List.any_eq_true,
    Bool.and_eq_true, Bool.or_eq_true, beq_iff_eq, Pending.named_iff]
  refine exists_congr fun r => and_congr_right fun _ => and_comm

/-- The unit's own progress changes no pending result. -/
theorem State.done_awaitedNow (s : State) (codes : List (BitVec 7)) : s.done.awaitedNow codes = s.awaitedNow codes := by
  unfold State.awaitedNow State.pending State.mtxOf State.pathOf
  simp only [State.done_ply, Ply.advance_slot, Ply.advance_tiles, Ply.advance_lsq, Ply.advance_hubq, Ply.advance_core,
    Ply.advance_uid]
  rfl

/-- A path that awaits what awaitedNow gives awaits what the codes name. -/
theorem awaitsNamed_of_eq {s : State} {codes : List (BitVec 7)} {q : Path} (h : q.awaited = s.awaitedNow codes) :
    AwaitsNamed s codes q := fun n => by
  rw [h]
  exact State.mem_awaitedNow

/-! ## Join frames (R160, R162) -/

/-- A state with another issuing ply, and a ply with other records or frames. -/
def State.withPly (s : State) (p : Ply) : State := { s with ply := p }
def Ply.withRecords (p : Ply) (l : List DivRecord) : Ply := { p with dstack := l }
def Ply.withFrames (p : Ply) (l : List Frame) : Ply := { p with frames := l }

/-- The search from n on finds the lowest free index, where it may go on as long as there are frames. -/
theorem lowestFree_freeFrame {l : List Frame} (fuel n : Nat) (hn : ∀ m, m < n → ∃ g ∈ l, g.index = m)
    (hl : l.length ≤ fuel + n) : lowestFree l (freeFrame l fuel n) := by
  induction fuel generalizing n with
  | zero =>
    refine ⟨fun g hg he => ?_, hn⟩
    have hsub : List.range (n + 1) ⊆ l.map Frame.index := fun m hm => by
      obtain hm | rfl := Nat.lt_succ_iff_lt_or_eq.mp (List.mem_range.mp hm)
      · exact List.mem_map.mpr (hn m hm)
      · exact List.mem_map.mpr ⟨g, hg, he⟩
    have hle := (List.subperm_of_subset List.nodup_range hsub).length_le
    rw [List.length_range, List.length_map] at hle
    omega
  | succ fuel ih =>
    unfold freeFrame
    split
    · next h =>
      obtain ⟨g, hg, he⟩ := List.any_eq_true.mp h
      refine ih (n + 1) (fun m hm => ?_) (by omega)
      obtain hm | rfl := Nat.lt_succ_iff_lt_or_eq.mp hm
      · exact hn m hm
      · exact ⟨g, hg, beq_iff_eq.mp he⟩
    · next h => exact ⟨fun g hg he => h (List.any_eq_true.mpr ⟨g, hg, beq_iff_eq.mpr he⟩), hn⟩

section
variable {p : Ply} {f : Frame}

theorem Ply.join_of_none (h : p.cur.frame = none) : p.join = p := by
  unfold Ply.join
  simp only [h]

/-- The half that arrives second goes on at the join with the lanes of both. -/
theorem Ply.join_of_parked (h : p.cur.frame = some f.index) (hf : p.frames.find? (fun g => g.index == f.index) = some f)
    (hp : f.parked = true) : p.join = (p.setCur { p.cur with
      pc := f.join, member := p.cur.member ||| f.parkedMember, active := p.cur.active ||| f.parkedActive
      frame := f.outer }).withFrames (p.frames.filter fun g => g.index != f.index) := by
  unfold Ply.join
  simp only [h, hf, hp, if_true]
  rfl

/-- A frame with a half parked in it. -/
def Frame.park (q : Path) (g : Frame) : Frame := { g with parked := true, parkedMember := q.member, parkedActive := q.active }

theorem Ply.join_of_not_parked (h : p.cur.frame = some f.index)
    (hf : p.frames.find? (fun g => g.index == f.index) = some f) (hp : f.parked = false) :
    p.join = (p.setCur Path.free).withFrames
      (p.frames.map fun g => if g.index == f.index then g.park p.cur else g) := by
  unfold Ply.join
  simp only [h, hf, hp, Bool.false_eq_true, if_false]
  rfl

end

/-- A change of the frames of one index leaves the others in the list. -/
theorem mem_map_index {l : List Frame} {n : Nat} {h : Frame → Frame} (hh : ∀ g, (h g).index = g.index) {g : Frame}
    (hg : g.index ≠ n) : (g ∈ l.map fun g => if g.index == n then h g else g) ↔ g ∈ l := by
  rw [List.mem_map]
  constructor
  · rintro ⟨x, hx, rfl⟩
    by_cases hn : x.index = n
    · rw [if_pos (beq_iff_eq.mpr hn), hh] at hg
      exact absurd hn hg
    · rw [if_neg (mt beq_iff_eq.mp hn)]
      exact hx
  · exact fun hl => ⟨g, hl, if_neg (mt beq_iff_eq.mp hg)⟩

/-! ## The transfer takes effect (R158, R160 to R162) -/

/-- The path awaits what its trailer names, and its transfer is spent. -/
def Path.awaits (q : Path) (awaited : List Nat) (now : Nat) : Path :=
  { q with awaited := awaited, transfer := .none, since := now, runClass := none }

/-- What the decided transfer does to a state whose issuing path ends its run. -/
def State.effect (s : State) (codes : List (BitVec 7)) (tr : Transfer) : State :=
  let q := s.path.awaits (s.awaitedNow codes) s.now
  let u : State := { s with ply := s.ply.setCur q }
  match tr with
  | .none => u
  | .goto a => { u with ply := u.ply.setCur { q with pc := a } }
  | .split t a j => u.split t a j (s.awaitedNow codes)
  | .join => { u with ply := u.ply.join }

theorem State.withPly_ply (s : State) (p : Ply) : (s.withPly p).ply = p := rfl
theorem State.withPly_withPly (s : State) (p q : Ply) : (s.withPly p).withPly q = s.withPly q := rfl

/-- The run of the issuing ply is over: no position, no latches (R88). -/
def State.runEnded (s : State) : State := { s with ply := { s.ply with running := false, pos := 0, latches := [] } }

theorem State.endOfRun_eq (s : State) (codes : List (BitVec 7)) :
    s.endOfRun codes = (s.effect codes s.path.transfer).runEnded.popRecords := rfl

/-- The issuing ply before its transfer takes effect: the words count, and the path awaits what the codes name. -/
def State.awaiting (s : State) (codes : List (BitVec 7)) : Ply :=
  s.done.ply.setCur (s.done.path.awaits (s.done.awaitedNow codes) s.done.now)

section
variable (s : State) (codes : List (BitVec 7))

theorem State.awaiting_slot : (s.awaiting codes).slot = s.ply.slot := by
  rw [State.awaiting, Ply.setCur_slot, State.done_ply, Ply.advance_slot]

theorem State.awaiting_other : (s.awaiting codes).other = s.ply.other := by
  rw [Ply.other, State.awaiting_slot, Ply.other]

/-- The path that awaits: after the trailer, with its lanes and its frame. -/
theorem State.awaiting_cur : (s.awaiting codes).cur = { s.path with
    pc := wordsOn s s.issue.words, awaited := s.awaitedNow codes, transfer := .none
    hprio := (s.awaiting codes).cur.hprio, since := s.now, runClass := none } := by
  rw [State.awaiting, Ply.setCur_cur, State.done_awaitedNow, show s.done.path = (s.ply.advance s.issue).cur from rfl,
    Ply.advance_cur]
  rfl

theorem State.awaiting_path_other : (s.awaiting codes).path s.ply.other = s.ply.path s.ply.other := by
  have ho : s.done.ply.other = s.ply.other := by
    rw [Ply.other, State.done_ply, Ply.advance_slot, Ply.other]
  rw [State.awaiting, ← ho, Ply.setCur_other, ho]
  exact Ply.advance_other ..

/-- Beside its paths, the ply that awaits is the one that issued, after its unit. -/
theorem State.awaiting_frame : s.awaiting codes = { s.ply with
    path0 := (s.awaiting codes).path0, path1 := (s.awaiting codes).path1, pos := s.ply.pos + s.issue.words
    yc := s.ply.yc + BitVec.ofNat 14 s.issue.words } := by
  rw [State.awaiting, Ply.setCur_frame, State.done_ply, Ply.advance_frame]

theorem State.awaiting_frames : (s.awaiting codes).frames = s.ply.frames := by rw [State.awaiting_frame]
theorem State.awaiting_dstack : (s.awaiting codes).dstack = s.ply.dstack := by rw [State.awaiting_frame]

end

/-- The state between the transfer and the pops, its run not yet marked as over. -/
def State.transferred (s : State) (codes : List (BitVec 7)) : State := s.done.effect codes s.path.transfer

section
variable (s : State) (codes : List (BitVec 7))

theorem State.done_transfer : s.done.path.transfer = s.path.transfer := by
  rw [show s.done.path = (s.ply.advance s.issue).cur from rfl, Ply.advance_cur]
  rfl

theorem State.done_endOfRun : s.done.endOfRun codes = (s.transferred codes).runEnded.popRecords := by
  rw [State.endOfRun_eq, State.done_transfer, State.transferred]

variable {s}

theorem State.transferred_of_none (h : s.path.transfer = .none) :
    s.transferred codes = s.withPly (s.awaiting codes) := by
  rw [State.transferred, h]
  rfl

theorem State.transferred_of_goto {a : DWord} (h : s.path.transfer = .goto a) :
    s.transferred codes = s.withPly ((s.awaiting codes).setCur { (s.awaiting codes).cur with pc := a }) := by
  rw [State.transferred, h, State.awaiting, Ply.setCur_cur]
  rfl

theorem State.transferred_of_join (h : s.path.transfer = .join) :
    s.transferred codes = s.withPly (s.awaiting codes).join := by
  rw [State.transferred, h]
  rfl

theorem State.transferred_of_split {t : Mask} {a j : DWord} (h : s.path.transfer = .split t a j) :
    s.transferred codes = (s.withPly (s.awaiting codes)).split t a j (s.awaitedNow codes) := by
  rw [State.transferred, h, ← State.done_awaitedNow]
  rfl

end

/-! ### A split -/

/-- The half that goes on after the trailer (R161). -/
def Path.fallHalf (q : Path) (taken : Mask) (n : Nat) : Path :=
  { q with member := q.member &&& ~~~taken, active := q.active &&& ~~~taken, frame := some n }
/-- The half that goes to the target (R161). -/
def takenHalf (taken : Mask) (target : DWord) (n : Nat) (awaited : List Nat) (now : Nat) : Path :=
  { Path.free with pc := target, member := taken, active := taken, frame := some n, awaited := awaited, since := now }
/-- The ply of a split, the taken half left out. -/
def Ply.fallSplit (p : Ply) (taken : Mask) (join : DWord) (n : Nat) : Ply :=
  (p.setCur (p.cur.fallHalf taken n)).withFrames (p.frames ++ [⟨n, join, p.cur.member, false, 0, 0, p.cur.frame⟩])

theorem Ply.fallSplit_slot (p : Ply) (taken : Mask) (join : DWord) (n : Nat) : (p.fallSplit taken join n).slot = p.slot :=
  Ply.setCur_slot ..
theorem Ply.fallSplit_cur (p : Ply) (taken : Mask) (join : DWord) (n : Nat) :
    (p.fallSplit taken join n).cur = p.cur.fallHalf taken n := Ply.setCur_cur ..
theorem Ply.fallSplit_path_other (p : Ply) (taken : Mask) (join : DWord) (n : Nat) :
    (p.fallSplit taken join n).path p.other = p.path p.other := Ply.setCur_other ..
/-- Beside its paths and its frames, the ply of a split is the one before. -/
theorem Ply.fallSplit_frame (p : Ply) (taken : Mask) (join : DWord) (n : Nat) : p.fallSplit taken join n = { p with
    path0 := (p.fallSplit taken join n).path0, path1 := (p.fallSplit taken join n).path1
    frames := p.frames ++ [⟨n, join, p.cur.member, false, 0, 0, p.cur.frame⟩] } := by
  unfold Ply.fallSplit Ply.withFrames
  rw [Ply.setCur_frame]

/-- The taken half stands in the other slot where that is free. -/
theorem State.split_of_free {s : State} (h : (s.ply.path s.ply.other).member = 0) (t : Mask) (a j : DWord) (l : List Nat) :
    s.split t a j l = s.withPly ((s.ply.fallSplit t j (freeFrame s.ply.frames 95 0)).setPath s.ply.other
      (takenHalf t a (freeFrame s.ply.frames 95 0) l s.now)) := by
  unfold State.split
  dsimp only
  rw [if_pos ((Path.isFree_iff _).mpr h)]
  rfl

/-- It is pushed where the other slot holds a path. -/
theorem State.split_of_path {s : State} (h : (s.ply.path s.ply.other).member ≠ 0) (t : Mask) (a j : DWord) (l : List Nat) :
    s.split t a j l = (s.withPly (s.ply.fallSplit t j (freeFrame s.ply.frames 95 0))).pushRecord
      (pushedWords a j t (freeFrame s.ply.frames 95 0)) := by
  unfold State.split
  dsimp only
  rw [if_neg (mt (Path.isFree_iff _).mp h), recordWords_eq]
  rfl

/-- A pushed record is stored in the save area, and kept beside it (R102, R249). -/
theorem State.pushRecord_eq (s : State) (ws : List Word) : s.pushRecord ws =
    (s.writeVirt 0 s.ply.core s.ply.tenant (s.ply.ssave + 0x400 + BitVec.ofNat 64 (48 * s.ply.dstack.length))
        (ws.flatMap fun w => (List.range 4).map fun k => w.extractLsb' (8 * k) 8)).withPly
      (s.ply.withRecords (s.ply.dstack ++ [⟨s.ply.ssave, ws⟩])) := by
  unfold State.pushRecord
  dsimp only
  rw [State.writeVirt_ply, show wordBytes = fun w : Word => (List.range 4).map fun k => w.extractLsb' (8 * k) 8 from
    funext wordBytes_eq]
  rfl

section
variable {s : State} (codes : List (BitVec 7)) {t : Mask} {a j : DWord} (h : s.path.transfer = .split t a j)
include h

theorem State.transferred_of_split_free (ho : (s.ply.path s.ply.other).member = 0) :
    s.transferred codes = s.withPly (((s.awaiting codes).fallSplit t j (freeFrame s.ply.frames 95 0)).setPath s.ply.other
      (takenHalf t a (freeFrame s.ply.frames 95 0) (s.awaitedNow codes) s.now)) := by
  rw [← State.awaiting_path_other s codes, ← State.awaiting_other s codes] at ho
  rw [State.transferred_of_split codes h, State.split_of_free (s := s.withPly (s.awaiting codes)) ho,
    ← State.awaiting_frames s codes, ← State.awaiting_other s codes]
  rfl

theorem State.transferred_of_split_path (ho : (s.ply.path s.ply.other).member ≠ 0) :
    s.transferred codes =
      ((s.withPly ((s.awaiting codes).fallSplit t j (freeFrame s.ply.frames 95 0))).writeVirt 0 s.ply.core s.ply.tenant
        (s.ply.ssave + 0x400 + BitVec.ofNat 64 (48 * s.ply.dstack.length))
        ((pushedWords a j t (freeFrame s.ply.frames 95 0)).flatMap fun w =>
          (List.range 4).map fun k => w.extractLsb' (8 * k) 8)).withPly
      (((s.awaiting codes).fallSplit t j (freeFrame s.ply.frames 95 0)).withRecords
        (s.ply.dstack ++ [⟨s.ply.ssave, pushedWords a j t (freeFrame s.ply.frames 95 0)⟩])) := by
  have hcore : ((s.awaiting codes).fallSplit t j (freeFrame s.ply.frames 95 0)).core = s.ply.core := by
    rw [Ply.fallSplit_frame, State.awaiting_frame]
  have htenant : ((s.awaiting codes).fallSplit t j (freeFrame s.ply.frames 95 0)).tenant = s.ply.tenant := by
    rw [Ply.fallSplit_frame, State.awaiting_frame]
  have hssave : ((s.awaiting codes).fallSplit t j (freeFrame s.ply.frames 95 0)).ssave = s.ply.ssave := by
    rw [Ply.fallSplit_frame, State.awaiting_frame]
  have hdstack : ((s.awaiting codes).fallSplit t j (freeFrame s.ply.frames 95 0)).dstack = s.ply.dstack := by
    rw [Ply.fallSplit_frame, State.awaiting_frame]
  rw [← State.awaiting_path_other s codes, ← State.awaiting_other s codes] at ho
  rw [State.transferred_of_split codes h, State.split_of_path (s := s.withPly (s.awaiting codes)) ho, State.withPly_ply,
    State.awaiting_frames, State.pushRecord_eq, State.withPly_withPly, State.withPly_ply, hcore, htenant, hssave, hdstack]

end

/-! ### What every transfer leaves of the ply -/

theorem Ply.join_frame (p : Ply) : p.join = { p with
    path0 := p.join.path0, path1 := p.join.path1, frames := p.join.frames } := by
  unfold Ply.join
  dsimp only
  split
  · rfl
  · split
    · rfl
    · split <;> rw [Ply.setCur_frame]

theorem State.split_ply_frame (s : State) (t : Mask) (a j : DWord) (l : List Nat) : (s.split t a j l).ply = { s.ply with
    path0 := (s.split t a j l).ply.path0, path1 := (s.split t a j l).ply.path1, frames := (s.split t a j l).ply.frames
    dstack := (s.split t a j l).ply.dstack } := by
  by_cases h : (s.ply.path s.ply.other).member = 0
  · rw [State.split_of_free h, State.withPly_ply, Ply.setPath_frame, Ply.fallSplit_frame]
  · rw [State.split_of_path h, State.pushRecord_eq, State.withPly_ply, State.withPly_ply, Ply.withRecords, Ply.fallSplit_frame]

/-- A transfer that takes effect changes of the ply its paths, its frames and its records. -/
theorem State.effect_frame (s : State) (codes : List (BitVec 7)) (tr : Transfer) : (s.effect codes tr).ply = { s.ply with
    path0 := (s.effect codes tr).ply.path0, path1 := (s.effect codes tr).ply.path1, frames := (s.effect codes tr).ply.frames
    dstack := (s.effect codes tr).ply.dstack } := by
  unfold State.effect
  dsimp only
  cases tr with
  | none =>
    dsimp only
    rw [Ply.setCur_frame]
  | goto a =>
    dsimp only
    rw [Ply.setCur_frame, Ply.setCur_frame]
  | split t a j =>
    dsimp only
    rw [State.split_ply_frame]
    dsimp only
    rw [Ply.setCur_frame]
  | join =>
    dsimp only
    rw [Ply.join_frame, Ply.setCur_frame]

theorem State.transferred_runOver (s : State) (codes : List (BitVec 7)) : RunOver s (s.transferred codes).runEnded := by
  have h := State.effect_frame s.done codes s.path.transfer
  have hslot := congrArg Ply.slot h
  have hyc := congrArg Ply.yc h
  exact ⟨hslot.trans (Ply.advance_slot ..), rfl, rfl, rfl, hyc⟩

/-- The other path, the frames and the records of a ply of the same slot. -/
theorem sameDivergence_of_ply {s : State} {p : Ply} (hslot : p.slot = s.ply.slot)
    (hother : p.path s.ply.other = s.ply.path s.ply.other) (hframes : p.frames = s.ply.frames)
    (hdstack : p.dstack = s.ply.dstack) : SameDivergence s (s.withPly p).runEnded := by
  refine ⟨?_, hframes, hdstack⟩
  rw [← hother]
  exact congrArg (fun k => p.path (1 - k)) hslot

/-- The issuing path and the other one, in a state that has the ply p with its run over. -/
theorem State.runEnded_path (s : State) (p : Ply) : (s.withPly p).runEnded.path = p.cur := rfl
theorem State.runEnded_path_other (s : State) (p : Ply) :
    (s.withPly p).runEnded.ply.path (s.withPly p).runEnded.ply.other = p.path p.other := rfl

theorem State.runEnded_frames (s : State) (p : Ply) : (s.withPly p).runEnded.ply.frames = p.frames := rfl

theorem State.runEnded_withPly (s : State) (p : Ply) :
    (s.withPly p).runEnded = { s with ply := (s.withPly p).runEnded.ply } := rfl
theorem State.runEnded_dstack (s : State) (p : Ply) : (s.withPly p).runEnded.ply.dstack = p.dstack := rfl

/-- The paths of a ply do not depend on its records and frames. -/
theorem Ply.cur_withRecords (p : Ply) (l : List DivRecord) : (p.withRecords l).cur = p.cur := rfl
theorem Ply.frames_withRecords (p : Ply) (l : List DivRecord) : (p.withRecords l).frames = p.frames := rfl
theorem Ply.path_other_withRecords (p : Ply) (l : List DivRecord) :
    (p.withRecords l).path (p.withRecords l).other = p.path p.other := rfl
theorem Ply.cur_withFrames (p : Ply) (l : List Frame) : (p.withFrames l).cur = p.cur := rfl
theorem Ply.frames_withFrames (p : Ply) (l : List Frame) : (p.withFrames l).frames = l := rfl
theorem Ply.dstack_withFrames (p : Ply) (l : List Frame) : (p.withFrames l).dstack = p.dstack := rfl
theorem Ply.path_other_withFrames (p : Ply) (l : List Frame) :
    (p.withFrames l).path (p.withFrames l).other = p.path p.other := rfl

section
variable (s : State) (codes : List (BitVec 7))

theorem State.awaiting_cur_frame : (s.awaiting codes).cur.frame = s.path.frame := by rw [State.awaiting_cur]

theorem State.awaiting_sameDivergence : SameDivergence s (s.withPly (s.awaiting codes)).runEnded :=
  sameDivergence_of_ply (State.awaiting_slot ..) (State.awaiting_path_other ..) (State.awaiting_frames ..)
    (State.awaiting_dstack ..)

theorem State.awaiting_setCur_path_other (q : Path) :
    ((s.awaiting codes).setCur q).path s.ply.other = s.ply.path s.ply.other := by
  rw [← State.awaiting_other s codes, Ply.setCur_other, State.awaiting_other, State.awaiting_path_other]

theorem State.awaiting_setCur_other (q : Path) :
    ((s.awaiting codes).setCur q).path ((s.awaiting codes).setCur q).other = s.ply.path s.ply.other := by
  rw [Ply.other, Ply.setCur_slot, State.awaiting_slot]
  exact State.awaiting_setCur_path_other ..

theorem State.awaiting_setCur_sameDivergence (q : Path) :
    SameDivergence s (s.withPly ((s.awaiting codes).setCur q)).runEnded :=
  sameDivergence_of_ply ((Ply.setCur_slot ..).trans (State.awaiting_slot ..)) (State.awaiting_setCur_path_other s codes q)
    ((Ply.setCur_frames ..).trans (State.awaiting_frames ..)) ((Ply.setCur_dstack ..).trans (State.awaiting_dstack ..))

/-- The fall-through half, after the trailer. -/
theorem State.fallSplit_awaiting_cur (t : Mask) (j : DWord) (n : Nat) : ((s.awaiting codes).fallSplit t j n).cur =
    { s.path with
      pc := wordsOn s s.issue.words, member := s.path.member &&& ~~~t, active := s.path.active &&& ~~~t, frame := some n
      awaited := s.awaitedNow codes, transfer := .none, hprio := (s.awaiting codes).cur.hprio, since := s.now
      runClass := none } := by
  rw [Ply.fallSplit_cur, State.awaiting_cur]
  rfl

theorem State.fallSplit_awaiting_frames (t : Mask) (j : DWord) (n : Nat) : ((s.awaiting codes).fallSplit t j n).frames =
    s.ply.frames ++ [⟨n, j, s.path.member, false, 0, 0, s.path.frame⟩] := by
  rw [Ply.fallSplit_frame, State.awaiting_frames, State.awaiting_cur]

theorem State.fallSplit_awaiting_dstack (t : Mask) (j : DWord) (n : Nat) :
    ((s.awaiting codes).fallSplit t j n).dstack = s.ply.dstack := by
  rw [Ply.fallSplit_frame, State.awaiting_dstack]

theorem State.fallSplit_awaiting_path_other (t : Mask) (j : DWord) (n : Nat) :
    ((s.awaiting codes).fallSplit t j n).path s.ply.other = s.ply.path s.ply.other := by
  rw [← State.awaiting_other s codes, Ply.fallSplit_path_other, State.awaiting_other, State.awaiting_path_other]

theorem State.fallSplit_awaiting_slot (t : Mask) (j : DWord) (n : Nat) :
    ((s.awaiting codes).fallSplit t j n).slot = s.ply.slot :=
  (Ply.fallSplit_slot ..).trans (State.awaiting_slot ..)

end

/-- A path put into the other slot leaves the one that issues. -/
theorem Ply.setPath_other_cur (p : Ply) (h : p.slot ≤ 1) (q : Path) : (p.setPath (1 - p.slot) q).cur = p.cur := by
  have h1 := Ply.setPath_path_sub p (Nat.sub_le 1 p.slot) q
  rw [Nat.sub_sub_self h] at h1
  unfold Ply.cur
  rw [Ply.setPath_slot]
  exact h1

theorem State.fallSplit_awaiting_other (s : State) (codes : List (BitVec 7)) (t : Mask) (j : DWord) (n : Nat) :
    ((s.awaiting codes).fallSplit t j n).other = s.ply.other := by
  rw [Ply.other, State.fallSplit_awaiting_slot, Ply.other]

/-- The taken half in the other slot leaves the fall-through half as it is. -/
theorem State.fallSplit_awaiting_setPath_cur {s : State} (codes : List (BitVec 7)) (hs : s.ply.slot ≤ 1) (t : Mask) (j : DWord)
    (n : Nat) (q : Path) : (((s.awaiting codes).fallSplit t j n).setPath s.ply.other q).cur =
      ((s.awaiting codes).fallSplit t j n).cur := by
  rw [Ply.other, ← State.fallSplit_awaiting_slot s codes t j n] at *
  exact Ply.setPath_other_cur _ hs q

theorem State.fallSplit_awaiting_setPath_other (s : State) (codes : List (BitVec 7)) (t : Mask) (j : DWord) (n : Nat) (q : Path) :
    (((s.awaiting codes).fallSplit t j n).setPath s.ply.other q).path
      (((s.awaiting codes).fallSplit t j n).setPath s.ply.other q).other = q := by
  have ho : (((s.awaiting codes).fallSplit t j n).setPath s.ply.other q).other = s.ply.other := by
    rw [Ply.other, Ply.setPath_slot, State.fallSplit_awaiting_slot, Ply.other]
  rw [ho, Ply.setPath_path]

/-! ### The codes of the trailer -/

theorem any_outOfRange_iff (s : State) (codes : List (BitVec 7)) :
    codes.any s.ply.outOfRange = true ↔ ¬codesInRange s codes := by
  simp only [codesInRange, List.any_eq_true, Ply.outOfRange, Bool.and_eq_true, decide_eq_true_eq, not_forall, Nat.not_lt,
    exists_prop]
  rfl

theorem execEndRun_of_not_inRange {s : State} {w x y : BitVec 7} (h : ¬codesInRange s [w, x, y]) :
    execEndRun w x y s = .next s.raiseRegrange := by
  unfold execEndRun
  rw [if_pos ((any_outOfRange_iff ..).mpr h)]
  rfl

theorem execEndRun_of_inRange {s : State} {w x y : BitVec 7} (h : codesInRange s [w, x, y]) :
    execEndRun w x y s = .next (s.transferred [w, x, y]).runEnded.popRecords := by
  unfold execEndRun
  rw [if_neg fun hany => (any_outOfRange_iff ..).mp hany h, State.done_endOfRun]
  rfl

/-- Settles O13: the state between the transfer and the pops is `transferred` with its run over, and each transfer's case of it is
stated above. -/
theorem endOfRun : Obligations.EndOfRun := by
  refine ⟨fun w x y s hc hu => ⟨_, (exec_endRun w x y s).trans (execEndRun_of_not_inRange hc),
      State.raise_word hu 0x07 0 (by decide) (by decide) (by decide) (by decide) _⟩,
    fun w x y s hc => ⟨_, (exec_endRun w x y s).trans (execEndRun_of_inRange hc),
      RunOver.popRecords (State.transferred_runOver s _), (s.transferred [w, x, y]).runEnded, State.transferred_runOver s _,
      State.pops_popRecords _, fun h => ?none, fun a h => ?goto, fun tk a j h hslot hlen => ?split,
      fun h hframe => ?joinNone, fun f h hframe hfind => ?join⟩⟩
  case none =>
    rw [State.transferred_of_none _ h]
    refine ⟨OnlyPly.of_ply .., State.awaiting_sameDivergence .., ?_⟩
    rw [State.runEnded_path, State.awaiting_cur]
    exact ⟨awaitsNamed_of_eq rfl, rfl, rfl, rfl, rfl⟩
  case goto =>
    rw [State.transferred_of_goto _ h]
    refine ⟨OnlyPly.of_ply .., State.awaiting_setCur_sameDivergence .., ?_⟩
    rw [State.runEnded_path, Ply.setCur_cur, State.awaiting_cur]
    exact ⟨awaitsNamed_of_eq rfl, rfl, rfl, rfl, rfl, rfl⟩
  case joinNone =>
    rw [State.transferred_of_join _ h, Ply.join_of_none ((State.awaiting_cur_frame ..).trans hframe)]
    refine ⟨OnlyPly.of_ply .., State.awaiting_sameDivergence .., ?_⟩
    rw [State.runEnded_path, State.awaiting_cur]
    exact ⟨rfl, rfl, rfl, hframe⟩
  case split =>
    have hlowest := lowestFree_freeFrame (l := s.ply.frames) 95 0 (by simp) hlen
    by_cases ho : (s.ply.path s.ply.other).member = 0
    · rw [State.transferred_of_split_free _ h ho, State.runEnded_path, State.fallSplit_awaiting_setPath_cur _ hslot,
        State.fallSplit_awaiting_cur]
      refine ⟨awaitsNamed_of_eq rfl, rfl, rfl, rfl, _, hlowest, rfl, ?_, fun _ => ⟨OnlyPly.of_ply .., ?_, ?_⟩,
        fun hne => absurd ho hne⟩
      · exact (Ply.setPath_frames ..).trans (State.fallSplit_awaiting_frames ..)
      · exact (Ply.setPath_dstack ..).trans (State.fallSplit_awaiting_dstack ..)
      · rw [State.runEnded_path_other, State.fallSplit_awaiting_setPath_other]
        exact ⟨rfl, rfl, rfl, rfl, awaitsNamed_of_eq rfl⟩
    · rw [State.transferred_of_split_path _ h ho, State.runEnded_path, Ply.cur_withRecords, State.fallSplit_awaiting_cur,
        State.runEnded_path_other, Ply.path_other_withRecords, State.fallSplit_awaiting_other,
        State.fallSplit_awaiting_path_other, State.runEnded_frames, Ply.frames_withRecords, State.fallSplit_awaiting_frames]
      refine ⟨awaitsNamed_of_eq rfl, rfl, rfl, rfl, _, hlowest, rfl, rfl, fun he => absurd he ho, fun _ => ⟨rfl, rfl,
        s.withPly ((s.awaiting [w, x, y]).fallSplit tk j (freeFrame s.ply.frames 95 0)), rfl, State.runEnded_withPly _ _⟩⟩
  case join =>
    have hframe' := (State.awaiting_cur_frame s [w, x, y]).trans hframe
    have hfind' := (congrArg (List.find? fun g => g.index == f.index) (State.awaiting_frames s [w, x, y])).trans hfind
    rw [State.transferred_of_join _ h]
    cases hp : f.parked with
    | true =>
      rw [Ply.join_of_parked hframe' hfind' hp, State.runEnded_path, Ply.cur_withFrames, Ply.setCur_cur,
        State.runEnded_path_other, Ply.path_other_withFrames, State.awaiting_setCur_other, State.runEnded_frames,
        Ply.frames_withFrames, State.awaiting_frames, State.runEnded_dstack, Ply.dstack_withFrames, Ply.setCur_dstack,
        State.awaiting_dstack, State.awaiting_cur]
      refine ⟨OnlyPly.of_ply .., rfl, rfl, fun hf => absurd hf (by decide),
        fun _ => ⟨rfl, rfl, rfl, rfl, fun g hg => ?_, fun g hg => ?_⟩⟩
      · exact bne_iff_ne.mp (List.mem_filter.mp hg).2
      · rw [List.mem_filter, bne_iff_ne, and_iff_left hg]
    | false =>
      rw [Ply.join_of_not_parked hframe' hfind' hp, State.runEnded_path, Ply.cur_withFrames, Ply.setCur_cur,
        State.runEnded_path_other, Ply.path_other_withFrames, State.awaiting_setCur_other, State.runEnded_frames,
        Ply.frames_withFrames, State.awaiting_frames, State.runEnded_dstack, Ply.dstack_withFrames, Ply.setCur_dstack,
        State.awaiting_dstack, State.awaiting_cur]
      refine ⟨OnlyPly.of_ply .., rfl, rfl, fun _ => ⟨rfl, ?_, List.length_map ..,
        fun g hg => mem_map_index (h := Frame.park _) (fun _ => rfl) hg⟩, fun hf => absurd hf (by decide)⟩
      exact List.mem_map.mpr ⟨f, List.mem_of_find?_eq_some hfind, if_pos BEq.rfl⟩

end Sys2Proof.Machine

/-!
Main memory through every step (R116, R326, R327): each meaning but two leaves its performed contents as they are, COMPLETION_TIME
writes bytes in canonical form, and PACKAGE_POWER_ON leaves it empty.
-/
namespace Sys2Proof.Machine

/-! ## What leaves the performed contents as they are -/

/-- Where the outcome is a next state, main memory holds there what it held in s. -/
def KeepsMem (s : State) (o : Outcome) : Prop := ∀ t, o = .next t → t.mem = s.mem

theorem keepsMem_ok {s t : State} (h : t.mem = s.mem) : KeepsMem s t.ok := by
  intro u hu; cases hu; exact h

theorem State.ite_mem {c : Prop} [Decidable c] {a b : State} {m : Memory} (ha : a.mem = m) (hb : b.mem = m) :
    (if c then a else b).mem = m := by split <;> assumption

theorem State.queueIf_done_mem (s : State) (c : Prop) [Decidable c] (k : MemKind) :
    (if c then s.queueMem k else s).done.mem = s.mem := by split <;> simp

/-! ## The meanings that choose what they do -/

theorem execVlane_mem (d a b : BitVec 7) (w : BitVec 1) (s : State) : KeepsMem s (execVlane d a b w s) :=
  keepsMem_ok (State.checkV_mem _ _ _ (by simp))

theorem execVli_mem (d : BitVec 7) (i : BitVec 19) (s : State) : KeepsMem s (execVli d i s) :=
  keepsMem_ok (State.checkV_mem _ _ _ (by simp))

theorem execFcvt_mem (d a : BitVec 7) (i : BitVec 5) (s' : BitVec 1) (m : BitVec 3) (w : BitVec 1) (s : State) :
    KeepsMem s (execFcvt d a i s' m w s) :=
  keepsMem_ok (by split <;> simp)

theorem execLperm_mem (d a b : BitVec 7) (w : BitVec 1) (s : State) : KeepsMem s (execLperm d a b w s) :=
  keepsMem_ok (State.checkV_mem _ _ _ (by simp))

theorem execLmatch_mem (d a b : BitVec 7) (w : BitVec 1) (s : State) : KeepsMem s (execLmatch d a b w s) :=
  keepsMem_ok (State.checkV_mem _ _ _ (by simp))

theorem execLscan_mem (d a : BitVec 7) (e : BitVec 1) (o : BitVec 4) (w : BitVec 1) (s : State) :
    KeepsMem s (execLscan d a e o w s) :=
  keepsMem_ok (by split <;> simp)

theorem execLvote_mem (d a : BitVec 7) (s' : BitVec 2) (w : BitVec 1) (s : State) : KeepsMem s (execLvote d a s' w s) :=
  keepsMem_ok (State.checkV_mem _ _ _ (by simp))

theorem execVbcast_mem (d : BitVec 7) (a : BitVec 6) (w : BitVec 1) (s : State) : KeepsMem s (execVbcast d a w s) :=
  keepsMem_ok (State.checkV_mem _ _ _ (by simp))

theorem execVextr_mem (d : BitVec 6) (a : BitVec 7) (b : BitVec 6) (s : State) : KeepsMem s (execVextr d a b s) :=
  keepsMem_ok (State.checkV_mem _ _ _ (by simp))

theorem execVins_mem (d : BitVec 7) (a b : BitVec 6) (w : BitVec 1) (s : State) : KeepsMem s (execVins d a b w s) :=
  keepsMem_ok (State.checkV_mem _ _ _ (by simp))

theorem execMfromv_mem (d : BitVec 6) (a : BitVec 7) (s : State) : KeepsMem s (execMfromv d a s) :=
  keepsMem_ok (State.checkV_mem _ _ _ (by simp))

theorem execMtov_mem (d : BitVec 7) (a : BitVec 6) (w : BitVec 1) (s : State) : KeepsMem s (execMtov d a w s) :=
  keepsMem_ok (State.checkV_mem _ _ _ (by simp))

theorem execDivb_mem (m : BitVec 6) (t j : BitVec 10) (s : State) : KeepsMem s (execDivb m t j s) :=
  keepsMem_ok (State.ite_mem (by simp) (State.ite_mem (by simp) (State.ite_mem (by simp)
    (State.ite_mem (by simp) (by simp)))))

theorem execEret_mem (s : State) : KeepsMem s (execEret s) :=
  keepsMem_ok (by split <;> simp)

theorem execLd_mem (v : BitVec 7) (p : BitVec 6) (x : BitVec 7) (c : BitVec 2) (z : BitVec 3) (q : BitVec 1) (s : State) :
    KeepsMem s (execLd v p x c z q s) := by
  refine keepsMem_ok (State.checkRun_mem _ _ _ _ (State.checkV_mem _ _ _ (State.ite_mem (State.queueIf_done_mem ..) ?_)))
  split
  · simp
  · exact (State.queueIf_done_mem ..).trans (by simp)

theorem execSt_mem (v : BitVec 7) (p : BitVec 6) (x : BitVec 7) (c : BitVec 2) (z : BitVec 3) (q : BitVec 1) (s : State) :
    KeepsMem s (execSt v p x c z q s) := by
  refine keepsMem_ok (State.checkRun_mem _ _ _ _ (State.checkV_mem _ _ _ (State.ite_mem (State.queueIf_done_mem ..) ?_)))
  split
  · simp
  · rw [State.done_mem, State.queueMem_mem]
    exact (State.ite_mem (State.queueMem_mem ..) rfl).trans (State.fillTlb_mem ..)

theorem execLdx_mem (v : BitVec 7) (b : BitVec 6) (x : BitVec 7) (c : BitVec 2) (z : BitVec 3) (s : State) :
    KeepsMem s (execLdx v b x c z s) := by
  refine keepsMem_ok (State.checkRun_mem _ _ _ _ (State.checkV_mem _ _ _ (State.ite_mem (by simp) ?_)))
  split <;> simp

theorem execStx_mem (v : BitVec 7) (b : BitVec 6) (x : BitVec 7) (c : BitVec 2) (z : BitVec 3) (s : State) :
    KeepsMem s (execStx v b x c z s) := by
  refine keepsMem_ok (State.checkRun_mem _ _ _ _ (State.checkV_mem _ _ _ (State.ite_mem (by simp) ?_)))
  split <;> simp

theorem execLds_mem (d p : BitVec 6) (q z : BitVec 1) (i : BitVec 11) (s : State) : KeepsMem s (execLds d p q z i s) := by
  refine keepsMem_ok ?_
  split
  · simp
  · exact (State.queueIf_done_mem ..).trans (by simp)

theorem execSts_mem (d p : BitVec 6) (q z : BitVec 1) (i : BitVec 11) (s : State) : KeepsMem s (execSts d p q z i s) := by
  refine keepsMem_ok ?_
  split
  · simp
  · rw [State.done_mem, State.queueMem_mem]
    exact (State.ite_mem (State.queueMem_mem ..) rfl).trans (State.fillTlb_mem ..)

theorem execCpref_mem (p l : BitVec 6) (v : BitVec 2) (s : State) : KeepsMem s (execCpref p l v s) := by
  refine keepsMem_ok ?_
  rw [State.done_mem]
  exact foldl_mem _ _ _ fun _ _ => State.ite_mem (by simp) (by simp)

theorem execSpill_mem (v : BitVec 7) (p : BitVec 6) (n : BitVec 3) (s : State) : KeepsMem s (execSpill v p n s) :=
  keepsMem_ok (by split <;> simp)

theorem execFill_mem (v : BitVec 7) (p : BitVec 6) (n : BitVec 3) (s : State) : KeepsMem s (execFill v p n s) := by
  refine keepsMem_ok (State.checkRun_mem _ _ _ _ ?_)
  split
  · simp
  · dsimp only
    split <;> simp

theorem execLcp_mem (d r : BitVec 6) (i : BitVec 7) (z : BitVec 2) (s : State) : KeepsMem s (execLcp d r i z s) := by
  refine keepsMem_ok (State.checkRun_mem _ _ _ _ ?_)
  dsimp only
  split
  · simp
  · exact State.ite_mem (by simp) (by simp)

theorem execShapew_mem (d a o : BitVec 6) (s : State) : KeepsMem s (execShapew d a o s) := by
  refine keepsMem_ok (State.ite_mem (by simp) ?_)
  split <;> simp

theorem execWaitc_mem (c : BitVec 2) (k : BitVec 8) (s : State) : KeepsMem s (execWaitc c k s) :=
  keepsMem_ok (State.killHere_mem _ _ _ State.done_mem fun _ =>
    State.ite_mem (State.foundCounter_mem _ _ _ State.done_mem) (State.beginWait_mem _ _ _ fun _ => rfl))

theorem execCntr_mem (d : BitVec 6) (c : BitVec 2) (k : BitVec 8) (s : State) : KeepsMem s (execCntr d c k s) :=
  keepsMem_ok (State.ite_mem (State.foundCounter_mem _ _ _ fun _ => State.sresult_mem ..) (State.sresult_mem ..))

theorem execVfpush_mem (v : BitVec 7) (s : State) : KeepsMem s (execVfpush v s) :=
  keepsMem_ok (State.checkV_mem _ _ _ (State.ite_mem (by simp) (State.killHere_mem _ _ _ State.done_mem fun _ =>
    State.ite_mem (by simp) (by simp))))

theorem execVfpop_mem (v : BitVec 7) (s : State) : KeepsMem s (execVfpop v s) := by
  refine keepsMem_ok (State.checkV_mem _ _ _ (State.ite_mem (by simp) (State.killHere_mem _ _ _ State.done_mem fun _ =>
    State.ite_mem (by simp) ?_)))
  exact State.ite_mem (by simp) (by simp)

theorem execBara_mem (d b : BitVec 6) (s : State) : KeepsMem s (execBara d b s) :=
  keepsMem_ok (State.withLeaf_mem _ _ _ fun _ _ => by split <;> simp)

theorem execBaraEnr_mem (d b : BitVec 6) (s : State) : KeepsMem s (execBaraEnr d b s) := by
  refine keepsMem_ok (State.withLeaf_mem _ _ _ fun _ _ => ?_)
  dsimp only
  split <;> simp

theorem execBarw_mem (p b : BitVec 6) (s : State) : KeepsMem s (execBarw p b s) :=
  keepsMem_ok (State.withLeaf_mem _ _ _ fun _ _ => State.killHere_mem _ _ _ State.done_mem fun _ =>
    State.ite_mem (by simp) (by simp))

theorem execBaraw_mem (b : BitVec 6) (s : State) : KeepsMem s (execBaraw b s) :=
  keepsMem_ok (State.withLeaf_mem _ _ _ fun _ _ => State.killHere_mem _ _ _ (fun _ => by simp) fun _ => by split <;> simp)

theorem execBarx_mem (n b : BitVec 6) (s : State) : KeepsMem s (execBarx n b s) :=
  keepsMem_ok (State.withLeaf_mem _ _ _ fun _ _ => by split <;> simp)

theorem execBarinit_mem (n b : BitVec 6) (s : State) : KeepsMem s (execBarinit n b s) :=
  keepsMem_ok (State.withLeaf_mem _ _ _ fun _ _ => State.ite_mem (by simp) (State.ite_mem (by simp) (by simp)))

theorem execSpawnr_mem (r n c : BitVec 6) (s : State) : KeepsMem s (execSpawnr r n c s) :=
  keepsMem_ok (State.spawnLanes_mem _ _ fun _ =>
    State.ite_mem (by simp) (State.ite_mem (by simp) (State.ite_mem (by simp) (by simp))))

theorem execClaim_mem (d n : BitVec 6) (k : BitVec 1) (s : State) : KeepsMem s (execClaim d n k s) :=
  keepsMem_ok (State.killHere_mem _ _ _ (fun _ => by simp) fun _ =>
    State.ite_mem (by simp) (State.ite_mem (by simp) (State.ite_mem (by simp) (by simp))))

theorem execGive_mem (d n : BitVec 6) (k : BitVec 1) (s : State) : KeepsMem s (execGive d n k s) :=
  keepsMem_ok (State.ite_mem (by simp) (by simp))

theorem execExit_mem (s : State) : KeepsMem s (execExit s) := by
  refine keepsMem_ok (State.ite_mem (by simp) ?_)
  have hends (l : List Nat) (t : State) (u : Nat) : (l.foldl (fun t i => t.endLane u i false) t).mem = t.mem :=
    foldl_mem _ _ _ fun _ _ => by simp
  exact State.ite_mem (by simp [hends]) (by simp [hends])

theorem execScopen_mem (d a p : BitVec 6) (s : State) : KeepsMem s (execScopen d a p s) :=
  keepsMem_ok (by split <;> simp)

theorem execScopcl_mem (a : BitVec 6) (s : State) : KeepsMem s (execScopcl a s) :=
  keepsMem_ok (by split <;> simp)

theorem execCancel_mem (a : BitVec 6) (s : State) : KeepsMem s (execCancel a s) :=
  keepsMem_ok (by split <;> simp)

theorem execScpst_mem (d a : BitVec 6) (s : State) : KeepsMem s (execScpst d a s) :=
  keepsMem_ok (by split <;> simp)

theorem execScpstW_mem (d a : BitVec 6) (s : State) : KeepsMem s (execScpstW d a s) :=
  keepsMem_ok (State.killHere_mem _ _ _ (fun _ => by simp) fun _ => State.ite_mem (by simp) (by simp))

theorem execPbegin_mem (g : BitVec 6) (s : State) : KeepsMem s (execPbegin g s) := by
  refine keepsMem_ok (State.ite_mem (by simp) (State.checkEntry_mem _ _ _ (State.ite_mem (by simp) ?_)))
  split <;> simp

theorem execPview_mem (n a : BitVec 6) (s : State) : KeepsMem s (execPview n a s) :=
  keepsMem_ok (State.ite_mem (by simp) (State.ite_mem (by simp) (State.ite_mem (by simp) (State.ite_mem (by simp)
    (State.ite_mem (by simp) (State.ite_mem (by simp) (State.ite_mem (by simp) (by simp))))))))

theorem execPclip_mem (t : BitVec 6) (s : State) : KeepsMem s (execPclip t s) :=
  keepsMem_ok (State.withBlock_mem _ _ _ _ fun _ => by split <;> simp)

theorem execPunclip_mem (t l : BitVec 6) (s : State) : KeepsMem s (execPunclip t l s) :=
  keepsMem_ok (State.withBlock_mem _ _ _ _ fun _ => State.ite_mem (by simp) (State.takeEntry_mem _ _ _ _ _ _ fun _ _ => by simp))

theorem execPend_mem (s : State) : KeepsMem s (execPend s) := by
  refine keepsMem_ok (State.ite_mem ?_ (by simp))
  have hnumber : (if s.ply.group.isSome then s.countOp 3 s.pathScopes else s.fresh).2.mem = s.mem := by
    split <;> simp
  simpa using hnumber

theorem execPscan_mem (t : BitVec 6) (s : State) : KeepsMem s (execPscan t s) :=
  keepsMem_ok (State.withBlock_mem _ _ _ _ fun _ => by simp)

theorem execPcell_mem (d : BitVec 7) (t r : BitVec 6) (s : State) : KeepsMem s (execPcell d t r s) :=
  keepsMem_ok (State.checkRun_mem _ _ _ _ (State.ite_mem (by simp) (State.withTile_mem _ _ _ fun _ _ _ => by simp)))

theorem execPblend_mem (c : BitVec 7) (s : State) : KeepsMem s (execPblend c s) := by
  refine keepsMem_ok (State.checkRun_mem _ _ _ _ (State.ite_mem (by simp) ?_))
  rw [State.done_mem]
  refine foldl_mem _ _ _ fun _ _ => ?_
  dsimp only
  split <;> simp

theorem execGets_mem (d : BitVec 6) (i : BitVec 12) (s : State) : KeepsMem s (execGets d i s) :=
  keepsMem_ok (State.ite_mem (by simp) (State.ite_mem (by simp) (State.ite_mem (by simp)
    (State.ite_mem (by simp) (by simp)))))

theorem execSets_mem (a : BitVec 6) (i : BitVec 12) (s : State) : KeepsMem s (execSets a i s) :=
  keepsMem_ok (by split <;> simp)

theorem execTlbinv_mem (p : BitVec 6) (s : State) : KeepsMem s (execTlbinv p s) :=
  keepsMem_ok (State.ite_mem (by simp) (State.ite_mem (by simp) (by simp)))

theorem execTlbinvAll_mem (s : State) : KeepsMem s (execTlbinvAll s) :=
  keepsMem_ok (by split <;> simp)

theorem execCtxsv_mem (s : State) : KeepsMem s (execCtxsv s) := by
  refine keepsMem_ok (State.ite_mem ?_ (by simp))
  split <;> simp

theorem execCtxrs_mem (s : State) : KeepsMem s (execCtxrs s) := by
  refine keepsMem_ok (State.ite_mem ?_ (by simp))
  dsimp only
  split <;> simp

theorem execEndRun_mem (w x y : BitVec 7) (s : State) : KeepsMem s (execEndRun w x y s) :=
  keepsMem_ok (by split <;> simp)

theorem execYield_mem (d : BitVec 8) (l : BitVec 7) (s : State) : KeepsMem s (execYield d l s) := by
  have hkill : ((s.yielded d).kill s.ply.uid Mask.full).mem = s.mem := by simp
  exact keepsMem_ok (State.ite_mem (by simp) (State.ite_mem (by simp) (State.ite_mem (by simp) (State.ite_mem hkill hkill))))

theorem execWatchdogDeadline_mem (ply : Nat) (s : State) : KeepsMem s (execWatchdogDeadline ply s) :=
  keepsMem_ok (by split <;> simp)

theorem execRetirement_mem (ply cls : Nat) (s : State) : KeepsMem s (execRetirement ply cls s) :=
  keepsMem_ok (by split <;> simp)

theorem execBarrierArrival_mem (core seq : Nat) (s : State) : KeepsMem s (execBarrierArrival core seq s) :=
  keepsMem_ok (by split <;> simp)

theorem execRootFlipArrival_mem (core leaf : Nat) (s : State) : KeepsMem s (execRootFlipArrival core leaf s) :=
  keepsMem_ok (by split <;> simp)

theorem execVfifoPushResume_mem (ply : Nat) (s : State) : KeepsMem s (execVfifoPushResume ply s) :=
  keepsMem_ok (by split <;> simp)

theorem execVfifoPopResume_mem (ply : Nat) (s : State) : KeepsMem s (execVfifoPopResume ply s) :=
  keepsMem_ok (by split <;> simp)

theorem execStoreAtHome_mem (ply seq : Nat) (s : State) : KeepsMem s (execStoreAtHome ply seq s) := by
  refine keepsMem_ok ?_
  split
  · rfl
  split
  · rfl
  refine State.ite_mem ?_ rfl
  split <;> simp

theorem execAtomPerform_mem (ply seq : Nat) (s : State) : KeepsMem s (execAtomPerform ply seq s) := by
  refine keepsMem_ok ?_
  rw [State.awake_mem]
  split
  · rfl
  split
  · rfl
  refine State.ite_mem ?_ rfl
  split <;> simp

theorem execSensorReading_mem (vault : Nat) (temp : BitVec 16) (s : State) : KeepsMem s (execSensorReading vault temp s) :=
  keepsMem_ok (by split <;> simp)

theorem execQuiescePoint_mem (cluster : Nat) (s : State) : KeepsMem s (execQuiescePoint cluster s) :=
  keepsMem_ok (State.ite_mem rfl (foldl_mem _ _ _ fun _ _ => State.modCluster_mem ..))

theorem execConfigurationWrite_mem (offset : Nat) (access : ConfigAccess) (s : State) :
    KeepsMem s (execConfigurationWrite offset access s) := by
  intro t h
  cases access with
  | store b =>
    simp only [execConfigurationWrite] at h
    split at h
    · rename_i hb
      cases h
      exact State.configure_mem _ _ _ _ hb
    · cases h
  | load n =>
    simp only [execConfigurationWrite] at h
    split at h
    · cases h
      rfl
    · cases h

theorem execFetchFault_mem (code sub : Nat) (address : DWord) (s : State) : KeepsMem s (execFetchFault code sub address s) :=
  keepsMem_ok (by split <;> simp)

theorem State.storeImage_mem (s : State) (tenant : Nat) (w : Writes) : (s.storeImage tenant w).mem = s.mem :=
  foldl_mem _ _ _ fun _ _ => State.arriveN_mem ..

theorem execLoadRequest_mem (tenant : Nat) (object : ObjectFile) (places : List Placement) (tables areas : List Nat)
    (s : State) : KeepsMem s (execLoadRequest tenant object places tables areas s) := by
  refine keepsMem_ok ?_
  unfold State.load
  split
  · simp
  · exact (State.answerAfter_mem ..).trans (State.storeImage_mem ..)

/-! ## Every meaning -/

/-- Every meaning but COMPLETION_TIME and PACKAGE_POWER_ON leaves the performed contents of main memory as they are. -/

theorem exec_mem (i : Instr) (s : State) (hcompletion : ∀ n, i ≠ .completionTime n)
    (hpower : ∀ a b r, i ≠ .packagePowerOn a b r) : KeepsMem s (exec i s) := by
  cases i
  case completionTime n => exact absurd rfl (hcompletion n)
  case packagePowerOn a b r => exact absurd rfl (hpower a b r)
  case vlane => exact execVlane_mem _ _ _ _ _
  case vli => exact execVli_mem _ _ _
  case fcvt => exact execFcvt_mem _ _ _ _ _ _ _
  case lperm => exact execLperm_mem _ _ _ _ _
  case lmatch => exact execLmatch_mem _ _ _ _ _
  case lscan => exact execLscan_mem _ _ _ _ _ _
  case lvote => exact execLvote_mem _ _ _ _ _
  case vbcast => exact execVbcast_mem _ _ _ _
  case vextr => exact execVextr_mem _ _ _ _
  case vins => exact execVins_mem _ _ _ _ _
  case mfromv => exact execMfromv_mem _ _ _
  case mtov => exact execMtov_mem _ _ _ _
  case divb => exact execDivb_mem _ _ _ _
  case eret => exact execEret_mem _
  case ld => exact execLd_mem _ _ _ _ _ _ _
  case st => exact execSt_mem _ _ _ _ _ _ _
  case ldx => exact execLdx_mem _ _ _ _ _ _
  case stx => exact execStx_mem _ _ _ _ _ _
  case lds => exact execLds_mem _ _ _ _ _ _
  case sts => exact execSts_mem _ _ _ _ _ _
  case cpref => exact execCpref_mem _ _ _ _
  case spill => exact execSpill_mem _ _ _ _
  case fill => exact execFill_mem _ _ _ _
  case lcp => exact execLcp_mem _ _ _ _ _
  case shapew => exact execShapew_mem _ _ _ _
  case waitc => exact execWaitc_mem _ _ _
  case cntr => exact execCntr_mem _ _ _ _
  case vfpush => exact execVfpush_mem _ _
  case vfpop => exact execVfpop_mem _ _
  case bara => exact execBara_mem _ _ _
  case baraEnr => exact execBaraEnr_mem _ _ _
  case barw => exact execBarw_mem _ _ _
  case baraw => exact execBaraw_mem _ _
  case barx => exact execBarx_mem _ _ _
  case barinit => exact execBarinit_mem _ _ _
  case spawnr => exact execSpawnr_mem _ _ _ _
  case claim => exact execClaim_mem _ _ _ _
  case give => exact execGive_mem _ _ _ _
  case exit => exact execExit_mem _
  case scopen => exact execScopen_mem _ _ _ _
  case scopcl => exact execScopcl_mem _ _
  case cancel => exact execCancel_mem _ _
  case scpst => exact execScpst_mem _ _ _
  case scpstW => exact execScpstW_mem _ _ _
  case pbegin => exact execPbegin_mem _ _
  case pview => exact execPview_mem _ _ _
  case pclip => exact execPclip_mem _ _
  case punclip => exact execPunclip_mem _ _ _
  case pend => exact execPend_mem _
  case pscan => exact execPscan_mem _ _
  case pcell => exact execPcell_mem _ _ _ _
  case pblend => exact execPblend_mem _ _
  case gets => exact execGets_mem _ _ _
  case sets => exact execSets_mem _ _ _
  case tlbinv => exact execTlbinv_mem _ _
  case tlbinvAll => exact execTlbinvAll_mem _
  case ctxsv => exact execCtxsv_mem _
  case ctxrs => exact execCtxrs_mem _
  case endRun => exact execEndRun_mem _ _ _ _
  case yield => exact execYield_mem _ _ _
  case watchdogDeadline => exact execWatchdogDeadline_mem _ _
  case retirement => exact execRetirement_mem _ _ _
  case barrierArrival => exact execBarrierArrival_mem _ _ _
  case rootFlipArrival => exact execRootFlipArrival_mem _ _ _
  case vfifoPushResume => exact execVfifoPushResume_mem _ _
  case vfifoPopResume => exact execVfifoPopResume_mem _ _
  case storeAtHome => exact execStoreAtHome_mem _ _ _
  case atomPerform => exact execAtomPerform_mem _ _ _
  case sensorReading => exact execSensorReading_mem _ _ _
  case quiescePoint => exact execQuiescePoint_mem _ _
  case configurationWrite => exact execConfigurationWrite_mem _ _ _
  case fetchFault => exact execFetchFault_mem _ _ _ _
  case loadRequest => exact execLoadRequest_mem _ _ _ _ _ _
  all_goals exact keepsMem_ok (by simp)

/-- At its completion time a store is merged, and what waits for it goes on (R326). -/

theorem execCompletionTime_memoryOk (n : Nat) (s : State) (h : MemoryOk s) :
    ∀ t, execCompletionTime n s = .next t → MemoryOk t := by
  rintro t ht
  cases ht
  unfold MemoryOk at *
  split
  · exact h
  · rename_i p _
    split
    · have hmerged : (s.merge p).mem.wf = true := Memory.writeN_wf h ..
      simpa using hmerged
    · exact h

theorem exec_memoryOk (i : Instr) (s : State) (h : MemoryOk s) : ∀ t, exec i s = .next t → MemoryOk t := by
  intro t ht
  by_cases hcompletion : ∃ n, i = .completionTime n
  · obtain ⟨n, rfl⟩ := hcompletion
    exact execCompletionTime_memoryOk n s h t ht
  by_cases hpower : ∃ a b r, i = .packagePowerOn a b r
  · obtain ⟨a, b, r, rfl⟩ := hpower
    cases ht
    rfl
  · have hmem := exec_mem i s (fun n hn => hcompletion ⟨n, hn⟩) (fun a b r hi => hpower ⟨a, b, r, hi⟩) t ht
    rw [MemoryOk, hmem]
    exact h

/-! ## Every step -/

theorem background_memoryOk {s u t : State} {l : List Instr} (h : MemoryOk u) (ht : s.background l u = .next t) :
    MemoryOk t := by
  unfold State.background at ht
  split at ht
  · exact exec_memoryOk _ u h t ht
  · cases ht
    exact h

theorem issueNext_memoryOk (s : State) (h : MemoryOk s) : ∀ t, s.issueNext = .next t → MemoryOk t := by
  intro t ht
  unfold State.issueNext at ht
  have hissuing : MemoryOk { s.elapse with issue := s.look.1 } := h
  dsimp only at ht
  split at ht
  case h_1 e _ => exact exec_memoryOk e _ hissuing t ht
  case h_2 =>
    cases ht
    rw [MemoryOk, State.raiseRunlen_mem]
    exact h
  case h_3 e _ =>
    split at ht
    · exact background_memoryOk (by exact h) ht
    split at ht
    · exact exec_memoryOk _ _ hissuing t ht
    · exact exec_memoryOk e _ hissuing t ht

/-- Settles O58: a step is one meaning or the passing of time, and a meaning keeps the canonical form. -/
theorem memoryStaysCanonical : Obligations.MemoryStaysCanonical := by
  intro s t h ht
  unfold step at ht
  split at ht
  case h_1 e l _ =>
    have helapsed : MemoryOk { s.elapse with agenda := l } := h
    exact exec_memoryOk e _ helapsed t ht
  case h_2 =>
    split at ht
    · exact issueNext_memoryOk s h t ht
    · exact background_memoryOk (by exact h) ht

end Sys2Proof.Machine

/-!
The special registers (R111 to R113): what a unit that only changes registers of its ply leaves, what SETS writes into each of them
and what GETS reads.
-/
namespace Sys2Proof.Machine
open Sys2Proof.Claim

/-! ## A unit that leaves the run of its path as it stood -/

/-- Up to the end of the unit, its words, the path slots, the run position and %yc are as they were. -/
def SameRun (s u : State) : Prop :=
  u.issue = s.issue ∧ u.ply.slot = s.ply.slot ∧ u.ply.path0 = s.ply.path0 ∧ u.ply.path1 = s.ply.path1 ∧
  u.ply.pos = s.ply.pos ∧ u.ply.yc = s.ply.yc

theorem SameRun.path {s u : State} (h : SameRun s u) (k : Nat) : u.ply.path k = s.ply.path k := by
  obtain ⟨-, -, h0, h1, -, -⟩ := h
  unfold Ply.path
  rw [h0, h1]

theorem SameRun.cur {s u : State} (h : SameRun s u) : u.ply.cur = s.path := by
  obtain ⟨-, hslot, -⟩ := id h
  unfold Ply.cur
  rw [hslot, h.path]
  rfl

theorem SameRun.other {s u : State} (h : SameRun s u) : u.done.ply.other = s.ply.other := by
  obtain ⟨-, hslot, -⟩ := h
  unfold Ply.other
  rw [State.done_ply, Ply.advance_slot, hslot]

theorem SameRun.advanced {s u : State} (h : SameRun s u) : Advanced s u.done := by
  obtain ⟨hissue, hslot, -, -, hpos, hyc⟩ := h
  refine ⟨(Ply.advance_slot ..).trans hslot, ?_, ?_, ?_⟩
  · rw [← hissue]
    exact Ply.advance_cur_pc ..
  · rw [← hissue, ← hpos]
    rfl
  · rw [← hissue, ← hyc]
    rfl

theorem SameRun.path_done {s u : State} (h : SameRun s u) :
    u.done.path = { s.path with pc := u.done.path.pc, hprio := u.done.path.hprio } := by
  have hadvance : u.done.path = { u.ply.cur with pc := u.done.path.pc, hprio := u.done.path.hprio } :=
    (Ply.advance_cur u.ply u.issue).trans (by rw [State.path, State.done_ply, Ply.advance_cur])
  rw [h.cur] at hadvance
  exact hadvance

theorem SameRun.active_done {s u : State} (h : SameRun s u) : u.done.path.active = s.path.active := by
  rw [h.path_done]

theorem SameRun.pathsKept {s u : State} (h : SameRun s u) : PathsKept s u.done := by
  obtain ⟨-, hslot, -⟩ := id h
  refine ⟨?_, ?_⟩
  · rw [h.path_done]
  · have hother : u.ply.other = s.ply.other := by
      unfold Ply.other
      rw [hslot]
    rw [h.other, ← hother]
    exact (Ply.advance_other u.ply u.issue).trans (h.path _)

theorem SameRun.unitDone {s u : State} (h : SameRun s u) : UnitDone s u.done u.ply :=
  ⟨h.advanced, h.pathsKept, h.active_done, Ply.advance_frame ..⟩

/-- A unit that leaves its ply as p and changes nothing else. -/
theorem OnlyField.of_ply {s : State} {p : Ply} (h : SameRun s { s with ply := p }) :
    OnlyField s (State.done { s with ply := p }) p := by
  obtain ⟨hadvanced, hpaths, hactive, hply⟩ := h.unitDone
  exact ⟨OnlyPly.of_ply .., hadvanced, hpaths, hactive, hply⟩

/-- A unit without an effect on its ply. -/
theorem OnlyField.of_done (s : State) : OnlyField s s.done s.ply :=
  OnlyField.of_ply (s := s) (p := s.ply) ⟨rfl, rfl, rfl, rfl, rfl, rfl⟩

/-! ## Privilege (R113) -/

theorem exec_gets (d : BitVec 6) (i : BitVec 12) (s : State) : exec (.gets d i) s = execGets d i s := rfl
theorem exec_sets (a : BitVec 6) (i : BitVec 12) (s : State) : exec (.sets a i) s = execSets a i s := rfl

theorem mayReach_iff (s : State) (i : BitVec 12) : s.mayReach i.toNat = true ↔ reaches s i := by
  simp [State.mayReach, reaches]

theorem execGets_of_not_reaches {d : BitVec 6} {i : BitVec 12} {s : State} (h : ¬reaches s i) :
    execGets d i s = .next s.raisePriv := by
  rw [← mayReach_iff] at h
  simp [execGets, h, State.ok]

theorem execSets_of_not_reaches {a : BitVec 6} {i : BitVec 12} {s : State} (h : ¬reaches s i) :
    execSets a i s = .next s.raisePriv := by
  rw [← mayReach_iff] at h
  simp [execSets, h, State.ok]

theorem execSets_of_reaches {a : BitVec 6} {i : BitVec 12} {s : State} (h : reaches s i) : execSets a i s =
    .next (s.setSpecial i.toNat (if isPair i.toNat then s.S64 a else (s.S a).zeroExtend 64)).done := by
  rw [← mayReach_iff] at h
  simp [execSets, h, State.ok]

/-! ## GETS (R113) -/

theorem execGets_zero {i : BitVec 12} {s : State} (h : reaches s i) : execGets 0 i s = .next s.done := by
  rw [← mayReach_iff] at h
  simp [execGets, h, State.ok]

theorem execGets_ptime {d : BitVec 6} (hd : d ≠ 0#6) (s : State) : execGets d 0 s = .next (s.pushHub (.ptime d)).done := by
  have h : s.mayReach 0 = true := rfl
  simp [execGets, h, hd, State.ok]

theorem execGets_pair {d : BitVec 6} {i : BitVec 12} {s : State} (h : reaches s i) (hd : d ≠ 0#6) (h0 : i.toNat ≠ 0)
    (hp : isPair i.toNat = true) : execGets d i s = .next (s.sresult64 d (s.special i.toNat)) := by
  rw [← mayReach_iff] at h
  simp [execGets, h, hd, h0, hp, State.ok]

theorem execGets_word {d : BitVec 6} {i : BitVec 12} {s : State} (h : reaches s i) (hd : d ≠ 0#6)
    (hp : isPair i.toNat = false) : execGets d i s = .next (s.sresult d (loWord (s.special i.toNat))) := by
  have h0 : i.toNat ≠ 0 := by
    intro h0
    rw [h0] at hp
    cases hp
  rw [← mayReach_iff] at h
  simp [execGets, h, hd, h0, hp, State.ok]

/-! ## SETS (R113) -/

theorem truncate_zeroExtend (w : Word) (k : Nat) :
    (w.zeroExtend 64 : DWord).truncate k = w.extractLsb' 0 k := by
  apply BitVec.eq_of_getLsbD_eq
  intro i hi
  simp [hi]

theorem field'_zeroExtend (w : Word) (hi lo : Nat) : field' (w.zeroExtend 64) hi lo = bits w.toNat hi lo := by
  have hw : (w.zeroExtend 64 : DWord).toNat = w.toNat := by
    have := w.isLt
    rw [BitVec.toNat_setWidth]
    omega
  rw [field', hw]

/-- What SETS answers for a register of one word. -/
theorem exec_sets_word {a : BitVec 6} {i : BitVec 12} {s u : State} {n : Nat} (hn : i.toNat = n) (hp : isPair n = false)
    (hreach : reaches s i) (hset : s.setSpecial n ((s.S a).zeroExtend 64) = u) : exec (.sets a i) s = .next u.done := by
  rw [exec_sets, execSets_of_reaches hreach, hn, hp, ← hset]
  rfl

/-- A register of the ply of one word: SETS leaves the ply as p. -/
theorem sets_word {a : BitVec 6} {i : BitVec 12} {s : State} {p : Ply} {n : Nat} (hn : i.toNat = n)
    (hp : isPair n = false) (hreach : reaches s i)
    (hset : s.setSpecial n ((s.S a).zeroExtend 64) = { s with ply := p }) (hrun : SameRun s { s with ply := p }) :
    Answers (.sets a i) s fun t => OnlyField s t p :=
  ⟨_, exec_sets_word hn hp hreach hset, OnlyField.of_ply hrun⟩

/-- A register of the ply of two words. -/
theorem sets_pair {a : BitVec 6} {i : BitVec 12} {s : State} {p : Ply} {n : Nat} (hn : i.toNat = n)
    (hp : isPair n = true) (hreach : reaches s i)
    (hset : s.setSpecial n (s.S64 a) = { s with ply := p }) (hrun : SameRun s { s with ply := p }) :
    Answers (.sets a i) s fun t => OnlyField s t p := by
  refine ⟨State.done { s with ply := p }, ?_, OnlyField.of_ply hrun⟩
  rw [exec_sets, execSets_of_reaches hreach, hn, hp, ← hset]
  rfl

/-! ### What SETS leaves of a register whose field has a rule -/

theorem State.setSpecial_frnd (s : State) (v : DWord) : s.setSpecial 0x011 v =
    if field' v 2 0 < 5 then { s with ply := { s.ply with frnd := v.truncate 3 } } else s := rfl

theorem State.setSpecial_flattol (s : State) (v : DWord) : s.setSpecial 0x024 v =
    if field' v 15 0 == 0 then s else { s with ply := { s.ply with flattol := v.truncate 16 } } := rfl

theorem State.setSpecial_erun (s : State) (v : DWord) : s.setSpecial 0x107 v =
    if field' v 4 0 ≤ 24 then { s with ply := { s.ply with erun := v.truncate 5 } } else s := rfl

theorem State.setSpecial_vaulttest (s : State) (v : DWord) : s.setSpecial 0x10C v =
    s.modVault (vaultOf s.ply.core) fun u => { u with testEn := v.getLsbD 31, testTemp := v.truncate 16 } := rfl

theorem State.setSpecial_heatcfg (s : State) (v : DWord) : s.setSpecial 0x10D v =
    s.modCluster (clusterOf s.ply.core) fun c =>
      { c with gap := BitVec.ofNat 8 (field' v 15 8), count := if field' v 7 0 == 0 then c.count else v.truncate 8 } := rfl

theorem State.setSpecial_vchl (s : State) (v : DWord) : s.setSpecial 0x10E v =
    if field' v 6 0 == 0 || decide (100 < field' v 6 0) then s
    else s.modVault (vaultOf s.ply.core) fun u => { u with vchl := v.truncate 7 } := rfl

theorem State.setSpecial_rpr (s : State) (v : DWord) : s.setSpecial 0x015 v =
    { s with ply := { s.ply with rpr := writeRpr s.ply.rpr v } } := rfl

/-! ### %rpr (R209) -/

/-- The rows that a write of w leaves in %rpr. -/
def rprRows (old w : Word) : Nat :=
  if w.toNat / 256 % 256 % 8 = 0 ∧ w.toNat / 256 % 256 ≤ 88 then w.toNat / 256 % 256 else old.toNat / 256 % 256

theorem rprRows_lt (old w : Word) : rprRows old w < 256 := by
  unfold rprRows
  split <;> omega

/-- The row field that the model's test leaves. -/
theorem rprRows_eq (old w : Word) : (if (bits w.toNat 15 8 % 8 != 0 || decide (88 < bits w.toNat 15 8)) = true then
    bits old.toNat 15 8 else bits w.toNat 15 8) = rprRows old w := by
  have hw : bits w.toNat 15 8 = w.toNat / 256 % 256 := rfl
  have ho : bits old.toNat 15 8 = old.toNat / 256 % 256 := rfl
  rw [hw, ho]
  unfold rprRows
  by_cases h : w.toNat / 256 % 256 % 8 = 0 ∧ w.toNat / 256 % 256 ≤ 88
  · rw [if_pos h, if_neg (by simpa using h)]
  · rw [if_neg h, if_pos (by simpa [imp_iff_not_or] using h)]

theorem writeRpr_toNat (old w : Word) : (writeRpr old (w.zeroExtend 64)).toNat =
    w.toNat / 2 ^ 31 * 2 ^ 31 + w.toNat / 2 ^ 16 % 8 * 2 ^ 16 + rprRows old w * 256 + w.toNat / 16 % 16 * 16 := by
  have hw := w.isLt
  have hlt := rprRows_lt old w
  simp only [writeRpr, field'_zeroExtend, rprRows_eq]
  simp only [bits, BitVec.toNat_ofNat, Nat.reducePow, Nat.reduceAdd, Nat.reduceSub] at *
  omega

/-- The fields of a word whose value has the form that a write of w leaves. -/
theorem rprFields {r old w : Word} (hr : r.toNat =
    w.toNat / 2 ^ 31 * 2 ^ 31 + w.toNat / 2 ^ 16 % 8 * 2 ^ 16 + rprRows old w * 256 + w.toNat / 16 % 16 * 16) :
    r.getLsbD 31 = w.getLsbD 31 ∧ r.extractLsb' 19 12 = 0 ∧ r.extractLsb' 16 3 = w.extractLsb' 16 3 ∧
    (let rows := w.extractLsb' 8 8
     r.extractLsb' 8 8 = if rows.toNat % 8 = 0 ∧ rows.toNat ≤ 88 then rows else old.extractLsb' 8 8) ∧
    r.extractLsb' 4 4 = w.extractLsb' 4 4 ∧ r.extractLsb' 0 4 = 0 := by
  have hlt := rprRows_lt old w
  have hw := w.isLt
  simp only [Nat.reducePow] at hr hw
  refine ⟨?_, ?_, ?_, ?_, ?_, ?_⟩
  · rw [BitVec.getLsbD, BitVec.getLsbD, Nat.testBit_eq_decide_div_mod_eq, Nat.testBit_eq_decide_div_mod_eq]
    congr 2
    simp only [Nat.reducePow]
    omega
  · apply BitVec.eq_of_toNat_eq
    simp only [BitVec.extractLsb'_toNat, Nat.shiftRight_eq_div_pow, BitVec.ofNat_eq_ofNat, BitVec.toNat_ofNat, Nat.reducePow]
    omega
  · apply BitVec.eq_of_toNat_eq
    simp only [BitVec.extractLsb'_toNat, Nat.shiftRight_eq_div_pow, Nat.reducePow]
    omega
  · apply BitVec.eq_of_toNat_eq
    simp only [BitVec.extractLsb'_toNat, Nat.shiftRight_eq_div_pow, apply_ite BitVec.toNat, Nat.reducePow]
    have hrows : r.toNat / 256 % 256 = rprRows old w := by omega
    exact hrows
  · apply BitVec.eq_of_toNat_eq
    simp only [BitVec.extractLsb'_toNat, Nat.shiftRight_eq_div_pow, Nat.reducePow]
    omega
  · apply BitVec.eq_of_toNat_eq
    simp only [BitVec.extractLsb'_toNat, Nat.shiftRight_eq_div_pow, BitVec.ofNat_eq_ofNat, BitVec.toNat_ofNat, Nat.reducePow]
    omega

/-! ### The registers of the ply at user privilege -/

theorem sets_fflags (a : BitVec 6) (s : State) : Answers (.sets a 0x010) s fun t =>
    OnlyField s t { s.ply with fflags := (s.S a).extractLsb' 0 6 } := by
  refine sets_word (n := 0x010) rfl rfl (Or.inl (by decide)) ?_ ⟨rfl, rfl, rfl, rfl, rfl, rfl⟩
  rw [← truncate_zeroExtend]
  rfl

theorem sets_frnd (a : BitVec 6) (s : State) : Answers (.sets a 0x011) s fun t =>
    OnlyField s t { s.ply with frnd := if (s.S a).toNat % 8 < 5 then (s.S a).extractLsb' 0 3 else s.ply.frnd } := by
  refine sets_word (n := 0x011) rfl rfl (Or.inl (by decide)) ?_ ⟨rfl, rfl, rfl, rfl, rfl, rfl⟩
  have hfield : field' ((s.S a).zeroExtend 64) 2 0 = (s.S a).toNat % 8 := by simp [field'_zeroExtend, bits]
  rw [State.setSpecial_frnd, hfield, truncate_zeroExtend]
  split <;> rfl

theorem sets_role (a : BitVec 6) (s : State) : Answers (.sets a 0x007) s fun t =>
    OnlyField s t { s.ply with role := (s.S a).extractLsb' 0 16 } := by
  refine sets_word (n := 0x007) rfl rfl (Or.inl (by decide)) ?_ ⟨rfl, rfl, rfl, rfl, rfl, rfl⟩
  rw [← truncate_zeroExtend]
  rfl

theorem sets_scope (a : BitVec 6) (s : State) : Answers (.sets a 0x014) s fun t =>
    OnlyField s t { s.ply with scope := (s.S a).extractLsb' 0 24 } := by
  refine sets_word (n := 0x014) rfl rfl (Or.inl (by decide)) ?_ ⟨rfl, rfl, rfl, rfl, rfl, rfl⟩
  rw [← truncate_zeroExtend]
  rfl

/-- The word that SETS leaves in %rpr, by its value. -/
theorem setSpecial_rpr_zeroExtend (s : State) (w : Word) : ∃ r : Word, r.toNat =
    w.toNat / 2 ^ 31 * 2 ^ 31 + w.toNat / 2 ^ 16 % 8 * 2 ^ 16 + rprRows s.ply.rpr w * 256 + w.toNat / 16 % 16 * 16 ∧
    s.setSpecial 0x015 (w.zeroExtend 64) = { s with ply := { s.ply with rpr := r } } :=
  ⟨_, writeRpr_toNat _ _, State.setSpecial_rpr s _⟩

theorem sets_rpr (a : BitVec 6) (s : State) : Answers (.sets a 0x015) s fun t =>
    ∃ r : Word, OnlyField s t { s.ply with rpr := r } ∧
    r.getLsbD 31 = (s.S a).getLsbD 31 ∧ r.extractLsb' 19 12 = 0 ∧ r.extractLsb' 16 3 = (s.S a).extractLsb' 16 3 ∧
    (let rows := (s.S a).extractLsb' 8 8
     r.extractLsb' 8 8 = if rows.toNat % 8 = 0 ∧ rows.toNat ≤ 88 then rows else s.ply.rpr.extractLsb' 8 8) ∧
    r.extractLsb' 4 4 = (s.S a).extractLsb' 4 4 ∧ r.extractLsb' 0 4 = 0 := by
  obtain ⟨r, hr, hset⟩ := setSpecial_rpr_zeroExtend s (s.S a)
  obtain ⟨t, hexec, ht⟩ := sets_word (i := 0x015) (n := 0x015) rfl rfl (Or.inl (by decide)) hset
    ⟨rfl, rfl, rfl, rfl, rfl, rfl⟩
  exact ⟨t, hexec, r, ht, rprFields hr⟩

theorem setSpecial_flattol_zeroExtend (s : State) (w : Word) : s.setSpecial 0x024 (w.zeroExtend 64) =
    { s with ply := { s.ply with flattol := if w.toNat % 65536 = 0 then s.ply.flattol else w.extractLsb' 0 16 } } := by
  have hfield : field' (w.zeroExtend 64) 15 0 = w.toNat % 65536 := by simp [field'_zeroExtend, bits]
  rw [State.setSpecial_flattol, hfield, truncate_zeroExtend]
  by_cases h : w.toNat % 65536 = 0
  · rw [if_pos h, if_pos (by rw [h]; rfl)]
  · rw [if_neg h, if_neg (by rw [beq_iff_eq]; exact h)]

theorem sets_flattol (a : BitVec 6) (s : State) : Answers (.sets a 0x024) s fun t =>
    OnlyField s t { s.ply with
      flattol := if (s.S a).toNat % 65536 = 0 then s.ply.flattol else (s.S a).extractLsb' 0 16 } :=
  sets_word (n := 0x024) rfl rfl (Or.inl (by decide)) (setSpecial_flattol_zeroExtend s _) ⟨rfl, rfl, rfl, rfl, rfl, rfl⟩

/-! ### The trap registers -/

section
variable {s : State} (hsup : s.ply.supervisor = true)
include hsup

/-- A supervisor ply reaches a register below 0x200. -/
theorem reaches_supervisor {i : BitVec 12} (hi : i.toNat < 0x200) : reaches s i := Or.inr ⟨hi, hsup⟩

theorem sets_ecause (a : BitVec 6) : Answers (.sets a 0x102) s fun t => OnlyField s t { s.ply with ecause := s.S a } := by
  refine sets_word (n := 0x102) rfl rfl (reaches_supervisor hsup (by decide)) ?_ ⟨rfl, rfl, rfl, rfl, rfl, rfl⟩
  have hword : ((s.S a).zeroExtend 64 : DWord).truncate 32 = s.S a := by simp
  conv_rhs => rw [← hword]
  rfl

theorem sets_epc (a : BitVec 6) : Answers (.sets a 0x100) s fun t =>
    OnlyField s t { s.ply with epc := s.S64 a &&& 0x0FFFFFFFFFFFFFFC } :=
  sets_pair (n := 0x100) rfl rfl (reaches_supervisor hsup (by decide)) rfl ⟨rfl, rfl, rfl, rfl, rfl, rfl⟩

theorem sets_eaddr (a : BitVec 6) : Answers (.sets a 0x104) s fun t => OnlyField s t { s.ply with eaddr := s.S64 a } :=
  sets_pair (n := 0x104) rfl rfl (reaches_supervisor hsup (by decide)) rfl ⟨rfl, rfl, rfl, rfl, rfl, rfl⟩

theorem sets_elane (a : BitVec 6) : Answers (.sets a 0x106) s fun t =>
    OnlyField s t { s.ply with elane := (s.S a).extractLsb' 0 7 } := by
  refine sets_word (n := 0x106) rfl rfl (reaches_supervisor hsup (by decide)) ?_ ⟨rfl, rfl, rfl, rfl, rfl, rfl⟩
  rw [← truncate_zeroExtend]
  rfl

theorem sets_erun (a : BitVec 6) : Answers (.sets a 0x107) s fun t => OnlyField s t { s.ply with
    erun := if (s.S a).toNat % 32 ≤ 24 then (s.S a).extractLsb' 0 5 else s.ply.erun } := by
  refine sets_word (n := 0x107) rfl rfl (reaches_supervisor hsup (by decide)) ?_ ⟨rfl, rfl, rfl, rfl, rfl, rfl⟩
  have hfield : field' ((s.S a).zeroExtend 64) 4 0 = (s.S a).toNat % 32 := by simp [field'_zeroExtend, bits]
  rw [State.setSpecial_erun, hfield, truncate_zeroExtend]
  split <;> rfl

theorem sets_tvec (a : BitVec 6) : Answers (.sets a 0x108) s fun t =>
    OnlyField s t { s.ply with tvec := s.S64 a &&& 0x0FFFFFFFFFFFFFC0 } :=
  sets_pair (n := 0x108) rfl rfl (reaches_supervisor hsup (by decide)) rfl ⟨rfl, rfl, rfl, rfl, rfl, rfl⟩

theorem sets_ssave (a : BitVec 6) : Answers (.sets a 0x10A) s fun t =>
    OnlyField s t { s.ply with ssave := s.S64 a &&& 0x0FFFFFFFFFFFF000 } :=
  sets_pair (n := 0x10A) rfl rfl (reaches_supervisor hsup (by decide)) rfl ⟨rfl, rfl, rfl, rfl, rfl, rfl⟩

/-! ### The registers of vaults, clusters and tenants -/

theorem sets_vaulttest (a : BitVec 6) : Answers (.sets a 0x10C) s fun t => ∃ u, OnlyField u t u.ply ∧
    u = s.setVault (vaultOf s.ply.core) { s.vault (vaultOf s.ply.core) with
      testEn := (s.S a).getLsbD 31, testTemp := (s.S a).extractLsb' 0 16 } := by
  refine ⟨_, exec_sets_word (n := 0x10C) rfl rfl (reaches_supervisor hsup (by decide)) rfl, _, OnlyField.of_done _, ?_⟩
  have hbit : ((s.S a).zeroExtend 64 : DWord).getLsbD 31 = (s.S a).getLsbD 31 := by simp
  rw [State.setSpecial_vaulttest, hbit, truncate_zeroExtend]
  rfl

theorem sets_heatcfg (a : BitVec 6) : Answers (.sets a 0x10D) s fun t => ∃ u, OnlyField u t u.ply ∧
    u = s.setCluster (s.ply.core / 8) { s.cluster (s.ply.core / 8) with
      gap := (s.S a).extractLsb' 8 8
      count := if (s.S a).extractLsb' 0 8 = 0 then (s.cluster (s.ply.core / 8)).count else (s.S a).extractLsb' 0 8 } := by
  refine ⟨_, exec_sets_word (n := 0x10D) rfl rfl (reaches_supervisor hsup (by decide)) rfl, _, OnlyField.of_done _, ?_⟩
  have hgap : BitVec.ofNat 8 (field' ((s.S a).zeroExtend 64) 15 8) = (s.S a).extractLsb' 8 8 := by
    apply BitVec.eq_of_toNat_eq
    simp [field'_zeroExtend, bits, Nat.shiftRight_eq_div_pow]
  have hcount : (field' ((s.S a).zeroExtend 64) 7 0 == 0) = decide ((s.S a).extractLsb' 0 8 = 0) := by
    simp [field'_zeroExtend, bits, ← BitVec.toNat_inj, beq_eq_decide]
  rw [State.setSpecial_heatcfg, hgap, hcount, truncate_zeroExtend]
  simp only [decide_eq_true_eq]
  rfl

theorem sets_vchl (a : BitVec 6) : Answers (.sets a 0x10E) s fun t =>
    if (s.S a).toNat % 128 = 0 ∨ 100 < (s.S a).toNat % 128 then OnlyField s t s.ply
    else ∃ u, OnlyField u t u.ply ∧ u = s.setVault (vaultOf s.ply.core) { s.vault (vaultOf s.ply.core) with
      vchl := (s.S a).extractLsb' 0 7 } := by
  refine ⟨_, exec_sets_word (n := 0x10E) rfl rfl (reaches_supervisor hsup (by decide)) rfl, ?_⟩
  have hpct : field' ((s.S a).zeroExtend 64) 6 0 = (s.S a).toNat % 128 := by simp [field'_zeroExtend, bits]
  rw [State.setSpecial_vchl, hpct, truncate_zeroExtend]
  simp only [Bool.or_eq_true, beq_iff_eq, decide_eq_true_eq]
  split
  · exact OnlyField.of_done s
  · exact ⟨_, OnlyField.of_done _, rfl⟩

theorem sets_qdl (a : BitVec 6) : Answers (.sets a 0x10F) s fun t => ∃ u, OnlyField u t u.ply ∧
    u = s.setTenant s.ply.tenant { s.tenant s.ply.tenant with qdl := s.S a } := by
  refine ⟨_, exec_sets_word (n := 0x10F) rfl rfl (reaches_supervisor hsup (by decide)) rfl, _, OnlyField.of_done _, ?_⟩
  have hword : ((s.S a).zeroExtend 64 : DWord).truncate 32 = s.S a := by simp
  conv_rhs => rw [← hword]
  rfl

end

/-- SETS leaves a read-only register as it is. -/
theorem sets_readOnly (a : BitVec 6) (i : BitVec 12) (s : State)
    (hi : i.toNat ∈ [0x000, 0x002, 0x003, 0x004, 0x005, 0x006, 0x008, 0x009, 0x00A, 0x00B, 0x00C, 0x00D, 0x00E, 0x00F, 0x012,
      0x013, 0x016, 0x018, 0x019, 0x01A, 0x01B, 0x01C, 0x01D, 0x01E, 0x020, 0x021, 0x022, 0x023, 0x025]) :
    Answers (.sets a i) s fun t => OnlyField s t s.ply := by
  have hreach : i.toNat < 0x100 := by
    simp only [List.mem_cons, List.not_mem_nil, or_false] at hi
    omega
  refine ⟨s.done, ?_, OnlyField.of_done s⟩
  rw [exec_sets, execSets_of_reaches (Or.inl hreach)]
  generalize (if isPair i.toNat then s.S64 a else (s.S a).zeroExtend 64) = v
  generalize i.toNat = n at hi
  fin_cases hi <;> rfl

/-! ### What GETS and a refused access answer -/

theorem gets_word (d : BitVec 6) {i : BitVec 12} {s : State} (h : reaches s i)
    (hi : i.toNat ∉ [0x000, 0x016, 0x100, 0x104, 0x108, 0x10A, 0x200]) : Answers (.gets d i) s fun t =>
    WritesScalar s t d ((s.special i.toNat).extractLsb' 0 32) := by
  have hp : isPair i.toNat = false := by
    simpa [isPair] using hi
  rw [← loWord_eq]
  by_cases hd : d = 0
  · subst hd
    refine ⟨_, (exec_gets ..).trans (execGets_zero h), State.done_frame s, fun r => ?_⟩
    rw [State.done_S, State.afterWrite, if_neg (by simp)]
  · exact ⟨_, (exec_gets ..).trans (execGets_word h hd hp), State.sresult_writes ..⟩

theorem gets_pair {d : BitVec 6} {i : BitVec 12} {s : State} (h : reaches s i) (hd : d ≠ 0)
    (hi : i.toNat ∈ [0x016, 0x100, 0x104, 0x108, 0x10A]) : Answers (.gets d i) s fun t =>
    WritesPair s t d (s.special i.toNat) := by
  have hp : isPair i.toNat = true ∧ i.toNat ≠ 0 := by
    generalize i.toNat = n at hi
    fin_cases hi <;> exact ⟨rfl, by decide⟩
  exact ⟨_, (exec_gets ..).trans (execGets_pair h hd hp.2 hp.1), State.sresult64_writes ..⟩

/-- A request of the hub is added to the ply, and to nothing else but the count of requests. -/
theorem State.pushHub_sameRun (s : State) (k : HubKind) : SameRun s (s.pushHub k) := ⟨rfl, rfl, rfl, rfl, rfl, rfl⟩

theorem gets_ptime {d : BitVec 6} (hd : d ≠ 0) (s : State) : Answers (.gets d 0x000) s fun t =>
    Advanced s t ∧ SameMemory s t ∧ ∃ n, t.ply.hubq = s.ply.hubq ++ [⟨n, s.ply.slot, .ptime d⟩] := by
  refine ⟨_, (exec_gets ..).trans (execGets_ptime hd s), (State.pushHub_sameRun s _).advanced, ⟨fun _ _ => rfl, fun _ _ _ => rfl⟩,
    s.seq + 1, ?_⟩
  rw [State.done_ply, Ply.advance_hubq]
  rfl

theorem gets_refused (d : BitVec 6) {i : BitVec 12} {s : State} (h : ¬reaches s i) (hu : s.ply.supervisor = false) :
    Answers (.gets d i) s fun t => TrapsWithWord s t 0x02 0 :=
  ⟨_, (exec_gets ..).trans (execGets_of_not_reaches h), State.raise_word hu 0x02 0 (by decide) (by decide) (by decide) (by decide) _⟩

theorem sets_refused (a : BitVec 6) {i : BitVec 12} {s : State} (h : ¬reaches s i) (hu : s.ply.supervisor = false) :
    Answers (.sets a i) s fun t => TrapsWithWord s t 0x02 0 :=
  ⟨_, (exec_sets ..).trans (execSets_of_not_reaches h), State.raise_word hu 0x02 0 (by decide) (by decide) (by decide) (by decide) _⟩

/-! ### What the special registers read -/

theorem toNat_zeroExtend64 {k : Nat} (x : BitVec k) (hk : k ≤ 64) : (x.zeroExtend 64 : DWord).toNat = x.toNat := by
  have := x.isLt
  have : 2 ^ k ≤ 2 ^ 64 := Nat.pow_le_pow_right (by decide) hk
  rw [BitVec.toNat_setWidth, Nat.mod_eq_of_lt (by omega)]

theorem toNat_ofNat64 {n : Nat} (h : n < 1024) : (BitVec.ofNat 64 n).toNat = n := by
  rw [BitVec.toNat_ofNat]
  omega

/-- A word of %occ reads its lanes. -/
theorem State.special_occ (s : State) {k i : Nat} (hk : k < 3) (hi : i < 32) :
    (s.special (0x00B + k)).getLsbD i = s.ply.occ.has (32 * k + i) := by
  have hread : s.special (0x00B + k) = (Mask.word s.ply.occ k).zeroExtend 64 := by
    match k, hk with
    | 0, _ => rfl
    | 1, _ => rfl
    | 2, _ => rfl
  rw [hread]
  rw [Mask.word, Mask.has, BitVec.zeroExtend, BitVec.getLsbD_setWidth, BitVec.getLsbD_ofNat, BitVec.getLsbD,
    Nat.testBit_div_two_pow, Nat.add_comm]
  simp [hi, show i < 64 by omega]

theorem State.special_vaulttest (s : State) :
    (s.special 0x10C).getLsbD 31 = (s.vault (vaultOf s.ply.core)).testEn ∧
    (s.special 0x10C).extractLsb' 0 16 = (s.vault (vaultOf s.ply.core)).testTemp := by
  have hread : s.special 0x10C = BitVec.ofNat 64
    ((if (s.vault (vaultOf s.ply.core)).testEn then 2 ^ 31 else 0) + (s.vault (vaultOf s.ply.core)).testTemp.toNat) := rfl
  rw [hread]
  generalize (s.vault (vaultOf s.ply.core)).testEn = e
  generalize (s.vault (vaultOf s.ply.core)).testTemp = w
  have hw := w.isLt
  refine ⟨?_, ?_⟩
  · rw [BitVec.getLsbD, Nat.testBit_eq_decide_div_mod_eq, BitVec.toNat_ofNat]
    cases e
    · simp
      omega
    · simp
      omega
  · apply BitVec.eq_of_toNat_eq
    cases e
    · simp [BitVec.extractLsb'_toNat, hw]
    · simp [BitVec.extractLsb'_toNat]
      omega

/-- Settles O15: the answers of GETS and SETS above, register by register, and what the registers of the ply read. -/
theorem specialRegisters : Obligations.SpecialRegisters := by
  refine ⟨fun d i s h hi => gets_word d h hi, fun d i s h hd hi => gets_pair h hd hi, fun i s h => ?_, fun d s hd => gets_ptime hd s,
    fun d i s h hu => gets_refused d h hu, fun a i s h hu => sets_refused a h hu, sets_fflags, sets_frnd, sets_role, sets_scope,
    sets_rpr, sets_flattol, fun a s hsup => ?_, fun a s hsup => ?_, fun a i s hi => sets_readOnly a i s hi,
    fun s hcore htenant hv ht hd hslot => ?_⟩
  · exact ⟨_, (exec_gets ..).trans (execGets_zero h), State.done_frame s, State.done_S s⟩
  · exact ⟨sets_ecause hsup a, sets_epc hsup a, sets_eaddr hsup a, sets_elane hsup a, sets_erun hsup a, sets_tvec hsup a,
      sets_ssave hsup a⟩
  · exact ⟨sets_vaulttest hsup a, sets_heatcfg hsup a, sets_vchl hsup a, sets_qdl hsup a⟩
  · have ⟨htest, htemp⟩ := State.special_vaulttest s
    have hgap := (s.cluster (s.ply.core / 8)).gap.isLt
    have hcount := (s.cluster (s.ply.core / 8)).count.isLt
    have hext {k : Nat} (x : BitVec k) (hk : k ≤ 64 := by decide) := toNat_zeroExtend64 x hk
    have hnat {n : Nat} (h : n < 1024 := by omega) := toNat_ofNat64 h
    have hdie : dieOf s.ply.core < 1024 := Nat.lt_of_le_of_lt (Nat.div_le_self ..) (by omega)
    have hvcount : s.ply.vcount < 1024 := Nat.lt_of_le_of_lt hv (by decide)
    have hactiles : s.ply.actiles < 1024 := Nat.lt_of_le_of_lt ht (by decide)
    refine ⟨rfl, hext _, hnat, hnat, hnat, hnat, hext _, hext _, hnat, hnat, fun k i => s.special_occ, hnat, hnat, hext _, hext _,
      hext _, hext _, hext _, hext _, rfl, hext _, hext _, rfl, hext _, rfl, hext _, hext _, rfl, rfl,
      ⟨hext _, hext _, htest, htemp, hext _⟩, ⟨hext _, ?_⟩, hext _⟩
    exact (BitVec.toNat_ofNat ..).trans (Nat.mod_eq_of_lt (by omega))

end Sys2Proof.Machine

/-!
Loads and stores as they issue (R180 to R188, R100): what their walks leave, what enters the load-store queue, and the bytes that a
store takes with it.
-/
namespace Sys2Proof.Machine
open Sys2Proof.Claim

/-! ## What walks leave (R179, R377) -/

/-- Work at the homes, and translations that may be held from now on. -/
structure Filled (s t : State) : Prop where
  rest : t = { s with tlb := t.tlb, vaults := t.vaults, homeLeases := t.homeLeases }
  tlb : ∃ l, t.tlb = l ++ s.tlb
  vault : ∀ k, t.vault k = { s.vault k with cache := (t.vault k).cache, counts := (t.vault k).counts }

namespace Filled

theorem refl (s : State) : Filled s s := ⟨rfl, ⟨[], rfl⟩, fun _ => rfl⟩

theorem trans {s t u : State} (h₁ : Filled s t) (h₂ : Filled t u) : Filled s u where
  rest := by
    have h := h₂.rest
    rw [h₁.rest] at h
    exact h
  tlb := by
    obtain ⟨l, hl⟩ := h₁.tlb
    obtain ⟨m, hm⟩ := h₂.tlb
    exact ⟨m ++ l, by rw [hm, hl, List.append_assoc]⟩
  vault k := by
    have h := h₂.vault k
    rw [h₁.vault k] at h
    exact h

theorem of_charged {s t : State} (h : Charged s t) : Filled s t where
  rest := by
    have htlb : t.tlb = s.tlb := by rw [h.rest]
    rw [htlb]
    exact h.rest
  tlb := ⟨[], by rw [h.rest]; rfl⟩
  vault := h.vault

theorem keep (s : State) (e : TlbEntry) : Filled s { s with tlb := e :: s.tlb } := ⟨rfl, ⟨[e], rfl⟩, fun _ => rfl⟩

end Filled

theorem State.fillTlb_filled (s : State) (tenant : Nat) (vas : List DWord) : Filled s (s.fillTlb tenant vas) := by
  refine List.foldlRecOn (motive := fun t => Filled s t) _ _ (Filled.refl s) fun t ht va _ => ht.trans ?_
  have hcharged := State.chargeWalk_charged t tenant va
  split
  · exact Filled.refl t
  · split
    · exact (Filled.of_charged hcharged).trans (Filled.keep _ _)
    · exact Filled.of_charged hcharged

/-! ## The load-store queue of the issuing ply (R189) -/

/-- Accesses enter the queue one behind the other. -/
def State.queueAll (s : State) (ks : List MemKind) : State := ks.foldl State.queueMem s

/-- What a list of accesses leaves in the queue. -/
def State.entries (s : State) (ks : List MemKind) : List MemOp :=
  ks.zipIdx.map fun (k, i) => ⟨s.seq + 1 + i, s.ply.slot, s.issue.first, k⟩

theorem State.queueMem_eq (s : State) (k : MemKind) : s.queueMem k = { s with
    seq := s.seq + 1, ply := { s.ply with lsq := s.ply.lsq ++ [⟨s.seq + 1, s.ply.slot, s.issue.first, k⟩] } } := by
  unfold State.queueMem State.enqueue State.fresh State.modPly
  simp only [beq_self_eq_true, if_true]

theorem State.queueAll_eq (s : State) (ks : List MemKind) : s.queueAll ks = { s with
    seq := s.seq + ks.length, ply := { s.ply with lsq := s.ply.lsq ++ s.entries ks } } := by
  unfold State.entries
  induction ks using List.reverseRecOn with
  | nil => simp [State.queueAll]
  | append_singleton ks k ih =>
    have hlast : s.queueAll (ks ++ [k]) = (s.queueAll ks).queueMem k := List.foldl_concat ..
    rw [hlast, State.queueMem_eq, ih, List.zipIdx_append, List.map_append, List.length_append, ← List.append_assoc]
    simp [Nat.add_assoc, Nat.add_comm 1]

theorem State.queueAll_sameRun (s : State) (ks : List MemKind) : SameRun s (s.queueAll ks) := by
  rw [State.queueAll_eq]
  exact ⟨rfl, rfl, rfl, rfl, rfl, rfl⟩

/-- Accesses that enter the queue of a state that walks have left. -/
theorem Filled.queues {s u : State} (h : Filled s u) (ks : List MemKind) : Queues s (u.queueAll ks).done ks := by
  have hrest := h.rest
  have hply : u.ply = s.ply := by rw [hrest]
  have hseq : u.seq = s.seq := by rw [hrest]
  have hissue : u.issue = s.issue := by rw [hrest]
  have hentries : u.entries ks = s.entries ks := by
    unfold State.entries
    rw [hply, hseq, hissue]
  have hq : u.queueAll ks = { u with seq := s.seq + ks.length, ply := { s.ply with lsq := s.ply.lsq ++ s.entries ks } } := by
    rw [State.queueAll_eq, hentries, hply, hseq]
  have hrun : SameRun s (u.queueAll ks) := by
    rw [hq]
    exact ⟨hissue, rfl, rfl, rfl, rfl, rfl⟩
  refine ⟨?_, ⟨?_, ?_⟩, ⟨fun core pa => ?_, fun core sp a => ?_⟩, hrun.advanced, hrun.pathsKept, hrun.active_done, ?_⟩
  · rw [hq, hrest]
    rfl
  · rw [hq]
    exact h.tlb
  · rw [hq]
    exact h.vault
  · rw [hq, hrest]
    rfl
  · rw [hq, hrest]
    rfl
  · refine (Ply.advance_frame (u.queueAll ks).ply (u.queueAll ks).issue).trans ?_
    rw [hq]
    rfl

/-- They enter the queue, and nothing is translated. -/
theorem State.queueAll_queuesOnly (s : State) (ks : List MemKind) : QueuesOnly s (s.queueAll ks).done ks :=
  ⟨(Filled.refl s).queues ks, by rw [State.queueAll_eq]; rfl, by rw [State.queueAll_eq]; rfl, by rw [State.queueAll_eq]; rfl⟩

/-! ## The addresses of lanes that pass their checks (R181, R184) -/

theorem State.globalLanes_of_reaches {s : State} {acc : Access} {n : Nat} {lanes : List Nat} {ea : Nat → DWord} {pa : Nat → Nat}
    (h : ∀ i ∈ lanes, Reaches s acc n (ea i) i (pa i)) :
    s.globalLanes acc n lanes ea = .ok (lanes.map fun i => ⟨i, ea i, pa i⟩) := by
  have hcheck : (lanes.map fun i => (i, Pages.check (s.pages s.ply.tenant acc (lanes.map ea)) n (ea i) i)) =
      lanes.map fun i => (i, .ok (pa i)) := by
    refine List.map_congr_left fun i hi => ?_
    rw [State.pages_check (List.mem_map_of_mem hi), State.checkGlobal_of_reaches (h i hi)]
  have hnone : lanes.filterMap (fun _ => (none : Option Cause)) = [] := List.filterMap_eq_nil_iff.mpr fun _ _ => rfl
  have hall : lanes.filterMap (fun i => some (⟨i, ea i, pa i⟩ : LaneAddr)) = lanes.map fun i => ⟨i, ea i, pa i⟩ :=
    congrFun List.filterMap_eq_map lanes
  unfold State.globalLanes
  dsimp only
  rw [hcheck, List.filterMap_map, List.filterMap_map]
  simp only [Function.comp_def, hnone, hall]

theorem Ply.checkLocal_ok {p : Ply} {store : Bool} {n lane : Nat} {a : Word} {sp : Space}
    (hspace : spaceOf (a.toNat / 2 ^ 30) = some sp) (hstore : (store && sp != .xbuf) = false)
    (halign : a.toNat % 2 ^ 30 % n = 0) (hlimit : a.toNat % 2 ^ 30 + n ≤ p.spaceLimit sp) :
    p.checkLocal store n a lane = .ok (sp, p.absolute sp (a.toNat % 2 ^ 30)) := by
  unfold Ply.checkLocal
  simp only [hspace, hstore, halign, Nat.not_lt.mpr hlimit, bne_self_eq_false, Bool.false_eq_true, if_false]

theorem Ply.checkLocal_of_reachesLocal {s : State} {store : Bool} {n lane at' : Nat} {a : Word} {sp : Space}
    (h : ReachesLocal s store n a sp at') : s.ply.checkLocal store n a lane = .ok (sp, at') := by
  obtain ⟨halign, h⟩ := h
  cases sp with
  | xbuf =>
    obtain ⟨hsp, hlimit, rfl⟩ := h
    exact Ply.checkLocal_ok (by rw [hsp]; rfl) (Bool.and_false _) halign hlimit
  | wbuf =>
    obtain ⟨hsp, rfl, hlimit, rfl⟩ := h
    exact Ply.checkLocal_ok (by rw [hsp]; rfl) rfl halign hlimit
  | sbuf =>
    obtain ⟨hsp, rfl, hlimit, rfl⟩ := h
    exact Ply.checkLocal_ok (by rw [hsp]; rfl) rfl halign hlimit

theorem State.localLanes_of_reaches {s : State} {store : Bool} {n : Nat} {lanes : List Nat} {ea : Nat → Word} {sp : Nat → Space}
    {pa : Nat → Nat} (h : ∀ i ∈ lanes, ReachesLocal s store n (ea i) (sp i) (pa i)) :
    s.localLanes store n lanes ea = .ok (lanes.map fun i => (sp i, ⟨i, (ea i).zeroExtend 64, pa i⟩)) := by
  unfold State.localLanes
  induction lanes using List.reverseRecOn with
  | nil => rfl
  | append_singleton lanes k ih =>
    rw [List.foldl_concat, ih fun i hi => h i (List.mem_append_left _ hi)]
    simp only [Ply.checkLocal_of_reachesLocal (h k (by simp)), List.map_append, List.map_cons, List.map_nil]

theorem State.eaX_eq (s : State) (b : BitVec 6) (x : BitVec 7) (c : BitVec 2) : s.eaX b x c = laneOffset s b x c := by
  have hdisp : loWord s.disp = BitVec.ofInt 32 (displacement s) := by
    rw [State.disp_eq, loWord]
    apply BitVec.eq_of_toNat_eq
    simp [BitVec.toNat_ofInt]
    omega
  funext i
  unfold State.eaX laneOffset State.index
  rw [BitVec.ofInt_add, BitVec.ofInt_mul, BitVec.ofInt_natCast, hdisp, scaleOf_eq, ← BitVec.add_assoc, BitVec.ofInt_toInt]

/-! ## The bytes that a store takes (R182) -/

theorem take_leBytes {k n : Nat} (h : k ≤ n) (x : Nat) : (leBytes n x).take k = leBytes k x := by
  induction k generalizing n x with
  | zero => rfl
  | succ k ih =>
    obtain ⟨n, rfl⟩ : ∃ m, n = m + 1 := ⟨n - 1, by omega⟩
    rw [leBytes, List.take_succ_cons, ih (by omega), leBytes]


/-- The register k of a store's run, or the zeros of vz. -/
theorem State.laneData_register {s : State} {v : BitVec 7} {n : Nat} (hv : RunReady s v n) (hn : 0 < n) (k i : Nat) :
    (s.V (if v.toNat ≤ 119 then v + BitVec.ofNat 7 k else v)).at i =
      if v = 124 then 0 else (s.V (v + BitVec.ofNat 7 k)).at i := by
  obtain rfl | ⟨-, hle⟩ := hv
  · exact Lanes.zero_at i
  · have h119 : v.toNat ≤ 119 := by omega
    have h124 : v ≠ 124 := by
      rintro rfl
      exact absurd h119 (by decide)
    rw [if_pos h119, if_neg h124]

theorem State.laneData_eq {s : State} {v : BitVec 7} {z : Nat} (hz : z ≤ 5) (hv : RunReady s v (registersOf z)) (i : Nat) :
    s.laneData v z i = storedBytes s v z i := by
  have hn : 0 < registersOf z := by
    unfold registersOf
    split <;> decide
  unfold State.laneData storedBytes
  by_cases h5 : z = 5
  · simp only [h5, beq_self_eq_true, if_true, State.laneData_register hv hn, wordBytes]
  · have h4 : bytesOf z ≤ 4 := by
      unfold bytesOf
      grind
    simp only [h5, beq_iff_eq, if_false, State.laneData_register hv hn, sizeOf'_eq hz, wordBytes]
    exact take_leBytes h4 _

theorem leBytes_congr {n x y : Nat} (h : x % 256 ^ n = y % 256 ^ n) : leBytes n x = leBytes n y := by
  induction n generalizing x y with
  | zero => rfl
  | succ n ih =>
    rw [pow_succ'] at h
    have hlow : x % 256 = y % 256 := by
      rw [← Nat.mod_mul_right_mod x 256 (256 ^ n), h, Nat.mod_mul_right_mod]
    have hhigh : x / 256 % 256 ^ n = y / 256 % 256 ^ n := by
      rw [← Nat.mod_mul_right_div_self, h, Nat.mod_mul_right_div_self]
    rw [leBytes, leBytes, ih hhigh]
    congr 1
    apply BitVec.eq_of_toNat_eq
    rwa [BitVec.toNat_ofNat, BitVec.toNat_ofNat]

theorem leBytes_add (m n x : Nat) : leBytes (m + n) x = leBytes m x ++ leBytes n (x / 256 ^ m) := by
  induction m generalizing x with
  | zero => simp [leBytes]
  | succ m ih => rw [Nat.succ_add, leBytes, ih, leBytes, Nat.div_div_eq_div_mul, ← pow_succ', List.cons_append]

theorem pair_toNat (lo hi : Word) : (pair lo hi).toNat = hi.toNat * 2 ^ 32 + lo.toNat := by
  rw [pair, BitVec.toNat_append, Nat.shiftLeft_eq, Nat.mul_comm, Nat.two_pow_add_eq_or_of_lt lo.isLt]

/-- The eight bytes of a register pair, the low word's first. -/
theorem dwordBytes_pair (lo hi : Word) : dwordBytes (pair lo hi) = leBytes 4 lo.toNat ++ leBytes 4 hi.toNat := by
  have hlo := lo.isLt
  rw [dwordBytes, leBytes_add 4 4, pair_toNat]
  congr 1
  · apply leBytes_congr
    omega
  · congr 1
    omega

/-! ## The fence of an order bit (R188) -/

theorem acquires_one (s : State) : acquires s 1 = [.fence false true s.hord] := rfl
theorem releases_one (s : State) : releases s 1 = [.fence true false s.hord] := rfl
theorem releases_zero (s : State) : releases s 0 = [] := rfl

theorem State.queueAll_append (s : State) (ks ls : List MemKind) : s.queueAll (ks ++ ls) = (s.queueAll ks).queueAll ls :=
  List.foldl_append

theorem State.queueMem_hord (s : State) (k : MemKind) : (s.queueMem k).hord = s.hord := by
  rw [State.queueMem_eq]
  rfl

theorem State.queueMem_policy (s : State) (k : MemKind) : (s.queueMem k).policy = s.policy := by
  rw [State.queueMem_eq]
  rfl

theorem Filled.hord {s t : State} (h : Filled s t) : t.hord = s.hord := by
  unfold State.hord
  rw [h.rest]

theorem Filled.policy {s t : State} (h : Filled s t) : t.policy = s.policy := by
  unfold State.policy
  rw [h.rest]

/-- The model's test of an order bit queues the fence of an acquire. -/
theorem State.queue_acquires {s u : State} (h : u.hord = s.hord) (q : BitVec 1) :
    (if q == 1 then u.queueMem (.fence false true u.hord) else u) = u.queueAll (acquires s q) := by
  obtain rfl | rfl : q = 0 ∨ q = 1 := by
    revert q
    decide
  · rfl
  · rw [acquires_one, ← h]
    rfl

theorem State.queue_releases {s u : State} (h : u.hord = s.hord) (q : BitVec 1) :
    (if q == 1 then u.queueMem (.fence true false u.hord) else u) = u.queueAll (releases s q) := by
  obtain rfl | rfl : q = 0 ∨ q = 1 := by
    revert q
    decide
  · rfl
  · rw [releases_one, ← h]
    rfl

/-! ## Loads -/

theorem exec_ldx (v : BitVec 7) (b : BitVec 6) (x : BitVec 7) (c : BitVec 2) (z : BitVec 3) (s : State) :
    exec (.ldx v b x c z) s = execLdx v b x c z s := rfl
theorem exec_stx (v : BitVec 7) (b : BitVec 6) (x : BitVec 7) (c : BitVec 2) (z : BitVec 3) (s : State) :
    exec (.stx v b x c z) s = execStx v b x c z s := rfl

/-- A load without an active lane queues its fence alone. -/
theorem ld_of_no_lane {s : State} {v : BitVec 7} {p : BitVec 6} {x : BitVec 7} {c : BitVec 2} {z : BitVec 3} (q : BitVec 1)
    (hv : RunReady s v (registersOf z.toNat)) (hx : VectorReady s [x]) (h : activeLanes s = []) :
    execLd v p x c z q s = .next (s.queueAll (acquires s q)).done := by
  unfold execLd
  rw [sizeRegs_eq, State.checkRun_ready hv, State.checkV_ready hx, show s.loadLanes = activeLanes s from rfl, h,
    ← State.queue_acquires rfl]
  rfl

theorem ld_of_lanes {s : State} {v : BitVec 7} {p : BitVec 6} {x : BitVec 7} {c : BitVec 2} {z : BitVec 3} (q : BitVec 1)
    {pa : Nat → Nat} (hz : z.toNat ≤ 5) (hv : RunReady s v (registersOf z.toNat)) (hx : VectorReady s [x])
    (h : activeLanes s ≠ []) (hpa : ∀ i ∈ activeLanes s, Reaches s .read (bytesOf z.toNat) (laneAddress s p x c i) i (pa i)) :
    ∃ u, Filled s u ∧ execLd v p x c z q s = .next (u.queueAll
      ([.load v z.toNat ((activeLanes s).map fun i => ⟨i, laneAddress s p x c i, pa i⟩) s.policy] ++ acquires s q)).done := by
  have hne : (activeLanes s).isEmpty = false := List.isEmpty_eq_false_iff.mpr h
  have hfill := State.fillTlb_filled s s.ply.tenant
    (((activeLanes s).map fun i => (⟨i, laneAddress s p x c i, pa i⟩ : LaneAddr)).map (·.va))
  refine ⟨_, hfill, ?_⟩
  unfold execLd
  rw [sizeRegs_eq, State.checkRun_ready hv, State.checkV_ready hx, show s.loadLanes = activeLanes s from rfl, sizeOf'_eq hz,
    State.ea_eq, State.queueAll_append, ← State.queue_acquires (u := State.queueAll _ [_])
      ((State.queueMem_hord ..).trans hfill.hord)]
  simp only [hne, State.globalLanes_of_reaches hpa]
  rfl

theorem ldx_of_no_lane {s : State} {v : BitVec 7} (b : BitVec 6) {x : BitVec 7} (c : BitVec 2) {z : BitVec 3}
    (hv : RunReady s v (registersOf z.toNat)) (hx : VectorReady s [x]) (h : activeLanes s = []) :
    execLdx v b x c z s = .next (s.queueAll []).done := by
  unfold execLdx
  rw [sizeRegs_eq, State.checkRun_ready hv, State.checkV_ready hx, show s.loadLanes = activeLanes s from rfl, h]
  rfl

theorem ldx_of_lanes {s : State} {v : BitVec 7} {b : BitVec 6} {x : BitVec 7} {c : BitVec 2} {z : BitVec 3}
    {sp : Nat → Space} {pa : Nat → Nat} (hz : z.toNat ≤ 5) (hv : RunReady s v (registersOf z.toNat)) (hx : VectorReady s [x])
    (h : activeLanes s ≠ [])
    (hpa : ∀ i ∈ activeLanes s, ReachesLocal s false (bytesOf z.toNat) (laneOffset s b x c i) (sp i) (pa i)) :
    execLdx v b x c z s = .next (s.queueAll [.loadX v z.toNat
      ((activeLanes s).map fun i => (sp i, ⟨i, (laneOffset s b x c i).zeroExtend 64, pa i⟩))]).done := by
  have hne : (activeLanes s).isEmpty = false := List.isEmpty_eq_false_iff.mpr h
  unfold execLdx
  rw [sizeRegs_eq, State.checkRun_ready hv, State.checkV_ready hx, show s.loadLanes = activeLanes s from rfl, sizeOf'_eq hz,
    State.eaX_eq]
  simp only [hne, State.localLanes_of_reaches hpa]
  rfl

theorem lds_of_reaches {s : State} (d p : BitVec 6) (q z : BitVec 1) (i : BitVec 11) {pa : Nat}
    (h : Reaches s .read (if z = 1 then 8 else 4) (scalarAddress s p i) 127 pa) :
    ∃ u, Filled s u ∧ execLds d p q z i s = .next (u.queueAll
      ([.lds d (z == 1) ⟨96, scalarAddress s p i, pa⟩ s.policy] ++ acquires s q)).done := by
  have hfill := State.fillTlb_filled s s.ply.tenant [scalarAddress s p i]
  refine ⟨_, hfill, ?_⟩
  rw [State.queueAll_append, ← State.queue_acquires (u := State.queueAll _ [_]) ((State.queueMem_hord ..).trans hfill.hord)]
  unfold execLds
  simp only [State.eaS_eq, beq_iff_eq, State.checkGlobal_of_reaches h]
  rfl

/-- Settles O16: the lanes that pass their checks give the addresses, walks leave what walks leave, and the access and its fence
enter the queue. -/
theorem loadIssue : Obligations.LoadIssue := by
  refine ⟨fun v p x c z q s pa hz hv hx hpa => ?_, fun v b x c z s sp pa hz hv hx hpa => ?_, fun d p q z i s pa hpa => ?_⟩
  · by_cases h : activeLanes s = []
    · rw [if_pos h]
      exact ⟨_, (exec_ld ..).trans (ld_of_no_lane q hv hx h), (Filled.refl s).queues _⟩
    · rw [if_neg h]
      obtain ⟨u, hu, hexec⟩ := ld_of_lanes q hz hv hx h hpa
      exact ⟨_, (exec_ld ..).trans hexec, hu.queues _⟩
  · by_cases h : activeLanes s = []
    · rw [if_pos h]
      exact ⟨_, (exec_ldx ..).trans (ldx_of_no_lane b c hv hx h), s.queueAll_queuesOnly _⟩
    · rw [if_neg h]
      exact ⟨_, (exec_ldx ..).trans (ldx_of_lanes hz hv hx h hpa), s.queueAll_queuesOnly _⟩
  · obtain ⟨u, hu, hexec⟩ := lds_of_reaches d p q z i hpa
    exact ⟨_, (exec_lds ..).trans hexec, hu.queues _⟩

/-! ## Stores -/

theorem st_of_no_lane {s : State} {v : BitVec 7} {p : BitVec 6} {x : BitVec 7} {c : BitVec 2} {z : BitVec 3} (q : BitVec 1)
    (hv : RunReady s v (registersOf z.toNat)) (hx : VectorReady s [x]) (h : storingLanes s = []) :
    execSt v p x c z q s = .next (s.queueAll (releases s q)).done := by
  unfold execSt
  rw [sizeRegs_eq, State.checkRun_ready hv, State.checkV_ready hx, State.storeLanes_eq, h, ← State.queue_releases rfl]
  rfl

/-- A store enters the queue behind the fence of its release. -/
theorem Filled.queue_store {s u : State} (h : Filled s u) (q : BitVec 1) (l : List LaneStore) :
    (let v := if q == 1 then u.queueMem (.fence true false u.hord) else u
     v.queueMem (.store l v.policy)) = u.queueAll (releases s q ++ [.store l s.policy]) := by
  obtain rfl | rfl : q = 0 ∨ q = 1 := by
    revert q
    decide
  · rw [releases_zero, ← h.policy]
    rfl
  · rw [releases_one, ← h.policy, ← h.hord, ← State.queueMem_policy]
    rfl

theorem st_of_lanes {s : State} {v : BitVec 7} {p : BitVec 6} {x : BitVec 7} {c : BitVec 2} {z : BitVec 3} (q : BitVec 1)
    {pa : Nat → Nat} (hz : z.toNat ≤ 5) (hv : RunReady s v (registersOf z.toNat)) (hx : VectorReady s [x])
    (h : storingLanes s ≠ [])
    (hpa : ∀ i ∈ storingLanes s, Reaches s .write (bytesOf z.toNat) (laneAddress s p x c i) i (pa i)) :
    ∃ u, Filled s u ∧ execSt v p x c z q s = .next (u.queueAll (releases s q ++ [.store ((storingLanes s).map fun i =>
      ⟨i, laneAddress s p x c i, pa i, storedBytes s v z.toNat i⟩) s.policy])).done := by
  have hne : (storingLanes s).isEmpty = false := List.isEmpty_eq_false_iff.mpr h
  have hfill := State.fillTlb_filled s s.ply.tenant
    (((storingLanes s).map fun i => (⟨i, laneAddress s p x c i, pa i⟩ : LaneAddr)).map (·.va))
  refine ⟨_, hfill, ?_⟩
  rw [← hfill.queue_store]
  unfold execSt
  rw [sizeRegs_eq, State.checkRun_ready hv, State.checkV_ready hx, State.storeLanes_eq, sizeOf'_eq hz, State.ea_eq]
  simp only [hne, State.globalLanes_of_reaches hpa, List.map_map, Function.comp_def, State.laneData_eq hz hv]
  rfl

theorem stx_of_no_lane {s : State} {v : BitVec 7} (b : BitVec 6) {x : BitVec 7} (c : BitVec 2) {z : BitVec 3}
    (hv : RunReady s v (registersOf z.toNat)) (hx : VectorReady s [x]) (h : storingLanes s = []) :
    execStx v b x c z s = .next (s.queueAll []).done := by
  unfold execStx
  rw [sizeRegs_eq, State.checkRun_ready hv, State.checkV_ready hx, State.storeLanes_eq, h]
  rfl

theorem stx_of_lanes {s : State} {v : BitVec 7} {b : BitVec 6} {x : BitVec 7} {c : BitVec 2} {z : BitVec 3}
    {pa : Nat → Nat} (hz : z.toNat ≤ 5) (hv : RunReady s v (registersOf z.toNat)) (hx : VectorReady s [x])
    (h : storingLanes s ≠ [])
    (hpa : ∀ i ∈ storingLanes s, ReachesLocal s true (bytesOf z.toNat) (laneOffset s b x c i) .xbuf (pa i)) :
    execStx v b x c z s = .next (s.queueAll [.storeX ((storingLanes s).map fun i =>
      ⟨i, (laneOffset s b x c i).zeroExtend 64, pa i, storedBytes s v z.toNat i⟩) false]).done := by
  have hne : (storingLanes s).isEmpty = false := List.isEmpty_eq_false_iff.mpr h
  unfold execStx
  rw [sizeRegs_eq, State.checkRun_ready hv, State.checkV_ready hx, State.storeLanes_eq, sizeOf'_eq hz, State.eaX_eq]
  simp only [hne, State.localLanes_of_reaches (sp := fun _ => .xbuf) hpa, List.map_map, Function.comp_def,
    State.laneData_eq hz hv]
  rfl

theorem sts_of_reaches {s : State} (d p : BitVec 6) (q z : BitVec 1) (i : BitVec 11) {pa : Nat}
    (h : Reaches s .write (if z = 1 then 8 else 4) (scalarAddress s p i) 127 pa) :
    ∃ u, Filled s u ∧ execSts d p q z i s = .next (u.queueAll (releases s q ++ [.store [⟨96, scalarAddress s p i, pa,
      if z = 1 then leBytes 4 (s.S d).toNat ++ leBytes 4 (s.S (d + 1)).toNat else leBytes 4 (s.S d).toNat⟩] s.policy])).done := by
  have hfill := State.fillTlb_filled s s.ply.tenant [scalarAddress s p i]
  refine ⟨_, hfill, ?_⟩
  rw [← hfill.queue_store, ← dwordBytes_pair]
  unfold execSts
  simp only [State.eaS_eq, beq_iff_eq, State.checkGlobal_of_reaches h]
  rfl

/-- Settles O17: as for loads, with the fence of a release ahead of the store and the bytes of the lanes that store. -/
theorem storeIssue : Obligations.StoreIssue := by
  refine ⟨fun v p x c z q s pa hz hv hx hpa => ?_, fun v b x c z s pa hz hv hx hpa => ?_, fun d p q z i s pa hpa => ?_⟩
  · by_cases h : storingLanes s = []
    · rw [if_pos h, List.append_nil]
      exact ⟨_, (exec_st ..).trans (st_of_no_lane q hv hx h), (Filled.refl s).queues _⟩
    · rw [if_neg h]
      obtain ⟨u, hu, hexec⟩ := st_of_lanes q hz hv hx h hpa
      exact ⟨_, (exec_st ..).trans hexec, hu.queues _⟩
  · by_cases h : storingLanes s = []
    · rw [if_pos h]
      exact ⟨_, (exec_stx ..).trans (stx_of_no_lane b c hv hx h), s.queueAll_queuesOnly _⟩
    · rw [if_neg h]
      exact ⟨_, (exec_stx ..).trans (stx_of_lanes hz hv hx h hpa), s.queueAll_queuesOnly _⟩
  · obtain ⟨u, hu, hexec⟩ := sts_of_reaches d p q z i hpa
    exact ⟨_, (exec_sts ..).trans hexec, hu.queues _⟩

end Sys2Proof.Machine

/-!
Fences (R115, R187, R189, R196): which entries stay in the load-store queue, what a satisfied XFENCE marks, and what no access
passes.
-/
namespace Sys2Proof.Machine
open Sys2Proof.Claim

/-- What one step of a fold makes hold, and the others keep, holds at its end. -/
theorem foldl_of_mem {α β : Type} {P : β → Prop} {f : β → α → β} {l : List α} {x : α} (hx : x ∈ l) (hmake : ∀ b, P (f b x))
    (hkeep : ∀ b, ∀ y ∈ l, P b → P (f b y)) (b : β) : P (l.foldl f b) := by
  obtain ⟨l₁, l₂, rfl⟩ := List.append_of_mem hx
  rw [List.foldl_append, List.foldl_cons]
  exact List.foldlRecOn l₂ f (hmake _) fun b hb y hy => hkeep b y (List.mem_append_right _ (List.mem_cons_of_mem _ hy)) hb

/-! ## The entries that stay (R187, R196) -/

/-- The issue numbers of the satisfied XFENCEs of a queue. -/
def State.metXfences (s : State) (p : Ply) : List Nat :=
  p.lsq.filterMap fun e => match e.kind with
    | .xfence => if s.fenceMet p e then some e.seq else none
    | _ => none

/-- A queue without its satisfied XFENCEs. -/
def State.withoutXfences (s : State) (p : Ply) : List MemOp :=
  p.lsq.filter fun e => match e.kind with
    | .xfence => !s.fenceMet p e
    | _ => true

/-- What settling leaves of a queue. -/
def State.settled (s : State) (p : Ply) : List MemOp :=
  s.dropFences { p with lsq := s.withoutXfences p } ((s.withoutXfences p).length + 1) (s.withoutXfences p)

theorem State.settleLsq_eq {s : State} {uid : Nat} {p : Ply} (h : s.anyPly uid = some p) : s.settleLsq uid =
    if (s.settled p).length == p.lsq.length then s
    else ((s.metXfences p).foldl (fun t f => t.fenceOthers p f) s).modAny uid fun q =>
      { q with lsq := s.settled p, stxOld := s.fenceWords p.core (s.metXfences p) q.stxOld } := by
  unfold State.settleLsq
  rw [h]
  rfl

theorem State.mem_dropFences {s : State} {p : Ply} {n : Nat} {l : List MemOp} {o : MemOp} (ho : o ∈ l)
    (hstays : ∀ rel acq scope, o.kind = .fence rel acq scope → s.fenceMet p o = false) : o ∈ s.dropFences p n l := by
  induction l generalizing n with
  | nil => cases ho
  | cons e l ih =>
    cases n with
    | zero => exact ho
    | succ n =>
      unfold State.dropFences
      split
      · next hk =>
        split
        · next hmet =>
          refine ih ((List.mem_cons.mp ho).resolve_left ?_)
          rintro rfl
          rw [hstays _ _ _ hk] at hmet
          cases hmet
        · exact ho
      · exact ho

/-- What the settled queue keeps: everything but the fences that are satisfied. -/
theorem State.mem_settled {s : State} {p : Ply} {o : MemOp} (ho : o ∈ p.lsq) (hx : o.kind = .xfence → s.fenceMet p o = false)
    
    (hf : ∀ rel acq scope, o.kind = .fence rel acq scope → s.fenceMet { p with lsq := s.withoutXfences p } o = false) :
    o ∈ s.settled p := by
  refine State.mem_dropFences (List.mem_filter.mpr ⟨ho, ?_⟩) hf
  split
  · next hk => rw [hx hk]; rfl
  · rfl

theorem State.mem_withoutXfences {s : State} {p : Ply} {o : MemOp} (ho : o ∈ p.lsq) (hx : o.kind ≠ .xfence) :
    o ∈ s.withoutXfences p := by
  refine List.mem_filter.mpr ⟨ho, ?_⟩
  split
  · next hk => exact absurd hk hx
  · rfl

theorem State.length_settled_lt {s : State} {p : Ply} {o : MemOp} (ho : o ∈ p.lsq) (hk : o.kind = .xfence)
    (hmet : s.fenceMet p o = true) : (s.settled p).length < p.lsq.length := by
  have hdrop (q : Ply) (n : Nat) (l : List MemOp) : (s.dropFences q n l).length ≤ l.length := by
    induction l generalizing n with
    | nil => cases n <;> exact Nat.le_refl _
    | cons e l ih =>
      cases n with
      | zero => exact Nat.le_refl _
      | succ n =>
        unfold State.dropFences
        split
        · split
          · exact (ih n).trans (Nat.le_succ _)
          · exact Nat.le_refl _
        · exact Nat.le_refl _
  refine (hdrop _ _ _).trans_lt (List.length_filter_lt_length_iff_exists.mpr ⟨o, ho, ?_⟩)
  rw [hk, hmet]
  decide

/-! ## Which fences are satisfied -/

theorem Ply.mem_older {p : Ply} {o : MemOp} {seq : Nat} (ho : o ∈ p.lsq) (h : o.seq < seq) : o ∈ p.older seq :=
  List.mem_filter.mpr ⟨ho, decide_eq_true h⟩

theorem MemKind.isStore_of_isAtom {k : MemKind} (h : k.isAtom = true) : k.isStore = true := by
  cases k <;> first | rfl | cases h

/-- A release at core scope waits for every earlier store of the queue, one below it for the atomics alone (R187). -/
theorem State.released'_eq_false {s : State} {p : Ply} {o : MemOp} {seq scope : Nat} (ho : o ∈ p.lsq) (h : o.seq < seq)
    (hk : o.kind.isAtom = true ∨ 1 ≤ scope ∧ o.kind.isStore = true) : s.released' p seq scope = false := by
  have hearly := Ply.mem_older ho h
  unfold State.released'
  by_cases hscope : scope = 0
  · have hatom : o.kind.isAtom = true := hk.resolve_right fun h => by omega
    have hany : (p.older seq).any (fun e => e.kind.isAtom) = true := List.any_eq_true.mpr ⟨o, hearly, hatom⟩
    simp [hscope, hany]
  · have hstore : o.kind.isStore = true := hk.elim MemKind.isStore_of_isAtom And.right
    have hany : (p.older seq).any (fun e => e.kind.isStore) = true := List.any_eq_true.mpr ⟨o, hearly, hstore⟩
    simp [hscope, hany]

/-- What a fence waits for (R187): it is not satisfied while one of these is not performed. -/
theorem State.fenceMet_eq_false {s : State} {p : Ply} {f o : MemOp} {rel acq : Bool} {scope : Nat}
    (hf : f.kind = .fence rel acq scope) (ho : o ∈ p.lsq) (h : o.seq < f.seq)
    (hk : (rel = true ∧ (o.kind.isAtom = true ∨ 1 ≤ scope ∧ o.kind.isStore = true)) ∨ (acq = true ∧ o.kind.takesValue = true)) :
    s.fenceMet p f = false := by
  unfold State.fenceMet
  rw [hf]
  obtain ⟨rfl, hk⟩ | ⟨rfl, hk⟩ := hk
  · simp [State.released'_eq_false ho h hk]
  · have hany : (p.older f.seq).any (fun e => e.kind.takesValue) = true := List.any_eq_true.mpr ⟨o, Ply.mem_older ho h, hk⟩
    simp [hany]

theorem State.fenceMet_xfence {s : State} {p : Ply} {f : MemOp} (hf : f.kind = .xfence) :
    s.fenceMet p f = !(p.older f.seq).any fun o => o.kind.isStoreX := by
  unfold State.fenceMet
  rw [hf]

/-- An access that may be performed has no fence ahead of it that is not satisfied. -/
theorem State.fenceMet_of_performable {s : State} {p : Ply} {e f : MemOp} {rel acq : Bool} {scope : Nat} (hf : f ∈ p.lsq)
    (h : f.seq < e.seq) (hk : f.kind = .fence rel acq scope) (hp : s.performable p e = true) : s.fenceMet p f = true := by
  unfold State.performable at hp
  simp only [Bool.and_eq_true] at hp
  obtain ⟨⟨⟨⟨⟨-, hall⟩, -⟩, -⟩, -⟩, -⟩ := hp
  have hmet := List.all_eq_true.mp hall f (Ply.mem_older hf h)
  rwa [hk] at hmet

/-! ## What a satisfied XFENCE marks (R196) -/

theorem SameButFences.refl (l : List OldWord) : SameButFences l l := rfl

theorem SameButFences.trans {l m n : List OldWord} (h₁ : SameButFences l m) (h₂ : SameButFences m n) : SameButFences l n :=
  Eq.trans h₁ h₂

theorem SameButFences.map {g : OldWord → OldWord} (hg : ∀ w, ({ g w with fence := none } : OldWord) = { w with fence := none })
    (l : List OldWord) : SameButFences (l.map g) l := by
  unfold SameButFences
  rw [List.map_map]
  exact List.map_congr_left fun w _ => hg w

/-- A satisfied XFENCE leaves marks on the records of other plies' words and of the engines' words, and nothing else. -/
structure FenceMarks (s t : State) : Prop where
  rest : t = { s with plies := t.plies, cores := t.cores }
  length : t.plies.length = s.plies.length
  plies : ∀ (k : Nat) p q, s.plies[k]? = some p → t.plies[k]? = some q →
    q = ({ p with stxOld := q.stxOld } : Ply) ∧ SameButFences q.stxOld p.stxOld
  core : ∀ k, t.core k = { s.core k with unseen := (t.core k).unseen } ∧ SameButFences (t.core k).unseen (s.core k).unseen

namespace FenceMarks

theorem refl (s : State) : FenceMarks s s := by
  refine ⟨rfl, rfl, fun k p q hp hq => ?_, fun _ => ⟨rfl, SameButFences.refl _⟩⟩
  obtain rfl : p = q := Option.some.inj (hp.symm.trans hq)
  exact ⟨rfl, SameButFences.refl _⟩

theorem trans {s t u : State} (h₁ : FenceMarks s t) (h₂ : FenceMarks t u) : FenceMarks s u where
  rest := by
    have h := h₂.rest
    rw [h₁.rest] at h
    exact h
  length := h₂.length.trans h₁.length
  plies k p r hp hr := by
    obtain ⟨q, hq⟩ : ∃ q, t.plies[k]? = some q := by
      have hk : k < t.plies.length := h₁.length ▸ (List.getElem?_eq_some_iff.mp hp).1
      exact ⟨_, List.getElem?_eq_getElem hk⟩
    obtain ⟨hpq, hwpq⟩ := h₁.plies k p q hp hq
    obtain ⟨hqr, hwqr⟩ := h₂.plies k q r hq hr
    refine ⟨?_, hwqr.trans hwpq⟩
    rw [hpq] at hqr
    exact hqr
  core k := by
    obtain ⟨hst, hwst⟩ := h₁.core k
    obtain ⟨htu, hwtu⟩ := h₂.core k
    refine ⟨?_, hwtu.trans hwst⟩
    rw [hst] at htu
    exact htu

theorem ply {s t : State} (h : FenceMarks s t) : t.ply = s.ply := by rw [h.rest]

end FenceMarks

/-- The words that an XFENCE at number f marks: those that an older record of the ply hides. -/
def hidden (p : Ply) (f : Nat) (w : OldWord) : Prop :=
  ∃ m ∈ p.stxOld, m.seq < f ∧ m.space = w.space ∧ m.word = w.word ∧ w.issued ≤ m.issued

/-- The mark that an XFENCE at number f puts on a word. -/
def markHidden (p : Ply) (f : Nat) (w : OldWord) : OldWord :=
  if w.fence.isNone && (p.stxOld.filter fun w => decide (w.seq < f)).any fun m =>
      m.space == w.space && m.word == w.word && decide (w.issued ≤ m.issued) then { w with fence := some f }
  else w

theorem markHidden_eq (p : Ply) (f : Nat) (w : OldWord) :
    ({ markHidden p f w with fence := none } : OldWord) = { w with fence := none } := by
  unfold markHidden
  split <;> rfl

theorem hidden_of_markHidden {p : Ply} {f g : Nat} {w : OldWord} (h : hidden p g (markHidden p f w)) : hidden p g w := by
  unfold markHidden at h
  split at h
  · exact h
  · exact h

theorem markHidden_fence {p : Ply} {f : Nat} {w : OldWord} (h : hidden p f w) : (markHidden p f w).fence.isSome = true := by
  obtain ⟨m, hm, hseq, hspace, hword, hissued⟩ := h
  unfold markHidden
  cases hw : w.fence with
  | some g => simp [hw]
  | none =>
    have hany : (p.stxOld.filter fun w => decide (w.seq < f)).any (fun m =>
        m.space == w.space && m.word == w.word && decide (w.issued ≤ m.issued)) = true :=
      List.any_eq_true.mpr ⟨m, List.mem_filter.mpr ⟨hm, decide_eq_true hseq⟩, by simp [hspace, hword, hissued]⟩
    simp [hany]

theorem markHidden_fence_of_fence (p : Ply) (f : Nat) {w : OldWord} (h : w.fence.isSome = true) :
    (markHidden p f w).fence.isSome = true := by
  unfold markHidden
  split
  · rfl
  · exact h

/-- The ply that an XFENCE of ply p leaves of another. -/
def markPly (p : Ply) (f : Nat) (q : Ply) : Ply :=
  if q.core == p.core && q.uid != p.uid then { q with stxOld := q.stxOld.map (markHidden p f) } else q

theorem State.fenceOthers_eq (s : State) (p : Ply) (f : Nat) : s.fenceOthers p f =
    if (p.stxOld.filter fun w => decide (w.seq < f)).isEmpty then s
    else State.modCore { s with ply := markPly p f s.ply, plies := s.plies.map (markPly p f) } p.core fun c =>
      { c with unseen := c.unseen.map (markHidden p f) } := rfl

theorem markPly_same {p q : Ply} (f : Nat) (h : q.uid = p.uid) : markPly p f q = q := by
  unfold markPly
  simp [h]

theorem State.fenceOthers_marks {s : State} {p : Ply} (h : s.ply.uid = p.uid) (f : Nat) : FenceMarks s (s.fenceOthers p f) := by
  rw [State.fenceOthers_eq]
  split
  · exact FenceMarks.refl s
  · rw [markPly_same f h]
    refine ⟨rfl, List.length_map _, fun k q r hq hr => ?_, fun k => ?_⟩
    · have hr' : (s.plies.map (markPly p f))[k]? = some r := hr
      rw [List.getElem?_map, hq] at hr'
      obtain rfl := Option.some.inj hr'
      unfold markPly
      split
      · exact ⟨rfl, SameButFences.map (markHidden_eq p f) _⟩
      · exact ⟨rfl, SameButFences.refl _⟩
    · by_cases hk : k = p.core
      · subst hk
        rw [State.modCore, State.setCore_core]
        exact ⟨rfl, SameButFences.map (markHidden_eq p f) _⟩
      · have hcore : (State.modCore { s with plies := s.plies.map (markPly p f) } p.core fun c =>
            { c with unseen := c.unseen.map (markHidden p f) }).core k = s.core k := tget_tset_other _ _ hk _
        rw [hcore]
        exact ⟨rfl, SameButFences.refl _⟩

/-- No other ply of the core has a word without a mark that an XFENCE at number f marks. -/
def AllMarked (p : Ply) (f : Nat) (t : State) : Prop :=
  ∀ q ∈ t.plies, q.core = p.core → q.uid ≠ p.uid → ∀ w ∈ q.stxOld, hidden p f w → w.fence.isSome = true

theorem State.fenceOthers_allMarked (s : State) (p : Ply) (f : Nat) : AllMarked p f (s.fenceOthers p f) := by
  rw [State.fenceOthers_eq]
  split
  · next hnone =>
    rintro q - - - w - ⟨m, hm, hseq, -⟩
    rw [List.isEmpty_iff, List.filter_eq_nil_iff] at hnone
    exact absurd (decide_eq_true hseq) (hnone m hm)
  · intro q hq hcore huid w hw hhid
    obtain ⟨r, -, rfl⟩ := List.mem_map.mp (show q ∈ s.plies.map (markPly p f) from hq)
    have hr : markPly p f r = { r with stxOld := r.stxOld.map (markHidden p f) } := by
      unfold markPly at hcore huid ⊢
      split at hcore
      · next h => rw [if_pos h]
      · next h =>
        rw [if_neg h] at huid
        exact absurd (by simp [hcore, huid]) h
    rw [hr] at hw
    obtain ⟨v, -, rfl⟩ := List.mem_map.mp hw
    exact markHidden_fence (hidden_of_markHidden hhid)

theorem State.fenceOthers_keeps {s : State} {p : Ply} {f : Nat} (g : Nat) (h : AllMarked p f s) :
    AllMarked p f (s.fenceOthers p g) := by
  rw [State.fenceOthers_eq]
  split
  · exact h
  · intro q hq hcore huid w hw hhid
    obtain ⟨r, hr, rfl⟩ := List.mem_map.mp (show q ∈ s.plies.map (markPly p g) from hq)
    unfold markPly at hcore huid hw
    split at hw
    · next hcond =>
      rw [if_pos hcond] at hcore huid
      obtain ⟨v, hv, rfl⟩ := List.mem_map.mp hw
      exact markHidden_fence_of_fence p g (h r hr hcore huid v hv (hidden_of_markHidden hhid))
    · next hcond =>
      rw [if_neg hcond] at hcore huid
      exact h r hr hcore huid w hw hhid

/-- The mark that a satisfied XFENCE at number f puts on a word of its own ply. -/
def markOwn (f : Nat) (w : OldWord) : OldWord :=
  if w.fence.isNone && decide (w.seq < f) then { w with fence := some f } else w

theorem markOwn_seq (f : Nat) (w : OldWord) : (markOwn f w).seq = w.seq := by
  unfold markOwn
  split <;> rfl

theorem markOwn_fence {f : Nat} {w : OldWord} (h : w.seq < f) : (markOwn f w).fence.isSome = true := by
  unfold markOwn
  cases hw : w.fence with
  | some g => simp [hw]
  | none => simp [h]

theorem markOwn_fence_of_fence (f : Nat) {w : OldWord} (h : w.fence.isSome = true) : (markOwn f w).fence.isSome = true := by
  unfold markOwn
  split
  · rfl
  · exact h

theorem State.mem_fenceWords_step {s : State} {core f : Nat} {l : List OldWord} {w : OldWord}
    (hw : w ∈ (l.map fun w => if w.fence.isNone && decide (w.seq < f) then { w with fence := some f } else w).filter fun w =>
      match w.fence with
      | some g => s.engineOwes core g
      | none => true) : ∃ v ∈ l, w = markOwn f v := by
  obtain ⟨v, hv, rfl⟩ := List.mem_map.mp (List.mem_filter.mp hw).1
  exact ⟨v, hv, rfl⟩

/-- Each record from before number f has a mark. -/
def MarkedBelow (f : Nat) (l : List OldWord) : Prop := ∀ w ∈ l, w.seq < f → w.fence.isSome = true

theorem State.fenceWords_markedBelow (s : State) (core : Nat) {f : Nat} {fences : List Nat} (hf : f ∈ fences) (l : List OldWord) :
    MarkedBelow f (s.fenceWords core fences l) := by
  refine foldl_of_mem (P := MarkedBelow f) hf (fun l w hw hlt => ?_) (fun l g _ hl w hw hlt => ?_) l
  · obtain ⟨v, -, rfl⟩ := State.mem_fenceWords_step hw
    exact markOwn_fence (markOwn_seq f v ▸ hlt)
  · obtain ⟨v, hv, rfl⟩ := State.mem_fenceWords_step hw
    exact markOwn_fence_of_fence g (hl v hv (markOwn_seq g v ▸ hlt))

/-! ## A fence as it issues -/

/-- The state in which a fence of kind k stands in the queue and its unit has completed. -/
def State.withFence (s : State) (k : MemKind) : State := (s.queueAll [k]).done

section
variable {s : State} (k : MemKind)

theorem State.withFence_rest : s.withFence k = { s with ply := (s.withFence k).ply, seq := s.seq + 1 } := by
  unfold State.withFence
  rw [State.queueAll_eq]
  rfl

theorem State.withFence_uid : (s.withFence k).ply.uid = s.ply.uid := by
  rw [State.withFence, State.done_ply, Ply.advance_uid, State.queueAll_eq]

theorem State.withFence_core : (s.withFence k).ply.core = s.ply.core := by
  rw [State.withFence, State.done_ply, Ply.advance_core, State.queueAll_eq]

theorem State.withFence_stxOld : (s.withFence k).ply.stxOld = s.ply.stxOld := by
  rw [State.withFence, State.done_ply, Ply.advance_stxOld, State.queueAll_eq]

theorem State.withFence_lsq : (s.withFence k).ply.lsq = s.ply.lsq ++ [⟨s.seq + 1, s.ply.slot, s.issue.first, k⟩] := by
  rw [State.withFence, State.done_ply, Ply.advance_lsq, State.queueAll_eq]
  rfl

theorem State.withFence_anyPly (hu : s.ply.uid ≠ 0) : (s.withFence k).anyPly s.ply.uid = some (s.withFence k).ply := by
  have huid := State.withFence_uid (s := s) k
  have hres : (s.withFence k).ply.resident = true := by
    rw [Ply.resident, huid]
    simpa using hu
  unfold State.anyPly State.everyPly State.all
  rw [hres]
  simp [huid]

theorem State.withFence_sameRun : SameRun s (s.queueAll [k]) := s.queueAll_sameRun [k]

end

/-- A unit that has completed is as complete after its queue and its words have changed. -/
theorem unitDone_queue {s u t : State} {p q : Ply} {k l : List MemOp} {x : List OldWord} (h : UnitDone s u p)
    (hp : p = { q with lsq := k }) (ht : t.ply = { u.ply with lsq := l, stxOld := x }) :
    UnitDone s t { q with lsq := l, stxOld := x } := by
  subst hp
  obtain ⟨⟨hslot, hpc, hpos, hyc⟩, ⟨hpath, hother⟩, hactive, hply⟩ := h
  unfold UnitDone Advanced PathsKept State.path
  rw [ht]
  refine ⟨⟨hslot, hpc, hpos, hyc⟩, ⟨hpath, hother⟩, hactive, ?_⟩
  rw [hply]

theorem State.modAny_eq {s : State} {uid : Nat} (h : s.ply.uid = uid) (f : Ply → Ply) : s.modAny uid f = { s with
    ply := f s.ply, saved := (s.modAny uid f).saved, ghosts := (s.modAny uid f).ghosts } := by
  have hply : s.modPly uid f = { s with ply := f s.ply } := by
    unfold State.modPly
    rw [if_pos (by simp [h])]
  unfold State.modAny
  rw [hply]

theorem State.settled_subset (s : State) (p : Ply) : s.settled p ⊆ p.lsq := by
  have hdrop (q : Ply) (n : Nat) (l : List MemOp) : s.dropFences q n l ⊆ l := by
    induction l generalizing n with
    | nil => cases n <;> exact fun _ h => h
    | cons e l ih =>
      cases n with
      | zero => exact fun _ h => h
      | succ n =>
        unfold State.dropFences
        split
        · split
          · exact fun o ho => List.mem_cons_of_mem _ (ih n ho)
          · exact fun _ h => h
        · exact fun _ h => h
  exact fun o ho => (List.mem_filter.mp (hdrop _ _ _ ho)).1

theorem FenceMarks.fenceFrame {s u m t : State} (hu : u = { s with ply := u.ply, seq := s.seq + 1 }) (hm : FenceMarks u m)
    (ht : t = { m with ply := t.ply, saved := t.saved, ghosts := t.ghosts }) : FenceFrame s t := by
  have hmr := hm.rest
  have hcore (k : Nat) : t.core k = m.core k := by
    rw [ht]
    rfl
  have hseen (k : Nat) : u.core k = s.core k := by
    rw [hu]
    rfl
  refine ⟨?_, ⟨fun core pa => ?_, fun core sp a => ?_⟩, ?_, fun k p q hp hq => ?_, fun k => ?_⟩
  · rw [ht, hmr, hu]
  · rw [ht, hmr, hu]
    rfl
  · unfold State.localByte
    rw [hcore, (hm.core core).1, hseen]
    cases sp <;> rfl
  · rw [ht]
    refine hm.length.trans ?_
    rw [hu]
  · rw [ht] at hq
    rw [hu] at hm
    exact hm.plies k p q hp hq
  · rw [hcore, ← hseen]
    exact hm.core k

/-- What settling leaves after a fence has entered the queue: entries that stay, and marks. -/
theorem State.settleLsq_withFence {s : State} (k : MemKind) (huid : s.ply.uid ≠ 0) :
    let u := s.withFence k
    let t := u.settleLsq s.ply.uid
    FenceFrame s t ∧ UnitDone s t { s.ply with lsq := t.ply.lsq, stxOld := t.ply.stxOld } ∧
    (∀ o ∈ u.settled u.ply, o ∈ t.ply.lsq) ∧
      ((u.settled u.ply).length < u.ply.lsq.length → ∀ f ∈ u.metXfences u.ply,
        MarkedBelow f t.ply.stxOld ∧ AllMarked u.ply f t) := by
  intro u t
  have hrest : u = { s with ply := u.ply, seq := s.seq + 1 } := State.withFence_rest k
  have hdone : UnitDone s u (s.queueAll [k]).ply := (State.withFence_sameRun k).unitDone
  have hqueue : (s.queueAll [k]).ply = { s.ply with lsq := (s.queueAll [k]).ply.lsq } := by
    rw [State.queueAll_eq]
  have ht : t = _ := State.settleLsq_eq (State.withFence_anyPly k huid)
  split at ht
  · next hlen =>
    rw [ht]
    refine ⟨(FenceMarks.refl u).fenceFrame hrest rfl, ?_, fun o ho => State.settled_subset _ _ ho, fun h => ?_⟩
    · exact unitDone_queue hdone hqueue rfl
    · rw [beq_iff_eq] at hlen
      exact absurd hlen h.ne
  · set m := (u.metXfences u.ply).foldl (fun t f => t.fenceOthers u.ply f) u with hm
    have hmarks : FenceMarks u m := List.foldlRecOn (motive := fun m => FenceMarks u m) _ _ (FenceMarks.refl u) fun m hm f _ =>
      hm.trans (State.fenceOthers_marks (by rw [hm.ply]) f)
    have hmuid : m.ply.uid = s.ply.uid := by
      rw [hmarks.ply]
      exact State.withFence_uid k
    have hmod := ht.trans (State.modAny_eq hmuid _)
    have hply : t.ply = { u.ply with
        lsq := u.settled u.ply, stxOld := u.fenceWords u.ply.core (u.metXfences u.ply) u.ply.stxOld } := by
      rw [hmod, ← hmarks.ply]
    have hplies : t.plies = m.plies := by
      rw [hmod]
    refine ⟨hmarks.fenceFrame hrest ?_, ?_, fun o ho => ?_, fun _ f hf => ⟨?_, ?_⟩⟩
    · rw [hmod]
    · rw [hply]
      exact unitDone_queue hdone hqueue hply
    · rw [hply]
      exact ho
    · rw [hply]
      exact State.fenceWords_markedBelow u _ hf _
    · unfold AllMarked
      rw [hplies]
      exact foldl_of_mem (P := AllMarked u.ply f) hf (fun t => State.fenceOthers_allMarked t _ f)
        (fun t g _ h => State.fenceOthers_keeps g h) u

/-! ## The statement -/

/-- The entry that a fence puts into the queue. -/
def State.fenceEntry (s : State) (k : MemKind) : MemOp := ⟨s.seq + 1, s.ply.slot, s.issue.first, k⟩

theorem State.mem_withFence {s : State} {o : MemOp} (k : MemKind) (ho : o ∈ s.ply.lsq) : o ∈ (s.withFence k).ply.lsq := by
  rw [State.withFence_lsq]
  exact List.mem_append_left _ ho

theorem State.fenceEntry_mem (s : State) (k : MemKind) : s.fenceEntry k ∈ (s.withFence k).ply.lsq := by
  rw [State.withFence_lsq]
  exact List.mem_append_right _ (List.mem_singleton.mpr rfl)

/-- An access is no fence. -/
theorem kind_of_isAccess {o : MemOp} (h : isAccess o) :
    o.kind ≠ .xfence ∧ ∀ rel acq scope, o.kind ≠ .fence rel acq scope := by
  unfold isAccess at h
  refine ⟨fun hk => ?_, fun rel acq scope hk => ?_⟩ <;> rw [hk] at h <;> obtain h | h := h <;> cases h

theorem State.access_mem_settled {s : State} {p : Ply} {o : MemOp} (ho : o ∈ p.lsq) (h : isAccess o) : o ∈ s.settled p := by
  obtain ⟨hx, hf⟩ := kind_of_isAccess h
  exact State.mem_settled ho (fun hk => absurd hk hx) fun rel acq scope hk => absurd hk (hf rel acq scope)

/-- FENCE in its three forms: what is queued, what stays, and what stays behind an access that it orders. -/
theorem fence_settles {i : Instr} {rel acq : Bool} {s : State} (huid : s.ply.uid ≠ 0)
    (hexec : exec i s = .next ((s.withFence (.fence rel acq s.hord)).settleLsq s.ply.uid)) : Answers i s fun t =>
    FenceFrame s t ∧ UnitDone s t { s.ply with lsq := t.ply.lsq, stxOld := t.ply.stxOld } ∧
    (∀ o ∈ s.ply.lsq, isAccess o → o ∈ t.ply.lsq) ∧
    (∀ o ∈ s.ply.lsq, o.seq ≤ s.seq →
      (rel = true ∧ 1 ≤ s.hord ∧ o.kind.isStore = true) ∨ (acq = true ∧ o.kind.takesValue = true) →
      ⟨s.seq + 1, s.ply.slot, s.issue.first, .fence rel acq s.hord⟩ ∈ t.ply.lsq) := by
  obtain ⟨hframe, hdone, hstay, -⟩ := State.settleLsq_withFence (.fence rel acq s.hord) huid
  refine ⟨_, hexec, hframe, hdone, fun o ho hacc => hstay o (State.access_mem_settled (State.mem_withFence _ ho) hacc),
    fun o ho hseq hk => hstay _ (State.mem_settled (State.fenceEntry_mem s _) (fun h => by cases h) fun _ _ _ _ => ?_)⟩
  have hacc : isAccess o := hk.elim (fun h => .inr h.2.2) fun h => .inl h.2
  refine State.fenceMet_eq_false (o := o) rfl (State.mem_withoutXfences (State.mem_withFence _ ho) (kind_of_isAccess hacc).1)
    (Nat.lt_succ_of_le hseq) ?_
  exact hk.imp (fun ⟨hr, hs, hst⟩ => ⟨hr, .inr ⟨hs, hst⟩⟩) id

/-- XFENCE: what is queued, what stays, and what the engines see where no STX waits. -/
theorem xfence_settles {s : State} (huid : s.ply.uid ≠ 0) : Answers .xfence s fun t =>
    FenceFrame s t ∧ UnitDone s t { s.ply with lsq := t.ply.lsq, stxOld := t.ply.stxOld } ∧
    (∀ o ∈ s.ply.lsq, isAccess o → o ∈ t.ply.lsq) ∧
    ((∀ o ∈ s.ply.lsq, o.kind.isStoreX = false) → (∀ w ∈ t.ply.stxOld, w.seq ≤ s.seq → w.fence.isSome = true) ∧
      ∀ q ∈ t.plies, q.core = s.ply.core → q.uid ≠ s.ply.uid → ∀ w ∈ q.stxOld,
        (∃ m ∈ s.ply.stxOld, m.seq ≤ s.seq ∧ m.space = w.space ∧ m.word = w.word ∧ w.issued ≤ m.issued) →
        w.fence.isSome = true) ∧
    (∀ o ∈ s.ply.lsq, o.seq ≤ s.seq → o.kind.isStoreX = true →
      ⟨s.seq + 1, s.ply.slot, s.issue.first, .xfence⟩ ∈ t.ply.lsq) := by
  obtain ⟨hframe, hdone, hstay, hmarks⟩ := State.settleLsq_withFence .xfence huid
  refine ⟨(s.withFence .xfence).settleLsq s.ply.uid, rfl, hframe, hdone,
    fun o ho hacc => hstay o (State.access_mem_settled (State.mem_withFence _ ho) hacc), fun hno => ?_, fun o ho hseq hk => ?_⟩
  · have hmet : (s.withFence .xfence).fenceMet (s.withFence .xfence).ply (s.fenceEntry .xfence) = true := by
      have hany : ((s.withFence .xfence).ply.older (s.fenceEntry .xfence).seq).any (fun o => o.kind.isStoreX) = false := by
        refine List.any_eq_false.mpr fun o ho => ?_
        rw [Bool.not_eq_true]
        have hmem := (List.mem_filter.mp ho).1
        rw [State.withFence_lsq, List.mem_append, List.mem_singleton] at hmem
        obtain hmem | rfl := hmem
        · exact hno o hmem
        · rfl
      rw [State.fenceMet_xfence rfl, hany]
      rfl
    have hin : s.seq + 1 ∈ (s.withFence .xfence).metXfences (s.withFence .xfence).ply := by
      refine List.mem_filterMap.mpr ⟨_, s.fenceEntry_mem .xfence, ?_⟩
      have hkind : (s.fenceEntry .xfence).kind = .xfence := rfl
      rw [hkind]
      exact if_pos hmet
    obtain ⟨hown, hothers⟩ := hmarks (State.length_settled_lt (s.fenceEntry_mem .xfence) rfl hmet) _ hin
    refine ⟨fun w hw hseq => hown w hw (Nat.lt_succ_of_le hseq), fun q hq hcore hquid w hw ⟨m, hm, hseq, hrest⟩ => ?_⟩
    refine hothers q hq (hcore.trans (State.withFence_core _).symm) (fun h => hquid (h.trans (State.withFence_uid _))) w hw
      ⟨m, ?_, Nat.lt_succ_of_le hseq, hrest⟩
    rw [State.withFence_stxOld]
    exact hm
  · refine hstay _ (State.mem_settled (State.fenceEntry_mem s _) (fun _ => ?_) fun _ _ _ h => by cases h)
    have hany : ((s.withFence .xfence).ply.older (s.fenceEntry .xfence).seq).any (fun o => o.kind.isStoreX) = true :=
      List.any_eq_true.mpr ⟨o, Ply.mem_older (State.mem_withFence _ ho) (Nat.lt_succ_of_le hseq), hk⟩
    rw [State.fenceMet_xfence rfl]
    exact congrArg not hany

/-- Settles O23: the queue is settled behind the fence, whose entry is the last; a fence that waits stops what is behind it. -/
theorem fences : Obligations.Fences := by
  refine ⟨fun f hf s huid => ?_, fun s huid => xfence_settles huid,
    fun s p e f o rel acq scope hf ho hof hfe hk hwaits => ?_⟩
  · simp only [List.mem_cons, List.not_mem_nil, or_false] at hf
    obtain rfl | rfl | rfl := hf
    · exact fence_settles huid rfl
    · exact fence_settles huid rfl
    · exact fence_settles huid rfl
  · refine Bool.eq_false_iff.mpr fun hp => ?_
    have hmet := State.fenceMet_of_performable hf hfe hk hp
    rw [State.fenceMet_eq_false hk ho hof hwaits] at hmet
    cases hmet

end Sys2Proof.Machine

/-!
CTXSV and CTXRS (R113, R249, R382): what the regions of a save area hold, and what loading them leaves.
-/
namespace Sys2Proof.Machine
open Sys2Proof.Claim

/-! ## Bytes laid out in equal pieces -/

theorem leNat_leBytes (n x : Nat) : leNat (leBytes n x) = x % 256 ^ n := by
  induction n generalizing x with
  | zero => rw [pow_zero, Nat.mod_one]; rfl
  | succ n ih => rw [leBytes, leNat, ih, pow_succ', Nat.mod_mul, BitVec.toNat_ofNat]

theorem leNat_wordBytes (w : Word) : leNat (wordBytes w) = w.toNat :=
  (leNat_leBytes 4 w.toNat).trans (Nat.mod_eq_of_lt w.isLt)

theorem length_flatMap_const {α β : Type} {g : α → List β} {k : Nat} (hg : ∀ x, (g x).length = k) (l : List α) :
    (l.flatMap g).length = k * l.length := by
  induction l with
  | nil => rfl
  | cons x l ih => rw [List.flatMap_cons, List.length_append, hg, ih, List.length_cons, Nat.mul_succ, Nat.add_comm]

/-- Piece r of a list of pieces of k bytes. -/
theorem slice_flatMap_range {g : Nat → List Byte} {k n r : Nat} (hg : ∀ i, (g i).length = k) (hr : r < n) :
    slice ((List.range n).flatMap g) (k * r) k = g r := by
  have hsplit : List.range n = List.range r ++ (r :: List.range' (r + 1) (n - r - 1)) := by
    have happend := List.range'_append (s := 0) (m := r) (n := n - r) (step := 1)
    have hcons : List.range' r (n - r) = r :: List.range' (r + 1) (n - r - 1) := by
      rw [← List.range'_succ, Nat.sub_add_cancel (by omega)]
    rw [show 0 + 1 * r = r by omega, show r + (n - r) = n by omega, hcons] at happend
    rw [List.range_eq_range', List.range_eq_range', happend]
  have hlen : ((List.range r).flatMap g).length = k * r := by
    rw [length_flatMap_const hg, List.length_range]
  rw [hsplit, List.flatMap_append, List.flatMap_cons, slice, List.drop_left' hlen, List.take_left' (hg r)]

/-- Word r of a list of words in bytes. -/
theorem num_words (g : Nat → Word) {n r : Nat} (hr : r < n) :
    num ((List.range n).flatMap fun i => wordBytes (g i)) (4 * r) 4 = (g r).toNat := by
  rw [num, slice_flatMap_range (g := fun i => wordBytes (g i)) (fun i => length_leBytes 4 _) hr, leNat_wordBytes]

/-! ## What the regions hold (R249) -/

section
variable (p : Ply) (live : Nat) (latch : Bool)

theorem Ply.scalars_mem_regions :
    (0, (List.range 64).flatMap fun i => wordBytes (p.getS 0 (BitVec.ofNat 6 i))) ∈ p.regions live latch := by
  simp [Ply.regions]

theorem Ply.vreg_mem_regions {v : Nat} (hv : v < live) (hlive : live ≤ p.vregs.length) :
    (0x4000 + 384 * v, lanesBytes ((p.vregs[v]?).getD Lanes.zero)) ∈ p.regions live latch := by
  have hvl : v < p.vregs.length := by omega
  have hmem : (p.vregs[v], v) ∈ (p.vregs.take live).zipIdx := by
    rw [List.mem_zipIdx_iff_getElem?, List.getElem?_take_of_lt hv, List.getElem?_eq_getElem hvl]
  unfold Ply.regions
  rw [List.getElem?_eq_getElem hvl, Option.getD_some]
  exact List.mem_append_left _ (List.mem_append_right _ (List.mem_map.mpr ⟨_, hmem, rfl⟩))

theorem Ply.tile_mem_regions {k : Nat} (hk : k < p.tiles.length) :
    (0xF400 + 24576 * k, (plyTile p k).flatMap lanesBytes) ∈ p.regions live latch := by
  have hmem : (p.tiles[k], k) ∈ p.tiles.zipIdx := by
    rw [List.mem_zipIdx_iff_getElem?, List.getElem?_eq_getElem hk]
  unfold Ply.regions plyTile
  rw [List.getElem?_eq_getElem hk, Option.getD_some]
  exact List.mem_append_right _ (List.mem_map.mpr ⟨_, hmem, rfl⟩)

/-- The offsets of the regions. -/
theorem Ply.offset_of_mem_regions {o : Nat} {b : List Byte} (h : (o, b) ∈ p.regions live latch) :
    o ∈ [0, 0x100, 0x1000, 0x2200, 0x180] ∨ (∃ v < live, o = 0x4000 + 384 * v) ∨ ∃ k, o = 0xF400 + 24576 * k := by
  unfold Ply.regions at h
  simp only [List.mem_append, List.mem_map] at h
  obtain (((h | h) | h) | ⟨⟨x, v⟩, hx, h⟩) | ⟨⟨x, k⟩, -, h⟩ := h
  · simp only [List.mem_cons, Prod.mk.injEq, List.not_mem_nil, or_false] at h
    simp only [List.mem_cons]
    omega
  · split at h
    · simp only [List.mem_cons, Prod.mk.injEq, List.not_mem_nil, or_false] at h
      simp [h.1]
    · cases h
  · simp only [List.mem_cons, Prod.mk.injEq, List.not_mem_nil, or_false] at h
    simp [h.1]
  · refine .inr (.inl ⟨v, ?_, (Prod.mk.inj h).1.symm⟩)
    have hv := (List.mem_zipIdx hx).2.1
    rw [List.length_take] at hv
    omega
  · exact .inr (.inr ⟨k, (Prod.mk.inj h).1.symm⟩)

end

theorem length_pad' (l : List Byte) (n : Nat) : n ≤ (pad' l n).length := by
  rw [pad', List.length_append, zeros, List.length_replicate]
  omega

theorem Ply.length_stateBytes (p : Ply) (latches : Nat) : 128 ≤ (p.stateBytes latches).length := length_pad' _ 128

theorem Ply.state_mem_regions (p : Ply) (live : Nat) :
    (0x180, p.stateBytes p.savedLatches.length) ∈ p.regions live true := by
  simp [Ply.regions]

/-! ## Loading a region (R249, R382) -/

section
variable (p : Ply) (rw : Bool) (off : Nat) (b : List Byte)

theorem Ply.loadState_registers : (p.loadState rw off b).sregs = p.sregs ∧ (p.loadState rw off b).vregs = p.vregs := by
  unfold Ply.loadState
  dsimp only
  split <;> (try split) <;> exact ⟨rfl, rfl⟩

variable {off}

theorem Ply.loadState_fflags (h : off ≠ 0) : (p.loadState rw off b).fflags = p.fflags := by
  unfold Ply.loadState
  dsimp only
  split <;> (try contradiction) <;> (try split) <;> rfl

theorem Ply.loadState_scope (h : off ≠ 16) : (p.loadState rw off b).scope = p.scope := by
  unfold Ply.loadState
  dsimp only
  split <;> (try contradiction) <;> (try split) <;> rfl

theorem Ply.loadState_epc (h : off ≠ 64 ∧ off ≠ 68) : (p.loadState rw off b).epc = p.epc := by
  obtain ⟨h64, h68⟩ := h
  unfold Ply.loadState
  dsimp only
  split <;> (try contradiction) <;> (try split) <;> rfl

end

/-- The ply state of a save area whose every word is loaded. -/
structure LoadedState (p q : Ply) (b : List Byte) : Prop where
  sregs : q.sregs = p.sregs
  vregs : q.vregs = p.vregs
  fflags : q.fflags = BitVec.ofNat 6 (num b 0 4)
  scope : q.scope = BitVec.ofNat 24 (num b 16 4)
  epc : q.epc = BitVec.ofNat 64 (num b 64 8) &&& 0x0FFFFFFFFFFFFFFC

theorem Ply.loadRegion_state (p : Ply) {b : List Byte} (hb : 128 ≤ b.length) : LoadedState p (p.loadRegion true 0x180 [] b) b := by
  have hne {k : Nat} (hk : k < 27) : (slice [] (4 * k) 4 == slice b (4 * k) 4) = false := by
    rw [beq_eq_false_iff_ne]
    intro h
    have hlen := congrArg List.length h
    simp only [slice, List.drop_nil, List.take_nil, List.length_nil, List.length_take, List.length_drop] at hlen
    omega
  have hfold : p.loadRegion true 0x180 [] b = (List.range 27).foldl (fun p k => p.loadState true (4 * k) b) p := by
    refine List.foldl_ext _ _ _ fun p k hk => ?_
    rw [hne (List.mem_range.mp hk)]
    rfl
  have hmem (k : Nat) (hk : k < 27) : k ∈ List.range 27 := List.mem_range.mpr hk
  rw [hfold]
  refine ⟨?_, ?_, ?_, ?_, ?_⟩
  · exact keep_foldl Ply.sregs _ (fun p k => (p.loadState_registers true (4 * k) b).1) _ p
  · exact keep_foldl Ply.vregs _ (fun p k => (p.loadState_registers true (4 * k) b).2) _ p
  · refine foldl_of_mem (P := fun q : Ply => q.fflags = BitVec.ofNat 6 (num b 0 4)) (hmem 0 (by decide))
      (fun _ => rfl) (fun q k _ hq => ?_) p
    by_cases hk : 4 * k = 0
    · rw [hk]
      rfl
    · exact (q.loadState_fflags true b hk).trans hq
  · refine foldl_of_mem (P := fun q : Ply => q.scope = BitVec.ofNat 24 (num b 16 4)) (hmem 4 (by decide))
      (fun _ => rfl) (fun q k _ hq => ?_) p
    by_cases hk : 4 * k = 16
    · rw [hk]
      rfl
    · exact (q.loadState_scope true b hk).trans hq
  · refine foldl_of_mem (P := fun q : Ply => q.epc = BitVec.ofNat 64 (num b 64 8) &&& 0x0FFFFFFFFFFFFFFC) (hmem 16 (by decide))
      (fun _ => rfl) (fun q k _ hq => ?_) p
    by_cases hk : 4 * k = 64
    · rw [hk]
      rfl
    · by_cases hk' : 4 * k = 68
      · rw [hk']
        rfl
      · exact (q.loadState_epc true b ⟨hk, hk'⟩).trans hq

/-- The region of register v. -/
theorem Ply.loadRegion_vreg (p : Ply) {v : Nat} (hv : v ≤ 118) (b : List Byte) :
    p.loadRegion true (0x4000 + 384 * v) [] b = { p with vregs := p.vregs.set v (Lanes.ofBytes b) } := by
  unfold Ply.loadRegion
  have hlt : 0x4000 + 384 * v < 0xF400 := by omega
  have hindex : (0x4000 + 384 * v - 0x4000) / 384 = v := by omega
  have hne {n : Nat} (hn : n < 0x4000) : ¬ (0x4000 + 384 * v == n) = true := by
    rw [beq_iff_eq]
    omega
  rw [if_neg (hne (by decide)), if_neg (hne (by decide)), if_neg (hne (by decide)), if_neg (hne (by decide)),
    if_neg (hne (by decide)), if_pos hlt, hindex]
  rfl

theorem Ply.loadRegion_tile (p : Ply) (k : Nat) (b : List Byte) :
    ∃ ts, p.loadRegion true (0xF400 + 24576 * k) [] b = { p with tiles := ts } := by
  unfold Ply.loadRegion
  have hlt : ¬ 0xF400 + 24576 * k < 0xF400 := by omega
  have hne {n : Nat} (hn : n < 0xF400) : ¬ (0xF400 + 24576 * k == n) = true := by
    rw [beq_iff_eq]
    omega
  rw [if_neg (hne (by decide)), if_neg (hne (by decide)), if_neg (hne (by decide)), if_neg (hne (by decide)),
    if_neg (hne (by decide)), if_neg hlt]
  by_cases h : 0xF400 + 24576 * k < 0x40000
  · exact ⟨_, if_pos h⟩
  · exact ⟨p.tiles, if_neg h⟩

theorem Ply.loadScalars_keeps (p : Ply) (b : List Byte) : (p.loadScalars b).vregs = p.vregs ∧
    (p.loadScalars b).fflags = p.fflags ∧ (p.loadScalars b).scope = p.scope ∧ (p.loadScalars b).epc = p.epc := by
  unfold Ply.loadScalars
  exact ⟨rfl, rfl, rfl, rfl⟩

/-- What loading a region changes of a ply: its scalars, its state, one register, or nothing of these. -/
inductive LoadsRegion (p : Ply) : Nat → List Byte → Ply → Prop
  | scalars (b : List Byte) : LoadsRegion p 0 b (p.loadScalars b)
  | state {b : List Byte} {q : Ply} (h : LoadedState p q b) : LoadsRegion p 0x180 b q
  | vreg {v : Nat} (hv : v ≤ 118) (b : List Byte) :
      LoadsRegion p (0x4000 + 384 * v) b { p with vregs := p.vregs.set v (Lanes.ofBytes b) }
  | other {off : Nat} {b : List Byte} {q : Ply} (h0 : off ≠ 0) (h180 : off ≠ 0x180) (hv : ∀ v, v ≤ 118 → off ≠ 0x4000 + 384 * v)
      (hq : q = { p with path0 := q.path0, path1 := q.path1, frames := q.frames, savedLatches := q.savedLatches, tiles := q.tiles }) :
      LoadsRegion p off b q

theorem Ply.loadRegion_loads (p : Ply) {off live : Nat} {b : List Byte} (hb : off = 0x180 → 128 ≤ b.length) (hlive : live ≤ 119)
    (h : off ∈ [0, 0x100, 0x1000, 0x2200, 0x180] ∨ (∃ v < live, off = 0x4000 + 384 * v) ∨ ∃ k, off = 0xF400 + 24576 * k) :
    LoadsRegion p off b (p.loadRegion true off [] b) := by
  obtain h | ⟨v, hv, rfl⟩ | ⟨k, rfl⟩ := h
  · simp only [List.mem_cons, List.not_mem_nil, or_false] at h
    obtain rfl | rfl | rfl | rfl | rfl := h
    · exact .scalars b
    · exact .other (by decide) (by decide) (by omega) rfl
    · exact .other (by decide) (by decide) (by omega) rfl
    · exact .other (by decide) (by decide) (by omega) rfl
    · exact .state (p.loadRegion_state (hb rfl))
  · rw [Ply.loadRegion_vreg p (by omega)]
    exact .vreg (by omega) b
  · obtain ⟨ts, hts⟩ := p.loadRegion_tile k b
    rw [hts]
    exact .other (by omega) (by omega) (by omega) rfl

/-! ## The regions that CTXRS reads (R382) -/

/-- The bytes that CTXRS reads of a list of regions. -/
def State.readRegions (s : State) (rs : List (Nat × Nat)) : Except Cause (List (Nat × List Byte)) :=
  rs.foldl (fun (r : Except Cause (List (Nat × List Byte))) (o, n) =>
    match r with
    | .error c => .error c
    | .ok l =>
      match s.readVirt s.ply.core s.ply.tenant (s.ply.ssave + BitVec.ofNat 64 o) n with
      | .error c => .error c
      | .ok b => .ok (l ++ [(o, b)])) (.ok [])

theorem State.readRegions_ok {s : State} {rs : List (Nat × Nat)} {f : Nat → List Byte} (h : ∀ o n, (o, n) ∈ rs →
    s.readVirt s.ply.core s.ply.tenant (s.ply.ssave + BitVec.ofNat 64 o) n = .ok (f o)) :
    s.readRegions rs = .ok (rs.map fun r => (r.1, f r.1)) := by
  unfold State.readRegions
  induction rs using List.reverseRecOn with
  | nil => rfl
  | append_singleton rs r ih =>
    rw [List.foldl_concat, ih fun o n hr => h o n (List.mem_append_left _ hr)]
    simp only [h r.1 r.2 (List.mem_append_right _ (List.mem_singleton.mpr rfl)), List.map_append, List.map_cons, List.map_nil]

theorem execCtxrs_of_read {s : State} {l : List (Nat × List Byte)} (hsup : s.ply.supervisor = true)
    (h : s.readRegions ((s.ply.regions s.ply.vcount true).map fun r => (r.1, r.2.length)) = .ok l) :
    execCtxrs s = .next (s.loadContext l) := by
  have hexec : execCtxrs s = (if s.ply.supervisor then
      (match s.readRegions ((s.ply.regions s.ply.vcount true).map fun r => (r.1, r.2.length)) with
      | .error c => s.raise c
      | .ok l => s.loadContext l) else s.raisePriv).ok := rfl
  rw [hexec, if_pos hsup, h]
  rfl

/-- The regions as they are read. -/
def Ply.regionsRead (p : Ply) (f : Nat → List Byte) : List (Nat × List Byte) :=
  (p.regions p.vcount true).map fun r => (r.1, f r.1)

/-- The ply after CTXRS has loaded every region, and then the depth of its divergence stack. -/
def State.regionPly (s : State) (f : Nat → List Byte) : Ply :=
  (s.ply.regionsRead f).foldl (fun p r => p.loadRegion true r.1 [] r.2) (s.ply.advance s.issue)
def State.loadedPly (s : State) (f : Nat → List Byte) : Ply :=
  { s.regionPly f with dstack := s.loadStack (min (num (f 0x180) 0x64 4) 64) }

theorem State.loadContext_eq {s : State} {f : Nat → List Byte} (hv : num (f 0x180) 0x5C 4 = s.ply.vregs.length)
    (ht : num (f 0x180) 0x60 4 = s.ply.tiles.length) :
    s.loadContext (s.ply.regionsRead f) = { s with ply := { (s.loadedPly f).eret with runSince := s.now } } := by
  have hlookup : ((s.ply.regionsRead f).lookup 0x180).getD [] = f 0x180 := rfl
  have hsame : (num (f 0x180) 0x5C 4 != s.ply.vcount || num (f 0x180) 0x60 4 != s.ply.actiles) = false := by
    rw [hv, ht]
    simp [Ply.vcount, Ply.actiles]
  unfold State.loadContext
  simp only [hlookup, hsame]
  rfl

/-! ## What is loaded -/

section
variable {s : State} {f : Nat → List Byte} (hlive : s.ply.vregs.length ≤ 119)
  (hlen : ∀ o b, (o, b) ∈ s.ply.regions s.ply.vcount true → (f o).length = b.length)
include hlive hlen

theorem State.loadsRegion_of_mem (p : Ply) {off : Nat} {b : List Byte} (h : (off, b) ∈ s.ply.regions s.ply.vcount true) :
    LoadsRegion p off (f off) (p.loadRegion true off [] (f off)) := by
  refine p.loadRegion_loads (fun h180 => ?_) hlive (s.ply.offset_of_mem_regions _ _ h)
  subst h180
  rw [hlen _ _ (s.ply.state_mem_regions _)]
  exact s.ply.length_stateBytes _

/-- What the load of one region makes hold, and every other keeps, holds of the loaded ply. -/
theorem State.loadedPly_of_region {P : Ply → Prop} {o : Nat} {b : List Byte} (ho : (o, b) ∈ s.ply.regions s.ply.vcount true)
    (hmake : ∀ p off q, off = o → LoadsRegion p off (f off) q → P q)
    (hkeep : ∀ p off q, LoadsRegion p off (f off) q → P p → P q)
    (hstack : ∀ p l, P p → P { p with dstack := l }) : P (s.loadedPly f) := by
  refine hstack _ _ (foldl_of_mem (List.mem_map.mpr ⟨(o, b), ho, rfl⟩)
    (fun p => hmake p o _ rfl (State.loadsRegion_of_mem hlive hlen p ho)) (fun p r hr hp => ?_) _)
  obtain ⟨⟨off, c⟩, hmem, rfl⟩ := List.mem_map.mp hr
  exact hkeep p off _ (State.loadsRegion_of_mem hlive hlen p hmem) hp

theorem State.regionPly_length_vregs : (s.regionPly f).vregs.length = s.ply.vregs.length := by
  have hstart : (s.ply.advance s.issue).vregs.length = s.ply.vregs.length := by
    rw [Ply.advance_vregs]
  unfold State.regionPly
  refine List.foldlRecOn (motive := fun q : Ply => q.vregs.length = s.ply.vregs.length) _ _ hstart fun p hp r hr => ?_
  obtain ⟨⟨off, c⟩, hmem, rfl⟩ := List.mem_map.mp hr
  have h := State.loadsRegion_of_mem hlive hlen p hmem
  generalize p.loadRegion true off [] (f off) = q at h ⊢
  cases h with
  | scalars b => rw [(p.loadScalars_keeps _).1, hp]
  | state h => rw [h.vregs, hp]
  | vreg => exact (List.length_set ..).trans hp
  | other _ _ _ hq =>
    rw [hq]
    exact hp

/-- A scalar that is no view of the activity. -/
theorem State.loadedPly_sreg {r : Nat} (hr : r < 64) (h0 : r ≠ 0) (hview : ¬ (60 ≤ r ∧ r ≤ 62)) :
    (s.loadedPly f).sregs[r]? = some (bytesWord (slice (f 0) (4 * r) 4)) := by
  refine State.loadedPly_of_region hlive hlen (P := fun q => q.sregs[r]? = _) (s.ply.scalars_mem_regions _ _)
    (fun p off q hoff h => ?_) (fun p off q h hp => ?_) fun p l hp => hp
  · cases h with
    | scalars => simp [Ply.loadScalars, hr, h0, hview]
    | state => omega
    | vreg => omega
    | other h0 => exact absurd hoff h0
  · cases h with
    | scalars => simp [Ply.loadScalars, hr, h0, hview]
    | state h => rw [h.sregs, hp]
    | vreg => exact hp
    | other _ _ _ hq =>
      rw [hq]
      exact hp

theorem State.loadedPly_vreg {v : Nat} (hv : v < s.ply.vregs.length) :
    (s.loadedPly f).vregs[v]? = some (Lanes.ofBytes (f (0x4000 + 384 * v))) := by
  have hlive' : v < (s.loadedPly f).vregs.length := by
    unfold State.loadedPly
    dsimp only
    rwa [State.regionPly_length_vregs hlive hlen]
  refine State.loadedPly_of_region hlive hlen (P := fun q => v < q.vregs.length →
    q.vregs[v]? = some (Lanes.ofBytes (f (0x4000 + 384 * v)))) (s.ply.vreg_mem_regions _ true hv (Nat.le_refl _))
    (fun p off q hoff h => ?_) (fun p off q h hp => ?_) (fun p l hp => hp) hlive'
  · cases h with
    | scalars => omega
    | state => omega
    | @vreg w hw =>
      obtain rfl : w = v := by omega
      exact fun hlt => List.getElem?_set_self (by rwa [List.length_set] at hlt)
    | other _ _ hno => exact absurd hoff (hno v (by omega))
  · cases h with
    | scalars => rwa [(p.loadScalars_keeps _).1]
    | state h => rwa [h.vregs]
    | @vreg w hw =>
      intro hlt
      have hlt' : v < p.vregs.length := by
        rwa [List.length_set] at hlt
      by_cases hvw : w = v
      · subst hvw
        exact List.getElem?_set_self hlt'
      · exact (List.getElem?_set_ne hvw).trans (hp hlt')
    | other _ _ _ hq =>
      rw [hq]
      exact hp

/-- The ply state that resumes the path. -/
theorem State.loadedPly_state : (s.loadedPly f).fflags = BitVec.ofNat 6 (num (f 0x180) 0 4) ∧
    (s.loadedPly f).scope = BitVec.ofNat 24 (num (f 0x180) 16 4) ∧
    (s.loadedPly f).epc = BitVec.ofNat 64 (num (f 0x180) 64 8) &&& 0x0FFFFFFFFFFFFFFC := by
  refine State.loadedPly_of_region hlive hlen (P := fun q => q.fflags = BitVec.ofNat 6 (num (f 0x180) 0 4) ∧
    q.scope = BitVec.ofNat 24 (num (f 0x180) 16 4) ∧
    q.epc = BitVec.ofNat 64 (num (f 0x180) 64 8) &&& 0x0FFFFFFFFFFFFFFC) (s.ply.state_mem_regions _)
    (fun p off q hoff h => ?_) (fun p off q h hp => ?_) fun p l hp => hp
  · cases h with
    | scalars => omega
    | state h => exact ⟨h.fflags, h.scope, h.epc⟩
    | vreg => omega
    | other _ h180 => exact absurd hoff h180
  · cases h with
    | scalars =>
      obtain ⟨-, hfflags, hscope, hepc⟩ := p.loadScalars_keeps (f 0)
      rwa [hfflags, hscope, hepc]
    | state h => exact ⟨h.fflags, h.scope, h.epc⟩
    | vreg => exact hp
    | other _ _ _ hq =>
      rw [hq]
      exact hp

end

/-! ## The statement -/

theorem exec_ctxsv (s : State) : exec .ctxsv s = execCtxsv s := rfl
theorem exec_ctxrs (s : State) : exec .ctxrs s = execCtxrs s := rfl

theorem execCtxsv_of_stores {s : State} {ls : List LaneStore} (hsup : s.ply.supervisor = true)
    (h : s.regionStores ((s.ply.interrupted).regions s.ply.vregs.length true) = .ok ls) :
    execCtxsv s = .next (s.queueAll [.store ls 0]).done := by
  unfold execCtxsv
  rw [if_pos hsup, show s.ply.vcount = s.ply.vregs.length from rfl, h]
  rfl

/-- Both raise PRIV at user privilege. -/
theorem ctx_refused {s : State} (hu : s.ply.supervisor = false) :
    (Answers .ctxsv s fun t => TrapsWithWord s t 0x02 0) ∧ (Answers .ctxrs s fun t => TrapsWithWord s t 0x02 0) := by
  have htrap : TrapsWithWord s s.raisePriv 0x02 0 :=
    State.raise_word hu 0x02 0 (by decide) (by decide) (by decide) (by decide) _
  refine ⟨⟨_, (exec_ctxsv s).trans ?_, htrap⟩, ⟨_, (exec_ctxrs s).trans ?_, htrap⟩⟩
  · unfold execCtxsv
    rw [if_neg (by simp [hu])]
    rfl
  · unfold execCtxrs
    rw [if_neg (by simp [hu])]
    rfl

theorem bytesWord_toNat (b : List Byte) (o : Nat) : (bytesWord (slice b o 4)).toNat = num b o 4 := by
  have hlt (l : List Byte) : leNat l < 256 ^ l.length := by
    induction l with
    | nil => decide
    | cons x l ih =>
      have hx := x.isLt
      rw [leNat, List.length_cons, pow_succ']
      omega
  have hlen : (slice b o 4).length ≤ 4 := List.length_take_le ..
  rw [bytesWord, BitVec.toNat_ofNat]
  exact Nat.mod_eq_of_lt ((hlt _).trans_le (Nat.pow_le_pow_right (by decide) hlen))

/-- CTXRS where every region can be read and the counts of registers and tiles are the ply's. -/
theorem ctxrs_loads {s : State} {f : Nat → List Byte} (hsup : s.ply.supervisor = true) (hread : ∀ o b,
      (o, b) ∈ s.ply.regions s.ply.vregs.length true →
      s.readVirt s.ply.core s.ply.tenant (s.ply.ssave + BitVec.ofNat 64 o) b.length = .ok (f o))
    (hv : num (f 0x180) 0x5C 4 = s.ply.vregs.length) (ht : num (f 0x180) 0x60 4 = s.ply.tiles.length) :
    exec .ctxrs s = .next { s with ply := { (s.loadedPly f).eret with runSince := s.now } } := by
  have hregions : s.readRegions ((s.ply.regions s.ply.vcount true).map fun r => (r.1, r.2.length)) = .ok (s.ply.regionsRead f) := by
    rw [State.readRegions_ok (f := f), List.map_map]
    · rfl
    · rintro o n hon
      obtain ⟨⟨o, b⟩, hmem, heq⟩ := List.mem_map.mp hon
      obtain ⟨rfl, rfl⟩ := Prod.mk.inj heq
      exact hread o b hmem
  rw [exec_ctxrs, execCtxrs_of_read hsup hregions, State.loadContext_eq hv ht]

theorem Ply.getS_scalar {p : Ply} {slot : Nat} {r : BitVec 6} (h0 : r ≠ 0) (hview : ¬ (60 ≤ r.toNat ∧ r.toNat ≤ 62)) :
    p.getS slot r = (p.sregs[r.toNat]?).getD 0 := by
  unfold Ply.getS
  rw [if_neg (by simpa using h0), if_neg (by simpa using hview)]

theorem Ply.getV_register {p : Ply} {v : Nat} (hv : v ≤ 119) : p.getV (BitVec.ofNat 7 v) = (p.vregs[v]?).getD Lanes.zero := by
  have hcode : (BitVec.ofNat 7 v).toNat = v := by
    rw [BitVec.toNat_ofNat]
    omega
  unfold Ply.getV
  rw [hcode]
  exact if_pos hv

/-- ERET goes on at %epc. -/
theorem Ply.eret_cur_pc (p : Ply) : p.eret.cur.pc = p.epc := by
  have hcur : p.eret.cur = { p.cur with
      pc := p.epc, transfer := if p.epc == p.trapEpc && p.erun == p.trapErun then p.trapTransfer else .none } := by
    exact Ply.setCur_cur p _
  rw [hcur]

/-- Settles O30: CTXSV queues the stores of the regions; CTXRS loads each region that it reads, and resumes as ERET does. -/
theorem contextSaveRestore : Obligations.ContextSaveRestore := by
  refine ⟨fun s ls hsup h => ⟨_, (exec_ctxsv s).trans (execCtxsv_of_stores hsup h), s.queueAll_queuesOnly _⟩,
    fun p live latch hlive h119 ht => ⟨⟨_, p.scalars_mem_regions live latch, ?_, fun r hr => ?_⟩, fun v hv =>
      ⟨_, p.vreg_mem_regions live latch hv hlive, ?_, fun i hi => ?_⟩, fun k hk => ⟨_, p.tile_mem_regions live latch hk, rfl⟩⟩,
    fun s f hsup hlive hregions hv ht => ?_, fun s hu => ctx_refused hu⟩
  · exact length_flatMap_const (fun i => length_leBytes 4 _) _
  · exact num_words _ hr
  · exact length_flatMap_const (fun i => length_leBytes 4 _) _
  · rw [Ply.getV_register (by omega)]
    exact num_words _ hi
  · have hlen o b (h : (o, b) ∈ s.ply.regions s.ply.vcount true) : (f o).length = b.length := (hregions o b h).2
    have ⟨hfflags, hscope, hepc⟩ := State.loadedPly_state hlive hlen
    have hsreg {r : Nat} := State.loadedPly_sreg hlive hlen (r := r)
    have hvreg {v : Nat} := State.loadedPly_vreg hlive hlen (v := v)
    have hexec := ctxrs_loads hsup (fun o b h => (hregions o b h).1) hv ht
    generalize s.loadedPly f = p at hfflags hscope hepc hsreg hvreg hexec
    refine ⟨_, hexec, OnlyPly.of_ply .., rfl, rfl, fun r h0 hr => ?_,
      fun v i hvl hi => ?_, ?_, ?_, ?_⟩
    · have h0' : r.toNat ≠ 0 := fun h => h0 (BitVec.eq_of_toNat_eq h)
      have hview : ¬ (60 ≤ r.toNat ∧ r.toNat ≤ 62) := by omega
      rw [State.S, Ply.getS_scalar h0 hview, Ply.eret_sregs, hsreg r.isLt h0' hview]
      exact bytesWord_toNat _ _
    · rw [State.V, Ply.getV_register (by omega), Ply.eret_vregs, hvreg hvl]
      rw [Option.getD_some, Lanes.ofBytes, Lanes.gen_at, if_pos hi]
      exact bytesWord_toNat _ _
    · exact (Ply.eret_fflags _).trans hfflags
    · exact (Ply.eret_scope _).trans hscope
    · rw [← hepc]
      exact Ply.eret_cur_pc _

end Sys2Proof.Machine

/-!
A load of main memory that is not in canonical form: the core takes the bytes of an element as one run (State.seenN), and what it
reads at each address (State.seen) differs where an address is listed behind a lower one.
-/
namespace Sys2Proof.Machine
open Sys2Proof.Claim

/-- LD of two bytes, zero-extended, into lane 0 of V[0], from the run of bytes 0x40180 and 0x40181. -/
def raggedLoad : MemOp := ⟨1, 0, 0, .load 0 2 [⟨0, 0x40180, 0x40180⟩] 0⟩

/-- The load is queued by a ply of one register, over a main memory that lists 0x40181 behind 0x4017F. -/
def raggedLoading : State :=
  { raggedState with ply := { raggedState.ply with vregs := [Lanes.zero], lsq := [raggedLoad] } }

theorem raggedLoading_not_memoryOk : ¬ MemoryOk raggedLoading := raggedState_not_memoryOk

theorem raggedLoading_mayPerform : MayPerform raggedLoading 1 raggedLoad := by
  refine ⟨by decide, rfl, ?_⟩
  decide +kernel

/-- The load takes 1: the run holds 1 and 0. -/
theorem raggedLoading_takes : ((raggedLoading.takeResult raggedLoading.ply.uid 1).awake.V 0).at 0 = 1 := by decide +kernel

/-- Its bytes, as the core reads each of them, are 1 and 1. -/
theorem raggedLoading_globalBytes : globalBytes raggedLoading 1 0 0x40180 2 = [1, 1] := by decide +kernel

theorem exec_longLatencyResult (uid seq : Nat) (s : State) :
    exec (.longLatencyResult uid seq) s = .next (s.takeResult uid seq).awake := rfl

/-- Refutes O19: in raggedLoading the load takes 1, where the bytes that its core reads make 257. Main memory there is not in
canonical form (raggedLoading_not_memoryOk), which the statement does not ask for. -/
theorem not_loadResults : ¬ Obligations.LoadResults := by
  unfold Obligations.LoadResults
  rintro ⟨hload, -, -⟩
  obtain ⟨t, hexec, -, hvalues, -⟩ := hload 1 raggedLoad 0 2 [⟨0, 0x40180, 0x40180⟩] 0 raggedLoading raggedLoading_mayPerform rfl
    (by decide) (.inr (by decide)) (by decide) (by decide +kernel)
  have ht : (raggedLoading.takeResult raggedLoading.ply.uid 1).awake = t :=
    Host.Outcome.next.inj ((exec_longLatencyResult ..).symm.trans hexec)
  have hvalue : (t.V 0).at 0 = loadedWord 2 (globalBytes raggedLoading 1 0 0x40180 2) 0 := hvalues 0 (by decide) 0 (by decide)
  rw [← ht, raggedLoading_takes, raggedLoading_globalBytes] at hvalue
  exact absurd hvalue (by decide)

end Sys2Proof.Machine

/-!
Stores as they are performed (R116, R176, R185, R303, R326): a store reaches its home, its line's copy in memory is brought up to
date, an STX writes the XBUF of its core.
-/
namespace Sys2Proof.Machine
open Sys2Proof.Claim

/-! ## What observers read, by the stores on their way -/

/-- The stores laid over a byte of memory for an observer, in their order. -/
def laidOver (core now a : Nat) (l : List PendingStore) (b : Byte) : Byte :=
  l.foldl (fun b p => if p.visible core now then overlay p.pa p.data a b else b) b

theorem State.seen_eq_laidOver (s : State) (core a : Nat) : s.seen core a = laidOver core s.now a s.stores (s.mem.read a) := rfl

theorem laidOver_append (core now a : Nat) (l m : List PendingStore) (b : Byte) :
    laidOver core now a (l ++ m) b = laidOver core now a m (laidOver core now a l b) := List.foldl_append

theorem laidOver_map {g : PendingStore → PendingStore}
    (hg : ∀ p core now, (g p).visible core now = p.visible core now ∧ (g p).pa = p.pa ∧ (g p).data = p.data) (core now a : Nat)
    (l : List PendingStore) (b : Byte) : laidOver core now a (l.map g) b = laidOver core now a l b := by
  unfold laidOver
  rw [List.foldl_map]
  refine List.foldl_ext _ _ _ fun b p _ => ?_
  obtain ⟨hv, hpa, hdata⟩ := hg p core now
  rw [hv, hpa, hdata]

/-- Stores that an observer does not see yet. -/
theorem laidOver_invisible {core now a : Nat} {l : List PendingStore} (h : ∀ p ∈ l, p.visible core now = false) (b : Byte) :
    laidOver core now a l b = b := by
  unfold laidOver
  refine List.foldlRecOn (motive := fun c => c = b) l _ rfl fun c hc p hp => ?_
  rw [h p hp]
  exact hc

/-! ## A store of the ply reaches its home (R326) -/

/-- What the arrival of one store of the ply in hand leaves: the store q on its way behind the others. -/
structure Arrived (s t : State) (q : PendingStore) : Prop where
  rest : t = { s with
    ply := t.ply, seq := s.seq + 1, stores := s.stores ++ [q], vaults := t.vaults, homeLeases := t.homeLeases
    l2Leases := t.l2Leases, saved := t.saved, ghosts := t.ghosts }
  ply : t.ply = { s.ply with pgw := t.ply.pgw, cgw := t.ply.cgw }
  seq : s.seq < q.seq
  core : q.core = s.ply.core
  cluster : q.cluster = clusterOf s.ply.core
  ctime : s.now + 4 ≤ q.ctime
  time : s.now + 4 ≤ q.time
  order : ∀ o ∈ s.stores, lineOf o.pa = lineOf q.pa → o.time ≤ q.time

theorem le_foldl_max (f : PendingStore → Bool) (l : List PendingStore) (m : Nat) :
    m ≤ l.foldl (fun m p => if f p then max m p.time else m) m ∧
      ∀ o ∈ l, f o = true → o.time ≤ l.foldl (fun m p => if f p then max m p.time else m) m := by
  induction l generalizing m with
  | nil => exact ⟨Nat.le_refl m, fun o ho => absurd ho (List.not_mem_nil)⟩
  | cons p l ih =>
    obtain ⟨hstart, hall⟩ := ih (if f p then max m p.time else m)
    have hstep : m ≤ if f p then max m p.time else m := by
      split
      · exact Nat.le_max_left ..
      · exact Nat.le_refl m
    refine ⟨hstep.trans hstart, fun o ho hf => ?_⟩
    obtain rfl | ho := List.mem_cons.mp ho
    · refine le_trans ?_ hstart
      rw [if_pos hf]
      exact Nat.le_max_right ..
    · exact hall o ho hf

theorem State.takeL2_rest (s : State) (tenant cluster policy line : Nat) : s.takeL2 tenant cluster policy line =
    { s with
      vaults := (s.takeL2 tenant cluster policy line).vaults, homeLeases := (s.takeL2 tenant cluster policy line).homeLeases
      l2Leases := (s.takeL2 tenant cluster policy line).l2Leases } := by
  unfold State.takeL2
  split
  · rfl
  · have h := (State.homeRead_charged s tenant line policy).rest
    dsimp only
    generalize s.homeRead tenant line policy = r at h
    rw [h]

/-- The completion time that a store of a core gets at the home of its line, and its cluster completion time. -/
def State.storeTime (s : State) (pa : Nat) : Nat :=
  max (max (max s.now 0) (s.summary (lineOf pa)) + 4)
    (s.stores.foldl (fun m p => if lineOf p.pa == lineOf pa then max m p.time else m) 0)
def State.storeClusterTime (s : State) (core pa : Nat) : Nat :=
  if clusterOf core == 64 then s.storeTime pa
  else min (s.storeTime pa) (max (max s.now 0) (latestL1 s.l1Leases (clusterOf core) (lineOf pa)) + 4)

/-- A store of a ply on its way, under the next issue number. -/
def State.storeOf (s : State) (uid core tenant policy : Nat) (scopes : List (BitVec 24)) (pa : Nat) (data : List Byte) : PendingStore :=
  ⟨s.seq + 1, uid, s.seq + 1, core, clusterOf core, tenant, pa, data, s.storeClusterTime core pa, s.storeTime pa, false, policy, false,
    scopes⟩

theorem State.storeTime_le (s : State) (pa : Nat) :
    s.now + 4 ≤ s.storeTime pa ∧ ∀ o ∈ s.stores, lineOf o.pa = lineOf pa → o.time ≤ s.storeTime pa := by
  refine ⟨?_, fun o ho hline => ?_⟩
  · unfold State.storeTime
    omega
  · exact ((le_foldl_max (fun p => lineOf p.pa == lineOf pa) s.stores 0).2 o ho (by simp [hline])).trans (Nat.le_max_right ..)

theorem State.storeClusterTime_le {s : State} (core pa : Nat) : s.now + 4 ≤ s.storeClusterTime core pa := by
  have := (s.storeTime_le pa).1
  unfold State.storeClusterTime
  split
  · assumption
  · omega

/-- The store on its way, before its ply knows its completion times. -/
def State.withStore (s : State) (tenant policy : Nat) (pa : Nat) (q : PendingStore) : State :=
  let u := State.homeStore { s with seq := s.seq + 1 } tenant (lineOf pa) policy
  let v := { u with stores := u.stores ++ [q] }
  if clusterOf q.core < 64 && (policy == 0 || policy == 3) then v.takeL2 tenant (clusterOf q.core) policy (lineOf pa) else v

theorem State.withStore_rest (s : State) (tenant policy pa : Nat) (q : PendingStore) : s.withStore tenant policy pa q =
    { s with
      seq := s.seq + 1, stores := s.stores ++ [q], vaults := (s.withStore tenant policy pa q).vaults
      homeLeases := (s.withStore tenant policy pa q).homeLeases, l2Leases := (s.withStore tenant policy pa q).l2Leases } := by
  have hu := (State.homeStore_charged { s with seq := s.seq + 1 } tenant (lineOf pa) policy).rest
  unfold State.withStore
  dsimp only
  generalize State.homeStore { s with seq := s.seq + 1 } tenant (lineOf pa) policy = u at hu
  split
  · have h := State.takeL2_rest { u with stores := u.stores ++ [q] } tenant (clusterOf q.core) policy (lineOf pa)
    generalize State.takeL2 { u with stores := u.stores ++ [q] } tenant (clusterOf q.core) policy (lineOf pa) = r at h ⊢
    rw [h, hu]
  · rw [hu]

theorem State.arrive_own {s : State} {uid : Nat} (huid : uid ≠ 0) (core tenant policy : Nat) (scopes : List (BitVec 24)) (pa : Nat)
    (data : List Byte) : s.arrive uid core tenant policy 0 scopes pa data =
      (s.withStore tenant policy pa (s.storeOf uid core tenant policy scopes pa data)).modAny uid fun p => { p with
        pgw := BitVec.ofNat 64 (max p.pgw.toNat (s.storeTime pa)), cgw := max p.cgw (s.storeClusterTime core pa) } := by
  have hu : (uid == 0) = false := by simpa using huid
  unfold State.arrive State.arriveAs
  dsimp only
  rw [hu]
  rfl

theorem State.arrive_arrived {s : State} (huid : s.ply.uid ≠ 0) (tenant policy : Nat) (scopes : List (BitVec 24)) (pa : Nat)
    (data : List Byte) : Arrived s (s.arrive s.ply.uid s.ply.core tenant policy 0 scopes pa data)
      (s.storeOf s.ply.uid s.ply.core tenant policy scopes pa data) := by
  rw [State.arrive_own huid]
  have hrest := s.withStore_rest tenant policy pa (s.storeOf s.ply.uid s.ply.core tenant policy scopes pa data)
  generalize s.withStore tenant policy pa (s.storeOf s.ply.uid s.ply.core tenant policy scopes pa data) = w at hrest ⊢
  have hply : w.ply = s.ply := by
    rw [hrest]
  obtain ⟨htime, horder⟩ := s.storeTime_le pa
  have hmod := State.modAny_eq (s := w) (uid := s.ply.uid) (by rw [hply]) fun p => { p with
    pgw := BitVec.ofNat 64 (max p.pgw.toNat (s.storeTime pa)), cgw := max p.cgw (s.storeClusterTime s.ply.core pa) }
  generalize w.modAny s.ply.uid _ = t at hmod ⊢
  refine ⟨?_, ?_, Nat.lt_succ_self _, rfl, rfl, s.storeClusterTime_le _ _, htime, horder⟩
  · rw [hmod, hrest]
  · rw [hmod, hply]

/-- The store of a lane whose bytes stand in one line is one store. -/
theorem State.arriveN_of_inLine {s : State} {uid core tenant policy : Nat} {scopes : List (BitVec 24)} {pa : Nat} {data : List Byte}
    (h : Claim.InLine pa data) : s.arriveN uid core tenant policy 0 scopes pa data = s.arrive uid core tenant policy 0 scopes pa data := by
  obtain ⟨hne, hline⟩ := h
  have hcut : cutLines (data.length + 1) pa data = [(pa, data)] := by
    have hempty : data.isEmpty = false := List.isEmpty_eq_false_iff.mpr hne
    unfold cutLines
    simp only [hempty, Bool.false_eq_true, if_false]
    exact if_pos (by omega)
  unfold State.arriveN
  rw [hcut]
  rfl

/-- What the arrivals of a list of stores leave. -/
structure ArrivedAll (s t : State) (qs : List PendingStore) : Prop where
  rest : t = { s with
    ply := t.ply, seq := t.seq, stores := s.stores ++ qs, vaults := t.vaults, homeLeases := t.homeLeases
    l2Leases := t.l2Leases, saved := t.saved, ghosts := t.ghosts }
  ply : t.ply = { s.ply with pgw := t.ply.pgw, cgw := t.ply.cgw }
  seq : s.seq ≤ t.seq
  each : ∀ q ∈ qs, s.seq < q.seq ∧ q.core = s.ply.core ∧ q.cluster = clusterOf s.ply.core ∧ s.now + 4 ≤ q.ctime ∧
    s.now + 4 ≤ q.time ∧ ∀ o ∈ s.stores, lineOf o.pa = lineOf q.pa → o.time ≤ q.time

namespace ArrivedAll

theorem refl (s : State) : ArrivedAll s s [] := by
  refine ⟨?_, rfl, Nat.le_refl _, fun q hq => absurd hq List.not_mem_nil⟩
  rw [List.append_nil]

theorem snoc {s t u : State} {qs : List PendingStore} {q : PendingStore} (h : ArrivedAll s t qs) (hq : Arrived t u q) :
    ArrivedAll s u (qs ++ [q]) := by
  have hrest := h.rest
  have hnow : t.now = s.now := by
    unfold State.now
    rw [hrest]
  have hstores : t.stores = s.stores ++ qs := by
    rw [hrest]
  have hcore : t.ply.core = s.ply.core := by
    rw [h.ply]
  have hseq : u.seq = t.seq + 1 := by
    rw [hq.rest]
  have hle := h.seq
  have hlt := hq.seq
  refine ⟨?_, ?_, by omega, fun r hr => ?_⟩
  · rw [hq.rest, hstores, List.append_assoc, hrest]
  · rw [hq.ply, h.ply]
  · obtain hr | hr := List.mem_append.mp hr
    · exact h.each r hr
    · obtain rfl := List.mem_singleton.mp hr
      refine ⟨by omega, hq.core.trans hcore, ?_, hnow ▸ hq.ctime, hnow ▸ hq.time, fun o ho => hq.order o ?_⟩
      · rw [hq.cluster, hcore]
      · rw [hstores]
        exact List.mem_append_left _ ho

end ArrivedAll

/-- The stores of some lanes reach their homes in the lanes' order. -/
theorem State.storesArrive {s : State} (huid : s.ply.uid ≠ 0) (policy : Nat) {ls : List LaneStore}
    (hls : ∀ l ∈ ls, Claim.InLine l.pa l.data) :
    ∃ qs : List PendingStore, qs.map (fun q => (q.pa, q.data)) = ls.map (fun l => (l.pa, l.data)) ∧
      ArrivedAll s (ls.foldl (fun t l =>
        t.arriveN s.ply.uid s.ply.core s.ply.tenant policy 0 (s.ply.scopesOf [l.lane]) l.pa l.data) s) qs := by
  induction ls using List.reverseRecOn with
  | nil => exact ⟨[], rfl, ArrivedAll.refl s⟩
  | append_singleton ls l ih =>
    obtain ⟨qs, hqs, h⟩ := ih fun k hk => hls k (List.mem_append_left _ hk)
    rw [List.foldl_concat]
    generalize ls.foldl _ s = t at h ⊢
    rw [State.arriveN_of_inLine (hls l (by simp))]
    have huid' : t.ply.uid = s.ply.uid := by
      rw [h.ply]
    have hcore' : t.ply.core = s.ply.core := by
      rw [h.ply]
    have hq := State.arrive_arrived (s := t) (by rwa [huid']) s.ply.tenant policy (s.ply.scopesOf [l.lane]) l.pa l.data
    rw [huid', hcore'] at hq
    refine ⟨_, ?_, h.snoc hq⟩
    rw [List.map_append, List.map_append, hqs]
    rfl

/-! ## A queue that an access leaves (R187, R189) -/

/-- What settling the queue of the ply in hand leaves. -/
structure QueueSettled (s t : State) : Prop where
  rest : t = { s with ply := t.ply, plies := t.plies, cores := t.cores, saved := t.saved, ghosts := t.ghosts }
  ply : t.ply = { s.ply with lsq := t.ply.lsq, stxOld := t.ply.stxOld }
  lsq : t.ply.lsq ⊆ s.ply.lsq
  core : ∀ k, t.core k = { s.core k with unseen := (t.core k).unseen }
  ghosts : (∀ g ∈ s.ghosts, g.uid ≠ s.ply.uid) → t.ghosts = s.ghosts

theorem QueueSettled.trans {s t u : State} (h₁ : QueueSettled s t) (h₂ : QueueSettled t u) : QueueSettled s u where
  rest := by
    have h := h₂.rest
    rw [h₁.rest] at h
    exact h
  ply := by
    have h := h₂.ply
    rw [h₁.ply] at h
    exact h
  lsq := List.Subset.trans h₂.lsq h₁.lsq
  core k := by
    have h := h₂.core k
    rw [h₁.core k] at h
    exact h
  ghosts hg := by
    have hghosts := h₁.ghosts hg
    have huid : t.ply.uid = s.ply.uid := by
      rw [h₁.ply]
    rw [← hghosts]
    refine h₂.ghosts ?_
    rwa [hghosts, huid]

theorem QueueSettled.localByte {s t : State} (h : QueueSettled s t) (core : Nat) (sp : Space) (a : Nat) :
    t.localByte core sp a = s.localByte core sp a := by
  unfold State.localByte
  rw [h.core core]
  cases sp <;> rfl

theorem State.modAny_ghosts {s : State} {uid : Nat} (h : ∀ g ∈ s.ghosts, g.uid ≠ uid) (f : Ply → Ply) :
    (s.modAny uid f).ghosts = s.ghosts := by
  have hghosts : (s.modAny uid f).ghosts = s.ghosts.map fun p => if p.uid == uid then f p else p := by
    unfold State.modAny State.modPly
    split <;> rfl
  rw [hghosts]
  conv_rhs => rw [← List.map_id s.ghosts]
  exact List.map_congr_left fun g hg => if_neg (by simpa using h g hg)

/-- A change of the queue and the words of the ply in hand. -/
theorem State.modAny_settled {s : State} {f : Ply → Ply}
    (hf : ∀ p, f p = { p with lsq := (f p).lsq, stxOld := (f p).stxOld }) (hlsq : (f s.ply).lsq ⊆ s.ply.lsq) :
    QueueSettled s (s.modAny s.ply.uid f) := by
  have hmod := State.modAny_eq (s := s) rfl f
  have hghosts := State.modAny_ghosts (s := s) (uid := s.ply.uid) (f := f)
  generalize s.modAny s.ply.uid f = t at hmod hghosts ⊢
  have hply : t.ply = f s.ply := by
    rw [hmod]
  refine ⟨?_, ?_, ?_, fun k => ?_, hghosts⟩
  · rw [hmod]
  · rw [hply]
    exact hf _
  · rw [hply]
    exact hlsq
  · rw [hmod]
    rfl

theorem FenceMarks.queueSettled {s t : State} (h : FenceMarks s t) : QueueSettled s t := by
  have hply := h.ply
  refine ⟨?_, ?_, ?_, fun k => (h.core k).1, fun _ => ?_⟩
  · rw [h.rest]
  · rw [hply]
  · rw [hply]
    exact List.Subset.refl _
  · rw [h.rest]

theorem State.anyPly_self {s : State} (huid : s.ply.uid ≠ 0) : s.anyPly s.ply.uid = some s.ply := by
  have hres : s.ply.resident = true := by
    rw [Ply.resident]
    simpa using huid
  unfold State.anyPly State.everyPly State.all
  rw [hres]
  simp

theorem State.settleLsq_settled {s : State} (huid : s.ply.uid ≠ 0) : QueueSettled s (s.settleLsq s.ply.uid) := by
  rw [State.settleLsq_eq (State.anyPly_self huid)]
  split
  · exact (FenceMarks.refl s).queueSettled
  · have hmarks : FenceMarks s ((s.metXfences s.ply).foldl (fun t f => t.fenceOthers s.ply f) s) :=
      List.foldlRecOn (motive := fun m => FenceMarks s m) _ _ (FenceMarks.refl s) fun m hm f _ =>
        hm.trans (State.fenceOthers_marks (by rw [hm.ply]) f)
    generalize (s.metXfences s.ply).foldl _ s = m at hmarks ⊢
    rw [← hmarks.ply]
    refine hmarks.queueSettled.trans (State.modAny_settled (fun _ => rfl) ?_)
    exact State.settled_subset _ _

/-- An access that is over leaves the queue, with the fences that waited for it alone. -/
theorem State.removeMem_settled {s : State} (huid : s.ply.uid ≠ 0) (seq : Nat) : QueueSettled s (s.removeMem s.ply.uid seq) ∧
    ∀ o ∈ (s.removeMem s.ply.uid seq).ply.lsq, o ∈ s.ply.lsq ∧ o.seq ≠ seq := by
  have hmod := State.modAny_settled (s := s) (f := fun p => { p with lsq := p.lsq.filter fun e => e.seq != seq }) (fun _ => rfl)
    (List.filter_subset_self _)
  have hlsq : (s.modAny s.ply.uid fun p => { p with lsq := p.lsq.filter fun e => e.seq != seq }).ply.lsq =
      s.ply.lsq.filter fun e => e.seq != seq := by
    rw [State.modAny_eq rfl]
  unfold State.removeMem
  generalize (s.modAny s.ply.uid fun p => { p with lsq := p.lsq.filter fun e => e.seq != seq }) = t at hmod hlsq ⊢
  have huid' : t.ply.uid = s.ply.uid := by
    rw [hmod.ply]
  rw [← huid']
  have hsettle := State.settleLsq_settled (s := t) (by rwa [huid'])
  refine ⟨hmod.trans hsettle, fun o ho => ?_⟩
  have hmem := hsettle.lsq ho
  rw [hlsq] at hmem
  obtain ⟨hin, hne⟩ := List.mem_filter.mp hmem
  exact ⟨hin, by simpa using hne⟩

/-! ## A store performed at its core (R116, R176) -/

theorem exec_storeAtHome (uid seq : Nat) (s : State) : exec (.storeAtHome uid seq) s = execStoreAtHome uid seq s := rfl

theorem seq_of_mayPerform {s : State} {seq : Nat} {e : MemOp} (h : MayPerform s seq e) : e.seq = seq := by
  have := List.find?_some h.2.1
  simpa using this

theorem execStoreAtHome_store {s : State} {seq pol : Nat} {e : MemOp} {ls : List LaneStore} (h : MayPerform s seq e)
    (hk : e.kind = .store ls pol) : execStoreAtHome s.ply.uid seq s = .next (s.performStore s.ply e ls pol).reap := by
  obtain ⟨huid, hfind, hperf⟩ := h
  unfold execStoreAtHome
  simp only [State.anyPly_self huid, hfind, hperf, hk]
  rfl

theorem execStoreAtHome_storeX {s : State} {seq : Nat} {e : MemOp} {ls : List LaneStore} {m : Bool} (h : MayPerform s seq e)
    (hk : e.kind = .storeX ls m) : execStoreAtHome s.ply.uid seq s = .next (s.performStoreX s.ply e ls m).reap := by
  obtain ⟨huid, hfind, hperf⟩ := h
  unfold execStoreAtHome
  simp only [State.anyPly_self huid, hfind, hperf, hk]
  rfl

/-- The stamp of a store that arrived behind an issue number. -/
def stampOf (n seq : Nat) (q : PendingStore) : PendingStore := if n < q.seq then { q with issued := seq } else q

theorem stampOf_eq (n seq : Nat) (q : PendingStore) : stampOf n seq q = { q with issued := (stampOf n seq q).issued } := by
  unfold stampOf
  split <;> rfl

theorem stampOf_issued {n seq : Nat} {q : PendingStore} (h : n < q.seq) : (stampOf n seq q).issued = seq := by
  unfold stampOf
  rw [if_pos h]

theorem stampOf_visible (n seq : Nat) (q : PendingStore) (core now : Nat) :
    (stampOf n seq q).visible core now = q.visible core now ∧ (stampOf n seq q).pa = q.pa ∧ (stampOf n seq q).data = q.data := by
  rw [stampOf_eq]
  exact ⟨rfl, rfl, rfl⟩

/-- The stores of a ply, on their way, whose access has left its queue. -/
structure Performed (s t : State) (e : MemOp) (qs : List PendingStore) : Prop where
  mem : t.mem = s.mem
  ptime : t.ptime = s.ptime
  stores : t.stores = (s.stores ++ qs).map (stampOf s.seq e.seq)
  each : ∀ q ∈ qs, s.seq < q.seq ∧ q.core = s.ply.core ∧ q.cluster = clusterOf s.ply.core ∧ s.now + 4 ≤ q.ctime ∧
    s.now + 4 ≤ q.time ∧ ∀ o ∈ s.stores, lineOf o.pa = lineOf q.pa → o.time ≤ q.time
  lsq : ∀ o ∈ t.ply.lsq, o ∈ s.ply.lsq ∧ o.seq ≠ e.seq
  localByte : ∀ core sp a, t.localByte core sp a = s.localByte core sp a
  ply : t.ply = { s.ply with lsq := t.ply.lsq, stxOld := t.ply.stxOld, pgw := t.ply.pgw, cgw := t.ply.cgw }

theorem State.performStore_performed {s : State} {e : MemOp} {ls : List LaneStore} (pol : Nat) (huid : s.ply.uid ≠ 0)
    (hls : ∀ l ∈ ls, Claim.InLine l.pa l.data) (hvault : ∀ l ∈ ls, (s.vault (vaultOfPa l.pa)).retired = false) :
    ∃ qs : List PendingStore, qs.map (fun q => (q.pa, q.data)) = ls.map (fun l => (l.pa, l.data)) ∧
      Performed s (s.performStore s.ply e ls pol).reap e qs := by
  obtain ⟨qs, hqs, harr⟩ := State.storesArrive huid pol hls
  have hkept : ls.filter (fun l => !(s.vault (vaultOfPa l.pa)).retired) = ls :=
    List.filter_eq_self.mpr fun l hl => by rw [hvault l hl]; rfl
  have hlost : ls.filter (fun l => (s.vault (vaultOfPa l.pa)).retired) = [] :=
    List.filter_eq_nil_iff.mpr fun l hl => by rw [hvault l hl]; decide
  have hperform : s.performStore s.ply e ls pol = ((ls.foldl (fun t l =>
      t.arriveN s.ply.uid s.ply.core s.ply.tenant pol 0 (s.ply.scopesOf [l.lane]) l.pa l.data) s).stamp s e.seq).removeMem
        s.ply.uid e.seq := by
    unfold State.performStore
    simp only [hkept, hlost]
    rfl
  rw [hperform]
  generalize ls.foldl _ s = m at harr ⊢
  have hrest := harr.rest
  have huid' : (m.stamp s e.seq).ply.uid = s.ply.uid := by
    have h : m.ply.uid = s.ply.uid := by
      rw [harr.ply]
    exact h
  obtain ⟨hsettled, hlsq⟩ := State.removeMem_settled (s := m.stamp s e.seq) (huid'.trans_ne huid) e.seq
  rw [huid'] at hsettled hlsq
  generalize (m.stamp s e.seq).removeMem s.ply.uid e.seq = r at hsettled hlsq ⊢
  have hr := hsettled.rest
  have hmem : m.mem = s.mem := by
    rw [hrest]
  have hptime : m.ptime = s.ptime := by
    rw [hrest]
  have hstamp : (m.stamp s e.seq).stores = (s.stores ++ qs).map (stampOf s.seq e.seq) := by
    rw [hrest]
    rfl
  refine ⟨qs, hqs, ?_, ?_, ?_, harr.each, fun o ho => ?_, fun core sp a => ?_, ?_⟩
  · exact (congrArg State.mem hr).trans hmem
  · exact (congrArg State.ptime hr).trans hptime
  · exact (congrArg State.stores hr).trans hstamp
  · obtain ⟨hin, hne⟩ := hlsq o ho
    have hm : m.ply.lsq = s.ply.lsq := by
      rw [harr.ply]
    exact ⟨hm ▸ hin, hne⟩
  · refine (hsettled.localByte core sp a).trans ?_
    rw [hrest]
    rfl
  · refine hsettled.ply.trans ?_
    have hm : (m.stamp s e.seq).ply = { s.ply with pgw := m.ply.pgw, cgw := m.ply.cgw } := harr.ply
    have hrply : r.ply.pgw = m.ply.pgw ∧ r.ply.cgw = m.ply.cgw := by
      rw [hsettled.ply]
      exact ⟨rfl, rfl⟩
    rw [hm, ← hrply.1, ← hrply.2]
    rfl

/-- A store of the ply's core is seen by it at once, by others not before its completion times. -/
theorem Performed.laidOver {s t : State} {e : MemOp} {qs : List PendingStore} (h : Performed s t e qs) (core a : Nat) :
    t.seen core a = Machine.laidOver core s.now a qs (s.seen core a) := by
  have hnow : t.now = s.now := by
    unfold State.now
    rw [h.ptime]
  rw [State.seen_eq_laidOver, h.stores, h.mem, hnow, laidOver_map (stampOf_visible _ _), laidOver_append]
  rfl

theorem Performed.seen_own {s t : State} {e : MemOp} {qs : List PendingStore} {ls : List LaneStore} (h : Performed s t e qs)
    (hcore : s.ply.core < 512) (hqs : qs.map (fun q => (q.pa, q.data)) = ls.map (fun l => (l.pa, l.data))) (a : Nat) :
    t.seen s.ply.core a = ls.foldl (fun b l => overlay l.pa l.data a b) (s.seen s.ply.core a) := by
  have hvisible : ∀ q ∈ qs, q.visible s.ply.core s.now = true := fun q hq => by
    obtain ⟨-, hqcore, -⟩ := h.each q hq
    have hno : s.ply.core ≠ noCore := by
      unfold noCore
      omega
    simp [PendingStore.visible, hqcore, hno]
  have hall : Machine.laidOver s.ply.core s.now a qs (s.seen s.ply.core a) =
      qs.foldl (fun b q => overlay q.pa q.data a b) (s.seen s.ply.core a) :=
    List.foldl_ext _ _ _ fun b q hq => by rw [hvisible q hq]; rfl
  have hpairs (x : Byte) : qs.foldl (fun b q => overlay q.pa q.data a b) x =
      (qs.map fun q => (q.pa, q.data)).foldl (fun b r => overlay r.1 r.2 a b) x := by
    rw [List.foldl_map]
  rw [h.laidOver, hall, hpairs, hqs, List.foldl_map]

theorem Performed.seen_other {s t : State} {e : MemOp} {qs : List PendingStore} (h : Performed s t e qs) {core : Nat}
    (hcore : core ≠ s.ply.core) (a : Nat) : t.seen core a = s.seen core a := by
  rw [h.laidOver]
  refine laidOver_invisible (fun q hq => ?_) _
  obtain ⟨-, hqcore, -, hctime, htime, -⟩ := h.each q hq
  have h1 : (q.core == core) = false := beq_eq_false_iff_ne.mpr fun h => hcore (h ▸ hqcore)
  have h2 : ¬ q.time ≤ s.now := by omega
  have h3 : ¬ q.ctime ≤ s.now := by omega
  simp [PendingStore.visible, h1, h2, h3]

theorem Performed.new {s t : State} {e : MemOp} {qs : List PendingStore} (h : Performed s t e qs) :
    ∀ q ∈ t.stores.drop s.stores.length, s.now + 4 ≤ q.time ∧ q.core = s.ply.core ∧ q.issued = e.seq ∧
      ∀ o ∈ s.stores, lineOf o.pa = lineOf q.pa → o.time ≤ q.time := by
  intro q hq
  have hdrop : t.stores.drop s.stores.length = qs.map (stampOf s.seq e.seq) := by
    rw [h.stores, List.map_append, List.drop_left' (List.length_map _)]
  rw [hdrop] at hq
  obtain ⟨p, hp, rfl⟩ := List.mem_map.mp hq
  obtain ⟨hseq, hcore, -, -, htime, horder⟩ := h.each p hp
  have hissued := stampOf_issued (seq := e.seq) hseq
  refine ⟨?_, ?_, hissued, ?_⟩
  · rw [stampOf_eq]
    exact htime
  · rw [stampOf_eq]
    exact hcore
  · rw [stampOf_eq]
    exact horder

/-! ## The home merges a store at its completion time (R326) -/

theorem exec_completionTime (n : Nat) (s : State) : exec (.completionTime n) s = execCompletionTime n s := rfl
theorem exec_clusterCompletionTime (n : Nat) (s : State) :
    exec (.clusterCompletionTime n) s = execClusterCompletionTime n s := rfl

theorem overlay_outside {base a : Nat} {data : List Byte} (h : a < base ∨ base + data.length ≤ a) (b : Byte) :
    overlay base data a b = b := by
  unfold overlay
  split
  · rw [List.getElem?_eq_none (by omega)]
    rfl
  · rfl

theorem overlay_comm {p q : Nat} {d e : List Byte} (h : p + d.length ≤ q ∨ q + e.length ≤ p) (a : Nat) (b : Byte) :
    overlay p d a (overlay q e a b) = overlay q e a (overlay p d a b) := by
  have hout : (a < p ∨ p + d.length ≤ a) ∨ a < q ∨ q + e.length ≤ a := by omega
  obtain hout | hout := hout
  · rw [overlay_outside hout, overlay_outside hout]
  · rw [overlay_outside hout, overlay_outside hout]

/-- A store that meets none of some others may be laid under them. -/
theorem laidOver_overlay {q : PendingStore} {l : List PendingStore}
    (h : ∀ o ∈ l, o.pa + o.data.length ≤ q.pa ∨ q.pa + q.data.length ≤ o.pa) (core now a : Nat) (b : Byte) :
    laidOver core now a l (overlay q.pa q.data a b) = overlay q.pa q.data a (laidOver core now a l b) := by
  induction l generalizing b with
  | nil => rfl
  | cons o l ih =>
    have htail := fun b => ih (fun p hp => h p (List.mem_cons_of_mem _ hp)) b
    unfold laidOver at htail ⊢
    rw [List.foldl_cons, List.foldl_cons, ← htail]
    split
    · rw [overlay_comm (h o List.mem_cons_self)]
    · rfl

theorem State.answerLoads_of_nil {s : State} (h : s.loads = []) : s.answerLoads = s := by
  have hsame : ({ s with loads := [] } : State) = s := by rw [← h]
  unfold State.answerLoads
  rw [h]
  exact hsame

theorem State.fireLanded_of_nil {s : State} (h : s.landings = []) : s.fireLanded = s := by
  have hsame : ({ s with landings := [] } : State) = s := by rw [← h]
  unfold State.fireLanded
  rw [h]
  exact hsame

/-- The scopes whose record is written by now. -/
def State.writtenScopes (s : State) : List Scope :=
  s.scopes.filter fun c => match c.due with
    | some t => decide (t ≤ s.now)
    | none => false

theorem State.releaseWritten_eq (s : State) :
    s.releaseWritten = s.writtenScopes.foldl (fun t c => t.releaseScope c c.stateWord) s := rfl

theorem State.releaseWritten_of_none {s : State} (h : ∀ c ∈ s.scopes, c.due = none) : s.releaseWritten = s := by
  have hnone : s.writtenScopes = [] := by
    refine List.filter_eq_nil_iff.mpr fun c hc => ?_
    rw [h c hc]
    exact Bool.false_ne_true
  rw [State.releaseWritten_eq, hnone]
  rfl

/-- The home's copy with a store merged, and the report of its line to the hub. -/
def State.mergedAt (s : State) (q : PendingStore) : State :=
  { s.merge q with reports := (s.merge q).reports ++ (s.merge q).reportsOf (lineOf q.pa) }

section
variable {s : State} {q : PendingStore} {l₁ l₂ : List PendingStore} (hstores : s.stores = l₁ ++ q :: l₂)
  (hother : ∀ o ∈ l₁ ++ l₂, o.seq ≠ q.seq ∧ (lineOf o.pa = lineOf q.pa → q.seq < o.seq))
include hstores hother

theorem execCompletionTime_merges (htime : q.time ≤ s.now) :
    execCompletionTime q.seq s = .next (s.mergedAt q).answerLoads.releaseWritten.fireLanded := by
  have hfind : s.stores.find? (fun p : PendingStore => p.seq == q.seq) = some q := by
    have hnone : l₁.find? (fun p : PendingStore => p.seq == q.seq) = none :=
      List.find?_eq_none.mpr fun o ho => by simpa using (hother o (List.mem_append_left _ ho)).1
    rw [hstores, List.find?_append, hnone, List.find?_cons_of_pos (by simp)]
    rfl
  have hfirst : s.stores.any (fun p : PendingStore => lineOf p.pa == lineOf q.pa && decide (p.seq < q.seq)) = false := by
    refine List.any_eq_false.mpr fun o ho => ?_
    rw [hstores, List.mem_append, List.mem_cons] at ho
    simp only [Bool.and_eq_true, beq_iff_eq, decide_eq_true_eq, not_and, not_lt]
    intro hline
    obtain ho | rfl | ho := ho
    · exact ((hother o (List.mem_append_left _ ho)).2 hline).le
    · exact Nat.le_refl _
    · exact ((hother o (List.mem_append_right _ ho)).2 hline).le
  unfold execCompletionTime
  simp only [hfind, hfirst, htime, decide_true, Bool.not_false, Bool.and_true, if_true]
  rfl

theorem State.mergedAt_stores : (s.mergedAt q).stores = l₁ ++ l₂ := by
  have hkeep (l : List PendingStore) (h : ∀ o ∈ l, o.seq ≠ q.seq) : l.filter (fun o => o.seq != q.seq) = l :=
    List.filter_eq_self.mpr fun o ho => by simpa using h o ho
  have hmerge : (s.mergedAt q).stores = s.stores.filter fun o => o.seq != q.seq := rfl
  rw [hmerge, hstores, List.filter_append, List.filter_cons_of_neg (by simp),
    hkeep l₁ fun o ho => (hother o (List.mem_append_left _ ho)).1, hkeep l₂ fun o ho => (hother o (List.mem_append_right _ ho)).1]

/-- What each observer reads is as before. -/
theorem State.mergedAt_seen (hmem : MemoryOk s) (htime : q.time ≤ s.now)
    (hdisjoint : ∀ o ∈ l₁, o.pa + o.data.length ≤ q.pa ∨ q.pa + q.data.length ≤ o.pa) (core a : Nat) :
    (s.mergedAt q).seen core a = s.seen core a := by
  have hnow : (s.mergedAt q).now = s.now := rfl
  have hread : (s.mergedAt q).mem.read a = overlay q.pa q.data a (s.mem.read a) := Memory.read_writeN hmem ..
  have hvisible : q.visible core s.now = true := by
    simp [PendingStore.visible, htime]
  have hq (b : Byte) : laidOver core s.now a [q] b = overlay q.pa q.data a b := by
    unfold laidOver
    rw [List.foldl_cons, hvisible]
    rfl
  rw [State.seen_eq_laidOver, State.seen_eq_laidOver, State.mergedAt_stores hstores hother, hnow, hread, hstores, laidOver_append,
    laidOver_overlay hdisjoint, ← hq, ← laidOver_append, ← laidOver_append]
  rfl

end

/-! ## The cluster completion time (R303) -/

/-- The mark that a store gets at its cluster completion time. -/
def clusterMark (store now : Nat) (p : PendingStore) : PendingStore :=
  if p.seq == store && decide (p.ctime ≤ now) then { p with clusterDone := true } else p

theorem clusterMark_visible (store n : Nat) (p : PendingStore) (core now : Nat) :
    (clusterMark store n p).visible core now = p.visible core now ∧ (clusterMark store n p).pa = p.pa ∧
      (clusterMark store n p).data = p.data := by
  unfold clusterMark
  split <;> exact ⟨rfl, rfl, rfl⟩

theorem execClusterCompletionTime_eq (store : Nat) (s : State) : execClusterCompletionTime store s =
    .next { s with stores := s.stores.map (clusterMark store s.now) } := rfl

/-! ## An STX performed (R185) -/

/-- What STXs leave that no record of an engine's write stands in the way of: the XBUF of the ply's core with their bytes laid
over it. -/
structure XbufWritten (s t : State) (ls : List LaneStore) : Prop where
  rest : t = { s with ply := t.ply, cores := t.cores, saved := t.saved }
  ply : t.ply = { s.ply with stxOld := t.ply.stxOld }
  core : t.core s.ply.core = { s.core s.ply.core with xbuf := (t.core s.ply.core).xbuf }
  other : ∀ k, k ≠ s.ply.core → t.core k = s.core k
  wf : (t.core s.ply.core).xbuf.wf = true
  read : ∀ a, (t.core s.ply.core).xbuf.read a = ls.foldl (fun b l => overlay l.pa l.data a b) ((s.core s.ply.core).xbuf.read a)

theorem State.stxWrite_eq {s : State} {core : Nat} (hunseen : (s.core core).unseen = []) (uid seq a : Nat) (d : List Byte) :
    s.stxWrite uid seq core a d = (s.localWrite core .xbuf a d).modAny uid fun p => { p with
      stxOld := s.recordsOf ⟨seq, uid, none, none⟩ core .xbuf a d.length ++ p.stxOld } := by
  have hkept : s.writeKept core .xbuf a d (fun _ => false) = s.localWrite core .xbuf a d := by
    unfold State.writeKept
    simp
  unfold State.stxWrite
  simp only [hunseen, List.any_nil, hkept]
  rfl

theorem State.localWrite_core_same (s : State) (core a : Nat) (d : List Byte) : (s.localWrite core .xbuf a d).core core =
    { s.core core with xbuf := (s.core core).xbuf.writeN a d } := State.setCore_core ..

theorem State.localWrite_core_other (s : State) {core k : Nat} (h : k ≠ core) (a : Nat) (d : List Byte) :
    (s.localWrite core .xbuf a d).core k = s.core k := tget_tset_other _ _ h _

theorem XbufWritten.snoc {s t : State} {ls : List LaneStore} (h : XbufWritten s t ls) (hunseen : (s.core s.ply.core).unseen = [])
    (hghosts : ∀ g ∈ s.ghosts, g.uid ≠ s.ply.uid) (seq : Nat) (l : LaneStore) :
    XbufWritten s (t.stxWrite s.ply.uid seq s.ply.core l.pa l.data) (ls ++ [l]) := by
  have hnone : (t.core s.ply.core).unseen = [] := by
    rw [h.core]
    exact hunseen
  rw [State.stxWrite_eq hnone]
  have huid : (t.localWrite s.ply.core .xbuf l.pa l.data).ply.uid = s.ply.uid := by
    have hply : t.ply.uid = s.ply.uid := by
      rw [h.ply]
    exact hply
  have hg : ∀ g ∈ (t.localWrite s.ply.core .xbuf l.pa l.data).ghosts, g.uid ≠ s.ply.uid := by
    have hghosts' : (t.localWrite s.ply.core .xbuf l.pa l.data).ghosts = s.ghosts := by
      rw [h.rest]
      rfl
    rwa [hghosts']
  have hmod := State.modAny_eq huid fun p => { p with
    stxOld := t.recordsOf ⟨seq, s.ply.uid, none, none⟩ s.ply.core .xbuf l.pa l.data.length ++ p.stxOld }
  rw [State.modAny_ghosts hg] at hmod
  generalize (t.localWrite s.ply.core .xbuf l.pa l.data).modAny s.ply.uid _ = u at hmod ⊢
  have hcore (k : Nat) : u.core k = (t.localWrite s.ply.core .xbuf l.pa l.data).core k := by
    rw [hmod]
    rfl
  refine ⟨?_, ?_, ?_, fun k hk => ?_, ?_, fun a => ?_⟩
  · rw [hmod, h.rest]
    rfl
  · rw [hmod]
    have hply : (t.localWrite s.ply.core .xbuf l.pa l.data).ply = t.ply := rfl
    rw [hply, h.ply]
  · rw [hcore, State.localWrite_core_same, h.core]
  · rw [hcore, State.localWrite_core_other t hk, h.other k hk]
  · rw [hcore, State.localWrite_core_same]
    exact Memory.writeN_wf h.wf ..
  · rw [hcore, State.localWrite_core_same, List.foldl_concat, ← h.read]
    exact Memory.read_writeN h.wf ..

theorem State.stxs_written {s : State} (hunseen : (s.core s.ply.core).unseen = []) (hwf : (s.core s.ply.core).xbuf.wf = true)
    (hghosts : ∀ g ∈ s.ghosts, g.uid ≠ s.ply.uid) (seq : Nat) (ls : List LaneStore) :
    XbufWritten s (ls.foldl (fun t l => t.stxWrite s.ply.uid seq s.ply.core l.pa l.data) s) ls := by
  induction ls using List.reverseRecOn with
  | nil => exact ⟨rfl, rfl, rfl, fun _ _ => rfl, hwf, fun _ => rfl⟩
  | append_singleton ls l ih =>
    rw [List.foldl_concat]
    exact ih.snoc hunseen hghosts seq l

/-- An STX performed. -/
theorem storeX_performed {s : State} {seq : Nat} {e : MemOp} {ls : List LaneStore} (h : MayPerform s seq e)
    (hk : e.kind = .storeX ls false) (hunseen : (s.core s.ply.core).unseen = []) (hwf : ((s.core s.ply.core).space .xbuf).wf = true)
    (hghosts : ∀ g ∈ s.ghosts, g.uid ≠ s.ply.uid) : Answers (.storeAtHome s.ply.uid seq) s fun t =>
      (∀ a, t.localByte s.ply.core .xbuf a =
        ls.foldl (fun b l => overlay l.pa l.data a b) (s.localByte s.ply.core .xbuf a)) ∧
      (∀ core sp a, core ≠ s.ply.core ∨ sp ≠ .xbuf → t.localByte core sp a = s.localByte core sp a) ∧
      (∀ core a, t.seen core a = s.seen core a) ∧ (∀ o ∈ t.ply.lsq, o ∈ s.ply.lsq ∧ o.seq ≠ seq) ∧
      t.ply = { s.ply with lsq := t.ply.lsq, stxOld := t.ply.stxOld } := by
  refine ⟨_, (exec_storeAtHome ..).trans (execStoreAtHome_storeX h hk), ?_⟩
  have hw := State.stxs_written hunseen hwf hghosts e.seq ls
  unfold State.performStoreX
  simp only [Bool.false_eq_true, if_false]
  generalize ls.foldl _ s = m at hw ⊢
  have hrest := hw.rest
  have hply := hw.ply
  have huid : m.ply.uid = s.ply.uid := by
    rw [hply]
  have hlsq : m.ply.lsq = s.ply.lsq := by
    rw [hply]
  have hmghosts : m.ghosts = s.ghosts := by
    rw [hrest]
  obtain ⟨hsettled, hleft⟩ := State.removeMem_settled (s := m) (huid.trans_ne h.1) e.seq
  have hrghosts := hsettled.ghosts (by rwa [hmghosts, huid])
  rw [huid] at hsettled hleft hrghosts
  generalize m.removeMem s.ply.uid e.seq = r at hsettled hleft hrghosts ⊢
  have hnone : r.ghosts.any (fun q => q.uid == s.ply.uid) = false := by
    rw [hrghosts, hmghosts]
    exact List.any_eq_false.mpr fun g hg => by simpa using hghosts g hg
  rw [hnone, if_neg Bool.false_ne_true]
  have hbyte (core : Nat) (sp : Space) (a : Nat) : r.reap.localByte core sp a = m.localByte core sp a :=
    hsettled.localByte core sp a
  refine ⟨fun a => ?_, fun core sp a hother => ?_, fun core a => ?_, fun o ho => ?_, ?_⟩
  · rw [hbyte]
    exact hw.read a
  · rw [hbyte]
    unfold State.localByte
    by_cases hc : core = s.ply.core
    · subst hc
      rw [hw.core]
      cases sp with
      | xbuf => exact absurd rfl (hother.resolve_left (· rfl))
      | wbuf => rfl
      | sbuf => rfl
    · rw [hw.other core hc]
  · have hr := hsettled.rest
    have hrseen : r.seen core a = m.seen core a := by
      rw [hr]
      rfl
    refine hrseen.trans ?_
    rw [hrest]
    rfl
  · obtain ⟨hin, hne⟩ := hleft o ho
    exact ⟨hlsq ▸ hin, seq_of_mayPerform h ▸ hne⟩
  · refine hsettled.ply.trans ?_
    rw [hply]
    rfl

/-- Settles O20: the arrivals at the homes, the merge of a store under those that stay, the mark of a cluster completion time, and
the XBUF that an STX writes. -/
theorem storesPerformed : Obligations.StoresPerformed := by
  refine ⟨fun seq e ls pol s h hk hcore hls hvault => ?_, fun q l₁ l₂ s hstores hmem htime hother hdisjoint => ?_,
    fun q s hq hsame hctime => ?_, fun seq e ls s h hk hunseen hwf hghosts => storeX_performed h hk hunseen hwf hghosts⟩
  · obtain ⟨qs, hqs, hp⟩ := State.performStore_performed (e := e) pol h.1 hls hvault
    exact ⟨_, (exec_storeAtHome ..).trans (execStoreAtHome_store h hk), hp.mem, hp.ptime, seq_of_mayPerform h ▸ hp.lsq,
      hp.seen_own hcore hqs,
      fun core a hne => hp.seen_other hne a, hp.localByte, hp.new, hp.ply⟩
  · refine ⟨_, (exec_completionTime ..).trans (execCompletionTime_merges hstores hother htime), fun a => ?_,
      fun hloads hlandings hscopes => ?_⟩
    · simp only [State.fireLanded_mem, State.releaseWritten_mem, State.answerLoads_mem]
      exact Memory.read_writeN hmem ..
    · have hquiet : (s.mergedAt q).answerLoads.releaseWritten.fireLanded = s.mergedAt q := by
        rw [State.answerLoads_of_nil (s := s.mergedAt q) hloads, State.releaseWritten_of_none (s := s.mergedAt q) hscopes,
          State.fireLanded_of_nil (s := s.mergedAt q) hlandings]
      rw [hquiet]
      exact ⟨⟨fun core a => State.mergedAt_seen hstores hother hmem htime hdisjoint core a, fun _ _ _ => rfl⟩,
        State.mergedAt_stores hstores hother, rfl⟩
  · refine ⟨_, (exec_clusterCompletionTime ..).trans (execClusterCompletionTime_eq ..), ⟨fun core a => ?_, fun _ _ _ => rfl⟩, ?_,
      fun o ho hne => ?_, rfl⟩
    · exact laidOver_map (clusterMark_visible _ _) core s.now a s.stores (s.mem.read a)
    · refine List.mem_map.mpr ⟨q, hq, ?_⟩
      unfold clusterMark
      rw [if_pos (by simp [hctime])]
    · refine List.mem_map.mpr ⟨o, ho, ?_⟩
      unfold clusterMark
      rw [if_neg (by simp [hne])]

end Sys2Proof.Machine

/-!
A CANCEL that the hub answers writes the record of its scope, and that store may turn a line out of a vault cache, whose horizon its
home then keeps (R257, R325, R328).
-/
namespace Sys2Proof.Machine
open Sys2Proof.Claim

/-! ## Lease summaries are not forgotten by a store -/

theorem homeStore_keeps_leases {s : State} (h : s.homeLeases ≠ []) (tenant line : Nat) :
    (s.homeStore tenant line 0).homeLeases ≠ [] := by
  cases hline : (s.vault (vaultOfPa (line * 128))).cached line with
  | some c =>
    have hsame : (s.homeStore tenant line 0).homeLeases = s.homeLeases := by
      unfold State.homeStore
      rw [hline]
      unfold State.hitLine State.dirtyLine
      dsimp only
      split <;> rfl
    rwa [hsame]
  | none =>
    rw [homeStore_homeLeases_of_miss tenant hline]
    unfold State.makeRoom
    dsimp only
    split
    · exact h
    · split
      · exact evictLine_homeLeases_ne_nil s _
      · exact h

theorem arriveN_noCore_keeps_leases {s : State} (h : s.homeLeases ≠ []) (tenant pa : Nat) (data : List Byte) :
    (s.arriveN 0 noCore tenant 0 0 [] pa data).homeLeases ≠ [] := by
  unfold State.arriveN
  refine List.foldlRecOn (motive := fun t : State => t.homeLeases ≠ []) _ _ h fun t ht x _ => ?_
  rw [arrive_noCore_homeLeases]
  exact homeStore_keeps_leases (s := { t with seq := t.seq + 1 }) ht _ _

theorem writeVirt_noCore_keeps_leases {s : State} (h : s.homeLeases ≠ []) (tenant : Nat) (va : DWord) (data : List Byte) :
    (s.writeVirt 0 noCore tenant va data).homeLeases ≠ [] := by
  unfold State.writeVirt
  split
  · exact h
  · exact List.foldlRecOn (motive := fun x : State × List Byte => x.1.homeLeases ≠ []) _ _ h fun x hx r _ =>
      arriveN_noCore_keeps_leases hx _ _ _

theorem writeScope_keeps_leases {s : State} (h : s.homeLeases ≠ []) (tenant : Nat) (id : BitVec 24) :
    (s.writeScope tenant id).homeLeases ≠ [] := by
  unfold State.writeScope
  split
  · exact h
  · exact writeVirt_noCore_keeps_leases (writeVirt_noCore_keeps_leases h _ _ _) _ _ _

theorem cancelBelow_keeps_leases {s : State} (h : s.homeLeases ≠ []) (tenant : Nat) (id : BitVec 24) :
    (s.cancelBelow tenant id).homeLeases ≠ [] :=
  List.foldlRecOn (motive := fun t : State => t.homeLeases ≠ []) _ _ h fun t ht c _ =>
    writeScope_keeps_leases (s := t.modScope tenant c.id _) ht _ _

/-! ## A CANCEL whose record turns a line out of a vault cache -/

/-- Scope 5 of tenant 0 is open; its record stands at virtual address 0. -/
def openScope5 : Scope := ⟨0, 5, 0, .opened, false, 0, 0, 0, 0, 0, 0, 0, 0, 0, 0, none⟩

/-- The ply in hand has asked for a CANCEL of the scope. -/
def cancelRequest : HubOp := ⟨1, 0, .cancel 5⟩

/-- Virtual page 0 is the page at 0x700000, readable and writable; no lease is granted, and set 0 of vault 0, the set of the record's
line, holds 16 other lines. -/
def cancellingState : State :=
  { crowdedState with
    mem := tableCells.writeN 0x60C000 (leBytes 8 (0x700000 + 3 * 8 + 5))
    ply := { Ply.vacant with uid := 1, hubq := [cancelRequest] }
    scopes := [openScope5] }

/-- Its memory has the canonical form that every step keeps. -/
theorem cancellingState_memoryOk : MemoryOk cancellingState := by
  unfold MemoryOk
  decide +kernel

theorem cancellingState_asked : Asked cancellingState cancelRequest :=
  ⟨⟨by decide, List.forall_mem_nil _, List.forall_mem_nil _, List.forall_mem_nil _⟩, List.forall_mem_nil _, rfl, rfl, rfl⟩

/-- The scope is CANCELLING, its record not yet written. -/
def cancelledState : State :=
  cancellingState.modScope 0 5 fun c => { c with state := .cancelling, tcancel := cancellingState.ptime }

theorem cancelledState_range : cancelledState.range 0 .write 0 32 = .ok [(0x700000, 32)] := rfl

theorem cancelledState_full : 16 ≤ (State.setLines { cancelledState with seq := 1 } (lineOf 0x700000)).length := by decide +kernel

theorem cancelledState_miss :
    (State.vault { cancelledState with seq := 1 } (vaultOfPa (lineOf 0x700000 * 128))).cached (lineOf 0x700000) = none := by
  decide +kernel

/-- The first write of the record takes room for its line. -/
theorem cancelledState_write (data : List Byte) (h : data.length = 32) :
    (cancelledState.writeVirt 0 noCore 0 0 data).homeLeases ≠ [] := by
  have hline : cutLines (32 + 1) 0x700000 data = [(0x700000, data)] := by
    have hempty : data.isEmpty = false := by
      rw [List.isEmpty_eq_false_iff]
      rintro rfl
      cases h
    unfold cutLines
    simp only [hempty, Bool.false_eq_true, if_false]
    exact if_pos (by omega)
  have hwrite : cancelledState.writeVirt 0 noCore 0 0 data = cancelledState.arrive 0 noCore 0 0 0 [] 0x700000 data := by
    unfold State.writeVirt State.arriveN
    rw [h, cancelledState_range]
    simp only [List.foldl_cons, List.foldl_nil, List.take_of_length_le h.le, h, hline]
  rw [hwrite, arrive_noCore_homeLeases]
  show (State.homeStore { cancelledState with seq := 1 } 0 (lineOf 0x700000) 0).homeLeases ≠ []
  rw [homeStore_homeLeases_of_miss 0 cancelledState_miss]
  exact makeRoom_homeLeases_ne_nil cancelledState_full

theorem cancellingState_cancel : (cancellingState.cancelScope 0 5).homeLeases ≠ [] := by
  have hcancel : cancellingState.cancelScope 0 5 = ((cancelledState.writeScope 0 5).cancelBelow 0 5).broadcast 0 5 := rfl
  rw [hcancel]
  refine cancelBelow_keeps_leases (writeVirt_noCore_keeps_leases ?_ _ _ _) _ _
  exact cancelledState_write _ rfl

theorem answer_homeLeases (s : State) (uid : Nat) (h : HubOp) (ws : List (BitVec 6 × Word)) :
    (s.answer uid h ws).homeLeases = s.homeLeases := by
  unfold State.answer State.modAny State.modPly
  split <;> rfl

theorem cancellingState_answer : (cancellingState.takeResult 1 1).awake.homeLeases ≠ [] := by
  have htake : cancellingState.takeResult 1 1 = ((cancellingState.cancelScope 0 5).answer 1 cancelRequest []).reap := rfl
  rw [htake]
  show ((cancellingState.cancelScope 0 5).answer 1 cancelRequest []).homeLeases ≠ []
  rw [answer_homeLeases]
  exact cancellingState_cancel

/-- Refutes O42: a CANCEL that the hub performs is to change, beside the ply, only the scopes, the broadcasts and the writes of the
scopes' records, and the clause leaves out the lease summaries of the homes. In cancellingState the write of the record turns a line
out of a full set of vault 0, whose horizon is new. -/
theorem not_hubAnswers : ¬ Obligations.HubAnswers := by
  unfold Obligations.HubAnswers
  rintro ⟨-, -, -, acts, -⟩
  obtain ⟨cancels, -⟩ := acts 5 cancelRequest cancellingState cancellingState_asked (List.nodup_singleton _)
  obtain ⟨t, hexec, -, -, hscope⟩ := cancels rfl
  obtain ⟨-, hcancels⟩ := hscope openScope5 rfl
  obtain ⟨-, hrest, -⟩ := hcancels rfl
  have ht : (cancellingState.takeResult 1 1).awake = t :=
    Host.Outcome.next.inj ((exec_longLatencyResult 1 1 cancellingState).symm.trans hexec)
  have same : t.homeLeases = [] := congrArg State.homeLeases hrest
  exact cancellingState_answer (ht ▸ same)

end Sys2Proof.Machine

/-!
Tasks that end and runs that end (R105, R107, R247, R248, R255): EXIT takes lanes out of the ply and counts them in their scopes, a
ply without lanes retires, YIELD ends the run, and Clock's save writes the ply's context and takes it off its core.
-/
namespace Sys2Proof.Machine
open Sys2Proof.Claim

/-! ## A scope that changes -/

theorem State.modScope_scopeOf {f : Scope → Scope} (hf : ∀ x, (f x).tenant = x.tenant ∧ (f x).id = x.id) (s : State) (tenant : Nat)
    (id : BitVec 24) (n : Nat) (c : BitVec 24) :
    (s.modScope tenant id f).scopeOf n c = (s.scopeOf n c).map fun x => if n = tenant ∧ c = id then f x else x := by
  have hpred : ((fun x : Scope => x.tenant == n && x.id == c) ∘ fun x => if x.tenant == tenant && x.id == id then f x else x) =
      fun x => x.tenant == n && x.id == c := by
    funext x
    obtain ⟨ht, hi⟩ := hf x
    simp only [Function.comp_apply]
    split
    · rw [ht, hi]
    · rfl
  unfold State.scopeOf State.modScope
  rw [List.find?_map, hpred]
  refine Option.map_congr fun x hx => ?_
  have hx := List.find?_some (Option.mem_def.mp hx)
  simp only [Bool.and_eq_true, beq_iff_eq] at hx
  obtain ⟨rfl, rfl⟩ := hx
  simp only [Bool.and_eq_true, beq_iff_eq]

/-- A task counted in a scope has ended (R261). -/
def Scope.endsTask (x : Scope) : Scope := { x with live := x.live - 1, ended := x.ended + 1 }

theorem State.countEnd_scopeOf (s : State) (tenant : Nat) (id : BitVec 24) (n : Nat) (c : BitVec 24) :
    (s.countEnd tenant id).scopeOf n c = (s.scopeOf n c).map fun x => if n = tenant ∧ c = id then x.endsTask else x :=
  State.modScope_scopeOf (f := Scope.endsTask) (fun _ => ⟨rfl, rfl⟩) s tenant id n c

/-! ## Lanes that end (R255, R261) -/

/-- A mask without some lanes. -/
def lanesLeft (m : Mask) (l : List Nat) : Mask := l.foldl (fun m i => m &&& ~~~(BitVec.ofNat 96 (2 ^ i))) m

theorem Mask.has_lt {m : Mask} {i : Nat} (h : m.has i = true) : i < 96 := BitVec.lt_of_getLsbD h

theorem lanesLeft_has (l : List Nat) (m : Mask) (i : Nat) : (lanesLeft m l).has i = (m.has i && decide (i ∉ l)) := by
  induction l generalizing m with
  | nil => simp [lanesLeft]
  | cons j l ih =>
    have hstep : lanesLeft m (j :: l) = lanesLeft (m &&& ~~~(BitVec.ofNat 96 (2 ^ j))) l := rfl
    rw [hstep, ih]
    have hbit : (BitVec.ofNat 96 (2 ^ j)).getLsbD i = (decide (i < 96) && decide (j = i)) := by
      rw [BitVec.getLsbD_ofNat, Nat.testBit_two_pow]
    have hone : (m &&& ~~~(BitVec.ofNat 96 (2 ^ j))).has i = (m.has i && decide (i ≠ j)) := by
      unfold Mask.has
      rw [BitVec.getLsbD_and, BitVec.getLsbD_not, hbit]
      cases hm : m.getLsbD i with
      | false => rfl
      | true => simp [BitVec.lt_of_getLsbD hm, eq_comm]
    rw [hone, Bool.and_assoc]
    simp

theorem Mask.eq_of_has {m n : Mask} (h : ∀ i, m.has i = n.has i) : m = n := BitVec.eq_of_getLsbD_eq fun i _ => h i

/-- The tasks of some lanes are counted as ended in their scopes. -/
def countEnds (tenant : Nat) (scope : Nat → BitVec 24) (l : List Nat) (cs : List Scope) : List Scope :=
  l.foldl (fun cs i => cs.map fun c => if c.tenant == tenant && c.id == scope i then c.endsTask else c) cs

/-- The issuing ply without the lanes given, whose tasks have ended. -/
def State.withoutLanes (s : State) (l : List Nat) : State :=
  { s with
    ply := { s.ply with occ := lanesLeft s.ply.occ l }
    scopes := countEnds s.ply.tenant (laneScope s) l s.scopes }

theorem State.withoutLanes_cons (s : State) (i : Nat) (l : List Nat) :
    s.withoutLanes (i :: l) = (s.withoutLanes [i]).withoutLanes l := rfl

/-- The scopes count the lanes that ended (R261). -/
theorem State.withoutLanes_ended (l : List Nat) (s : State) : Ended s (s.withoutLanes l) l := by
  induction l generalizing s with
  | nil =>
    intro c
    exact Option.map_id'.symm
  | cons i l ih =>
    intro c
    have hone : (s.withoutLanes [i]).scopeOf s.ply.tenant c = (s.scopeOf s.ply.tenant c).map fun x =>
        if c = laneScope s i then x.endsTask else x := by
      have h := s.countEnd_scopeOf s.ply.tenant (laneScope s i) s.ply.tenant c
      simp only [true_and] at h
      exact h
    have hrest := ih (s.withoutLanes [i]) c
    rw [State.withoutLanes_cons]
    refine hrest.trans ?_
    have hlanes : (fun j => laneScope (s.withoutLanes [i]) j == c) = fun j => laneScope s j == c := rfl
    rw [show (s.withoutLanes [i]).ply.tenant = s.ply.tenant from rfl, hone, Option.map_map, hlanes]
    refine Option.map_congr fun x _ => ?_
    by_cases hc : c = laneScope s i
    · have hi : (laneScope s i == c) = true := beq_iff_eq.mpr hc.symm
      simp only [Function.comp_apply, if_pos hc, List.filter_cons, hi, if_true, List.length_cons, Scope.endsTask]
      congr 1 <;> omega
    · have hi : (laneScope s i == c) = false := beq_eq_false_iff_ne.mpr fun h => hc h.symm
      simp only [Function.comp_apply, if_neg hc, List.filter_cons, hi, Bool.false_eq_true, if_false]

/-- A change of the issuing ply, which no list of other plies holds. -/
theorem State.modAny_named {s : State} (h : Named s) (f : Ply → Ply) : s.modAny s.ply.uid f = { s with ply := f s.ply } := by
  obtain ⟨-, -, hghosts, hsaved⟩ := h
  have hv : (s.modAny s.ply.uid f).saved = s.saved := by
    have hmap : (s.modAny s.ply.uid f).saved = s.saved.map fun v => if v.ply.uid == s.ply.uid then { v with ply := f v.ply } else v := by
      unfold State.modAny State.modPly
      split <;> rfl
    rw [hmap]
    conv_rhs => rw [← List.map_id s.saved]
    exact List.map_congr_left fun v hv => if_neg (by simpa using hsaved v hv)
  rw [State.modAny_eq rfl, hv, State.modAny_ghosts hghosts]

theorem LaneInfo.keep_lanes {v : Vector LaneInfo 96} {i : Nat} (hi : i < 96)
    (hc : ((v[i]?).getD LaneInfo.empty).commit = none) :
    v.setIfInBounds i { (v[i]?).getD LaneInfo.empty with commit := none } = v := by
  have hsame : ({ (v[i]?).getD LaneInfo.empty with commit := none } : LaneInfo) = v[i] := by
    rw [Vector.getElem?_eq_getElem hi, Option.getD_some] at hc ⊢
    rw [← hc]
  rw [hsame]
  exact Vector.ext fun j hj => by
    rw [Vector.getElem_setIfInBounds hj]
    split
    · next h => subst h; rfl
    · rfl

/-- The task of a lane in no leaf and without a commit ends: the lane is vacant, and its scope counts it. -/
theorem State.endLane_of_unbound {s : State} (h : Named s) {i : Nat} (ho : s.ply.occ.has i = true)
    (hl : (s.ply.info i).leaf = none) (hc : (s.ply.info i).commit = none) :
    s.endLane s.ply.uid i false = s.withoutLanes [i] := by
  obtain ⟨huid, -⟩ := id h
  have hlanes := LaneInfo.keep_lanes (v := s.ply.lanes) (Mask.has_lt ho) hc
  have hc : ((s.ply.lanes[i]?).getD LaneInfo.empty).commit = none := hc
  have hl : ((s.withoutLanes [i]).ply.lanes[i]?.getD LaneInfo.empty).leaf = none := hl
  have hstay : (s.withoutLanes [i]).departLane s.ply.uid i = s.withoutLanes [i] := by
    have hself : (s.withoutLanes [i]).anyPly s.ply.uid = some (s.withoutLanes [i]).ply :=
      State.anyPly_self (s := s.withoutLanes [i]) huid
    unfold State.departLane
    rw [hself]
    simp only [hl]
  unfold State.endLane
  rw [State.anyPly_self huid]
  simp only [ho, if_true, Bool.false_eq_true, if_false, State.modAny_named h, hlanes, hc]
  exact hstay

theorem State.endLanes_of_unbound {s : State} {l : List Nat} (h : Named s) (hb : Unbound s) (hd : l.Nodup)
    (ho : ∀ i ∈ l, s.ply.occ.has i = true) :
    l.foldl (fun t i => t.endLane s.ply.uid i false) s = s.withoutLanes l := by
  induction l generalizing s with
  | nil => rfl
  | cons i l ih =>
    obtain ⟨hi, hd⟩ := List.nodup_cons.mp hd
    have hocc := ho i List.mem_cons_self
    obtain ⟨hl, hc⟩ := hb i (Mask.has_lt hocc)
    rw [List.foldl_cons, State.endLane_of_unbound h hocc hl hc, State.withoutLanes_cons]
    refine ih (s := s.withoutLanes [i]) h hb hd fun j hj => ?_
    have hne : j ≠ i := fun he => hi (he ▸ hj)
    have hj := ho j (List.mem_cons_of_mem _ hj)
    show (lanesLeft s.ply.occ [i]).has j = true
    rw [lanesLeft_has, hj]
    simpa using hne

/-! ## EXIT (R255) -/

theorem storingLanes_eq (s : State) : storingLanes s = s.counted'.lanes := by
  unfold storingLanes activeLanes Mask.lanes State.counted'
  rw [List.filter_filter]
  refine List.filter_congr fun i _ => ?_
  rw [Mask.has_and, Bool.and_comm]
  rfl

theorem Mask.lanes_eq_nil {m : Mask} : m.lanes = [] ↔ m = 0 := by
  constructor
  · intro h
    refine Mask.eq_of_has fun i => ?_
    by_contra hi
    have hi : m.has i = true := by
      cases hm : m.has i with
      | true => rfl
      | false => exact absurd (hm.trans (BitVec.getLsbD_zero).symm) hi
    have hmem : i ∈ m.lanes := List.mem_filter.mpr ⟨List.mem_range.mpr (Mask.has_lt hi), hi⟩
    rw [h] at hmem
    exact absurd hmem List.not_mem_nil
  · rintro rfl
    refine List.filter_eq_nil_iff.mpr fun i _ => ?_
    simp [Mask.has]

theorem Mask.mem_lanes {m : Mask} {i : Nat} : i ∈ m.lanes ↔ m.has i = true :=
  ⟨fun h => (List.mem_filter.mp h).2, fun h => List.mem_filter.mpr ⟨List.mem_range.mpr (Mask.has_lt h), h⟩⟩

theorem storingLanes_nodup (s : State) : (storingLanes s).Nodup := by
  rw [storingLanes_eq]
  exact List.Nodup.filter _ List.nodup_range

theorem storingLanes_occupied {s : State} {i : Nat} (h : i ∈ storingLanes s) : s.ply.occ.has i = true :=
  (List.mem_filter.mp h).2

/-- The lanes that are left: those of other paths, and inactive ones. -/
theorem lanesLeft_storingLanes (s : State) : lanesLeft s.ply.occ (storingLanes s) = s.ply.occ &&& ~~~s.path.active := by
  refine Mask.eq_of_has fun i => ?_
  rw [lanesLeft_has, Mask.has_and]
  cases ho : s.ply.occ.has i with
  | false => rfl
  | true =>
    have hi := Mask.has_lt ho
    have hmem : i ∈ storingLanes s ↔ s.path.active.has i = true := by
      rw [storingLanes_eq, Mask.mem_lanes, State.counted', Mask.has_and, ho, Bool.and_true]
    have hnot : (~~~s.path.active).has i = !s.path.active.has i := by
      unfold Mask.has
      rw [BitVec.getLsbD_not, decide_eq_true hi, Bool.true_and]
    rw [hnot]
    simp [hmem]

section
variable {s : State}

/-- No lane of the path is cancelled: a kill point ends none. -/
theorem State.kill_none {lanes : Mask} (huid : s.ply.uid ≠ 0) (h : s.cancelledLanes s.ply &&& lanes = 0) :
    s.kill s.ply.uid lanes = s := by
  unfold State.kill
  rw [State.anyPly_self huid]
  simp only [h, Mask.lanes_eq_nil.mpr rfl, List.foldl_nil]

theorem exec_exit (hn : Named s) (hb : Unbound s) (hk : s.cancelledLanes s.ply &&& s.path.member = 0) (hs : storingLanes s ≠ []) :
    exec .exit s = .next (if ((s.withoutLanes (storingLanes s)).ply.occ == 0) = true then
      (s.withoutLanes (storingLanes s)).retire s.ply.uid else (s.withoutLanes (storingLanes s)).done) := by
  have hcounted : (s.counted' == 0) = false :=
    beq_eq_false_iff_ne.mpr fun h => hs ((storingLanes_eq s).trans (Mask.lanes_eq_nil.mpr h))
  obtain ⟨huid, -⟩ := id hn
  show (execExit s) = _
  unfold execExit
  rw [hcounted]
  simp only [Bool.false_eq_true, if_false, State.kill_none huid hk]
  rw [← storingLanes_eq, State.endLanes_of_unbound hn hb (storingLanes_nodup s) fun i => storingLanes_occupied]
  rfl

/-- EXIT where the ply keeps a lane, or has nothing to end. -/
theorem exec_exit_goesOn (hn : Named s) (hb : Unbound s) (hk : s.cancelledLanes s.ply &&& s.path.member = 0)
    (h : s.ply.occ &&& ~~~s.path.active ≠ 0 ∨ storingLanes s = []) :
    exec .exit s = .next (s.withoutLanes (storingLanes s)).done := by
  by_cases hs : storingLanes s = []
  · have hcounted : (s.counted' == 0) = true := beq_iff_eq.mpr (Mask.lanes_eq_nil.mp ((storingLanes_eq s).symm.trans hs))
    show execExit s = _
    unfold execExit
    rw [hcounted, hs]
    rfl
  · have hocc : ((s.withoutLanes (storingLanes s)).ply.occ == 0) = false := by
      refine beq_eq_false_iff_ne.mpr ?_
      rw [show (s.withoutLanes (storingLanes s)).ply.occ = lanesLeft s.ply.occ (storingLanes s) from rfl, lanesLeft_storingLanes]
      exact h.resolve_right hs
    rw [exec_exit hn hb hk hs, hocc]
    rfl

theorem exec_exit_retires (hn : Named s) (hb : Unbound s) (hk : s.cancelledLanes s.ply &&& s.path.member = 0)
    (hs : storingLanes s ≠ []) (h : s.ply.occ &&& ~~~s.path.active = 0) :
    exec .exit s = .next ((s.withoutLanes (storingLanes s)).retire s.ply.uid) := by
  have hocc : ((s.withoutLanes (storingLanes s)).ply.occ == 0) = true := by
    refine beq_iff_eq.mpr ?_
    rw [show (s.withoutLanes (storingLanes s)).ply.occ = lanesLeft s.ply.occ (storingLanes s) from rfl, lanesLeft_storingLanes]
    exact h
  rw [exec_exit hn hb hk hs, if_pos hocc]

end

/-! ## Windows that are released, plies that retire (R247) -/

theorem State.releaseWindows_rest (s : State) (core : Nat) :
    s.releaseWindows core = { s with cores := (s.releaseWindows core).cores } := by
  unfold State.releaseWindows
  dsimp only
  split <;> rfl

theorem State.modCore_localByte {f : Core → Core} (hf : ∀ c sp, (f c).space sp = c.space sp) (s : State) (core k : Nat)
    (sp : Space) (a : Nat) : (s.modCore core f).localByte k sp a = s.localByte k sp a := by
  unfold State.localByte State.modCore State.setCore State.core
  by_cases hk : k = core
  · subst hk
    rw [tget_tset_same, hf]
  · rw [tget_tset_other _ _ hk]

theorem State.releaseWindows_localByte (s : State) (core k : Nat) (sp : Space) (a : Nat) :
    (s.releaseWindows core).localByte k sp a = s.localByte k sp a := by
  unfold State.releaseWindows
  dsimp only
  split
  · rfl
  · exact State.modCore_localByte (fun _ sp => by cases sp <;> rfl) s core k sp a

/-- A ply without a failure that nothing found, of no firing, retires: it leaves its core, and its save area is free (log 11). -/
theorem State.retire_quiet {s : State} (hn : Named s) (hf : s.ply.failures = []) (hi : s.ply.firing = none) :
    ∃ g, s.retire s.ply.uid = State.reap (State.releaseWindows { s with
      ply := Ply.vacant, ghosts := s.ghosts ++ [g], saveAreas := s.saveAreas ++ [s.ply.ssave] } s.ply.core) := by
  obtain ⟨huid, -⟩ := hn
  have hres : s.ply.resident = true := by
    rw [Ply.resident]
    simpa using huid
  have hfind : s.find s.ply.uid = some s.ply := by
    unfold State.find State.all
    rw [hres]
    simp
  unfold State.retire
  rw [hfind]
  simp only [hf, hi, List.foldl_nil, beq_self_eq_true, if_true]
  exact ⟨_, rfl⟩

theorem SameMemory.of_localByte {s t : State} (hm : t.mem = s.mem) (hs : t.stores = s.stores) (hn : t.ptime = s.ptime)
    (hl : ∀ core sp a, t.localByte core sp a = s.localByte core sp a) : SameMemory s t := by
  refine ⟨fun core pa => ?_, hl⟩
  unfold State.seen State.now
  rw [hm, hs, hn]

/-- What a ply that retires quietly leaves as it was. -/
theorem State.retire_keeps {s : State} (hn : Named s) (hf : s.ply.failures = []) (hi : s.ply.firing = none) :
    SameMemory s (s.retire s.ply.uid) ∧ (s.retire s.ply.uid).ply = Ply.vacant ∧ (s.retire s.ply.uid).plies = s.plies ∧
      (s.retire s.ply.uid).scopes = s.scopes ∧ (s.retire s.ply.uid).saveAreas = s.saveAreas ++ [s.ply.ssave] := by
  obtain ⟨g, hretire⟩ := State.retire_quiet hn hf hi
  rw [hretire]
  have hlocal := State.releaseWindows_localByte { s with
    ply := Ply.vacant, ghosts := s.ghosts ++ [g], saveAreas := s.saveAreas ++ [s.ply.ssave] } s.ply.core
  have hrest := State.releaseWindows_rest { s with
    ply := Ply.vacant, ghosts := s.ghosts ++ [g], saveAreas := s.saveAreas ++ [s.ply.ssave] } s.ply.core
  generalize State.releaseWindows _ s.ply.core = r at hlocal hrest
  have hmem : SameMemory s r.reap := by
    refine SameMemory.of_localByte ?_ ?_ ?_ hlocal <;> (unfold State.reap; rw [hrest])
  refine ⟨hmem, ?_, ?_, ?_, ?_⟩ <;> (unfold State.reap; rw [hrest])

theorem exitRetires {s : State} (hn : Named s) (hb : Unbound s) (hk : s.cancelledLanes s.ply &&& s.path.member = 0)
    (hs : storingLanes s ≠ []) (h : s.ply.occ &&& ~~~s.path.active = 0) (hf : s.ply.failures = []) (hi : s.ply.firing = none) :
    Answers .exit s fun t => SameMemory s t ∧ Ended s t (storingLanes s) ∧ t.find s.ply.uid = none ∧ t.plies = s.plies ∧
      t.saveAreas = s.saveAreas ++ [s.ply.ssave] := by
  obtain ⟨huid, hplies, -⟩ := id hn
  obtain ⟨hmem, hply, hrest, hscopes, hareas⟩ := State.retire_keeps (s := s.withoutLanes (storingLanes s)) hn hf hi
  refine ⟨_, exec_exit_retires hn hb hk hs h, hmem, fun c => ?_, ?_, hrest, hareas⟩
  · rw [← s.withoutLanes_ended (storingLanes s) c]
    unfold State.scopeOf
    exact congrArg _ hscopes
  · unfold State.find State.all
    rw [show ((s.withoutLanes (storingLanes s)).retire s.ply.uid).ply = Ply.vacant from hply,
      show ((s.withoutLanes (storingLanes s)).retire s.ply.uid).plies = s.plies from hrest]
    exact List.find?_eq_none.mpr fun q hq => by simpa using hplies q hq

theorem exitGoesOn {s : State} (hn : Named s) (hb : Unbound s) (hk : s.cancelledLanes s.ply &&& s.path.member = 0)
    (h : s.ply.occ &&& ~~~s.path.active ≠ 0 ∨ storingLanes s = []) : Answers .exit s fun t =>
      t = { s with ply := t.ply, scopes := t.scopes } ∧ SameMemory s t ∧ Ended s t (storingLanes s) ∧
      UnitDone s t { s.ply with occ := s.ply.occ &&& ~~~s.path.active, lanes := t.ply.lanes } ∧
      (∀ i, i < 96 → (s.ply.occ &&& s.path.active).has i = false → t.ply.info i = s.ply.info i) := by
  have hrun : SameRun s (s.withoutLanes (storingLanes s)) := ⟨rfl, rfl, rfl, rfl, rfl, rfl⟩
  have hlanes : (s.withoutLanes (storingLanes s)).done.ply.lanes = s.ply.lanes := Ply.advance_lanes ..
  refine ⟨_, exec_exit_goesOn hn hb hk h, rfl, SameMemory.of_eq rfl rfl rfl rfl, s.withoutLanes_ended _, ?_, fun i _ _ => ?_⟩
  · rw [hlanes, ← lanesLeft_storingLanes]
    exact hrun.unitDone
  · unfold Ply.info
    rw [hlanes]

/-! ## YIELD (R105, R107) -/

/-- The issuing ply after its YIELD: its run is over, %ydl is set and %yc is clear. -/
def State.yieldedPly (s : State) (d : BitVec 8) : Ply :=
  { s.awaiting [] with running := false, pos := 0, latches := [], ydl := d, yc := 0 }

section
variable {s : State} {d : BitVec 8}

theorem State.yielded_eq (hd : s.ply.dstack = []) (ht : s.path.transfer = .none) : s.yielded d = s.withPly (s.yieldedPly d) := by
  have hstack : (s.withPly (s.awaiting [])).runEnded.ply.dstack = [] := (State.awaiting_dstack s []).trans hd
  have hpop : (s.withPly (s.awaiting [])).runEnded.popRecords = (s.withPly (s.awaiting [])).runEnded := by
    unfold State.popRecords
    dsimp only
    rw [State.popRecord_of_nil hstack 0, ite_self, State.popRecord_of_nil hstack 1, ite_self]
  unfold State.yielded
  rw [State.done_endOfRun, State.transferred_of_none [] ht, hpop]
  rfl

theorem State.yieldedPly_frame : s.yieldedPly d = { s.ply with
    ydl := d, yc := 0, running := false, pos := 0, latches := []
    path0 := (s.yieldedPly d).path0, path1 := (s.yieldedPly d).path1 } := by
  have h := s.awaiting_frame []
  unfold State.yieldedPly
  generalize s.awaiting [] = p at h
  rw [h]

theorem State.yieldedPly_cur (ht : s.path.transfer = .none) : (s.yieldedPly d).cur = { s.path with
    pc := wordsOn s s.issue.words, awaited := [], hprio := (s.yieldedPly d).cur.hprio, since := s.now, runClass := none } := by
  have h := s.awaiting_cur []
  have hnone : s.awaitedNow [] = [] := by
    unfold State.awaitedNow
    simp
  rw [hnone, ← ht] at h
  exact h

theorem State.yieldedPly_other : (s.yieldedPly d).path s.ply.other = s.ply.path s.ply.other :=
  s.awaiting_path_other []

/-- The charge of a core is that of its plies, whatever else of them changes (R344). -/
theorem State.withPly_coreCharge {p : Ply} (hu : p.uid = s.ply.uid) (hc : p.core = s.ply.core)
    (hm : p.management = s.ply.management) (hcharge : p.charge = s.ply.charge) (k : Nat) :
    (s.withPly p).coreCharge k = s.coreCharge k := by
  have hfold : ((s.withPly p).onCore k).foldl (fun n q => n + q.charge) 0 = (s.onCore k).foldl (fun n q => n + q.charge) 0 := by
    unfold State.onCore State.all Ply.resident
    rw [show (s.withPly p).ply = p from rfl, show (s.withPly p).plies = s.plies from rfl, hu]
    split
    · simp only [List.cons_append, List.nil_append, List.filter_cons, hc, hm]
      split
      · rw [List.foldl_cons, List.foldl_cons, hcharge]
      · rfl
    · rfl
  unfold State.coreCharge
  rw [hfold]
  rfl

theorem State.yieldedPly_rotated : (s.withPly (s.yieldedPly d)).rotated = s.rotated := by
  have h : s.yieldedPly d = _ := State.yieldedPly_frame
  have hcharge (k : Nat) : (s.withPly (s.yieldedPly d)).coreCharge k = s.coreCharge k :=
    State.withPly_coreCharge (by rw [h]) (by rw [h]) (by rw [h]) (by rw [h]) k
  unfold State.rotated State.vaultCharge
  rw [hcharge, hcharge]
  generalize s.yieldedPly d = p at h
  rw [h]
  rfl

theorem State.rotated_iff : s.rotated = true ↔
    s.ply.marked = some 0 ∧ s.vaultCharge (vaultOf s.ply.core) ≤ (s.vault (vaultOf s.ply.core)).limit := by
  unfold State.rotated
  rw [Bool.and_eq_true, beq_iff_eq, decide_eq_true_eq]

/-- Where Clock takes the ply at its YIELD (R248, R346, R350). -/
theorem State.takenAtYield_iff : (s.withPly (s.yieldedPly d)).takenAtYield = true ↔
    ((s.ply.marked ≠ none ∧ ¬s.rotated = true) ∨ s.gating s.ply.core = true) ∧
      s.ply.gangsize = 1 ∧ s.ply.supervisor = false ∧ s.ply.ctx.state ≠ .opened ∧ (s.ply.cnt[3]?).getD 0 = 0 := by
  have h : s.yieldedPly d = _ := State.yieldedPly_frame
  unfold State.takenAtYield
  rw [State.yieldedPly_rotated]
  generalize s.yieldedPly d = p at h
  rw [h]
  have hcnt : (s.ply.cnt[3]?).getD 0 = s.ply.cnt[3] := by
    rw [Vector.getElem?_eq_getElem (by decide), Option.getD_some]
  rw [hcnt]
  simp only [State.withPly, State.gating, State.die, Ply.savable,
    Bool.and_eq_true, Bool.or_eq_true, Bool.not_eq_true', beq_iff_eq, bne_iff_ne,
    Option.isSome_iff_ne_none, Bool.not_eq_true]
  tauto

end

/-! ## Stores that units make on their own behalf -/

/-- Only stores were sent, beside what caches and homes hold about their lines. -/
def OnlyStores (s t : State) : Prop := t = { s with
  seq := t.seq, stores := t.stores, vaults := t.vaults, homeLeases := t.homeLeases, l2Leases := t.l2Leases }

theorem OnlyStores.refl (s : State) : OnlyStores s s := rfl

theorem OnlyStores.trans {s t u : State} (h₁ : OnlyStores s t) (h₂ : OnlyStores t u) : OnlyStores s u := by
  unfold OnlyStores at *
  rw [h₁] at h₂
  exact h₂

theorem OnlyStores.foldl {α : Type} {f : State → α → State} (hf : ∀ s x, OnlyStores s (f s x)) (l : List α) (s : State) :
    OnlyStores s (l.foldl f s) :=
  List.foldlRecOn l f (OnlyStores.refl s) fun t ht x _ => ht.trans (hf t x)

theorem Charged.onlyStores {s t : State} (h : Charged s t) : OnlyStores s t := by
  unfold OnlyStores
  have hrest := h.rest
  generalize t.vaults = v at hrest ⊢
  generalize t.homeLeases = l at hrest ⊢
  rw [hrest]

theorem State.takeL2_onlyStores (s : State) (tenant cluster policy line : Nat) : OnlyStores s (s.takeL2 tenant cluster policy line) := by
  have hrest := s.takeL2_rest tenant cluster policy line
  unfold OnlyStores
  generalize s.takeL2 tenant cluster policy line = t at *
  rw [hrest]

theorem State.arrive_onlyStores (s : State) (core tenant policy floor : Nat) (scopes : List (BitVec 24)) (pa : Nat) (data : List Byte) :
    OnlyStores s (s.arrive 0 core tenant policy floor scopes pa data) := by
  obtain ⟨ct, c, h⟩ := State.arrive_eq s core tenant policy floor scopes pa data
  have hhome : OnlyStores s (State.homeStore { s with seq := s.seq + 1 } tenant (lineOf pa) policy) :=
    OnlyStores.trans (t := { s with seq := s.seq + 1 }) rfl
      (State.homeStore_charged { s with seq := s.seq + 1 } tenant (lineOf pa) policy).onlyStores
  rw [h]
  dsimp only
  generalize State.homeStore { s with seq := s.seq + 1 } tenant (lineOf pa) policy = u at hhome
  have hsent (q : PendingStore) : OnlyStores s { u with stores := u.stores ++ [q] } := hhome.trans rfl
  split
  · exact (hsent _).trans (State.takeL2_onlyStores ..)
  · exact hsent _

theorem State.writeVirt_onlyStores (s : State) (core tenant : Nat) (va : DWord) (data : List Byte) :
    OnlyStores s (s.writeVirt 0 core tenant va data) := by
  unfold State.writeVirt
  split
  · exact OnlyStores.refl s
  · refine List.foldlRecOn (motive := fun x : State × List Byte => OnlyStores s x.1) _ _ (OnlyStores.refl s) fun x hx r _ => ?_
    exact hx.trans (OnlyStores.foldl (fun t x => State.arrive_onlyStores ..) _ _)

/-! ## A ply that Clock takes (R248) -/

/-- A ply as its save keeps it: its live registers, the others 0, and the run that it waits in, if any (R107). -/
def Ply.asSaved (p : Ply) (live : Nat) (atWait : Bool) : Ply := { p with
  vregs := p.vregs.take live ++ List.replicate (p.vcount - live) Lanes.zero, running := atWait, marked := none, charge := 0 }

theorem State.savePly_eq (s : State) (p : Ply) (live : Nat) (atWait gated : Bool) : ∃ w image, OnlyStores s w ∧
    s.savePly p live atWait gated = State.releaseWindows { w with
      ply := Ply.vacant, saved := w.saved ++ [⟨p.asSaved live atWait, image, atWait, gated, w.seq⟩] } p.core :=
  ⟨_, _, OnlyStores.foldl (fun _ _ => State.writeVirt_onlyStores ..) _ s, rfl⟩

theorem State.savePly_saved (s : State) (p : Ply) (live : Nat) (atWait gated : Bool) : ∃ v : Saved,
    (s.savePly p live atWait gated).saved = s.saved ++ [v] ∧ (s.savePly p live atWait gated).ply = Ply.vacant ∧
    (s.savePly p live atWait gated).plies = s.plies ∧ (s.savePly p live atWait gated).mem = s.mem ∧
    v.ply = p.asSaved live atWait ∧ v.atWait = atWait ∧ v.gated = gated ∧ v.issued = (s.savePly p live atWait gated).seq := by
  obtain ⟨w, image, hw, hsave⟩ := s.savePly_eq p live atWait gated
  rw [hsave, State.releaseWindows_rest]
  unfold OnlyStores at hw
  refine ⟨⟨p.asSaved live atWait, image, atWait, gated, w.seq⟩, ?_, rfl, ?_, ?_, rfl, rfl, rfl, rfl⟩
  · show w.saved ++ _ = _
    rw [hw]
  · show w.plies = _
    rw [hw]
  · show w.mem = _
    rw [hw]

section
variable {s : State} {d : BitVec 8} {l : BitVec 7}

theorem State.isUnder_of_scopes {s t : State} (h : t.scopes = s.scopes) (tenant : Nat) (anc : BitVec 24) (fuel : Nat) (id : BitVec 24) :
    t.isUnder tenant anc fuel id = s.isUnder tenant anc fuel id := by
  induction fuel generalizing id with
  | zero => rfl
  | succ n ih =>
    unfold State.isUnder State.scopeOf
    simp only [h, ih]

theorem State.heardCancel_of_scopes {s t : State} (h : t.scopes = s.scopes) (hc : t.cores = s.cores) (core tenant : Nat)
    (id : BitVec 24) : t.heardCancel core tenant id = s.heardCancel core tenant id := by
  unfold State.heardCancel State.under State.core
  simp only [State.isUnder_of_scopes h, h, hc]

/-- Which lanes are cancelled depends on the tasks of the ply, its core, and the scopes (R259). -/
theorem State.withPly_cancelledLanes {p : Ply} (hc : p.core = s.ply.core) (ht : p.tenant = s.ply.tenant) (ho : p.occ = s.ply.occ)
    (hl : p.lanes = s.ply.lanes) : (s.withPly p).cancelledLanes p = s.cancelledLanes s.ply := by
  unfold State.cancelledLanes
  rw [hc, ht, ho, hl]
  simp only [State.heardCancel_of_scopes (s := s) (t := s.withPly p) rfl rfl]
  rfl

theorem exec_yield (hl : l.toNat ≤ s.ply.vregs.length) (huid : s.ply.uid ≠ 0) (ho : s.ply.occ ≠ 0) (hc : s.cancelledLanes s.ply = 0)
    (hd : s.ply.dstack = []) (ht : s.path.transfer = .none) : exec (.yield d l) s = .next (
      if (s.withPly (s.yieldedPly d)).takenAtYield = true then
        (s.withPly (s.yieldedPly d)).savePly (s.yieldedPly d) l.toNat false (s.gating s.ply.core)
      else if s.rotated = true then s.withPly { s.yieldedPly d with marked := none } else s.withPly (s.yieldedPly d)) := by
  have h : s.yieldedPly d = _ := State.yieldedPly_frame
  have hkill : (s.withPly (s.yieldedPly d)).kill s.ply.uid Mask.full = s.withPly (s.yieldedPly d) := by
    have hu : s.ply.uid = (s.withPly (s.yieldedPly d)).ply.uid := by
      rw [State.withPly_ply, h]
    have hnone : (s.withPly (s.yieldedPly d)).cancelledLanes (s.yieldedPly d) = 0 :=
      (State.withPly_cancelledLanes (by rw [h]) (by rw [h]) (by rw [h]) (by rw [h])).trans hc
    have hkill := State.kill_none (s := s.withPly (s.yieldedPly d)) (lanes := Mask.full) (hu ▸ huid)
      (by rw [State.withPly_ply, hnone]; exact BitVec.zero_and)
    rwa [← hu] at hkill
  have hocc : ((s.withPly (s.yieldedPly d)).ply.occ == 0) = false := by
    rw [State.withPly_ply, h]
    exact beq_eq_false_iff_ne.mpr ho
  have hcore : (s.yieldedPly d).core = s.ply.core := by
    rw [h]
  show execYield d l s = _
  unfold execYield
  dsimp only
  rw [if_neg (show ¬s.ply.vcount < l.toNat from Nat.not_lt.mpr hl), State.yielded_eq hd ht, hkill, hocc,
    State.yieldedPly_rotated, State.withPly_ply, hcore]
  rfl

/-- A ply that Clock does not take goes on after the YIELD, and a rotation that is over leaves no mark on it. -/
theorem yieldedPly_goesOn (ht : s.path.transfer = .none) (m : Option Nat) :
    let t := s.withPly { s.yieldedPly d with marked := m }
    OnlyPly s t ∧ t.path = { s.path with
        pc := wordsOn s s.issue.words, hprio := t.path.hprio, awaited := [], since := s.now, runClass := none } ∧
      t.ply.path t.ply.other = s.ply.path s.ply.other ∧ t.ply = { s.ply with
        ydl := d, yc := 0, running := false, pos := 0, latches := [], path0 := t.ply.path0, path1 := t.ply.path1, marked := m } := by
  have hslot : (s.yieldedPly d).other = s.ply.other := by
    unfold Ply.other
    rw [State.yieldedPly_frame]
  refine ⟨OnlyPly.of_ply .., State.yieldedPly_cur (d := d) ht, ?_, ?_⟩
  · show (s.yieldedPly d).path (s.yieldedPly d).other = _
    rw [hslot]
    exact State.yieldedPly_other
  · have h : s.yieldedPly d = _ := State.yieldedPly_frame
    rw [State.withPly_ply]
    generalize s.yieldedPly d = p at h
    rw [h]

end

/-- Settles O40: the lanes that EXIT ends leave the ply one after another, each counted in its scope; YIELD leaves the ply of its
awaiting path, which is saved as it stands then. -/
theorem endsAndYields : Obligations.EndsAndYields := by
  unfold Obligations.EndsAndYields
  refine ⟨fun s hn hb hk _ => ⟨exitGoesOn hn hb hk, exitRetires hn hb hk⟩, fun d l s hl hu => ?_,
    fun d l s hl huid ho hc hd ht => ?_⟩
  · refine ⟨s.raiseRegrange, ?_, State.raise_word hu 0x07 0 (by decide) (by decide) (by decide) (by decide) _⟩
    show execYield d l s = _
    unfold execYield
    dsimp only
    rw [if_pos (show s.ply.vcount < l.toNat from hl)]
    rfl
  · have hexec := exec_yield (d := d) hl huid ho hc hd ht
    have htaken := State.takenAtYield_iff (s := s) (d := d)
    rw [State.rotated_iff] at htaken
    refine ⟨fun hnot => ?_, fun htake => ?_⟩
    · rw [if_neg (mt htaken.mp hnot)] at hexec
      by_cases hrot : s.rotated = true
      · rw [if_pos hrot] at hexec
        obtain ⟨honly, hpath, hother, hply⟩ := yieldedPly_goesOn (d := d) ht none
        exact ⟨_, hexec, honly, fun _ => rfl, fun hlap => absurd (State.rotated_iff.mp hrot) hlap, hpath, hother, hply⟩
      · rw [if_neg hrot] at hexec
        have hmarked : (s.yieldedPly d).marked = s.ply.marked := by
          rw [State.yieldedPly_frame]
        obtain ⟨honly, hpath, hother, hply⟩ := yieldedPly_goesOn (d := d) ht (s.yieldedPly d).marked
        exact ⟨_, hexec, honly, fun hlap => absurd (State.rotated_iff.mpr hlap) hrot, fun _ => hmarked, hpath, hother, hply⟩
    · rw [if_pos (htaken.mpr htake)] at hexec
      obtain ⟨v, hsaved, hply, hplies, hmem, hv, hwait, hgated, hissued⟩ :=
        (s.withPly (s.yieldedPly d)).savePly_saved (s.yieldedPly d) l.toNat false (s.gating s.ply.core)
      have hcur : v.ply.cur.pc = wordsOn s s.issue.words := by
        rw [hv, show ((s.yieldedPly d).asSaved l.toNat false).cur = (s.yieldedPly d).cur from rfl, State.yieldedPly_cur ht]
      have h : s.yieldedPly d = _ := State.yieldedPly_frame
      refine ⟨_, hexec, v, hsaved, hply, hplies, hmem, hgated, hwait, hissued, ?_, ?_, ?_, ?_, ?_, ?_, ?_, ?_, ?_, hcur⟩ <;>
        rw [hv, Ply.asSaved, h]
      rfl

end Sys2Proof.Machine

/-!
A ply as it starts (R108, R109): a formation numbers its lanes from 0 up, and every register of its ply follows from them.
-/
namespace Sys2Proof.Machine
open Sys2Proof.Claim

/-! ## Lanes that are numbered from 0 up -/

/-- The search for a number in a list that is numbered from 0 up. -/
theorem find_numbered {α : Type} {f : α → Nat} {l : List α} (h : ∀ (i : Nat) x, l[i]? = some x → f x = i) (i : Nat) :
    (l.find? fun x => f x == i) = l[i]? := by
  cases hi : l[i]? with
  | none =>
    refine List.find?_eq_none.mpr fun x hx => ?_
    obtain ⟨j, hj⟩ := List.mem_iff_getElem?.mp hx
    rw [beq_iff_eq, h j x hj]
    rintro rfl
    rw [hi] at hj
    cases hj
  | some x =>
    obtain ⟨hlt, rfl⟩ := List.getElem?_eq_some_iff.mp hi
    refine List.find?_eq_some_iff_getElem.mpr ⟨beq_iff_eq.mpr (h i _ hi), i, hlt, rfl, fun j hj => ?_⟩
    have hne : f l[j] ≠ i := by
      rw [h j _ (List.getElem?_eq_getElem _)]
      omega
    simpa using hne

/-- What a lane of a formation starts with: arguments, scope, and whether it is occupied. -/
abbrev LaneTask := Vector Word 4 × BitVec 24 × Bool
def LaneStart.task (l : LaneStart) : LaneTask := (l.args, l.scope, l.occupied)

/-- The lanes of a formation start, from 0 up, with the tasks of a list. -/
structure Lays (ls : List LaneStart) (tasks : List LaneTask) : Prop where
  lane : ∀ (i : Nat) (l : LaneStart), ls[i]? = some l → l.lane = i
  tasks : ls.map LaneStart.task = tasks

namespace Lays
variable {ls : List LaneStart} {tasks : List LaneTask} (h : Lays ls tasks)
include h

theorem find_lane (i : Nat) : (ls.find? fun l => l.lane == i) = ls[i]? := find_numbered h.lane i

theorem task (i : Nat) : tasks[i]? = ls[i]?.map LaneStart.task := by
  rw [← h.tasks, List.getElem?_map]

theorem occupied (i : Nat) : (ls.any fun l => l.lane == i && l.occupied) = ((tasks[i]?).map (·.2.2)).getD false := by
  rw [h.task, Option.map_map, Bool.eq_iff_iff, List.any_eq_true]
  constructor
  · rintro ⟨l, hl, ho⟩
    obtain ⟨j, hj⟩ := List.mem_iff_getElem?.mp hl
    obtain ⟨hlane, ho⟩ := Bool.and_eq_true_iff.mp ho
    have hij : j = i := (h.lane j l hj).symm.trans (beq_iff_eq.mp hlane)
    rw [← hij, hj]
    exact ho
  · intro ho
    cases hi : ls[i]? with
    | none =>
      rw [hi] at ho
      cases ho
    | some l =>
      rw [hi] at ho
      exact ⟨l, List.mem_of_getElem? hi, Bool.and_eq_true_iff.mpr ⟨beq_iff_eq.mpr (h.lane i l hi), ho⟩⟩

theorem lowest : (ls.find? (·.occupied)).map (·.scope) = (tasks.find? (·.2.2)).map (·.2.1) := by
  rw [← h.tasks, List.find?_map, Option.map_map]
  rfl

end Lays

/-! ## The registers of a ply that forms (R108, R109) -/

section
variable {t : Start} {tasks : List LaneTask} (h : Lays t.lanes tasks)
include h

theorem Start.occ_has (s : State) (uid : Nat) (ssave : DWord) {i : Nat} (hi : i < 96) :
    (t.ply s uid ssave).occ.has i = ((tasks[i]?).map (·.2.2)).getD false := by
  rw [← h.occupied i]
  show (maskOf _).has i = _
  rw [maskOf_has, decide_eq_true hi, Bool.true_and]

theorem Start.vregs_at {k i : Nat} (hk : k < t.header.regs) (hi : i < 96) :
    ((t.vregs[k]?).getD Lanes.zero).at i = match tasks[i]? with
      | none => 0
      | some x => if k < 4 then (x.1[k]?).getD 0 else if k = 4 ∧ x.2.2 = true then x.2.1.zeroExtend 32 else 0 := by
  unfold Start.vregs
  dsimp only
  rw [List.getElem?_map, List.getElem?_range hk, Option.map_some, Option.getD_some, h.task i]
  by_cases h4 : k < 4
  · rw [if_pos h4, Lanes.gen_at, if_pos hi, h.find_lane]
    cases t.lanes[i]? with
    | none => rfl
    | some l => exact (if_pos h4).symm
  · rw [if_neg h4]
    by_cases hk4 : k = 4
    · rw [if_pos (beq_iff_eq.mpr hk4), Lanes.gen_at, if_pos hi, h.find_lane]
      cases t.lanes[i]? with
      | none => rfl
      | some l => simp [LaneStart.task, hk4]
    · rw [if_neg (mt beq_iff_eq.mp hk4), Lanes.zero_at]
      cases t.lanes[i]? with
      | none => rfl
      | some l => simp [h4, hk4]

/-- The ply of a formation starts with the tasks of its lanes. -/
theorem Start.born {s u : State} (hu : (u.tenant t.tenant).trapVec = (s.tenant t.tenant).trapVec) (uid : Nat) (ssave : DWord) :
    Born s (t.ply u uid ssave) t.core t.tenant t.entry t.header (t.pointer.getD (ssave + 0x2800)) tasks := by
  refine ⟨rfl, rfl, rfl, rfl, fun i hi => Start.occ_has h u uid ssave hi, rfl, rfl, rfl, rfl, rfl, rfl, rfl, rfl, rfl, rfl, rfl, rfl, rfl,
    rfl, rfl, rfl, rfl, rfl, hu, ?_, rfl, ?_, rfl, fun k i hk hi => Start.vregs_at h hk hi, fun k hk => ?_⟩
  · show ((t.lanes.find? (·.occupied)).map (·.scope)).getD 0 = _
    rw [h.lowest]
  · show t.vregs.length = _
    unfold Start.vregs
    rw [List.length_map, List.length_range]
  · have hreg : (t.ply u uid ssave).sregs = Vector.ofFn fun (i : Fin 64) =>
        if i.val == 2 then loWord (t.pointer.getD (ssave + 0x2800)) else if i.val == 3 then hiWord (t.pointer.getD (ssave + 0x2800))
        else if 56 ≤ i.val && i.val ≤ 58 then Mask.word (t.ply u uid ssave).occ (i.val - 56) else 0 := rfl
    rw [hreg, Vector.getElem?_eq_getElem hk, Option.getD_some, Vector.getElem_ofFn, loWord_eq, hiWord_eq]
    simp only [beq_iff_eq, Bool.and_eq_true, decide_eq_true_eq]

end

end Sys2Proof.Machine

/-!
A bin forms a ply (R244, R284): the tasks that are still live take lanes in order, and the ply stands on the core behind the others.
-/
namespace Sys2Proof.Machine
open Sys2Proof.Claim

/-! ## What the task store of a core may change -/

/-- Only task stores and other parts of cores, headers, scopes and counted operations changed. -/
def OnlyTaskStore (s t : State) : Prop :=
  t = { s with headers := t.headers, cores := t.cores, scopes := t.scopes, counted := t.counted }

namespace OnlyTaskStore

theorem refl (s : State) : OnlyTaskStore s s := rfl

theorem trans {s t u : State} (h₁ : OnlyTaskStore s t) (h₂ : OnlyTaskStore t u) : OnlyTaskStore s u := by
  unfold OnlyTaskStore at *
  rw [h₁] at h₂
  exact h₂

theorem foldl {α : Type} {f : State → α → State} (hf : ∀ s x, OnlyTaskStore s (f s x)) (l : List α) (s : State) :
    OnlyTaskStore s (l.foldl f s) :=
  List.foldlRecOn l f (refl s) fun t ht x _ => ht.trans (hf t x)

end OnlyTaskStore

theorem State.modCore_onlyTaskStore (s : State) (k : Nat) (f : Core → Core) : OnlyTaskStore s (s.modCore k f) := rfl
theorem State.complete_onlyTaskStore (s : State) (n : Nat) : OnlyTaskStore s (s.complete n) := rfl
theorem State.countEnd_onlyTaskStore (s : State) (tenant : Nat) (id : BitVec 24) : OnlyTaskStore s (s.countEnd tenant id) := rfl

theorem State.settleEntries_onlyTaskStore (s : State) (core : Nat) : OnlyTaskStore s (s.settleEntries core) :=
  (State.modCore_onlyTaskStore s core _).trans (OnlyTaskStore.foldl (fun t (e : CommitEntry) => State.complete_onlyTaskStore t e.seq) _ _)

theorem State.discardTask_onlyTaskStore (s : State) (t : Task) : OnlyTaskStore s (s.discardTask t) := by
  unfold State.discardTask State.paintTaskOver
  split
  · exact State.countEnd_onlyTaskStore ..
  · exact ((State.countEnd_onlyTaskStore ..).trans (State.modCore_onlyTaskStore ..)).trans (State.settleEntries_onlyTaskStore ..)

/-! ## The count of formations (R108) -/

theorem Core.binUnit_formSeq {c d : Core} {ts : List Task} (h : c.binUnit ts = some d) : d.formSeq = c.formSeq := by
  unfold Core.binUnit at h
  split at h
  · cases h
    rfl
  · split at h
    · cases h
    · split at h
      · cases h
        rfl
      · obtain ⟨n, -, rfl⟩ := Option.map_eq_some_iff.mp h
        rfl

theorem Core.refill_formSeq (c : Core) (n : Nat) : (c.refill n).formSeq = c.formSeq := by
  induction n generalizing c with
  | zero => rfl
  | succ n ih =>
    unfold Core.refill
    dsimp only
    split
    · rfl
    · split
      · next d hd =>
        have hseq := Core.binUnit_formSeq hd
        rw [ih]
        exact hseq
      · rfl

theorem State.modCore_core (s : State) (k : Nat) (f : Core → Core) : (s.modCore k f).core k = f (s.core k) := State.setCore_core ..

theorem State.tidyBins_formSeq (s : State) (core : Nat) : ((s.tidyBins core).core core).formSeq = (s.core core).formSeq := by
  unfold State.tidyBins
  rw [State.modCore_core]
  exact Core.refill_formSeq ..

/-! ## A ply forms (R108, R249) -/

/-- The state in which a start's ply stands on its core, its save area taken (log 11). -/
def State.withStart (s : State) (t : Start) : State := { s with
  seq := s.seq + 1, plies := s.plies ++ [t.ply s (s.seq + 1) (s.saveAreas.headD 0)], saveAreas := s.saveAreas.drop 1 }

theorem State.formPly_eq (s : State) (t : Start) (block : Option (List Byte)) :
    ∃ w, OnlyStores (s.withStart t) w ∧ s.formPly t block = (s.seq + 1, w) := by
  unfold State.formPly
  dsimp only
  have hzeros : OnlyStores (s.withStart t) ((unnamedBytes t.header.xbuf).foldl (fun u (x : Nat × Nat) =>
      u.writeVirt 0 t.core t.tenant (s.saveAreas.headD 0 + BitVec.ofNat 64 x.1) (zeros x.2)) (s.withStart t)) :=
    OnlyStores.foldl (fun _ _ => State.writeVirt_onlyStores ..) _ _
  cases block with
  | none => exact ⟨_, hzeros, rfl⟩
  | some b => exact ⟨_, hzeros.trans (State.writeVirt_onlyStores ..), rfl⟩

/-! ## A bin that forms (R244) -/

/-- The bin holds what is left, its discarded tasks have ended, and the core keeps the header. -/
def State.binPrepared (s : State) (core : Nat) (b : Bin) (h : Header) : State :=
  ((s.deadTasks core b).foldl (fun s t => s.discardTask t)
    (s.setBin core b ((s.liveTasks core b).drop ((layTasks 0 none (s.liveTasks core b)).map (·.2)).length))).keepHeader core b.entry h

/-- What a formation from a bin fixes for its ply. -/
def State.binStart (u : State) (core : Nat) (b : Bin) (h : Header) (placed : List (Nat × Task)) (charge pipe base : Nat) : Start :=
  let ts := placed.map (·.2)
  let paint := ts.any fun t => t.commit.isSome || t.helper
  let d := ({ b with tasks := ts } : Bin).deadline
  { core := core, pipe := pipe, tenant := b.tenant, plyid := BitVec.ofNat 25 (core * 65536 + (u.core core).formSeq.toNat)
    entry := b.entry, header := h, gang := none, gangsize := 1, role := 0, cls := ({ b with tasks := ts } : Bin).cls
    deadline := if d == 2 ^ 64 then 0 else BitVec.ofNat 64 d
    charge := charge, demand := 0, heat := 0, paint := paint, lanes := laneStarts placed, firing := none, group := none
    fixedCore := false, pointer := if paint then some 0 else none, base := base }

/-- The core counts the formation, assigns the window and tidies its bins. -/
def State.binFormed (w : State) (core uid base size : Nat) : State :=
  (w.modCore core fun c => ({ c with formSeq := c.formSeq + 1 } : Core).assignWindow uid base size).tidyBins core

theorem State.binFormed_of_formPly (u : State) (t : Start) (core base size : Nat) (block : Option (List Byte)) :
    ∃ w, OnlyStores (u.withStart t) w ∧
      (u.formPly t block).2.binFormed core (u.formPly t block).1 base size = w.binFormed core (u.seq + 1) base size := by
  obtain ⟨w, hw, hform⟩ := u.formPly_eq t block
  exact ⟨w, hw, by rw [hform]⟩

theorem State.tryBin_of_header {s x : State} {core : Nat} {b : Bin} {h : Header} (hx : s.tryBin core b = some x)
    (hne : layTasks 0 none (s.liveTasks core b) ≠ []) (hh : s.headerFor core b.tenant b.entry = .ok h) :
    ∃ charge pipe base w,
      OnlyStores ((s.binPrepared core b h).withStart
        ((s.binPrepared core b h).binStart core b h (layTasks 0 none (s.liveTasks core b)) charge pipe base)) w ∧
      x = w.binFormed core ((s.binPrepared core b h).seq + 1) base h.xbuf := by
  unfold State.tryBin at hx
  dsimp only at hx
  split at hx
  · cases hx
  · split at hx
    · next hempty => exact absurd (List.map_eq_nil_iff.mp (List.isEmpty_iff.mp hempty)) hne
    · rw [hh] at hx
      dsimp only at hx
      split at hx
      · next charge pipe base _ _ _ =>
        split at hx
        · cases hx
        · have hend := State.binFormed_of_formPly (s.binPrepared core b h)
            ((s.binPrepared core b h).binStart core b h (layTasks 0 none (s.liveTasks core b)) charge pipe base) core base h.xbuf
            (if ((s.binPrepared core b h).binStart core b h (layTasks 0 none (s.liveTasks core b)) charge pipe base).paint then none
              else some (recordBlock (layTasks 0 none (s.liveTasks core b))))
          obtain ⟨w, hw, hform⟩ := hend
          exact ⟨charge, pipe, base, w, hw, (Option.some.inj hx).symm.trans hform⟩
      · cases hx

end Sys2Proof.Machine

/-!
The layout of a formation (R244, R284): plain tasks take one lane after another, units of four take a quad each, up to lane 95.
-/
namespace Sys2Proof.Machine
open Sys2Proof.Claim

/-! ## Lanes in order -/

/-- Tasks in lanes from n on. -/
def inLanes (n : Nat) (l : List Task) : List (Nat × Task) := (l.zipIdx n).map Prod.swap

theorem inLanes_cons (n : Nat) (t : Task) (l : List Task) : inLanes n (t :: l) = (n, t) :: inLanes (n + 1) l := rfl

theorem inLanes_tasks (n : Nat) (l : List Task) : (inLanes n l).map (·.2) = l := by
  unfold inLanes
  rw [List.map_map]
  exact List.zipIdx_map_fst n l

/-- The lane that a task of a formation starts: its task, or none for a helper. -/
def Task.lane (t : Task) : LaneTask := (t.args, t.scope, !t.helper)

theorem lays_inLanes (l : List Task) : Lays (laneStarts (inLanes 0 l)) (l.map Task.lane) where
  lane i x hx := by
    unfold laneStarts inLanes at hx
    rw [List.getElem?_map, List.getElem?_map, List.getElem?_zipIdx] at hx
    cases hi : l[i]? with
    | none =>
      rw [hi] at hx
      cases hx
    | some t =>
      rw [hi] at hx
      cases hx
      exact Nat.zero_add i
  tasks := by
    conv_rhs => rw [← inLanes_tasks 0 l]
    unfold laneStarts
    rw [List.map_map, List.map_map]
    rfl

/-- Tasks of no unit take a lane each. -/
theorem layTasks_plain {l : List Task} (h : ∀ t ∈ l, t.quad = none) (n : Nat) (unit : Option Nat) :
    layTasks n unit l = inLanes n (l.take (96 - n)) := by
  induction l generalizing n unit with
  | nil =>
    rw [List.take_nil]
    rfl
  | cons t l ih =>
    have hquad := h t List.mem_cons_self
    unfold layTasks
    simp only [hquad, Option.isSome_none, Bool.false_and, Bool.false_eq_true, if_false]
    by_cases hn : 96 < n + 1
    · rw [if_pos hn, show 96 - n = 0 by omega, List.take_zero]
      rfl
    · rw [if_neg hn, ih (fun u hu => h u (List.mem_cons_of_mem _ hu)), show 96 - n = (96 - (n + 1)) + 1 by omega,
        List.take_succ_cons, inLanes_cons]

/-- A unit of four: its tasks share a quad. -/
def IsQuad (n : Nat) (u : List Task) : Prop := u.length = 4 ∧ ∀ t ∈ u, t.quad = some n

/-- A unit of four takes the next quad, where one is left. -/
theorem layTasks_quad {u : List Task} {n : Nat} (hu : IsQuad n u) {k : Nat} (hk : k < 24) {unit : Option Nat} (hne : unit ≠ some n)
    (l : List Task) : layTasks (4 * k) unit (u ++ l) = inLanes (4 * k) u ++ layTasks (4 * (k + 1)) (some n) l := by
  obtain ⟨hlen, hquad⟩ := hu
  obtain ⟨a, b, c, d, rfl⟩ : ∃ a b c d, u = [a, b, c, d] := by
    match u, hlen with
    | [a, b, c, d], _ => exact ⟨a, b, c, d, rfl⟩
  have ha : a.quad = some n := hquad a (by simp)
  have hb : b.quad = some n := hquad b (by simp)
  have hc : c.quad = some n := hquad c (by simp)
  have hd : d.quad = some n := hquad d (by simp)
  have hstart : ((some n).isSome && some n != unit) = true := by
    simpa using Ne.symm hne
  have hgo (t : Task) (ht : t.quad = some n) (m : Nat) (hm : m < 96) (l : List Task) :
      layTasks m (some n) (t :: l) = (m, t) :: layTasks (m + 1) (some n) l := by
    conv_lhs => unfold layTasks
    simp only [ht, bne_self_eq_false, Bool.and_false, Bool.false_eq_true, if_false]
    exact if_neg (by omega)
  have hfirst (l : List Task) : layTasks (4 * k) unit (a :: l) = (4 * k, a) :: layTasks (4 * k + 1) (some n) l := by
    conv_lhs => unfold layTasks
    simp only [ha, hstart, if_true]
    rw [show (4 * k + 3) / 4 * 4 = 4 * k by omega]
    exact if_neg (by omega)
  simp only [List.cons_append, List.nil_append]
  rw [hfirst, hgo b hb _ (by omega), hgo c hc _ (by omega), hgo d hd _ (by omega)]
  rfl

/-- Where no quad is left, no further unit takes lanes. -/
theorem layTasks_full {t : Task} {n : Nat} (ht : t.quad = some n) {unit : Option Nat} (hne : unit ≠ some n) (l : List Task) :
    layTasks 96 unit (t :: l) = [] := by
  have hstart : (t.quad.isSome && t.quad != unit) = true := by
    rw [ht]
    simpa using Ne.symm hne
  unfold layTasks
  simp only [hstart, if_true]
  exact if_pos (by omega)

/-- Units of four take a quad each, in their order, as far as the quads go. -/
theorem layTasks_quads {us : List (List Task)} (h : ∀ u ∈ us, ∃ n, IsQuad n u)
    (hd : us.Pairwise fun u v => ∀ x ∈ u, ∀ y ∈ v, x.quad ≠ y.quad) {k : Nat} (hk : k ≤ 24) {unit : Option Nat}
    (hu : ∀ u ∈ us, ∀ x ∈ u, unit ≠ x.quad) : layTasks (4 * k) unit us.flatten = inLanes (4 * k) (us.take (24 - k)).flatten := by
  induction us generalizing k unit with
  | nil =>
    rw [List.take_nil]
    rfl
  | cons u us ih =>
    obtain ⟨n, hquad⟩ := h u List.mem_cons_self
    obtain ⟨hfirst, hrest⟩ := List.pairwise_cons.mp hd
    obtain ⟨hlen, hmem⟩ := id hquad
    have hpos : 0 < u.length := by omega
    have hne : unit ≠ some n := by
      rw [← hmem _ (List.getElem_mem hpos)]
      exact hu u List.mem_cons_self _ (List.getElem_mem hpos)
    rw [List.flatten_cons]
    by_cases h24 : k = 24
    · subst h24
      obtain ⟨a, v, rfl⟩ := List.exists_cons_of_length_pos hpos
      rw [List.cons_append, layTasks_full (hmem a List.mem_cons_self) hne]
      rfl
    · have hlt : k < 24 := by omega
      rw [layTasks_quad hquad hlt hne, ih (fun v hv => h v (List.mem_cons_of_mem _ hv)) hrest (by omega) ?_,
        show 24 - k = (24 - (k + 1)) + 1 by omega, List.take_succ_cons, List.flatten_cons]
      · unfold inLanes
        rw [List.zipIdx_append, List.map_append, hlen]
        rfl
      · intro v hv x hx
        rw [← hmem _ (List.getElem_mem hpos)]
        exact hfirst v hv _ (List.getElem_mem hpos) x hx

/-! ## The tasks that are left (R244) -/

theorem State.heardCancel_of_quiet {s : State} {core : Nat} (h : (s.core core).heard = []) (tenant : Nat) (id : BitVec 24) :
    s.heardCancel core tenant id = false := by
  unfold State.heardCancel
  rw [h]
  rfl

theorem State.liveTasks_plain {s : State} {core : Nat} {b : Bin} (h : PlainBin s core b) :
    s.liveTasks core b = b.tasks ∧ s.deadTasks core b = [] := by
  obtain ⟨hplain, hheard⟩ := h
  constructor
  · unfold State.liveTasks
    simp only [State.heardCancel_of_quiet hheard, Bool.and_false, Bool.false_eq_true, if_false, List.filterMap_some]
    refine List.dropWhile_eq_self_iff.mpr fun hpos => ?_
    obtain ⟨hhelper, -⟩ := hplain _ (List.getElem_mem hpos)
    rw [hhelper, Bool.false_and]
    exact Bool.false_ne_true
  · unfold State.deadTasks
    simp only [State.heardCancel_of_quiet hheard, Bool.and_false, List.filter_false]

/-- A task of a unit of four as a formation finds it: a helper where it is discarded. -/
def State.pixelTask (s : State) (core : Nat) (t : Task) : Task :=
  if !t.helper && s.heardCancel core t.tenant t.scope then t.asHelper else t

theorem State.pixelTask_quad (s : State) (core : Nat) (t : Task) : (s.pixelTask core t).quad = t.quad := by
  unfold State.pixelTask
  split <;> rfl

theorem State.pixelTask_lane (s : State) (core : Nat) (t : Task) : (s.pixelTask core t).lane = pixelLane s core t := by
  unfold State.pixelTask pixelLane Task.lane
  cases hh : t.helper with
  | true => simp [hh]
  | false =>
    cases hc : s.heardCancel core t.tenant t.scope with
    | false => simp [hh]
    | true =>
      have hargs : t.args.setIfInBounds 1 0 = #v[t.args[0], 0, t.args[2], t.args[3]] := by
        refine Vector.ext fun i hi => ?_
        rw [Vector.getElem_setIfInBounds hi]
        match i, hi with
        | 0, _ => rfl
        | 1, _ => rfl
        | 2, _ => rfl
        | 3, _ => rfl
      simp only [Bool.not_false, Bool.and_self, if_true, Bool.false_eq_true, if_false, Task.asHelper, hargs, Bool.not_true]

theorem State.pixelTask_live {s : State} {core : Nat} {t : Task} (h : (pixelLane s core t).2.2 = true) :
    (s.pixelTask core t).helper = false := by
  rw [← State.pixelTask_lane] at h
  exact Bool.not_eq_true' _ |>.mp h

theorem State.pixelTask_paint {s : State} {core : Nat} {t : Task} (h : t.helper = true ∨ t.commit.isSome = true) :
    ((s.pixelTask core t).commit.isSome || (s.pixelTask core t).helper) = true := by
  unfold State.pixelTask
  split
  · rfl
  · rw [Bool.or_eq_true]
    exact h.symm

end Sys2Proof.Machine

/-! Plies that form from bins (R108, R244, R284). -/
namespace Sys2Proof.Machine
open Sys2Proof.Claim

section
variable {s : State} {core : Nat} {b : Bin}

theorem exec_plyFormation (h : NextBin s core b) : ∃ x, s.tryBin core b = some x ∧ exec (.plyFormation core) s = .next x := by
  obtain ⟨hnext, hfind, htry, -⟩ := h
  obtain ⟨x, hx⟩ := Option.isSome_iff_exists.mp htry
  refine ⟨x, hx, ?_⟩
  show execPlyFormation core s = _
  unfold execPlyFormation State.formBin
  rw [hnext]
  dsimp only
  rw [hfind]
  dsimp only
  rw [hx]
  rfl

theorem plyFormation_mem {x : State} (h : exec (.plyFormation core) s = .next x) : x.mem = s.mem :=
  exec_mem (.plyFormation core) s (fun _ => nofun) (fun _ _ _ => nofun) x h

theorem State.binPrepared_frame (s : State) (core : Nat) (b : Bin) (h : Header) : OnlyTaskStore s (s.binPrepared core b h) := by
  have hset : OnlyTaskStore s (s.setBin core b
      ((s.liveTasks core b).drop ((layTasks 0 none (s.liveTasks core b)).map (·.2)).length)) := rfl
  have hdrop := hset.trans (OnlyTaskStore.foldl (f := fun (s : State) (t : Task) => s.discardTask t)
    (fun _ _ => State.discardTask_onlyTaskStore ..) (s.deadTasks core b) _)
  exact hdrop.trans rfl

/-- What a formation from a bin makes of the state. -/
theorem State.tryBin_forms {x : State} {h : Header} (hx : s.tryBin core b = some x)
    (hne : layTasks 0 none (s.liveTasks core b) ≠ []) (hh : s.headerFor core b.tenant b.entry = .ok h) :
    ∃ charge pipe base, x.ply = s.ply ∧ x.plies = s.plies ++ [((s.binPrepared core b h).binStart core b h
        (layTasks 0 none (s.liveTasks core b)) charge pipe base).ply (s.binPrepared core b h) (s.seq + 1) (s.saveAreas.headD 0)] ∧
      x.saveAreas = s.saveAreas.drop 1 ∧ (x.core core).formSeq = ((s.binPrepared core b h).core core).formSeq + 1 := by
  obtain ⟨charge, pipe, base, w, hw, rfl⟩ := State.tryBin_of_header hx hne hh
  have hu := s.binPrepared_frame core b h
  generalize s.binPrepared core b h = u at hu hw ⊢
  unfold OnlyStores at hw
  unfold OnlyTaskStore at hu
  have hcore : w.core core = u.core core := by
    rw [hw]
    rfl
  have hseq : u.seq = s.seq := by rw [hu]
  have hareas : u.saveAreas = s.saveAreas := by rw [hu]
  have hplies : u.plies = s.plies := by rw [hu]
  have hply : u.ply = s.ply := by rw [hu]
  refine ⟨charge, pipe, base, ?_⟩
  generalize u.binStart core b h (layTasks 0 none (s.liveTasks core b)) charge pipe base = t at hw ⊢
  have hwply : w.ply = u.ply := by
    rw [hw]
    rfl
  have hwplies : w.plies = u.plies ++ [t.ply u (u.seq + 1) (u.saveAreas.headD 0)] := by
    rw [hw]
    rfl
  have hwareas : w.saveAreas = u.saveAreas.drop 1 := by
    rw [hw]
    rfl
  refine ⟨hwply.trans hply, ?_, ?_, ?_⟩
  · rw [← hplies, ← hseq, ← hareas]
    exact hwplies
  · rw [← hareas]
    exact hwareas
  · unfold State.binFormed
    rw [State.tidyBins_formSeq, State.modCore_core, hcore]
    unfold Core.assignWindow
    split <;> rfl

end

end Sys2Proof.Machine

/-! The plies of plain bins and of units of four (R108, R244, R284). -/
namespace Sys2Proof.Machine
open Sys2Proof.Claim

/-- A bin's class is at most that of each of its tasks (R244). -/
theorem Bin.cls_le {b : Bin} {t : Task} (h : t ∈ b.tasks) : b.cls ≤ t.cls := by
  have hfold (l : List Task) (m : Nat) : l.foldl (fun m t => min m t.cls) m ≤ m ∧
      ∀ t ∈ l, l.foldl (fun m t => min m t.cls) m ≤ t.cls := by
    induction l generalizing m with
    | nil => exact ⟨Nat.le_refl m, fun t ht => absurd ht List.not_mem_nil⟩
    | cons u l ih =>
      obtain ⟨hm, hall⟩ := ih (min m u.cls)
      rw [List.foldl_cons]
      refine ⟨hm.trans (Nat.min_le_left ..), fun t ht => ?_⟩
      obtain rfl | ht := List.mem_cons.mp ht
      · exact hm.trans (Nat.min_le_right ..)
      · exact hall t ht
  exact (hfold b.tasks 3).2 t h

theorem State.setBin_formSeq (s : State) (core : Nat) (b : Bin) (ts : List Task) :
    ((s.setBin core b ts).core core).formSeq = (s.core core).formSeq := by
  unfold State.setBin
  rw [State.modCore_core]

theorem inLanes_ne_nil {n : Nat} {l : List Task} (h : l ≠ []) : inLanes n l ≠ [] := fun he =>
  h (by rw [← inLanes_tasks n l, he]; rfl)

section
variable {s : State} {core : Nat} {b : Bin} {h : Header}

theorem plainFormation (hn : NextBin s core b) (hp : PlainBin s core b) (hh : s.headerFor core b.tenant b.entry = .ok h) :
    Answers (.plyFormation core) s fun t => t.ply = s.ply ∧ t.mem = s.mem ∧ ∃ p : Ply, t.plies = s.plies ++ [p] ∧
      p.uid = s.seq + 1 ∧ p.plyid = BitVec.ofNat 25 (core * 2 ^ 16 + (s.core core).formSeq.toNat) ∧ p.gangsize = 1 ∧
      p.role = 0 ∧ p.ssave = s.saveAreas.headD 0 ∧
      Born s p core b.tenant b.entry h (p.ssave + 0x2800) ((b.tasks.take 96).map fun x => (x.args, x.scope, true)) ∧
      (∀ x ∈ b.tasks.take 96, p.cls ≤ x.cls) ∧
      t.saveAreas = s.saveAreas.drop 1 ∧ (t.core core).formSeq = (s.core core).formSeq + 1 := by
  obtain ⟨x, hx, hexec⟩ := exec_plyFormation hn
  obtain ⟨hlive, hdead⟩ := State.liveTasks_plain hp
  obtain ⟨-, -, -, hne⟩ := hn
  obtain ⟨hplain, -⟩ := id hp
  have hplaced : layTasks 0 none (s.liveTasks core b) = inLanes 0 (b.tasks.take 96) := by
    rw [hlive, layTasks_plain (fun t ht => (hplain t ht).2.1)]
  have hnonempty : layTasks 0 none (s.liveTasks core b) ≠ [] := by
    rw [hplaced]
    refine inLanes_ne_nil fun he => ?_
    obtain he | he := List.take_eq_nil_iff.mp he
    · exact absurd he (by decide)
    · exact hne he
  obtain ⟨charge, pipe, base, hply, hplies, hareas, hcount⟩ := State.tryBin_forms hx hnonempty hh
  rw [hplaced] at hplies
  have hframe := s.binPrepared_frame core b h
  have hseq : ((s.binPrepared core b h).core core).formSeq = (s.core core).formSeq := by
    unfold State.binPrepared
    rw [hdead]
    exact State.setBin_formSeq ..
  rw [hseq] at hcount
  generalize s.binPrepared core b h = u at *
  have hpaint : ((inLanes 0 (b.tasks.take 96)).map (·.2)).any (fun t => t.commit.isSome || t.helper) = false := by
    rw [inLanes_tasks]
    refine List.any_eq_false.mpr fun t ht => ?_
    obtain ⟨hhelper, -, hcommit⟩ := hplain t (List.mem_of_mem_take ht)
    rw [hhelper, hcommit]
    exact Bool.false_ne_true
  have hlanes : (b.tasks.take 96).map Task.lane = (b.tasks.take 96).map fun x => (x.args, x.scope, true) :=
    List.map_congr_left fun t ht => by
      obtain ⟨hhelper, -⟩ := hplain t (List.mem_of_mem_take ht)
      rw [Task.lane, hhelper]
      rfl
  have hlays := lays_inLanes (b.tasks.take 96)
  rw [hlanes] at hlays
  have htvec : (u.tenant b.tenant).trapVec = (s.tenant b.tenant).trapVec := by
    unfold OnlyTaskStore at hframe
    rw [hframe]
    rfl
  have hborn := Start.born (t := u.binStart core b h (inLanes 0 (b.tasks.take 96)) charge pipe base) hlays htvec (s.seq + 1)
    (s.saveAreas.headD 0)
  have hpointer : (u.binStart core b h (inLanes 0 (b.tasks.take 96)) charge pipe base).pointer = none := by
    unfold State.binStart
    dsimp only
    rw [hpaint]
    rfl
  rw [hpointer] at hborn
  refine ⟨x, hexec, hply, plyFormation_mem hexec, _, hplies, rfl, ?_, rfl, rfl, rfl, hborn, fun t ht => ?_, hareas, hcount⟩
  · show BitVec.ofNat 25 (core * 65536 + (u.core core).formSeq.toNat) = _
    rw [hseq, show 65536 = 2 ^ 16 from rfl]
  · refine Bin.cls_le (b := { b with tasks := (inLanes 0 (b.tasks.take 96)).map (·.2) }) ?_
    rw [inLanes_tasks]
    exact ht

/-! ## Units of four (R284) -/

variable {us : List (List Task)}

theorem liveTasks_quads (hq : QuadBin b us) (hl : ∀ u ∈ us, ∃ x ∈ u, (pixelLane s core x).2.2 = true) :
    s.liveTasks core b = (us.map fun u => u.map (s.pixelTask core)).flatten := by
  obtain ⟨htasks, hunits, -⟩ := hq
  have hmap : (b.tasks.filterMap fun t => if (!t.helper && s.heardCancel core t.tenant t.scope) = true then
      (if t.quad.isSome = true then some t.asHelper else none) else some t) = b.tasks.map (s.pixelTask core) := by
    rw [← List.filterMap_eq_map]
    refine List.filterMap_congr fun t ht => ?_
    rw [htasks, List.mem_flatten] at ht
    obtain ⟨u, hu, ht⟩ := ht
    obtain ⟨-, n, hquad⟩ := hunits u hu
    rw [(hquad t ht).1]
    unfold State.pixelTask
    simp only [Function.comp_apply, Option.isSome_some, if_true]
    split <;> rfl
  have hmap' : b.tasks.map (s.pixelTask core) = (us.map fun u => u.map (s.pixelTask core)).flatten := by
    rw [htasks, List.map_flatten]
  unfold State.liveTasks
  dsimp only
  rw [hmap, hmap']
  refine List.dropWhile_eq_self_iff.mpr fun hpos => ?_
  obtain ⟨v, hv, hx⟩ := List.mem_flatten.mp (List.getElem_mem hpos)
  obtain ⟨u, hu, rfl⟩ := List.mem_map.mp hv
  obtain ⟨x, hxu, hxe⟩ := List.mem_map.mp hx
  obtain ⟨y, hyu, hy⟩ := hl u hu
  obtain ⟨-, n, hquad⟩ := hunits u hu
  have hany : ((us.map fun u => u.map (s.pixelTask core)).flatten.any fun z =>
      z.quad == (s.pixelTask core x).quad && !z.helper) = true := by
    refine List.any_eq_true.mpr ⟨s.pixelTask core y, List.mem_flatten.mpr ⟨_, hv, List.mem_map_of_mem hyu⟩, ?_⟩
    rw [State.pixelTask_quad, State.pixelTask_quad, (hquad x hxu).1, (hquad y hyu).1, State.pixelTask_live hy]
    simp
  rw [← hxe, hany]
  simp

theorem quadFormation (hn : NextBin s core b) (hq : QuadBin b us) (hl : ∀ u ∈ us, ∃ x ∈ u, (pixelLane s core x).2.2 = true)
    (hh : s.headerFor core b.tenant b.entry = .ok h) : Answers (.plyFormation core) s fun t =>
      t.mem = s.mem ∧ ∃ p : Ply, t.plies = s.plies ++ [p] ∧ p.paint = true ∧ p.gangsize = 1 ∧ p.role = 0 ∧
        Born s p core b.tenant b.entry h 0 ((us.take 24).flatten.map (pixelLane s core)) := by
  obtain ⟨x, hx, hexec⟩ := exec_plyFormation hn
  obtain ⟨-, -, -, hne⟩ := hn
  obtain ⟨htasks, hunits, hdiffer⟩ := id hq
  have hplaced : layTasks 0 none (s.liveTasks core b) =
      inLanes 0 ((us.take 24).flatten.map (s.pixelTask core)) := by
    rw [liveTasks_quads hq hl]
    have hlay := layTasks_quads (us := us.map fun u => u.map (s.pixelTask core)) (k := 0) (unit := none) ?_ ?_ (by decide) ?_
    · rw [List.map_flatten, List.map_take]
      exact hlay
    · intro v hv
      obtain ⟨u, hu, rfl⟩ := List.mem_map.mp hv
      obtain ⟨hlen, n, hquad⟩ := hunits u hu
      refine ⟨n, (List.length_map _).trans hlen, fun t ht => ?_⟩
      obtain ⟨y, hy, rfl⟩ := List.mem_map.mp ht
      rw [State.pixelTask_quad]
      exact (hquad y hy).1
    · refine List.pairwise_map.mpr (hdiffer.imp fun {u v} huv => ?_)
      intro y hy z hz
      obtain ⟨y, hyu, rfl⟩ := List.mem_map.mp hy
      obtain ⟨z, hzv, rfl⟩ := List.mem_map.mp hz
      rw [State.pixelTask_quad, State.pixelTask_quad]
      exact huv y hyu z hzv
    · intro v hv t ht
      obtain ⟨u, hu, rfl⟩ := List.mem_map.mp hv
      obtain ⟨-, n, hquad⟩ := hunits u hu
      obtain ⟨y, hy, rfl⟩ := List.mem_map.mp ht
      rw [State.pixelTask_quad, (hquad y hy).1]
      exact Option.some_ne_none n |>.symm
  -- the first unit of the bin forms at least one lane
  obtain ⟨y, hy, hpaint⟩ : ∃ y ∈ (us.take 24).flatten, y.helper = true ∨ y.commit.isSome = true := by
    obtain ⟨u, vs, rfl⟩ := List.exists_cons_of_ne_nil (show us ≠ [] from fun he => hne (by rw [htasks, he]; rfl))
    obtain ⟨y, hy, -⟩ := hl u List.mem_cons_self
    obtain ⟨-, n, hquad⟩ := hunits u List.mem_cons_self
    exact ⟨y, List.mem_flatten.mpr ⟨u, by simp, hy⟩, (hquad y hy).2⟩
  have hnonempty : layTasks 0 none (s.liveTasks core b) ≠ [] := by
    rw [hplaced]
    exact inLanes_ne_nil (List.ne_nil_of_mem (List.mem_map_of_mem hy))
  obtain ⟨charge, pipe, base, -, hplies, -, -⟩ := State.tryBin_forms hx hnonempty hh
  rw [hplaced] at hplies
  have hframe := s.binPrepared_frame core b h
  generalize s.binPrepared core b h = u at *
  have hany : ((inLanes 0 ((us.take 24).flatten.map (s.pixelTask core))).map (·.2)).any
      (fun t => t.commit.isSome || t.helper) = true := by
    rw [inLanes_tasks]
    exact List.any_eq_true.mpr ⟨_, List.mem_map_of_mem hy, State.pixelTask_paint hpaint⟩
  have hlays := lays_inLanes ((us.take 24).flatten.map (s.pixelTask core))
  have hlanes : ((us.take 24).flatten.map (s.pixelTask core)).map Task.lane = (us.take 24).flatten.map (pixelLane s core) := by
    rw [List.map_map]
    exact List.map_congr_left fun t _ => State.pixelTask_lane s core t
  rw [hlanes] at hlays
  have htvec : (u.tenant b.tenant).trapVec = (s.tenant b.tenant).trapVec := by
    unfold OnlyTaskStore at hframe
    rw [hframe]
    rfl
  have hborn := Start.born (t := u.binStart core b h (inLanes 0 ((us.take 24).flatten.map (s.pixelTask core))) charge pipe base) hlays
    htvec (s.seq + 1) (s.saveAreas.headD 0)
  have hpointer : (u.binStart core b h (inLanes 0 ((us.take 24).flatten.map (s.pixelTask core))) charge pipe base).pointer = some 0 := by
    unfold State.binStart
    dsimp only
    rw [hany]
    rfl
  rw [hpointer] at hborn
  exact ⟨x, hexec, plyFormation_mem hexec, _, hplies, hany, rfl, rfl, hborn⟩

end

end Sys2Proof.Machine

/-! A formation that faults (R241, R262): its tasks end, and their scope faults with the fault of the header. -/
namespace Sys2Proof.Machine
open Sys2Proof.Claim

/-! ## What a fault that the hub registers may change -/

/-- Only scopes, broadcasts, the tenants' fault queues, and the hub's stores changed. -/
def OnlyHub (s t : State) : Prop := t = { s with
  seq := t.seq, stores := t.stores, vaults := t.vaults, homeLeases := t.homeLeases, l2Leases := t.l2Leases, scopes := t.scopes
  broadcasts := t.broadcasts, tenants := t.tenants }

namespace OnlyHub

theorem refl (s : State) : OnlyHub s s := rfl

theorem trans {s t u : State} (h₁ : OnlyHub s t) (h₂ : OnlyHub t u) : OnlyHub s u := by
  unfold OnlyHub at *
  rw [h₁] at h₂
  exact h₂

theorem foldl {α : Type} {f : State → α → State} (hf : ∀ s x, OnlyHub s (f s x)) (l : List α) (s : State) :
    OnlyHub s (l.foldl f s) :=
  List.foldlRecOn l f (refl s) fun t ht x _ => ht.trans (hf t x)

end OnlyHub

theorem OnlyStores.onlyHub {s t : State} (h : OnlyStores s t) : OnlyHub s t := by
  unfold OnlyHub
  unfold OnlyStores at h
  generalize t.seq = n, t.stores = l, t.vaults = v, t.homeLeases = m, t.l2Leases = k at h
  rw [h]

theorem OnlyStores.scopeOf {s t : State} (h : OnlyStores s t) (tenant : Nat) (id : BitVec 24) :
    t.scopeOf tenant id = s.scopeOf tenant id := by
  unfold OnlyStores at h
  rw [h]
  rfl

theorem State.writeScope_onlyStores (s : State) (tenant : Nat) (id : BitVec 24) : OnlyStores s (s.writeScope tenant id) := by
  unfold State.writeScope
  split
  · exact OnlyStores.refl s
  · exact (State.writeVirt_onlyStores ..).trans (State.writeVirt_onlyStores ..)

theorem State.hubReads_onlyStores (s : State) (tenant : Nat) (va : DWord) (n : Nat) : OnlyStores s (s.hubReads tenant va n) := by
  unfold State.hubReads
  split
  · exact OnlyStores.refl s
  · exact OnlyStores.foldl (fun _ _ => (State.homeRead_charged ..).onlyStores) _ _

theorem State.modScope_onlyHub (s : State) (tenant : Nat) (id : BitVec 24) (f : Scope → Scope) :
    OnlyHub s (s.modScope tenant id f) := rfl

theorem State.modTenant_onlyHub (s : State) (n : Nat) (f : Tenant → Tenant) : OnlyHub s (s.modTenant n f) := rfl

theorem State.cancelBelow_onlyHub (s : State) (tenant : Nat) (id : BitVec 24) : OnlyHub s (s.cancelBelow tenant id) :=
  OnlyHub.foldl (f := fun (s : State) (c : Scope) =>
      (s.modScope tenant c.id fun c => { c with state := .cancelling, tcancel := s.ptime }).writeScope tenant c.id)
    (fun _ _ => (State.modScope_onlyHub ..).trans (State.writeScope_onlyStores ..).onlyHub) _ _

theorem State.faultScope_onlyHub (s : State) (tenant : Nat) (id : BitVec 24) (w : Word) : OnlyHub s (s.faultScope tenant id w) := by
  have hwritten (u : State) : OnlyHub u ((u.writeScope tenant id).cancelBelow tenant id) :=
    (State.writeScope_onlyStores ..).onlyHub.trans (State.cancelBelow_onlyHub ..)
  unfold State.faultScope
  split
  · exact OnlyHub.refl s
  · split
    · exact ((State.modScope_onlyHub ..).trans (hwritten _)).trans rfl
    · split
      · exact (State.modScope_onlyHub ..).trans (hwritten _)
      · exact OnlyHub.refl s

theorem State.faultScopes_onlyHub (s : State) (tenant : Nat) (l : List (BitVec 24)) (w : Word) :
    OnlyHub s (s.faultScopes tenant l w) :=
  OnlyHub.foldl (f := fun (s : State) (c : BitVec 24) => s.faultScope tenant c w) (fun _ _ => State.faultScope_onlyHub ..) _ _

/-- The record of a fault is written or counted as dropped; no scope changes (R380). -/
theorem State.faultRecord_rest (s : State) (tenant : Nat) (f : FaultRecord) :
    ∃ u n g, OnlyStores s u ∧ s.faultRecord tenant f = u.modTenant n g := by
  unfold State.faultRecord
  dsimp only
  split
  · exact ⟨s, _, _, OnlyStores.refl s, rfl⟩
  · split
    · exact ⟨s, _, _, OnlyStores.refl s, rfl⟩
    · exact ⟨_, _, _,
        ((State.hubReads_onlyStores ..).trans (State.writeVirt_onlyStores ..)).trans (State.writeVirt_onlyStores ..), rfl⟩

theorem State.faultRecord_onlyHub (s : State) (tenant : Nat) (f : FaultRecord) : OnlyHub s (s.faultRecord tenant f) := by
  obtain ⟨u, n, g, hu, hrecord⟩ := s.faultRecord_rest tenant f
  rw [hrecord]
  exact hu.onlyHub.trans (State.modTenant_onlyHub ..)

theorem State.faultRecord_scopeOf (s : State) (tenant : Nat) (f : FaultRecord) (n : Nat) (c : BitVec 24) :
    (s.faultRecord tenant f).scopeOf n c = s.scopeOf n c := by
  obtain ⟨u, m, g, hu, hrecord⟩ := s.faultRecord_rest tenant f
  rw [hrecord]
  exact hu.scopeOf n c

/-! ## The scope that faults (R258) -/

/-- The scopes below a scope, not itself, are cancelled with it. -/
theorem State.cancelBelow_scopeOf (s : State) (tenant : Nat) (id : BitVec 24) :
    (s.cancelBelow tenant id).scopeOf tenant id = s.scopeOf tenant id := by
  unfold State.cancelBelow
  refine List.foldlRecOn (motive := fun t : State => t.scopeOf tenant id = s.scopeOf tenant id) _ _ rfl fun t ht c hc => ?_
  have hne : c.id ≠ id := by
    have hc := (List.mem_filter.mp hc).2
    simp only [Bool.and_eq_true, bne_iff_ne] at hc
    exact hc.1.1.2
  rw [(State.writeScope_onlyStores ..).scopeOf, State.modScope_scopeOf, ht]
  · simp only [true_and, if_neg (Ne.symm hne), Option.map_id']
  · exact fun _ => ⟨rfl, rfl⟩

theorem State.faultScope_scopeOf {s : State} {tenant : Nat} {id : BitVec 24} {c : Scope} (h : s.scopeOf tenant id = some c)
    (ho : c.state = .opened) (w : Word) : (s.faultScope tenant id w).scopeOf tenant id =
      some { c with state := .faulted, tcancel := s.ptime, cause := w } := by
  unfold State.faultScope
  rw [h]
  dsimp only
  rw [if_pos ho]
  show State.scopeOf (State.cancelBelow _ tenant id) tenant id = _
  rw [State.cancelBelow_scopeOf, (State.writeScope_onlyStores ..).scopeOf, State.modScope_scopeOf, h]
  · simp
  · exact fun _ => ⟨rfl, rfl⟩

/-! ## Tasks that end together -/

/-- Tasks without a commit that are discarded end in their scope. -/
theorem State.discardTasks_scopeOf {tenant : Nat} {c : BitVec 24} {ts : List Task}
    (h : ∀ t ∈ ts, t.tenant = tenant ∧ t.scope = c ∧ t.commit = none) (s : State) :
    (ts.foldl (fun s t => s.discardTask t) s).scopeOf tenant c = (s.scopeOf tenant c).map fun x =>
      { x with live := x.live - ts.length, ended := x.ended + ts.length } := by
  induction ts generalizing s with
  | nil => exact Option.map_id'.symm
  | cons t ts ih =>
    obtain ⟨ht, hc, hcommit⟩ := h t List.mem_cons_self
    have hone : (s.discardTask t).scopeOf tenant c = (s.scopeOf tenant c).map Scope.endsTask := by
      unfold State.discardTask State.paintTaskOver
      rw [hcommit]
      dsimp only
      rw [State.countEnd_scopeOf, ht, hc]
      simp
    rw [List.foldl_cons, ih (fun u hu => h u (List.mem_cons_of_mem _ hu)), hone, Option.map_map]
    refine Option.map_congr fun x _ => ?_
    simp only [Function.comp_apply, Scope.endsTask, List.length_cons]
    congr 1 <;> omega

theorem eraseDups_of_all {c : BitVec 24} {l : List (BitVec 24)} (h : ∀ x ∈ l, x = c) (hne : l ≠ []) : l.eraseDups = [c] := by
  obtain ⟨a, l, rfl⟩ := List.exists_cons_of_ne_nil hne
  have ha : a = c := h a List.mem_cons_self
  have hl : l.filter (fun b => !b == a) = [] := List.filter_eq_nil_iff.mpr fun x hx => by
    rw [h x (List.mem_cons_of_mem _ hx), ha]
    simp
  rw [List.eraseDups_cons, hl, ha]
  rfl

/-! ## The fault of a formation (R241) -/

theorem State.formationFault_scopeOf {s : State} {core tenant : Nat} {entry : DWord} {ts : List Task} {w : Word} {c : BitVec 24}
    {y : Scope} (h : ∀ t ∈ ts, t.tenant = tenant ∧ t.scope = c ∧ t.commit = none ∧ t.helper = false) (hne : ts ≠ [])
    (hy : s.scopeOf tenant c = some y) (ho : y.state = .opened) :
    (s.formationFault core tenant entry ts w).scopeOf tenant c = some { y with
      state := .faulted, cause := w, tcancel := s.ptime, live := y.live - ts.length, ended := y.ended + ts.length } := by
  have hall : ts.filter (fun t => !t.helper) = ts := List.filter_eq_self.mpr fun t ht => by
    obtain ⟨-, -, -, hhelper⟩ := h t ht
    rw [hhelper]
    rfl
  have hscopes : (ts.map (·.scope)).eraseDups = [c] := eraseDups_of_all (fun x hx => by
    obtain ⟨t, ht, rfl⟩ := List.mem_map.mp hx
    exact (h t ht).2.1) (mt List.map_eq_nil_iff.mp hne)
  have hended := State.discardTasks_scopeOf (tenant := tenant) (c := c) (ts := ts)
    (fun t ht => ⟨(h t ht).1, (h t ht).2.1, (h t ht).2.2.1⟩) s
  have hframe := OnlyTaskStore.foldl (f := fun (s : State) (t : Task) => s.discardTask t)
    (fun _ _ => State.discardTask_onlyTaskStore ..) ts s
  have htime : (ts.foldl (fun s t => s.discardTask t) s).ptime = s.ptime := by
    unfold OnlyTaskStore at hframe
    rw [hframe]
  rw [hy, Option.map_some] at hended
  unfold State.formationFault
  dsimp only
  rw [hall, hscopes, State.faultRecord_scopeOf]
  show (State.faultScope _ tenant c w).scopeOf tenant c = _
  rw [State.faultScope_scopeOf hended ho, htime]

theorem State.formationFault_frame (s : State) (core tenant : Nat) (entry : DWord) (ts : List Task) (w : Word) :
    (s.formationFault core tenant entry ts w).ply = s.ply ∧ (s.formationFault core tenant entry ts w).plies = s.plies := by
  have hended := OnlyTaskStore.foldl (f := fun (s : State) (t : Task) => s.discardTask t)
    (fun _ _ => State.discardTask_onlyTaskStore ..) (ts.filter fun t => !t.helper) s
  have hfault := (State.faultScopes_onlyHub ((ts.filter fun t => !t.helper).foldl (fun s t => s.discardTask t) s) tenant
    (((ts.filter fun t => !t.helper).map (·.scope)).eraseDups) w).trans (State.faultRecord_onlyHub _ tenant
      ⟨w, (((ts.filter fun t => !t.helper).map (·.scope)).eraseDups).headD 0, 0xFFFFFFFF, core, entry, 0, 0,
        maskOf fun i => decide (i < (ts.filter fun t => !t.helper).length)⟩)
  unfold OnlyTaskStore at hended
  unfold OnlyHub at hfault
  unfold State.formationFault
  dsimp only
  constructor
  · rw [hfault, hended]
  · rw [hfault, hended]

theorem State.tidyBins_scopeOf (s : State) (core n : Nat) (c : BitVec 24) : (s.tidyBins core).scopeOf n c = s.scopeOf n c := rfl

theorem State.tidyBins_ply (s : State) (core : Nat) : (s.tidyBins core).ply = s.ply := rfl
theorem State.tidyBins_plies (s : State) (core : Nat) : (s.tidyBins core).plies = s.plies := rfl

theorem State.setBin_scopeOf (s : State) (core : Nat) (b : Bin) (ts : List Task) (n : Nat) (c : BitVec 24) :
    (s.setBin core b ts).scopeOf n c = s.scopeOf n c := rfl

theorem State.setBin_ptime (s : State) (core : Nat) (b : Bin) (ts : List Task) : (s.setBin core b ts).ptime = s.ptime := rfl

section
variable {s : State} {core : Nat} {b : Bin} {w : Word} {c : BitVec 24} {y : Scope}

theorem State.tryBin_of_fault {x : State} (hx : s.tryBin core b = some x) (hne : layTasks 0 none (s.liveTasks core b) ≠ [])
    (hh : s.headerFor core b.tenant b.entry = .error w) :
    x = (State.formationFault ((s.deadTasks core b).foldl (fun s t => s.discardTask t)
      (s.setBin core b ((s.liveTasks core b).drop ((layTasks 0 none (s.liveTasks core b)).map (·.2)).length)))
      core b.tenant b.entry ((layTasks 0 none (s.liveTasks core b)).map (·.2)) w).tidyBins core := by
  unfold State.tryBin at hx
  dsimp only at hx
  split at hx
  · cases hx
  · split at hx
    · next hempty => exact absurd (List.map_eq_nil_iff.mp (List.isEmpty_iff.mp hempty)) hne
    · rw [hh] at hx
      exact (Option.some.inj hx).symm

theorem faultedFormation (hn : NextBin s core b) (hp : PlainBin s core b) (hh : s.headerFor core b.tenant b.entry = .error w)
    (hc : ∀ x ∈ b.tasks, x.scope = c) (ht : ∀ x ∈ b.tasks, x.tenant = b.tenant) (hy : s.scopeOf b.tenant c = some y)
    (ho : y.state = .opened) : Answers (.plyFormation core) s fun t => t.ply = s.ply ∧ t.plies = s.plies ∧ t.mem = s.mem ∧
      t.scopeOf b.tenant c = some { y with
        state := .faulted, cause := w, tcancel := s.ptime, live := y.live - (b.tasks.take 96).length
        ended := y.ended + (b.tasks.take 96).length } := by
  obtain ⟨x, hx, hexec⟩ := exec_plyFormation hn
  obtain ⟨hlive, hdead⟩ := State.liveTasks_plain hp
  obtain ⟨-, -, -, hne⟩ := hn
  obtain ⟨hplain, -⟩ := hp
  have hplaced : layTasks 0 none (s.liveTasks core b) = inLanes 0 (b.tasks.take 96) := by
    rw [hlive, layTasks_plain (fun t ht => (hplain t ht).2.1)]
  have htake : b.tasks.take 96 ≠ [] := fun he => by
    obtain he | he := List.take_eq_nil_iff.mp he
    · exact absurd he (by decide)
    · exact hne he
  have hfault := State.tryBin_of_fault hx (by rw [hplaced]; exact inLanes_ne_nil htake) hh
  rw [hplaced, inLanes_tasks, hdead, List.foldl_nil] at hfault
  obtain ⟨hply, hplies⟩ := State.formationFault_frame
    (s.setBin core b ((s.liveTasks core b).drop (b.tasks.take 96).length)) core b.tenant b.entry (b.tasks.take 96) w
  refine ⟨x, hexec, ?_, ?_, plyFormation_mem hexec, ?_⟩
  · rw [hfault, State.tidyBins_ply]
    exact hply
  · rw [hfault, State.tidyBins_plies]
    exact hplies
  · have hlist (t : Task) (hm : t ∈ b.tasks.take 96) : t.tenant = b.tenant ∧ t.scope = c ∧ t.commit = none ∧ t.helper = false := by
      have hm := List.mem_of_mem_take hm
      obtain ⟨hhelper, -, hcommit⟩ := hplain t hm
      exact ⟨ht t hm, hc t hm, hcommit, hhelper⟩
    have hset := (State.setBin_scopeOf s core b ((s.liveTasks core b).drop (b.tasks.take 96).length) b.tenant c).trans hy
    have hscope := State.formationFault_scopeOf (core := core) (entry := b.entry) (w := w) hlist htake hset ho
    rw [State.setBin_ptime] at hscope
    rw [hfault, State.tidyBins_scopeOf]
    exact hscope

end

end Sys2Proof.Machine

/-! Launched plies that end with their scope (R368), saved plies that return (R248), and the plies that Clock marks (R371). -/
namespace Sys2Proof.Machine
open Sys2Proof.Claim

/-! ## Firings that move on (R360, R368) -/

/-- Only firings and the state of the tenants' queues changed. -/
def OnlyFirings (s t : State) : Prop := t = { s with firings := t.firings, tenants := t.tenants }

theorem OnlyFirings.trans {s t u : State} (h₁ : OnlyFirings s t) (h₂ : OnlyFirings t u) : OnlyFirings s u := by
  unfold OnlyFirings at *
  rw [h₁] at h₂
  exact h₂

theorem State.settleFiring_onlyFirings (s : State) (id : Nat) : OnlyFirings s (s.settleFiring id) := by
  unfold State.settleFiring
  split
  · rfl
  · split
    · dsimp only
      split
      · rfl
      · rfl
    · rfl

theorem State.advanceFiring_onlyFirings (s : State) (id n running : Nat) : OnlyFirings s (s.advanceFiring id n running) := by
  unfold State.advanceFiring
  split
  · rfl
  · dsimp only
    refine OnlyFirings.trans ?_ (State.settleFiring_onlyFirings ..)
    split
    · split
      · rfl
      · rfl
    · rfl

section
variable {s : State} {core : Nat} {f : Firing}

theorem launchDropped (hf : s.firings.find? (fun x => x.id == f.id) = some f) (hn : f.next < f.total)
    (hc : s.scopeCancelled f.tenant f.record.scope = true) : Answers (.gangFormation core f.id) s fun t => SameMemory s t ∧
      t.ply = s.ply ∧ t.plies = s.plies ∧ t.scopeOf f.tenant f.record.scope =
        (s.scopeOf f.tenant f.record.scope).map fun x =>
          let n := (f.total - f.next) * f.record.lanes
          { x with live := x.live - n, ended := x.ended + n } := by
  have hexec : exec (.gangFormation core f.id) s = .next (s.dropFiring f) := by
    show execGangFormation core f.id s = _
    unfold execGangFormation State.formGang
    rw [hf]
    dsimp only
    rw [if_neg (Nat.not_le.mpr hn), if_pos hc]
    rfl
  have hframe : OnlyFirings (s.modScope f.tenant f.record.scope fun c => { c with
      live := c.live - (f.total - f.next) * f.record.lanes, ended := c.ended + (f.total - f.next) * f.record.lanes })
      (s.dropFiring f) := State.advanceFiring_onlyFirings ..
  unfold OnlyFirings at hframe
  refine ⟨_, hexec, ?_, ?_, ?_, ?_⟩
  · rw [hframe]
    exact SameMemory.of_eq rfl rfl rfl rfl
  · rw [hframe]
    rfl
  · rw [hframe]
    rfl
  · have hscopes : (s.dropFiring f).scopeOf f.tenant f.record.scope = (s.modScope f.tenant f.record.scope fun c => { c with
        live := c.live - (f.total - f.next) * f.record.lanes
        ended := c.ended + (f.total - f.next) * f.record.lanes }).scopeOf f.tenant f.record.scope := by
      rw [hframe]
      rfl
    rw [hscopes, State.modScope_scopeOf]
    · simp only [true_and, if_true]
    · exact fun _ => ⟨rfl, rfl⟩

end

/-! ## Restores (R248, R249) -/

theorem State.withSeq_readVirt (s : State) (n core tenant : Nat) (va : DWord) (k : Nat) :
    State.readVirt { s with seq := n } core tenant va k = s.readVirt core tenant va k := by
  have hrange : State.range { s with seq := n } tenant .read va k = s.range tenant .read va k :=
    SameTables.range_eq ⟨rfl, rfl, rfl, rfl, rfl, rfl, fun _ => rfl⟩ ..
  unfold State.readVirt
  rw [hrange]
  rfl

section
variable {s : State} {v : Saved}

/-- A region that holds what was saved is taken as it is. -/
theorem State.restoredRegions_of_kept (n : Nat) (h : ∀ r ∈ v.image,
      s.readVirt v.ply.core v.ply.tenant (v.ply.ssave + BitVec.ofNat 64 r.1) r.2.length = .ok r.2) :
    State.restoredRegions { s with seq := n } v = v.image.map fun r => (r.1, r.2, r.2) := by
  unfold State.restoredRegions
  refine List.map_congr_left fun r hr => ?_
  dsimp only
  rw [State.withSeq_readVirt, h r hr]
  dsimp only
  unfold State.mixRegion
  rw [if_pos (beq_self_eq_true _)]

theorem State.restoredPly_of_kept (n : Nat) (h : ∀ r ∈ v.image,
      s.readVirt v.ply.core v.ply.tenant (v.ply.ssave + BitVec.ofNat 64 r.1) r.2.length = .ok r.2) (hw : v.atWait = false)
    (core pipe age base charge : Nat) : State.restoredPly { s with seq := n } v core pipe age base charge = { v.ply with
      core := core, pipe := pipe, age := age, windowBase := base, charge := charge, stxOld := []
      path0 := { v.ply.path0 with since := s.now }, path1 := { v.ply.path1 with since := s.now } } := by
  have hload : (v.image.map fun r => (r.1, r.2, r.2)).foldl (fun (p : Ply) (r : Nat × List Byte × List Byte) =>
      if r.2.1 == r.2.2 then p else p.loadRegion false r.1 r.2.1 r.2.2) v.ply = v.ply := by
    rw [List.foldl_map]
    exact List.foldlRecOn (motive := fun p => p = v.ply) _ _ rfl fun p hp r _ => by
      rw [if_pos (beq_self_eq_true _)]
      exact hp
  unfold State.restoredPly
  rw [State.restoredRegions_of_kept n h]
  dsimp only
  rw [hw, hload]
  rfl

theorem plyRestored {core i pipe base charge : Nat} (hn : s.nextPlacing core = some (.restore i)) (hv : s.saved[i]? = some v)
    (hneeds : s.restoreNeeds v core true = some (pipe, base, charge)) (hw : v.atWait = false) (h : ∀ r ∈ v.image,
      s.readVirt v.ply.core v.ply.tenant (v.ply.ssave + BitVec.ofNat 64 r.1) r.2.length = .ok r.2) :
    Answers (.plyRestore core i) s fun t => t.ply = s.ply ∧ t.mem = s.mem ∧
      t.saved = s.saved.filter (fun x => x.ply.uid != v.ply.uid) ∧
      t.plies = s.plies ++ [{ v.ply with
        core := core, pipe := pipe, age := s.seq + 1, windowBase := base, charge := charge, stxOld := []
        path0 := { v.ply.path0 with since := s.now }, path1 := { v.ply.path1 with since := s.now } }] := by
  have hexec : exec (.plyRestore core i) s = .next (s.restore v core true) := by
    show execPlyRestore core i s = _
    unfold execPlyRestore State.restoreNext
    rw [hn, if_pos (beq_self_eq_true _), hv]
    rfl
  have hply := State.restoredPly_of_kept (s.seq + 1) h hw core pipe (s.seq + 1) base charge
  have hframe : (s.restore v core true).ply = s.ply ∧
      (s.restore v core true).saved = s.saved.filter (fun x => x.ply.uid != v.ply.uid) ∧
      (s.restore v core true).plies = s.plies ++ [State.restoredPly { s with seq := s.seq + 1 } v core pipe (s.seq + 1) base charge] := by
    unfold State.restore
    rw [hneeds]
    exact ⟨rfl, rfl, rfl⟩
  obtain ⟨hsame, hsaved, hplies⟩ := hframe
  rw [hply] at hplies
  exact ⟨_, hexec, hsame, exec_mem (.plyRestore core i) s (fun _ => nofun) (fun _ _ _ => nofun) _ hexec, hsaved, hplies⟩

end

/-! ## Marks (R371) -/

/-- A ply with a mark, where it is among those that Clock marks. -/
def Ply.markedIn (q : Ply) (id : Nat) (us : List Nat) : Ply := if q.uid ∈ us then { q with marked := some id } else q

theorem Ply.markedIn_uid (q : Ply) (id : Nat) (us : List Nat) : (q.markedIn id us).uid = q.uid := by
  unfold Ply.markedIn
  split <;> rfl

theorem Ply.markedIn_cons (q : Ply) (id u : Nat) (us : List Nat) : (q.markedIn id [u]).markedIn id us = q.markedIn id (u :: us) := by
  unfold Ply.markedIn
  by_cases hu : q.uid = u <;> by_cases hus : q.uid ∈ us <;> simp [hu, hus]

/-- A state whose plies of some names are marked. -/
def State.markedIn (s : State) (id : Nat) (us : List Nat) : State :=
  { s with ply := s.ply.markedIn id us, plies := s.plies.map fun q => q.markedIn id us }

theorem State.modPly_marked {s : State} (h : ((s.ply :: s.plies).map (·.uid)).Nodup) (id u : Nat) :
    s.modPly u (fun q => { q with marked := some id }) = s.markedIn id [u] := by
  rw [List.map_cons, List.nodup_cons] at h
  obtain ⟨hply, -⟩ := h
  unfold State.modPly State.markedIn Ply.markedIn
  simp only [beq_iff_eq, List.mem_singleton]
  split
  · next hu =>
    have hplies : (s.plies.map fun q => if q.uid = u then { q with marked := some id } else q) = s.plies := by
      conv_rhs => rw [← List.map_id s.plies]
      refine List.map_congr_left fun q hq => if_neg fun he => hply ?_
      rw [hu, ← he]
      exact List.mem_map_of_mem hq
    rw [hplies]
  · rfl

theorem State.markedIn_uids (s : State) (id : Nat) (us : List Nat) :
    ((s.markedIn id us).ply :: (s.markedIn id us).plies).map (·.uid) = (s.ply :: s.plies).map (·.uid) := by
  unfold State.markedIn
  simp only [List.map_cons, Ply.markedIn_uid, List.map_map, Function.comp_def]

theorem State.markAll_eq {s : State} (h : ((s.ply :: s.plies).map (·.uid)).Nodup) (id : Nat) (ps : List Ply) :
    ps.foldl (fun s p => s.modPly p.uid fun q => { q with marked := some id }) s = s.markedIn id (ps.map (·.uid)) := by
  induction ps generalizing s with
  | nil =>
    unfold State.markedIn Ply.markedIn
    simp
  | cons p ps ih =>
    rw [List.foldl_cons, State.modPly_marked h, ih (by rw [State.markedIn_uids]; exact h)]
    unfold State.markedIn
    simp only [List.map_cons, Ply.markedIn_cons, List.map_map, Function.comp_def]

theorem mem_insertBy {α : Type} {lt : α → α → Bool} {x y : α} {l : List α} : y ∈ insertBy lt x l ↔ y = x ∨ y ∈ l := by
  induction l with
  | nil => simp [insertBy]
  | cons z l ih =>
    unfold insertBy
    split
    · simp
    · simp only [List.mem_cons, ih]
      tauto

theorem mem_sortBy {α : Type} {lt : α → α → Bool} {y : α} {l : List α} (h : y ∈ sortBy lt l) : y ∈ l := by
  have hfold (r : List α) : y ∈ l.foldl (fun r x => insertBy lt x r) r → y ∈ r ∨ y ∈ l := by
    clear h
    induction l generalizing r with
    | nil => exact Or.inl
    | cons x l ih =>
      intro hy
      obtain hy | hy := ih _ hy
      · obtain rfl | hy := mem_insertBy.mp hy
        · exact Or.inr List.mem_cons_self
        · exact Or.inl hy
      · exact Or.inr (List.mem_cons_of_mem _ hy)
  exact (hfold [] h).resolve_left List.not_mem_nil

theorem State.enough_mem {s : State} {core n : Nat} {h : Header} {gone rest l : List Ply} (he : s.enough core n h gone rest = some l) :
    ∀ p ∈ l, p ∈ gone ∨ p ∈ rest := by
  induction rest generalizing gone with
  | nil =>
    unfold State.enough at he
    split at he
    · cases he
      exact fun p hp => Or.inl hp
    · cases he
  | cons q rest ih =>
    unfold State.enough at he
    split at he
    · cases he
      exact fun p hp => Or.inl hp
    · intro p hp
      obtain hp | hp := ih he p hp
      · obtain hp | hp := List.mem_append.mp hp
        · exact Or.inl hp
        · exact Or.inr (List.mem_singleton.mp hp ▸ List.mem_cons_self)
      · exact Or.inr (List.mem_cons_of_mem _ hp)

/-- The plies that may be marked for a firing: unmarked plies of the core of a lower class, in no gang. -/
structure Markable (s : State) (f : Firing) (core : Nat) (p : Ply) : Prop where
  resident : p ∈ s.ply :: s.plies
  core : p.core = core
  unmarked : p.marked = none
  gangsize : p.gangsize = 1
  cls : s.launchClass f < p.cls

theorem State.toMark_markable {s : State} {f : Firing} {core : Nat} {ps : List Ply} (h : s.toMark f core = some ps) :
    ∀ p ∈ ps, Markable s f core p := by
  have henough : ∃ n hd, s.enough core n hd [] (sortBy (fun a b => decide (b.cls < a.cls) || (a.cls == b.cls && decide (b.age < a.age)))
      ((s.onCore core).filter fun p => decide (s.launchClass f < p.cls) && p.gangsize == 1 && p.marked.isNone)) = some ps := by
    unfold State.toMark at h
    dsimp only at h
    split at h
    · cases h
    · split at h
      · cases h
      · next hd _ =>
        refine ⟨f.record.gang, hd, ?_⟩
        split at h
        · cases h
        · exact h
  obtain ⟨n, hd, henough⟩ := henough
  intro p hp
  have hp := mem_sortBy ((State.enough_mem henough p hp).resolve_left List.not_mem_nil)
  obtain ⟨hcore, hmark⟩ := List.mem_filter.mp hp
  unfold State.onCore at hcore
  obtain ⟨hall, hcore⟩ := List.mem_filter.mp hcore
  simp only [Bool.and_eq_true, decide_eq_true_eq, beq_iff_eq, Option.isNone_iff_eq_none] at hmark hcore
  obtain ⟨⟨hcls, hsize⟩, hunmarked⟩ := hmark
  refine ⟨?_, hcore.1, hunmarked, hsize, hcls⟩
  unfold State.all at hall
  obtain hply | hply := List.mem_append.mp hall
  · split at hply
    · exact List.mem_singleton.mp hply ▸ List.mem_cons_self
    · cases hply
  · exact List.mem_cons_of_mem _ hply

/-- CLOCK_MARK marks plies that it may, or none. -/
theorem State.mark_eq {s : State} (hd : ((s.ply :: s.plies).map (·.uid)).Nodup) (core id : Nat) : ∃ ps : List Ply,
    s.mark core id = s.markedIn id (ps.map (·.uid)) ∧ ∀ p ∈ ps, ∃ f ∈ s.firings, f.id = id ∧ Markable s f core p := by
  have hnone : s = s.markedIn id (([] : List Ply).map (·.uid)) := State.markAll_eq hd id []
  unfold State.mark
  split
  · exact ⟨[], hnone, fun p hp => absurd hp List.not_mem_nil⟩
  · next f hf =>
    split
    · exact ⟨[], hnone, fun p hp => absurd hp List.not_mem_nil⟩
    · next ps hps =>
      have hid := List.find?_some hf
      refine ⟨ps, State.markAll_eq hd id ps, fun p hp => ⟨f, List.mem_of_find?_eq_some hf, beq_iff_eq.mp hid, ?_⟩⟩
      split at hps
      · cases hps
      · exact State.toMark_markable hps p hp

/-- A ply after CLOCK_MARK: as it was, or marked where it may be. -/
theorem Ply.markedIn_may {s : State} (hd : ((s.ply :: s.plies).map (·.uid)).Nodup) {core id : Nat} {ps : List Ply}
    (hps : ∀ p ∈ ps, ∃ f ∈ s.firings, f.id = id ∧ Markable s f core p) {p : Ply} (hp : p ∈ s.ply :: s.plies) :
    p.markedIn id (ps.map (·.uid)) = p ∨ p.markedIn id (ps.map (·.uid)) = { p with marked := some id } ∧ p.marked = none ∧
      p.gangsize = 1 ∧ p.core = core ∧ ∃ f ∈ s.firings, f.id = id ∧ s.launchClass f < p.cls := by
  unfold Ply.markedIn
  split
  · next hmem =>
    obtain ⟨q, hq, hqp⟩ := List.mem_map.mp hmem
    obtain ⟨f, hf, hid, hm⟩ := hps q hq
    obtain rfl : q = p := List.inj_on_of_nodup_map hd hm.resident hp hqp
    exact Or.inr ⟨rfl, hm.unmarked, hm.gangsize, hm.core, f, hf, hid, hm.cls⟩
  · exact Or.inl rfl

theorem clockMarks {s : State} (hd : ((s.ply :: s.plies).map (·.uid)).Nodup) (core id : Nat) :
    Answers (.clockMark core id) s fun t => t = { s with ply := t.ply, plies := t.plies } ∧ SameMemory s t ∧
      let may (p : Ply) (q : Ply) : Prop := q = p ∨ q = { p with marked := some id } ∧ p.marked = none ∧ p.gangsize = 1 ∧
        p.core = core ∧ ∃ f ∈ s.firings, f.id = id ∧ s.launchClass f < p.cls
      may s.ply t.ply ∧ t.plies.length = s.plies.length ∧
        ∀ (i : Nat) p q, s.plies[i]? = some p → t.plies[i]? = some q → may p q := by
  obtain ⟨ps, hmark, hps⟩ := State.mark_eq hd core id
  have hexec : exec (.clockMark core id) s = .next (s.markedIn id (ps.map (·.uid))) := by
    rw [← hmark]
    rfl
  refine ⟨_, hexec, rfl, SameMemory.of_eq rfl rfl rfl rfl, Ply.markedIn_may hd hps List.mem_cons_self, List.length_map _,
    fun i p q hp hq => ?_⟩
  have hq : (s.plies.map fun q => q.markedIn id (ps.map (·.uid)))[i]? = some q := hq
  rw [List.getElem?_map, hp] at hq
  rw [← Option.some.inj hq]
  exact Ply.markedIn_may hd hps (List.mem_cons_of_mem _ (List.mem_of_getElem? hp))

end Sys2Proof.Machine

/-! A launched gang forms (R245, R366, R367): member after member takes its pipe and its save area, all on one core. -/
namespace Sys2Proof.Machine
open Sys2Proof.Claim

/-! ## A pipe for every resident slot (R244) -/

theorem pipeLoads_le (l : List Ply) : (l.filter fun p => p.pipe == 0).length + (l.filter fun p => p.pipe == 1).length +
    (l.filter fun p => p.pipe == 2).length + (l.filter fun p => p.pipe == 3).length ≤ l.length := by
  induction l with
  | nil => exact Nat.le_refl 0
  | cons p l ih =>
    have hcons (k : Nat) : ((p :: l).filter fun q => q.pipe == k).length =
        (if p.pipe = k then 1 else 0) + (l.filter fun q => q.pipe == k).length := by
      rw [List.filter_cons]
      by_cases h : p.pipe = k
      · simp [h, Nat.add_comm]
      · simp [h]
    rw [hcons, hcons, hcons, hcons, List.length_cons]
    split <;> split <;> split <;> split <;> omega

/-- The search of R244 finds a number with the least load. -/
theorem foldl_least (f : Nat → Nat) (l : List Nat) (b : Nat) : f (l.foldl (fun b k => if f k < f b then k else b) b) ≤ f b ∧
    ∀ k ∈ l, f (l.foldl (fun b k => if f k < f b then k else b) b) ≤ f k := by
  induction l generalizing b with
  | nil => exact ⟨Nat.le_refl _, fun k hk => absurd hk List.not_mem_nil⟩
  | cons n l ih =>
    obtain ⟨hstart, hall⟩ := ih (if f n < f b then n else b)
    have hstep : f (if f n < f b then n else b) ≤ f b ∧ f (if f n < f b then n else b) ≤ f n := by
      split <;> omega
    rw [List.foldl_cons]
    refine ⟨hstart.trans hstep.1, fun k hk => ?_⟩
    obtain rfl | hk := List.mem_cons.mp hk
    · exact hstart.trans hstep.2
    · exact hall k hk

/-- A core with fewer than 16 resident plies has a pipe with fewer than four. -/
theorem State.pipeFor_isSome {s : State} {core : Nat} (h : (s.onCore core).length < 16) : (s.pipeFor core).isSome = true := by
  have hsum : s.pipeLoad core 0 + s.pipeLoad core 1 + s.pipeLoad core 2 + s.pipeLoad core 3 ≤ (s.onCore core).length :=
    pipeLoads_le (s.onCore core)
  obtain ⟨-, hleast⟩ := foldl_least (s.pipeLoad core) (List.range 4) 0
  unfold State.pipeFor
  generalize (List.range 4).foldl (fun b k => if s.pipeLoad core k < s.pipeLoad core b then k else b) 0 = best at hleast
  have h0 := hleast 0 (by decide)
  have h1 := hleast 1 (by decide)
  have h2 := hleast 2 (by decide)
  have h3 := hleast 3 (by decide)
  rw [if_pos (show s.pipeLoad core best < 4 by omega)]
  rfl

/-! ## The members of a gang (R366, R367) -/

/-- Whether the plies of a record form gangs: those of a core level (R366). -/
def Record.gangs (r : Record) : Bool := r.gang != 1 || r.levels.getLast?.any fun l => l.domain == 1

/-- What a formation fixes for member m of a firing's next gang. -/
def State.memberStart (s : State) (f : Firing) (core : Nat) (h : Header) (base sw charge m pipe : Nat) : Start :=
  let r := f.record
  { core := core, pipe := pipe, tenant := f.tenant, plyid := BitVec.ofNat 25 (f.next + m), entry := r.entry, header := h
    gang := if r.gangs then some (f.id * 2 ^ 32 + (if r.grouped then f.groupIndex else f.next / r.gang)) else none
    gangsize := r.gang, role := if r.gangs then m else 0, cls := s.launchClass f
    deadline := s.effective f, charge := charge, demand := r.demand.toNat, heat := r.heat.toNat, paint := false
    lanes := (List.range r.lanes).map fun i => ⟨i, r.arg, r.scope, true, { LaneInfo.empty with scope := r.scope }⟩
    firing := some f.id, group := if r.grouped then some (clusterOf core, sw) else none
    fixedCore := r.levels.any fun l => l.scope == 1, pointer := some f.args, base := base }

theorem State.formMember_eq {s : State} {core pipe : Nat} (hp : s.pipeFor core = some pipe) (f : Firing) (h : Header)
    (base sw charge m : Nat) : ∃ w, OnlyStores (s.withStart (s.memberStart f core h base sw charge m pipe)) w ∧
      ∃ cs, s.formMember f core h base sw charge m = { w with cores := cs } := by
  obtain ⟨w, hw, hform⟩ := s.formPly_eq (s.memberStart f core h base sw charge m pipe) none
  have hmember : s.formMember f core h base sw charge m =
      let x := s.formPly (s.memberStart f core h base sw charge m pipe) none
      if m == 0 then
        x.2.modCore core fun c => c.assignWindow ((s.memberStart f core h base sw charge m pipe).gang.getD x.1) base h.xbuf
      else x.2 := by
    unfold State.formMember
    rw [hp]
    rfl
  rw [hmember, hform]
  refine ⟨w, hw, ?_⟩
  dsimp only
  split
  · exact ⟨_, rfl⟩
  · exact ⟨w.cores, rfl⟩

theorem lays_launch (r : Record) : Lays ((List.range r.lanes).map fun i =>
      (⟨i, r.arg, r.scope, true, { LaneInfo.empty with scope := r.scope }⟩ : LaneStart))
    (List.replicate r.lanes (r.arg, r.scope, true)) where
  lane i l hl := by
    rw [List.getElem?_map] at hl
    by_cases hi : i < r.lanes
    · rw [List.getElem?_range hi] at hl
      rw [← Option.some.inj hl]
    · rw [List.getElem?_eq_none (by rw [List.length_range]; omega)] at hl
      cases hl
  tasks := by
    rw [List.map_map]
    refine (List.map_const' (l := List.range r.lanes) (b := (r.arg, r.scope, true))).trans ?_
    rw [List.length_range]

/-- Member m of the gang that a firing forms on a core. -/
structure Member (s : State) (f : Firing) (core : Nat) (h : Header) (base m : Nat) (p : Ply) : Prop where
  plyid : p.plyid = BitVec.ofNat 25 (f.next + m)
  gangsize : p.gangsize = BitVec.ofNat 5 f.record.gang
  cls : p.cls = s.launchClass f
  deadline : p.deadline = s.effective f
  role : p.role = BitVec.ofNat 16 (if f.record.gangs then m else 0)
  gang : f.record.gangs = true →
    p.gang = f.id * 2 ^ 32 + (if f.record.grouped then f.groupIndex else f.next / f.record.gang)
  windowBase : p.windowBase = base
  ssave : p.ssave = (s.saveAreas.drop m).headD 0
  resident : p.core = core ∧ p.management = false
  born : Born s p core f.tenant f.record.entry h f.args (List.replicate f.record.lanes (f.record.arg, f.record.scope, true))

/-- The first k members of a gang stand on the core. -/
structure GangStands (s : State) (f : Firing) (core : Nat) (h : Header) (base k : Nat) (u : State) : Prop where
  ply : u.ply = s.ply
  plies : ∃ ps, u.plies = s.plies ++ ps ∧ ps.length = k ∧ ∀ (m : Nat) p, ps[m]? = some p → Member s f core h base m p
  areas : u.saveAreas = s.saveAreas.drop k
  tenants : u.tenants = s.tenants
  ptime : u.ptime = s.ptime

section
variable {s u : State} {f : Firing} {core : Nat} {h : Header} {base k : Nat}

theorem State.launch_of_tenants (ht : u.tenants = s.tenants) (hp : u.ptime = s.ptime) (f : Firing) :
    u.effective f = s.effective f ∧ u.launchClass f = s.launchClass f := by
  have heff : u.effective f = s.effective f := by
    unfold State.effective State.tenant
    rw [ht]
  refine ⟨heff, ?_⟩
  unfold State.launchClass State.raised State.tenant State.now
  rw [heff, ht, hp]

theorem GangStands.onCore (hu : GangStands s f core h base k u) : (u.onCore core).length = (s.onCore core).length + k := by
  obtain ⟨ps, hplies, hlen, hmember⟩ := hu.plies
  have hall : ps.filter (fun p => p.core == core && !p.management) = ps := List.filter_eq_self.mpr fun p hp => by
    obtain ⟨m, hm⟩ := List.mem_iff_getElem?.mp hp
    obtain ⟨hcore, hman⟩ := (hmember m p hm).resident
    rw [hcore, hman]
    simp
  unfold State.onCore State.all
  rw [hu.ply, hplies, ← List.append_assoc, List.filter_append, List.length_append, hall, hlen]

/-- The next member forms. -/
theorem GangStands.next (hu : GangStands s f core h base k u) (hroom : (s.onCore core).length + k < 16) (sw charge : Nat) :
    GangStands s f core h base (k + 1) (u.formMember f core h base sw charge k) := by
  obtain ⟨pipe, hpipe⟩ := Option.isSome_iff_exists.mp (State.pipeFor_isSome (s := u) (core := core) (by rw [hu.onCore]; exact hroom))
  obtain ⟨w, hw, cs, hform⟩ := State.formMember_eq hpipe f h base sw charge k
  obtain ⟨ps, hplies, hlen, hmember⟩ := hu.plies
  obtain ⟨heffective, hclass⟩ := State.launch_of_tenants hu.tenants hu.ptime f
  have htvec : (u.tenant f.tenant).trapVec = (s.tenant f.tenant).trapVec := by
    unfold State.tenant
    rw [hu.tenants]
  have hborn := Start.born (t := u.memberStart f core h base sw charge k pipe) (s := s) (lays_launch f.record) htvec (u.seq + 1)
    (u.saveAreas.headD 0)
  have hnew : Member s f core h base k ((u.memberStart f core h base sw charge k pipe).ply u (u.seq + 1) (u.saveAreas.headD 0)) := by
    refine ⟨rfl, rfl, hclass, heffective, rfl, fun hg => ?_, rfl, ?_, ⟨rfl, rfl⟩, hborn⟩
    · show (State.memberStart u f core h base sw charge k pipe).gang.getD (u.seq + 1) = _
      unfold State.memberStart
      dsimp only
      rw [hg]
      rfl
    · show u.saveAreas.headD 0 = _
      rw [hu.areas]
  generalize u.memberStart f core h base sw charge k pipe = t at hw hform hnew
  unfold OnlyStores at hw
  rw [hform]
  refine ⟨?_, ⟨ps ++ [t.ply u (u.seq + 1) (u.saveAreas.headD 0)], ?_, ?_, fun m p hp => ?_⟩, ?_, ?_, ?_⟩
  · show w.ply = _
    rw [hw]
    exact hu.ply
  · show w.plies = _
    rw [hw, ← List.append_assoc, ← hplies]
    rfl
  · rw [List.length_append, hlen]
    rfl
  · by_cases hm : m < k
    · rw [List.getElem?_append_left (by omega)] at hp
      exact hmember m p hp
    · rw [List.getElem?_append_right (by omega), List.getElem?_singleton] at hp
      split at hp
      · next hzero =>
        obtain rfl : m = k := by omega
        rw [← Option.some.inj hp]
        exact hnew
      · cases hp
  · show w.saveAreas = _
    rw [hw]
    show u.saveAreas.drop 1 = _
    rw [hu.areas, List.drop_drop]
  · show w.tenants = _
    rw [hw]
    exact hu.tenants
  · show w.ptime = _
    rw [hw]
    exact hu.ptime

theorem GangStands.all (sw : Nat) (cs : List Nat) (hu : GangStands s f core h base k u)
    (hroom : (s.onCore core).length + k + cs.length ≤ 16) : GangStands s f core h base (k + cs.length)
      ((cs.zipIdx k).foldl (fun s (c, m) => s.formMember f core h base sw c m) u) := by
  induction cs generalizing k u with
  | nil => exact hu
  | cons c cs ih =>
    rw [List.length_cons] at hroom
    rw [List.zipIdx_cons, List.foldl_cons, List.length_cons, ← Nat.add_assoc, Nat.add_right_comm]
    exact ih (hu.next (by omega) sw c) (by omega)

end

theorem Vault.gangCharges_length {v : Vault} {d h n c a : Nat} {cs : List Nat} (hc : v.gangCharges d h n c a = some cs) :
    cs.length = n := by
  induction n generalizing c a cs with
  | zero =>
    cases hc
    rfl
  | succ n ih =>
    unfold Vault.gangCharges at hc
    dsimp only at hc
    split at hc
    · obtain ⟨l, hl, rfl⟩ := Option.map_eq_some_iff.mp hc
      rw [List.length_cons, ih hl]
    · cases hc

/-- A core that hosts a gang has a slot for each member (R245). -/
theorem State.hosts_room {s : State} {core n d heat base : Nat} {h : Header} {cs : List Nat}
    (hh : s.hosts core n h d heat = some (cs, base)) : cs.length = n ∧ (0 < n → (s.onCore core).length + n ≤ 16) := by
  unfold State.hosts at hh
  split at hh
  · cases hh
  · next hno =>
    simp only [Bool.or_eq_true, decide_eq_true_eq, not_or, Nat.not_lt] at hno
    obtain ⟨⟨⟨-, hslots⟩, -⟩, -⟩ := hno
    unfold State.freeSlots at hslots
    split at hh
    · next hcs _ =>
      cases hh
      exact ⟨Vault.gangCharges_length hcs, fun hpos => by omega⟩
    · cases hh

theorem State.unmark_of_none {s : State} {id : Nat} (h : ∀ p ∈ s.ply :: s.plies, p.marked ≠ some id) : s.unmark id = s := by
  have hid (p : Ply) (hp : p ∈ s.ply :: s.plies) : (if p.marked == some id then { p with marked := none } else p) = p :=
    if_neg (by simpa using h p hp)
  have hplies : (s.plies.map fun p => if p.marked == some id then { p with marked := none } else p) = s.plies := by
    conv_rhs => rw [← List.map_id s.plies]
    exact List.map_congr_left fun p hp => hid p (List.mem_cons_of_mem _ hp)
  unfold State.unmark
  dsimp only
  rw [hid s.ply List.mem_cons_self, hplies]

/-! ## The gang of a firing (R245, R366, R368) -/

/-- A record whose plies form no gangs forms one ply at a time (R366). -/
theorem Record.gang_of_not_gangs {r : Record} (h : r.gangs = false) : r.gang = 1 := by
  unfold Record.gangs at h
  simpa using (Bool.or_eq_false_iff.mp h).1

section
variable {s : State} {core : Nat} {f : Firing} {h : Header} {charges : List Nat} {base : Nat}

/-- A firing's gang forms where it is next: its members stand on the core, and the firing moves on. -/
theorem exec_gangFormation (hn : NextLaunch s core f) (hh : s.headerFor core f.tenant f.record.entry = .ok h)
    (hhosts : s.hosts core f.record.gang h f.record.demand.toNat f.record.heat.toNat = some (charges, base))
    (hpos : 0 < f.record.gang) (hm : ∀ p ∈ s.ply :: s.plies, p.marked ≠ some f.id) :
    ∃ u t, exec (.gangFormation core f.id) s = .next t ∧ GangStands s f core h base f.record.gang u ∧ OnlyFirings u t := by
  obtain ⟨hfind, hnext, hcancel, hplacing⟩ := hn
  obtain ⟨hlen, hroom⟩ := State.hosts_room hhosts
  have hexec : exec (.gangFormation core f.id) s = .next (s.formLaunch f core) := by
    show execGangFormation core f.id s = _
    unfold execGangFormation State.formGang
    rw [hfind]
    dsimp only
    rw [if_neg (Nat.not_le.mpr hnext), hcancel, if_neg Bool.false_ne_true, hplacing, if_pos (beq_self_eq_true _)]
    rfl
  have hunmark : (s.keepHeader core f.record.entry h).unmark f.id = s.keepHeader core f.record.entry h :=
    State.unmark_of_none (s := s.keepHeader core f.record.entry h) hm
  rw [hexec]
  unfold State.formLaunch
  dsimp only
  rw [hh]
  dsimp only
  rw [hhosts]
  dsimp only
  rw [hunmark]
  refine ⟨_, _, rfl, ?_, State.advanceFiring_onlyFirings ..⟩
  have hall := hroom hpos
  rw [← hlen] at hall ⊢
  have hstart (fs : List Firing) : GangStands s f core h base 0 { s.keepHeader core f.record.entry h with firings := fs } :=
    ⟨rfl, ⟨[], (List.append_nil _).symm, rfl, fun m p hp => by cases hp⟩, rfl, rfl, rfl⟩
  have hstands (fs : List Firing) (sw : Nat) := (hstart fs).all sw charges (by omega)
  simp only [Nat.zero_add] at hstands
  exact hstands _ _

theorem gangForms (hn : NextLaunch s core f) (hh : s.headerFor core f.tenant f.record.entry = .ok h)
    (hhosts : s.hosts core f.record.gang h f.record.demand.toNat f.record.heat.toNat = some (charges, base))
    (hpos : 0 < f.record.gang) (hm : ∀ p ∈ s.ply :: s.plies, p.marked ≠ some f.id) :
    Answers (.gangFormation core f.id) s fun t => t.ply = s.ply ∧ t.mem = s.mem ∧
      ∃ ps : List Ply, t.plies = s.plies ++ ps ∧ ps.length = f.record.gang ∧
        ∀ (m : Nat) p, ps[m]? = some p → p.plyid = BitVec.ofNat 25 (f.next + m) ∧ p.gangsize.toNat = f.record.gang % 32 ∧
          p.cls = s.launchClass f ∧ p.deadline = s.effective f ∧ p.role = BitVec.ofNat 16 m ∧
          (∀ q ∈ ps, q.gang = p.gang ∧ q.windowBase = p.windowBase) ∧ p.ssave = (s.saveAreas.drop m).headD 0 ∧
          Born s p core f.tenant f.record.entry h f.args (List.replicate f.record.lanes (f.record.arg, f.record.scope, true)) := by
  obtain ⟨u, t, hexec, hu, hframe⟩ := exec_gangFormation hn hh hhosts hpos hm
  obtain ⟨ps, hplies, hlen, hmember⟩ := hu.plies
  unfold OnlyFirings at hframe
  have hply : t.ply = s.ply := by
    rw [hframe]
    exact hu.ply
  have hplies : t.plies = s.plies ++ ps := by
    rw [hframe]
    exact hplies
  refine ⟨t, hexec, hply, exec_mem (.gangFormation core f.id) s (fun _ => nofun) (fun _ _ _ => nofun) t hexec, ps, hplies, hlen,
    fun m p hp => ?_⟩
  have hlt : m < f.record.gang := hlen ▸ (List.getElem?_eq_some_iff.mp hp).1
  have hself := hmember m p hp
  refine ⟨hself.plyid, by rw [hself.gangsize, BitVec.toNat_ofNat], hself.cls, hself.deadline, ?_, fun q hq => ?_,
    hself.ssave, hself.born⟩
  · rw [hself.role]
    cases hg : f.record.gangs with
    | true => rfl
    | false =>
      have hone := Record.gang_of_not_gangs hg
      rw [if_neg Bool.false_ne_true, show m = 0 by omega]
  · obtain ⟨n, hqn⟩ := List.mem_iff_getElem?.mp hq
    have hother := hmember n q hqn
    refine ⟨?_, hother.windowBase.trans hself.windowBase.symm⟩
    cases hg : f.record.gangs with
    | true => exact (hother.gang hg).trans (hself.gang hg).symm
    | false =>
      have hone := Record.gang_of_not_gangs hg
      have hltn : n < f.record.gang := hlen ▸ (List.getElem?_eq_some_iff.mp hqn).1
      have hsame : n = m := by omega
      rw [hsame, hp] at hqn
      rw [Option.some.inj hqn]

end

/-- Settles O48: a bin's tasks lie in the lanes of one new ply, or end with the fault of their header; a gang forms member by member
on the core that hosts it; a save area that holds what was saved restores the ply as it was; Clock's search gives only plies that it
may mark. -/
theorem formations : Obligations.Formations := by
  unfold Obligations.Formations
  refine ⟨fun core b h s hn hp hh _ => plainFormation hn hp hh, fun core b us h s hn hq hl hh _ => quadFormation hn hq hl hh,
    fun core b w c y s hn hp hh hc ht _ hy ho => faultedFormation hn hp hh hc ht hy ho,
    fun core f h charges base s hn hh _ hhosts hpos _ hm => gangForms hn hh hhosts hpos hm,
    fun core f s hf hn hc => launchDropped hf hn hc,
    fun core i v pipe base charge s hn hv hneeds hw h => plyRestored hn hv hneeds hw h,
    fun core id s hd => clockMarks hd core id⟩

end Sys2Proof.Machine

/-!
Integer results of a ply (R14 to R18, R117 to R136): the model's functions of words are those of the statements' tables, and each
instruction writes what its row of a table gives.
-/
namespace Sys2Proof.Machine
open Sys2Proof.Claim

/-! ## Truth values, minima and clamps -/

theorem ofBool_decide (p : Prop) [Decidable p] : ofBool (decide p) = truth p := by
  unfold ofBool truth
  by_cases h : p <;> simp [h]

theorem clamp_eq_clampTo {lo hi : Int} (h : lo ≤ hi) (i : Int) : clamp lo hi i = clampTo lo hi i := by
  unfold clamp clampTo
  split_ifs <;> omega

theorem minS_eq_leastS : minS = leastS := by
  funext x y
  unfold minS leastS slt
  by_cases h : x.toInt ≤ y.toInt
  · rw [if_pos h, if_neg (by simpa using h)]
  · rw [if_neg h, if_pos (by simpa using h)]

theorem minU_eq_leastU : minU = leastU := by
  funext x y
  unfold minU leastU ult
  by_cases h : x.toNat ≤ y.toNat
  · rw [if_pos h, if_neg (by simpa using h)]
  · rw [if_neg h, if_pos (by simpa using h)]

/-- The model takes the second operand where the first is less, the table where it is not greater: of equal ones, either. -/
theorem maxS_eq_greatestS : maxS = greatestS := by
  funext x y
  unfold maxS greatestS slt
  rcases lt_trichotomy x.toInt y.toInt with h | h | h
  · rw [if_pos h.le, if_pos (by simpa using h)]
  · rw [if_pos h.le, BitVec.eq_of_toInt_eq h, ite_self]
  · rw [if_neg h.not_ge, if_neg (by simpa using h.le)]

theorem maxU_eq_greatestU : maxU = greatestU := by
  funext x y
  unfold maxU greatestU ult
  rcases lt_trichotomy x.toNat y.toNat with h | h | h
  · rw [if_pos h.le, if_pos (by simpa using h)]
  · rw [if_pos h.le, BitVec.eq_of_toNat_eq h, ite_self]
  · rw [if_neg h.not_ge, if_neg (by simpa using h.le)]

/-! ## Quotients and rotates (R14, R15) -/

theorem divSigned_eq_quotientS : divSigned = quotientS := by
  funext x y
  simp only [divSigned, quotientS, beq_iff_eq]

theorem divUnsigned_eq_quotientU : divUnsigned = quotientU := by
  funext x y
  simp only [divUnsigned, quotientU, beq_iff_eq]

theorem remSigned_eq_remainder : remSigned = remainder := by
  funext x y
  simp only [remSigned, remainder, beq_iff_eq]

theorem remUnsigned_eq_remainderU : remUnsigned = remainderU := by
  funext x y
  simp only [remUnsigned, remainderU, beq_iff_eq]

theorem rol_eq_rotateLeft (x : Word) {c : Nat} (h : c < 32) : rol x c = x.rotateLeft c := by
  unfold rol
  rw [BitVec.rotateLeft_def, Nat.mod_eq_of_lt h]
  by_cases hc : c = 0
  · rw [hc, BitVec.ushiftRight_eq_zero (Nat.le_refl 32)]
    simp
  · rw [if_neg (by simpa using hc)]

/-! ## Counts of bits -/

theorem popBelow_eq_length {w : Nat} (x : BitVec w) (n : Nat) :
    popBelow x n = ((List.range n).filter fun k => x.getLsbD k).length := by
  induction n with
  | zero => rfl
  | succ n ih =>
    rw [popBelow, ih, List.range_succ, List.filter_append, List.length_append]
    by_cases h : x.getLsbD n = true <;> simp [h]

theorem popcount_eq_setBits : popcount = setBits := by
  funext x
  rw [popcount, setBits, popBelow_eq_length]

theorem leadingFrom_eq_length (x : Word) (n : Nat) :
    leadingFrom x n = ((List.range n).takeWhile fun k => !x.getLsbD (n - 1 - k)).length := by
  induction n with
  | zero => rfl
  | succ n ih =>
    have htail : (fun k => !x.getLsbD (n + 1 - 1 - k)) ∘ Nat.succ = fun k => !x.getLsbD (n - 1 - k) := by
      funext k
      rw [Function.comp, Nat.add_sub_cancel, Nat.succ_eq_add_one, Nat.add_comm k, Nat.sub_sub]
    rw [leadingFrom, ih, List.range_succ_eq_map, List.takeWhile_cons, List.takeWhile_map, htail]
    by_cases h : x.getLsbD n = true
    · simp [h]
    · simp [h, Nat.add_comm]

theorem clz_eq_leadingZeros : clz = leadingZeros := by
  funext x
  rw [clz, leadingZeros, leadingFrom_eq_length]

/-- Of the highest n bits, the search upwards skips those before the first set one. -/
theorem trailingFrom_eq_length (x : Word) {n : Nat} (hn : n ≤ 32) :
    trailingFrom x n = 32 - n + ((List.range n).takeWhile fun k => !x.getLsbD (32 - n + k)).length := by
  induction n with
  | zero => rfl
  | succ n ih =>
    have hhead : 32 - (n + 1) = 31 - n := by omega
    have htail : (fun k => !x.getLsbD (31 - n + k)) ∘ Nat.succ = fun k => !x.getLsbD (32 - n + k) := by
      funext k
      rw [Function.comp, Nat.succ_eq_add_one, show 31 - n + (k + 1) = 32 - n + k by omega]
    rw [trailingFrom, ih (by omega), hhead, List.range_succ_eq_map, List.takeWhile_cons, List.takeWhile_map, htail, Nat.add_zero]
    by_cases h : x.getLsbD (31 - n) = true
    · simp [h]
    · simp [h]
      omega

theorem ctz_eq_trailingZeros : ctz = trailingZeros := by
  funext x
  rw [ctz, trailingZeros, trailingFrom_eq_length x (Nat.le_refl 32)]
  simp

theorem getLsbD_bitReverse (x : Word) {j : Nat} (h : j < 32) : (bitReverse x).getLsbD j = x.getLsbD (31 - j) := by
  rw [bitReverse, BitVec.getLsbD_ofNat, testBit_bitsBelow]
  simp [h]

/-! ## Elements of a word (R18) -/

theorem elem_eq_element (w j : Nat) : elem w j = element w j := by
  funext x
  apply BitVec.eq_of_toNat_eq
  rw [elem, element, BitVec.toNat_ofNat, BitVec.extractLsb'_toNat, Nat.shiftRight_eq_div_pow]

theorem truncate_eq_element {w : Nat} (h : w ≤ 32) (x : Word) : x.truncate w = element w 0 x :=
  BitVec.setWidth_eq_extractLsb' h

theorem sexByte_eq : sexByte = fun x => (element 8 0 x).signExtend 32 := by
  funext x
  rw [sexByte, truncate_eq_element (by decide)]

theorem sexHalf_eq : sexHalf = fun x => (element 16 0 x).signExtend 32 := by
  funext x
  rw [sexHalf, truncate_eq_element (by decide)]

theorem unpackBytes_eq : unpackBytes = fun x => (element 8 1 x).signExtend 16 ++ (element 8 0 x).signExtend 16 := by
  funext x
  rw [unpackBytes, elem_eq_element, elem_eq_element]

theorem unpackHalf_eq : unpackHalf = fun x => (element 16 1 x).signExtend 32 := by
  funext x
  rw [unpackHalf, elem_eq_element]

/-- The low byte of the half word at j. -/
theorem truncate_element (j : Nat) (x : Word) : (element 16 j x).truncate 8 = x.extractLsb' (16 * j) 8 := by
  apply BitVec.eq_of_getLsbD_eq
  intro i hi
  have h : i < 16 := by omega
  simp [element, hi, h]

theorem packBytes_eq_packB : packBytes = packB := by
  funext sat x y
  simp only [packBytes, packB, elem_eq_element, truncate_element, clamp_eq_clampTo (show (-128 : Int) ≤ 127 by decide)]

theorem packHalves_eq_packH : packHalves = packH := by
  funext sat x y
  simp only [packHalves, packH, truncate_eq_element (show 16 ≤ 32 by decide),
    clamp_eq_clampTo (show (-32768 : Int) ≤ 32767 by decide)]
  rfl

theorem dot4_eq_dotS : dot4 = dotS := by
  funext sat x y t
  simp only [dot4, dotS, elem_eq_element, clamp_eq_clampTo (show (-2 ^ 31 : Int) ≤ 2 ^ 31 - 1 by decide), Int.add_assoc]
  rfl

theorem dot4U_eq_dotU : dot4U = dotU := by
  funext sat x y t
  simp only [dot4U, dotU, elem_eq_element, clamp_eq_clampTo (show (0 : Int) ≤ 2 ^ 32 - 1 by decide), Nat.add_assoc]
  rfl

/-! ## Saturating sums and differences (R17) -/

theorem addSat_eq : addSat = fun x y => i32 (clampTo (-2 ^ 31) (2 ^ 31 - 1) (x.toInt + y.toInt)) := by
  funext x y
  rw [addSat, clamp_eq_clampTo (by decide)]
  rfl

theorem subSat_eq : subSat = fun x y => i32 (clampTo (-2 ^ 31) (2 ^ 31 - 1) (x.toInt - y.toInt)) := by
  funext x y
  rw [subSat, clamp_eq_clampTo (by decide)]
  rfl

/-- An unsigned sum is never below 0, so that its clamp is a minimum. -/
theorem addSatU_eq : addSatU = fun x y => i32 (min (2 ^ 32 - 1) ((x.toNat : Int) + y.toNat)) := by
  funext x y
  have h : clampTo 0 (2 ^ 32 - 1) ((x.toNat : Int) + y.toNat) = min (2 ^ 32 - 1) ((x.toNat : Int) + y.toNat) :=
    max_eq_right (by omega)
  rw [addSatU, clamp_eq_clampTo (by decide), h]
  rfl

/-- An unsigned difference is never above the minuend, so that its clamp is a maximum. -/
theorem subSatU_eq : subSatU = fun x y => i32 (max 0 ((x.toNat : Int) - y.toNat)) := by
  funext x y
  have hx := x.isLt
  have h : min (2 ^ 32 - 1) ((x.toNat : Int) - y.toNat) = (x.toNat : Int) - y.toNat := min_eq_right (by omega)
  rw [subSatU, clamp_eq_clampTo (by decide), clampTo, h]
  rfl

/-! ## Immediates, hints and pairs -/

/-- A payload above an immediate of m bits. -/
theorem append_eq_ofNat {k m : Nat} (x : BitVec k) (i : BitVec m) : x ++ i = BitVec.ofNat (k + m) (x.toNat * 2 ^ m + i.toNat) := by
  apply BitVec.eq_of_toNat_eq
  have hlt : x.toNat * 2 ^ m + i.toNat < 2 ^ (k + m) := by
    rw [Nat.mul_comm, Nat.two_pow_add_eq_or_of_lt i.isLt, Nat.mul_comm, ← Nat.shiftLeft_eq, ← BitVec.toNat_append]
    exact (x ++ i).isLt
  rw [BitVec.toNat_append, BitVec.toNat_ofNat, Nat.mod_eq_of_lt hlt, Nat.shiftLeft_eq, Nat.mul_comm,
    Nat.two_pow_add_eq_or_of_lt i.isLt]

theorem State.imm11_eq (s : State) (i : BitVec 11) : s.imm11 i = immediate11 s i := by
  unfold State.imm11 immediate11
  cases s.issue.himm with
  | none => rfl
  | some h => exact (append_eq_ofNat _ i).trans (by rw [BitVec.truncate, BitVec.toNat_setWidth])

theorem State.imm12_eq (s : State) (i : BitVec 12) : s.imm12 i = immediate12 s i := by
  unfold State.imm12 immediate12
  cases s.issue.himm with
  | none => rfl
  | some h => exact (append_eq_ofNat _ i).trans (by rw [BitVec.truncate, BitVec.toNat_setWidth])

theorem State.hsat_eq (s : State) : s.hsat = saturates s := by
  unfold State.hsat saturates
  cases s.issue.hsat <;> rfl

theorem State.S64_eq (s : State) (a : BitVec 6) : s.S64 a = pairOf s a :=
  (append_eq_ofNat _ _).trans (congrArg (BitVec.ofNat 64) (Nat.add_comm ..))

end Sys2Proof.Machine

/-!
The scalar instructions (R118 to R126).
-/
namespace Sys2Proof.Machine
open Sys2Proof.Claim

/-! ## Completion -/

theorem Answers.of_sresult {i : Instr} {s : State} {d : BitVec 6} {w : Word} (h : exec i s = .next (s.sresult d w)) :
    Answers i s fun t => WritesScalar s t d w :=
  ⟨_, h, State.sresult_writes ..⟩

theorem Answers.of_sresult64 {i : Instr} {s : State} {d : BitVec 6} {x : DWord} (h : exec i s = .next (s.sresult64 d x)) :
    Answers i s fun t => WritesPair s t d x :=
  ⟨_, h, State.sresult64_writes ..⟩

/-! ## The tables, a row at a time

Rewriting turns each function of a table into the model's own; a row then says what the instruction's arm of exec says. -/

theorem exec_scalarPairs : ∀ p ∈ scalarPairs, ∀ d a b s, exec (p.1 d a b) s = .next (s.sresult d (p.2 (s.S a) (s.S b))) := by
  simp only [scalarPairs, List.forall_mem_cons, List.not_mem_nil, false_imp_iff, implies_true, and_true,
    ← divSigned_eq_quotientS, ← divUnsigned_eq_quotientU, ← remSigned_eq_remainder, ← remUnsigned_eq_remainderU,
    ← minS_eq_leastS, ← maxS_eq_greatestS, ← minU_eq_leastU, ← maxU_eq_greatestU,
    ← rol_eq_rotateLeft _ (Nat.mod_lt _ (show 0 < 32 by decide))]
  and_intros <;> exact fun _ _ _ _ => rfl

theorem exec_scalarCompares : ∀ p ∈ scalarCompares, ∀ d a b s,
    exec (p.1 d a b) s = .next (s.sresult d (p.2 (s.S a) (s.S b))) := by
  simp only [scalarCompares, List.forall_mem_cons, List.not_mem_nil, false_imp_iff, implies_true, and_true,
    ← ofBool_decide, ne_eq, decide_not]
  and_intros <;> exact fun _ _ _ _ => rfl

theorem exec_scalarSingles : ∀ p ∈ scalarSingles, ∀ d a s, exec (p.1 d a) s = .next (s.sresult d (p.2 (s.S a))) := by
  simp only [scalarSingles, List.forall_mem_cons, List.not_mem_nil, false_imp_iff, implies_true, and_true,
    ← clz_eq_leadingZeros, ← ctz_eq_trailingZeros, ← popcount_eq_setBits, ← sexByte_eq, ← sexHalf_eq]
  and_intros <;> exact fun _ _ _ => rfl

theorem exec_scalarImmediates : ∀ p ∈ scalarImmediates, ∀ d a i s,
    exec (p.1 d a i) s = .next (s.sresult d (p.2 (s.S a) (immediate11 s i))) := by
  simp only [scalarImmediates, List.forall_mem_cons, List.not_mem_nil, false_imp_iff, implies_true, and_true,
    ← ofBool_decide, ne_eq, decide_not, ← State.imm11_eq]
  and_intros <;> exact fun _ _ _ _ => rfl

theorem exec_sbrev (d a : BitVec 6) (s : State) : exec (.sbrev d a) s = .next (s.sresult d (bitReverse (s.S a))) := rfl

theorem exec_ssel (d a b : BitVec 6) (s : State) :
    exec (.ssel d a b) s = .next (s.sresult d (if s.S d ≠ 0 then s.S a else s.S b)) := by
  simp only [← bne_iff_ne]
  rfl

theorem exec_sli (d : BitVec 6) (i : BitVec 11) (s : State) : exec (.sli d i) s = .next (s.sresult d (immediate11 s i)) := by
  rw [← State.imm11_eq]
  rfl

/-! ## The pairs (R123) -/

theorem exec_sadd64 (d a b : BitVec 6) (s : State) :
    exec (.sadd64 d a b) s = .next (s.sresult64 d (pairOf s a + pairOf s b)) := by
  rw [← State.S64_eq, ← State.S64_eq]
  rfl

theorem exec_ssub64 (d a b : BitVec 6) (s : State) :
    exec (.ssub64 d a b) s = .next (s.sresult64 d (pairOf s a - pairOf s b)) := by
  rw [← State.S64_eq, ← State.S64_eq]
  rfl

theorem exec_sshl64 (d a b : BitVec 6) (s : State) :
    exec (.sshl64 d a b) s = .next (s.sresult64 d (pairOf s a <<< ((s.S b).toNat % 64))) := by
  rw [← State.S64_eq]
  rfl

theorem exec_sshr64 (d a b : BitVec 6) (s : State) :
    exec (.sshr64 d a b) s = .next (s.sresult64 d (pairOf s a >>> ((s.S b).toNat % 64))) := by
  rw [← State.S64_eq]
  rfl

theorem exec_smov64 (d a : BitVec 6) (s : State) : exec (.smov64 d a) s = .next (s.sresult64 d (pairOf s a)) := by
  rw [← State.S64_eq]
  rfl

/-! ## The statements -/

/-- Settles O1: an instruction writes the function of its row, which is the model's own. -/
theorem scalarAluResults : Obligations.ScalarAluResults := by
  unfold Obligations.ScalarAluResults
  refine ⟨fun p hp d a b s => .of_sresult (exec_scalarPairs p hp d a b s),
    fun p hp d a b s => .of_sresult (exec_scalarCompares p hp d a b s),
    fun p hp d a s => .of_sresult (exec_scalarSingles p hp d a s), fun d a s => ?_,
    fun d a b s => .of_sresult (exec_ssel d a b s)⟩
  exact ⟨_, exec_sbrev d a s, _, State.sresult_writes .., fun _ => getLsbD_bitReverse (s.S a)⟩

/-- Settles O2: a pair is read as one 64-bit value before either word of the result is written. -/
theorem scalarPairResults : Obligations.ScalarPairResults := by
  unfold Obligations.ScalarPairResults
  exact ⟨fun d a b s => .of_sresult64 (exec_sadd64 d a b s), fun d a b s => .of_sresult64 (exec_ssub64 d a b s),
    fun d a b s => .of_sresult64 (exec_sshl64 d a b s), fun d a b s => .of_sresult64 (exec_sshr64 d a b s),
    fun d a s => .of_sresult64 (exec_smov64 d a s)⟩

/-- Settles O3: the immediate is the field sign-extended or the field below a payload, and the row's function takes it. -/
theorem scalarImmediateResults : Obligations.ScalarImmediateResults := by
  unfold Obligations.ScalarImmediateResults
  exact ⟨fun p hp d a i s => .of_sresult (exec_scalarImmediates p hp d a i s), fun _ _ _ _ => .of_sresult rfl,
    fun _ _ _ _ => .of_sresult rfl, fun _ _ _ _ => .of_sresult rfl, fun d i s => .of_sresult (exec_sli d i s)⟩

end Sys2Proof.Machine

/-!
The vector instructions (R117, R127 to R134).
-/
namespace Sys2Proof.Machine
open Sys2Proof.Claim

/-! ## Completion and the checks of the fields -/

/-- A unit whose fields can be read writes its result and raises no flag (R117). -/
theorem Answers.of_vresult {i : Instr} {s : State} {d : BitVec 7} {cs : List (BitVec 7)} {w : BitVec 1} {f : Nat → Word}
    (h : exec i s = .next (s.checkV (d :: cs) (s.vresult d w f))) (hr : VectorReady s (d :: cs)) :
    Answers i s fun t => WritesVector s t d w f ∧ SameFlags s t := by
  rw [State.checkV_ready hr] at h
  have hd := (hr d List.mem_cons_self).1
  exact ⟨_, h, State.vresult_writes s hd w f, State.vresult_fflags ..⟩

theorem Ply.outOfRange_iff (p : Ply) (c : BitVec 7) : p.outOfRange c = true ↔ c.toNat ≤ 119 ∧ p.vregs.length ≤ c.toNat := by
  rw [Ply.outOfRange, Ply.vcount, Bool.and_eq_true, decide_eq_true_iff, decide_eq_true_iff]

theorem Ply.emptyLatch_iff (p : Ply) (c : BitVec 7) :
    p.emptyLatch c = true ↔ 120 ≤ c.toNat ∧ c.toNat ≤ 123 ∧ p.latches.length ≤ c.toNat - 120 := by
  rw [Ply.emptyLatch, Bool.and_eq_true, Bool.and_eq_true, decide_eq_true_iff, decide_eq_true_iff, decide_eq_true_iff, and_assoc]

theorem Answers.of_regrange {i : Instr} {s k : State} {cs : List (BitVec 7)} (h : exec i s = .next (s.checkV cs k))
    (hu : s.ply.supervisor = false) (hc : ∃ c ∈ cs, c.toNat ≤ 119 ∧ s.ply.vregs.length ≤ c.toNat) :
    Answers i s fun t => TrapsWithWord s t 0x07 0 := by
  obtain ⟨c, hmem, hc⟩ := hc
  have hany : cs.any s.ply.outOfRange = true := List.any_eq_true.mpr ⟨c, hmem, (Ply.outOfRange_iff ..).mpr hc⟩
  rw [State.checkV_regrange hany] at h
  exact ⟨_, h, State.raise_word hu 0x07 0 (by decide) (by decide) (by decide) (by decide) _⟩

theorem Answers.of_emptyLatch {i : Instr} {s k : State} {cs : List (BitVec 7)} (h : exec i s = .next (s.checkV cs k))
    (hu : s.ply.supervisor = false) (hr : ∀ c ∈ cs, c.toNat ≤ 119 → c.toNat < s.ply.vregs.length)
    (hc : ∃ c ∈ cs, 120 ≤ c.toNat ∧ c.toNat ≤ 123 ∧ s.ply.latches.length ≤ c.toNat - 120) :
    Answers i s fun t => TrapsWithWord s t 0x04 0 := by
  obtain ⟨c, hmem, hc⟩ := hc
  have hnone : cs.any s.ply.outOfRange = false := List.any_eq_false.mpr fun c hmem hout => by
    obtain ⟨hle, hlen⟩ := (Ply.outOfRange_iff ..).mp hout
    exact (hr c hmem hle).not_ge hlen
  have hany : cs.any s.ply.emptyLatch = true := List.any_eq_true.mpr ⟨c, hmem, (Ply.emptyLatch_iff ..).mpr hc⟩
  rw [State.checkV_latch hnone hany] at h
  exact ⟨_, h, State.raise_word hu 0x04 0 (by decide) (by decide) (by decide) (by decide) _⟩

/-! ## The tables, a row at a time -/

theorem exec_vectorPairs : ∀ p ∈ vectorPairs, ∀ d a b w s,
    exec (p.1 d a b w) s = .next (s.checkV [d, a, b] (s.vresult d w fun i => p.2 s ((s.V a).at i) ((s.V b).at i))) := by
  rw [vectorPairs, ← addSat_eq, ← subSat_eq, ← addSatU_eq, ← subSatU_eq]
  simp only [List.forall_mem_cons, List.not_mem_nil, false_imp_iff, implies_true, and_true, ← minS_eq_leastS,
    ← maxS_eq_greatestS, ← minU_eq_leastU, ← maxU_eq_greatestU, ← packBytes_eq_packB, ← packHalves_eq_packH, ← State.hsat_eq]
  and_intros <;> exact fun _ _ _ _ _ => rfl

theorem exec_vectorCompares : ∀ p ∈ vectorCompares, ∀ d a b w s,
    exec (p.1 d a b w) s = .next (s.checkV [d, a, b] (s.vresult d w fun i => p.2 ((s.V a).at i) ((s.V b).at i))) := by
  simp only [vectorCompares, List.forall_mem_cons, List.not_mem_nil, false_imp_iff, implies_true, and_true, ← ofBool_decide,
    ne_eq, decide_not]
  and_intros <;> exact fun _ _ _ _ _ => rfl

theorem exec_vectorSingles : ∀ p ∈ vectorSingles, ∀ d a w s,
    exec (p.1 d a w) s = .next (s.checkV [d, a] (s.vresult d w fun i => p.2 ((s.V a).at i))) := by
  simp only [vectorSingles, List.forall_mem_cons, List.not_mem_nil, false_imp_iff, implies_true, and_true,
    ← clz_eq_leadingZeros, ← popcount_eq_setBits, ← sexByte_eq, ← sexHalf_eq, ← unpackBytes_eq, ← unpackHalf_eq]
  and_intros <;> exact fun _ _ _ _ => rfl

theorem exec_vectorTriples : ∀ p ∈ vectorTriples, ∀ d a b w s, exec (p.1 d a b w) s =
    .next (s.checkV [d, a, b] (s.vresult d w fun i => p.2 s ((s.V a).at i) ((s.V b).at i) ((s.V d).at i))) := by
  simp only [vectorTriples, List.forall_mem_cons, List.not_mem_nil, false_imp_iff, implies_true, and_true, ← minS_eq_leastS,
    ← minU_eq_leastU, ← maxS_eq_greatestS, ← dot4_eq_dotS, ← dot4U_eq_dotU, ← State.hsat_eq, ← bne_iff_ne]
  and_intros <;> exact fun _ _ _ _ _ => rfl

theorem exec_vectorImmediates : ∀ p ∈ vectorImmediates, ∀ d a i s, exec (p.1 d a i) s =
    .next (s.checkV [d, a] (s.vresult d 0 fun k => p.2 ((s.V a).at k) (immediate12 s i))) := by
  simp only [vectorImmediates, List.forall_mem_cons, List.not_mem_nil, false_imp_iff, implies_true, and_true, ← State.imm12_eq]
  and_intros <;> exact fun _ _ _ _ => rfl

theorem exec_vectorShifts : ∀ p ∈ vectorShifts, ∀ d a (c : BitVec 5) s, exec (p.1 d a c) s =
    .next (s.checkV [d, a] (s.vresult d 0 fun k => p.2 ((s.V a).at k) c.toNat)) := by
  have hrol (x : Word) (c : BitVec 5) : x.rotateLeft c.toNat = rol x c.toNat := (rol_eq_rotateLeft x c.isLt).symm
  simp only [vectorShifts, List.forall_mem_cons, List.not_mem_nil, false_imp_iff, implies_true, and_true, hrol]
  and_intros <;> exact fun _ _ _ _ => rfl

theorem exec_vbrev (d a : BitVec 7) (w : BitVec 1) (s : State) : exec (.vbrev d a w) s =
    .next (s.checkV [d, a] (s.vresult d w fun i => bitReverse ((s.V a).at i))) := rfl

theorem exec_vlane (d a b : BitVec 7) (w : BitVec 1) (s : State) : exec (.vlane d a b w) s =
    .next (s.checkV [d, a, b] (s.vresult d w fun i => (s.V a).at i + BitVec.ofNat 32 i * (s.V b).at i)) := rfl

theorem exec_vli (d : BitVec 7) (i : BitVec 19) (s : State) :
    exec (.vli d i) s = .next (s.checkV [d] (s.vresult d 0 fun _ => i.signExtend 32)) := rfl

/-! ## The statements -/

/-- Settles O4: the checks let the row's result through, or raise the cause of the first field that fails them. -/
theorem vectorIntegerResults : Obligations.VectorIntegerResults := by
  unfold Obligations.VectorIntegerResults
  refine ⟨fun p hp d a b w s => .of_vresult (exec_vectorPairs p hp d a b w s),
    fun p hp d a b w s => .of_vresult (exec_vectorCompares p hp d a b w s),
    fun p hp d a w s => .of_vresult (exec_vectorSingles p hp d a w s), fun d a w s hr => ?_,
    fun d a b w s => .of_vresult (exec_vlane d a b w s),
    fun p hp d a b w s => .of_vresult (exec_vectorTriples p hp d a b w s), fun p hp d a b w s hu => ⟨?_, fun hin hc => ?_⟩⟩
  · obtain ⟨t, hexec, hwrites, hflags⟩ := Answers.of_vresult (exec_vbrev d a w s) hr
    exact ⟨t, hexec, _, hwrites, hflags, fun i _ => getLsbD_bitReverse ((s.V a).at i)⟩
  · exact .of_regrange (exec_vectorPairs p hp d a b w s) hu
  · obtain ⟨c, hmem, hc⟩ := hc
    exact .of_emptyLatch (exec_vectorPairs p hp d a b w s) hu hin ⟨c, List.mem_cons_of_mem d hmem, hc⟩

/-- Settles O5: the second operand is the immediate, in every lane. -/
theorem vectorImmediateResults : Obligations.VectorImmediateResults := by
  unfold Obligations.VectorImmediateResults
  exact ⟨fun p hp d a i s => .of_vresult (exec_vectorImmediates p hp d a i s),
    fun p hp d a c s => .of_vresult (exec_vectorShifts p hp d a c s), fun d i s => .of_vresult (exec_vli d i s)⟩

end Sys2Proof.Machine

/-!
The moves between scalars, vectors and masks (R135, R136).
-/
namespace Sys2Proof.Machine
open Sys2Proof.Claim

/-! ## Lanes and results -/

theorem Lanes.at_of_le (v : Lanes) {i : Nat} (h : 96 ≤ i) : v.at i = 0 :=
  dif_neg (Nat.not_lt.mpr h)

theorem Lanes.ext_at {v u : Lanes} (h : ∀ i, i < 96 → v.at i = u.at i) : v = u := by
  refine Vector.ext fun i hi => ?_
  simpa [Lanes.at, hi] using h i hi

/-- A result depends on the active lanes only. -/
theorem State.vresult_congr (s : State) (d : BitVec 7) (w : BitVec 1) {f g : Nat → Word}
    (h : ∀ i, i < 96 → s.active.has i = true → f i = g i) : s.vresult d w f = s.vresult d w g := by
  have hmerged : s.merged d f = s.merged d g := Lanes.ext_at fun i hi => by
    rw [State.merged_at, State.merged_at, if_pos hi, if_pos hi]
    split
    · exact h i hi ‹_›
    · rfl
  rw [State.vresult, hmerged, State.vresult]

/-! ## Scalars written one after another (R75, R97, R98) -/

/-- t is s with scalars of the issuing path written. -/
structure WroteScalars (s t : State) : Prop where
  only : t = { s with ply := t.ply }
  slot : t.ply.slot = s.ply.slot
  ply : t.ply = { s.ply with sregs := t.ply.sregs, path0 := t.ply.path0, path1 := t.ply.path1 }
  path : t.ply.path s.ply.slot = { s.path with active := (t.ply.path s.ply.slot).active }
  other : t.ply.path s.ply.other = s.ply.path s.ply.other

theorem WroteScalars.refl (s : State) : WroteScalars s s := ⟨rfl, rfl, rfl, rfl, rfl⟩

theorem WroteScalars.setS {s t : State} (h : WroteScalars s t) (d : BitVec 6) (w : Word) : WroteScalars s (t.setS d w) := by
  have hother : t.ply.other = s.ply.other := by rw [Ply.other, h.slot, Ply.other]
  have hply : (t.setS d w).ply = t.ply.putS s.ply.slot d w := by rw [State.setS_ply, h.slot]
  refine ⟨?_, ?_, ?_, ?_, ?_⟩
  · rw [State.setS, h.only]
  · rw [hply, Ply.putS_slot, h.slot]
  · rw [hply, Ply.putS_frame]
    generalize (t.ply.putS s.ply.slot d w).sregs = x
    generalize (t.ply.putS s.ply.slot d w).path0 = y
    generalize (t.ply.putS s.ply.slot d w).path1 = z
    rw [h.ply]
  · rw [hply, Ply.putS_path, h.path]
  · have hput := Ply.putS_other t.ply d w
    rw [hother, h.slot, h.other] at hput
    rw [hply, hput]

theorem WroteScalars.frame {s t : State} (h : WroteScalars s t) : ScalarFrame s t.done := by
  have hframe := ScalarFrame.of_ply h.slot h.ply h.path h.other
  rwa [← h.only] at hframe

theorem WroteScalars.member {s t : State} (h : WroteScalars s t) : t.path.member = s.path.member := by
  have hpath : t.path = t.ply.path s.ply.slot := by rw [State.path, Ply.cur, h.slot]
  rw [hpath, h.path]

theorem State.S_zero (s : State) : s.S 0 = 0 := rfl

/-- A further write is seen in its own register alone, as if it had come first. -/
theorem WroteScalars.setS_S {s t : State} (h : WroteScalars s t) (d : BitVec 6) (w : Word) (r : BitVec 6) :
    (t.setS d w).S r = if r = d then s.afterWrite d w r else t.S r := by
  rw [State.setS_S, State.afterWrite, State.afterWrite, h.member]
  by_cases hr : r = d
  · rw [if_pos hr]
    by_cases hd : d = 0
    · rw [if_neg fun h => h.2 hd, if_neg fun h => h.2 hd, hr, hd, State.S_zero, State.S_zero]
    · have hw : r = d ∧ d ≠ 0 := ⟨hr, hd⟩
      rw [if_pos hw, if_pos hw]
  · rw [if_neg hr, if_neg fun h => hr h.1]

theorem State.setTriple_wrote (s : State) (d : BitVec 6) (m : Mask) : WroteScalars s (s.setTriple d m) :=
  (((WroteScalars.refl s).setS ..).setS ..).setS ..

theorem State.setTriple_S (s : State) (d : BitVec 6) (m : Mask) (r : BitVec 6) : (s.setTriple d m).S r =
    if r = d + 2 then s.afterWrite (d + 2) (Mask.word m 2) r
    else if r = d + 1 then s.afterWrite (d + 1) (Mask.word m 1) r
    else s.afterWrite d (Mask.word m 0) r := by
  have h0 : WroteScalars s (s.setS d (Mask.word m 0)) := (WroteScalars.refl s).setS ..
  have h1 := h0.setS (d + 1) (Mask.word m 1)
  rw [State.setTriple, h1.setS_S, h0.setS_S, State.setS_S]

/-! ## Masks in triples (R97) -/

theorem Mask.getLsbD_word (m : Mask) (k : Nat) {i : Nat} (h : i < 32) : (Mask.word m k).getLsbD i = m.has (32 * k + i) := by
  rw [Mask.has_eq_word, show (32 * k + i) / 32 = k by omega, show (32 * k + i) % 32 = i by omega]

/-- A mask whose bits are those of f is written into the triple, and the unit completes. -/
theorem State.setTriple_writes (s : State) (d : BitVec 6) {m : Mask} {f : Nat → Bool} (h : ∀ i, i < 96 → m.has i = f i) :
    WritesMask s (s.setTriple d m).done d f := by
  refine ⟨(s.setTriple_wrote d m).frame, Mask.word m, fun k hk i hi => ?_, fun r => ?_⟩
  · rw [Mask.getLsbD_word m k hi, h _ (by omega)]
  · rw [State.done_S, State.setTriple_S]

theorem State.triple_has (s : State) (a : BitVec 6) {i : Nat} (h : i < 96) : (s.triple a).has i = s.maskBit a i := by
  rw [Mask.has_eq_word, State.maskBit, State.triple]
  obtain hk | hk | hk : i / 32 = 0 ∨ i / 32 = 1 ∨ i / 32 = 2 := by omega
  · rw [hk, Mask.ofWords_word0, BitVec.add_zero]
  · rw [hk, Mask.ofWords_word1]
    rfl
  · rw [hk, Mask.ofWords_word2]
    rfl

theorem State.triple_lanes (s : State) (a : BitVec 6) : (s.triple a).lanes = (List.range 96).filter fun i => s.maskBit a i :=
  List.filter_congr fun _ hi => State.triple_has s a (List.mem_range.mp hi)

/-- A mask instruction works on its operands lane by lane. -/
theorem exec_maskPairs : ∀ p ∈ maskPairs, ∃ f : Mask → Mask → Mask,
    (∀ x y i, i < 96 → (f x y).has i = p.2 (x.has i) (y.has i)) ∧
    ∀ d a b s, exec (p.1 d a b) s = .next (s.setTriple d (f (s.triple a) (s.triple b))).done := by
  simp only [maskPairs, List.forall_mem_cons, List.not_mem_nil, false_imp_iff, implies_true, and_true]
  refine ⟨⟨(· &&& ·), fun x y i _ => BitVec.getLsbD_and, fun _ _ _ _ => rfl⟩,
    ⟨(· ||| ·), fun x y i _ => BitVec.getLsbD_or, fun _ _ _ _ => rfl⟩,
    ⟨(· ^^^ ·), fun x y i _ => BitVec.getLsbD_xor, fun _ _ _ _ => rfl⟩,
    ⟨(· &&& ~~~·), fun x y i hi => ?_, fun _ _ _ _ => rfl⟩⟩
  simp [Mask.has, hi]

/-! ## The moves -/

theorem exec_vbcast (d : BitVec 7) (a : BitVec 6) (w : BitVec 1) (s : State) :
    exec (.vbcast d a w) s = .next (s.checkV [d] (s.vresult d w fun _ => s.S a)) := rfl

theorem exec_vextr (d : BitVec 6) (a : BitVec 7) (b : BitVec 6) (s : State) : exec (.vextr d a b) s =
    .next (s.checkV [a] (s.sresult d (if (s.S b).toNat < 96 then (s.V a).at (s.S b).toNat else 0))) := by
  have h : (s.V a).at (s.S b).toNat = if (s.S b).toNat < 96 then (s.V a).at (s.S b).toNat else 0 := by
    split
    · rfl
    · exact Lanes.at_of_le _ (Nat.not_lt.mp ‹_›)
  rw [← h]
  rfl

/-- The value that VINS makes of the destination: its old value, with the lane replaced where that lane is active. -/
theorem State.merged_insert (s : State) (d : BitVec 7) (k : Nat) (x : Word) :
    (if s.active.has k then (s.V d).put k x else s.V d) = s.merged d fun i => if i = k then x else (s.V d).at i := by
  refine Lanes.ext_at fun i hi => ?_
  rw [State.merged_at, if_pos hi]
  by_cases hik : i = k
  · subst hik
    by_cases ha : s.active.has i = true <;> simp [ha, hi]
  · by_cases ha : s.active.has k = true <;> simp [ha, hik]

theorem exec_vins (d : BitVec 7) (a b : BitVec 6) (w : BitVec 1) (s : State) : exec (.vins d a b w) s =
    .next (s.checkV [d] (s.vresult d w fun i => if i = (s.S b).toNat then s.S a else (s.V d).at i)) := by
  rw [State.vresult, ← State.merged_insert]
  rfl

theorem exec_mfromv (d : BitVec 6) (a : BitVec 7) (s : State) : exec (.mfromv d a) s =
    .next (s.checkV [a] (s.setTriple d (maskOf fun i => s.active.has i && (s.V a).at i != 0)).done) := rfl

theorem exec_mtov (d : BitVec 7) (a : BitVec 6) (w : BitVec 1) (s : State) :
    exec (.mtov d a w) s = .next (s.checkV [d] (s.vresult d w fun i => if s.maskBit a i then 1 else 0)) := by
  have h : (s.vresult d w fun i => ofBool ((s.triple a).has i)) = s.vresult d w fun i => if s.maskBit a i then 1 else 0 :=
    State.vresult_congr s d w fun i hi _ => by rw [State.triple_has s a hi, ofBool]
  rw [← h]
  rfl

theorem exec_mpopc (d a : BitVec 6) (s : State) : exec (.mpopc d a) s =
    .next (s.sresult d (BitVec.ofNat 32 ((List.range 96).filter fun i => s.maskBit a i).length)) := by
  have h : popBelow (s.triple a) 96 = (s.triple a).lanes.length := popBelow_eq_length ..
  rw [← State.triple_lanes, ← h]
  rfl

theorem exec_mffs (d a : BitVec 6) (s : State) : exec (.mffs d a) s =
    .next (s.sresult d (BitVec.ofNat 32 (((List.range 96).find? fun i => s.maskBit a i).getD 96))) := by
  rw [← List.head?_filter, ← State.triple_lanes, ← List.headD_eq_head?_getD]
  rfl

/-! ## The statement -/

/-- Settles O6: each move's result is one that the units of R117 to R119 write, or a mask that is written word by word. -/
theorem moveResults : Obligations.MoveResults := by
  unfold Obligations.MoveResults
  refine ⟨fun d a w s => .of_vresult (exec_vbcast d a w s), fun d a b s hr => .of_sresult ?_,
    fun d a b w s => .of_vresult (exec_vins d a b w s), fun d a s hr => ?_, fun d a w s => .of_vresult (exec_mtov d a w s),
    fun d a s => .of_sresult (exec_mpopc d a s), fun d a s => .of_sresult (exec_mffs d a s), fun p hp d a b s => ?_⟩
  · rw [exec_vextr, State.checkV_ready hr]
  · refine ⟨_, exec_mfromv d a s, ?_⟩
    rw [State.checkV_ready hr]
    refine State.setTriple_writes s d fun i hi => ?_
    rw [maskOf_has, decide_eq_true hi, Bool.true_and, bne, decide_not]
    rfl
  · obtain ⟨f, hf, hexec⟩ := exec_maskPairs p hp
    refine ⟨_, hexec d a b s, State.setTriple_writes s d fun i hi => ?_⟩
    rw [hf _ _ i hi, State.triple_has s a hi, State.triple_has s b hi]

end Sys2Proof.Machine

/-!
The float instructions and the conversions (R138 to R149): the unit that writes a float result, and the rows of the statements'
tables.
-/
namespace Sys2Proof.Machine
open Sys2Proof.Claim

/-! ## A float result (R138) -/

/-- A result depends on the active lanes only. -/
theorem State.merged_congr (s : State) (d : BitVec 7) {f g : Nat → Word}
    (h : ∀ i, i < 96 → s.active.has i = true → f i = g i) : s.merged d f = s.merged d g :=
  Lanes.ext_at fun i hi => by
    rw [State.merged_at, State.merged_at, if_pos hi, if_pos hi]
    split
    · exact h i hi ‹_›
    · rfl

/-- What a lane of a float instruction contributes: nothing where it is inactive. -/
def State.contribution (s : State) (f : Nat → Word × BitVec 6) (i : Nat) : Word × BitVec 6 :=
  ((Vector.ofFn fun j : Fin 96 => if s.active.has j.val then f j.val else (0, 0))[i]?).getD (0, 0)

theorem State.contribution_eq (s : State) (f : Nat → Word × BitVec 6) {i : Nat} (h : i < 96) :
    s.contribution f i = if s.active.has i then f i else (0, 0) := by
  rw [State.contribution, Vector.getElem?_ofFn, dif_pos h, Option.getD_some]

theorem State.fresult_eq (s : State) (d : BitVec 7) (nw : BitVec 1) (f : Nat → Word × BitVec 6) : s.fresult d nw f =
    State.done { s with ply := { s.ply.produce d nw (s.merged d fun i => (f i).1) with
      fflags := s.ply.fflags ||| (List.range 96).foldl (fun a i => a ||| (s.contribution f i).2) 0 } } := by
  have hmerged : (s.merged d fun i => (f i).1) = s.merged d fun i => (s.contribution f i).1 :=
    s.merged_congr d fun i hi ha => by rw [s.contribution_eq f hi, if_pos ha]
  rw [hmerged, ← Ply.produce_fflags s.ply d nw (s.merged d fun i => (s.contribution f i).1)]
  rfl

/-- A flag enters %fflags exactly if an active lane raises it. -/
theorem State.fresult_raises (s : State) (d : BitVec 7) (nw : BitVec 1) (f : Nat → Word × BitVec 6) :
    RaisesFlags s (s.fresult d nw f) fun i => (f i).2 := by
  intro k _
  rw [State.fresult_eq, State.done_ply, Ply.advance_fflags, BitVec.getLsbD_or, Bool.or_eq_true, getLsbD_foldl_or]
  have hlane : ∀ i, i < 96 → ((s.contribution f i).2.getLsbD k = true ↔
      s.active.has i = true ∧ (f i).2.getLsbD k = true) := fun i hi => by
    rw [s.contribution_eq f hi]
    by_cases ha : s.active.has i = true <;> simp [ha]
  have hzero : (0 : BitVec 6).getLsbD k ≠ true := by simp
  exact or_congr_right ((or_iff_right hzero).trans (exists_congr fun i => and_congr_right (hlane i)))

theorem State.fresult_writes (s : State) {d : BitVec 7} (hd : d.toNat ≤ 119 → d.toNat < s.ply.vregs.length) (nw : BitVec 1)
    (f : Nat → Word × BitVec 6) : WritesVector s (s.fresult d nw f) d nw fun i => (f i).1 := by
  rw [State.fresult_eq]
  exact State.produce_writes s hd nw _ _

/-- A unit whose fields can be read writes its float result and raises the flags of its active lanes (R138). -/
theorem Answers.of_fresult {i : Instr} {s : State} {d : BitVec 7} {cs : List (BitVec 7)} {w : BitVec 1}
    {f : Nat → Nat × BitVec 6} (h : exec i s = .next (s.checkV (d :: cs) (s.fresult d w fun k => lane32 (f k))))
    (hr : VectorReady s (d :: cs)) : Answers i s fun t => FloatResult s t d w f := by
  rw [State.checkV_ready hr] at h
  have hd := (hr d List.mem_cons_self).1
  exact ⟨_, h, State.fresult_writes s hd w _, State.fresult_raises s d w _⟩

/-- As `Answers.of_vresult`, with the flags first. -/
theorem Answers.of_vresult_flags {i : Instr} {s : State} {d : BitVec 7} {cs : List (BitVec 7)} {w : BitVec 1} {f : Nat → Word}
    (h : exec i s = .next (s.checkV (d :: cs) (s.vresult d w f))) (hr : VectorReady s (d :: cs)) :
    Answers i s fun t => SameFlags s t ∧ WritesVector s t d w f := by
  obtain ⟨t, hexec, hwrites, hflags⟩ := Answers.of_vresult h hr
  exact ⟨t, hexec, hflags, hwrites⟩

/-! ## Codes, signs and modes as the statements write them -/

theorem packed_eq_bothHalves : packed = bothHalves := rfl

theorem flip32_toNat (x : Word) : flip32 x.toNat = negated x.toNat := by
  have hx := x.isLt
  have h : x.toNat < 2 ^ 31 ↔ x.toNat / 2 ^ 31 % 2 = 0 := by omega
  simp only [flip32, negated, h]

theorem State.modeRne_eq (s : State) : s.modeRne = nearestMode s := by
  unfold State.modeRne nearestMode
  cases s.issue.hrnd <;> rfl

theorem sign_append_magnitude (x : Word) : x.extractLsb' 31 1 ++ x.extractLsb' 0 31 = x :=
  (BitVec.extractLsb'_append_extractLsb'_eq_extractLsb' (start₁ := 0) rfl).trans BitVec.extractLsb'_eq_self

theorem and_magnitudeMask (x : Word) : x &&& 0x7FFFFFFF = 0#1 ++ x.extractLsb' 0 31 := by
  have hmask : (0x7FFFFFFF : Word) = 0#1 ++ BitVec.allOnes 31 := rfl
  conv_lhs => rw [← sign_append_magnitude x, hmask, BitVec.and_append, BitVec.and_zero, BitVec.and_allOnes]

theorem and_signMask (x : Word) : x &&& 0x80000000 = x.extractLsb' 31 1 ++ 0#31 := by
  have hmask : (0x80000000 : Word) = BitVec.allOnes 1 ++ 0#31 := rfl
  conv_lhs => rw [← sign_append_magnitude x, hmask, BitVec.and_append, BitVec.and_allOnes, BitVec.and_zero]

theorem xor_signMask (x : Word) : x ^^^ 0x80000000 = ~~~(x.extractLsb' 31 1) ++ x.extractLsb' 0 31 := by
  have hmask : (0x80000000 : Word) = BitVec.allOnes 1 ++ 0#31 := rfl
  conv_lhs => rw [← sign_append_magnitude x, hmask, BitVec.xor_append, BitVec.xor_allOnes, BitVec.xor_zero]

theorem copysign_eq (x y : Word) :
    (x &&& 0x7FFFFFFF) ||| (y &&& 0x80000000) = y.extractLsb' 31 1 ++ x.extractLsb' 0 31 := by
  rw [and_magnitudeMask, and_signMask, BitVec.or_append, BitVec.zero_or, BitVec.or_zero]

/-! ## The tables, a row at a time -/

theorem exec_floatPairs : ∀ p ∈ floatPairs, ∀ d a b w s, exec (p.1 d a b w) s = .next (s.checkV [d, a, b]
    (s.fresult d w fun i => lane32 (p.2 s.mode ((s.V a).at i).toNat ((s.V b).at i).toNat))) := by
  simp only [floatPairs, List.forall_mem_cons, List.not_mem_nil, false_imp_iff, implies_true, and_true,
    ← packed_eq_bothHalves]
  and_intros <;> exact fun _ _ _ _ _ => rfl

theorem exec_floatCompares : ∀ p ∈ floatCompares, ∀ d a b w s, exec (p.1 d a b w) s = .next (s.checkV [d, a, b]
    (s.fresult d w fun i => lane32 (coded (fp32.compare p.2 ((s.V a).at i).toNat ((s.V b).at i).toNat)))) := by
  simp only [floatCompares, List.forall_mem_cons, List.not_mem_nil, false_imp_iff, implies_true, and_true]
  and_intros <;> exact fun _ _ _ _ _ => rfl

theorem exec_floatSingles : ∀ p ∈ floatSingles, ∀ d a w s, exec (p.1 d a w) s = .next (s.checkV [d, a]
    (s.fresult d w fun i => lane32 (p.2 s.mode ((s.V a).at i).toNat))) := by
  simp only [floatSingles, List.forall_mem_cons, List.not_mem_nil, false_imp_iff, implies_true, and_true]
  and_intros <;> exact fun _ _ _ _ => rfl

theorem exec_floatTriples : ∀ p ∈ floatTriples, ∀ d a b w s, exec (p.1 d a b w) s = .next (s.checkV [d, a, b]
    (s.fresult d w fun i =>
      lane32 (p.2 s.mode ((s.V a).at i).toNat ((s.V b).at i).toNat ((s.V d).at i).toNat))) := by
  simp only [floatTriples, List.forall_mem_cons, List.not_mem_nil, false_imp_iff, implies_true, and_true, ← flip32_toNat,
    ← packed_eq_bothHalves]
  and_intros <;> exact fun _ _ _ _ _ => rfl

theorem exec_faddmin (d a b : BitVec 7) (w : BitVec 1) (s : State) : exec (.faddmin d a b w) s = .next (s.checkV [d, a, b]
    (s.fresult d w fun i => lane32
      (sumExtreme false (nearestMode s) ((s.V a).at i).toNat ((s.V b).at i).toNat ((s.V d).at i).toNat))) := by
  rw [← State.modeRne_eq]
  rfl

theorem exec_faddmax (d a b : BitVec 7) (w : BitVec 1) (s : State) : exec (.faddmax d a b w) s = .next (s.checkV [d, a, b]
    (s.fresult d w fun i => lane32
      (sumExtreme true (nearestMode s) ((s.V a).at i).toNat ((s.V b).at i).toNat ((s.V d).at i).toNat))) := by
  rw [← State.modeRne_eq]
  rfl

theorem exec_fcopysign (d a b : BitVec 7) (w : BitVec 1) (s : State) : exec (.fcopysign d a b w) s = .next (s.checkV [d, a, b]
    (s.vresult d w fun i => ((s.V b).at i).extractLsb' 31 1 ++ ((s.V a).at i).extractLsb' 0 31)) := by
  simp only [← copysign_eq]
  rfl

theorem exec_fabs (d a : BitVec 7) (w : BitVec 1) (s : State) : exec (.fabs d a w) s = .next (s.checkV [d, a]
    (s.vresult d w fun i => 0#1 ++ ((s.V a).at i).extractLsb' 0 31)) := by
  simp only [← and_magnitudeMask]
  rfl

theorem exec_fneg (d a : BitVec 7) (w : BitVec 1) (s : State) : exec (.fneg d a w) s = .next (s.checkV [d, a]
    (s.vresult d w fun i => ~~~(((s.V a).at i).extractLsb' 31 1) ++ ((s.V a).at i).extractLsb' 0 31)) := by
  simp only [← xor_signMask]
  rfl

theorem exec_fclass (d a : BitVec 7) (w : BitVec 1) (s : State) : exec (.fclass d a w) s = .next (s.checkV [d, a]
    (s.vresult d w fun i => BitVec.ofNat 32 (fclass ((s.V a).at i).toNat))) := rfl

/-! ## The conversions (R145 to R147) -/

/-- vz reads in every state (R76): FCVT names it for the source that it does not have. -/
theorem VectorReady.with_vz {s : State} {d a : BitVec 7} (h : VectorReady s [d, a]) : VectorReady s [d, a, 124] := by
  intro c hc
  obtain hc | hc := (List.mem_append (s := [d, a]) (t := [124])).mp hc
  · exact h c hc
  · rw [List.mem_singleton.mp hc]
    exact ⟨fun hle => absurd hle (by decide), fun _ hle => absurd hle (by decide)⟩

theorem State.mode_own (s : State) (m : BitVec 3) : s.mode (ownMode m) = s.mode (if m = 7 then none else some m.toNat) := by
  simp only [ownMode, beq_iff_eq]

theorem exec_fcvt_narrow (d a : BitVec 7) {i : BitVec 5} (hi : i.toNat < 20) (z : BitVec 1) (m : BitVec 3) (w : BitVec 1)
    (s : State) : exec (.fcvt d a i z m w) s = .next (s.checkV [d, a, 124] (s.fresult d w fun k =>
      let f := (narrowing i.toNat).1
      let sh := f.width * (narrowing i.toNat).2
      let r := f.convert (s.mode (if m = 7 then none else some m.toNat)) (z = 1 || saturates s) (fp32.value ((s.V a).at k).toNat)
      let old := ((s.V d).at k).toNat
      lane32 (old - old / 2 ^ sh % 2 ^ f.width * 2 ^ sh + r.1 * 2 ^ sh, r.2))) := by
  have h : exec (.fcvt d a i z m w) s = execFcvt d a i z m w s := rfl
  rw [h, execFcvt, if_pos hi, ← State.mode_own, ← State.hsat_eq]
  rfl

theorem exec_fcvt_wide (d a : BitVec 7) {i : BitVec 5} (hi : 20 ≤ i.toNat) (z : BitVec 1) (m : BitVec 3) (w : BitVec 1)
    (s : State) : exec (.fcvt d a i z m w) s = .next (s.checkV [d, a] (s.fresult d w fun k =>
      let f := widening i.toNat
      lane32 (fp32.convert (s.mode (if m = 7 then none else some m.toNat)) false
        (f.value (((s.V a).at k).toNat % 2 ^ f.width))))) := by
  have h : exec (.fcvt d a i z m w) s = execFcvt d a i z m w s := rfl
  rw [h, execFcvt, if_neg (Nat.not_lt.mpr hi), ← State.mode_own]
  rfl

theorem exec_fcvti (d a : BitVec 7) (i : BitVec 5) (m : BitVec 3) (w : BitVec 1) (s : State) :
    exec (.fcvti d a i m w) s = .next (s.checkV [d, a] (s.fresult d w fun k =>
      let (f, lo, hi) := toIntPair i.toNat
      let r := toInteger (s.mode (if m = 7 then none else some m.toNat)) lo hi (f.value (((s.V a).at k).toNat % 2 ^ f.width))
      lane32 ((i32 r.1).toNat, r.2))) := by
  rw [← State.mode_own]
  rfl

theorem exec_icvtf (d a : BitVec 7) (i : BitVec 5) (m : BitVec 3) (w : BitVec 1) (s : State) :
    exec (.icvtf d a i m w) s = .next (s.checkV [d, a] (s.fresult d w fun k =>
      let f := if i.toNat < 2 then fp32 else if i.toNat < 4 then fp16 else bf16
      lane32 (f.ofInt (s.mode (if m = 7 then none else some m.toNat))
        (if i.toNat % 2 = 0 then ((s.V a).at k).toInt else ((s.V a).at k).toNat)))) := by
  rw [← State.mode_own]
  have h : exec (.icvtf d a i m w) s = execIcvtf d a i m w s := rfl
  rw [h, execIcvtf]
  simp only [State.fmap1, BitVec.ofNat_toNat, BitVec.setWidth_eq, beq_iff_eq]
  rfl

/-! ## The statements -/

/-- Settles O7: an instruction writes the operation of its row, which is the model's own, and raises its flags. -/
theorem floatResults : Obligations.FloatResults := by
  unfold Obligations.FloatResults
  exact ⟨fun p hp d a b w s => .of_fresult (exec_floatPairs p hp d a b w s),
    fun p hp d a b w s => .of_fresult (exec_floatCompares p hp d a b w s),
    fun p hp d a w s => .of_fresult (exec_floatSingles p hp d a w s),
    fun p hp d a b w s => .of_fresult (exec_floatTriples p hp d a b w s),
    fun d a b w s => .of_fresult (exec_faddmin d a b w s), fun d a b w s => .of_fresult (exec_faddmax d a b w s),
    fun d a b w s => .of_vresult_flags (exec_fcopysign d a b w s), fun d a w s => .of_vresult_flags (exec_fabs d a w s),
    fun d a w s => .of_vresult_flags (exec_fneg d a w s), fun d a w s => .of_vresult_flags (exec_fclass d a w s)⟩

/-- Settles O8: FCVT to a narrow format merges the element into the old destination; the others convert as their pair says. -/
theorem conversionResults : Obligations.ConversionResults := by
  unfold Obligations.ConversionResults
  exact ⟨fun d a i z m w s hi hr => .of_fresult (exec_fcvt_narrow d a hi z m w s) hr.with_vz,
    fun d a i z m w s hi => .of_fresult (exec_fcvt_wide d a hi z m w s),
    fun d a i m w s => .of_fresult (exec_fcvti d a i m w s), fun d a i m w s => .of_fresult (exec_icvtf d a i m w s)⟩

end Sys2Proof.Machine

/-!
The lane instructions (R150 to R156): movements, derivatives, matches, folds and votes over the lanes of a ply.
-/
namespace Sys2Proof.Machine
open Sys2Proof.Claim

/-! ## Movements (R152) -/

theorem Lanes.at_eq_ite (v : Lanes) (i : Nat) : v.at i = if i ≤ 95 then v.at i else 0 := by
  split
  · rfl
  · exact Lanes.at_of_le v (by omega)

/-- The row of a movement gives what the model's does, for the lanes that a ply has. -/
theorem exec_laneMoves : ∀ p ∈ laneMoves, ∀ d a (n : BitVec 7) w s, n.toNat ≤ 95 →
    exec (p.1 d a n w) s = .next (s.checkV [d, a] (s.vresult d w (p.2 n.toNat (s.V a).at))) := by
  simp only [laneMoves, List.forall_mem_cons, List.not_mem_nil, false_imp_iff, implies_true, and_true, ← Lanes.at_eq_ite]
  and_intros
  · exact fun _ _ _ _ _ _ => rfl
  · exact fun _ _ _ _ _ _ => rfl
  · intro d a n w s hn
    simp only [← Nat.add_sub_assoc (show n.toNat ≤ 96 by omega)]
    rfl
  · exact fun _ _ _ _ _ _ => rfl
  · intro d a n w s _
    simp only [← Nat.lt_succ_iff]
    rfl

theorem exec_lperm (d a b : BitVec 7) (w : BitVec 1) (s : State) : exec (.lperm d a b w) s = .next (s.checkV [d, a, b]
    (s.vresult d w fun i => if ((s.V b).at i).toNat < 96 then (s.V a).at ((s.V b).at i).toNat else 0)) := by
  simp only [Nat.lt_succ_iff, ← Lanes.at_eq_ite]
  rfl

/-! ## Derivatives (R153) -/

/-- A derivative takes the difference of two lanes; derv is raised where one of them is inactive. -/
def derivativeOf (s : State) (a : BitVec 7) (pq : Nat × Nat) : Nat × BitVec 6 :=
  let r := fp32.sub s.mode ((s.V a).at pq.1).toNat ((s.V a).at pq.2).toNat
  (r.1, if s.active.has pq.1 && s.active.has pq.2 then r.2 else r.2 ||| flagDERV)

theorem or_flagIf_not (p q : Bool) (f g : BitVec 6) : f ||| flagIf (!p || !q) g = if p && q then f else f ||| g := by
  cases p <;> cases q <;> simp [flagIf]

theorem State.deriv_eq (s : State) (d a : BitVec 7) (w : BitVec 1) (p q : Nat → Nat) : s.deriv d a w p q =
    s.checkV [d, a] (s.fresult d w fun i => lane32 (derivativeOf s a (p i, q i))) := by
  unfold State.deriv
  simp only [or_flagIf_not]
  rfl

theorem exec_derivatives : ∀ p ∈ derivatives, ∀ d a w s, exec (p.1 d a w) s = .next (s.checkV [d, a]
    (s.fresult d w fun i => lane32 (derivativeOf s a (p.2 i)))) := by
  simp only [derivatives, List.forall_mem_cons, List.not_mem_nil, false_imp_iff, implies_true, and_true, ← State.deriv_eq]
  have hx (i : Nat) : 4 * (i / 4) + 2 * (i / 2 % 2) = i / 2 * 2 := by omega
  and_intros <;> intro d a w s
  · simp only [hx]
    rfl
  · simp only [Nat.mul_comm 4, Nat.add_right_comm _ 2]
    rfl
  · simp only [Nat.mul_comm 4]
    rfl
  · simp only [Nat.mul_comm 4]
    rfl

/-! ## Matches and votes (R154, R156) -/

theorem exec_lmatch (d a b : BitVec 7) (w : BitVec 1) (s : State) : exec (.lmatch d a b w) s = .next (s.checkV [d, a, b]
    (s.vresult d w fun i =>
      let same := (activeLanes s).filter fun j => (s.V a).at j == (s.V a).at i && (s.V b).at j == (s.V b).at i
      let rank := (same.filter fun j => decide (j < i)).length
      BitVec.ofNat 32 (rank * 2 ^ 16 + same.length * 2 ^ 8 + same.headD 0))) := rfl

theorem ofBool_eq_truth {b : Bool} {p : Prop} [Decidable p] (h : b = true ↔ p) : ofBool b = truth p := by
  rw [← ofBool_decide, Bool.eq_iff_iff.mpr (h.trans decide_eq_true_iff.symm)]

/-- The vote that LVOTE computes from the values of the active lanes (R156). -/
def voteOf (c : BitVec 2) (vs : List Word) : Word :=
  match c.toNat with
  | 0 => ofBool (vs.any fun v => v != 0)
  | 1 => ofBool (vs.all fun v => v != 0)
  | 2 => ofBool (vs.all fun v => v == vs.headD 0)
  | _ => BitVec.ofNat 32 (vs.filter fun v => v != 0).length

theorem voteOf_eq (c : BitVec 2) (vs : List Word) : voteOf c vs =
    if c = 0 then truth (∃ v ∈ vs, v ≠ 0)
    else if c = 1 then truth (∀ v ∈ vs, v ≠ 0)
    else if c = 2 then truth (∀ v ∈ vs, v = vs.headD 0)
    else BitVec.ofNat 32 (vs.filter fun v => v != 0).length := by
  have hc : ∀ c : BitVec 2, c = 0 ∨ c = 1 ∨ c = 2 ∨ c = 3 := by decide
  obtain rfl | rfl | rfl | rfl := hc c
  · exact ofBool_eq_truth (by simp only [List.any_eq_true, bne_iff_ne])
  · exact ofBool_eq_truth (by simp only [List.all_eq_true, bne_iff_ne])
  · exact ofBool_eq_truth (by simp only [List.all_eq_true, beq_iff_eq])
  · rfl

theorem exec_lvote (d a : BitVec 7) (c : BitVec 2) (w : BitVec 1) (s : State) : exec (.lvote d a c w) s =
    .next (s.checkV [d, a] (s.vresult d w fun _ => voteOf c ((activeLanes s).map fun i => (s.V a).at i))) := rfl

/-! ## Folds (R155) -/

theorem activeLanes_sorted (s : State) : (activeLanes s).Pairwise (· < ·) := List.pairwise_lt_range.filter _

theorem mem_activeLanes {s : State} {i : Nat} : i ∈ activeLanes s ↔ i < 96 ∧ s.active.has i = true := by
  rw [activeLanes, List.mem_filter, List.mem_range]

/-- The word that `foldLanes` carries along is the word of `foldOf`. -/
theorem foldl_carried (o : BitVec 4) (x : Nat → Word) (l : List Nat) (r : List (Nat × Word × BitVec 6))
    (v : Word × BitVec 6) :
    (l.foldl (fun (r, acc) j => let v := foldStep o acc (x j); (r ++ [(j, v.1, v.2)], v.1)) (r, v.1)).2 =
      (l.foldl (fun r j => let v := foldStep o r.1 (x j); (v.1, r.2 ||| v.2)) v).1 := by
  induction l generalizing r v with
  | nil => rfl
  | cons j l ih => exact ih _ ((foldStep o v.1 (x j)).1, v.2 ||| (foldStep o v.1 (x j)).2)

/-- A fold over one lane more has an entry more: the lane, the fold up to it, the flags of its step. -/
theorem foldLanes_concat (o : BitVec 4) (x : Lanes) (l : List Nat) (j : Nat) : ∃ g : BitVec 6,
    foldLanes o x (l ++ [j]) = foldLanes o x l ++ [(j, (foldOf o x.at (l ++ [j])).1, g)] ∧
      (foldOf o x.at (l ++ [j])).2 = (foldOf o x.at l).2 ||| g := by
  cases l with
  | nil => exact ⟨0, rfl, BitVec.or_zero.symm⟩
  | cons i l =>
    refine ⟨(foldStep o (foldOf o x.at (i :: l)).1 (x.at j)).2, ?_, ?_⟩
    · have hword := foldl_carried o x.at l [(i, x.at i, 0)] (x.at i, 0)
      simp only [List.cons_append, foldLanes, foldOf, List.foldl_append, List.foldl_cons, List.foldl_nil] at hword ⊢
      rw [hword]
    · simp only [List.cons_append, foldOf, List.foldl_append, List.foldl_cons, List.foldl_nil]

/-- The entries stand for the lanes, in order. -/
theorem foldLanes_lanes (o : BitVec 4) (x : Lanes) (l : List Nat) : (foldLanes o x l).map (·.1) = l := by
  induction l using List.reverseRecOn with
  | nil => rfl
  | append_singleton l j ih =>
    obtain ⟨g, h, -⟩ := foldLanes_concat o x l j
    rw [h, List.map_append, ih, List.map_singleton]

theorem foldFlags_eq (o : BitVec 4) (x : Lanes) (l : List Nat) : foldFlags (foldLanes o x l) = (foldOf o x.at l).2 := by
  induction l using List.reverseRecOn with
  | nil => rfl
  | append_singleton l j ih =>
    obtain ⟨g, h, hflags⟩ := foldLanes_concat o x l j
    rw [h, hflags, ← ih, foldFlags, List.foldl_append]
    rfl

/-- The last entry holds the whole fold. -/
theorem foldLanes_last (o : BitVec 4) (x : Lanes) (l : List Nat) :
    ((foldLanes o x l).getLast?.map (·.2.1)).getD 0 = (foldOf o x.at l).1 := by
  induction l using List.reverseRecOn with
  | nil => rfl
  | append_singleton l j _ =>
    obtain ⟨g, h, -⟩ := foldLanes_concat o x l j
    rw [h, List.getLast?_concat]
    rfl

/-! ### Scans: each lane takes the fold of the lanes up to it, or below it -/

theorem lookup_concat_of_ne {A : List (Nat × Word)} {i j : Nat} (h : i ≠ j) (v : Word) :
    (A ++ [(j, v)]).lookup i = A.lookup i := by
  rw [List.lookup_append, List.lookup_cons, beq_false_of_ne h, List.lookup_nil, Option.or_none]

theorem lookup_concat_self {A : List (Nat × Word)} {j : Nat} (h : ∀ p ∈ A, p.1 ≠ j) (v : Word) :
    (A ++ [(j, v)]).lookup j = some v := by
  have hnone : A.lookup j = none := List.lookup_eq_none_iff.mpr fun p hp => bne_iff_ne.mpr (h p hp).symm
  rw [List.lookup_append, hnone, List.lookup_cons_self, Option.none_or]

theorem foldAt_eq_lookup (r : List (Nat × Word × BitVec 6)) (i : Nat) :
    foldAt r i = ((r.map fun e => (e.1, e.2.1)).lookup i).getD 0 := by
  induction r with
  | nil => rfl
  | cons e r ih =>
    rw [foldAt, List.find?_cons, List.map_cons, List.lookup_cons, BEq.comm]
    cases i == e.1 with
    | true => rfl
    | false => exact ih

/-- The entry of a lane holds the fold of the lanes up to it. -/
theorem foldAt_eq (o : BitVec 4) (x : Lanes) {l : List Nat} (hl : l.Pairwise (· < ·)) {i : Nat} (hi : i ∈ l) :
    foldAt (foldLanes o x l) i = (foldOf o x.at (l.filter fun j => decide (j ≤ i))).1 := by
  induction l using List.reverseRecOn with
  | nil => cases hi
  | append_singleton l j ih =>
    obtain ⟨hl, -, hbelow⟩ := List.pairwise_append.mp hl
    have hlt (k : Nat) (hk : k ∈ l) : k < j := hbelow k hk j (List.mem_singleton_self j)
    obtain ⟨g, h, -⟩ := foldLanes_concat o x l j
    rw [h, foldAt_eq_lookup, List.map_append, List.map_singleton, List.filter_append]
    obtain hi | hi := List.mem_append.mp hi
    · rw [lookup_concat_of_ne (hlt i hi).ne, ← foldAt_eq_lookup, ih hl hi,
        List.filter_cons_of_neg (by simpa using hlt i hi), List.filter_nil, List.append_nil]
    · obtain rfl := List.mem_singleton.mp hi
      have hall : l.filter (fun k => decide (k ≤ i)) = l :=
        List.filter_eq_self.mpr fun k hk => decide_eq_true (hlt k hk).le
      have hself : [i].filter (fun k => decide (k ≤ i)) = [i] := by simp
      rw [hall, hself, lookup_concat_self, Option.getD_some]
      rintro _ hp
      obtain ⟨e, he, rfl⟩ := List.mem_map.mp hp
      have hmem := List.mem_map_of_mem (f := (·.1)) he
      rw [foldLanes_lanes] at hmem
      exact (hlt e.1 hmem).ne

/-- The pairs that an exclusive scan looks up: each lane but the first with the fold of the lanes before it. -/
def foldsBelow (o : BitVec 4) (x : Lanes) (l : List Nat) : List (Nat × Word) :=
  (l.drop 1).zip ((foldLanes o x l.dropLast).map (·.2.1))

theorem foldsBelow_concat (o : BitVec 4) (x : Lanes) {l : List Nat} (hl : l ≠ []) (j : Nat) :
    foldsBelow o x (l ++ [j]) = foldsBelow o x l ++ [(j, (foldOf o x.at l).1)] := by
  obtain ⟨m, k, rfl⟩ := List.eq_nil_or_concat' l |>.resolve_left hl
  obtain ⟨g, h, -⟩ := foldLanes_concat o x m k
  have hlen : ((m ++ [k]).drop 1).length = ((foldLanes o x m).map (·.2.1)).length := by
    have hm := congrArg List.length (foldLanes_lanes o x m)
    rw [List.length_map] at hm
    rw [List.length_map, hm, List.length_drop, List.length_append, List.length_singleton, Nat.add_sub_cancel]
  rw [foldsBelow, foldsBelow, List.dropLast_concat, List.dropLast_concat, h, List.map_append,
    List.drop_append_of_le_length (by simp), List.zip_append hlen]
  rfl

theorem foldsBelow_lane {o : BitVec 4} {x : Lanes} {l : List Nat} {p : Nat × Word} (hp : p ∈ foldsBelow o x l) : p.1 ∈ l :=
  List.mem_of_mem_drop (List.of_mem_zip hp).1

/-- An exclusive scan finds for a lane the fold of the lanes below it; the first lane has no entry, and takes 0. -/
theorem foldsBelow_eq (o : BitVec 4) (x : Lanes) {l : List Nat} (hl : l.Pairwise (· < ·)) {i : Nat} (hi : i ∈ l) :
    ((foldsBelow o x l).lookup i).getD 0 = (foldOf o x.at (l.filter fun j => decide (j < i))).1 := by
  induction l using List.reverseRecOn with
  | nil => cases hi
  | append_singleton l j ih =>
    obtain ⟨hl, -, hbelow⟩ := List.pairwise_append.mp hl
    have hlt (k : Nat) (hk : k ∈ l) : k < j := hbelow k hk j (List.mem_singleton_self j)
    have hij : i ≤ j := by
      obtain hi | hi := List.mem_append.mp hi
      · exact (hlt i hi).le
      · exact (List.mem_singleton.mp hi).le
    rw [List.filter_append, List.filter_cons_of_neg (by simpa using hij), List.filter_nil, List.append_nil]
    obtain rfl | hne := eq_or_ne l []
    · rfl
    rw [foldsBelow_concat o x hne]
    obtain hi | hi := List.mem_append.mp hi
    · rw [lookup_concat_of_ne (hlt i hi).ne, ih hl hi]
    · obtain rfl := List.mem_singleton.mp hi
      have hall : l.filter (fun k => decide (k < i)) = l := List.filter_eq_self.mpr fun k hk => decide_eq_true (hlt k hk)
      rw [hall, lookup_concat_self fun p hp => (hlt _ (foldsBelow_lane hp)).ne, Option.getD_some]

/-! ### Folds and scans as they issue -/

theorem Ply.produce_with_fflags (p : Ply) (d : BitVec 7) (w : BitVec 1) (v : Lanes) (g : BitVec 6) :
    { p with fflags := g }.produce d w v = { p.produce d w v with fflags := g } := by
  unfold Ply.produce
  dsimp only
  split
  · rfl
  · unfold Ply.putV
    split <;> rfl

/-- A result whose flags are raised whatever its lanes (R155). -/
theorem State.vresult_raising_writes (s : State) {d : BitVec 7} (hd : d.toNat ≤ 119 → d.toNat < s.ply.vregs.length)
    (w : BitVec 1) (f : Nat → Word) (g : BitVec 6) : WritesVector s ((s.raiseFlags g).vresult d w f) d w f := by
  have h : (s.raiseFlags g).vresult d w f =
      State.done { s with ply := { s.ply.produce d w (s.merged d f) with fflags := s.ply.fflags ||| g } } := by
    rw [← Ply.produce_with_fflags]
    rfl
  rw [h]
  exact State.produce_writes s hd w f _

theorem Answers.of_vresult_raising {i : Instr} {s : State} {d : BitVec 7} {cs : List (BitVec 7)} {w : BitVec 1} {f : Nat → Word}
    {g : BitVec 6} (h : exec i s = .next (s.checkV (d :: cs) ((s.raiseFlags g).vresult d w f)))
    (hr : VectorReady s (d :: cs)) :
    Answers i s fun t => WritesVector s t d w f ∧ t.ply.fflags = s.ply.fflags ||| g := by
  rw [State.checkV_ready hr] at h
  have hd := (hr d List.mem_cons_self).1
  exact ⟨_, h, State.vresult_raising_writes s hd w f g, State.vresult_fflags ..⟩

theorem exec_lred (d a : BitVec 7) (o : BitVec 4) (w : BitVec 1) (s : State) : exec (.lred d a o w) s = .next (s.checkV [d, a]
    ((s.raiseFlags (foldOf o (s.V a).at (activeLanes s)).2).vresult d w fun _ =>
      (foldOf o (s.V a).at (activeLanes s)).1)) := by
  rw [← foldFlags_eq, ← foldLanes_last]
  rfl

theorem exec_lscan_inclusive (d a : BitVec 7) (o : BitVec 4) (w : BitVec 1) (s : State) :
    exec (.lscan d a 0 o w) s = .next (s.checkV [d, a]
      ((s.raiseFlags (foldOf o (s.V a).at (activeLanes s)).2).vresult d w fun i =>
        (foldOf o (s.V a).at ((activeLanes s).filter fun j => decide (j ≤ i))).1)) := by
  have hlanes : ∀ i, i < 96 → s.active.has i = true → foldAt (foldLanes o (s.V a) (activeLanes s)) i =
      (foldOf o (s.V a).at ((activeLanes s).filter fun j => decide (j ≤ i))).1 := fun i hi ha =>
    foldAt_eq o (s.V a) (activeLanes_sorted s) (mem_activeLanes.mpr ⟨hi, ha⟩)
  rw [← foldFlags_eq, ← State.vresult_congr (s.raiseFlags _) d w hlanes]
  rfl

theorem exec_lscan_exclusive (d a : BitVec 7) (o : BitVec 4) (w : BitVec 1) (s : State) :
    exec (.lscan d a 1 o w) s = .next (s.checkV [d, a]
      ((s.raiseFlags (foldOf o (s.V a).at (activeLanes s).dropLast).2).vresult d w fun i =>
        (foldOf o (s.V a).at ((activeLanes s).filter fun j => decide (j < i))).1)) := by
  have hlanes : ∀ i, i < 96 → s.active.has i = true → ((foldsBelow o (s.V a) (activeLanes s)).lookup i).getD 0 =
      (foldOf o (s.V a).at ((activeLanes s).filter fun j => decide (j < i))).1 := fun i hi ha =>
    foldsBelow_eq o (s.V a) (activeLanes_sorted s) (mem_activeLanes.mpr ⟨hi, ha⟩)
  rw [← foldFlags_eq, ← State.vresult_congr (s.raiseFlags _) d w hlanes]
  rfl

/-! ## The statement -/

/-- Settles O10: a movement, match or vote writes the function of its row; a derivative is a float result; a fold or scan
carries along the folds of the active lanes up to each. -/
theorem laneResults : Obligations.LaneResults := by
  unfold Obligations.LaneResults
  refine ⟨fun p hp d a n w s hn => .of_vresult (exec_laneMoves p hp d a n w s hn),
    fun d a b w s => .of_vresult (exec_lperm d a b w s), fun p hp d a w s => .of_fresult (exec_derivatives p hp d a w s),
    fun d a b w s => .of_vresult_flags (exec_lmatch d a b w s), fun d a o w s => .of_vresult_raising (exec_lred d a o w s),
    fun d a o w s => .of_vresult_raising (exec_lscan_inclusive d a o w s),
    fun d a o w s => .of_vresult_raising (exec_lscan_exclusive d a o w s), fun d a c w s hr => ?_⟩
  have h := Answers.of_vresult_flags (exec_lvote d a c w s) hr
  rwa [voteOf_eq] at h

end Sys2Proof.Machine

/-!
Control transfers (R158, R159), and the decisions of DIVB and JOIN at issue (R161, R162).
-/
namespace Sys2Proof.Machine
open Sys2Proof.Claim

/-! ## Targets (R72, R91) -/

/-- An offset counts words. -/
theorem four_mul_signExtend {w : Nat} (o : BitVec w) : (4 : DWord) * o.signExtend 64 = BitVec.ofInt 64 (4 * o.toInt) := by
  rw [BitVec.ofInt_mul]
  rfl

theorem State.relative_eq {w : Nat} (s : State) (o : BitVec w) : s.relative o = relativeTarget s o := by
  unfold State.relative relativeTarget
  cases s.issue.hlong with
  | none => exact congrArg (wordAddress s + ·) (four_mul_signExtend o)
  | some h => exact congrArg (wordAddress s + ·) (four_mul_signExtend (h ++ o))

/-- The check of R72 as the model makes it. -/
theorem highBits_bne_zero (a : DWord) : (a.toNat / 2 ^ 60 != 0) = true ↔ ¬a.toNat < 2 ^ 60 := by
  rw [bne_iff_ne, ne_eq, Nat.div_eq_zero_iff_lt (by decide)]

/-! ## Decisions (R158) -/

/-- The state after a unit that decides a transfer and completes. -/
def State.deciding (s : State) (tr : Transfer) : State :=
  State.done { s with ply := s.ply.setCur { s.path with transfer := tr } }

theorem State.deciding_decides (s : State) (tr : Transfer) : Decides s (s.deciding tr) tr := Decides.of_setCur s tr

theorem Answers.of_deciding {i : Instr} {s : State} {tr : Transfer} (h : exec i s = .next (s.deciding tr)) :
    Answers i s fun t => Decides s t tr :=
  ⟨_, h, s.deciding_decides tr⟩

theorem State.deciding_S (s : State) (tr : Transfer) (r : BitVec 6) : (s.deciding tr).S r = s.S r := by
  have hactive : ((s.ply.setCur { s.path with transfer := tr }).path s.ply.slot).active = (s.ply.path s.ply.slot).active := by
    rw [Ply.setCur, Ply.setPath_path]
    rfl
  rw [State.deciding, State.done_S, State.S, Ply.setCur_slot]
  exact Ply.getS_congr (Ply.setCur_sregs ..) hactive r

theorem State.deciding_sregs (s : State) (tr : Transfer) : (s.deciding tr).ply.sregs = s.ply.sregs :=
  (Ply.advance_sregs ..).trans (Ply.setCur_sregs ..)

/-! ## Links (R159) -/

/-- A scalar that is not a word of the activity takes what is written. -/
theorem State.afterWrite_scalar (s : State) (w : Word) (r : BitVec 6) {d : BitVec 6} (h0 : d ≠ 0)
    (hview : ¬(60 ≤ d.toNat ∧ d.toNat ≤ 62)) : s.afterWrite d w r = if r = d then w else s.S r := by
  unfold State.afterWrite
  rw [if_neg hview]
  exact if_congr (and_iff_left h0) rfl rfl

/-- A link stands in s12:s13, and every other scalar reads as before. -/
theorem State.link_S (s : State) (r : BitVec 6) : s.link.S r =
    if r = 12 then (linkOf s).extractLsb' 0 32 else if r = 13 then (linkOf s).extractLsb' 32 32 else s.S r := by
  obtain ⟨-, hpair⟩ := State.sresult64_writes s 12 (linkOf s)
  have hS : s.link.S r = (s.sresult64 12 (linkOf s)).S r := (State.done_S s.link r).symm
  rw [hS, hpair, show (12 : BitVec 6) + 1 = 13 from rfl, State.afterWrite_scalar _ _ _ (by decide) (by decide),
    State.afterWrite_scalar _ _ _ (by decide) (by decide)]
  by_cases h13 : r = 13
  · have h12 : ¬r = 12 := by
      rw [h13]
      decide
    rw [if_pos h13, if_pos h13, if_neg h12]
  · rw [if_neg h13, if_neg h13]

/-- A call is a decision from the state in which the link is written. -/
theorem State.link_decides (s : State) (tr : Transfer) : DecidesLinking s (s.link.deciding tr) tr (linkOf s) := by
  obtain ⟨-, hadv, hpath, hother, hply⟩ := s.link.deciding_decides tr
  refine ⟨OnlyPly.of_ply .., hadv, hpath, hother, fun r => ?_, ?_⟩
  · rw [State.deciding_S, State.link_S]
  · have hlink : s.link.ply = { s.ply with sregs := s.link.ply.sregs } := rfl
    rw [hlink] at hply
    rw [State.deciding_sregs]
    exact hply

theorem Answers.of_link {i : Instr} {s : State} {tr : Transfer} (h : exec i s = .next (s.link.deciding tr)) :
    Answers i s fun t => DecidesLinking s t tr (linkOf s) :=
  ⟨_, h, s.link_decides tr⟩

/-! ## Transfers that are taken (R158) -/

section
variable {s : State} {a : DWord} {reg : Bool} {before : State → State}

theorem State.goto'_of_not_canonical (h : ¬canonical a) : s.goto' a reg before = s.raise (noncanon a) :=
  if_pos ((highBits_bne_zero a).mpr h)

theorem State.goto'_of_canonical (h : canonical a) : s.goto' a reg before =
    if reg && a.toNat % 4 != 0 then s.raise (align a) else (before s).deciding (.goto a) :=
  if_neg fun hb => (highBits_bne_zero a).mp hb h

/-- Only a register target can be misaligned. -/
theorem State.goto'_relative (h : canonical a) : s.goto' a false before = (before s).deciding (.goto a) :=
  State.goto'_of_canonical h

theorem State.goto'_aligned (h : canonical a) (ha : a.toNat % 4 = 0) :
    s.goto' a true before = (before s).deciding (.goto a) := by
  rw [State.goto'_of_canonical h, ha]
  rfl

theorem State.goto'_misaligned (h : canonical a) (ha : a.toNat % 4 ≠ 0) : s.goto' a true before = s.raise (align a) := by
  rw [State.goto'_of_canonical h]
  exact if_pos (bne_iff_ne.mpr ha)

theorem State.raise_noncanon (hu : s.ply.supervisor = false) (a : DWord) :
    TakesTrap s (s.raise (noncanon a)) s.issue.first s.ply.pos 0x09 0 0 a 127 :=
  State.raise_traps hu rfl rfl (show 0x09 ≠ 0x21 by decide) _

theorem State.raise_align (hu : s.ply.supervisor = false) (a : DWord) :
    TakesTrap s (s.raise (align a)) s.issue.first s.ply.pos 0x08 0 0 a 127 :=
  State.raise_traps hu rfl rfl (show 0x08 ≠ 0x21 by decide) _

theorem Answers.of_goto_not_canonical {i : Instr} (h : exec i s = .next (s.goto' a reg before)) (hc : ¬canonical a)
    (hu : s.ply.supervisor = false) : Answers i s fun t => TakesTrap s t s.issue.first s.ply.pos 0x09 0 0 a 127 :=
  ⟨_, h, State.goto'_of_not_canonical (reg := reg) hc ▸ State.raise_noncanon hu a⟩

end

/-- An instruction that goes to a target or goes on, as a condition says. -/
theorem branchOutcome_of_exec {i : Instr} {s : State} {taken : Bool} {a : DWord}
    (h : exec i s = .next (if taken then s.goto' a false else s.fallThrough)) : branchOutcome i s taken a := by
  refine ⟨?_, ?_, ?_⟩
  · rintro rfl
    exact .of_deciding h
  · rintro rfl hc
    exact .of_deciding (h.trans (congrArg _ (State.goto'_relative hc)))
  · rintro rfl hc hu
    exact .of_goto_not_canonical h hc hu

/-! ## The arms of these instructions -/

theorem exec_jmp (o : BitVec 26) (s : State) : exec (.jmp o) s = .next (s.goto' (relativeTarget s o) false) := by
  rw [← State.relative_eq]
  rfl

theorem exec_call (o : BitVec 26) (s : State) :
    exec (.call o) s = .next (s.goto' (relativeTarget s o) false State.link) := by
  rw [← State.relative_eq]
  rfl

theorem exec_jmpr (p : BitVec 6) (s : State) : exec (.jmpr p) s = .next (s.goto' (s.S64 p) true) := rfl
theorem exec_ret (p : BitVec 6) (s : State) : exec (.ret p) s = .next (s.goto' (s.S64 p) true) := rfl
theorem exec_callr (p : BitVec 6) (s : State) : exec (.callr p) s = .next (s.goto' (s.S64 p) true State.link) := rfl
theorem exec_join (s : State) : exec .join s = .next (s.deciding .join) := rfl

/-- JMPR and RET are one instruction but for the hint to the fetch unit (R159). -/
theorem exec_jumps {f : BitVec 6 → Instr} (hf : f = .jmpr ∨ f = .ret) (p : BitVec 6) (s : State) :
    exec (f p) s = .next (s.goto' (s.S64 p) true) := by
  obtain rfl | rfl := hf
  · exact exec_jmpr p s
  · exact exec_ret p s

/-- A transfer through a pair goes to its value; CALLR links before it goes. -/
theorem exec_registerTransfers {f : BitVec 6 → Instr} (hf : f = .jmpr ∨ f = .ret ∨ f = .callr) :
    ∃ before : State → State, ∀ p s, exec (f p) s = .next (s.goto' (s.S64 p) true before) := by
  obtain rfl | rfl | rfl := hf
  · exact ⟨id, exec_jmpr⟩
  · exact ⟨id, exec_ret⟩
  · exact ⟨State.link, exec_callr⟩

/-! ## The branches, a row at a time (R159) -/

theorem beq_zero_eq_toInt (x : Word) : (x == 0) = (x.toInt == 0) := by
  rw [Bool.eq_iff_iff, beq_iff_eq, beq_iff_eq, ← BitVec.toInt_inj]
  rfl

theorem exec_branches : ∀ p ∈ branches, ∀ a o s, exec (p.1 a o) s =
    .next (if p.2 (s.S a).toInt then s.goto' (relativeTarget s o) false else s.fallThrough) := by
  simp only [branches, List.forall_mem_cons, List.not_mem_nil, false_imp_iff, implies_true, and_true, bne,
    ← beq_zero_eq_toInt, ← State.relative_eq]
  and_intros <;> exact fun _ _ _ => rfl

theorem Mask.eq_iff_has {x y : Mask} : x = y ↔ ∀ i, x.has i = y.has i := ⟨fun h _ => h ▸ rfl, Mask.eq_of_has⟩

theorem State.triple_and_active_has (s : State) (m : BitVec 6) (i : Nat) :
    (s.triple m &&& s.active).has i = (s.maskBit m i && s.active.has i) := by
  rw [Mask.has_and]
  cases ha : s.active.has i with
  | false => rw [Bool.and_false, Bool.and_false]
  | true => rw [State.triple_has s m (Mask.has_lt ha)]

theorem forall_mem_activeBits {s : State} {m : BitVec 6} {P : Bool → Prop} :
    (∀ b ∈ activeBits s m, P b) ↔ ∀ i, s.active.has i = true → P (s.maskBit m i) := by
  simp only [activeBits, List.forall_mem_map, mem_activeLanes]
  exact forall_congr' fun i => ⟨fun h ha => h ⟨Mask.has_lt ha, ha⟩, fun h ha => h ha.2⟩

/-- A triple has no bit at an active lane. -/
theorem State.triple_and_active_eq_zero (s : State) (m : BitVec 6) :
    s.triple m &&& s.active = 0 ↔ ∀ b ∈ activeBits s m, b = false := by
  have hzero (i : Nat) : (0 : Mask).has i = false := BitVec.getLsbD_zero
  rw [Mask.eq_iff_has, forall_mem_activeBits]
  refine forall_congr' fun i => ?_
  rw [State.triple_and_active_has, hzero]
  cases s.active.has i <;> simp

/-- A triple has a bit at every active lane. -/
theorem State.triple_and_active_eq_active (s : State) (m : BitVec 6) :
    s.triple m &&& s.active = s.active ↔ ∀ b ∈ activeBits s m, b = true := by
  rw [Mask.eq_iff_has, forall_mem_activeBits]
  refine forall_congr' fun i => ?_
  rw [State.triple_and_active_has]
  cases s.active.has i <;> simp

theorem noneTaken_eq (s : State) (m : BitVec 6) : (s.triple m &&& s.active == 0) = (activeBits s m).all not := by
  rw [Bool.eq_iff_iff, beq_iff_eq, State.triple_and_active_eq_zero, List.all_eq_true]
  simp only [Bool.not_eq_true']

theorem anyTaken_eq (s : State) (m : BitVec 6) : (s.triple m &&& s.active != 0) = (activeBits s m).any id := by
  rw [bne, noneTaken_eq, List.not_all_eq_any_not]
  simp only [Bool.not_not]
  rfl

theorem allTaken_eq (s : State) (m : BitVec 6) : (s.triple m &&& s.active == s.active) = (activeBits s m).all id := by
  rw [Bool.eq_iff_iff, beq_iff_eq, State.triple_and_active_eq_active, List.all_eq_true]
  rfl

theorem exec_maskBranches : ∀ p ∈ maskBranches, ∀ m o s, exec (p.1 m o) s =
    .next (if p.2 (activeBits s m) then s.goto' (relativeTarget s o) false else s.fallThrough) := by
  simp only [maskBranches, List.forall_mem_cons, List.not_mem_nil, false_imp_iff, implies_true, and_true,
    ← anyTaken_eq, ← noneTaken_eq, ← allTaken_eq, ← State.relative_eq]
  and_intros <;> exact fun _ _ _ => rfl

/-! ## DIVB (R161) -/

/-- The state after a DIVB whose taken set, rest, target and join address are these. -/
def State.divided (s : State) (taken rest : Mask) (target join : DWord) : State :=
  if taken = 0 then s.deciding .none
  else if ¬target.toNat < 2 ^ 60 then s.raise (noncanon target)
  else if rest = 0 then s.goto' target false
  else if (s.ply.path s.ply.other).member ≠ 0 ∧ s.ply.dstack.length = 64 then s.raise (cause 0x10 0 s.theWord)
  else s.deciding (.split taken target (pc60 join))

theorem exec_divb (m : BitVec 6) (tt jj : BitVec 10) (s : State) : exec (.divb m tt jj) s =
    .next (s.divided (s.triple m &&& s.path.active) (s.path.member &&& ~~~(s.triple m &&& s.path.active))
      (wordAddress s + BitVec.ofInt 64 (4 * tt.toInt)) (wordAddress s + BitVec.ofInt 64 (4 * jj.toInt))) := by
  have hroom : (!(s.ply.path s.ply.other).isFree && s.ply.dstack.length == 64) = true ↔
      (s.ply.path s.ply.other).member ≠ 0 ∧ s.ply.dstack.length = 64 := by
    rw [Bool.and_eq_true, beq_iff_eq, Bool.not_eq_true', ← Bool.not_eq_true, Path.isFree_iff]
  have hat : wordAddress s = s.issue.at' := rfl
  have harm : exec (.divb m tt jj) s = execDivb m tt jj s := rfl
  rw [harm, execDivb, State.ok, State.divided, hat, ← four_mul_signExtend, ← four_mul_signExtend]
  exact congrArg _ (if_congr beq_iff_eq rfl (if_congr (highBits_bne_zero _) rfl
    (if_congr beq_iff_eq rfl (if_congr hroom rfl rfl))))

section
variable {s : State} {taken rest : Mask} {target join : DWord}

theorem State.divided_not_canonical (ht : taken ≠ 0) (hc : ¬canonical target) :
    s.divided taken rest target join = s.raise (noncanon target) := by
  rw [State.divided, if_neg ht]
  exact if_pos hc

theorem State.divided_of_canonical (ht : taken ≠ 0) (hc : canonical target) : s.divided taken rest target join =
    if rest = 0 then s.deciding (.goto target)
    else if (s.ply.path s.ply.other).member ≠ 0 ∧ s.ply.dstack.length = 64 then s.raise (cause 0x10 0 s.theWord)
    else s.deciding (.split taken target (pc60 join)) := by
  rw [State.divided, if_neg ht, State.goto'_relative hc]
  exact if_neg (not_not_intro hc)

end

/-! ## The statements -/

/-- Settles O11: a relative transfer takes the arm that its condition names, a transfer through a pair checks the pair, and a call
decides from the state in which its link is written. -/
theorem transferResults : Obligations.TransferResults := by
  unfold Obligations.TransferResults
  refine ⟨fun p hp a o s => branchOutcome_of_exec (exec_branches p hp a o s),
    fun p hp m o s => branchOutcome_of_exec (exec_maskBranches p hp m o s),
    fun o s => branchOutcome_of_exec (exec_jmp o s), fun o s => ⟨fun hc => ?_, ?_⟩, fun f hf p s hc ha => ?_,
    fun p s hc ha => ?_, fun f hf p s hu => ?_⟩
  · exact .of_link ((exec_call o s).trans (congrArg _ (State.goto'_relative hc)))
  · exact .of_goto_not_canonical (exec_call o s)
  · exact .of_deciding ((exec_jumps hf p s).trans (congrArg _ (State.goto'_aligned hc ha)))
  · exact .of_link ((exec_callr p s).trans (congrArg _ (State.goto'_aligned hc ha)))
  · obtain ⟨before, hexec⟩ := exec_registerTransfers hf
    refine ⟨fun hc => .of_goto_not_canonical (hexec p s) hc hu, fun hc ha => ⟨_, hexec p s, ?_⟩⟩
    rw [State.goto'_misaligned hc ha]
    exact State.raise_align hu _

/-- Settles O12: DIVB ends in one of five states, by its taken set, its target, its rest, and the room for the taken half; JOIN in
one. -/
theorem divergenceDecisions : Obligations.DivergenceDecisions := by
  unfold Obligations.DivergenceDecisions
  refine ⟨fun s => .of_deciding (exec_join s), fun m tt jj s => ?_⟩
  intro taken rest target join
  have hexec : exec (.divb m tt jj) s = .next (s.divided taken rest target join) := exec_divb m tt jj s
  refine ⟨fun ht => ?_, fun ht hc hr => ?_, fun ht hc hr hroom => ?_, fun ht hc hu => ?_, fun ht hc hr ho hd hu => ?_⟩
  · rw [State.divided, if_pos ht] at hexec
    exact .of_deciding hexec
  · rw [State.divided_of_canonical ht hc, if_pos hr] at hexec
    exact .of_deciding hexec
  · rw [State.divided_of_canonical ht hc, if_neg hr, if_neg fun h => hroom.elim h.1 fun h64 => h64 h.2] at hexec
    exact .of_deciding hexec
  · rw [State.divided_not_canonical ht hc] at hexec
    exact ⟨_, hexec, State.raise_noncanon hu target⟩
  · rw [State.divided_of_canonical ht hc, if_neg hr, if_pos ⟨ho, hd⟩] at hexec
    exact ⟨_, hexec, State.raise_word hu 0x10 0 (by decide) (by decide) (by decide) (by decide) _⟩

end Sys2Proof.Machine

/-!
The state after reset (R177, R243, R311, R313, R321, R342, R344, R374, R381, R387, R396): no unit is listed, so that each holds its
reset record.
-/
namespace Sys2Proof.Machine

/-! ## Units that no table lists -/

theorem State.reset_core (k : Nat) : State.reset.core k = Core.reset k := rfl
theorem State.reset_cluster (c : Nat) : State.reset.cluster c = Cluster.reset := rfl
theorem State.reset_vault (v : Nat) : State.reset.vault v = Vault.reset := rfl
theorem State.reset_tenant (n : Nat) : State.reset.tenant n = Tenant.reset := rfl

theorem State.reset_localByte (k : Nat) (sp : Space) (a : Nat) : State.reset.localByte k sp a = 0 := by
  unfold State.localByte
  rw [State.reset_core]
  cases sp <;> rfl

/-- Settles O59: every unit holds its reset record, field by field the value that its rule gives. -/
theorem resetState : Obligations.ResetState := by
  unfold Obligations.ResetState
  refine ⟨rfl, rfl, rfl, rfl, rfl, rfl, rfl, rfl, rfl, rfl, rfl, rfl, fun k => ?_, fun c => ?_, fun v => ?_, fun n => ?_⟩
  · rw [State.reset_core]
    exact ⟨rfl, rfl, rfl, rfl, rfl, rfl, rfl, rfl, rfl, State.reset_localByte k⟩
  · rw [State.reset_cluster]
    exact ⟨rfl, rfl, rfl, rfl, rfl, rfl, rfl, rfl, rfl⟩
  · rw [State.reset_vault]
    exact ⟨rfl, rfl, rfl, rfl⟩
  · rw [State.reset_tenant]
    exact ⟨rfl, rfl, rfl, rfl, rfl, rfl, rfl, rfl⟩

end Sys2Proof.Machine

/-!
Cache control (R195): CINV and CPREF change what the caches hold about lines, and no byte.
-/
namespace Sys2Proof.Machine
open Sys2Proof.Claim

theorem exec_cinv (p l : BitVec 6) (s : State) : exec (.cinv p l) s = execCinv p l s := rfl
theorem exec_cpref (p l : BitVec 6) (v : BitVec 2) (s : State) : exec (.cpref p l v) s = execCpref p l v s := rfl

/-! ## What a request for lines may change -/

/-- Only leases, and in the vaults what reads at the homes leave, differ. -/
def OnlyLeases (s t : State) : Prop := t = { s with
  l1Leases := t.l1Leases, l2Leases := t.l2Leases, homeLeases := t.homeLeases, vaults := t.vaults }

theorem OnlyLeases.refl (s : State) : OnlyLeases s s := rfl

theorem OnlyLeases.trans {s t u : State} (h₁ : OnlyLeases s t) (h₂ : OnlyLeases t u) : OnlyLeases s u := by
  unfold OnlyLeases at *
  rw [h₁] at h₂
  exact h₂

theorem OnlyLeases.foldl {α : Type} {f : State → α → State} (hf : ∀ s x, OnlyLeases s (f s x)) (l : List α) (s : State) :
    OnlyLeases s (l.foldl f s) :=
  List.foldlRecOn l f (OnlyLeases.refl s) fun t ht x _ => ht.trans (hf t x)

/-- The path that issues runs on as it stood. -/
theorem OnlyLeases.sameRun {s t : State} (h : OnlyLeases s t) : SameRun s t := by
  rw [h]
  exact ⟨rfl, rfl, rfl, rfl, rfl, rfl⟩

theorem OnlyLeases.ply {s t : State} (h : OnlyLeases s t) : t.ply = s.ply := by rw [h]

theorem OnlyLeases.sameMemory {s t : State} (h : OnlyLeases s t) : SameMemory s t.done := by
  rw [h]
  exact SameMemory.of_eq rfl rfl rfl rfl

/-- A unit that changes leases alone completes. -/
theorem OnlyLeases.unitDone {s t : State} (h : OnlyLeases s t) : UnitDone s t.done s.ply := h.ply ▸ h.sameRun.unitDone

theorem Charged.onlyLeases {s t : State} (h : Charged s t) : OnlyLeases s t := by
  have hrest := h.rest
  unfold OnlyLeases
  generalize t.vaults = v at hrest ⊢
  generalize t.homeLeases = l at hrest ⊢
  rw [hrest]

theorem State.takeL2_onlyLeases (s : State) (tenant cluster policy line : Nat) :
    OnlyLeases s (s.takeL2 tenant cluster policy line) := by
  have hrest := s.takeL2_rest tenant cluster policy line
  unfold OnlyLeases
  generalize s.takeL2 tenant cluster policy line = t at *
  rw [hrest]

theorem State.takeLease_onlyLeases (s : State) (tenant core policy line : Nat) :
    OnlyLeases s (s.takeLease tenant core policy line) := by
  have hl2 := s.takeL2_onlyLeases tenant (clusterOf core) policy line
  unfold State.takeLease
  dsimp only
  split
  · exact (s.homeRead_charged tenant line policy).onlyLeases
  · split
    · exact OnlyLeases.refl s
    · split
      · exact hl2
      · exact hl2.trans rfl

/-! ## The lines of a range -/

/-- A range that stays in its 64 KiB is one piece. -/
theorem cutPages_of_fits {n : Nat} (hn : n ≠ 0) {va : DWord} (h : va.toNat % 65536 + n ≤ 65536) (fuel : Nat) :
    cutPages (fuel + 1) va n = [(va, n)] := by
  have hle : n ≤ 65536 - va.toNat % 65536 := by omega
  simp [cutPages, hn, hle]

/-- The lines of a range that stays in a readable 64 KiB. -/
theorem State.mem_readableLines {s : State} {base : DWord} {n pa : Nat} (hn : n ≠ 0) (hfit : base.toNat % 65536 + n ≤ 65536)
    (hpa : Reaches s .read 1 base 127 pa) (i : Nat) :
    i ∈ s.readableLines base n ↔ pa / 128 ≤ i ∧ i ≤ (pa + n - 1) / 128 := by
  have hlast : pa / 128 ≤ (pa + n - 1) / 128 := Nat.div_le_div_right (by omega)
  unfold State.readableLines
  rw [cutPages_of_fits hn hfit]
  simp only [List.flatMap_cons, List.flatMap_nil, List.append_nil, State.checkGlobal_of_reaches hpa, List.mem_map, List.mem_range]
  constructor
  · rintro ⟨k, hk, rfl⟩
    omega
  · rintro ⟨hfirst, hle⟩
    exact ⟨i - pa / 128, by omega, by omega⟩

/-! ## The statement -/

/-- The lines that CINV drops: none where its length is 0. -/
def State.cinvLines (s : State) (p l : BitVec 6) : List Nat :=
  if (s.S l).toNat == 0 then [] else s.readableLines (s.S64 p) (s.S l).toNat

/-- The leases of the core's first-level cache on those lines are gone. -/
def State.invalidated (s : State) (p l : BitVec 6) : State :=
  { s with l1Leases := s.l1Leases.filter fun e => !(e.unit == s.ply.core && (s.cinvLines p l).contains e.line) }

theorem State.mem_invalidated {s : State} {p l : BitVec 6} {e : Lease} :
    e ∈ (s.invalidated p l).l1Leases ↔ e ∈ s.l1Leases ∧ (e.unit ≠ s.ply.core ∨ e.line ∉ s.cinvLines p l) := by
  simp [State.invalidated]

theorem State.cinvLines_of_zero {s : State} {l : BitVec 6} (h : s.S l = 0) (p : BitVec 6) : s.cinvLines p l = [] := by
  simp [State.cinvLines, h]

theorem State.cinvLines_of_ne_zero {s : State} {l : BitVec 6} (h : s.S l ≠ 0) (p : BitVec 6) :
    s.cinvLines p l = s.readableLines (s.S64 p) (s.S l).toNat := by
  have hn : (s.S l).toNat ≠ 0 := BitVec.toNat_ne.mp h
  simp [State.cinvLines, hn]

/-- CPREF's requests leave leases and work at the homes. -/
theorem execCpref_eq (p l : BitVec 6) (v : BitVec 2) (s : State) : ∃ u, OnlyLeases s u ∧ execCpref p l v s = .next u.done := by
  refine ⟨_, ?_, rfl⟩
  refine OnlyLeases.foldl (fun t i => ?_) _ s
  split
  · exact (t.homeRead_charged ..).onlyLeases
  · exact t.takeLease_onlyLeases ..

/-- Settles O24: CINV filters the leases of its core by the lines of its range; CPREF takes leases alone. -/
theorem cacheControl : Obligations.CacheControl := by
  unfold Obligations.CacheControl
  refine ⟨fun p l s => ?_, fun p l v s => ?_⟩
  · have hleases : OnlyLeases s (s.invalidated p l) := rfl
    have hmem {e : Lease} := State.mem_invalidated (s := s) (p := p) (l := l) (e := e)
    refine ⟨(s.invalidated p l).done, exec_cinv p l s, rfl, hleases.sameMemory, hleases.unitDone, fun e he => (hmem.mp he).1,
      fun e he hunit => hmem.mpr ⟨he, .inl hunit⟩, fun hzero => ?_, fun pa hne hfit hpa e he => ?_⟩
    · refine List.filter_eq_self.mpr fun e _ => ?_
      simp [State.cinvLines_of_zero hzero]
    · rw [← State.mem_readableLines (BitVec.toNat_ne.mp hne) hfit hpa, ← State.cinvLines_of_ne_zero hne, not_and_or]
      exact hmem.trans (and_iff_right he)
  · obtain ⟨u, hu, hexec⟩ := execCpref_eq p l v s
    refine ⟨u.done, (exec_cpref p l v s).trans hexec, hu.sameMemory, hu.unitDone, ?_⟩
    rw [hu]
    rfl

end Sys2Proof.Machine

/-!
A texture instruction and a FILL over a main memory that is not in canonical form: the core takes the bytes of a texel and of a slot
as one run (State.seenN), and what it reads at each address (State.seen) differs where an address is listed behind a lower one.
-/
namespace Sys2Proof.Machine
open Sys2Proof.Claim

/-! ## A texel (R190, R192) -/

/-- TEXL of a texel of 16 bits and one channel into lane 0 of V[0], from the run of bytes 0x40180 and 0x40181. -/
def raggedTexel : MemOp := ⟨1, 0, 0, .tex .nearest 0 1 0 false [⟨0, [⟨0, 0x40180, 0x40180⟩], 0, 0⟩] 0⟩

/-- It is queued over a main memory that lists 0x40181 behind 0x4017F. -/
def raggedTexture : State := { raggedState with ply := { raggedState.ply with lsq := [raggedTexel] } }

theorem raggedTexture_not_memoryOk : ¬ MemoryOk raggedTexture := raggedState_not_memoryOk

theorem raggedTexture_mayPerform : MayPerform raggedTexture 1 raggedTexel := by
  refine ⟨by decide, rfl, ?_⟩
  decide +kernel

/-- The texel taken is 1: the run holds 1 and 0. -/
theorem raggedTexture_takes : ((raggedTexture.takeResult raggedTexture.ply.uid 1).awake.V 0).at 0 = 1 := by decide +kernel

/-- Its bytes, as the core reads each of them, are 1 and 1. -/
theorem raggedTexture_globalBytes : globalBytes raggedTexture 1 0 0x40180 2 = [1, 1] := by decide +kernel

/-- Refutes O21: in raggedTexture the lane takes 1, where the bytes that its core reads make 257. Main memory there is not in
canonical form (raggedTexture_not_memoryOk), which the statement does not ask for. -/
theorem not_textureIssue : ¬ Obligations.TextureIssue := by
  unfold Obligations.TextureIssue
  rintro ⟨-, -, -, hperform, -⟩
  obtain ⟨t, hexec, -, hvalues, -⟩ := hperform 1 raggedTexel .nearest 0 1 0 [⟨0, [⟨0, 0x40180, 0x40180⟩], 0, 0⟩] 0 raggedTexture
    raggedTexture_mayPerform rfl (.inr (by decide)) (by decide) (by decide) (by decide +kernel)
  have ht : (raggedTexture.takeResult raggedTexture.ply.uid 1).awake = t :=
    Host.Outcome.next.inj ((exec_longLatencyResult ..).symm.trans hexec)
  have hvalue : (t.V 0).at 0 = BitVec.ofNat 32 (leNat (slice (globalBytes raggedTexture 1 0 0x40180 2) 0 4)) :=
    hvalues 0 (by decide) 0 (by decide)
  rw [← ht, raggedTexture_takes, raggedTexture_globalBytes] at hvalue
  exact absurd hvalue (by decide)

/-! ## A slot (R197, R198) -/

/-- A FILL may name the slot at 0x40000 by S[5] : S[4]; its run of 392 bytes ends with 0x40187. -/
def raggedSlot : State := { raggedState with ply := { raggedState.ply with sregs := raggedState.ply.sregs.set 4 0x40000 } }

theorem raggedSlot_not_memoryOk : ¬ MemoryOk raggedSlot := raggedState_not_memoryOk

theorem raggedSlot_reaches : SlotsReach raggedSlot .read (raggedSlot.S64 4) 1 fun _ => 0x40000 := by
  refine ⟨rfl, fun j hj => ?_⟩
  obtain rfl : j = 0 := by omega
  exact ⟨by unfold canonical; decide, rfl, translate_of_page 127 raggedState_page⟩

/-- Byte 0x181 of each slot that the fills of a queue took. -/
def filledBytes (l : List MemOp) : List (Option Byte) :=
  l.flatMap fun o => match o.kind with
    | .fill _ _ _ taken _ => taken.map (·[0x181]?)
    | _ => []

/-- The queue of the issuing ply that an instruction leaves. -/
def queueAfter : Outcome → List MemOp
  | .next t => t.ply.lsq
  | _ => []

/-- The FILL takes 0 there. -/
theorem raggedSlot_takes : filledBytes (queueAfter (exec (.fill 0 4 0) raggedSlot)) = [some 0] := by decide +kernel

/-- The core reads 1 there. -/
theorem raggedSlot_globalBytes : (globalBytes raggedSlot (raggedSlot.seq + 1) 97 0x40000 392)[0x181]? = some 1 := by decide +kernel

/-- A queue that a unit's reads and its access left (R189). -/
theorem lsq_of_queuesReading {s t : State} {ks : List MemKind} (h : QueuesReading s t ks) : t.ply.lsq = s.ply.lsq ++ s.entries ks := by
  obtain ⟨u, hu, -, ⟨-, -, -, -, -, -, hply⟩, -⟩ := h
  refine (congrArg Ply.lsq hply).trans ?_
  rw [hu]
  rfl

/-- Refutes O22: in raggedSlot a FILL enters the queue with 0 for byte 0x181 of its slot, where its core reads 1. Main memory there is
not in canonical form (raggedSlot_not_memoryOk), which the statement does not ask for. -/
theorem not_spillAndFill : ¬ Obligations.SpillAndFill := by
  unfold Obligations.SpillAndFill
  rintro ⟨hslots, -⟩
  obtain ⟨-, hfill, -⟩ := hslots 0 4 0 raggedSlot (fun _ => 0x40000) (by decide) (by decide)
  obtain ⟨t, hexec, hqueues⟩ := hfill raggedSlot_reaches fun j _ => ⟨by decide +kernel, fun _ => rfl⟩
  have htaken : filledBytes t.ply.lsq = [some 0] := by
    rw [← raggedSlot_takes, hexec]
    rfl
  have hread : filledBytes t.ply.lsq = [(globalBytes raggedSlot (raggedSlot.seq + 1) 97 0x40000 392)[0x181]?] := by
    rw [lsq_of_queuesReading hqueues]
    rfl
  rw [htaken, raggedSlot_globalBytes] at hread
  exact absurd hread (by decide)

end Sys2Proof.Machine

/-!
Matrix instructions as they issue (R200 to R204, R208 to R210, R214 to R217): the checks of a unit that passes them, the entry that
it makes in its core's queue, and how its path goes on.
-/
namespace Sys2Proof.Machine
open Sys2Proof.Claim

theorem exec_mzero (t : BitVec 3) (s : State) : exec (.mzero t) s = execMzero t s := rfl
theorem exec_mrd (t : BitVec 3) (g j : BitVec 6) (s : State) : exec (.mrd t g j) s = execMrd t g j s := rfl
theorem exec_mwr (t : BitVec 3) (g j : BitVec 6) (s : State) : exec (.mwr t g j) s = execMwr t g j s := rfl
theorem exec_mma (t a b : BitVec 3) (g h : BitVec 6) (z : BitVec 1) (s : State) :
    exec (.mma t a b g h z) s = execMma t a b g h z s := rfl
theorem exec_mmabp (t p : BitVec 3) (g h : BitVec 6) (z : BitVec 1) (s : State) :
    exec (.mmabp t p g h z) s = execMmabp t p g h z s := rfl
theorem exec_mcvst (t a b : BitVec 3) (g : BitVec 6) (z : BitVec 1) (s : State) :
    exec (.mcvst t a b g z) s = execMcvst t a b g z s := rfl

/-! ## The queue of the engine (R201) -/

/-- An instruction of tile tile has entered the engine's queue under the next issue number; l is then the ply's load-store queue. -/
def State.mtxQueued (s : State) (l : List MemOp) (tile : Nat) (k : MtxKind) : State :=
  State.queueMtx { s with seq := s.seq + 1, ply := { s.ply with lsq := l } } (s.seq + 1) tile k

theorem State.mtxQueued_sameRun (s : State) (l : List MemOp) (tile : Nat) (k : MtxKind) : SameRun s (s.mtxQueued l tile k) :=
  ⟨rfl, rfl, rfl, rfl, rfl, rfl⟩

/-- What this leaves of the ply's core. -/
def State.mtxEntered (s : State) (tile : Nat) (k : MtxKind) (c : Core) : Core :=
  { c with mtxq := c.mtxq ++ [⟨s.seq + 1, s.ply.uid, s.ply.slot, s.issue.first, s.ply.pos, tile, k, s.now⟩] }

theorem State.mtxEntered_space (s : State) (tile : Nat) (k : MtxKind) (c : Core) (sp : Space) :
    (s.mtxEntered tile k c).space sp = c.space sp := by cases sp <;> rfl

/-- It stands in the queue, whatever becomes of the ply. -/
theorem State.mtxQueued_enters (s : State) (l : List MemOp) (tile : Nat) (k : MtxKind) (p : Ply) :
    EntersMatrix s { s.mtxQueued l tile k with ply := p } tile k := by
  refine ⟨rfl, SameMemory.of_localByte rfl rfl rfl ?_, fun n hn => tget_tset_other _ _ hn _, ?_⟩
  · exact State.modCore_localByte (s.mtxEntered_space tile k) s s.ply.core
  · exact State.modCore_core s s.ply.core (s.mtxEntered tile k)

/-- The unit completes. -/
theorem State.mtxQueued_queues (s : State) (l : List MemOp) (tile : Nat) (k : MtxKind) :
    QueuesMatrix s (s.mtxQueued l tile k).done { s.ply with lsq := l } tile k :=
  ⟨s.mtxQueued_enters .., (s.mtxQueued_sameRun ..).unitDone⟩

/-- A path that begins a wait, at a unit that has left its ply as it was (R101). -/
theorem State.wait_beginsWait {s u : State} (hply : u.ply = s.ply) (hissue : u.issue = s.issue) (htime : u.ptime = s.ptime)
    (w : Wait) : BeginsWait s (u.wait w) w := by
  have hwait : (u.wait w).ply = s.ply.setCur { s.path with
      wait := w, waitWords := s.issue.words, waitPrio := s.issue.hprio.map fun h => BitVec.ofNat 2 h.toNat
      pc := s.issue.first, since := s.now } := by
    simp only [State.wait, State.path, State.now, hply, hissue, htime]
  have hslot : (u.wait w).ply.slot = s.ply.slot := by rw [hwait, Ply.setCur_slot]
  refine ⟨?_, hslot, ?_, ?_⟩
  · simp only [State.path, hwait, Ply.setCur_cur]
  · have hother : (u.wait w).ply.other = s.ply.other := by
      unfold Ply.other
      rw [hslot]
    rw [hother, hwait, Ply.setCur_other]
  · rw [hwait]
    exact Ply.setCur_frame ..

/-! ## The checks of tiles and descriptors (R202 to R204, R210) -/

theorem State.checkMma_ready {s : State} {tile : Nat} (h : TileReady s tile) (k : State) : s.checkMma tile k = k := by
  obtain ⟨htile, hmma⟩ := h
  have hlt : ¬ s.ply.actiles ≤ tile := Nat.not_le.mpr htile
  simp [State.checkMma, State.checkTile, hlt, hmma]

theorem State.checkSlice_ready {s : State} {t : BitVec 3} {v : Nat} (h : TileReady s t.toNat) (hv : v + 8 ≤ s.ply.vregs.length)
    (k : State) : s.checkSlice t v k = k := by
  rw [State.checkSlice, Ply.vcount, if_neg (Nat.not_lt.mpr hv), State.checkMma_ready h]

theorem toInt_emod_sixteen {w : Word} (h : w.toNat % 16 = 0) : w.toInt % 16 = 0 := by
  rw [BitVec.toInt_eq_toNat_cond]
  split <;> omega

/-- A local address in its form and of the space asked for passes the checks of both (R172). -/
theorem localForm_passes {x : DWord} {code : Nat} {sp : Space} (hsp : spaceOf code = some sp)
    (h : isLocal x = true → x.toNat / 2 ^ 61 % 4 = code ∧ x.toNat / 2 ^ 21 % 2 ^ 40 = 0) :
    (isLocal x && (local64 x).isNone) = false ∧ (isLocal x && (local64 x).map (·.1) != some sp) = false := by
  cases hloc : isLocal x with
  | false => exact ⟨rfl, rfl⟩
  | true =>
    obtain ⟨hcode, hzero⟩ := h hloc
    have hspace : bits x.toNat 62 61 = code := hcode
    have hbits : bits x.toNat 60 21 = 0 := hzero
    simp [local64, hbits, hspace, hsp]

/-- A group that passes its checks is read as the operand that it describes. -/
theorem State.descriptor_of_describes {s : State} {g : BitVec 6} {rows code : Nat} {sp : Space} {x : Operand}
    (hsp : spaceOf code = some sp) (h : Describes s g rows code (s.ply.spaceLimit sp) (s.ply.absolute sp 0) x) :
    s.descriptor g rows sp = .ok x := by
  obtain ⟨rfl, haddr, hstride, hglobal, hlocal, hscale⟩ := h
  have hstride := toInt_emod_sixteen hstride
  have houtside : (if isLocal (s.S64 g) then none else (List.range rows).find? fun (m : Nat) =>
      (s.S64 g + dword (m * (s.S (g + 2)).toInt)).toNat / 2 ^ 60 != 0) = none := by
    split
    case isTrue => rfl
    case isFalse hloc =>
      refine List.find?_eq_none.mpr fun m hm => ?_
      have hcanonical := hglobal (Bool.eq_false_iff.mpr hloc) m (List.mem_range.mp hm)
      simpa only [bne_iff_ne, ne_eq, not_not, dword] using Nat.div_eq_of_lt hcanonical
  have hpast : (if isLocal (s.S64 g) then ((List.range rows).map fun (m : Nat) =>
      (s.S64 g + dword (m * (s.S (g + 2)).toInt)).toNat % 2 ^ 21).filter fun o => decide (s.ply.spaceLimit sp < o + 512)
      else []) = [] := by
    split
    case isTrue hloc =>
      obtain ⟨-, -, hlimit⟩ := hlocal hloc
      simpa [dword] using hlimit
    case isFalse => rfl
  have hform := localForm_passes (x := s.S64 g) hsp fun hloc =>
    let ⟨hcode, hzero, _⟩ := hlocal hloc
    ⟨hcode, hzero⟩
  unfold State.descriptor
  dsimp only
  rw [houtside, hpast]
  cases hen : (s.S (g + 3)).getLsbD 31 with
  | false =>
    simp only [haddr, hstride, hform, bne_self_eq_false, Bool.or_self, Bool.false_and, Bool.false_eq_true, if_false]
    rfl
  | true =>
    obtain ⟨hzero, halign, hlimit⟩ := hscale hen
    have hgroup : bits (s.S (g + 3)).toNat 16 0 = (s.S (g + 3)).toNat % 2 ^ 17 := by simp [bits]
    have hreserved : bits (s.S (g + 3)).toNat 30 17 = 0 := hzero
    have haligned : (s.S (g + 3)).toNat % 2 ^ 17 % 16 = 0 := by omega
    simp only [haddr, hstride, hform, hgroup, hreserved, haligned, Nat.not_lt.mpr hlimit, decide_false, bne_self_eq_false,
      Bool.or_self, Bool.and_false, Bool.false_eq_true, if_false, if_true]
    rfl

/-! ## MMA and MMABP (R208, R209, R214) -/

/-- Where an MMA starts that no queued instruction of its ply comes before (R209). -/
theorem State.mmaStart_eq {s : State} (h : ∀ q ∈ (s.core s.ply.core).mtxq, q.uid ≠ s.ply.uid) (tile : Nat) :
    s.mmaStart tile = startOf s tile := by
  have hqueued (f : MtxOp → Bool) : ((s.core s.ply.core).mtxq.any fun o => o.uid == s.ply.uid && f o) = false :=
    List.any_eq_false.mpr fun q hq => by simp [h q hq]
  have hvalid : (bits s.ply.rpr.toNat 31 31 == 0) = !s.ply.rpr.getLsbD 31 := by
    rw [BitVec.getLsbD, Nat.testBit_eq_decide_div_mod_eq, bits, Bool.eq_iff_iff]
    simp
  unfold State.mmaStart startOf
  dsimp only
  rw [hqueued, hvalid, ← ite_not]
  refine if_congr ?_ rfl rfl
  simp [bits, and_assoc]

/-- A path that is not whole raises CONVERGE (R210). -/
theorem State.mmaIssue_of_not_converged {s : State} {t : BitVec 3} (htile : TileReady s t.toNat) (h : ¬Converged s)
    (planes : Option Nat) (fa fb : Nat) (g k : BitVec 6) (z : BitVec 1) : s.mmaIssue t planes fa fb g k z = s.raiseConverge := by
  have hwhole : (s.path.member != Mask.full || s.path.active != Mask.full) = true := by
    rw [Bool.or_eq_true, bne_iff_ne, bne_iff_ne, ← not_and_or]
    exact h
  rw [State.mmaIssue, State.checkMma_ready htile, if_pos hwhole]

section
variable {s : State} {t : BitVec 3} {g h : BitVec 6} {x y : Operand} {planes : Option Nat} {fa fb : Nat} {z : BitVec 1}
  (htile : TileReady s t.toNat) (hconverged : Converged s) (hfirst : ∀ q ∈ (s.core s.ply.core).mtxq, q.uid ≠ s.ply.uid)
  (hx : Describes s g 96 0 s.ply.windowSize s.ply.windowBase x) (hy : Describes s h 64 1 2097152 0 y)
include htile hconverged hfirst hx hy

/-- An MMA whose operands pass their checks enters the queue, and completes where both are local (R208). -/
theorem State.mmaIssue_of_describes : s.mmaIssue t planes fa fb g h z =
    let u := s.mtxQueued s.ply.lsq t.toNat (.mma planes fa fb (z == 1) x y (!s.ply.supervisor) (startOf s t.toNat))
    if x.loc && y.loc then u.done else u.wait (.engine (s.seq + 1)) := by
  obtain ⟨hmember, hactive⟩ := hconverged
  have ha : s.descriptor g 96 .xbuf = .ok x := State.descriptor_of_describes rfl hx
  have hb : s.descriptor h 64 .wbuf = .ok y := State.descriptor_of_describes rfl hy
  unfold State.mmaIssue
  rw [State.checkMma_ready htile, ha, hb, hmember, hactive, State.mmaStart_eq hfirst]
  rfl

/-- An instruction that issues so goes on with local operands, and waits for the engine with a global one. -/
theorem Answers.of_mmaIssue {i : Instr} (hexec : exec i s = (s.mmaIssue t planes fa fb g h z).ok) :
    let k : MtxKind := .mma planes fa fb (z == 1) x y (!s.ply.supervisor) (startOf s t.toNat)
    (x.loc = true → y.loc = true → Answers i s fun u => QueuesMatrix s u s.ply t.toNat k) ∧
    (x.loc = false ∨ y.loc = false →
      Answers i s fun u => EntersMatrix s u t.toNat k ∧ BeginsWait s u (.engine (s.seq + 1))) := by
  rw [State.mmaIssue_of_describes htile hconverged hfirst hx hy] at hexec
  refine ⟨fun hlx hly => ⟨_, hexec, ?_⟩, fun hglobal => ⟨_, hexec, ?_⟩⟩
  · rw [hlx, hly]
    exact s.mtxQueued_queues ..
  · have hloc : (x.loc && y.loc) = false := Bool.and_eq_false_iff.mpr hglobal
    rw [hloc]
    exact ⟨s.mtxQueued_enters .., State.wait_beginsWait rfl rfl rfl _⟩

end

/-! ## MCVST (R217) -/

/-- Row m of an MCVST to global memory, where it stays in its page. -/
theorem State.mcvstRow_global {s : State} {addr : DWord} {stride : Int} {n m pa : Nat} (hn : n ≠ 0) (hloc : isLocal addr = false)
    (hfit : (addr + BitVec.ofInt 64 (m * stride)).toNat % 65536 + n ≤ 65536)
    (hpa : Reaches s .write 1 (addr + BitVec.ofInt 64 (m * stride)) m pa) :
    s.mcvstRow addr stride n m = .ok [⟨m, addr + BitVec.ofInt 64 (m * stride), pa, zeros n⟩] := by
  unfold State.mcvstRow dword
  simp only [hloc, cutPages_of_fits hn hfit]
  simp [State.checkGlobal_of_reaches hpa]

/-- Row m of an MCVST to XBUF, where it stays in the window. -/
theorem State.mcvstRow_local {s : State} {addr : DWord} {stride : Int} {n m : Nat} (hloc : addr.getLsbD 63 = true)
    (hzero : addr.toNat / 2 ^ 21 % 2 ^ 42 = 0)
    (hfit : (addr + BitVec.ofInt 64 (m * stride)).toNat % 2 ^ 21 + n ≤ s.ply.windowSize) :
    s.mcvstRow addr stride n m = .ok [⟨m, BitVec.ofNat 64 (2 ^ 63 + (addr + BitVec.ofInt 64 (m * stride)).toNat % 2 ^ 21),
      s.ply.windowBase + (addr + BitVec.ofInt 64 (m * stride)).toNat % 2 ^ 21, zeros n⟩] := by
  have hhigh : addr.toNat / 2 ^ 21 * 2 ^ 21 = 2 ^ 63 := by
    rw [BitVec.getLsbD, Nat.testBit_eq_decide_div_mod_eq, decide_eq_true_iff] at hloc
    omega
  unfold State.mcvstRow dword
  dsimp only
  rw [isLocal, hloc, if_pos rfl, if_neg (Nat.not_lt.mpr hfit), hhigh]
  rfl

/-- The stores of an MCVST whose rows pass their checks enter the load-store queue, and it the engine's, under one issue number. -/
def State.mcvstQueued (s : State) (tile fmt : Nat) (i32 sat : Bool) (k : MemKind) : State :=
  (s.mtxQueued (s.ply.lsq ++ [⟨s.seq + 1, s.ply.slot, s.issue.first, k⟩]) tile (.mcvst fmt i32 sat)).done

theorem State.mcvstQueued_eq (s : State) (tile fmt : Nat) (i32 sat : Bool) (k : MemKind) :
    s.mcvstQueued tile fmt i32 sat k = ((s.queueMem k).queueMtx (s.queueMem k).seq tile (.mcvst fmt i32 sat)).done := by
  rw [State.queueMem_eq]
  rfl

/-- The rows of the lanes that store pass their checks, each with one store. -/
def RowsPass (s : State) (g : BitVec 6) (n : Nat) (ls : List LaneStore) : Prop :=
  (storingLanes s).map (s.mcvstRow (s.S64 g) (s.S (g + 2)).toInt n) = ls.map fun l => .ok [l]

theorem rowsPass_map {s : State} {g : BitVec 6} {n : Nat} {row : Nat → LaneStore}
    (h : ∀ m ∈ storingLanes s, s.mcvstRow (s.S64 g) (s.S (g + 2)).toInt n m = .ok [row m]) :
    RowsPass s g n ((storingLanes s).map row) := by
  rw [RowsPass, List.map_map]
  exact List.map_congr_left h

theorem State.mcvstIssue_of_rowsPass {s : State} {t : BitVec 3} {fmt : Nat} {g : BitVec 6} {ls : List LaneStore} (i32 sat : Bool)
    (htile : TileReady s t.toNat) (haddr : (s.S64 g).toNat % 16 = 0) (hstride : (s.S (g + 2)).toNat % 16 = 0)
    (hlocal : isLocal (s.S64 g) = true → (s.S64 g).toNat / 2 ^ 21 % 2 ^ 42 = 0)
    (hrows : RowsPass s g (64 * mcvstBytes fmt) ls) :
    s.mcvstIssue t fmt i32 sat g =
      if ls = [] then s.done
      else if isLocal (s.S64 g) then s.mcvstQueued t.toNat fmt i32 sat (.storeX ls true)
      else (s.fillTlb s.ply.tenant (ls.map (·.va))).mcvstQueued t.toNat fmt i32 sat (.store ls 0) := by
  have hform := localForm_passes (x := s.S64 g) (code := 0) (sp := .xbuf) rfl fun hloc => by
    have hzero := hlocal hloc
    omega
  have hnone : ls.filterMap (fun _ => (none : Option (Cause × List Cause))) = [] :=
    List.filterMap_eq_nil_iff.mpr fun _ _ => rfl
  unfold RowsPass at hrows
  unfold State.mcvstIssue
  rw [State.checkMma_ready htile]
  dsimp only
  rw [State.storeLanes_eq, hrows, List.filterMap_map, List.flatMap_map]
  simp only [hform, haddr, hstride, bne_self_eq_false, Bool.false_eq_true, if_false, Function.comp_def, hnone,
    List.flatMap_singleton', List.isEmpty_iff, State.mcvstQueued_eq]
  cases isLocal (s.S64 g) <;> rfl

theorem mcvst_rowBytes (a : BitVec 3) : 64 * mcvstBytes a.toNat = if a = 0 then 128 else 64 := by
  revert a
  decide

theorem State.mcvstQueued_queues (s : State) (tile fmt : Nat) (i32 sat : Bool) (k : MemKind) :
    QueuesMatrix s (s.mcvstQueued tile fmt i32 sat k)
      { s.ply with lsq := s.ply.lsq ++ [⟨s.seq + 1, s.ply.slot, s.issue.first, k⟩] } tile (.mcvst fmt i32 sat) :=
  s.mtxQueued_queues ..

/-- So it does behind the walks of its rows, which leave what walks leave. -/
theorem Filled.mcvstQueued_queues {s v : State} (h : Filled s v) (tile fmt : Nat) (i32 sat : Bool) (k : MemKind) :
    v = { s with tlb := v.tlb, vaults := v.vaults, homeLeases := v.homeLeases } ∧ Walked s v ∧
      QueuesMatrix v (v.mcvstQueued tile fmt i32 sat k)
        { s.ply with lsq := s.ply.lsq ++ [⟨s.seq + 1, s.ply.slot, s.issue.first, k⟩] } tile (.mcvst fmt i32 sat) := by
  have hply : v.ply = s.ply := by rw [h.rest]
  have hseq : v.seq = s.seq := by rw [h.rest]
  have hissue : v.issue = s.issue := by rw [h.rest]
  refine ⟨h.rest, ⟨h.tlb, h.vault⟩, ?_⟩
  rw [← hply, ← hseq, ← hissue]
  exact v.mcvstQueued_queues ..

/-! ## The statement -/

/-- Settles O28: a unit that passes its checks makes its entry, then completes or begins its wait; the rows of an MCVST enter the
load-store queue ahead of it, under its issue number. -/
theorem matrixIssue : Obligations.MatrixIssue := by
  unfold Obligations.MatrixIssue
  refine ⟨fun t s htile => ?_, fun t g j s htile hv => ⟨?_, ?_⟩, fun t a b g h z s x y htile hconverged hfirst hx hy => ?_,
    fun t a b g h z s htile hnot hu => ?_, fun t a b g z s htile haddr hstride => ?_⟩
  · exact ⟨_, (exec_mzero ..).trans (congrArg State.ok (State.checkMma_ready htile _)), s.mtxQueued_queues ..⟩
  · exact ⟨_, (exec_mrd ..).trans (congrArg State.ok (State.checkSlice_ready htile hv _)), s.mtxQueued_queues ..⟩
  · exact ⟨_, (exec_mwr ..).trans (congrArg State.ok (State.checkSlice_ready htile hv _)), s.mtxQueued_queues ..⟩
  · have hmma := Answers.of_mmaIssue htile hconverged hfirst hx hy (exec_mma t a b g h z s)
    have hmmabp (p : BitVec 3) := Answers.of_mmaIssue htile hconverged hfirst hx hy (exec_mmabp t p g h z s)
    exact ⟨fun hlx hly => ⟨hmma.1 hlx hly, fun p => (hmmabp p).1 hlx hly⟩, fun hl => ⟨hmma.2 hl, fun p => (hmmabp p).2 hl⟩⟩
  · refine ⟨_, (exec_mma ..).trans (congrArg State.ok (State.mmaIssue_of_not_converged htile hnot ..)), ?_⟩
    exact State.raise_word hu 0x05 0 (by decide) (by decide) (by decide) (by decide) _
  · have hbytes : (if a = 0 then 128 else 64) ≠ 0 := by split <;> decide
    have hissue (ls : List LaneStore) :=
      State.mcvstIssue_of_rowsPass (fmt := a.toNat) (ls := ls) (b == 1) (z == 1) htile haddr hstride
    rw [mcvst_rowBytes] at hissue
    have hexec {u : State} (h : s.mcvstIssue t a.toNat (b == 1) (z == 1) g = u) : exec (.mcvst t a b g z) s = .next u :=
      (exec_mcvst ..).trans (congrArg State.ok h)
    refine ⟨fun pa hglobal hlanes hrow => ?_, fun hlocal hzero hlanes hrow => ?_, fun hglobal hnone => ?_⟩
    · have hloc : ¬ isLocal (s.S64 g) = true := Bool.eq_false_iff.mp hglobal
      have hrows := rowsPass_map fun m hm => State.mcvstRow_global hbytes hglobal (hrow m hm).1 (hrow m hm).2
      have hu := hissue _ (fun h => absurd h hloc) hrows
      rw [if_neg (mt List.map_eq_nil_iff.mp hlanes), if_neg hloc] at hu
      exact ⟨_, hexec hu, _, (s.fillTlb_filled ..).mcvstQueued_queues ..⟩
    · have hloc : isLocal (s.S64 g) = true := hlocal
      have hrows := rowsPass_map fun m hm => State.mcvstRow_local hlocal hzero (hrow m hm)
      have hu := hissue _ (fun _ => hzero) hrows
      rw [if_neg (mt List.map_eq_nil_iff.mp hlanes), if_pos hloc] at hu
      exact ⟨_, hexec hu, s.mcvstQueued_queues ..⟩
    · have hloc : ¬ isLocal (s.S64 g) = true := Bool.eq_false_iff.mp hglobal
      have hrows : RowsPass s g (if a = 0 then 128 else 64) [] := by rw [RowsPass, hnone, List.map_nil, List.map_nil]
      have hu := hissue [] (fun h => absurd h hloc) hrows
      have hrun : SameRun s s := ⟨rfl, rfl, rfl, rfl, rfl, rfl⟩
      exact ⟨_, hexec hu, OnlyPly.of_ply .., hrun.unitDone⟩

end Sys2Proof.Machine

/-!
Retirement, WAITC and CNTR (R220, R229): what is seen once a count has been found, how a wait begins and ends, and what the oldest
operation of a class leaves when it retires.
-/
namespace Sys2Proof.Machine
open Sys2Proof.Claim

theorem exec_retirement (uid cls : Nat) (s : State) : exec (.retirement uid cls) s = execRetirement uid cls s := rfl
theorem exec_waitc (c : BitVec 2) (k : BitVec 8) (s : State) : exec (.waitc c k) s = execWaitc c k s := rfl
theorem exec_cntr (d : BitVec 6) (c : BitVec 2) (k : BitVec 8) (s : State) : exec (.cntr d c k) s = execCntr d c k s := rfl
theorem exec_waitcReturn (uid : Nat) (s : State) : exec (.waitcReturn uid) s = execWaitcReturn uid s := rfl

/-! ## The words that a found count makes visible (R229, R231) -/

/-- A record that the count of a class removes. -/
def State.found (s : State) (uid core cls : Nat) (w : OldWord) : Bool := w.cls == some cls &&
  (if w.uid == uid then !s.counted.any fun c => c.seq == w.seq
  else cls == 3 && !(s.core core).entries.any fun e => e.seq == w.seq)

theorem State.seeWrites_eq (s : State) (uid core cls : Nat) : s.seeWrites uid core cls =
    if (s.core core).unseen.any (s.found uid core cls) then
      s.modCore core fun c => { c with unseen := c.unseen.filter fun w => !s.found uid core cls w }
    else s := rfl

theorem State.seeWrites_rest (s : State) (uid core cls : Nat) :
    s.seeWrites uid core cls = { s with cores := (s.seeWrites uid core cls).cores } := by
  rw [State.seeWrites_eq]
  split <;> rfl

theorem State.seeWrites_core (s : State) (uid core cls k : Nat) :
    (s.seeWrites uid core cls).core k = { s.core k with unseen := ((s.seeWrites uid core cls).core k).unseen } := by
  rw [State.seeWrites_eq]
  split
  · by_cases hk : k = core
    · rw [hk, State.modCore_core]
    · rw [show (State.modCore s core _).core k = s.core k from tget_tset_other _ _ hk _]
  · rfl

/-- What stays recorded was recorded, and is not among what the count has found. -/
theorem State.mem_seeWrites {s : State} {uid core cls : Nat} {w : OldWord} (h : w ∈ ((s.seeWrites uid core cls).core core).unseen) :
    w ∈ (s.core core).unseen ∧ s.found uid core cls w = false := by
  rw [State.seeWrites_eq] at h
  split at h
  · rw [State.modCore_core] at h
    simpa using h
  · next hany => exact ⟨h, by simpa using fun hw => hany (List.any_eq_true.mpr ⟨w, h, hw⟩)⟩

/-- The state in which the ply sees the writes of a class that it has found. -/
def State.seeing (s : State) (cls : Nat) : State := { s with cores := (s.seeWrites s.ply.uid s.ply.core cls).cores }

theorem State.seeWrites_self (s : State) (cls : Nat) : s.seeWrites s.ply.uid s.ply.core cls = s.seeing cls := s.seeWrites_rest ..

theorem State.seeing_seesWrites {s t : State} {cls : Nat} (h : t = { s.seeing cls with ply := t.ply }) : SeesWrites s t cls := by
  have hcore (k : Nat) : t.core k = (s.seeWrites s.ply.uid s.ply.core cls).core k := by
    rw [h]
    rfl
  refine ⟨?_, fun k => ?_, fun w hw => ?_⟩
  · rw [h]
    rfl
  · rw [hcore]
    exact State.seeWrites_core ..
  · rw [hcore] at hw
    obtain ⟨hin, hfound⟩ := State.mem_seeWrites hw
    unfold State.found at hfound
    refine ⟨hin, fun hcls huid => ?_, fun hcls h3 huid => ?_⟩
    · simpa [hcls, huid] using hfound
    · simpa [hcls, huid, h3] using hfound

/-! ## Waits that begin and end (R101, R260, R350) -/

theorem State.killHere_lives {s : State} (h : Lives s) (lost k : State → State) : s.killHere lost k = k s := by
  unfold State.killHere
  simp only [h.1, beq_self_eq_true, if_true]

theorem State.beginWait_lives {s : State} (h : Lives s) (w : Wait) (before : State → State) :
    s.beginWait w before = (before s).wait w := by
  unfold State.beginWait
  rw [h.2]
  rfl

theorem State.beginWait_waits {s : State} (h : Lives s) (w : Wait) : Waits s (s.beginWait w) w := by
  rw [State.beginWait_lives h]
  exact ⟨OnlyPly.of_ply .., State.wait_beginsWait rfl rfl rfl w⟩

/-- The path of a wait as it goes on. -/
def Path.finished (q : Path) (now : Nat) : Path :=
  { q with
    wait := .none, waitWords := 0, waitPrio := none, pc := pc60 (q.pc + BitVec.ofNat 64 (4 * q.waitWords)), since := now
    hprio := q.waitPrio.or q.hprio }

theorem Ply.finishWait_eq (p : Ply) (now : Nat) : p.finishWait now = { p.setCur (p.cur.finished now) with
    resumes := true, pos := p.pos + p.cur.waitWords, yc := p.yc + BitVec.ofNat 14 p.cur.waitWords } := rfl

theorem Ply.finishWait_cur (p : Ply) (now : Nat) : (p.finishWait now).cur = p.cur.finished now := Ply.setCur_cur ..

/-- A ply whose waiting path goes on, from a ply that differs from that of s neither in its paths nor in its progress. -/
theorem Ply.finishWait_resumes {s t : State} {p : Ply} (ht : t.ply = p.finishWait s.now) (hslot : p.slot = s.ply.slot)
    (hpath : ∀ k, p.path k = s.ply.path k) (hpos : p.pos = s.ply.pos) (hyc : p.yc = s.ply.yc) : Resumes s t p := by
  have hcur : p.cur = s.path := by
    unfold State.path Ply.cur
    rw [hslot, hpath]
  have htcur : t.path = s.path.finished s.now := by
    unfold State.path at hcur ⊢
    rw [ht, Ply.finishWait_cur, hcur]
  have hother : t.ply.other = p.other := by
    rw [ht]
    exact congrArg (1 - ·) (Ply.setCur_slot ..)
  refine ⟨?_, fun c hc => ?_, fun hc => ?_, ?_, ?_⟩
  · rw [htcur]
    rfl
  · rw [htcur]
    simp [Path.finished, hc]
  · rw [htcur]
    simp [Path.finished, hc]
  · rw [hother, ht]
    refine (Ply.setCur_other p _).trans ?_
    rw [hpath, Ply.other, hslot, Ply.other]
  · rw [ht, Ply.finishWait_eq, Ply.setCur_frame, hcur, hpos, hyc]

/-! ## WAITC and CNTR (R229) -/

theorem Ply.counterAtMost_iff (p : Ply) (cls k : Nat) : p.counterAtMost cls k = true ↔ counter p cls ≤ k := by
  unfold Ply.counterAtMost counter
  exact decide_eq_true_iff

theorem Ply.failure_eq (p : Ply) (cls : Nat) : p.failure cls = firstFailure p cls := rfl

theorem State.find_self {s : State} (huid : s.ply.uid ≠ 0) : s.find s.ply.uid = some s.ply := by
  have hres : s.ply.resident = true := by
    rw [Ply.resident]
    simpa using huid
  unfold State.find State.all
  rw [hres]
  simp

theorem State.modPly_self (s : State) (f : Ply → Ply) : s.modPly s.ply.uid f = { s with ply := f s.ply } := by
  unfold State.modPly
  rw [if_pos (by simp)]

theorem State.foundCounter_of_none {s : State} {cls : Nat} (h : firstFailure s.ply cls = none) (k : State → State) :
    s.foundCounter cls k = k (s.seeing cls) := by
  unfold State.foundCounter
  rw [Ply.failure_eq, h, ← State.seeWrites_self]

theorem State.foundCounter_of_some {s : State} {cls : Nat} {f : Failure} (h : firstFailure s.ply cls = some f) (k : State → State) :
    s.foundCounter cls k = State.raise { s with ply := s.ply.dropFailure f } f.cause := by
  unfold State.foundCounter
  rw [Ply.failure_eq, h]

theorem waitc_reached {s : State} (hl : Lives s) {c : BitVec 2} {k : BitVec 8} (h : counter s.ply c.toNat ≤ k.toNat) :
    exec (.waitc c k) s = .next (s.foundCounter c.toNat State.done) := by
  rw [exec_waitc, execWaitc]
  rw [State.killHere_lives hl, (Ply.counterAtMost_iff ..).mpr h]
  rfl

theorem waitc_waits {s : State} (hl : Lives s) {c : BitVec 2} {k : BitVec 8} (h : k.toNat < counter s.ply c.toNat) :
    exec (.waitc c k) s = .next (s.beginWait (.waitc c.toNat k.toNat)) := by
  have hnot : s.ply.counterAtMost c.toNat k.toNat = false :=
    Bool.eq_false_iff.mpr fun hle => absurd ((Ply.counterAtMost_iff ..).mp hle) (Nat.not_le.mpr h)
  rw [exec_waitc, execWaitc]
  rw [State.killHere_lives hl, hnot]
  rfl

theorem cntr_reached {s : State} (d : BitVec 6) {c : BitVec 2} {k : BitVec 8} (h : counter s.ply c.toNat ≤ k.toNat)
    (hf : firstFailure s.ply c.toNat = none) :
    exec (.cntr d c k) s = .next ((s.seeing c.toNat).sresult d 1) := by
  rw [exec_cntr, execCntr]
  rw [(Ply.counterAtMost_iff ..).mpr h, if_pos rfl, State.foundCounter_of_none hf]
  rfl

theorem cntr_short {s : State} (d : BitVec 6) {c : BitVec 2} {k : BitVec 8} (h : k.toNat < counter s.ply c.toNat) :
    exec (.cntr d c k) s = .next (s.sresult d 0) := by
  have hnot : s.ply.counterAtMost c.toNat k.toNat = false :=
    Bool.eq_false_iff.mpr fun hle => absurd ((Ply.counterAtMost_iff ..).mp hle) (Nat.not_le.mpr h)
  rw [exec_cntr, execCntr]
  rw [hnot]
  rfl

theorem State.returnWaitc_reached {s : State} {cls k : Nat} (huid : s.ply.uid ≠ 0) (hw : s.path.wait = .waitc cls k)
    (h : counter s.ply cls ≤ k) (hf : firstFailure s.ply cls = none) :
    s.returnWaitc s.ply.uid = { s.seeing cls with ply := s.ply.finishWait s.now } := by
  have hcur : s.ply.cur.wait = .waitc cls k := hw
  unfold State.returnWaitc
  rw [State.find_self huid]
  simp only [hcur, (Ply.counterAtMost_iff ..).mpr h, Ply.failure_eq, hf, if_true, State.seeWrites_self]
  exact (s.seeing cls).modPly_self _

/-- A failure that a WAITC or CNTR finds is delivered, once (R229). -/
theorem State.raise_failure {s : State} (f : Failure) (hu : s.ply.supervisor = false) :
    TakesTrap { s with ply := s.ply.dropFailure f } (State.raise { s with ply := s.ply.dropFailure f } f.cause)
      s.issue.first s.ply.pos 0x0E 13 f.detail.toNat f.addr 127 :=
  State.raise_traps (s := { s with ply := s.ply.dropFailure f }) (c := f.cause) hu rfl rfl
    (show (0x0E : Nat) ≠ 0x21 by decide) _

/-! ## The oldest operation of a class retires (R220) -/

/-- The counter one lower; the failure is kept by a ply that has lanes (R229). -/
def Ply.retiresOp (p : Ply) (cls : Nat) (f : Option Failure) : Ply :=
  let p := p.setCnt cls ((p.cnt[cls]?).getD 0 - 1)
  match f with
  | some f => if p.occ == 0 then p else { p with failures := p.failures ++ [f] }
  | none => p

theorem Ply.retiresOp_cnt (p : Ply) (cls : Nat) (f : Option Failure) :
    (p.retiresOp cls f).cnt = p.cnt.setIfInBounds cls ((p.cnt[cls]?).getD 0 - 1) := by
  unfold Ply.retiresOp
  dsimp only
  split
  · split <;> rfl
  · rfl

theorem Ply.retiresOp_eq {p : Ply} (h : p.occ ≠ 0) (cls : Nat) (f : Option Failure) : p.retiresOp cls f =
    { p with cnt := (p.retiresOp cls f).cnt, failures := p.failures ++ f.toList } := by
  have hocc : ¬ (p.occ == 0) = true := by simpa using h
  rw [Ply.retiresOp_cnt]
  cases f with
  | none => simp [Ply.retiresOp, Ply.setCnt]
  | some f => exact if_neg hocc

theorem Ply.retiresOp_counter (p : Ply) {cls k : Nat} (hk : k < 4) (f : Option Failure) :
    ((p.retiresOp cls f).cnt[k]?).getD 0 = (p.cnt[k]?).getD 0 - if k = cls then 1 else 0 := by
  rw [Ply.retiresOp_cnt, Vector.getElem?_setIfInBounds]
  by_cases h : k = cls
  · subst h
    simp [hk]
  · simp [h, Ne.symm h]

/-- Operation seq is gone from the counted ones and from the queues of the engines. -/
def State.withoutOp (s : State) (seq : Nat) : State := { s with
  counted := s.counted.filter fun x => x.seq != seq
  fabric := s.fabric.filter fun o => o.seq != seq
  cores := s.cores.map fun (k, x) => (k, { x with copyq := x.copyq.filter fun o => o.seq != seq }) }

theorem tget_map {α : Type} (d : Nat → α) (f : α → α) (k : Nat) (hd : f (d k) = d k) (t : Table α) :
    tget (d k) k (t.map fun (j, x) => (j, f x)) = f (tget (d k) k t) := by
  induction t with
  | nil => exact hd.symm
  | cons x t ih =>
    obtain ⟨j, x⟩ := x
    simp only [List.map_cons, tget]
    split
    · rfl
    · exact ih

theorem State.withoutOp_localByte (s : State) (seq core : Nat) (sp : Space) (a : Nat) :
    (s.withoutOp seq).localByte core sp a = s.localByte core sp a := by
  have hcore : (s.withoutOp seq).core core =
      { s.core core with copyq := (s.core core).copyq.filter fun o => o.seq != seq } :=
    tget_map Core.reset (fun x => { x with copyq := x.copyq.filter fun o => o.seq != seq }) core rfl s.cores
  unfold State.localByte
  rw [hcore]
  cases sp <;> rfl

/-- A complete operation that left no byte unwritten retires, and credits nothing. -/
theorem State.retireOp_eq {s : State} {cls : Nat} {c : Counted} (hg : ∀ p ∈ s.ghosts, p.uid ≠ s.ply.uid)
    (hc : s.counted.find? (fun x => x.uid == s.ply.uid && x.cls == cls) = some c) (hdone : c.complete = true)
    (hcopies : ∀ x ∈ s.cores, ∀ o ∈ x.2.copyq, o.seq = c.seq → o.unwritten = [])
    (hgets : ∀ o ∈ s.fabric, o.seq = c.seq → o.owed = [] ∧ o.unwritten = 0) :
    s.retireOp s.ply.uid cls = (s.withoutOp c.seq).modAny s.ply.uid fun p => p.retiresOp cls c.failure := by
  have hleft : (s.cores.flatMap fun (_, (x : Core)) =>
      x.copyq.filter fun (o : CopyOp) => o.seq == c.seq && !o.unwritten.isEmpty) = [] :=
    List.flatMap_eq_nil_iff.mpr fun x hx => List.filter_eq_nil_iff.mpr fun o ho => by
      simp only [Bool.and_eq_true, beq_iff_eq, Bool.not_eq_true', List.isEmpty_eq_false_iff, not_and, not_not]
      exact hcopies x hx o ho
  have hcredit (u : State) : (s.fabric.filter fun o => o.seq == c.seq).foldl State.creditRest u = u := by
    refine List.foldlRecOn (motive := fun v => v = u) _ _ rfl fun v hv o ho => ?_
    obtain ⟨hin, hseq⟩ := List.mem_filter.mp ho
    obtain ⟨howed, hunwritten⟩ := hgets o hin (beq_iff_eq.mp hseq)
    rw [hv]
    unfold State.creditRest
    split
    · simp [howed, hunwritten]
    · rfl
  have hghosts (f : Ply → Ply) :
      ((s.withoutOp c.seq).modAny s.ply.uid f).ghosts.find? (fun p => p.uid == s.ply.uid) = none := by
    have hsame : ((s.withoutOp c.seq).modAny s.ply.uid f).ghosts = s.ghosts := State.modAny_ghosts (s := s.withoutOp c.seq) hg f
    rw [hsame]
    exact List.find?_eq_none.mpr fun p hp => by simpa using hg p hp
  have hop : s.opDone c = true := by simp [State.opDone, hdone]
  unfold State.retireOp
  rw [hc]
  dsimp only
  rw [if_pos hop, hleft, List.foldl_nil, hcredit]
  split
  · next hfind => exact absurd (hfind.symm.trans (hghosts _)) (by simp)
  · rfl

/-! ## The statement -/

/-- The oldest operation of a class retires. -/
theorem retirement_retires {cls : Nat} {c : Counted} {s : State} (hcls : cls < 3) (hg : ∀ p ∈ s.ghosts, p.uid ≠ s.ply.uid)
    (hocc : s.ply.occ ≠ 0) (hc : s.counted.find? (fun x => x.uid == s.ply.uid && x.cls == cls) = some c)
    (hdone : c.complete = true) (hcopies : ∀ x ∈ s.cores, ∀ o ∈ x.2.copyq, o.seq = c.seq → o.unwritten = [])
    (hgets : ∀ o ∈ s.fabric, o.seq = c.seq → o.owed = [] ∧ o.unwritten = 0) :
    Answers (.retirement s.ply.uid cls) s fun t => SameMemory s t ∧ t.counted = s.counted.filter (fun x => x.seq != c.seq) ∧
      (∀ k : Nat, k < 4 → (t.ply.cnt[k]?).getD 0 = (s.ply.cnt[k]?).getD 0 - if k = cls then 1 else 0) ∧
      t.ply = { s.ply with cnt := t.ply.cnt, failures := s.ply.failures ++ c.failure.toList } := by
  have hclass : ¬ (cls == 3) = true := by simp; omega
  have hexec : exec (.retirement s.ply.uid cls) s = .next (s.retireOp s.ply.uid cls).reap :=
    (exec_retirement ..).trans (congrArg (fun t => Host.Outcome.next (State.reap t)) (if_neg hclass))
  have hmod := State.modAny_eq (s := s.withoutOp c.seq) (uid := s.ply.uid) rfl fun p => p.retiresOp cls c.failure
  rw [State.retireOp_eq hg hc hdone hcopies hgets, hmod] at hexec
  exact ⟨_, hexec, SameMemory.of_localByte rfl rfl rfl (s.withoutOp_localByte c.seq), rfl,
    fun k hk => s.ply.retiresOp_counter hk c.failure, Ply.retiresOp_eq hocc cls c.failure⟩

/-- Settles O31: the retired operation leaves the queues, the count that a WAITC or CNTR finds makes the writes of the class seen,
and a failure that one finds is raised from the ply without it. -/
theorem countedWaits : Obligations.CountedWaits := by
  unfold Obligations.CountedWaits
  refine ⟨fun cls c s hcls _ hg hocc hc hdone hcopies hgets => retirement_retires hcls hg hocc hc hdone hcopies hgets,
    fun c k s hl => ⟨fun hle hf => ?_, fun hlt => ⟨_, waitc_waits hl hlt, State.beginWait_waits hl _⟩,
      fun f hle hf hu => ?_⟩, fun d c k s h => ?_, fun cls k s huid hw hle hf => ?_⟩
  · have hexec := waitc_reached hl hle
    rw [State.foundCounter_of_none hf] at hexec
    have hrun : SameRun s (s.seeing c.toNat) := ⟨rfl, rfl, rfl, rfl, rfl, rfl⟩
    exact ⟨_, hexec, State.seeing_seesWrites rfl, hrun.unitDone⟩
  · have hexec := waitc_reached hl hle
    rw [State.foundCounter_of_some hf] at hexec
    obtain ⟨⟨hrest, hmem⟩, henters⟩ := State.raise_failure (s := s) f hu
    exact ⟨_, hexec, ⟨hrest, hmem⟩, henters⟩
  · by_cases hlt : k.toNat < counter s.ply c.toNat
    · have htruth : truth (counter s.ply c.toNat ≤ k.toNat) = 0 := if_neg (Nat.not_le.mpr hlt)
      rw [htruth]
      exact ⟨_, cntr_short d hlt, s.sresult_writes d 0, fun _ => rfl, fun hle => absurd hle (Nat.not_le.mpr hlt)⟩
    · have hle := Nat.not_lt.mp hlt
      have htruth : truth (counter s.ply c.toNat ≤ k.toNat) = 1 := if_pos hle
      rw [htruth]
      exact ⟨_, cntr_reached d hle (h.resolve_left hlt), (s.seeing c.toNat).sresult_writes d 1,
        fun h => absurd h hlt, fun _ => State.seeing_seesWrites rfl⟩
  · exact ⟨_, (exec_waitcReturn ..).trans (congrArg State.ok (State.returnWaitc_reached huid hw hle hf)),
      State.seeing_seesWrites rfl, Ply.finishWait_resumes rfl rfl (fun _ => rfl) rfl rfl⟩

end Sys2Proof.Machine

/-!
The barrier instructions at issue (R233 to R235, R310): the leaf that a unit names, what is put into a leaf, and the causes of
units that raise one.
-/
namespace Sys2Proof.Machine
open Sys2Proof.Claim

theorem exec_bara (d b : BitVec 6) (s : State) : exec (.bara d b) s = execBara d b s := rfl
theorem exec_baraEnr (d b : BitVec 6) (s : State) : exec (.baraEnr d b) s = execBaraEnr d b s := rfl
theorem exec_barw (p b : BitVec 6) (s : State) : exec (.barw p b) s = execBarw p b s := rfl
theorem exec_baraw (b : BitVec 6) (s : State) : exec (.baraw b) s = execBaraw b s := rfl
theorem exec_barx (n b : BitVec 6) (s : State) : exec (.barx n b) s = execBarx n b s := rfl
theorem exec_barinit (n b : BitVec 6) (s : State) : exec (.barinit n b) s = execBarinit n b s := rfl

/-! ## Causes with or without an address (R165, R169) -/

/-- A cause without a batch record is delivered at user privilege: with its address, or with a free one where its entry states
none (log 15). -/
theorem State.raise_delivers {s : State} {c : Cause} (hu : s.ply.supervisor = false) (h6 : c.code ≠ 6) (hp : c.isPage = false)
    (h21 : c.code ≠ 0x21) (faults : List Cause) : ∃ e, (c.given = true → e = c.addr) ∧
      TakesTrap s (s.raise c faults) s.issue.first s.ply.pos c.code c.sub c.detail e c.lane := by
  cases hg : c.given with
  | true =>
    have htrap := State.raise_traps hu hg hp h21 faults
    rw [if_neg h6, if_neg h6] at htrap
    exact ⟨_, fun _ => rfl, htrap⟩
  | false =>
    have hopen : s.raise c faults = s.raise { c with addr := Config.openAddress s.tick, given := true } faults := by
      have hp' (a : DWord) (g : Bool) : ({ c with addr := a, given := g } : Cause).isPage = false := hp
      unfold State.raise State.raiseAt
      simp only [hg, hp', hu, beq_eq_false_iff_ne.mpr h21, Bool.false_eq_true, if_false, if_true]
      rfl
    have htrap := State.raise_traps (s := s) (c := { c with addr := Config.openAddress s.tick, given := true }) hu rfl hp h21 faults
    rw [if_neg h6, if_neg h6, ← hopen] at htrap
    exact ⟨_, nofun, htrap⟩

/-! ## Leaves (R233, R234) -/

theorem State.setLeaf_core_same (s : State) (core leaf : Nat) (l : Leaf) :
    (s.setLeaf core leaf l).core core = { s.core core with leaves := tset leaf l (s.core core).leaves } := State.modCore_core ..

theorem State.setLeaf_core_other (s : State) {core k : Nat} (h : k ≠ core) (leaf : Nat) (l : Leaf) :
    (s.setLeaf core leaf l).core k = s.core k := tget_tset_other _ _ h _

@[simp] theorem State.setLeaf_leaf (s : State) (core leaf : Nat) (l : Leaf) : (s.setLeaf core leaf l).leaf core leaf = l := by
  unfold State.leaf
  rw [State.setLeaf_core_same]
  exact tget_tset_same ..

theorem State.setLeaf_leaf_other (s : State) {core leaf c n : Nat} (h : c ≠ core ∨ n ≠ leaf) (l : Leaf) :
    (s.setLeaf core leaf l).leaf c n = s.leaf c n := by
  unfold State.leaf
  by_cases hc : c = core
  · subst hc
    rw [State.setLeaf_core_same]
    exact tget_tset_other _ _ (h.resolve_left (by simp)) _
  · rw [State.setLeaf_core_other s hc]

theorem State.setLeaf_localByte (s : State) (core leaf : Nat) (l : Leaf) (k : Nat) (sp : Space) (a : Nat) :
    (s.setLeaf core leaf l).localByte k sp a = s.localByte k sp a :=
  State.modCore_localByte (fun _ sp => by cases sp <;> rfl) ..

/-- A leaf is set, whatever becomes of the ply. -/
theorem State.setLeaf_setsLeaf (s : State) (core leaf : Nat) (l : Leaf) (p : Ply) :
    SetsLeaf s { s.setLeaf core leaf l with ply := p } core leaf l := by
  refine ⟨rfl, SameMemory.of_localByte rfl rfl rfl (s.setLeaf_localByte core leaf l), s.setLeaf_leaf core leaf l,
    fun c n h => s.setLeaf_leaf_other h l, fun c => ?_⟩
  have hcore : ({ s.setLeaf core leaf l with ply := p } : State).core c = (s.setLeaf core leaf l).core c := rfl
  rw [hcore]
  by_cases hc : c = core
  · rw [hc, State.setLeaf_core_same]
  · rw [State.setLeaf_core_other s hc]

@[simp] theorem State.setRoot_root (s : State) (cluster root : Nat) (r : Root) : (s.setRoot cluster root r).root cluster root = r := by
  unfold State.root State.setRoot State.modCluster
  rw [State.setCluster_cluster]
  exact tget_tset_same ..

theorem leafNamed_of_namesLeaf {s : State} {b : BitVec 6} {core leaf : Nat} (h : NamesLeaf s b core leaf) :
    leafNamed s.ply.core (s.S b) = some (core, leaf) := by
  obtain ⟨hword, hleaf, hcore, hcluster⟩ := h
  have hc : bits (s.S b).toNat 14 5 = core := by
    simp only [bits]
    omega
  have hl : bits (s.S b).toNat 4 0 = leaf := by
    simp only [bits]
    omega
  have hz : bits (s.S b).toNat 31 15 = 0 := by
    simp only [bits]
    omega
  have hcl : clusterOf core = clusterOf s.ply.core := hcluster
  unfold leafNamed
  simp [hc, hl, hz, hcl]

theorem State.withLeaf_named {s : State} {b : BitVec 6} {core leaf : Nat} (h : NamesLeaf s b core leaf) (k : Nat → Nat → State) :
    s.withLeaf b k = k core leaf := by
  unfold State.withLeaf
  rw [leafNamed_of_namesLeaf h]

/-- The memory scope of a leaf for the issuing ply (R310). -/
theorem State.leafScope_eq (s : State) (core leaf : Nat) : s.leafScope s.ply.core core leaf =
    if core = s.ply.core ∧ (s.leaf core leaf).root = none then 1 else 2 := by
  unfold State.leafScope
  simp

/-! ## Leaves in use (R235) -/

theorem Wait.isAt_iff (w : Wait) (core leaf : Nat) : w.isAt core leaf = true ↔ waitsAt w core leaf := by
  cases w <;> simp [Wait.isAt, waitsAt]

theorem State.leafBusy_iff (s : State) (core leaf : Nat) : s.leafBusy core leaf = true ↔ InUse s core leaf := by
  simp only [State.leafBusy, InUse, Bool.or_eq_true, bne_iff_ne, ne_eq, List.any_eq_true, Wait.isAt_iff, List.mem_range,
    beq_iff_eq, or_assoc]

/-! ## Arrivals that begin (R310) -/

theorem State.isEmpty_storeLanes (s : State) : s.storeLanes.isEmpty = decide (storingLanes s = []) := by
  rw [State.storeLanes_eq]
  cases storingLanes s <;> rfl

/-- The arrival of the storing lanes under the next issue number. -/
def State.arriving (s : State) (core leaf : Nat) (waits : Bool) : State := s.fresh.2.beginArrival (s.seq + 1) core leaf waits

theorem State.arriving_begins (s : State) (core leaf : Nat) (waits : Bool) (p : Ply) :
    BeginsArrival s { s.arriving core leaf waits with ply := p } core leaf waits := by
  refine ⟨rfl, SameMemory.of_eq rfl rfl rfl rfl, ?_⟩
  have harrivals : (s.arriving core leaf waits).arrivals = s.arrivals ++
    [⟨s.seq + 1, s.ply.uid, core, leaf, s.storeLanes, s.leafScope s.ply.core core leaf, waits⟩] := rfl
  rw [← State.storeLanes_eq]
  exact harrivals

/-! ## Lanes that enrol (R235) -/

/-- A lane enrols in a leaf. -/
def Ply.enrol (x : Nat × Nat) (p : Ply) (i : Nat) : Ply :=
  { p with lanes := p.lanes.setIfInBounds i { p.info i with leaf := some x } }

theorem Ply.enrol_info (x : Nat × Nat) (p : Ply) {i : Nat} (hi : i < 96) (j : Nat) : (p.enrol x j).info i =
    if i = j then { p.info i with leaf := some x } else p.info i := by
  have hinfo : (p.enrol x j).info i = ((p.lanes.setIfInBounds j { p.info j with leaf := some x })[i]?).getD LaneInfo.empty := rfl
  rw [hinfo, Vector.getElem?_setIfInBounds]
  by_cases h : j = i
  · subst h
    simp [hi]
  · simp [h, Ne.symm h, Ply.info]

theorem Ply.foldl_enrol_frame (x : Nat × Nat) (l : List Nat) (p : Ply) :
    l.foldl (Ply.enrol x) p = { p with lanes := (l.foldl (Ply.enrol x) p).lanes } :=
  List.foldlRecOn (motive := fun q : Ply => q = { p with lanes := q.lanes }) l _ rfl fun q hq i _ => by
    rw [hq]
    rfl

theorem Ply.foldl_enrol_info (x : Nat × Nat) (l : List Nat) (p : Ply) {i : Nat} (hi : i < 96) : (l.foldl (Ply.enrol x) p).info i =
    { p.info i with leaf := if i ∈ l then some x else (p.info i).leaf } := by
  induction l generalizing p with
  | nil => simp
  | cons j l ih =>
    rw [List.foldl_cons, ih, Ply.enrol_info x p hi]
    by_cases hj : i = j
    · simp [hj]
    · simp [hj]

/-! ## The barrier instructions (R235, log 48) -/

theorem bara_reads {s : State} {b : BitVec 6} {core leaf : Nat} (h : NamesLeaf s b core leaf) (d : BitVec 6)
    (hl : storingLanes s = []) : execBara d b s = (s.sresult d ((s.leaf core leaf).phase.zeroExtend 32)).ok := by
  unfold execBara
  rw [State.withLeaf_named h]
  simp [State.isEmpty_storeLanes, hl]

theorem bara_arrives {s : State} {b : BitVec 6} {core leaf : Nat} (h : NamesLeaf s b core leaf) (d : BitVec 6)
    (hl : storingLanes s ≠ []) : execBara d b s =
      (State.done { s.arriving core leaf false with ply := { s.ply with hubq := s.ply.hubq ++ [⟨s.seq + 1, s.ply.slot, .bara d⟩] } }).ok := by
  unfold execBara
  rw [State.withLeaf_named h]
  simp only [State.isEmpty_storeLanes, hl, decide_false, Bool.false_eq_true, if_false]
  rfl

theorem baraEnr_enrols {s : State} {b : BitVec 6} {core leaf : Nat} (h : NamesLeaf s b core leaf) (d : BitVec 6)
    (hfree : ∀ i ∈ storingLanes s, (s.ply.info i).leaf = none ∨ (s.ply.info i).leaf = some (core, leaf)) :
    execBaraEnr d b s = (State.sresult { s with ply := (storingLanes s).foldl (Ply.enrol (core, leaf)) s.ply } d
      ((s.leaf core leaf).phase.zeroExtend 32)).ok := by
  have hnone : (storingLanes s).find? (fun i => (s.ply.info i).leaf.isSome && (s.ply.info i).leaf != some (core, leaf)) = none := by
    refine List.find?_eq_none.mpr fun i hi => ?_
    rcases hfree i hi with hi | hi <;> simp [hi]
  unfold execBaraEnr
  rw [State.withLeaf_named h]
  simp only [State.storeLanes_eq, hnone]
  rfl

theorem barw_eq {s : State} {b : BitVec 6} {core leaf : Nat} (h : NamesLeaf s b core leaf) (hlives : Lives s) (p : BitVec 6) :
    execBarw p b s = (if (s.S p).extractLsb' 0 16 = (s.leaf core leaf).phase then
      s.beginWait (.barw core leaf (s.leaf core leaf).phase (s.leafScope s.ply.core core leaf))
      else (s.queueMem (.fence false true (s.leafScope s.ply.core core leaf))).done).ok := by
  unfold execBarw
  rw [State.withLeaf_named h, State.killHere_lives hlives]
  have htrunc : (s.S p).truncate 16 = (s.S p).extractLsb' 0 16 := by simp [BitVec.truncate_eq_setWidth, BitVec.setWidth_eq_extractLsb']
  simp only [htrunc, bne_iff_ne, ne_eq]
  by_cases hp : (s.S p).extractLsb' 0 16 = (s.leaf core leaf).phase
  · rw [if_pos hp, if_neg (by simp [hp]), hp]
  · rw [if_neg hp, if_pos (Ne.symm hp)]

theorem baraw_waits {s : State} {b : BitVec 6} {core leaf : Nat} (h : NamesLeaf s b core leaf) (hlives : Lives s)
    (hl : storingLanes s = []) : execBaraw b s =
      (s.beginWait (.barw core leaf (s.leaf core leaf).phase (s.leafScope s.ply.core core leaf))).ok := by
  unfold execBaraw
  rw [State.withLeaf_named h, State.killHere_lives hlives]
  simp [State.isEmpty_storeLanes, hl]

theorem baraw_arrives {s : State} {b : BitVec 6} {core leaf : Nat} (h : NamesLeaf s b core leaf) (hlives : Lives s)
    (hl : storingLanes s ≠ []) : execBaraw b s = ((s.arriving core leaf true).wait (.baraw core leaf (s.seq + 1))).ok := by
  unfold execBaraw
  rw [State.withLeaf_named h, State.killHere_lives hlives]
  simp only [State.isEmpty_storeLanes, hl, decide_false, Bool.false_eq_true, if_false]
  rw [State.beginWait_lives hlives]
  rfl

theorem UnitDone.congr {s t u : State} {p : Ply} (h : UnitDone s t p) (hply : u.ply = t.ply) : UnitDone s u p := by
  unfold UnitDone Advanced PathsKept State.path at h ⊢
  rw [hply]
  exact h

/-- BARX at a leaf that still expects bytes. -/
theorem barx_expects {s : State} {b : BitVec 6} {core leaf : Nat} (h : NamesLeaf s b core leaf) (n : BitVec 6)
    (hl : storingLanes s ≠ []) (hbytes : (s.leaf core leaf).bytes + s.S n ≠ 0) : execBarx n b s =
      ({ s.setLeaf core leaf { s.leaf core leaf with bytes := (s.leaf core leaf).bytes + s.S n } with ply := s.done.ply } : State).ok := by
  have hneg : (s.leaf core leaf).bytes - word (-(s.S n).toInt) = (s.leaf core leaf).bytes + s.S n := by
    unfold word
    rw [BitVec.ofInt_neg, BitVec.ofInt_toInt]
    simp
  have hready : Leaf.ready { s.leaf core leaf with bytes := (s.leaf core leaf).bytes + s.S n } = false := by
    unfold Leaf.ready
    rw [beq_eq_false_iff_ne.mpr hbytes, Bool.and_false]
  have hleaf : s.done.leaf core leaf = s.leaf core leaf := rfl
  unfold execBarx
  rw [State.withLeaf_named h]
  simp only [State.isEmpty_storeLanes, hl, decide_false, Bool.false_eq_true, if_false]
  unfold State.creditLeaf State.settleLeaf
  simp only [hleaf, hneg, State.setLeaf_leaf, hready, Bool.not_false, Bool.or_true, if_true]
  rfl

/-- The word of BARINIT where the root that it names is the leaf's own or none is linked (R235). -/
theorem barinit_eq {s : State} {b : BitVec 6} {core leaf : Nat} (h : NamesLeaf s b core leaf) (n : BitVec 6)
    (hz : bits (s.S n).toNat 30 29 = 0 ∧ bits (s.S n).toNat 23 16 = 0) {u : State}
    (hu : s.link' core leaf (if (s.S n).getLsbD 31 then some (bits (s.S n).toNat 28 24) else none) = u)
    (huc : (u.leaf core leaf).closing = none) (hfree : ¬InUse s core leaf) : execBarinit n b s =
      (u.setLeaf core leaf { u.leaf core leaf with
        expected := (s.S n).extractLsb' 0 16, arrived := 0, bytes := 0, done := false }).done.ok := by
  have hbusy : s.leafBusy core leaf = false := by
    rw [← Bool.not_eq_true, State.leafBusy_iff]
    exact hfree
  have htrunc : (s.S n).truncate 16 = (s.S n).extractLsb' 0 16 := by simp [BitVec.truncate_eq_setWidth, BitVec.setWidth_eq_extractLsb']
  unfold execBarinit
  simp only [State.withLeaf_named h]
  simp only [hz, hbusy, hu, huc, htrunc, bne_self_eq_false, Bool.or_self, Bool.false_eq_true, if_false, Option.isSome_none]

theorem bits_of_div {x y : Nat} (h : x / 2 ^ 16 = y) : bits x 30 29 = y / 2 ^ 13 % 4 ∧ bits x 23 16 = y % 2 ^ 8 ∧
    bits x 28 24 = y / 2 ^ 8 % 32 ∧ x.testBit 31 = decide (y / 2 ^ 15 % 2 = 1) := by
  rw [Nat.testBit_eq_decide_div_mod_eq]
  simp only [bits]
  refine ⟨by omega, by omega, by omega, ?_⟩
  congr 1
  rw [eq_iff_iff]
  omega

/-- Linking an unlinked leaf (R307). -/
theorem State.link'_of_none {s : State} {core leaf : Nat} (h : (s.leaf core leaf).root = none) (r : Nat) :
    s.link' core leaf (some r) = (s.setLeaf core leaf { s.leaf core leaf with root := some r }).setRoot (core / 8) r
      { s.root (core / 8) r with linked := (s.root (core / 8) r).linked + 1 } := by
  have hunlink : s.unlink core leaf = s := by
    unfold State.unlink
    simp only [h]
  unfold State.link'
  rw [h, hunlink]
  rfl

theorem State.link'_none {s : State} {core leaf : Nat} (h : (s.leaf core leaf).root = none) : s.link' core leaf none = s := by
  unfold State.link'
  rw [h]
  rfl

/-- BARINIT of a leaf that stays unlinked. -/
theorem barinit_unlinked {s : State} {b : BitVec 6} {core leaf : Nat} (h : NamesLeaf s b core leaf) (n : BitVec 6)
    (hfree : ¬InUse s core leaf) (hw : (s.S n).toNat / 2 ^ 16 = 0) (hroot : (s.leaf core leaf).root = none)
    (hclosing : (s.leaf core leaf).closing = none) : execBarinit n b s = (s.setLeaf core leaf { s.leaf core leaf with
      expected := (s.S n).extractLsb' 0 16, arrived := 0, bytes := 0, done := false }).done.ok := by
  obtain ⟨h30, h23, -, h31⟩ := bits_of_div hw
  refine barinit_eq h n ⟨h30, h23⟩ ?_ hclosing hfree
  rw [← BitVec.testBit_toNat, h31]
  exact State.link'_none hroot

/-- BARINIT of a leaf that it links to a root. -/
theorem barinit_linked {s : State} {b : BitVec 6} {core leaf : Nat} (h : NamesLeaf s b core leaf) (n : BitVec 6) {r : Nat}
    (hfree : ¬InUse s core leaf) (hw : (s.S n).toNat / 2 ^ 16 = 2 ^ 15 + r * 2 ^ 8) (hr : r < 32)
    (hroot : (s.leaf core leaf).root = none) (hclosing : (s.leaf core leaf).closing = none) : execBarinit n b s =
      (((s.setLeaf core leaf { s.leaf core leaf with root := some r }).setRoot (core / 8) r
        { s.root (core / 8) r with linked := (s.root (core / 8) r).linked + 1 }).setLeaf core leaf { s.leaf core leaf with
          expected := (s.S n).extractLsb' 0 16, arrived := 0, bytes := 0, done := false, root := some r }).done.ok := by
  obtain ⟨h30, h23, h28, h31⟩ := bits_of_div hw
  have hleaf (x : Root) : ((s.setLeaf core leaf { s.leaf core leaf with root := some r }).setRoot (core / 8) r x).leaf core leaf =
      { s.leaf core leaf with root := some r } := State.setLeaf_leaf ..
  have hbit : ((s.S n).getLsbD 31) = true := by
    rw [← BitVec.testBit_toNat, h31]
    exact decide_eq_true (by omega)
  have h24 : bits (s.S n).toNat 28 24 = r := by omega
  have hlink := State.link'_of_none hroot r
  have hthis : s.link' core leaf (if (s.S n).getLsbD 31 then some (bits (s.S n).toNat 28 24) else none) = s.link' core leaf (some r) := by
    rw [if_pos hbit, h24]
  rw [hlink] at hthis
  rw [barinit_eq h n ⟨by omega, by omega⟩ hthis (by rw [hleaf]; exact hclosing) hfree, hleaf]

/-- Settles O32: every instruction by its equation, and the rules for scalars, waits, arrivals and leaves. -/
theorem barrierInstructions : Obligations.BarrierInstructions := by
  intro b core leaf s h phase
  refine ⟨fun d hl => ?_, fun d hl => ?_, fun d hfree => ?_, ?_⟩
  · exact ⟨_, (exec_bara d b s).trans (bara_reads h d hl), State.sresult_writes ..⟩
  · refine ⟨_, (exec_bara d b s).trans (bara_arrives h d hl), State.arriving_begins .., ?_⟩
    exact SameRun.unitDone (s := s) ⟨rfl, rfl, rfl, rfl, rfl, rfl⟩
  · have hframe := Ply.foldl_enrol_frame (core, leaf) (storingLanes s) s.ply
    have hinfo (i : Nat) (hi : i < 96) := Ply.foldl_enrol_info (core, leaf) (storingLanes s) s.ply hi
    refine ⟨_, (exec_baraEnr d b s).trans (baraEnr_enrols h d hfree), ?_⟩
    generalize (storingLanes s).foldl (Ply.enrol (core, leaf)) s.ply = q at hframe hinfo ⊢
    generalize q.lanes = lanes at hframe
    subst hframe
    obtain ⟨⟨honly, hadvanced, hpaths, hply⟩, hscalars⟩ :=
      State.sresult_writes { s with ply := { s.ply with lanes := lanes } } d (phase.zeroExtend 32)
    refine ⟨?_, hadvanced, hpaths, hscalars, fun i hi => ?_, ?_⟩
    · exact OnlyPly.of_ply ..
    · rw [← hinfo i hi]
      refine (congrArg (fun p : Ply => p.info i) hply).trans ?_
      rfl
    · have hlanes := congrArg Ply.lanes hply
      rw [hlanes]
      exact hply
  refine ⟨fun p hlives hp => ?_, fun p hlives hp => ?_, fun hlives hl => ?_, fun hlives hl => ?_, fun n hl => ?_, fun n hl hb => ?_,
    fun n hfree hw hroot hclosing => ?_, fun n r hfree hw hr hroot hclosing => ?_, fun n huse hw hu => ?_⟩
  · refine ⟨_, (exec_barw p b s).trans (barw_eq h hlives p), ?_⟩
    rw [if_neg hp, State.leafScope_eq]
    exact State.queueAll_queuesOnly s [_]
  · refine ⟨_, (exec_barw p b s).trans (barw_eq h hlives p), ?_⟩
    rw [if_pos hp, State.leafScope_eq]
    exact State.beginWait_waits hlives _
  · refine ⟨_, (exec_baraw b s).trans (baraw_waits h hlives hl), ?_⟩
    rw [State.leafScope_eq]
    exact State.beginWait_waits hlives _
  · refine ⟨_, (exec_baraw b s).trans (baraw_arrives h hlives hl), State.arriving_begins .., ?_⟩
    exact State.wait_beginsWait rfl rfl rfl _
  · refine ⟨s.done, ?_, OnlyPly.of_ply .., SameRun.unitDone ⟨rfl, rfl, rfl, rfl, rfl, rfl⟩⟩
    unfold exec
    simp only [execBarx, State.withLeaf_named h]
    simp [State.isEmpty_storeLanes, hl, State.ok]
  · refine ⟨_, (exec_barx n b s).trans (barx_expects h n hl hb), ?_, State.setLeaf_setsLeaf ..⟩
    exact UnitDone.congr (t := s.done) (SameRun.unitDone ⟨rfl, rfl, rfl, rfl, rfl, rfl⟩) rfl
  · refine ⟨_, (exec_barinit n b s).trans (barinit_unlinked h n hfree hw hroot hclosing), ?_, State.setLeaf_setsLeaf ..⟩
    exact SameRun.unitDone (s := s) ⟨rfl, rfl, rfl, rfl, rfl, rfl⟩
  · refine ⟨_, (exec_barinit n b s).trans (barinit_linked h n hfree hw hr hroot hclosing), ?_, ?_, ?_, ?_⟩
    · refine SameMemory.of_localByte rfl rfl rfl fun c sp a => ?_
      exact (State.setLeaf_localByte ..).trans (State.setLeaf_localByte ..)
    · exact SameRun.unitDone (s := s) ⟨rfl, rfl, rfl, rfl, rfl, rfl⟩
    · exact State.setLeaf_leaf ..
    · exact State.setRoot_root ..
  · obtain ⟨h30, h23, -, -⟩ := bits_of_div hw
    obtain ⟨e, -, htrap⟩ := State.raise_delivers (c := engine 12) hu (by decide) (by decide) (by decide) [engine 12]
    refine ⟨_, ?_, e, htrap⟩
    unfold exec
    simp only [execBarinit, State.withLeaf_named h]
    simp [h30, h23, (State.leafBusy_iff s core leaf).mpr huse, State.ok]

end Sys2Proof.Machine

/-!
The events of leaves and roots (R234, R235, R308, R310, R311): what the operations on leaves can change, the leaf after each of them,
and the arrival that counts.
-/
namespace Sys2Proof.Machine
open Sys2Proof.Claim

/-! ## What operations on leaves can change -/

/-- A ply's name, place and hidden STX, which no operation on a leaf changes. -/
def SameHolder (p q : Ply) : Prop := q.uid = p.uid ∧ q.core = p.core ∧ q.management = p.management ∧ q.stxOld = p.stxOld

theorem SameHolder.refl (p : Ply) : SameHolder p p := ⟨rfl, rfl, rfl, rfl⟩

theorem SameHolder.trans {p q r : Ply} (h₁ : SameHolder p q) (h₂ : SameHolder q r) : SameHolder p r := by
  obtain ⟨hu₁, hc₁, hm₁, hs₁⟩ := h₁
  obtain ⟨hu₂, hc₂, hm₂, hs₂⟩ := h₂
  exact ⟨hu₂.trans hu₁, hc₂.trans hc₁, hm₂.trans hm₁, hs₂.trans hs₁⟩

theorem SameHolder.setCur (p : Ply) (q : Path) : SameHolder p (p.setCur q) := by
  rw [Ply.setCur_frame]
  exact SameHolder.refl _

theorem SameHolder.finishWait (p : Ply) (now : Nat) : SameHolder p (p.finishWait now) := by
  rw [Ply.finishWait_eq]
  exact (SameHolder.setCur p (p.cur.finished now)).trans ⟨rfl, rfl, rfl, rfl⟩

theorem SameHolder.putS (p : Ply) (k : Nat) (d : BitVec 6) (w : Word) : SameHolder p (p.putS k d w) :=
  ⟨Ply.putS_uid .., Ply.putS_core .., Ply.putS_management .., Ply.putS_stxOld ..⟩

/-- What the operations on leaves and roots may change (R233 to R236, R308): leaves and roots, records of words not yet seen, which
can only go, and the plies, but for their place. -/
structure LeafFrame (s t : State) : Prop where
  rest : t = { s with
    ply := t.ply, plies := t.plies, saved := t.saved, ghosts := t.ghosts, cores := t.cores, clusters := t.clusters
    arrivals := t.arrivals, seq := t.seq }
  core : ∀ k, t.core k = { s.core k with leaves := (t.core k).leaves, unseen := (t.core k).unseen }
  unseen : ∀ k, (t.core k).unseen ⊆ (s.core k).unseen
  plies : ∀ q ∈ t.all, ∃ p ∈ s.all, SameHolder p q

theorem State.mem_all {s : State} {p : Ply} : p ∈ s.all ↔ (p = s.ply ∧ s.ply.uid ≠ 0) ∨ p ∈ s.plies := by
  unfold State.all Ply.resident
  by_cases h : s.ply.uid = 0 <;> simp [h]

namespace LeafFrame

theorem refl (s : State) : LeafFrame s s := ⟨rfl, fun _ => rfl, fun _ => List.Subset.refl _, fun q hq => ⟨q, hq, SameHolder.refl q⟩⟩

theorem trans {s t u : State} (h₁ : LeafFrame s t) (h₂ : LeafFrame t u) : LeafFrame s u where
  rest := by
    have h := h₂.rest
    rw [h₁.rest] at h
    exact h
  core k := by
    have h := h₂.core k
    rw [h₁.core k] at h
    exact h
  unseen k := List.Subset.trans (h₂.unseen k) (h₁.unseen k)
  plies r hr := by
    obtain ⟨q, hq, hqr⟩ := h₂.plies r hr
    obtain ⟨p, hp, hpq⟩ := h₁.plies q hq
    exact ⟨p, hp, hpq.trans hqr⟩

/-- Plies change, each in its place. -/
theorem of_plies {s t : State} (rest : t = { s with
      ply := t.ply, plies := t.plies, saved := t.saved, ghosts := t.ghosts, arrivals := t.arrivals, seq := t.seq })
    (hply : SameHolder s.ply t.ply) (hplies : ∀ q ∈ t.plies, ∃ p ∈ s.plies, SameHolder p q) : LeafFrame s t where
  rest := by rw [rest]
  core k := by rw [rest]; rfl
  unseen k := by rw [rest]; exact List.Subset.refl _
  plies q hq := by
    rcases State.mem_all.mp hq with ⟨rfl, hu⟩ | hq
    · exact ⟨s.ply, State.mem_all.mpr (.inl ⟨rfl, fun h => hu (hply.1.trans h)⟩), hply⟩
    · obtain ⟨p, hp, h⟩ := hplies q hq
      exact ⟨p, State.mem_all.mpr (.inr hp), h⟩

/-- Leaves, roots and records of unseen words change. -/
theorem of_cores {s t : State} (rest : t = { s with cores := t.cores, clusters := t.clusters })
    (core : ∀ k, t.core k = { s.core k with leaves := (t.core k).leaves, unseen := (t.core k).unseen })
    (unseen : ∀ k, (t.core k).unseen ⊆ (s.core k).unseen) : LeafFrame s t where
  rest := by rw [rest]
  core := core
  unseen := unseen
  plies q hq := by
    rw [rest] at hq
    exact ⟨q, hq, SameHolder.refl q⟩

theorem ite {s t u : State} (c : Prop) [Decidable c] (ht : LeafFrame s t) (hu : LeafFrame s u) :
    LeafFrame s (if c then t else u) := by
  split
  · exact ht
  · exact hu

/-- A step of a fold keeps a frame. -/
theorem foldl {α : Type} {f : State → α → State} (hf : ∀ s x, LeafFrame s (f s x)) (l : List α) (s : State) :
    LeafFrame s (l.foldl f s) :=
  List.foldlRecOn (motive := fun t => LeafFrame s t) l _ (LeafFrame.refl s) fun t ht x _ => ht.trans (hf t x)

theorem sameMemory {s t : State} (h : LeafFrame s t) : SameMemory s t := by
  refine SameMemory.of_localByte (by rw [h.rest]) (by rw [h.rest]) (by rw [h.rest]) fun k sp a => ?_
  unfold State.localByte
  rw [h.core k]
  cases sp <;> rfl

end LeafFrame

/-! ## Operations on plies -/

theorem State.modPly_frame {f : Ply → Ply} (hf : ∀ p, SameHolder p (f p)) (s : State) (uid : Nat) : LeafFrame s (s.modPly uid f) := by
  unfold State.modPly
  split
  · exact LeafFrame.of_plies rfl (hf _) fun q hq => ⟨q, hq, SameHolder.refl q⟩
  · refine LeafFrame.of_plies rfl (SameHolder.refl _) fun q hq => ?_
    obtain ⟨p, hp, rfl⟩ := List.mem_map.mp hq
    refine ⟨p, hp, ?_⟩
    split
    · exact hf p
    · exact SameHolder.refl p

theorem State.modPly_cores (s : State) (uid : Nat) (f : Ply → Ply) : (s.modPly uid f).cores = s.cores := by
  unfold State.modPly
  split <;> rfl

theorem State.modAny_frame {f : Ply → Ply} (hf : ∀ p, SameHolder p (f p)) (s : State) (uid : Nat) : LeafFrame s (s.modAny uid f) :=
  (State.modPly_frame hf s uid).trans (LeafFrame.of_plies rfl (SameHolder.refl _) fun q hq => ⟨q, hq, SameHolder.refl q⟩)

theorem State.modAny_cores (s : State) (uid : Nat) (f : Ply → Ply) : (s.modAny uid f).cores = s.cores := State.modPly_cores s uid f

theorem State.enqueue_frame (s : State) (uid slot : Nat) (pc : DWord) (k : MemKind) : LeafFrame s (s.enqueue uid slot pc k) :=
  LeafFrame.trans (t := s.fresh.2) (LeafFrame.of_plies rfl (SameHolder.refl _) fun q hq => ⟨q, hq, SameHolder.refl q⟩)
    (State.modPly_frame (f := fun p => { p with lsq := p.lsq ++ [⟨s.seq + 1, slot, pc, k⟩] }) (fun _ => ⟨rfl, rfl, rfl, rfl⟩) ..)

theorem State.enqueue_cores (s : State) (uid slot : Nat) (pc : DWord) (k : MemKind) : (s.enqueue uid slot pc k).cores = s.cores :=
  State.modPly_cores ..

theorem State.returnFromLeaf_frame (s : State) (uid scope : Nat) : LeafFrame s (s.returnFromLeaf uid scope) :=
  (State.enqueue_frame ..).trans (State.modPly_frame (fun p => SameHolder.finishWait p _) ..)

theorem State.returnFromLeaf_cores (s : State) (uid scope : Nat) : (s.returnFromLeaf uid scope).cores = s.cores :=
  (State.modPly_cores ..).trans (State.enqueue_cores ..)

theorem State.releaseTo_frame (s : State) (core leaf release width : Nat) (order : List Nat) (due : List (Ply × Nat)) :
    LeafFrame s (s.releaseTo core leaf release width order due) := by
  refine LeafFrame.foldl (fun t x => ?_) due s
  exact LeafFrame.ite _ (State.returnFromLeaf_frame ..) (State.modPly_frame (fun p => SameHolder.setCur p _) ..)

theorem State.releaseTo_cores (s : State) (core leaf release width : Nat) (order : List Nat) (due : List (Ply × Nat)) :
    (s.releaseTo core leaf release width order due).cores = s.cores := by
  refine keep_foldl State.cores _ (fun t x => ?_) due s
  simp only [apply_ite State.cores, State.returnFromLeaf_cores, State.modPly_cores, ite_self]

theorem State.releaseWaiters_frame (s : State) (core leaf : Nat) (reset : Bool) : LeafFrame s (s.releaseWaiters core leaf reset) :=
  LeafFrame.trans (t := s.fresh.2) (LeafFrame.of_plies rfl (SameHolder.refl _) fun q hq => ⟨q, hq, SameHolder.refl q⟩)
    (State.releaseTo_frame ..)

theorem State.releaseWaiters_cores (s : State) (core leaf : Nat) (reset : Bool) : (s.releaseWaiters core leaf reset).cores = s.cores :=
  State.releaseTo_cores ..

theorem State.forgetArrivals_frame (s : State) (core leaf : Nat) (phase : BitVec 16) :
    LeafFrame s (s.forgetArrivals core leaf phase) := by
  have hf (c : Bool) (p q : Ply) (h : SameHolder p q) : SameHolder p (if c = true then q else p) := by
    split
    · exact h
    · exact SameHolder.refl p
  refine LeafFrame.of_plies rfl ?_ fun q hq => ?_
  · exact hf _ _ _ ⟨rfl, rfl, rfl, rfl⟩
  · obtain ⟨p, hp, rfl⟩ := List.mem_map.mp hq
    exact ⟨p, hp, hf _ _ _ ⟨rfl, rfl, rfl, rfl⟩⟩

theorem State.reap_frame (s : State) : LeafFrame s s.reap :=
  LeafFrame.of_plies rfl (SameHolder.refl _) fun q hq => ⟨q, hq, SameHolder.refl q⟩

theorem State.awake_frame (s : State) : LeafFrame s s.awake := by
  refine LeafFrame.of_plies rfl ⟨rfl, rfl, rfl, rfl⟩ fun q hq => ?_
  obtain ⟨p, hp, rfl⟩ := List.mem_map.mp hq
  exact ⟨p, hp, rfl, rfl, rfl, rfl⟩

/-! ## Operations on leaves and roots -/

theorem State.setLeaf_frame (s : State) (core leaf : Nat) (l : Leaf) : LeafFrame s (s.setLeaf core leaf l) := by
  have hcore (k : Nat) : (s.setLeaf core leaf l).core k = { s.core k with leaves := ((s.setLeaf core leaf l).core k).leaves } := by
    by_cases hk : k = core
    · rw [hk, State.setLeaf_core_same]
    · rw [State.setLeaf_core_other s hk]
  refine LeafFrame.of_cores rfl (fun k => ?_) fun k => ?_ <;> rw [hcore k]
  exact List.Subset.refl _

theorem State.setRoot_frame (s : State) (cluster root : Nat) (r : Root) : LeafFrame s (s.setRoot cluster root r) :=
  LeafFrame.of_cores rfl (fun _ => rfl) fun _ => List.Subset.refl _

/-- The records of a core without those that are credited to a leaf. -/
def Core.withoutCredited (core leaf : Nat) (c : Core) : Core := { c with unseen := c.unseen.filter fun w => !(w.leaf == some (core, leaf)) }

theorem State.seeCredited_core (s : State) (core leaf k : Nat) :
    (s.seeCredited core leaf).core k = s.core k ∨ (s.seeCredited core leaf).core k = (s.core k).withoutCredited core leaf := by
  unfold State.seeCredited
  dsimp only
  split
  · exact .inr (tget_map Core.reset (Core.withoutCredited core leaf) k rfl s.cores)
  · exact .inl rfl

theorem State.seeCredited_rest (s : State) (core leaf : Nat) :
    s.seeCredited core leaf = { s with cores := (s.seeCredited core leaf).cores } := by
  unfold State.seeCredited
  dsimp only
  split <;> rfl

theorem State.seeCredited_frame (s : State) (core leaf : Nat) : LeafFrame s (s.seeCredited core leaf) := by
  refine LeafFrame.of_cores ?_ (fun k => ?_) fun k => ?_
  · exact (State.seeCredited_rest ..).trans (by rw [State.seeCredited_rest])
  all_goals rcases s.seeCredited_core core leaf k with h | h <;> rw [h]
  · rfl
  · exact List.Subset.refl _
  · exact List.filter_subset_self _

theorem State.advanceLeaf_frame (s : State) (core leaf : Nat) : LeafFrame s (s.advanceLeaf core leaf) := by
  have hbegin (l : Leaf) (phase : BitVec 16) :
      LeafFrame s (((s.seeCredited core leaf).forgetArrivals core leaf phase).setLeaf core leaf l) :=
    ((State.seeCredited_frame ..).trans (State.forgetArrivals_frame ..)).trans (State.setLeaf_frame ..)
  unfold State.advanceLeaf
  dsimp only
  split
  · exact (hbegin ..).trans (State.releaseWaiters_frame ..)
  · exact (hbegin ..).trans (State.releaseTo_frame ..)

/-- A leaf whose phase has ended (R234). -/
def Leaf.advanced (l : Leaf) : Leaf :=
  { l with phase := l.phase + 1, arrived := l.next, next := 0, done := false, reported := false, flip := false, closing := none }

theorem State.leaf_of_cores {s t : State} (h : t.cores = s.cores) (core leaf : Nat) : t.leaf core leaf = s.leaf core leaf := by
  unfold State.leaf State.core
  rw [h]

theorem State.advanceLeaf_leaf (s : State) (core leaf : Nat) :
    (s.advanceLeaf core leaf).leaf core leaf = (s.leaf core leaf).advanced := by
  unfold State.advanceLeaf
  dsimp only
  split
  · rw [State.leaf_of_cores (State.releaseWaiters_cores ..), State.setLeaf_leaf]
    rfl
  · rw [State.leaf_of_cores (State.releaseTo_cores ..), State.setLeaf_leaf]
    rfl

theorem State.settleLeaf_frame (s : State) (core leaf : Nat) : LeafFrame s (s.settleLeaf core leaf) := by
  unfold State.settleLeaf
  dsimp only
  split
  · exact LeafFrame.refl s
  · split
    · exact (State.setLeaf_frame ..).trans (State.advanceLeaf_frame ..)
    · exact State.setLeaf_frame ..

theorem State.creditLeaf_frame (s : State) (core leaf : Nat) (n : Int) : LeafFrame s (s.creditLeaf core leaf n) :=
  (State.setLeaf_frame ..).trans (State.settleLeaf_frame ..)

/-! ## The completion condition (R234) -/

theorem Leaf.ready_iff (l : Leaf) : l.ready = true ↔ l.expected.toNat ≤ l.arrived.toNat ∧ l.arrived ≠ 0 ∧ l.bytes = 0 := by
  simp [Leaf.ready, and_assoc]

theorem State.settleLeaf_of_not {s : State} {core leaf : Nat} (h : ¬Completes (s.leaf core leaf)) : s.settleLeaf core leaf = s := by
  unfold State.settleLeaf
  refine if_pos ?_
  unfold Completes at h
  rw [← Leaf.ready_iff] at h
  cases hd : (s.leaf core leaf).done <;> simp_all

theorem State.settleLeaf_of_completes {s : State} {core leaf : Nat} (h : Completes (s.leaf core leaf))
    (hreset : (s.leaf core leaf).resetting = false) :
    s.settleLeaf core leaf =
      let t := s.setLeaf core leaf { s.leaf core leaf with done := true }
      if (s.leaf core leaf).root.isNone && !t.hasWindow core leaf (s.leaf core leaf).phase then t.advanceLeaf core leaf else t := by
  obtain ⟨hdone, hready⟩ := h
  rw [← Leaf.ready_iff] at hready
  unfold State.settleLeaf
  simp only [hdone, hready, hreset, Bool.not_true, Bool.or_self, Bool.false_eq_true, if_false]

/-- A linked leaf that is tested stays in its phase (R308). -/
theorem State.settleLeaf_linked {s : State} {core leaf : Nat} (h : (s.leaf core leaf).root ≠ none) :
    ∃ d, (s.settleLeaf core leaf).leaf core leaf = { s.leaf core leaf with done := d } := by
  have hroot : (s.leaf core leaf).root.isNone = false := Option.isNone_eq_false_iff.mpr (Option.isSome_iff_ne_none.mpr h)
  unfold State.settleLeaf
  simp only [hroot, Bool.false_and, Bool.false_eq_true, if_false]
  split
  · exact ⟨_, rfl⟩
  · exact ⟨true, State.setLeaf_leaf ..⟩

/-! ## Paths that are woken (R104) -/

theorem State.awake_wokenPly (s : State) : WokenPly s.ply s.awake.ply := by
  have hpath (c : Bool) (q r : Path) (h : Woken q r) : Woken q (if c = true then r else q) := by
    split
    · exact h
    · exact .inl rfl
  exact ⟨hpath _ _ _ (.inr rfl), hpath _ _ _ (.inr rfl), rfl⟩

theorem Woken.active {q r : Path} (h : Woken q r) : r.active = q.active := by
  rcases h with h | h <;> rw [h]

theorem WokenPly.slot {p q : Ply} (h : WokenPly p q) : q.slot = p.slot := by
  obtain ⟨-, -, h⟩ := h
  rw [h]

theorem WokenPly.path {p q : Ply} (h : WokenPly p q) (k : Nat) : Woken (p.path k) (q.path k) := by
  obtain ⟨h0, h1, -⟩ := h
  unfold Ply.path
  split
  · exact h0
  · exact h1

theorem WokenPly.cur {p q : Ply} (h : WokenPly p q) : Woken p.cur q.cur := by
  unfold Ply.cur
  rw [WokenPly.slot h]
  exact WokenPly.path h _

theorem WokenPly.getS {p q : Ply} (h : WokenPly p q) (k : Nat) (r : BitVec 6) : q.getS k r = p.getS k r := by
  refine Ply.getS_congr ?_ (Woken.active (WokenPly.path h k)) r
  obtain ⟨-, -, h⟩ := h
  rw [h]

/-! ## Arrivals that count (R235) -/

/-- The records of a ply's lanes with the lanes of an arrival counted. -/
def Arrival.lanesCounted (a : Arrival) (phase : BitVec 16) (ls : Vector LaneInfo 96) : Vector LaneInfo 96 :=
  a.lanes.foldl (fun ls i =>
    let x := (ls[i]?).getD LaneInfo.empty
    ls.setIfInBounds i { x with
      arrivals := (a.core, a.leaf, phase, x.arrivalsIn a.core a.leaf phase + 1) ::
        x.arrivals.filter fun (c, l, q, _) => !(c == a.core && l == a.leaf && q == phase) }) ls

/-- The wait of a path whose arrivals have counted (R235). -/
def Arrival.waitFor (a : Arrival) (l : Leaf) : Wait :=
  if l.done then .barawNext a.core a.leaf l.phase a.scope else .barw a.core a.leaf l.phase a.scope

/-- The leaf and the lanes with an arrival counted. -/
def State.added (s : State) (a : Arrival) : State :=
  State.modAny (State.setLeaf { s with arrivals := s.arrivals.filter fun b => b.seq != a.seq } a.core a.leaf (Claim.counted s a)) a.uid
    fun p => { p with lanes := a.lanesCounted (s.leaf a.core a.leaf).counting p.lanes }

/-- The path of an arrival waits for the end of the phase, or its scalar receives the phase. -/
def State.informed (s : State) (a : Arrival) (l : Leaf) : State :=
  if a.waits then s.modAny a.uid fun p => p.setCur { p.cur with wait := a.waitFor l } else s.answerBara a.uid a.seq l.phase

theorem State.countArrival_eq (s : State) (a : Arrival) :
    s.countArrival a = ((s.added a).informed a (s.leaf a.core a.leaf)).settleLeaf a.core a.leaf := rfl

theorem State.added_frame (s : State) (a : Arrival) : LeafFrame s (s.added a) := by
  have hdrop : LeafFrame s { s with arrivals := s.arrivals.filter fun b => b.seq != a.seq } :=
    LeafFrame.of_plies rfl (SameHolder.refl _) fun q hq => ⟨q, hq, SameHolder.refl q⟩
  exact (hdrop.trans (State.setLeaf_frame ..)).trans (State.modAny_frame
    (f := fun p => { p with lanes := a.lanesCounted (s.leaf a.core a.leaf).counting p.lanes }) (fun _ => ⟨rfl, rfl, rfl, rfl⟩) ..)

theorem State.added_leaf (s : State) (a : Arrival) : (s.added a).leaf a.core a.leaf = Claim.counted s a :=
  (State.leaf_of_cores (State.modAny_cores ..) ..).trans (State.setLeaf_leaf ..)

theorem State.added_eq {s : State} {a : Arrival} (huid : a.uid = s.ply.uid) : s.added a = { s with
    ply := { s.ply with lanes := a.lanesCounted (s.leaf a.core a.leaf).counting s.ply.lanes }
    arrivals := s.arrivals.filter fun b => b.seq != a.seq
    cores := (s.added a).cores, saved := (s.added a).saved, ghosts := (s.added a).ghosts } := by
  unfold State.added
  rw [State.modAny_eq (by exact huid.symm)]
  rfl

theorem Ply.answer_holder (p : Ply) (h : HubOp) (ws : List (BitVec 6 × Word)) :
    SameHolder p ((ws.foldl (fun p (d, w) => p.putS h.slot d w) p).dropHub h.seq) := by
  refine SameHolder.trans (q := ws.foldl (fun p (d, w) => p.putS h.slot d w) p) ?_ ⟨rfl, rfl, rfl, rfl⟩
  exact List.foldlRecOn (motive := fun q => SameHolder p q) ws _ (SameHolder.refl p) fun q hq x _ => hq.trans (SameHolder.putS ..)

theorem State.answerBara_frame (s : State) (uid seq : Nat) (phase : BitVec 16) : LeafFrame s (s.answerBara uid seq phase) := by
  unfold State.answerBara
  split
  · exact LeafFrame.refl s
  · split
    · exact State.modAny_frame (fun p => Ply.answer_holder p _ _) ..
    · exact LeafFrame.refl s

theorem State.answerBara_kept (s : State) (uid seq : Nat) (phase : BitVec 16) :
    (s.answerBara uid seq phase).cores = s.cores ∧ (s.answerBara uid seq phase).arrivals = s.arrivals := by
  have hany (f : Ply → Ply) : (s.modAny uid f).arrivals = s.arrivals := by
    unfold State.modAny State.modPly
    split <;> rfl
  unfold State.answerBara
  split
  · exact ⟨rfl, rfl⟩
  · split
    · exact ⟨State.modAny_cores .., hany _⟩
    · exact ⟨rfl, rfl⟩

theorem State.informed_frame (s : State) (a : Arrival) (l : Leaf) : LeafFrame s (s.informed a l) :=
  LeafFrame.ite _ (State.modAny_frame (fun p => SameHolder.setCur p _) ..) (State.answerBara_frame ..)

theorem State.informed_kept (s : State) (a : Arrival) (l : Leaf) :
    (s.informed a l).cores = s.cores ∧ (s.informed a l).arrivals = s.arrivals := by
  unfold State.informed
  split
  · refine ⟨State.modAny_cores .., ?_⟩
    unfold State.modAny State.modPly
    split <;> rfl
  · exact State.answerBara_kept ..

theorem State.countArrival_frame (s : State) (a : Arrival) : LeafFrame s (s.countArrival a) := by
  rw [State.countArrival_eq]
  exact ((State.added_frame ..).trans (State.informed_frame ..)).trans (State.settleLeaf_frame ..)

/-- The event of an arrival whose release wait is over. -/
theorem exec_barrierArrival_free {s : State} {a : Arrival} (h : FreeArrival s a) :
    exec (.barrierArrival a.core a.seq) s = .next (s.countArrival a).reap.awake := by
  obtain ⟨-, -, hfind, hfree⟩ := h
  have hany : (s.arrivals.any fun x => x.seq == a.seq && x.core == a.core) = true :=
    List.any_eq_true.mpr ⟨a, List.mem_of_find?_eq_some hfind, by simp⟩
  have harrive : s.arriveLeaf a.seq = (s.countArrival a).reap := by
    unfold State.arriveLeaf
    rw [hfind]
    exact if_pos hfree
  have hexec : exec (.barrierArrival a.core a.seq) s = execBarrierArrival a.core a.seq s := rfl
  rw [hexec, execBarrierArrival, if_pos hany, harrive]
  rfl

theorem FreeArrival.resetting {s : State} {a : Arrival} (h : FreeArrival s a) : (s.leaf a.core a.leaf).resetting = false := by
  obtain ⟨huid, ha, -, hfree⟩ := h
  unfold State.arrivalFree at hfree
  rw [ha, State.anyPly_self huid] at hfree
  simp only [Bool.and_eq_true, Bool.not_eq_true'] at hfree
  exact hfree.2

/-- The answer of a BARA of the issuing path. -/
theorem State.answerBara_answers {s : State} {seq : Nat} {d : BitVec 6} (huid : s.ply.uid ≠ 0)
    (hfind : s.ply.hubq.find? (fun h => h.seq == seq) = some ⟨seq, s.ply.slot, .bara d⟩) (phase : BitVec 16) :
    (s.answerBara s.ply.uid seq phase).ply = (s.ply.putS s.ply.slot d (phase.zeroExtend 32)).dropHub seq := by
  have hreq : s.request s.ply.uid seq = some ⟨seq, s.ply.slot, .bara d⟩ := by
    unfold State.request
    rw [State.anyPly_self huid]
    exact hfind
  unfold State.answerBara
  rw [hreq]
  dsimp only
  unfold State.answer
  rw [State.modAny_eq rfl]
  rfl

/-- The scalar of a BARA whose arrivals have counted. -/
theorem State.informed_answers {s : State} {a : Arrival} (hu : s.ply.uid ≠ 0) (huid : a.uid = s.ply.uid) (hw : a.waits = false)
    {d : BitVec 6} (hfind : s.ply.hubq.find? (fun h => h.seq == a.seq) = some ⟨a.seq, s.ply.slot, .bara d⟩) (l : Leaf) :
    (s.informed a l).ply = (s.ply.putS s.ply.slot d (l.phase.zeroExtend 32)).dropHub a.seq := by
  unfold State.informed
  rw [if_neg (by simp [hw]), huid]
  exact State.answerBara_answers hu hfind _

/-- Arrivals that do not end the phase (R234, R235). -/
theorem barrierArrival_adds {s : State} {a : Arrival} (hopen : ¬Completes (counted s a)) :
    s.countArrival a = (s.added a).informed a (s.leaf a.core a.leaf) := by
  rw [State.countArrival_eq]
  refine State.settleLeaf_of_not ?_
  rw [State.leaf_of_cores (State.informed_kept ..).1, State.added_leaf]
  exact hopen

/-- The wait of a BARAW whose arrivals have counted. -/
theorem State.informed_path {s : State} {a : Arrival} (huid : a.uid = s.ply.uid) (hw : a.waits = true) (l : Leaf) :
    (s.informed a l).path = { s.path with wait := a.waitFor l } := by
  unfold State.informed
  rw [if_pos hw, State.modAny_eq huid.symm]
  exact Ply.setCur_cur ..

theorem barrierArrival_counts {s : State} {a : Arrival} (h : FreeArrival s a) (hopen : ¬Completes (counted s a)) :
    let t := (s.countArrival a).reap.awake
    let l := s.leaf a.core a.leaf
    SameMemory s t ∧ t.leaf a.core a.leaf = counted s a ∧ t.arrivals = s.arrivals.filter (fun x => x.seq != a.seq) ∧
    (a.waits = true → Woken { s.path with wait := a.waitFor l } t.path) ∧
    (∀ d slot, a.waits = false → s.ply.hubq.find? (fun h => h.seq == a.seq) = some ⟨a.seq, slot, .bara d⟩ →
      slot = s.ply.slot → (∀ r, t.S r = s.afterWrite d (l.phase.zeroExtend 32) r) ∧
        t.ply.hubq = s.ply.hubq.filter fun h => h.seq != a.seq) := by
  intro t l
  obtain ⟨huid, ha, -, -⟩ := id h
  have hadded := State.added_eq ha
  generalize hlanes : a.lanesCounted (s.leaf a.core a.leaf).counting s.ply.lanes = lanes at hadded
  have hply : (s.added a).ply = { s.ply with lanes := lanes } := by rw [hadded]
  have hauid : a.uid = (s.added a).ply.uid := by
    rw [hply]
    exact ha
  obtain ⟨hcores, harrivals⟩ := State.informed_kept (s.added a) a l
  have hcount : s.countArrival a = (s.added a).informed a l := barrierArrival_adds hopen
  have hwoken : WokenPly ((s.added a).informed a l).ply t.ply := by
    rw [← hcount]
    exact State.awake_wokenPly (s.countArrival a).reap
  refine ⟨?_, ?_, ?_, fun hw => ?_, fun d slot hw hfind hs => ?_⟩
  · exact (((State.countArrival_frame s a).trans (State.reap_frame _)).trans (State.awake_frame _)).sameMemory
  · have hleaf : t.leaf a.core a.leaf = (s.countArrival a).leaf a.core a.leaf := rfl
    rw [hleaf, hcount, State.leaf_of_cores hcores, State.added_leaf]
  · have hkept : t.arrivals = (s.countArrival a).arrivals := rfl
    rw [hkept, hcount, harrivals, hadded]
  · have hpath : (s.added a).path = s.path := by
      unfold State.path
      rw [hply]
      rfl
    rw [← hpath, ← State.informed_path hauid hw l]
    exact WokenPly.cur hwoken
  · subst hs
    have hanswer : ((s.added a).informed a l).ply =
        (({ s.ply with lanes := lanes } : Ply).putS s.ply.slot d (l.phase.zeroExtend 32)).dropHub a.seq := by
      rw [State.informed_answers (by rw [← hauid, ha]; exact huid) hauid hw (by rw [hply]; exact hfind) l, hply]
    have hslot : t.ply.slot = s.ply.slot := by
      rw [WokenPly.slot hwoken, hanswer]
      exact Ply.putS_slot ..
    refine ⟨fun r => ?_, ?_⟩
    · have hread : t.S r = t.ply.getS s.ply.slot r := congrArg (fun k => t.ply.getS k r) hslot
      rw [hread, WokenPly.getS hwoken, hanswer]
      exact (Ply.getS_putS ..).trans rfl
    · obtain ⟨-, -, hrest⟩ := hwoken
      rw [hrest, hanswer]
      exact congrArg (List.filter _) (Ply.putS_hubq ..)

/-! ## Arrivals that end a phase (R234, R308) -/

theorem LeafFrame.hasWindow {s t : State} (h : LeafFrame s t) (core leaf : Nat) (phase : BitVec 16) :
    t.hasWindow core leaf phase = s.hasWindow core leaf phase := by
  unfold State.hasWindow
  rw [h.rest]

/-- An arrival that completes its phase counted in it. -/
theorem counted_of_completes {s : State} {a : Arrival} (h : Completes (counted s a)) :
    counted s a = { s.leaf a.core a.leaf with arrived := (counted s a).arrived } := by
  obtain ⟨hdone, -⟩ := h
  unfold counted at hdone ⊢
  by_cases hd : (s.leaf a.core a.leaf).done = true
  · simp [hd] at hdone
  · simp only [hd, Bool.false_eq_true, if_false]

/-- The state of an arrival that completes its phase: the leaf is done. -/
def State.completed (s : State) (a : Arrival) : State :=
  ((s.added a).informed a (s.leaf a.core a.leaf)).setLeaf a.core a.leaf { Claim.counted s a with done := true }

theorem State.completed_frame (s : State) (a : Arrival) : LeafFrame s (s.completed a) :=
  ((State.added_frame ..).trans (State.informed_frame ..)).trans (State.setLeaf_frame ..)

theorem barrierArrival_completes {s : State} {a : Arrival} (h : FreeArrival s a) (hc : Completes (counted s a)) :
    s.countArrival a =
      if (s.leaf a.core a.leaf).root.isNone && !s.hasWindow a.core a.leaf (s.leaf a.core a.leaf).phase then
        (s.completed a).advanceLeaf a.core a.leaf
      else s.completed a := by
  have hleaf : ((s.added a).informed a (s.leaf a.core a.leaf)).leaf a.core a.leaf = counted s a := by
    rw [State.leaf_of_cores (State.informed_kept ..).1, State.added_leaf]
  have hcounted := counted_of_completes hc
  have hreset : (counted s a).resetting = false := by
    rw [hcounted]
    exact FreeArrival.resetting h
  have hroot : (counted s a).root = (s.leaf a.core a.leaf).root := by rw [hcounted]
  have hphase : (counted s a).phase = (s.leaf a.core a.leaf).phase := by rw [hcounted]
  rw [State.countArrival_eq, State.settleLeaf_of_completes (by rw [hleaf]; exact hc) (by rw [hleaf]; exact hreset), hleaf, hroot, hphase]
  exact congrArg (fun c => if (s.leaf a.core a.leaf).root.isNone && !c then (s.completed a).advanceLeaf a.core a.leaf
    else s.completed a) ((State.completed_frame s a).hasWindow ..)

theorem State.completed_leaf (s : State) (a : Arrival) :
    (s.completed a).leaf a.core a.leaf = { Claim.counted s a with done := true } := State.setLeaf_leaf ..

/-! ## Roots (R308) -/

/-- A leaf as its root's flip leaves it. -/
def Leaf.flipped (root : Nat) (l : Leaf) : Leaf := if l.root == some root then { l with flip := true } else l
/-- The leaves of a core as the flip of a root leaves them. -/
def Core.flipped (root : Nat) (k : Core) : Core := { k with leaves := k.leaves.map fun (n, l) => (n, l.flipped root) }

theorem Core.flipped_leaf (root : Nat) (k : Core) (leaf : Nat) :
    tget Leaf.idle leaf (k.flipped root).leaves = (tget Leaf.idle leaf k.leaves).flipped root :=
  tget_map (fun _ => Leaf.idle) (Leaf.flipped root) leaf rfl k.leaves

/-- The flip of a root at a list of cores. -/
def State.flipCores (s : State) (root : Nat) (l : List Nat) : State := l.foldl (fun s c => s.modCore c (Core.flipped root)) s

theorem State.flipCores_core (s : State) (root : Nat) {l : List Nat} (hl : l.Nodup) (k : Nat) :
    (s.flipCores root l).core k = if k ∈ l then (s.core k).flipped root else s.core k := by
  unfold State.flipCores
  induction l generalizing s with
  | nil => simp
  | cons c l ih =>
    obtain ⟨hc, hl⟩ := List.nodup_cons.mp hl
    rw [List.foldl_cons, ih _ hl]
    by_cases hk : k = c
    · subst hk
      simp [hc, State.modCore_core]
    · rw [show (s.modCore c (Core.flipped root)).core k = s.core k from tget_tset_other _ _ hk _]
      simp [hk]

theorem State.modCore_flipped_frame (s : State) (root c : Nat) : LeafFrame s (s.modCore c (Core.flipped root)) := by
  have hcore (k : Nat) : (s.modCore c (Core.flipped root)).core k =
      { s.core k with leaves := ((s.modCore c (Core.flipped root)).core k).leaves } := by
    by_cases hk : k = c
    · rw [hk, State.modCore_core]
      rfl
    · rw [show (s.modCore c (Core.flipped root)).core k = s.core k from tget_tset_other _ _ hk _]
  refine LeafFrame.of_cores rfl (fun k => ?_) fun k => ?_ <;> rw [hcore k]
  exact List.Subset.refl _

/-- The root in its next phase, with the release that its flip makes. -/
def State.flippedRoot (s : State) (cluster root : Nat) : Root :=
  let due := (s.linkedTo cluster root).flatMap fun (c, n, l) => (s.waitersAt c n (l.phase + 1) false).map (·.1)
  { s.root cluster root with
    phase := (s.root cluster root).phase + 1, reported := 0, release := s.seq + 1, width := (s.cluster cluster).waveWidth
    order := (sortBy Ply.releasedBefore due).map (·.uid) }

theorem State.flipRoot_eq (s : State) (cluster root : Nat) : s.flipRoot cluster root =
    (s.fresh.2.setRoot cluster root (s.flippedRoot cluster root)).flipCores root (coresOf cluster) := by
  have hflip : Core.flipped root = fun k : Core =>
      { k with leaves := k.leaves.map fun (n, l) => if l.root == some root then (n, { l with flip := true }) else (n, l) } := by
    funext k
    have hleaf (x : Nat × Leaf) : (x.1, x.2.flipped root) =
        if x.2.root == some root then (x.1, { x.2 with flip := true }) else (x.1, x.2) := by
      unfold Leaf.flipped
      split <;> rfl
    unfold Core.flipped
    rw [funext hleaf]
  unfold State.flipCores
  rw [hflip]
  rfl

theorem State.flipRoot_frame (s : State) (cluster root : Nat) : LeafFrame s (s.flipRoot cluster root) := by
  rw [State.flipRoot_eq]
  have hfresh : LeafFrame s s.fresh.2 := LeafFrame.of_plies rfl (SameHolder.refl _) fun q hq => ⟨q, hq, SameHolder.refl q⟩
  exact (hfresh.trans (State.setRoot_frame ..)).trans (LeafFrame.foldl (fun t c => State.modCore_flipped_frame t root c) ..)

theorem State.flipRoot_root (s : State) (cluster root : Nat) :
    (s.flipRoot cluster root).root cluster root = s.flippedRoot cluster root := by
  have hkept (t : State) (l : List Nat) : (t.flipCores root l).clusters = t.clusters := 
    keep_foldl State.clusters (fun s c => s.modCore c (Core.flipped root)) (fun _ _ => rfl) l t
  rw [State.flipRoot_eq]
  unfold State.root State.cluster
  rw [hkept]
  exact State.setRoot_root ..

theorem coresOf_nodup (cluster : Nat) : (coresOf cluster).Nodup :=
  List.nodup_range.map fun _ _ h => Nat.add_left_cancel h

theorem mem_coresOf (core : Nat) : core ∈ coresOf (core / 8) := by
  unfold coresOf
  exact List.mem_map.mpr ⟨core % 8, List.mem_range.mpr (by omega), by omega⟩

theorem State.flipRoot_leaf (s : State) (core leaf root : Nat) :
    (s.flipRoot (core / 8) root).leaf core leaf = (s.leaf core leaf).flipped root := by
  rw [State.flipRoot_eq]
  unfold State.leaf
  rw [State.flipCores_core _ _ (coresOf_nodup _), if_pos (mem_coresOf core), Core.flipped_leaf]
  rfl

/-- A leaf that reports to its root. -/
def State.reporting (s : State) (core leaf n : Nat) : State :=
  (s.setLeaf core leaf { s.leaf core leaf with reported := true }).setRoot (core / 8) n
    { s.root (core / 8) n with reported := (s.root (core / 8) n).reported + 1 }

theorem State.reporting_frame (s : State) (core leaf n : Nat) : LeafFrame s (s.reporting core leaf n) :=
  (State.setLeaf_frame ..).trans (State.setRoot_frame ..)

theorem State.reporting_leaf (s : State) (core leaf n : Nat) :
    (s.reporting core leaf n).leaf core leaf = { s.leaf core leaf with reported := true } := State.setLeaf_leaf ..

theorem State.reporting_root (s : State) (core leaf n : Nat) : (s.reporting core leaf n).root (core / 8) n =
    { s.root (core / 8) n with reported := (s.root (core / 8) n).reported + 1 } := State.setRoot_root ..

theorem exec_rootReport {s : State} {core leaf n : Nat} (hmay : s.mayReport core leaf = true)
    (hroot : (s.leaf core leaf).root = some n) : exec (.rootReport core leaf) s =
      .next (if (s.root (core / 8) n).reported + 1 = (s.root (core / 8) n).linked then (s.reporting core leaf n).flipRoot (core / 8) n
        else s.reporting core leaf n) := by
  have hexec : exec (.rootReport core leaf) s = .next (s.reportLeaf core leaf) := rfl
  have hreport : s.reportLeaf core leaf =
      if ((s.root (core / 8) n).reported + 1 == (s.root (core / 8) n).linked) = true then
        (s.reporting core leaf n).flipRoot (core / 8) n
      else s.reporting core leaf n := by
    have hkept (l : Leaf) : (s.setLeaf core leaf l).root (core / 8) n = s.root (core / 8) n := rfl
    have hcluster : clusterOf core = core / 8 := rfl
    unfold State.reportLeaf State.reporting
    simp only [hroot, hmay, if_true, hcluster, hkept]
  rw [hexec, hreport]
  simp only [beq_iff_eq]

/-! ## Waves (R311) -/

theorem exec_releaseWave {s : State} {cluster scope release w : Nat} (h : s.waves cluster = [(s.ply.uid, scope, release, w)]) :
    exec (.releaseWave cluster) s = .next (s.returnFromLeaf s.ply.uid scope) := by
  have hexec : exec (.releaseWave cluster) s = .next (s.releaseNext cluster) := rfl
  rw [hexec]
  unfold State.releaseNext
  rw [h]
  simp

theorem State.returnFromLeaf_self {s : State} (huid : s.ply.uid ≠ 0) (scope : Nat) : s.returnFromLeaf s.ply.uid scope = { s with
    seq := s.seq + 1
    ply := Ply.finishWait { s.ply with
      lsq := s.ply.lsq ++ [⟨s.seq + 1, s.ply.slot, s.path.pc, .fence false true scope⟩] } s.now } := by
  have hply : s.plyOf s.ply.uid = s.ply := by
    unfold State.plyOf
    rw [State.find_self huid]
    rfl
  have hqueue : s.enqueue s.ply.uid s.ply.slot s.ply.cur.pc (.fence false true scope) = { s with
      seq := s.seq + 1
      ply := { s.ply with lsq := s.ply.lsq ++ [⟨s.seq + 1, s.ply.slot, s.path.pc, .fence false true scope⟩] } } :=
    State.modPly_self s.fresh.2 _
  unfold State.returnFromLeaf
  dsimp only
  rw [hply, hqueue]
  exact State.modPly_self { s with
    seq := s.seq + 1
    ply := { s.ply with lsq := s.ply.lsq ++ [⟨s.seq + 1, s.ply.slot, s.path.pc, .fence false true scope⟩] } } _

theorem State.mayReport_flip {s : State} {core leaf : Nat} (h : s.mayReport core leaf = true) : (s.leaf core leaf).flip = false := by
  unfold State.mayReport at h
  simp only [Bool.and_eq_true, Bool.not_eq_true'] at h
  obtain ⟨⟨⟨⟨-, hflip⟩, -⟩, -⟩, -⟩ := h
  exact hflip

/-- A report that is not the last of its root's phase. -/
theorem rootReport_counts {s : State} {core leaf n : Nat} (hmay : s.mayReport core leaf = true) :
    let t := s.reporting core leaf n
    SameMemory s t ∧ (t.leaf core leaf).reported = true ∧ (t.leaf core leaf).flip = false ∧ t.root (core / 8) n =
      { s.root (core / 8) n with reported := (s.root (core / 8) n).reported + 1 } := by
  intro t
  have hleaf : t.leaf core leaf = { s.leaf core leaf with reported := true } := State.reporting_leaf ..
  rw [hleaf]
  exact ⟨(State.reporting_frame ..).sameMemory, rfl, State.mayReport_flip hmay, State.reporting_root ..⟩

/-- A report that is the last of its root's phase. -/
theorem rootReport_flips {s : State} {core leaf n : Nat} (hroot : (s.leaf core leaf).root = some n) :
    let t := (s.reporting core leaf n).flipRoot (core / 8) n
    SameMemory s t ∧ (t.leaf core leaf).reported = true ∧ (t.leaf core leaf).flip = true ∧ ∃ r' : Root,
      t.root (core / 8) n = { r' with
        phase := (s.root (core / 8) n).phase + 1, reported := 0, linked := (s.root (core / 8) n).linked } := by
  intro t
  have hleaf : t.leaf core leaf = { s.leaf core leaf with reported := true, flip := true } := by
    rw [State.flipRoot_leaf, State.reporting_leaf]
    simp [Leaf.flipped, hroot]
  rw [hleaf]
  refine ⟨((State.reporting_frame ..).trans (State.flipRoot_frame ..)).sameMemory, rfl, rfl,
    (s.reporting core leaf n).flippedRoot (core / 8) n, ?_⟩
  rw [State.flipRoot_root]
  unfold State.flippedRoot
  rw [State.reporting_root]

/-- The flip of a root reaches one of its leaves. -/
theorem exec_rootFlipArrival {s : State} {core leaf : Nat} (hflip : (s.leaf core leaf).flip = true) (hdep : s.departures = []) :
    exec (.rootFlipArrival core leaf) s = .next ((s.advanceLeaf core leaf).settleLeaf core leaf) := by
  have hdep' : ((s.advanceLeaf core leaf).settleLeaf core leaf).departures = [] := by
    rw [((State.advanceLeaf_frame s core leaf).trans (State.settleLeaf_frame (s.advanceLeaf core leaf) core leaf)).rest]
    exact hdep
  have hrun : exec (.rootFlipArrival core leaf) s = execRootFlipArrival core leaf s := rfl
  rw [hrun, execRootFlipArrival, if_pos hflip]
  unfold State.runDepartures
  rw [hdep']
  rfl

/-- Settles O33: each event by its equation, memory by the frame of the operations on leaves. -/
theorem barrierEvents : Obligations.BarrierEvents := by
  refine ⟨fun a s h hopen => ?_, fun a s h hc => ?_, ?_, fun core leaf s hflip hroot hdep => ?_,
    fun cluster scope release w s huid hw => ?_⟩
  · exact ⟨_, exec_barrierArrival_free h, barrierArrival_counts h hopen⟩
  · have hleaf : (s.countArrival a).reap.awake.leaf a.core a.leaf = (s.countArrival a).leaf a.core a.leaf := rfl
    refine ⟨_, exec_barrierArrival_free h, ?_, fun hroot hwindow => ?_, fun hroot => ?_⟩
    · exact (((State.countArrival_frame s a).trans (State.reap_frame _)).trans (State.awake_frame _)).sameMemory
    · have hadvanced : (s.countArrival a).leaf a.core a.leaf = Leaf.advanced { counted s a with done := true } := by
        rw [barrierArrival_completes h hc, if_pos (by simp [hroot, hwindow]), State.advanceLeaf_leaf, State.completed_leaf]
      rw [hleaf, hadvanced, counted_of_completes hc]
      exact ⟨rfl, rfl, rfl, rfl⟩
    · rw [hleaf, barrierArrival_completes h hc, if_neg (by simp [hroot]), State.completed_leaf]
  · intro core leaf n s hmay hroot r
    refine ⟨_, exec_rootReport hmay hroot, ?_⟩
    by_cases hall : r.reported + 1 = r.linked
    · rw [if_pos hall]
      obtain ⟨hmem, hreported, hflip, hnext⟩ := rootReport_flips hroot
      exact ⟨hmem, hreported, fun hne => absurd hall hne, fun _ => ⟨hflip, hnext⟩⟩
    · rw [if_neg hall]
      obtain ⟨hmem, hreported, hflip, hcount⟩ := rootReport_counts (n := n) hmay
      exact ⟨hmem, hreported, fun _ => ⟨hcount, hflip⟩, fun heq => absurd heq hall⟩
  · have hlinked : ((s.advanceLeaf core leaf).leaf core leaf).root ≠ none := by
      rw [State.advanceLeaf_leaf]
      exact hroot
    obtain ⟨d, hleaf⟩ := State.settleLeaf_linked hlinked
    refine ⟨_, exec_rootFlipArrival hflip hdep, ((State.advanceLeaf_frame ..).trans (State.settleLeaf_frame ..)).sameMemory, ?_⟩
    rw [hleaf, State.advanceLeaf_leaf]
    exact ⟨rfl, rfl, rfl, rfl, rfl⟩
  · refine ⟨_, exec_releaseWave hw, (State.returnFromLeaf_frame ..).sameMemory, ?_⟩
    rw [State.returnFromLeaf_self huid]
    exact Ply.finishWait_resumes rfl rfl (fun _ => rfl) rfl rfl

end Sys2Proof.Machine

/-!
The copy engine on local places (R222, R224, R226, R230, R232, R237): what a unit's write changes while only the operation's own
words are hidden, and the units of an operation one after the other.
-/
namespace Sys2Proof.Machine
open Sys2Proof.Claim

theorem exec_copyEngineOperation (core seq : Nat) (s : State) : exec (.copyEngineOperation core seq) s = .next (s.runCopy core seq) := rfl

/-! ## Local spaces -/

theorem Core.space_setSpace (c : Core) (sp : Space) (m : Memory) (x : Space) :
    (c.setSpace sp m).space x = if x = sp then m else c.space x := by
  cases sp <;> cases x <;> rfl

theorem Core.setSpace_frame (c : Core) (sp : Space) (m : Memory) :
    c.setSpace sp m = { c with
      xbuf := (c.setSpace sp m).xbuf, wbuf := (c.setSpace sp m).wbuf, sbuf := (c.setSpace sp m).sbuf } := by
  cases sp <;> rfl

theorem State.localRead_eq {s : State} {core : Nat} {sp : Space} (h : ((s.core core).space sp).wf = true) (a n : Nat) :
    s.localRead core sp a n = (List.range n).map fun i => s.localByte core sp (a + i) := by
  unfold State.localRead
  rw [Memory.readN_eq h, List.range'_eq_map_range, List.map_map]
  rfl

theorem State.engineRead_of_seen {s : State} {core : Nat} (h : s.stale core = []) (o : EngineOp) (sp : Space) (a n : Nat) :
    s.engineRead o core sp a n = s.localRead core sp a n := by
  unfold State.engineRead State.mixWords
  rw [h]
  rfl

/-! ## LocalWrites of one operation (R231, R232) -/

/-- The buffers of the core are in canonical form, and of their words only those that the operation wrote are hidden. -/
structure OwnHidden (o : EngineOp) (core : Nat) (s : State) : Prop where
  wf : ∀ sp, ((s.core core).space sp).wf = true
  stx : ∀ p ∈ s.all, p.core = core → p.management = false → p.stxOld = []
  unseen : ∀ w ∈ (s.core core).unseen, w.uid = o.uid ∧ w.cls.isSome = true

theorem OwnHidden.of_seen {o : EngineOp} {core : Nat} {s : State} (h : s.stale core = [])
    (hwf : ∀ sp, ((s.core core).space sp).wf = true) : OwnHidden o core s := by
  unfold State.stale at h
  obtain ⟨hstx, hunseen⟩ := List.append_eq_nil_iff.mp h
  refine ⟨hwf, fun p hp hc hm => List.flatMap_eq_nil_iff.mp hstx p ?_, fun w hw => ?_⟩
  · exact List.mem_filter.mpr ⟨hp, by simp [hc, hm]⟩
  · simp [hunseen] at hw

/-- Beside f of the core's bytes, nothing that memory holds or the copy queue lists changes. -/
structure LocalWrites (core : Nat) (f : Space → Nat → Byte → Byte) (s t : State) : Prop where
  mem : t.mem = s.mem
  stores : t.stores = s.stores
  ptime : t.ptime = s.ptime
  here : ∀ sp a, t.localByte core sp a = f sp a (s.localByte core sp a)
  others : ∀ k sp a, k ≠ core → t.localByte k sp a = s.localByte k sp a
  copyq : (t.core core).copyq = (s.core core).copyq

theorem LocalWrites.trans {core : Nat} {f g : Space → Nat → Byte → Byte} {s t u : State} (h₁ : LocalWrites core f s t) (h₂ : LocalWrites core g t u) :
    LocalWrites core (fun sp a b => g sp a (f sp a b)) s u where
  mem := h₂.mem.trans h₁.mem
  stores := h₂.stores.trans h₁.stores
  ptime := h₂.ptime.trans h₁.ptime
  here sp a := by rw [h₂.here, h₁.here]
  others k sp a hk := (h₂.others k sp a hk).trans (h₁.others k sp a hk)
  copyq := h₂.copyq.trans h₁.copyq

/-- Operations on leaves write nothing (R236). -/
theorem LeafFrame.writes {s t : State} (h : LeafFrame s t) (core : Nat) : LocalWrites core (fun _ _ b => b) s t := by
  obtain ⟨-, hlocal⟩ := h.sameMemory
  refine ⟨?_, ?_, ?_, fun sp a => hlocal core sp a, fun k sp a _ => hlocal k sp a, ?_⟩
  · rw [h.rest]
  · rw [h.rest]
  · rw [h.rest]
  · rw [h.core]

theorem LeafFrame.ownHidden {o : EngineOp} {core : Nat} {s t : State} (h : LeafFrame s t) (hs : OwnHidden o core s) :
    OwnHidden o core t := by
  refine ⟨fun sp => ?_, fun q hq hc hm => ?_, fun w hw => hs.unseen w (h.unseen core hw)⟩
  · rw [h.core]
    have hwf := hs.wf sp
    cases sp <;> exact hwf
  · obtain ⟨p, hp, -, hcore, hman, hstx⟩ := h.plies q hq
    rw [hstx]
    exact hs.stx p hp (hcore ▸ hc) (hman ▸ hm)

/-- No word that an operation writes is lost where only its own are hidden. -/
theorem OwnHidden.contests {o : EngineOp} {core : Nat} {s : State} (h : OwnHidden o core s) {w : OldWord} (hw : w ∈ s.stale core) :
    s.contests o w = false := by
  have hown : w.uid = o.uid ∧ w.cls.isSome = true := by
    rcases List.mem_append.mp hw with hw | hw
    · obtain ⟨p, hp, hwp⟩ := List.mem_flatMap.mp hw
      obtain ⟨hall, hcore⟩ := List.mem_filter.mp hp
      simp only [Bool.and_eq_true, beq_iff_eq, Bool.not_eq_true'] at hcore
      rw [h.stx p hall hcore.1 hcore.2] at hwp
      simp at hwp
    · exact h.unseen w hw
  obtain ⟨huid, hcls⟩ := hown
  obtain ⟨c, hc⟩ := Option.isSome_iff_exists.mp hcls
  unfold State.contests
  simp [hc, huid]

/-- The bytes of a write laid over a byte of its space. -/
def written (sp : Space) (a : Nat) (d : List Byte) (x : Space) (k : Nat) (b : Byte) : Byte := if sp = x then overlay a d k b else b

theorem State.localWrite_localByte {s : State} {core : Nat} {sp : Space} (h : ((s.core core).space sp).wf = true) (a : Nat)
    (d : List Byte) (x : Space) (k : Nat) :
    (s.localWrite core sp a d).localByte core x k = written sp a d x k (s.localByte core x k) := by
  unfold State.localByte State.localWrite written
  rw [State.modCore_core]
  rw [Core.space_setSpace]
  by_cases hx : x = sp
  · subst hx
    rw [if_pos rfl, if_pos rfl, Memory.read_writeN h]
    rfl
  · rw [if_neg hx, if_neg (Ne.symm hx)]

theorem State.modCore_core_other (s : State) {core k : Nat} (h : k ≠ core) (f : Core → Core) : (s.modCore core f).core k = s.core k :=
  tget_tset_other _ _ h _

theorem State.localWrite_writes {s : State} {core : Nat} {sp : Space} (h : ((s.core core).space sp).wf = true) (a : Nat)
    (d : List Byte) : LocalWrites core (written sp a d) s (s.localWrite core sp a d) := by
  refine ⟨rfl, rfl, rfl, State.localWrite_localByte h a d, fun k x b hk => ?_, ?_⟩
  · unfold State.localByte State.localWrite
    rw [State.modCore_core_other s hk]
  · unfold State.localWrite
    rw [State.modCore_core, Core.setSpace_frame]

theorem State.localWrite_ownHidden {o : EngineOp} {s : State} {core : Nat} (h : OwnHidden o core s) (sp : Space) (a : Nat)
    (d : List Byte) : OwnHidden o core (s.localWrite core sp a d) := by
  refine ⟨fun x => ?_, h.stx, fun w hw => h.unseen w ?_⟩
  · unfold State.localWrite
    rw [State.modCore_core, Core.space_setSpace]
    split
    · exact Memory.writeN_wf (h.wf sp) a d
    · exact h.wf x
  · unfold State.localWrite at hw
    rw [State.modCore_core, Core.setSpace_frame] at hw
    exact hw

theorem State.patchStx_writes (s : State) (core : Nat) (sp : Space) (a : Nat) (d : List Byte) :
    LocalWrites core (fun _ _ b => b) s (s.patchStx core sp a d) := ⟨rfl, rfl, rfl, fun _ _ => rfl, fun _ _ _ _ => rfl, rfl⟩

/-- A ply's records of its STX, patched where it is of the core. -/
def Ply.patchedAt (core : Nat) (sp : Space) (a : Nat) (d : List Byte) (p : Ply) : Ply :=
  if p.core == core then { p with stxOld := p.stxOld.map fun w => w.patch sp a d } else p

theorem Ply.patchedAt_frame (core : Nat) (sp : Space) (a : Nat) (d : List Byte) (p : Ply) :
    p.patchedAt core sp a d = { p with stxOld := (p.patchedAt core sp a d).stxOld } ∧
      (p.stxOld = [] → (p.patchedAt core sp a d).stxOld = []) := by
  unfold Ply.patchedAt
  split
  · exact ⟨rfl, fun h => by simp [h]⟩
  · exact ⟨rfl, id⟩

theorem State.patchStx_ownHidden {o : EngineOp} {s : State} {core : Nat} (h : OwnHidden o core s) (sp : Space) (a : Nat) (d : List Byte) :
    OwnHidden o core (s.patchStx core sp a d) := by
  refine ⟨h.wf, fun q hq hc hm => ?_, h.unseen⟩
  have hpatched : ∃ p ∈ s.all, q = p.patchedAt core sp a d := by
    rcases State.mem_all.mp hq with ⟨rfl, hu⟩ | hq
    · refine ⟨s.ply, State.mem_all.mpr (.inl ⟨rfl, fun hz => hu ?_⟩), rfl⟩
      have huid : (s.ply.patchedAt core sp a d).uid = s.ply.uid := by rw [(Ply.patchedAt_frame ..).1]
      exact huid.trans hz
    · obtain ⟨p, hp, rfl⟩ := List.mem_map.mp hq
      exact ⟨p, State.mem_all.mpr (.inr hp), rfl⟩
  obtain ⟨p, hp, rfl⟩ := hpatched
  obtain ⟨hframe, hnil⟩ := Ply.patchedAt_frame core sp a d p
  rw [hframe] at hc hm
  exact hnil (h.stx p hp hc hm)

/-- The records that an operation adds of the words that it writes. -/
theorem State.record_writes (s : State) (core : Nat) (l : List OldWord) :
    LocalWrites core (fun _ _ b => b) s (s.modCore core fun c => { c with unseen := l ++ c.unseen }) := by
  refine ⟨rfl, rfl, rfl, fun sp a => ?_, fun k sp a _ => ?_, ?_⟩
  · exact State.modCore_localByte (fun _ sp => by cases sp <;> rfl) ..
  · exact State.modCore_localByte (fun _ sp => by cases sp <;> rfl) ..
  · rw [State.modCore_core]

theorem State.record_ownHidden {o : EngineOp} {s : State} {core : Nat} (h : OwnHidden o core s) {l : List OldWord}
    (hl : ∀ w ∈ l, w.uid = o.uid ∧ w.cls.isSome = true) :
    OwnHidden o core (s.modCore core fun c => { c with unseen := l ++ c.unseen }) := by
  refine ⟨fun sp => ?_, h.stx, fun w hw => ?_⟩
  · rw [State.modCore_core]
    have hwf := h.wf sp
    cases sp <;> exact hwf
  · rw [State.modCore_core] at hw
    rcases List.mem_append.mp hw with hw | hw
    · exact hl w hw
    · exact h.unseen w hw

theorem State.writeKept_of_none {lost : Nat → Bool} (h : ∀ k, lost k = false) (s : State) (core : Nat) (sp : Space) (a : Nat)
    (d : List Byte) : s.writeKept core sp a d lost = s.localWrite core sp a d := by
  unfold State.writeKept
  rw [if_neg (by simp [h])]

/-- A write of an operation whose own words alone are hidden (R230, R231). -/
theorem State.engineWrite_eq {o : EngineOp} {s : State} {core : Nat} (h : OwnHidden o core s) (hcls : o.cls.isSome = true) (sp : Space)
    (a : Nat) (d : List Byte) : s.engineWrite o core sp a d =
      (if (s.stale core).isEmpty then s.localWrite core sp a d else (s.localWrite core sp a d).patchStx core sp a d).modCore core
        fun c => { c with unseen := s.recordsOf o core sp a d.length ++ c.unseen } := by
  have hlost (k : Nat) : ((s.stale core).any fun w =>
      w.space == sp && w.word == k && s.contests o w && s.choose (wordKey 2 o.seq k)) = false := by
    refine List.any_eq_false.mpr fun w hw => ?_
    simp [h.contests hw]
  unfold State.engineWrite
  simp only [State.writeKept_of_none hlost, hcls, if_true]

theorem State.engineWrite_writes {o : EngineOp} {s : State} {core : Nat} (h : OwnHidden o core s) (hcls : o.cls.isSome = true)
    (sp : Space) (a : Nat) (d : List Byte) :
    OwnHidden o core (s.engineWrite o core sp a d) ∧ LocalWrites core (written sp a d) s (s.engineWrite o core sp a d) := by
  have hrecords : ∀ w ∈ s.recordsOf o core sp a d.length, w.uid = o.uid ∧ w.cls.isSome = true := by
    intro w hw
    obtain ⟨k, -, rfl⟩ := List.mem_map.mp hw
    exact ⟨rfl, hcls⟩
  have hlocal := State.localWrite_ownHidden h sp a d
  have hwrites := State.localWrite_writes (h.wf sp) a d
  rw [State.engineWrite_eq h hcls]
  split
  · exact ⟨State.record_ownHidden hlocal hrecords, hwrites.trans (State.record_writes ..)⟩
  · exact ⟨State.record_ownHidden (State.patchStx_ownHidden hlocal sp a d) hrecords,
      (hwrites.trans (State.patchStx_writes ..)).trans (State.record_writes ..)⟩

/-! ## The units of an operation (R222, R226) -/

/-- A unit written over a byte of the core. -/
def UnitRead.over (r : UnitRead) (x : Space) (k : Nat) (b : Byte) : Byte :=
  match r.unit.dst with
  | .loc sp a => written sp a r.data x k b
  | .glob _ => b

/-- The write of one unit, with its credit (R236). -/
def State.writeUnit (s : State) (o : EngineOp) (core : Nat) (r : UnitRead) : State :=
  match r.unit.dst with
  | .loc sp a =>
    let s := s.engineWrite o core sp a r.data
    match o.leaf with
    | some (k, leaf) => s.creditLeaf k leaf (r.data.length : Int)
    | none => s
  | .glob _ => s

theorem State.writeUnit_writes {o : EngineOp} {s : State} {core : Nat} (h : OwnHidden o core s) (hcls : o.cls.isSome = true)
    (r : UnitRead) : OwnHidden o core (s.writeUnit o core r) ∧ LocalWrites core r.over s (s.writeUnit o core r) := by
  unfold State.writeUnit UnitRead.over
  cases r.unit.dst with
  | glob va => exact ⟨h, (LeafFrame.refl s).writes core⟩
  | loc sp a =>
    obtain ⟨hhidden, hwrites⟩ := State.engineWrite_writes h hcls sp a r.data
    cases o.leaf with
    | none => exact ⟨hhidden, hwrites⟩
    | some x =>
      have hcredit := State.creditLeaf_frame (s.engineWrite o core sp a r.data) x.1 x.2 (r.data.length : Int)
      exact ⟨hcredit.ownHidden hhidden, hwrites.trans (hcredit.writes core)⟩

theorem State.foldl_writeUnit_writes {o : EngineOp} {core : Nat} (hcls : o.cls.isSome = true) (us : List UnitRead) {s : State}
    (h : OwnHidden o core s) : LocalWrites core (fun x k b => us.foldl (fun b r => r.over x k b) b) s
      (us.foldl (fun s r => s.writeUnit o core r) s) := by
  induction us generalizing s with
  | nil => exact (LeafFrame.refl s).writes core
  | cons r us ih =>
    obtain ⟨hhidden, hwrites⟩ := State.writeUnit_writes h hcls r
    exact hwrites.trans (ih hhidden)

/-- The bytes that an operation leaves of a unit in main memory. -/
def State.globalBytes (s : State) (o : EngineOp) (r : UnitRead) : List (Nat × List Byte) :=
  match r.unit.dst with
  | .glob _ => s.keptGlobal o (s.rivals o) r.dpa r.data
  | .loc _ _ => []

theorem State.writeUnits_eq (s : State) (o : EngineOp) (core tenant policy : Nat) (scope : List (BitVec 24)) (us : List UnitRead) :
    s.writeUnits o core tenant policy scope us =
      let t := (coalesce (us.flatMap (s.globalBytes o))).foldl (fun s (a, d) => s.arriveN 0 core tenant policy 0 scope a d)
        (us.foldl (fun s r => s.writeUnit o core r) s)
      (t.stores.foldl (fun t q => if s.seq < q.seq then max t q.time else t) s.now, t) := rfl

/-- Local units are all written at once: the ptime of their performance is now. -/
theorem State.writeUnits_local {s : State} {o : EngineOp} {core : Nat} (hcls : o.cls.isSome = true) (h : OwnHidden o core s)
    (hstores : ∀ q ∈ s.stores, q.seq ≤ s.seq) (tenant policy : Nat) (scope : List (BitVec 24)) {us : List UnitRead}
    (hlocal : ∀ r ∈ us, isLocalPlace r.unit.dst) :
    s.writeUnits o core tenant policy scope us = (s.now, us.foldl (fun s r => s.writeUnit o core r) s) := by
  have hglobal : us.flatMap (s.globalBytes o) = [] := by
    refine List.flatMap_eq_nil_iff.mpr fun r hr => ?_
    have hdst := hlocal r hr
    unfold State.globalBytes
    cases hd : r.unit.dst with
    | loc sp a => rfl
    | glob va =>
      rw [hd] at hdst
      exact hdst.elim
  have hnow : s.stores.foldl (fun t q => if s.seq < q.seq then max t q.time else t) s.now = s.now :=
    List.foldlRecOn (motive := fun x => x = s.now) s.stores _ rfl fun x hx q hq => by
      rw [if_neg (Nat.not_lt.mpr (hstores q hq)), hx]
  rw [State.writeUnits_eq, hglobal]
  dsimp only [coalesce, List.foldl_nil]
  rw [(State.foldl_writeUnit_writes hcls us h).stores, hnow]

/-- The units as read are those of the operation, each with its source's bytes or its pad. -/
def ReadsUnits (s : State) (core : Nat) (us : List CopyUnit) (rs : List UnitRead) : Prop :=
  rs.map (·.unit) = us ∧ ∀ r ∈ rs, r.data = unitBytes s core r.unit

theorem ReadsUnits.over {s : State} {core : Nat} {us : List CopyUnit} {rs : List UnitRead} (h : ReadsUnits s core us rs) (sp : Space)
    (a : Nat) (b : Byte) : rs.foldl (fun b r => r.over sp a b) b = us.foldl (writtenOver s core sp a) b := by
  obtain ⟨hunits, hdata⟩ := h
  rw [← hunits, List.foldl_map]
  refine List.foldl_ext _ _ b fun b r hr => ?_
  obtain ⟨⟨dst, src, pad, n⟩, data, dpa⟩ := r
  obtain rfl : data = unitBytes s core ⟨dst, src, pad, n⟩ := hdata _ hr
  cases dst <;> rfl

/-- An operation on local places is performed: its units are written and it is due now. -/
theorem performs_local {s : State} {o : CopyOp} {core : Nat} {rs : List UnitRead} (tenant policy : Nat) (scope : List (BitVec 24))
    (hread : ReadsUnits s core o.kind.units rs) (hunseen : s.stale core = []) (hwf : ∀ sp, ((s.core core).space sp).wf = true)
    (hlocal : ∀ u ∈ o.kind.units, isLocalPlace u.dst) (hstores : ∀ q ∈ s.stores, q.seq ≤ s.seq) (hmem : o ∈ (s.core core).copyq)
    {f : CopyOp → CopyOp} (hseq : (f o).seq = o.seq)
    (hdue : (f o).due = some (s.writeUnits o.engine core tenant policy scope rs).1) :
    let t := (s.writeUnits o.engine core tenant policy scope rs).2.modCopy core o.seq f
    (∀ sp a, t.localByte core sp a = o.kind.units.foldl (writtenOver s core sp a) (s.localByte core sp a)) ∧
      (∀ k sp a, k ≠ core → t.localByte k sp a = s.localByte k sp a) ∧ (∀ k a, t.seen k a = s.seen k a) ∧
      ∃ q ∈ (t.core core).copyq, q.seq = o.seq ∧ q.due = some s.now := by
  have hcls : o.engine.cls.isSome = true := by
    unfold CopyOp.engine
    cases o.kind <;> rfl
  have hhidden := OwnHidden.of_seen (o := o.engine) hunseen hwf
  have hdst : ∀ r ∈ rs, isLocalPlace r.unit.dst := fun r hr => hlocal _ (hread.1 ▸ List.mem_map_of_mem hr)
  have hunits := State.writeUnits_local hcls hhidden hstores tenant policy scope hdst
  have hwrites := State.foldl_writeUnit_writes hcls rs hhidden
  rw [hunits] at hdue ⊢
  generalize rs.foldl (fun s r => s.writeUnit o.engine core r) s = u at hwrites
  have hkeep (k : Nat) (sp : Space) (a : Nat) : (u.modCopy core o.seq f).localByte k sp a = u.localByte k sp a :=
    State.modCore_localByte (fun _ sp => by cases sp <;> rfl) ..
  refine ⟨fun sp a => ?_, fun k sp a hk => ?_, fun k a => ?_, ?_⟩
  · rw [hkeep, hwrites.here, hread.over]
  · rw [hkeep, hwrites.others k sp a hk]
  · have hseen : (u.modCopy core o.seq f).seen k a = u.seen k a := rfl
    rw [hseen]
    unfold State.seen State.now
    rw [hwrites.mem, hwrites.stores, hwrites.ptime]
  · refine ⟨f o, ?_, hseq, hdue⟩
    have hq : ((u.modCopy core o.seq f).core core).copyq =
        (s.core core).copyq.map fun x : CopyOp => if x.seq == o.seq then f x else x := by
      unfold State.modCopy
      rw [State.modCore_core, hwrites.copyq]
    rw [hq]
    exact List.mem_map.mpr ⟨o, hmem, by simp⟩

/-! ## LCP (R224) -/

/-- A lane of an LCP with local ends, as the engine reads it. -/
def LaneCopy.readAs (l : LaneCopy) (n : Nat) (d : List Byte) : UnitRead := ⟨⟨l.dst, some l.src, [], n⟩, d, l.dpa, none, none, none⟩

theorem State.engineRead_bytes {s : State} {core : Nat} (hunseen : s.stale core = []) (hwf : ∀ sp, ((s.core core).space sp).wf = true)
    (o : EngineOp) (sp : Space) (a : Nat) (u : CopyUnit) (hu : u.src = some (.loc sp a)) :
    s.engineRead o core sp a u.n = unitBytes s core u := by
  rw [State.engineRead_of_seen hunseen, State.localRead_eq (hwf sp)]
  unfold unitBytes
  rw [hu]
  rfl

theorem isLocalPlace_iff (p : Place) : isLocalPlace p ↔ ∃ sp a, p = .loc sp a := by
  cases p with
  | loc sp a => exact ⟨fun _ => ⟨sp, a, rfl⟩, fun _ => trivial⟩
  | glob va => exact ⟨fun h => h.elim, fun ⟨_, _, h⟩ => by simp at h⟩

theorem State.takeLeases_nil (s : State) (tenant core policy : Nat) : s.takeLeases tenant core policy [] = s := rfl

theorem State.runLcp_local {s : State} {p : Ply} {o : CopyOp} {n : Nat} {ls : List LaneCopy} (policy : Nat)
    (hlocal : ∀ l ∈ ls, isLocalPlace l.dst ∧ isLocalPlace l.src)
    (hunseen : s.stale p.core = []) (hwf : ∀ sp, ((s.core p.core).space sp).wf = true) :
    s.runLcp p o n ls policy =
      let w := s.writeUnits o.engine p.core p.tenant policy (p.scopesOf (ls.map (·.lane)))
        (ls.map fun l => l.readAs n (unitBytes s p.core ⟨l.dst, some l.src, [], n⟩))
      w.2.modCopy p.core o.seq fun o => { o with due := some w.1 } := by
  unfold State.runLcp
  dsimp only
  rw [List.map_congr_left (l := ls) (g := fun l => (l, unitBytes s p.core ⟨l.dst, some l.src, [], n⟩, false)) (fun l hl => ?_)]
  · have hbad (g : LaneCopy → List Byte) :
        (ls.map fun l => (l, g l, false)).filter (fun r : LaneCopy × List Byte × Bool => r.2.2) = [] := by simp
    have hgood (g : LaneCopy → List Byte) :
        (ls.map fun l => (l, g l, false)).filter (fun r : LaneCopy × List Byte × Bool => !r.2.2) = ls.map fun l => (l, g l, false) := by
      simp [List.filter_map, Function.comp_def]
    rw [hbad, hgood, (List.filterMap_eq_nil_iff (l := ls)).mpr ?_]
    · rw [State.takeLeases_nil, List.map_map, List.map_map]
      rfl
    · intro l hl
      obtain ⟨-, hsrc⟩ := hlocal l hl
      obtain ⟨sp, a, hsrc⟩ := (isLocalPlace_iff _).mp hsrc
      rw [hsrc]
  · obtain ⟨hdst, hsrc⟩ := hlocal l hl
    obtain ⟨sp, a, hsrc⟩ := (isLocalPlace_iff _).mp hsrc
    obtain ⟨dp, da, hdst⟩ := (isLocalPlace_iff _).mp hdst
    have hbytes := State.engineRead_bytes hunseen hwf o.engine sp a ⟨l.dst, some l.src, [], n⟩ (congrArg some hsrc)
    rw [← hbytes, hsrc, hdst]
    rfl

/-! ## Bulk copies (R222, R226) -/

/-- A unit with local places, as the engine reads it. -/
theorem State.readUnit_local {s : State} {p : Ply} (hunseen : s.stale p.core = []) (hwf : ∀ sp, ((s.core p.core).space sp).wf = true)
    (seq : Nat) (from' dest : Pages) {u : CopyUnit} (hdst : isLocalPlace u.dst) (hsrc : ∀ x, u.src = some x → isLocalPlace x) :
    ∃ a, s.readUnit p seq from' dest u = ⟨u, unitBytes s p.core u, a, none, none, none⟩ := by
  obtain ⟨dp, da, hdst⟩ := (isLocalPlace_iff _).mp hdst
  refine ⟨da, ?_⟩
  unfold State.readUnit
  cases hu : u.src with
  | none =>
    rw [hdst]
    unfold unitBytes
    rw [hu]
  | some x =>
    obtain ⟨sp, a, rfl⟩ := (isLocalPlace_iff _).mp (hsrc x hu)
    rw [hdst, ← State.engineRead_bytes hunseen hwf ⟨seq, p.uid, some 1, none⟩ sp a u hu]

theorem globals_nil {l : List Place} (h : ∀ p ∈ l, isLocalPlace p) : globals l = [] := by
  refine List.filterMap_eq_nil_iff.mpr fun p hp => ?_
  obtain ⟨sp, a, rfl⟩ := (isLocalPlace_iff _).mp (h p hp)
  rfl

theorem State.fillTlb_nil (s : State) (tenant : Nat) : s.fillTlb tenant [] = s := rfl

/-- A bulk copy whose places are local is written whole. -/
theorem State.runTcopy_local {s : State} {p : Ply} {o : CopyOp} (hlap : overlapping o.kind.units = false) (hcancel : o.cancelled = false)
    (hlocal : ∀ u ∈ o.kind.units, isLocalPlace u.dst ∧ ∀ x, u.src = some x → isLocalPlace x)
    (hunseen : s.stale p.core = []) (hwf : ∀ sp, ((s.core p.core).space sp).wf = true) :
    ∃ rs f, ReadsUnits s p.core o.kind.units rs ∧
      let w := s.writeUnits o.engine p.core p.tenant 0 [o.scope] rs
      s.runTcopy p o = w.2.modCopy p.core o.seq f ∧ (f o).seq = o.seq ∧ (f o).due = some w.1 := by
  have hunit : ∀ r ∈ s.readUnits p o.seq o.kind.units, ∃ u ∈ o.kind.units, ∃ a, r = ⟨u, unitBytes s p.core u, a, none, none, none⟩ := by
    intro r hr
    obtain ⟨u, hu, rfl⟩ := List.mem_map.mp hr
    obtain ⟨hdst, hsrc⟩ := hlocal u hu
    obtain ⟨a, ha⟩ := State.readUnit_local hunseen hwf o.seq _ _ hdst hsrc
    exact ⟨u, hu, a, ha⟩
  have hreads : ReadsUnits s p.core o.kind.units (s.readUnits p o.seq o.kind.units) := by
    refine ⟨?_, fun r hr => ?_⟩
    · unfold State.readUnits
      rw [List.map_map]
      refine (List.map_congr_left fun u hu => ?_).trans (List.map_id _)
      obtain ⟨hdst, hsrc⟩ := hlocal u hu
      obtain ⟨a, ha⟩ := State.readUnit_local hunseen hwf o.seq _ _ hdst hsrc
      exact congrArg UnitRead.unit ha
    · obtain ⟨u, -, a, rfl⟩ := hunit r hr
      rfl
  have hplaces : globals (o.kind.units.map (·.dst) ++ o.kind.units.filterMap (·.src)) = [] := by
    refine globals_nil fun x hx => ?_
    rcases List.mem_append.mp hx with hx | hx
    · obtain ⟨u, hu, rfl⟩ := List.mem_map.mp hx
      exact (hlocal u hu).1
    · obtain ⟨u, hu, hx⟩ := List.mem_filterMap.mp hx
      exact (hlocal u hu).2 x hx
  generalize hrs : s.readUnits p o.seq o.kind.units = rs at hunit hreads
  have hspa : rs.filterMap (·.spa) = [] := List.filterMap_eq_nil_iff.mpr fun r hr => by
    obtain ⟨u, -, a, rfl⟩ := hunit r hr
    rfl
  have hfault : rs.findSome? (fun r => r.fault) = none := List.findSome?_eq_none_iff.mpr fun r hr => by
    obtain ⟨u, -, a, rfl⟩ := hunit r hr
    rfl
  have hbad : rs.findSome? (fun r => r.bad) = none := List.findSome?_eq_none_iff.mpr fun r hr => by
    obtain ⟨u, -, a, rfl⟩ := hunit r hr
    rfl
  have hrun : ∃ f, s.runTcopy p o = (s.writeUnits o.engine p.core p.tenant 0 [o.scope] rs).2.modCopy p.core o.seq f ∧
      (f o).seq = o.seq ∧ (f o).due = some (s.writeUnits o.engine p.core p.tenant 0 [o.scope] rs).1 := by
    unfold State.runTcopy
    simp only [hrs, hlap, Bool.false_eq_true, if_false, hplaces, State.fillTlb_nil, hspa, State.takeLeases_nil, hfault, hbad, hcancel,
      Option.isNone_none, Bool.not_false, Bool.and_self, Bool.true_or, List.filter_true]
    exact ⟨_, rfl, rfl, rfl⟩
  obtain ⟨f, hf⟩ := hrun
  exact ⟨rs, f, hreads, hf⟩

/-! ## Operations of the copy engine (R219, R226) -/

section
variable {s : State} {seq : Nat} {o : CopyOp}

/-- The engine takes an operation that may proceed. -/
def Taken (s : State) (seq : Nat) (o : CopyOp) : Prop :=
  s.ply.uid ≠ 0 ∧ o.uid = s.ply.uid ∧ (s.core s.ply.core).copyq.find? (fun x => x.seq == seq) = some o ∧ o.due = none ∧
    s.copyHeld s.ply.core o = false ∧ s.engineReady s.ply seq true = true

theorem Taken.runLcp (h : Taken s seq o) {n : Nat} {ls : List LaneCopy} {policy : Nat} (hkind : o.kind = .lcp n ls policy) :
    s.runCopy s.ply.core seq = s.runLcp s.ply o n ls policy := by
  obtain ⟨huid, ho, hfind, hdue, hheld, hready⟩ := h
  unfold State.runCopy
  simp only [hfind, ho, State.anyPly_self huid, hdue, hheld, hready, hkind, Bool.not_true, Bool.or_self, Bool.false_eq_true, if_false]

theorem Taken.runBulk (h : Taken s seq o) (hkind : ∀ n ls policy, o.kind ≠ .lcp n ls policy) : s.runCopy s.ply.core seq =
    if o.begun then s.runTcopy s.ply o else s.modCopy s.ply.core seq fun o => { o with begun := true } := by
  obtain ⟨huid, ho, hfind, hdue, hheld, hready⟩ := h
  unfold State.runCopy
  simp only [hfind, ho, State.anyPly_self huid, hdue, hheld, hready, Bool.not_true, Bool.or_self, Bool.false_eq_true, if_false]

theorem Taken.mem (h : Taken s seq o) : o ∈ (s.core s.ply.core).copyq ∧ o.seq = seq := by
  obtain ⟨-, -, hfind, -⟩ := h
  exact ⟨List.mem_of_find?_eq_some hfind, by simpa using List.find?_some hfind⟩

theorem Taken.begins (h : Taken s seq o) (hkind : ∀ n ls policy, o.kind ≠ .lcp n ls policy) (hbegun : o.begun = false) :
    let t := s.runCopy s.ply.core seq
    SameMemory s t ∧ t = { s with cores := t.cores } ∧ { o with begun := true } ∈ (t.core s.ply.core).copyq := by
  obtain ⟨hmem, hseq⟩ := h.mem
  rw [h.runBulk hkind, if_neg (by simp [hbegun])]
  refine ⟨SameMemory.of_localByte rfl rfl rfl fun k sp a => ?_, rfl, ?_⟩
  · exact State.modCore_localByte (fun _ sp => by cases sp <;> rfl) ..
  · unfold State.modCopy
    rw [State.modCore_core]
    exact List.mem_map.mpr ⟨o, hmem, by simp [hseq]⟩

/-- An operation that has made its writes, at the time by which they are performed. -/
theorem State.runCopy_due {time : Nat} (huid : s.ply.uid ≠ 0) (ho : o.uid = s.ply.uid)
    (hfind : (s.core s.ply.core).copyq.find? (fun x => x.seq == seq) = some o) (hdue : o.due = some time) (htime : time ≤ s.now)
    (hcredits : o.kind.credits = none) (hopen : ∃ c ∈ s.counted, c.seq = o.seq ∧ c.complete = false) :
    s.runCopy s.ply.core seq = s.complete seq := by
  obtain ⟨c, hc, hseq, hcomplete⟩ := hopen
  have hany : s.counted.any (fun c => c.seq == o.seq && !c.complete) = true := List.any_eq_true.mpr ⟨c, hc, by simp [hseq, hcomplete]⟩
  have hready : s.copyDue o time = true := by
    unfold State.copyDue
    simp [htime, hany]
  have howed : s.payOwed s.ply.core o = s := by
    unfold State.payOwed
    rw [hcredits]
  unfold State.runCopy
  simp only [hfind, ho, State.anyPly_self huid, hdue, hready, howed, htime, if_true]

end

/-- Settles O35: an operation that is taken begins, or writes its units one after the other; one that is due is complete. -/
theorem copyEngine : Obligations.CopyEngine := by
  refine ⟨fun seq o s huid ho hfind hdue hheld hready => ?_, fun seq o time s huid ho hfind hseq hdue htime hcredits hopen => ?_⟩
  · have htaken : Taken s seq o := ⟨huid, ho, hfind, hdue, hheld, hready⟩
    refine ⟨fun hkind hbegun => ⟨_, exec_copyEngineOperation .., htaken.begins hkind hbegun⟩,
      fun hbulk hcancel hunseen hwf hlocal hstores => ⟨_, exec_copyEngineOperation .., ?_⟩⟩
    have hdst : ∀ u ∈ o.kind.units, isLocalPlace u.dst := fun u hu => (hlocal u hu).1
    obtain ⟨hmem, -⟩ := htaken.mem
    cases hk : o.kind with
    | lcp n ls policy =>
      have hlanes : ∀ l ∈ ls, isLocalPlace l.dst ∧ isLocalPlace l.src := by
        intro l hl
        rw [hk] at hlocal
        obtain ⟨hd, hs⟩ := hlocal _ (List.mem_map_of_mem hl)
        exact ⟨hd, hs _ rfl⟩
      rw [← hk, htaken.runLcp hk, State.runLcp_local policy hlanes hunseen hwf]
      refine performs_local _ _ _ ⟨?_, fun r hr => ?_⟩ hunseen hwf hdst hstores hmem rfl rfl
      · rw [hk, List.map_map]
        rfl
      · obtain ⟨l, -, rfl⟩ := List.mem_map.mp hr
        rfl
    | tcopy =>
      have hkind : ∀ n ls policy, o.kind ≠ .lcp n ls policy := by simp [hk]
      obtain ⟨hbegun, hlap⟩ := hbulk hkind
      obtain ⟨rs, f, hreads, hrun, hfseq, hfdue⟩ := State.runTcopy_local hlap hcancel hlocal hunseen hwf
      rw [← hk, htaken.runBulk hkind, if_pos hbegun, hrun]
      exact performs_local _ _ _ hreads hunseen hwf hdst hstores hmem hfseq hfdue
  · refine ⟨_, (exec_copyEngineOperation ..).trans (congrArg Host.Outcome.next
      (State.runCopy_due huid ho hfind hdue htime hcredits (hseq ▸ hopen))), rfl, SameMemory.of_eq rfl rfl rfl rfl, fun c hc hcseq => ?_⟩
    obtain ⟨x, -, rfl⟩ := List.mem_map.mp hc
    by_cases hx : x.seq = seq
    · simp [hx]
    · simp [hx] at hcseq

end Sys2Proof.Machine

/-!
Tables of checks (R225, R228), and the shape records that the hub writes and releases (R221 to R223, R228).
-/
namespace Sys2Proof.Machine
open Sys2Proof.Claim

/-! ## Tables of checks -/

/-- A cause is the one that a check of a table states. -/
def StatesCause (c : Check) (e : Cause) : Prop :=
  e.code = c.code ∧ e.sub = c.sub ∧ e.detail = 0 ∧ e.lane = 127 ∧ e.code ≠ 6 ∧ e.isPage = false ∧ e.code ≠ 0x21 ∧
    ((e.given = true ∧ c.addr e.addr) ∨ ∀ a, c.addr a)

theorem engine_states (fails : Prop) (n : Nat) : StatesCause ⟨fails, 0x0E, n, fun _ => True⟩ (engine n) :=
  ⟨rfl, rfl, rfl, rfl, (by decide : 0x0E ≠ 6), rfl, (by decide : 0x0E ≠ 0x21), .inr fun _ => trivial⟩

theorem localRange_states (fails : Prop) (n : Nat) {addr : DWord → Prop} {a : DWord} (h : addr a) :
    StatesCause ⟨fails, 0x0C, n, addr⟩ (localRange n a) :=
  ⟨rfl, rfl, rfl, rfl, (by decide : 0x0C ≠ 6), rfl, (by decide : 0x0C ≠ 0x21), .inl ⟨rfl, h⟩⟩

theorem align_states (fails : Prop) {addr : DWord → Prop} {a : DWord} (h : addr a) :
    StatesCause ⟨fails, 0x08, 0, addr⟩ (align a) :=
  ⟨rfl, rfl, rfl, rfl, (by decide : 0x08 ≠ 6), rfl, (by decide : 0x08 ≠ 0x21), .inl ⟨rfl, h⟩⟩

/-- A decision follows a table: it gives v where every check passes, and otherwise the cause of the first that fails. -/
def FollowsChecks {α : Type} (cs : List Check) (m : Except Cause α) (v : α) : Prop :=
  (allPass cs → m = .ok v) ∧
    ∀ l1 c l2, cs = l1 ++ c :: l2 → (∀ b ∈ l1, ¬b.fails) → c.fails → ∃ e, m = .error e ∧ StatesCause c e

namespace FollowsChecks

theorem nil {α : Type} (v : α) : FollowsChecks [] (.ok v) v := ⟨fun _ => rfl, fun l1 c l2 h => by simp at h⟩

theorem cons {α : Type} {c : Check} {cs : List Check} {m : Except Cause α} {v : α}
    (hfail : c.fails → ∃ e, m = .error e ∧ StatesCause c e) (hpass : ¬c.fails → FollowsChecks cs m v) : FollowsChecks (c :: cs) m v := by
  refine ⟨fun hall => ?_, fun l1 b l2 hsplit hl hb => ?_⟩
  · obtain ⟨hc, hcs⟩ := List.forall_mem_cons.mp hall
    exact (hpass hc).1 hcs
  · cases l1 with
    | nil =>
      obtain ⟨rfl, rfl⟩ := List.cons.inj hsplit
      exact hfail hb
    | cons x l1 =>
      obtain ⟨rfl, hrest⟩ := List.cons.inj hsplit
      obtain ⟨hx, hl⟩ := List.forall_mem_cons.mp hl
      exact (hpass hx).2 l1 b l2 hrest hl hb

/-- A check of each record of a list: the decision takes the first that fails. -/
theorem find {α β : Type} {rs : List β} {F : β → Check} {p : β → Bool} {f : β → Cause} {cs : List Check} {m : Except Cause α} {v : α}
    (hp : ∀ r ∈ rs, p r = true ↔ (F r).fails) (hf : ∀ r ∈ rs, StatesCause (F r) (f r))
    (hsome : ∀ r, rs.find? p = some r → m = .error (f r))
    (hnone : rs.find? p = none → (∀ r ∈ rs, ¬(F r).fails) → FollowsChecks cs m v) :
    FollowsChecks (rs.map F ++ cs) m v := by
  induction rs with
  | nil => exact hnone rfl (by simp)
  | cons r rs ih =>
    obtain ⟨hpr, hp⟩ := List.forall_mem_cons.mp hp
    obtain ⟨hfr, hf⟩ := List.forall_mem_cons.mp hf
    refine cons (fun hfail => ⟨f r, hsome r ?_, hfr⟩) fun hpass => ih hp hf (fun x hx => hsome x ?_) fun hn h => hnone ?_ ?_
    · exact List.find?_cons_of_pos (hpr.mpr hfail)
    · rw [List.find?_cons_of_neg (mt hpr.mp hpass)]
      exact hx
    · rw [List.find?_cons_of_neg (mt hpr.mp hpass)]
      exact hn
    · exact List.forall_mem_cons.mpr ⟨hpass, h⟩

/-- An instruction that raises the cause of a decision raises the first check that fails. -/
theorem raisesFirst {α : Type} {cs : List Check} {m : Except Cause α} {v : α} {i : Instr} {s : State} (h : FollowsChecks cs m v)
    (hexec : ∀ e, m = .error e → exec i s = .next (s.raise e)) : RaisesFirst i s cs := by
  intro l1 c l2 hsplit hl hc hu
  obtain ⟨e, hm, hcode, hsub, hdetail, hlane, h6, hpage, h21, haddr⟩ := h.2 l1 c l2 hsplit hl hc
  obtain ⟨a, hgiven, htrap⟩ := State.raise_delivers hu h6 hpage h21 [e]
  rw [hcode, hsub, hdetail, hlane] at htrap
  refine ⟨_, hexec e hm, a, ?_, htrap⟩
  rcases haddr with ⟨hg, haddr⟩ | hany
  · rw [hgiven hg]
    exact haddr
  · exact hany a

end FollowsChecks

/-! ## SHAPEW and SHAPEREL at issue (R228) -/

theorem exec_shapew (d a o : BitVec 6) (s : State) : exec (.shapew d a o) s = execShapew d a o s := rfl
theorem exec_shaperel (a : BitVec 6) (s : State) : exec (.shaperel a) s = execShaperel a s := rfl

/-- A request to the hub enters the queue. -/
theorem State.pushHub_queues (s : State) (k : HubKind) : let t := (s.pushHub k).done
    t = { s with ply := t.ply, seq := s.seq + 1 } ∧ SameMemory s t ∧
      UnitDone s t { s.ply with hubq := s.ply.hubq ++ [⟨s.seq + 1, s.ply.slot, k⟩] } :=
  ⟨rfl, SameMemory.of_eq rfl rfl rfl rfl, SameRun.unitDone (s := s) ⟨rfl, rfl, rfl, rfl, rfl, rfl⟩⟩

/-- What SHAPEW decides of its slot and its record's address (R228). -/
def State.shapewRecord (s : State) (a o : BitVec 6) : Except Cause Nat :=
  if 4096 ≤ (s.S a).toNat then .error (engine 10) else s.ply.recordAt (s.S o) 64 64

theorem execShapew_eq (d a o : BitVec 6) (s : State) : execShapew d a o s =
    match s.shapewRecord a o with
    | .error c => (s.raise c).ok
    | .ok x => (s.pushHub (.shapew d (s.S a).toNat x)).done.ok := by
  unfold execShapew State.shapewRecord
  by_cases h : 4096 ≤ (s.S a).toNat
  · rw [if_pos h, if_pos h]
  · rw [if_neg h, if_neg h]
    cases s.ply.recordAt (s.S o) 64 64 <;> rfl

/-- The checks of SHAPEW (R228). -/
def shapewChecks (s : State) (a o : BitVec 6) : List Check := [⟨4096 ≤ (s.S a).toNat, 0x0E, 10, fun _ => True⟩,
  ⟨(s.S o).toNat / 2 ^ 30 = 3, 0x0C, 2, fun e => e = BitVec.ofNat 64 ((s.S o).toNat % 2 ^ 30)⟩,
  ⟨(s.S o).toNat / 2 ^ 30 ≠ 0, 0x0C, 3, fun e => e = BitVec.ofNat 64 ((s.S o).toNat % 2 ^ 30)⟩,
  ⟨(s.S o).toNat % 64 ≠ 0, 0x08, 0, fun e => e = (s.S o).zeroExtend 64⟩,
  ⟨s.ply.windowSize < (s.S o).toNat + 64, 0x0C, 0, fun e => e = BitVec.ofNat 64 (s.S o).toNat⟩]

theorem shapewRecord_follows (s : State) (a o : BitVec 6) :
    FollowsChecks (shapewChecks s a o) (s.shapewRecord a o) (s.ply.windowBase + (s.S o).toNat) := by
  have hlt : (s.S o).toNat / 2 ^ 30 < 4 := by have := (s.S o).isLt; omega
  unfold State.shapewRecord Ply.recordAt
  refine .cons (fun h => ⟨_, if_pos h, engine_states ..⟩) fun h => ?_
  rw [if_neg h]
  refine .cons (fun h3 => ⟨_, ?_, localRange_states _ 2 rfl⟩) fun h3 => ?_
  · rw [h3]
    rfl
  refine .cons (fun h0 => ⟨_, ?_, localRange_states _ 3 rfl⟩) fun h0 => ?_
  · have h12 : (s.S o).toNat / 2 ^ 30 = 1 ∨ (s.S o).toNat / 2 ^ 30 = 2 := by omega
    rcases h12 with h1 | h2
    · rw [h1]
      rfl
    · rw [h2]
      rfl
  have hoff : (s.S o).toNat % 2 ^ 30 = (s.S o).toNat := by
    have : (s.S o).toNat / 2 ^ 30 = 0 := not_not.mp h0
    omega
  rw [not_not.mp h0]
  dsimp only [spaceOf]
  rw [hoff]
  refine .cons (fun ha => ⟨_, if_pos (by simpa using ha), align_states _ rfl⟩) fun ha => ?_
  rw [if_neg (by simpa using ha)]
  refine .cons (fun hw => ⟨_, if_pos hw, localRange_states _ 0 rfl⟩) fun hw => ?_
  rw [if_neg hw]
  exact .nil _

theorem shapew_raises (d a o : BitVec 6) (s : State) : RaisesFirst (.shapew d a o) s (shapewChecks s a o) :=
  (shapewRecord_follows s a o).raisesFirst fun e he => by
    rw [exec_shapew, execShapew_eq, he]
    rfl

theorem shapew_queues {d a o : BitVec 6} {s : State} (ha : (s.S a).toNat < 4096) (h30 : (s.S o).toNat / 2 ^ 30 = 0)
    (h64 : (s.S o).toNat % 64 = 0) (hw : (s.S o).toNat + 64 ≤ s.ply.windowSize) :
    exec (.shapew d a o) s = .next (s.pushHub (.shapew d (s.S a).toNat (s.ply.windowBase + (s.S o).toNat))).done := by
  have hpass : allPass (shapewChecks s a o) := by
    unfold allPass shapewChecks
    simp only [List.forall_mem_cons, List.not_mem_nil]
    refine ⟨by omega, by omega, by omega, by omega, by omega, nofun⟩
  rw [exec_shapew, execShapew_eq, (shapewRecord_follows s a o).1 hpass]
  rfl

/-! ## The hub's answers (R103, R264) -/

theorem SameMemory.trans {s t u : State} (h₁ : SameMemory s t) (h₂ : SameMemory t u) : SameMemory s u := by
  obtain ⟨hseen₁, hlocal₁⟩ := h₁
  obtain ⟨hseen₂, hlocal₂⟩ := h₂
  exact ⟨fun k pa => (hseen₂ k pa).trans (hseen₁ k pa), fun k sp a => (hlocal₂ k sp a).trans (hlocal₁ k sp a)⟩

/-- The answer to a request of the issuing path. -/
def State.answered (s : State) (seq : Nat) (k : HubKind) (ws : List (BitVec 6 × Word)) : State :=
  (s.answer s.ply.uid ⟨seq, s.ply.slot, k⟩ ws).reap.awake

theorem State.answered_frame (s : State) (seq : Nat) (k : HubKind) (ws : List (BitVec 6 × Word)) :
    LeafFrame s (s.answered seq k ws) :=
  ((State.modAny_frame (fun p => Ply.answer_holder p _ _) ..).trans (State.reap_frame _)).trans (State.awake_frame _)

theorem State.answered_woken (s : State) (seq : Nat) (k : HubKind) (ws : List (BitVec 6 × Word)) :
    WokenPly ((ws.foldl (fun p (d, w) => p.putS s.ply.slot d w) s.ply).dropHub seq) (s.answered seq k ws).ply := by
  have hply : (s.answer s.ply.uid ⟨seq, s.ply.slot, k⟩ ws).reap.ply =
      (ws.foldl (fun p (d, w) => p.putS s.ply.slot d w) s.ply).dropHub seq := by
    unfold State.answer
    rw [State.modAny_eq rfl]
    rfl
  rw [← hply]
  exact State.awake_wokenPly _

theorem State.answered_hubq (s : State) (seq : Nat) (k : HubKind) (ws : List (BitVec 6 × Word)) :
    ∀ e ∈ (s.answered seq k ws).ply.hubq, e.seq ≠ seq := by
  intro e he
  obtain ⟨-, -, hrest⟩ := s.answered_woken seq k ws
  rw [hrest] at he
  simpa using (List.mem_filter.mp he).2

theorem State.answered_S (s : State) (seq : Nat) (k : HubKind) (d : BitVec 6) (w : Word) (r : BitVec 6) :
    (s.answered seq k [(d, w)]).S r = s.afterWrite d w r := by
  have hwoken := s.answered_woken seq k [(d, w)]
  have hslot : (s.answered seq k [(d, w)]).ply.slot = s.ply.slot := by
    rw [WokenPly.slot hwoken]
    exact Ply.putS_slot ..
  have hread : (s.answered seq k [(d, w)]).S r = (s.answered seq k [(d, w)]).ply.getS s.ply.slot r :=
    congrArg (fun j => (s.answered seq k [(d, w)]).ply.getS j r) hslot
  rw [hread, WokenPly.getS hwoken]
  exact Ply.getS_putS ..

/-- The first request of the ply in hand, of a kind that the hub takes in issue order, is performed. -/
theorem takeResult_first {s : State} {k : HubKind} {seq : Nat} (h : FirstRequest s k seq)
    (hans : s.answerable s.ply ⟨seq, s.ply.slot, k⟩ = true) :
    s.takeResult s.ply.uid seq = (s.answerHub s.ply ⟨seq, s.ply.slot, k⟩).reap := by
  obtain ⟨huid, hlsq, l, hhub, -⟩ := h
  have hnone : s.ply.lsq.find? (fun e : MemOp => e.seq == seq) = none :=
    List.find?_eq_none.mpr fun e he => by simpa using hlsq e he
  have hfind : s.ply.hubq.find? (fun h : HubOp => h.seq == seq) = some ⟨seq, s.ply.slot, k⟩ := by
    rw [hhub]
    exact List.find?_cons_of_pos (by simp)
  unfold State.takeResult
  rw [State.anyPly_self huid]
  dsimp only
  rw [hnone]
  dsimp only
  rw [hfind]
  exact if_pos hans

/-! ## Generations and handles (R223) -/

theorem nextGen_toNat (g : BitVec 20) : (nextGen g).toNat = generationAfter g.toNat := by
  unfold nextGen generationAfter
  have hlt := g.isLt
  by_cases hg : g = BitVec.allOnes 20
  · subst hg
    decide
  · have hne : g.toNat ≠ 2 ^ 20 - 1 := fun h => hg (BitVec.eq_of_toNat_eq (by rw [h, BitVec.toNat_allOnes]))
    rw [if_neg (by simpa using hg), if_neg hne, BitVec.toNat_add]
    have hone : (1 : BitVec 20).toNat = 1 := rfl
    omega

theorem nextGen_ne_zero (g : BitVec 20) : nextGen g ≠ 0 := by
  intro h
  have hz : (nextGen g).toNat = 0 := congrArg BitVec.toNat h
  rw [nextGen_toNat] at hz
  unfold generationAfter at hz
  split at hz <;> omega

theorem handle_fields {slot g : Nat} (hslot : slot < 4096) (hg : g < 2 ^ 20) : (BitVec.ofNat 32 (slot * 2 ^ 20 + g)).toNat / 2 ^ 20 = slot ∧
    (BitVec.ofNat 32 (slot * 2 ^ 20 + g)).toNat % 2 ^ 20 = g := by
  rw [BitVec.toNat_ofNat]
  omega

/-! ## The slots of a tenant (R223) -/

/-- A slot of a tenant is set. -/
def State.setShape (s : State) (tenant slot : Nat) (x : BitVec 20 × Option Shape) : State :=
  s.modTenant tenant fun t => { t with shapes := tset slot x t.shapes }

theorem State.setShape_same (s : State) (tenant slot : Nat) (x : BitVec 20 × Option Shape) :
    tget (0, none) slot ((s.setShape tenant slot x).tenant tenant).shapes = x := by
  unfold State.setShape State.modTenant
  rw [State.setTenant_tenant]
  exact tget_tset_same ..

theorem State.setShape_other (s : State) {tenant slot n : Nat} (h : n ≠ slot) (x : BitVec 20 × Option Shape) :
    tget (0, none) n ((s.setShape tenant slot x).tenant tenant).shapes = tget (0, none) n (s.tenant tenant).shapes := by
  unfold State.setShape State.modTenant
  rw [State.setTenant_tenant]
  exact tget_tset_other _ _ h _

theorem LeafFrame.tenant {s t : State} (h : LeafFrame s t) (k : Nat) : t.tenant k = s.tenant k := by
  unfold State.tenant
  rw [h.rest]

theorem State.shapeOf_eq (s : State) (tenant : Nat) (h : Word) : s.shapeOf tenant h =
    let x := tget (0, none) (h.toNat / 2 ^ 20) (s.tenant tenant).shapes
    if x.1 != 0 && x.1.toNat == h.toNat % 2 ^ 20 then x.2 else none := rfl

theorem State.shapeOf_congr {s t : State} {tenant : Nat} {h : Word}
    (heq : tget (0, none) (h.toNat / 2 ^ 20) (t.tenant tenant).shapes = tget (0, none) (h.toNat / 2 ^ 20) (s.tenant tenant).shapes) :
    t.shapeOf tenant h = s.shapeOf tenant h := by
  unfold State.shapeOf
  rw [heq]

/-- The record of a slot under its generation. -/
theorem State.shapeOf_current {s : State} {tenant : Nat} {h : Word} {g : BitVec 20} {r : Option Shape}
    (heq : tget (0, none) (h.toNat / 2 ^ 20) (s.tenant tenant).shapes = (g, r)) (hg : g ≠ 0) (hh : h.toNat % 2 ^ 20 = g.toNat) :
    s.shapeOf tenant h = r := by
  rw [State.shapeOf_eq, heq]
  refine if_pos ?_
  rw [Bool.and_eq_true, bne_iff_ne, beq_iff_eq]
  exact ⟨hg, hh.symm⟩

/-! ## The fields of a record (R221) -/

theorem leNat_lt (l : List Byte) : leNat l < 256 ^ l.length := by
  induction l with
  | nil => decide
  | cons x l ih =>
    have hx := x.isLt
    rw [leNat, List.length_cons, pow_succ']
    omega

theorem fieldAt_lt (b : List Byte) (o n : Nat) : fieldAt b o n < 256 ^ n :=
  (leNat_lt _).trans_le (Nat.pow_le_pow_right (by decide) (List.length_take_le ..))

theorem num_toNat {b : List Byte} {o n w : Nat} (h : w = 8 * n) : (BitVec.ofNat w (num b o n)).toNat = fieldAt b o n := by
  have hlt := fieldAt_lt b o n
  rw [show 256 = 2 ^ 8 from rfl, ← pow_mul, ← h] at hlt
  rw [BitVec.toNat_ofNat]
  exact Nat.mod_eq_of_lt hlt

theorem signedNum_eq (b : List Byte) (o n : Nat) (hn : 0 < n) : signedNum b o n = signedAt b o n := by
  have hlt := fieldAt_lt b o n
  rw [show 256 = 2 ^ 8 from rfl, ← pow_mul] at hlt
  have hpow : 2 ^ (8 * n) = 2 * 2 ^ (8 * n - 1) := by
    rw [← pow_succ']
    congr 1
    omega
  have hnum : num b o n = fieldAt b o n := rfl
  unfold signedNum signedAt
  rw [BitVec.toInt_eq_toNat_cond, BitVec.toNat_ofNat, Nat.mod_eq_of_lt hlt]
  simp only [hnum]
  by_cases h : 2 ^ (8 * n - 1) ≤ fieldAt b o n
  · rw [if_pos h, if_neg (by omega)]
    push_cast
    rfl
  · rw [if_neg h, if_pos (by omega)]

theorem auxBit_iff (b : List Byte) : (BitVec.ofNat 16 (num b 62 2)).getLsbD 15 = true ↔ fieldAt b 62 2 / 2 ^ 15 = 1 := by
  have hlt := fieldAt_lt b 62 2
  rw [← BitVec.testBit_toNat, num_toNat (w := 16) (n := 2) rfl, Nat.testBit_eq_decide_div_mod_eq, decide_eq_true_eq]
  omega

/-- The fields that a record takes from its 64 bytes. -/
theorem Shape.parse_fields (b : List Byte) : let r := Shape.parse b
    let aux := fieldAt b 62 2 / 2 ^ 15 = 1
    r.base.toNat = fieldAt b 0 8 ∧ r.ctl.toNat = fieldAt b 62 2 ∧
    (∀ k, k < 5 → r.ext.getD k 0 = fieldAt b (8 + 4 * k) 4 ∧ r.stride.getD k 0 = signedAt b (28 + 5 * k) 5) ∧
    r.ext.length = 6 ∧ r.stride.length = 6 ∧
    (aux → r.ext.getD 5 0 = 1 ∧ r.pad.toNat = fieldAt b 53 4 ∧ r.scale.toNat = fieldAt b 57 4 ∧ r.byte61.toNat = fieldAt b 61 1) ∧
    (¬aux → r.ext.getD 5 0 = fieldAt b 53 4 ∧ r.stride.getD 5 0 = signedAt b 57 5 ∧ r.pad = 0 ∧ r.scale = 0 ∧ r.byte61 = 0) := by
  intro r aux
  have hget {α : Type} (f : Nat → α) (x d : α) (k : Nat) (hk : k < 5) : ((List.range 5).map f ++ [x]).getD k d = f k := by
    rw [List.getD_append _ _ _ _ (by simpa using hk)]
    simp [List.getD, hk]
  have hlast {α : Type} (f : Nat → α) (x d : α) : ((List.range 5).map f ++ [x]).getD 5 d = x := by
    rw [List.getD_append_right _ _ _ _ (by simp)]
    simp
  have hext (x : Nat) : ((List.range 5).map (fun k => num b (8 + 4 * k) 4) ++ [x]).length = 6 := by simp
  have hstride (x : Int) : ((List.range 5).map (fun k => signedNum b (28 + 5 * k) 5) ++ [x]).length = 6 := by simp
  refine ⟨num_toNat rfl, num_toNat rfl, fun k hk => ⟨hget _ _ _ k hk, ?_⟩, hext _, hstride _, fun haux => ?_, fun haux => ?_⟩
  · exact (hget _ _ _ k hk).trans (signedNum_eq _ _ _ (by decide))
  · have hbit := (auxBit_iff b).mpr haux
    refine ⟨(hlast _ _ _).trans (if_pos hbit), ?_, ?_, ?_⟩
    · exact (congrArg BitVec.toNat (if_pos hbit)).trans (num_toNat rfl)
    · exact (congrArg BitVec.toNat (if_pos hbit)).trans (num_toNat rfl)
    · exact (congrArg BitVec.toNat (if_pos hbit)).trans (num_toNat rfl)
  · have hbit := mt (auxBit_iff b).mp haux
    refine ⟨(hlast _ _ _).trans (if_neg hbit), ?_, if_neg hbit, if_neg hbit, if_neg hbit⟩
    exact ((hlast _ _ _).trans (if_neg hbit)).trans (signedNum_eq _ _ _ (by decide))

/-! ## SHAPEW and SHAPEREL at the hub (R228) -/

/-- SHAPEW's answer: the slot's next generation holds the record of the 64 bytes. -/
theorem shapew_answers {s : State} {seq slot off : Nat} {d : BitVec 6} (h : FirstRequest s (.shapew d slot off) seq)
    (hx : ∀ e ∈ s.ply.lsq, e.kind.isStoreX = false) :
    let g := nextGen (tget (0, none) slot (s.tenant s.ply.tenant).shapes).1
    let u := s.setShape s.ply.tenant slot (g, some (Shape.parse (s.localRead s.ply.core .xbuf off 64)))
    exec (.longLatencyResult s.ply.uid seq) s =
      .next (u.answered seq (.shapew d slot off) [(d, BitVec.ofNat 32 (slot * 2 ^ 20 + g.toNat))]) := by
  intro g u
  have hans : s.answerable s.ply ⟨seq, s.ply.slot, .shapew d slot off⟩ = true := by
    obtain ⟨-, -, l, hhub, -⟩ := h
    have hold : (s.ply.older seq).any (fun e => e.kind.isStoreX) = false :=
      List.any_eq_false.mpr fun e he => by simp [hx e (List.mem_filter.mp he).1]
    unfold State.answerable
    simp [hhub, hold]
  rw [exec_longLatencyResult, takeResult_first h hans]
  rfl

/-- SHAPEREL's answer. -/
theorem shaperel_answers {s : State} {seq : Nat} {w : Word} (h : FirstRequest s (.shaperel w) seq) :
    exec (.longLatencyResult s.ply.uid seq) s =
      .next ((s.releaseShape s.ply.tenant w).answer s.ply.uid ⟨seq, s.ply.slot, .shaperel w⟩ []).reap.awake := by
  have hans : s.answerable s.ply ⟨seq, s.ply.slot, .shaperel w⟩ = true := by
    obtain ⟨-, -, l, hhub, -⟩ := h
    unfold State.answerable
    simp [hhub]
  rw [exec_longLatencyResult, takeResult_first h hans]
  rfl

theorem State.releaseShape_eq (s : State) (tenant : Nat) (h : Word) : s.releaseShape tenant h =
    if s.shapeOf tenant h = none then s
    else s.setShape tenant (h.toNat / 2 ^ 20) (nextGen (BitVec.ofNat 20 h.toNat), none) := by
  unfold State.releaseShape
  cases s.shapeOf tenant h with
  | none => exact (if_pos rfl).symm
  | some r => exact (if_neg (by simp)).symm

/-- The hub has written a record (R221, R223, R228). -/
theorem shapew_writes {s : State} {seq slot off : Nat} {d : BitVec 6} (h : FirstRequest s (.shapew d slot off) seq)
    (hslot : slot < 4096) (hx : ∀ e ∈ s.ply.lsq, e.kind.isStoreX = false) (hwf : ((s.core s.ply.core).space .xbuf).wf = true) :
    Answers (.longLatencyResult s.ply.uid seq) s fun t =>
      let b := (List.range 64).map fun i => s.localByte s.ply.core .xbuf (off + i)
      let w : Word := BitVec.ofNat 32 (slot * 2 ^ 20 + generationAfter (slotGeneration s s.ply.tenant slot))
      SameMemory s t ∧ (∀ r, t.S r = s.afterWrite d w r) ∧ (∀ e ∈ t.ply.hubq, e.seq ≠ seq) ∧
        t.shapeOf s.ply.tenant w = some (Shape.parse b) := by
  refine ⟨_, shapew_answers h hx, ?_⟩
  dsimp only
  rw [State.localRead_eq hwf]
  generalize hb : (List.range 64).map (fun i => s.localByte s.ply.core .xbuf (off + i)) = b
  generalize hword : (BitVec.ofNat 32 (slot * 2 ^ 20 + generationAfter (slotGeneration s s.ply.tenant slot)) : Word) = w
  generalize hg : nextGen (tget (0, none) slot (s.tenant s.ply.tenant).shapes).1 = g
  have hgen : generationAfter (slotGeneration s s.ply.tenant slot) = g.toNat := by
    rw [← hg, nextGen_toNat]
    rfl
  have hw : w = BitVec.ofNat 32 (slot * 2 ^ 20 + g.toNat) := by rw [← hword, hgen]
  obtain ⟨hdiv, hmod⟩ := handle_fields hslot g.isLt
  rw [← hw] at hdiv hmod ⊢
  have hframe := State.answered_frame (s.setShape s.ply.tenant slot (g, some (Shape.parse b))) seq (.shapew d slot off) [(d, w)]
  refine ⟨?_, ?_, fun e he => State.answered_hubq _ _ _ _ e he, ?_⟩
  · exact SameMemory.trans (SameMemory.of_eq rfl rfl rfl rfl) hframe.sameMemory
  · exact State.answered_S (s.setShape s.ply.tenant slot (g, some (Shape.parse b))) seq (.shapew d slot off) d w
  · refine State.shapeOf_current (g := g) ?_ (hg ▸ nextGen_ne_zero _) hmod
    rw [hframe.tenant, hdiv]
    exact State.setShape_same ..

/-- The hub has released a handle (R228). -/
theorem shaperel_releases {s : State} {seq : Nat} {h : Word} (hreq : FirstRequest s (.shaperel h) seq) :
    Answers (.longLatencyResult s.ply.uid seq) s fun t => SameMemory s t ∧ (∀ e ∈ t.ply.hubq, e.seq ≠ seq) ∧
      (s.shapeOf s.ply.tenant h = none → t.tenants = s.tenants) ∧
      (s.shapeOf s.ply.tenant h ≠ none → t.shapeOf s.ply.tenant h = none ∧
        slotGeneration t s.ply.tenant (h.toNat / 2 ^ 20) = generationAfter (h.toNat % 2 ^ 20) ∧
        ∀ g : Word, g.toNat / 2 ^ 20 ≠ h.toNat / 2 ^ 20 → t.shapeOf s.ply.tenant g = s.shapeOf s.ply.tenant g) := by
  refine ⟨_, shaperel_answers hreq, ?_⟩
  rw [State.releaseShape_eq]
  by_cases hcur : s.shapeOf s.ply.tenant h = none
  · rw [if_pos hcur]
    have hframe := State.answered_frame s seq (.shaperel h) []
    have htenants : (s.answered seq (.shaperel h) []).tenants = s.tenants := by rw [hframe.rest]
    exact ⟨hframe.sameMemory, State.answered_hubq s seq (.shaperel h) [], fun _ => htenants, fun hne => absurd hcur hne⟩
  · rw [if_neg hcur]
    generalize hu : s.setShape s.ply.tenant (h.toNat / 2 ^ 20) (nextGen (BitVec.ofNat 20 h.toNat), none) = u
    have hply : u.ply = s.ply := by
      rw [← hu]
      rfl
    have hframe := State.answered_frame u seq (.shaperel h) []
    have hhubq := State.answered_hubq u seq (.shaperel h) []
    unfold State.answered at hframe hhubq
    rw [hply] at hframe hhubq
    refine ⟨SameMemory.trans (t := u) ?_ hframe.sameMemory, hhubq, fun hnone => absurd hnone hcur, fun _ => ⟨?_, ?_, fun g hg => ?_⟩⟩
    · rw [← hu]
      exact SameMemory.of_eq rfl rfl rfl rfl
    · rw [State.shapeOf_eq, hframe.tenant, ← hu, State.setShape_same]
      exact ite_self _
    · unfold slotGeneration
      rw [hframe.tenant, ← hu, State.setShape_same, nextGen_toNat, BitVec.toNat_ofNat]
    · refine State.shapeOf_congr ?_
      rw [hframe.tenant, ← hu, State.setShape_other s hg]

end Sys2Proof.Machine

/-!
Copies that enter the engine's queue (R219, R220), and the lanes of LCP (R224).
-/
namespace Sys2Proof.Machine
open Sys2Proof.Claim

theorem exec_lcp (d r : BitVec 6) (i : BitVec 7) (z : BitVec 2) (s : State) : exec (.lcp d r i z) s = execLcp d r i z s := rfl

/-! ## The queue of the copy engine (R219, R220) -/

theorem Ply.setCnt_counter (p : Ply) {cls : Nat} (hcls : cls < 4) (x : BitVec 16) : counter (p.setCnt cls x) cls = x.toNat := by
  unfold counter Ply.setCnt
  dsimp only
  rw [Vector.getElem?_setIfInBounds_self_of_lt hcls]
  rfl

/-- An operation enters the queue of a core. -/
def Core.queued (o : CopyOp) (c : Core) : Core := { c with copyq := c.copyq ++ [o] }

theorem State.queueCopy_eq (s : State) (cls lane : Nat) (scope : BitVec 24) (scopes : List (BitVec 24)) (k : CopyKind) :
    s.queueCopy cls lane scope scopes k = (s.countOp cls scopes).2.modCore s.ply.core (Core.queued
      ⟨s.seq + 1, s.ply.uid, s.issue.first, s.ply.tenant, lane, scope, k, false, false, none, [], []⟩) := rfl

theorem State.queueCopy_queues (s : State) {cls : Nat} (hcls : cls < 4) (lane : Nat) (scope : BitVec 24) (scopes : List (BitVec 24))
    (k : CopyKind) : QueuesCopy s (s.queueCopy cls lane scope scopes k).done cls lane scope scopes k := by
  have hcnt : (s.queueCopy cls lane scope scopes k).done.ply.cnt = (s.queueCopy cls lane scope scopes k).ply.cnt :=
    Ply.advance_cnt ..
  refine ⟨rfl, SameMemory.of_localByte rfl rfl rfl fun j sp a => ?_, rfl, ?_, ?_, ?_⟩
  · rw [State.queueCopy_eq]
    exact State.modCore_localByte (f := Core.queued _) (fun _ sp => by cases sp <;> rfl) (s.countOp cls scopes).2 ..
  · unfold counter
    rw [hcnt]
    exact (Ply.setCnt_counter s.ply hcls _).trans (BitVec.toNat_add ..)
  · rw [hcnt]
    exact SameRun.unitDone (s := s) (u := s.queueCopy cls lane scope scopes k) ⟨rfl, rfl, rfl, rfl, rfl, rfl⟩
  · rw [State.queueCopy_eq]
    exact State.modCore_core ..

/-! ## The ends of a lane's copy (R172, R224) -/

theorem State.copyEnd_of {s : State} {base : DWord} {off : Word} {dest : Bool} {n lane : Nat} {p : Place} {pa : Nat}
    (h : CopyEnd s base off dest n lane p pa) : s.copyEnd base off dest n lane = .ok (p, pa) := by
  unfold CopyEnd at h
  unfold State.copyEnd isLocal
  by_cases hbase : base.getLsbD 63 = true
  · rw [if_pos hbase] at h
    obtain ⟨hz, hn, sp, rfl, hsp, hreach⟩ := h
    simp only [hbase, if_true]
    generalize base + off.signExtend 64 = a at hz hn hreach
    have h60 : bits a.toNat 60 21 = 0 := hz
    have h20 : bits a.toNat 20 0 = a.toNat % 2 ^ 21 := by simp [bits]
    have h62 : bits a.toNat 62 61 = a.toNat / 2 ^ 61 % 4 := rfl
    have hlocal : local64 a = (spaceOf (a.toNat / 2 ^ 61 % 4)).map fun sp => (sp, a.toNat % 2 ^ 21) := by
      unfold local64
      rw [h60, h20, h62]
      rfl
    rw [hlocal]
    have hspace : spaceOf (a.toNat / 2 ^ 61 % 4) = some sp ∧ ¬s.ply.spaceLimit sp < a.toNat % 2 ^ 21 + n ∧
        pa = s.ply.absolute sp (a.toNat % 2 ^ 21) := by
      cases sp
      all_goals
        obtain ⟨hnumber, hsize, hpa⟩ := hreach
        exact ⟨by rw [hnumber]; rfl, Nat.not_lt.mpr hsize, hpa⟩
    obtain ⟨hspace, hsize, rfl⟩ := hspace
    have hallowed : (!dest && sp != .xbuf) = false := by
      rcases hsp with rfl | rfl <;> simp
    rw [hspace]
    simp only [Option.map_some, hallowed, hn, hsize, bne_self_eq_false, Bool.false_eq_true, if_false]
  · rw [if_neg hbase] at h
    obtain ⟨rfl, hreach⟩ := h
    simp only [hbase, Bool.false_eq_true, if_false, State.checkGlobal_of_reaches hreach]

theorem State.copyLane_of {s : State} {dst src : DWord} {i : BitVec 7} {n lane : Nat} {sp dp : Place} {spa dpa : Nat}
    (hs : CopyEnd s src ((s.V (i + 1)).at lane) false n lane sp spa) (hd : CopyEnd s dst ((s.V i).at lane) true n lane dp dpa) :
    s.copyLane dst src i n lane = .ok ⟨lane, dp, sp, dpa, spa⟩ := by
  unfold State.copyLane
  rw [State.copyEnd_of hs, State.copyEnd_of hd]

/-! ## LCP at issue (R224) -/

section
variable {s : State} {d r : BitVec 6} {i : BitVec 7} {z : BitVec 2}

/-- What LCP queues for a list of lanes that pass their checks. -/
def State.queueLanes (s : State) (n : Nat) (ls : List LaneCopy) : State :=
  let v := s.fillTlb s.ply.tenant (globals (ls.flatMap fun l => [l.src, l.dst]))
  (v.queueCopy 0 127 0 (v.ply.scopesOf (ls.map (·.lane))) (.lcp n ls v.policy)).done

theorem State.queueLanes_queues (s : State) (n : Nat) (ls : List LaneCopy) : ∃ (v : State) (scopes : List (BitVec 24)),
    v = { s with tlb := v.tlb, vaults := v.vaults, homeLeases := v.homeLeases } ∧ Walked s v ∧
    QueuesCopy v (s.queueLanes n ls) 0 127 0 scopes (.lcp n ls s.policy) := by
  have hfilled := State.fillTlb_filled s s.ply.tenant (globals (ls.flatMap fun l => [l.src, l.dst]))
  unfold State.queueLanes
  dsimp only
  generalize s.fillTlb s.ply.tenant (globals (ls.flatMap fun l => [l.src, l.dst])) = v at hfilled
  have hpolicy : v.policy = s.policy := by
    rw [hfilled.rest]
    rfl
  refine ⟨v, v.ply.scopesOf (ls.map (·.lane)), hfilled.rest, ⟨hfilled.tlb, hfilled.vault⟩, ?_⟩
  rw [← hpolicy]
  exact State.queueCopy_queues v (by decide) ..

theorem execLcp_passes (hready : RunReady s i 2) {f : Nat → LaneCopy}
    (hlanes : ∀ l ∈ storingLanes s, s.copyLane (s.S64 d) (s.S64 r) i (4 * 2 ^ z.toNat) l = .ok (f l)) :
    execLcp d r i z s = (if storingLanes s = [] then s.done else s.queueLanes (4 * 2 ^ z.toNat) ((storingLanes s).map f)).ok := by
  have hrs : (storingLanes s).map (s.copyLane (s.S64 d) (s.S64 r) i (4 * 2 ^ z.toNat)) = (storingLanes s).map fun l => .ok (f l) :=
    List.map_congr_left hlanes
  unfold execLcp
  rw [State.checkRun_ready hready]
  dsimp only
  rw [State.storeLanes_eq, hrs]
  simp only [List.filterMap_map, Function.comp_def, List.filterMap_none, List.filterMap_eq_map', List.isEmpty_iff, List.map_eq_nil_iff]
  rfl

theorem lcp_answers (hready : RunReady s i 2) {src dst : Nat → Place} {spa dpa : Nat → Nat}
    (hends : ∀ l ∈ storingLanes s, CopyEnd s (s.S64 r) ((s.V (i + 1)).at l) false (4 * 2 ^ z.toNat) l (src l) (spa l) ∧
      CopyEnd s (s.S64 d) ((s.V i).at l) true (4 * 2 ^ z.toNat) l (dst l) (dpa l)) :
    Answers (.lcp d r i z) s fun t =>
      if storingLanes s = [] then OnlyPly s t ∧ UnitDone s t s.ply
      else ∃ (v : State) (scopes : List (BitVec 24)),
        v = { s with tlb := v.tlb, vaults := v.vaults, homeLeases := v.homeLeases } ∧ Walked s v ∧
        QueuesCopy v t 0 127 0 scopes (.lcp (4 * 2 ^ z.toNat)
          ((storingLanes s).map fun l => ⟨l, dst l, src l, dpa l, spa l⟩) s.policy) := by
  have hlanes : ∀ l ∈ storingLanes s, s.copyLane (s.S64 d) (s.S64 r) i (4 * 2 ^ z.toNat) l = .ok ⟨l, dst l, src l, dpa l, spa l⟩ := by
    intro l hl
    obtain ⟨hs, hd⟩ := hends l hl
    exact State.copyLane_of hs hd
  refine ⟨_, (exec_lcp d r i z s).trans (execLcp_passes hready hlanes), ?_⟩
  dsimp only
  by_cases hnil : storingLanes s = []
  · rw [if_pos hnil, if_pos hnil]
    exact ⟨OnlyPly.of_ply .., SameRun.unitDone ⟨rfl, rfl, rfl, rfl, rfl, rfl⟩⟩
  · rw [if_neg hnil, if_neg hnil]
    exact State.queueLanes_queues ..

end

end Sys2Proof.Machine

/-!
The walks of bulk copies (R222, R226) and the records that they read, in the terms of the statements.
-/
namespace Sys2Proof.Machine
open Sys2Proof.Claim

/-! ## Index tuples (R222) -/

theorem inWalk_nil {t : List Nat} : InWalk t [] ↔ t = [] := by
  simp [InWalk, List.length_eq_zero_iff]

theorem inWalk_cons {e : Nat} {es t : List Nat} : InWalk t (e :: es) ↔ ∃ i u, t = i :: u ∧ i < e ∧ InWalk u es := by
  cases t with
  | nil => simp [InWalk]
  | cons i u =>
    have hhead : (∀ k, k < (e :: es).length → (i :: u).getD k 0 < (e :: es).getD k 0) ↔
        i < e ∧ ∀ k, k < es.length → u.getD k 0 < es.getD k 0 := by
      refine ⟨fun h => ⟨h 0 (by simp), fun k hk => h (k + 1) (by simpa using hk)⟩, fun ⟨h0, h⟩ k hk => ?_⟩
      cases k with
      | zero => exact h0
      | succ k => exact h k (by simpa using hk)
    unfold InWalk
    rw [hhead]
    simp only [List.length_cons, Nat.add_right_cancel_iff, List.cons.injEq]
    constructor
    · rintro ⟨hlen, h0, h⟩
      exact ⟨i, u, ⟨rfl, rfl⟩, h0, hlen, h⟩
    · rintro ⟨j, v, ⟨rfl, rfl⟩, h0, hlen, h⟩
      exact ⟨hlen, h0, h⟩

theorem mem_tuples {ext t : List Nat} : t ∈ tuples ext ↔ InWalk t ext := by
  induction ext generalizing t with
  | nil => simp [tuples, inWalk_nil]
  | cons e es ih =>
    rw [inWalk_cons]
    simp only [tuples, List.mem_flatMap, List.mem_map, List.mem_range]
    constructor
    · rintro ⟨u, hu, i, hi, rfl⟩
      exact ⟨i, u, rfl, hi, ih.mp hu⟩
    · rintro ⟨i, u, rfl, hi, hu⟩
      exact ⟨u, ih.mpr hu, i, hi, rfl⟩

theorem within_iff {t ext : List Nat} (h : t.length = ext.length) : within t ext = true ↔ InWalk t ext := by
  induction ext generalizing t with
  | nil => simp [within, inWalk_nil, List.length_eq_zero_iff.mp h]
  | cons e es ih =>
    cases t with
    | nil => simp at h
    | cons i u =>
      have hwithin : within (i :: u) (e :: es) = (decide (i < e) && within u es) := rfl
      rw [hwithin, inWalk_cons, Bool.and_eq_true, decide_eq_true_eq, ih (by simpa using h)]
      simp

/-! ## Distances and offsets (R222) -/

theorem sum_zip_eq (t : List Nat) (d : List Int) : ((t.zip d).map fun x => (x.1 : Int) * x.2).sum =
    ((List.range t.length).map fun k => (t.getD k 0 : Int) * d.getD k 0).sum := by
  induction t generalizing d with
  | nil => simp
  | cons i t ih =>
    rw [List.length_cons, List.range_succ_eq_map, List.map_cons, List.map_map, List.sum_cons]
    cases d with
    | nil => simp [Function.comp_def]
    | cons x d => simp [ih, Function.comp_def]

theorem Walk.distance_eq (w : Walk) (t : List Nat) : w.distance t = distanceOf w t := by
  have hzip : w.distance t = ((t.zip w.stride).map fun x => (x.1 : Int) * x.2).foldl (· + ·) 0 := rfl
  rw [hzip, ← List.sum_eq_foldl, sum_zip_eq]
  rfl

theorem Walk.offset_eq (w : Walk) (t : List Nat) : w.offset t = offsetOf w t := by
  unfold Walk.offset offsetOf dword
  rw [Walk.distance_eq, BitVec.toNat_ofInt]
  omega

/-! ## The fields of a record (R221, R222) -/

theorem Shape.fmt_eq (r : Shape) : r.fmt = fmtOf r := by
  have := r.base.isLt
  unfold Shape.fmt fmtOf bits
  omega

theorem Shape.addr_eq (r : Shape) : r.addr = addrOf r := by simp [Shape.addr, addrOf, bits]

theorem Shape.offset_eq (r : Shape) : r.offset = BitVec.ofNat 64 (r.base.toNat % 2 ^ 30) := by
  unfold Shape.offset
  rw [Shape.addr_eq]
  have hmod : bits (addrOf r) 29 0 = r.base.toNat % 2 ^ 30 := by
    unfold bits addrOf
    omega
  rw [hmod]

theorem Shape.space_eq (r : Shape) : (if r.loc then bits r.addr 31 30 else 0) = spaceNumber r := by
  have hbits : bits r.addr 31 30 = r.base.toNat / 2 ^ 30 % 4 := by
    rw [Shape.addr_eq]
    unfold bits addrOf
    omega
  rw [hbits]
  rfl

theorem Shape.blk_eq (r : Shape) : r.blk = blkOf r := rfl
theorem Shape.scl_eq (r : Shape) : r.scl = sclOf r := rfl
theorem Shape.tr_eq (r : Shape) : r.tr = trOf r := rfl
theorem Shape.loc_eq (r : Shape) : r.loc = locOf r := rfl

theorem unitSize_eq (f : Nat) : unitSize f = Claim.unitOf f := by
  unfold unitSize Claim.unitOf
  split <;> simp_all

theorem unitOf_pos (f : Nat) : 0 < Claim.unitOf f := by
  unfold Claim.unitOf fmtBits
  split
  · decide
  · split
    · decide
    · split <;> simp_all

theorem Shape.padUnit_eq (r : Shape) (u : Nat) : r.padUnit u = padOf r u := by
  unfold Shape.padUnit padOf wordBytes
  congr 1

/-! ## Records in effect (R225 to R227) -/

/-- A record in effect, as the model's checks take it. -/
def useOf (r : InEffect) : ShapeUse := ⟨r.shape, r.ext, r.stride, r.unit⟩

theorem useOf_asSource (a : Shape) : useOf (asSource a) = ⟨a, a.ext, a.stride, unitSize a.fmt⟩ := by
  rw [unitSize_eq, Shape.fmt_eq]
  rfl

theorem useOf_asDest (b : Shape) : useOf (asDest b) = b.asDestination := by
  unfold Shape.asDestination asDest
  rw [unitSize_eq, Shape.fmt_eq, Shape.blk_eq]
  by_cases h1 : blkOf b = 1
  · simp [h1, useOf]
  · by_cases h2 : blkOf b = 2
    · simp [h2, useOf]
    · simp [h1, h2, useOf, asSource]

theorem malformed_iff (r : InEffect) : (useOf r).malformed = true ↔ (∃ e ∈ r.ext, e = 0) ∨ r.shape.ctl.toNat % 2 ^ 10 ≠ 0 ∨
    r.shape.byte61 ≠ 0 ∨ locOf r.shape = true ∧ r.shape.base.toNat / 2 ^ 32 % 2 ^ 28 ≠ 0 := by
  have hbits : bits r.shape.addr 59 32 = r.shape.base.toNat / 2 ^ 32 % 2 ^ 28 := by
    rw [Shape.addr_eq]
    unfold bits addrOf
    omega
  unfold ShapeUse.malformed useOf
  simp only [hbits, Bool.or_eq_true, Bool.and_eq_true, List.any_eq_true, beq_iff_eq, bne_iff_ne, Shape.loc_eq, or_assoc]

theorem any_zip_iff {ext : List Nat} {stride : List Int} (h : ext.length = stride.length) (p : Nat → Int → Bool) :
    ((ext.zip stride).any fun x => p x.1 x.2) = true ↔ ∃ k, k < ext.length ∧ p (ext.getD k 0) (stride.getD k 0) = true := by
  induction ext generalizing stride with
  | nil => simp
  | cons e ext ih =>
    cases stride with
    | nil => simp at h
    | cons d stride =>
      rw [List.zip_cons_cons, List.any_cons, Bool.or_eq_true, ih (by simpa using h)]
      constructor
      · rintro (h0 | ⟨k, hk, hp⟩)
        · exact ⟨0, by simp, h0⟩
        · exact ⟨k + 1, by simpa using hk, hp⟩
      · rintro ⟨k, hk, hp⟩
        cases k with
        | zero => exact .inl hp
        | succ k => exact .inr ⟨k, by simpa using hk, hp⟩

theorem misaligned_iff {r : InEffect} (h : r.ext.length = r.stride.length) : (useOf r).misaligned = true ↔
    addrOf r.shape % r.unit ≠ 0 ∨ ∃ k, k < r.ext.length ∧ 1 < r.ext.getD k 0 ∧ r.stride.getD k 0 % (r.unit : Int) ≠ 0 := by
  have hany : (useOf r).misaligned = (r.shape.addr % r.unit != 0 ||
      (r.ext.zip r.stride).any fun x => decide (1 < x.1) && x.2 % (r.unit : Int) != 0) := rfl
  rw [hany, Shape.addr_eq, Bool.or_eq_true, bne_iff_ne, any_zip_iff h fun e d => decide (1 < e) && d % (r.unit : Int) != 0]
  simp only [Bool.and_eq_true, decide_eq_true_eq, bne_iff_ne]

theorem asDest_lengths {b : Shape} (he : b.ext.length = 6) (hs : b.stride.length = 6) :
    (asDest b).ext.length = (asDest b).stride.length := by
  unfold asDest
  split
  · simp [he, hs]
  · split
    · simp [he, hs]
    · exact he.trans hs.symm

theorem asDest_unit (b : Shape) : (asDest b).unit = Claim.unitOf (fmtOf b) := by
  unfold asDest
  split
  · rfl
  · split <;> rfl

theorem asDest_shape (b : Shape) : (asDest b).shape = b := by
  unfold asDest
  split
  · rfl
  · split <;> rfl

/-! ## Walks and their ends (R173, R225) -/

/-- A record names a space that exists. -/
def InSpace (r : Shape) : Prop := spaceNumber r ≠ 3

theorem spaceNumber_lt (r : Shape) : spaceNumber r < 4 := by
  unfold spaceNumber
  split <;> omega

/-- The space of a local record by its number. -/
def spaceNamed (n : Nat) : Space := if n = 0 then .xbuf else if n = 1 then .wbuf else .sbuf

theorem spaceOf_named {n : Nat} (h : n < 3) : spaceOf n = some (spaceNamed n) := by
  interval_cases n <;> rfl

theorem walkFor_loc (s : State) (r : InEffect) :
    (walkFor s r).loc = if locOf r.shape = true then some (spaceNamed (spaceNumber r.shape)) else none := by
  unfold walkFor spaceNamed
  dsimp only
  split
  · split
    · rfl
    · split <;> rfl
  · rfl

theorem Ply.walkOf_eq {s : State} {r : InEffect} (h : InSpace r.shape) : s.ply.walkOf (useOf r) = walkFor s r := by
  have hlt : spaceNumber r.shape < 3 := by
    have := spaceNumber_lt r.shape
    unfold InSpace at h
    omega
  have hbase : (if r.shape.loc = true then bits r.shape.addr 29 0 else r.shape.addr) =
      if locOf r.shape = true then addrOf r.shape % 2 ^ 30 else addrOf r.shape := by
    rw [Shape.addr_eq, Shape.loc_eq]
    simp [bits]
  have hloc : (if r.shape.loc = true then spaceOf (bits r.shape.addr 31 30) else none) = (walkFor s r).loc := by
    rw [walkFor_loc]
    have hspace := Shape.space_eq r.shape
    by_cases hl : r.shape.loc = true
    · rw [if_pos hl] at hspace
      rw [if_pos hl, if_pos (by exact hl), hspace, spaceOf_named hlt]
    · rw [if_neg hl, if_neg (by exact hl)]
  have horigin : (match (walkFor s r).loc with
      | some x => s.ply.absolute x 0
      | none => 0) = (walkFor s r).origin := by
    rw [walkFor_loc]
    unfold walkFor spaceNamed
    dsimp only
    by_cases hl : locOf r.shape = true
    · by_cases h0 : spaceNumber r.shape = 0
      · simp [hl, h0, Ply.absolute]
      · by_cases h1 : spaceNumber r.shape = 1 <;> simp [hl, h0, h1, Ply.absolute]
    · simp [hl]
  unfold Ply.walkOf useOf
  dsimp only
  rw [hloc, hbase]
  exact congrArg (fun o => ({ walkFor s r with origin := o } : Walk)) horigin

theorem Ply.spaceLimit_eq (s : State) (r : Shape) : s.ply.spaceLimit (spaceNamed (spaceNumber r)) = sizeOfSpace s r := by
  unfold spaceNamed sizeOfSpace
  split
  · rfl
  · split <;> rfl

/-! ## The offsets beyond an end (R225) -/

/-- A list of offsets holds the least of those that satisfy p, and no other. -/
def BoundsBelow (l : List Nat) (p : Nat → Prop) : Prop := (∀ o ∈ l, p o) ∧ ∀ o, p o → ∃ x ∈ l, x ≤ o

namespace BoundsBelow

theorem append {l m : List Nat} {p q : Nat → Prop} (hl : BoundsBelow l p) (hm : BoundsBelow m q) :
    BoundsBelow (l ++ m) fun o => p o ∨ q o := by
  obtain ⟨hl, hleast⟩ := hl
  obtain ⟨hm, hleast'⟩ := hm
  refine ⟨fun o ho => (List.mem_append.mp ho).imp (hl o) (hm o), fun o ho => ?_⟩
  rcases ho with ho | ho
  · obtain ⟨x, hx, hle⟩ := hleast o ho
    exact ⟨x, List.mem_append_left _ hx, hle⟩
  · obtain ⟨x, hx, hle⟩ := hleast' o ho
    exact ⟨x, List.mem_append_right _ hx, hle⟩

theorem flatMap {α : Type} {rs : List α} {f : α → List Nat} {p : α → Nat → Prop} (h : ∀ r ∈ rs, BoundsBelow (f r) (p r)) :
    BoundsBelow (rs.flatMap f) fun o => ∃ r ∈ rs, p r o := by
  refine ⟨fun o ho => ?_, fun o ⟨r, hr, ho⟩ => ?_⟩
  · obtain ⟨r, hr, ho⟩ := List.mem_flatMap.mp ho
    exact ⟨r, hr, (h r hr).1 o ho⟩
  · obtain ⟨x, hx, hle⟩ := (h r hr).2 o ho
    exact ⟨x, List.mem_flatMap.mpr ⟨r, hr, hx⟩, hle⟩

theorem congr {l : List Nat} {p q : Nat → Prop} (h : BoundsBelow l p) (hpq : ∀ o, p o ↔ q o) : BoundsBelow l q :=
  ⟨fun o ho => (hpq o).mp (h.1 o ho), fun o ho => h.2 o ((hpq o).mpr ho)⟩

theorem nil_iff {l : List Nat} {p : Nat → Prop} (h : BoundsBelow l p) : l = [] ↔ ¬∃ o, p o := by
  refine ⟨fun hl ⟨o, ho⟩ => ?_, fun hn => List.eq_nil_iff_forall_not_mem.mpr fun o ho => hn ⟨o, h.1 o ho⟩⟩
  obtain ⟨x, hx, -⟩ := h.2 o ho
  simp [hl] at hx

theorem foldl_min (l : List Nat) (o : Nat) : l.foldl min o ∈ o :: l ∧ ∀ x ∈ o :: l, l.foldl min o ≤ x := by
  induction l generalizing o with
  | nil => simp
  | cons y l ih =>
    obtain ⟨hmem, hle⟩ := ih (min o y)
    obtain ⟨hmin, hl⟩ := List.forall_mem_cons.mp hle
    rw [List.foldl_cons]
    refine ⟨?_, List.forall_mem_cons.mpr ⟨by omega, List.forall_mem_cons.mpr ⟨by omega, hl⟩⟩⟩
    rcases List.mem_cons.mp hmem with h | h
    · rw [h]
      rcases Nat.le_total o y with hoy | hoy
      · simp [Nat.min_eq_left hoy]
      · simp [Nat.min_eq_right hoy]
    · exact List.mem_cons_of_mem _ (List.mem_cons_of_mem _ h)

/-- The least of a list that bounds p is the least that satisfies p. -/
theorem least {o : Nat} {l : List Nat} {p : Nat → Prop} (h : BoundsBelow (o :: l) p) :
    p (l.foldl min o) ∧ ∀ x, p x → l.foldl min o ≤ x := by
  obtain ⟨hmem, hle⟩ := foldl_min l o
  refine ⟨h.1 _ hmem, fun x hx => ?_⟩
  obtain ⟨y, hy, hyx⟩ := h.2 x hx
  exact (hle y hy).trans hyx

end BoundsBelow

theorem Ply.beyond_eq (p : Ply) (w : Walk) {sp : Space} (h : w.loc = some sp) (n : Nat) (ts : List (List Nat)) : p.beyond w n ts =
    ts.filterMap fun t => if p.spaceLimit sp < w.offset t + n then some (max (w.offset t) (p.spaceLimit sp)) else none := by
  unfold Ply.beyond
  rw [h]

/-- The model's offsets beyond the end of a record's space hold the least. -/
theorem Ply.beyond_bounds {s : State} {r : InEffect} (hunit : 0 < r.unit) {ts : List (List Nat)} {reads : List Nat → Prop}
    (hts : ∀ t, t ∈ ts ↔ InWalk t r.ext ∧ reads t) :
    BoundsBelow (s.ply.beyond (walkFor s r) r.unit ts) fun o => BeyondEnd s r o reads := by
  by_cases hloc : locOf r.shape = true
  · have hw : (walkFor s r).loc = some (spaceNamed (spaceNumber r.shape)) := by
      rw [walkFor_loc, if_pos hloc]
    rw [Ply.beyond_eq _ _ hw, Ply.spaceLimit_eq]
    refine ⟨fun o ho => ?_, fun o ⟨_, t, ht, hr, i, hi, ho, hsize⟩ => ?_⟩
    · obtain ⟨t, ht, ho⟩ := List.mem_filterMap.mp ho
      obtain ⟨hwalk, hreads⟩ := (hts t).mp ht
      rw [Walk.offset_eq] at ho
      split at ho
      · next hlt =>
        obtain rfl := Option.some.inj ho
        exact ⟨hloc, t, hwalk, hreads, max (offsetOf (walkFor s r) t) (sizeOfSpace s r.shape) - offsetOf (walkFor s r) t,
          by omega, by omega, by omega⟩
      · exact absurd ho (by simp)
    · refine ⟨max (offsetOf (walkFor s r) t) (sizeOfSpace s r.shape), List.mem_filterMap.mpr ⟨t, (hts t).mpr ⟨ht, hr⟩, ?_⟩, by omega⟩
      rw [Walk.offset_eq, if_pos (by omega)]
  · have hw : (walkFor s r).loc = none := by rw [walkFor_loc, if_neg hloc]
    have hnil : s.ply.beyond (walkFor s r) r.unit ts = [] := by
      unfold Ply.beyond
      rw [hw]
    rw [hnil]
    exact ⟨by simp, fun o ho => absurd ho.1 hloc⟩

end Sys2Proof.Machine

/-!
TCOPY and TCOPYX at issue (R225 to R227): the decision follows the table of checks.
-/
namespace Sys2Proof.Machine
open Sys2Proof.Claim

theorem inWalk_pair {t : List Nat} {m n : Nat} : InWalk t [m, n] ↔ t.length = 2 ∧ t.getD 0 0 < m ∧ t.getD 1 0 < n := by
  unfold InWalk
  refine and_congr_right fun _ => ⟨fun h => ⟨h 0 (by simp), h 1 (by simp)⟩, fun ⟨h0, h1⟩ k hk => ?_⟩
  have hk2 : k = 0 ∨ k = 1 := by
    have : k < 2 := hk
    omega
  rcases hk2 with rfl | rfl
  · exact h0
  · exact h1

/-- The scales that a copy reads of a record (R227). -/
theorem mem_scaleTuples {r : InEffect} (h : r.ext.length = 2) (rows : Nat) (t : List Nat) :
    t ∈ (tuples [8, rows]).filter (fun t => within t r.ext) ↔ InWalk t r.ext ∧ t.getD 0 0 < 8 ∧ t.getD 1 0 < rows := by
  rw [List.mem_filter, mem_tuples, inWalk_pair]
  constructor
  · rintro ⟨⟨hlen, h0, h1⟩, hw⟩
    exact ⟨(within_iff (hlen.trans h.symm)).mp hw, h0, h1⟩
  · rintro ⟨hw, h0, h1⟩
    have hlen : t.length = 2 := hw.1.trans h
    exact ⟨⟨hlen, h0, h1⟩, (within_iff hw.1).mpr hw⟩

section
variable (s : State) (x : Bool) (a b : Shape) (c : Option Shape)

/-- The records that a copy reads (R225). -/
def recordsRead : List InEffect := asSource a :: asDest b :: c.toList.map asScales

/-- Rows of scales (R227). -/
def scaleRows : Nat := if blkOf b = 1 then 96 else 64

/-- Offset o is beyond the end of a record of the copy. -/
def Far (o : Nat) : Prop := BeyondEnd s (asSource a) o (fun _ => True) ∨ BeyondEnd s (asDest b) o (fun _ => True) ∨
  ∃ r ∈ c.toList.map asScales, BeyondEnd s r o fun t => t.getD 0 0 < 8 ∧ t.getD 1 0 < scaleRows b

theorem plain_iff (r : Shape) : (!r.tr && r.blk == 0 && !r.scl) = true ↔ trOf r = false ∧ blkOf r = 0 ∧ sclOf r = false := by
  rw [Shape.tr_eq, Shape.blk_eq, Shape.scl_eq]
  simp [and_assoc]

/-- The condition of order 2 (R225). -/
theorem order2_iff : (a.fmt != b.fmt || (recordsRead a b c).any (ShapeUse.malformed ∘ useOf) || b.blk == 3 ||
      !(!a.tr && a.blk == 0 && !a.scl) || !x && !(!b.tr && b.blk == 0 && !b.scl) ||
      c.toList.any (fun r => !(!r.tr && r.blk == 0 && !r.scl)) ||
      x && b.scl && (b.blk == 0 || Option.map Shape.fmt c != some 13)) = true ↔
    fmtOf a ≠ fmtOf b ∨ (∃ r ∈ recordsRead a b c, (∃ e ∈ r.ext, e = 0) ∨ r.shape.ctl.toNat % 2 ^ 10 ≠ 0 ∨ r.shape.byte61 ≠ 0 ∨
        locOf r.shape = true ∧ r.shape.base.toNat / 2 ^ 32 % 2 ^ 28 ≠ 0) ∨ blkOf b = 3 ∨
      ¬(trOf a = false ∧ blkOf a = 0 ∧ sclOf a = false) ∨ (x = false ∧ ¬(trOf b = false ∧ blkOf b = 0 ∧ sclOf b = false)) ∨
      (∃ r ∈ c, ¬(trOf r = false ∧ blkOf r = 0 ∧ sclOf r = false)) ∨
      ((x = true ∧ sclOf b = true) ∧ (blkOf b = 0 ∨ c.map fmtOf ≠ some 13)) := by
  have hfmt : Option.map Shape.fmt c = c.map fmtOf := congrArg (fun f => Option.map f c) (funext Shape.fmt_eq)
  have hplain (r : Shape) : (!r.tr && r.blk == 0 && !r.scl) = decide (trOf r = false ∧ blkOf r = 0 ∧ sclOf r = false) := by
    rw [Bool.eq_iff_iff, plain_iff, decide_eq_true_eq]
  simp only [hplain]
  simp only [Bool.or_eq_true, Bool.and_eq_true, Bool.not_eq_true', decide_eq_false_iff_not, bne_iff_ne, ne_eq, beq_iff_eq,
    List.any_eq_true, Function.comp_apply, malformed_iff, Shape.fmt_eq, hfmt, Shape.blk_eq, Shape.scl_eq, Option.mem_toList, Option.mem_def,
    or_assoc, and_assoc]

theorem asScales_lengths {r : Shape} (he : r.ext.length = 6) (hs : r.stride.length = 6) :
    (asScales r).ext.length = 2 ∧ (asScales r).stride.length = 2 := by
  simp [asScales, he, hs]

theorem recordsRead_unit : ∀ r ∈ recordsRead a b c, 0 < r.unit := by
  intro r hr
  unfold recordsRead at hr
  simp only [List.mem_cons, List.mem_map] at hr
  rcases hr with rfl | rfl | ⟨k, -, rfl⟩
  · exact unitOf_pos _
  · rw [asDest_unit]
    exact unitOf_pos _
  · exact Nat.two_pos

variable (hlen : ∀ r : Shape, r = a ∨ r = b ∨ c = some r → r.ext.length = 6 ∧ r.stride.length = 6)
include hlen

theorem recordsRead_lengths : ∀ r ∈ recordsRead a b c, r.ext.length = r.stride.length := by
  intro r hr
  unfold recordsRead at hr
  simp only [List.mem_cons, List.mem_map, Option.mem_toList] at hr
  rcases hr with rfl | rfl | ⟨k, hk, rfl⟩
  · obtain ⟨he, hs⟩ := hlen a (.inl rfl)
    exact he.trans hs.symm
  · obtain ⟨he, hs⟩ := hlen b (.inr (.inl rfl))
    exact asDest_lengths he hs
  · obtain ⟨he, hs⟩ := hlen k (.inr (.inr hk))
    obtain ⟨he', hs'⟩ := asScales_lengths he hs
    exact he'.trans hs'.symm

/-- The model's offsets beyond the ends of a copy's records hold the least. -/
theorem far_bounds : BoundsBelow (s.ply.beyond (walkFor s (asDest b)) (asDest b).unit (tuples (asDest b).ext) ++
      (s.ply.beyond (walkFor s (asSource a)) (asSource a).unit (tuples (asSource a).ext) ++
      (c.toList.map asScales).flatMap fun r =>
        s.ply.beyond (walkFor s r) 2 ((tuples [8, scaleRows b]).filter fun t => within t r.ext))) (Far s a b c) := by
  have hall (r : InEffect) (t : List Nat) : t ∈ tuples r.ext ↔ InWalk t r.ext ∧ True := by rw [mem_tuples, and_true]
  have hunits := recordsRead_unit a b c
  have hdst := Ply.beyond_bounds (s := s) (hunits _ (by simp [recordsRead])) (hall (asDest b))
  have hsrc := Ply.beyond_bounds (s := s) (hunits _ (by simp [recordsRead])) (hall (asSource a))
  have hscs : BoundsBelow ((c.toList.map asScales).flatMap fun r =>
      s.ply.beyond (walkFor s r) 2 ((tuples [8, scaleRows b]).filter fun t => within t r.ext))
      fun o => ∃ r ∈ c.toList.map asScales, BeyondEnd s r o fun t => t.getD 0 0 < 8 ∧ t.getD 1 0 < scaleRows b := by
    refine BoundsBelow.flatMap fun r hr => ?_
    obtain ⟨k, hk, rfl⟩ := List.mem_map.mp hr
    obtain ⟨he, hs⟩ := hlen k (.inr (.inr (Option.mem_toList.mp hk)))
    exact Ply.beyond_bounds (s := s) (r := asScales k) Nat.two_pos (mem_scaleTuples (asScales_lengths he hs).1 (scaleRows b))
  refine (hdst.append (hsrc.append hscs)).congr fun o => ?_
  unfold Far
  tauto

end

/-! ## The decision (R225) -/

section
variable {s : State} {g : BitVec 6} {x : Bool} {a b : Shape} {c : Option Shape}

theorem usesScales_iff : (x && b.scl && a.scale != 0) = true ↔ usesScales x a b := by
  rw [Bool.and_eq_true, Bool.and_eq_true, bne_iff_ne, Shape.scl_eq, and_assoc]
  rfl

theorem bit31_iff (bar : Word) : bits bar.toNat 31 31 = 1 ↔ bar.getLsbD 31 = true := by
  rw [← BitVec.testBit_toNat, Nat.testBit_eq_decide_div_mod_eq, decide_eq_true_eq]
  rfl

theorem barrierWord_iff (bar : Word) (core : Nat) : (bits bar.toNat 31 31 == 1 && (bits bar.toNat 30 15 != 0 ||
      clusterOf (bits bar.toNat 14 5) != clusterOf core)) = true ↔
    bar.getLsbD 31 = true ∧ (bar.toNat / 2 ^ 15 % 2 ^ 16 ≠ 0 ∨ bar.toNat / 2 ^ 8 % 2 ^ 7 ≠ core / 8) := by
  have hcluster : clusterOf (bits bar.toNat 14 5) = bar.toNat / 2 ^ 8 % 2 ^ 7 := by
    unfold clusterOf bits
    omega
  have hcore : clusterOf core = core / 8 := rfl
  rw [Bool.and_eq_true, Bool.or_eq_true, beq_iff_eq, bne_iff_ne, bne_iff_ne, bit31_iff, hcluster, hcore]
  rfl

/-- What the copy does where every check passes. -/
theorem bulkCopy_eq (hsrc : InSpace a) (hdst : InSpace b) (hscs : ∀ k, c = some k → InSpace k) (hscl : c ≠ none → (x && b.scl) = true)
    (soff bar : Word) :
    CopyKind.tcopy (useOf (asDest b)).unit (s.ply.walkOf (useOf (asSource a))) (s.ply.walkOf (useOf (asDest b))) b.tr
      (a.padUnit (unitSize a.fmt))
      (((c.toList.map asScales).map useOf).head?.map fun r => (s.ply.walkOf r, r.shape.padUnit 2, soff.toNat, scaleRows b))
      (if bits bar.toNat 31 31 == 1 then some (bits bar.toNat 14 5, bits bar.toNat 4 0) else none) = bulkCopy s x soff bar a b c := by
  have hcredit : (if bits bar.toNat 31 31 == 1 then some (bits bar.toNat 14 5, bits bar.toNat 4 0) else none) =
      if bar.getLsbD 31 then some (bar.toNat / 2 ^ 5 % 2 ^ 10, bar.toNat % 2 ^ 5) else none := by
    have h4 : bits bar.toNat 4 0 = bar.toNat % 2 ^ 5 := by simp [bits]
    rw [h4]
    exact ite_congr (propext (beq_iff_eq.trans (bit31_iff bar))) (fun _ => rfl) fun _ => rfl
  have hscales : (((c.toList.map asScales).map useOf).head?.map fun r =>
        (s.ply.walkOf r, r.shape.padUnit 2, soff.toNat, scaleRows b)) =
      if x && sclOf b then c.map fun r => (walkFor s (asScales r), padOf r 2, soff.toNat, scaleRows b) else none := by
    cases c with
    | none => exact (ite_self _).symm
    | some k =>
      have hplaces : (x && sclOf b) = true := hscl (by simp)
      rw [if_pos hplaces]
      have hwalk : s.ply.walkOf (useOf (asScales k)) = walkFor s (asScales k) := Ply.walkOf_eq (hscs k rfl)
      have hpad : (useOf (asScales k)).shape.padUnit 2 = padOf k 2 := Shape.padUnit_eq k 2
      simp only [Option.toList_some, List.map_cons, List.map_nil, List.head?_cons, Option.map_some, hwalk, hpad]
  have hunit : (useOf (asDest b)).unit = Claim.unitOf (fmtOf b) := asDest_unit b
  rw [hcredit, hscales, hunit, Ply.walkOf_eq (by exact hsrc), Ply.walkOf_eq (by rw [asDest_shape]; exact hdst), Shape.padUnit_eq,
    unitSize_eq, Shape.fmt_eq]
  rfl

/-- What a copy decides after order 4 of R225, by the offsets beyond the ends of its records. -/
def State.copyTail (s : State) (scl : Bool) (rows soff bar : Nat) (far : List Nat) (k : CopyKind) : Except Cause CopyKind :=
  if scl && soff % 16 != 0 then .error (align (BitVec.ofNat 64 soff))
  else
    match far with
    | o :: os => .error (localRange 0 (BitVec.ofNat 64 (os.foldl min o)))
    | [] =>
      if scl && decide (131072 < soff + 16 * rows) then .error (localRange 0 (BitVec.ofNat 64 soff))
      else if bits bar 31 31 == 1 && (bits bar 30 15 != 0 || clusterOf (bits bar 14 5) != clusterOf s.ply.core) then .error (engine 11)
      else .ok k

theorem copyTail_follows {scl : Bool} {places : Prop} (hscl : scl = true ↔ places) (rows : Nat) (soff bar : Word) {far : List Nat}
    {p : Nat → Prop} (hfar : BoundsBelow far p) (k : CopyKind) : FollowsChecks [⟨places ∧ soff.toNat % 16 ≠ 0, 0x08, 0, fun e => e = soff.zeroExtend 64⟩,
      ⟨∃ o, p o, 0x0C, 0, fun e => ∃ o, p o ∧ (∀ o', p o' → o ≤ o') ∧ e = BitVec.ofNat 64 o⟩,
      ⟨places ∧ 131072 < soff.toNat + 16 * rows, 0x0C, 0, fun e => e = soff.zeroExtend 64⟩,
      ⟨bar.getLsbD 31 = true ∧ (bar.toNat / 2 ^ 15 % 2 ^ 16 ≠ 0 ∨ bar.toNat / 2 ^ 8 % 2 ^ 7 ≠ s.ply.core / 8), 0x0E, 11, fun _ => True⟩]
      (s.copyTail scl rows soff.toNat bar.toNat far k) k := by
  have hoff : BitVec.ofNat 64 soff.toNat = soff.zeroExtend 64 := BitVec.ofNat_toNat ..
  have hside (q : Prop) [Decidable q] : (scl && decide q) = true ↔ places ∧ q := by
    rw [Bool.and_eq_true, decide_eq_true_eq, hscl]
  have halign : (scl && soff.toNat % 16 != 0) = true ↔ places ∧ soff.toNat % 16 ≠ 0 := by
    rw [Bool.and_eq_true, bne_iff_ne, hscl]
  unfold State.copyTail
  refine .cons (fun h => ⟨_, if_pos (halign.mpr h), align_states _ hoff⟩) fun h => ?_
  rw [if_neg (mt halign.mp h)]
  cases far with
  | cons o os =>
    obtain ⟨hp, hleast⟩ := hfar.least
    exact .cons (fun _ => ⟨_, rfl, localRange_states _ 0 ⟨_, hp, hleast, rfl⟩⟩) fun hn => absurd ⟨_, hp⟩ hn
  | nil =>
    refine .cons (fun hsome => absurd hsome (hfar.nil_iff.mp rfl)) fun _ => ?_
    dsimp only
    refine .cons (fun h => ⟨_, if_pos ((hside _).mpr h), localRange_states _ 0 hoff⟩) fun h => ?_
    rw [if_neg (mt (hside _).mp h)]
    refine .cons (fun h => ⟨_, if_pos ((barrierWord_iff bar s.ply.core).mpr h), engine_states ..⟩) fun h => ?_
    rw [if_neg (mt (barrierWord_iff bar s.ply.core).mp h)]
    exact .nil k

theorem tcopyCheck_follows
    (ha : s.shapeOf s.ply.tenant (s.S g) = some a) (hb : s.shapeOf s.ply.tenant (s.S (g + 1)) = some b)
    (hlen : ∀ r : Shape, r = a ∨ r = b ∨ c = some r → r.ext.length = 6 ∧ r.stride.length = 6)
    (huse : usesScales x a b → s.shapeOf s.ply.tenant a.scale = c ∧ c ≠ none) (hnone : ¬usesScales x a b → c = none) :
    FollowsChecks (copyChecks s x (s.S (g + 2)) (s.S (g + 3)) a b c) (s.tcopyCheck g x)
      (bulkCopy s x (s.S (g + 2)) (s.S (g + 3)) a b c) := by
  have hscales : (if (x && b.scl && a.scale != 0) = true then s.shapeOf s.ply.tenant a.scale else none) = c := by
    by_cases hu : usesScales x a b
    · rw [if_pos (usesScales_iff.mpr hu), (huse hu).1]
    · rw [if_neg (mt usesScales_iff.mp hu), hnone hu]
  have hcurrent : (x && b.scl && a.scale != 0 && c.isNone) = false := by
    by_cases hu : usesScales x a b
    · rw [Option.isNone_eq_false_iff.mpr (Option.isSome_iff_ne_none.mpr (huse hu).2), Bool.and_false]
    · rw [Bool.eq_false_iff.mpr (mt usesScales_iff.mp hu), Bool.false_and]
  have hscs : (c.toList.map fun r => (⟨r, r.ext.take 2, r.stride.take 2, 2⟩ : ShapeUse)) = (c.toList.map asScales).map useOf := by
    rw [List.map_map]
    rfl
  have hplainScales : ((c.toList.map asScales).map useOf).any (fun r => !(!r.shape.tr && r.shape.blk == 0 && !r.shape.scl)) =
      c.toList.any (fun r => !(!r.tr && r.blk == 0 && !r.scl)) := by
    rw [List.any_map, List.any_map]
    rfl
  have hspace (p : Nat → Bool) : ((fun r : ShapeUse => p (if r.shape.loc = true then bits r.shape.addr 31 30 else 0)) ∘ useOf) =
      fun r : InEffect => p (spaceNumber r.shape) := by
    funext r
    exact congrArg p (Shape.space_eq r.shape)
  unfold State.tcopyCheck
  dsimp only
  rw [ha, hb]
  dsimp only
  rw [hscales, hcurrent, if_neg Bool.false_ne_true, hscs, ← useOf_asSource, ← useOf_asDest, hplainScales]
  simp only [← List.map_cons, List.any_map, List.find?_map]
  rw [hspace (fun n => n == 3), hspace (fun n => n != 0)]
  unfold copyChecks
  simp only [List.append_assoc, List.cons_append, List.nil_append]
  have hrecords : asSource a :: asDest b :: c.toList.map asScales = recordsRead a b c := rfl
  have hrows : (if (b.blk == 1) = true then 96 else 64) = scaleRows b := by
    rw [Shape.blk_eq]
    simp only [beq_iff_eq]
    rfl
  rw [hrecords, hrows]
  refine .cons (fun h => ⟨_, if_pos ((order2_iff x a b c).mpr h), engine_states ..⟩) fun h => ?_
  rw [if_neg (mt (order2_iff x a b c).mp h)]
  refine .find (p := fun r => spaceNumber r.shape == 3) (f := fun r => localRange 2 r.shape.offset) ?_ ?_ ?_ ?_
  · exact fun r _ => beq_iff_eq
  · exact fun r _ => localRange_states _ 2 (Shape.offset_eq _)
  · intro r hr
    rw [hr]
    dsimp only [Option.map_some]
    rfl
  intro hfind hspaces
  rw [hfind]
  dsimp only [Option.map_none]
  refine .find (p := fun r => spaceNumber r.shape != 0) (f := fun r => localRange 3 r.shape.offset) ?_ ?_ ?_ ?_
  · exact fun r _ => bne_iff_ne
  · exact fun r _ => localRange_states _ 3 (Shape.offset_eq _)
  · intro r hr
    rw [hr]
    dsimp only [Option.map_some]
    rfl
  intro hfind _
  rw [hfind]
  dsimp only [Option.map_none]
  refine .find (p := ShapeUse.misaligned ∘ useOf) (f := fun r => align (BitVec.ofNat 64 r.shape.addr)) ?_ ?_ ?_ ?_
  · exact fun r hr => misaligned_iff (recordsRead_lengths a b c hlen r hr)
  · exact fun r _ => align_states _ (congrArg _ (Shape.addr_eq _))
  · intro r hr
    rw [hr]
    dsimp only [Option.map_some]
    rfl
  intro hfind _
  rw [hfind]
  dsimp only [Option.map_none]
  have hin : ∀ r ∈ recordsRead a b c, InSpace r.shape := hspaces
  have hsrc : InSpace (asSource a).shape := hin _ (by simp [recordsRead])
  have hdst : InSpace (asDest b).shape := hin _ (by simp [recordsRead])
  have hscsIn : ∀ r ∈ c.toList.map asScales, InSpace r.shape := fun r hr =>
    hin r (List.mem_cons_of_mem _ (List.mem_cons_of_mem _ hr))
  rw [bulkCopy_eq (a := a) hsrc (asDest_shape b ▸ hdst) (fun k hk => hscsIn (asScales k) (by simp [hk])) ?_]
  · have hscales : (c.toList.map asScales).flatMap (fun r => s.ply.beyond (s.ply.walkOf (useOf r)) 2
        ((tuples [8, scaleRows b]).filter fun t => within t (useOf r).ext)) = (c.toList.map asScales).flatMap fun r =>
          s.ply.beyond (walkFor s r) 2 ((tuples [8, scaleRows b]).filter fun t => within t r.ext) :=
      List.flatMap_congr fun r hr => by
        rw [Ply.walkOf_eq (hscsIn r hr)]
        rfl
    have hplaces : (x && b.scl) = true ↔ x = true ∧ sclOf b = true := Bool.and_eq_true_iff
    have hunit : unitSize a.fmt = (asSource a).unit := by
      rw [unitSize_eq, Shape.fmt_eq]
      rfl
    rw [List.flatMap_map, Ply.walkOf_eq hsrc, Ply.walkOf_eq hdst, hscales, hunit]
    exact copyTail_follows hplaces (scaleRows b) (s.S (g + 2)) (s.S (g + 3)) (far_bounds s a b c hlen) _
  · intro hne
    have hu : usesScales x a b := not_not.mp (mt hnone hne)
    have hall := usesScales_iff.mpr hu
    rw [Bool.and_eq_true] at hall
    exact hall.1

/-! ## TCOPY and TCOPYX (R225) -/

/-- The two instructions, with whether they may place scales. -/
theorem tcopyIssue_exec {f : (BitVec 6 → Instr) × Bool} (hf : f ∈ [((.tcopy : BitVec 6 → Instr), false), (.tcopyx, true)])
    (g : BitVec 6) (s : State) : exec (f.1 g) s = .next (s.tcopyIssue g f.2) := by
  simp only [List.mem_cons, List.not_mem_nil, or_false] at hf
  rcases hf with rfl | rfl <;> rfl

theorem tcopyIssue_nil (h : storingLanes s = []) : s.tcopyIssue g x = s.done := by
  unfold State.tcopyIssue
  rw [State.storeLanes_eq, h]

theorem tcopyIssue_error {l : Nat} {ls : List Nat} (h : storingLanes s = l :: ls) {e : Cause} (he : s.tcopyCheck g x = .error e) :
    s.tcopyIssue g x = s.raise e := by
  unfold State.tcopyIssue
  rw [State.storeLanes_eq, h, he]

theorem tcopyIssue_ok {l : Nat} {ls : List Nat} (h : storingLanes s = l :: ls) {k : CopyKind} (hk : s.tcopyCheck g x = .ok k) :
    s.tcopyIssue g x = (s.queueCopy 1 l (s.ply.info l).scope [(s.ply.info l).scope] k).done := by
  unfold State.tcopyIssue
  rw [State.storeLanes_eq, h, hk]
  rfl

/-- A stale handle (R225, order 1). -/
theorem stale_traps {l : Nat} {ls : List Nat} (h : storingLanes s = l :: ls) (hu : s.ply.supervisor = false) {w : Word}
    (he : s.tcopyCheck g x = .error (cause 0x0D 0 (w.zeroExtend 64))) :
    TakesTrap s (s.tcopyIssue g x) s.issue.first s.ply.pos 0x0D 0 0 (w.zeroExtend 64) 127 := by
  rw [tcopyIssue_error h he]
  obtain ⟨e, hgiven, htrap⟩ := State.raise_delivers (c := cause 0x0D 0 (w.zeroExtend 64)) hu (by decide : 0x0D ≠ 6) rfl
    (by decide : 0x0D ≠ 0x21) [cause 0x0D 0 (w.zeroExtend 64)]
  rw [hgiven rfl] at htrap
  exact htrap

theorem tcopyCheck_staleSource (ha : s.shapeOf s.ply.tenant (s.S g) = none) :
    s.tcopyCheck g x = .error (cause 0x0D 0 ((s.S g).zeroExtend 64)) := by
  unfold State.tcopyCheck
  dsimp only
  rw [ha]

theorem tcopyCheck_staleDest (ha : s.shapeOf s.ply.tenant (s.S g) ≠ none) (hb : s.shapeOf s.ply.tenant (s.S (g + 1)) = none) :
    s.tcopyCheck g x = .error (cause 0x0D 0 ((s.S (g + 1)).zeroExtend 64)) := by
  obtain ⟨r, hr⟩ := Option.ne_none_iff_exists'.mp ha
  unfold State.tcopyCheck
  dsimp only
  rw [hr, hb]

theorem tcopyCheck_staleScales (ha : s.shapeOf s.ply.tenant (s.S g) = some a) (hb : s.shapeOf s.ply.tenant (s.S (g + 1)) = some b)
    (hu : usesScales x a b) (hc : s.shapeOf s.ply.tenant a.scale = none) :
    s.tcopyCheck g x = .error (cause 0x0D 0 (a.scale.zeroExtend 64)) := by
  have huse := usesScales_iff.mpr hu
  unfold State.tcopyCheck
  dsimp only
  rw [ha, hb]
  dsimp only
  rw [if_pos huse, hc, huse]
  rfl

/-- The clauses of TCOPY and TCOPYX for current records (R225). -/
theorem tcopy_decides {f : (BitVec 6 → Instr) × Bool} (hf : f ∈ [((.tcopy : BitVec 6 → Instr), false), (.tcopyx, true)])
    {l : Nat} {ls : List Nat} (h : storingLanes s = l :: ls) (ha : s.shapeOf s.ply.tenant (s.S g) = some a)
    (hb : s.shapeOf s.ply.tenant (s.S (g + 1)) = some b)
    (hlen : ∀ r : Shape, r = a ∨ r = b ∨ c = some r → r.ext.length = 6 ∧ r.stride.length = 6)
    (huse : usesScales f.2 a b → s.shapeOf s.ply.tenant a.scale = c ∧ c ≠ none) (hnone : ¬usesScales f.2 a b → c = none) :
    RaisesFirst (f.1 g) s (copyChecks s f.2 (s.S (g + 2)) (s.S (g + 3)) a b c) ∧
      (allPass (copyChecks s f.2 (s.S (g + 2)) (s.S (g + 3)) a b c) → Answers (f.1 g) s fun t =>
        QueuesCopy s t 1 l (s.ply.info l).scope [(s.ply.info l).scope] (bulkCopy s f.2 (s.S (g + 2)) (s.S (g + 3)) a b c)) := by
  have hfollows := tcopyCheck_follows ha hb hlen huse hnone
  refine ⟨hfollows.raisesFirst fun e he => ?_, fun hpass => ⟨_, tcopyIssue_exec hf g s, ?_⟩⟩
  · rw [tcopyIssue_exec hf, tcopyIssue_error h he]
  · rw [tcopyIssue_ok h (hfollows.1 hpass)]
    exact State.queueCopy_queues s (by decide) ..

end

end Sys2Proof.Machine

/-!
The units of a bulk copy in walk order (R222, R226), and the statement on shape records and copies at issue.
-/
namespace Sys2Proof.Machine
open Sys2Proof.Claim

/-! ## Tuples by their number (R226) -/

theorem flatMap_range_map {α : Type} (f : Nat → Nat → α) {e : Nat} (he : 0 < e) (n : Nat) :
    ((List.range n).flatMap fun q => (List.range e).map fun i => f i q) = (List.range (e * n)).map fun j => f (j % e) (j / e) := by
  induction n with
  | zero => simp
  | succ n ih =>
    have hblock : (List.range e).map (fun i => f i n) = ((List.range e).map (e * n + ·)).map fun j => f (j % e) (j / e) := by
      rw [List.map_map]
      refine List.map_congr_left fun i hi => ?_
      have hi : i < e := List.mem_range.mp hi
      simp [Nat.mod_eq_of_lt hi, Nat.mul_add_div he, Nat.div_eq_of_lt hi]
    rw [List.range_succ, List.flatMap_append, ih, Nat.mul_succ, List.range_add, List.map_append, ← hblock]
    simp

/-- The j-th tuple of a walk, counter 0 fastest. -/
def tupleAt (ext : List Nat) (j : Nat) : List Nat := (List.range ext.length).map fun k => j / (ext.take k).prod % ext.getD k 1

theorem tupleAt_cons (e : Nat) (es : List Nat) (j : Nat) : tupleAt (e :: es) j = (j % e) :: tupleAt es (j / e) := by
  unfold tupleAt
  rw [List.length_cons, List.range_succ_eq_map, List.map_cons, List.map_map]
  congr 1
  · simp
  · refine List.map_congr_left fun k _ => ?_
    simp [Nat.div_div_eq_div_mul]

theorem length_tupleAt (ext : List Nat) (j : Nat) : (tupleAt ext j).length = ext.length := by simp [tupleAt]

theorem tuples_eq {ext : List Nat} (h : ∀ e ∈ ext, 0 < e) : tuples ext = (List.range ext.prod).map (tupleAt ext) := by
  induction ext with
  | nil => rfl
  | cons e es ih =>
    obtain ⟨he, hes⟩ := List.forall_mem_cons.mp h
    have hcons : tuples (e :: es) = (tuples es).flatMap fun t => (List.range e).map fun i => i :: t := rfl
    rw [hcons, ih hes, List.flatMap_map, flatMap_range_map (fun i q => i :: tupleAt es q) he, List.prod_cons]
    exact List.map_congr_left fun j _ => (tupleAt_cons e es j).symm

/-! ## Places of units (R222) -/

/-- The place of a tuple in a walk. -/
def placeAt (w : Walk) (t : List Nat) : Place := match w.loc with
  | none => .glob (w.base + BitVec.ofInt 64 (distanceOf w t))
  | some sp => .loc sp (w.origin + offsetOf w t)

theorem Walk.place_eq (w : Walk) (t : List Nat) : w.place t = placeAt w t := by
  unfold Walk.place placeAt
  rw [Walk.distance_eq, Walk.offset_eq]
  cases w.loc <;> rfl

theorem exchange_eq {t : List Nat} (h : 2 ≤ t.length) : exchange t = t.getD 1 0 :: t.getD 0 0 :: t.drop 2 := by
  match t, h with
  | a :: b :: l, _ => rfl

/-- The source tuple of a destination tuple (R226). -/
def sourceTuple (tr : Bool) (t : List Nat) : List Nat := if tr then t.getD 1 0 :: t.getD 0 0 :: t.drop 2 else t

theorem sourceTuple_eq (tr : Bool) {t : List Nat} (h : 2 ≤ t.length) : (if tr then exchange t else t) = sourceTuple tr t := by
  unfold sourceTuple
  rw [exchange_eq h]

theorem length_sourceTuple (tr : Bool) {t : List Nat} (h : 2 ≤ t.length) : (sourceTuple tr t).length = t.length := by
  unfold sourceTuple
  split
  · simp only [List.length_cons, List.length_drop]
    omega
  · rfl

theorem Walk.source_eq {w : Walk} {t : List Nat} (h : t.length = w.ext.length) :
    ((∀ k, k < w.ext.length → t.getD k 0 < w.ext.getD k 0) → w.source t = some (placeAt w t)) ∧
      ((∃ k, k < w.ext.length ∧ w.ext.getD k 0 ≤ t.getD k 0) → w.source t = none) := by
  unfold Walk.source
  refine ⟨fun hall => ?_, fun ⟨k, hk, hle⟩ => ?_⟩
  · rw [if_pos ((within_iff h).mpr ⟨h, hall⟩), Walk.place_eq]
  · refine if_neg fun hw => ?_
    have hlt := ((within_iff h).mp hw).2 k hk
    omega

/-- The units of a bulk copy without scales (R226). -/
theorem bulkUnits {u : Nat} {src dst : Walk} {tr : Bool} {pad : List Byte} {credit : Option (Nat × Nat)}
    (hpos : ∀ e ∈ dst.ext, 0 < e) (hlen : src.ext.length = dst.ext.length) (h2 : 2 ≤ dst.ext.length) :
    let us := (CopyKind.tcopy u src dst tr pad none credit).units
    us.length = dst.ext.prod ∧ ∀ j, j < dst.ext.prod → ∃ c, us[j]? = some c ∧ c.dst = placeAt dst (tupleAt dst.ext j) ∧ c.n = u ∧
      c.pad = pad ∧
      ((∀ k, k < dst.ext.length → (sourceTuple tr (tupleAt dst.ext j)).getD k 0 < src.ext.getD k 0) →
        c.src = some (placeAt src (sourceTuple tr (tupleAt dst.ext j)))) ∧
      ((∃ k, k < dst.ext.length ∧ src.ext.getD k 0 ≤ (sourceTuple tr (tupleAt dst.ext j)).getD k 0) → c.src = none) := by
  have hwalk : (CopyKind.tcopy u src dst tr pad none credit).units = (tuples dst.ext).map (fun t =>
      (⟨dst.place t, src.source (if tr then exchange t else t), pad, u⟩ : CopyUnit)) ++ [] := rfl
  intro us
  have hus : us = (List.range dst.ext.prod).map fun j =>
      ⟨dst.place (tupleAt dst.ext j), src.source (if tr then exchange (tupleAt dst.ext j) else tupleAt dst.ext j), pad, u⟩ := by
    rw [tuples_eq hpos, List.map_map, List.append_nil] at hwalk
    exact hwalk
  rw [hus]
  refine ⟨by simp, fun j hj => ⟨⟨dst.place (tupleAt dst.ext j),
    src.source (if tr then exchange (tupleAt dst.ext j) else tupleAt dst.ext j), pad, u⟩, ?_, Walk.place_eq .., rfl, rfl, ?_⟩⟩
  · rw [List.getElem?_map, List.getElem?_range hj]
    rfl
  · have ht : 2 ≤ (tupleAt dst.ext j).length := (length_tupleAt ..).symm ▸ h2
    have hl : (sourceTuple tr (tupleAt dst.ext j)).length = src.ext.length := by
      rw [length_sourceTuple tr ht, length_tupleAt, hlen]
    rw [sourceTuple_eq tr ht, ← hlen]
    exact Walk.source_eq hl

/-- Settles O34: requests to the hub and their answers, the decisions of copies by the table of checks, and the walk's units. -/
theorem copyIssue : Obligations.CopyIssue := by
  refine ⟨fun d a o s => shapew_raises d a o s, fun d a o s ha h30 h64 hw => ?_, fun a s => ?_,
    fun seq d slot off s hreq hslot _ hx hwf => ?_, fun seq h s hreq _ => shaperel_releases hreq,
    fun d r i z s src dst spa dpa hi h118 hends => ?_, fun f hf g s => ?_, fun u src dst tr pad credit hpos hlen h2 _ _ => ?_⟩
  · exact ⟨_, shapew_queues ha h30 h64 hw, State.pushHub_queues ..⟩
  · exact ⟨_, exec_shaperel a s, State.pushHub_queues ..⟩
  · obtain ⟨t, hexec, hmem, hS, hhubq, hshape⟩ := shapew_writes hreq hslot hx hwf
    exact ⟨t, hexec, hmem, hS, hhubq, _, hshape, Shape.parse_fields _⟩
  · exact lcp_answers (.inr ⟨hi, by omega⟩) hends
  · refine ⟨fun hnil => ⟨_, tcopyIssue_exec hf g s, ?_⟩, fun hne hu => ?_, fun l ls a b c h ha hb hlen => ⟨fun huse hc hu => ?_,
      fun huse hnone => tcopy_decides hf h ha hb hlen huse hnone⟩⟩
    · rw [tcopyIssue_nil hnil]
      exact ⟨OnlyPly.of_ply .., SameRun.unitDone ⟨rfl, rfl, rfl, rfl, rfl, rfl⟩⟩
    · obtain ⟨l, ls, h⟩ := List.exists_cons_of_ne_nil hne
      exact ⟨fun ha => ⟨_, tcopyIssue_exec hf g s, stale_traps h hu (tcopyCheck_staleSource ha)⟩,
        fun ha hb => ⟨_, tcopyIssue_exec hf g s, stale_traps h hu (tcopyCheck_staleDest ha hb)⟩⟩
    · exact ⟨_, tcopyIssue_exec hf g s, stale_traps h hu (tcopyCheck_staleScales ha hb huse hc)⟩
  · exact bulkUnits hpos hlen h2

end Sys2Proof.Machine
